-- ==== Sys2Proof/Word.lean ====
section
/-!
DEFINITION. The word types of the WG480 (R8, R11): bytes, 32-bit registers, 64-bit fields and the handle.
-/
namespace Sys2Proof

/-- One byte of a descriptor, completion, register or in-memory structure (R8). -/
abbrev Byte := BitVec 8

/-- A register of 32 bits (R11). -/
abbrev Word := BitVec 32

/-- A 64-bit field: a handle, an address, a deadline, a tick (R7, R8, R49). -/
abbrev DWord := BitVec 64

end Sys2Proof
end

