-- ==== Sys2Proof/Syntax.lean ====
section
/-!
DEFINITION. The commands of the block: one constructor per row of the spec's table of operations and events
(opcode_table.json), in the table's order. An opcode of a command ring (R50) names the accepted command by its
acceptance number; an event names the ring, session, page, port or other object it happens to, and carries what comes
from outside the device with it.
-/
namespace Sys2Proof.Machine

/-! ## What commands carry -/

/-- How the transfer of a state tile ends (R120, R159). -/
inductive TileOutcome
  | done | tagFail | decompressFail | programFail
  deriving DecidableEq, Repr

/-- The parameter block of a session, every default resolved (R84, R115); 0 stands for none where R84 says none. -/
structure Params where
  seed : Nat := 0
  model : Nat := 1
  /-- FLAGS.UTF8_REPLACE and FLAGS.DEAD_END_ESCAPE. -/
  utf8Replace : Bool := false
  deadEndEscape : Bool := false
  cls : Nat := 0
  topP : Nat := 16
  banSet : Nat := 0
  schema : Nat := 0
  escape : Nat := 0
  sink : Nat := 4
  recent : Nat := 2048
  budget : Nat := 4096
  compactAt : Nat := 0
  exitProfile : Nat := 0
  deriving DecidableEq, Repr

/-- What one slot of a page holds: the original index (R107), the tail-token word of R176 (token id, or bit 31 for an
input that is no vocabulary token), and a digest that stands for the KVP bytes of KV state. -/
structure Slot where
  index : Nat
  word : Nat
  kv : DWord
  deriving DecidableEq, Repr

/-- A page-table entry (R112). -/
structure PtEntry where
  frame : Nat
  count : Nat
  isTail : Bool := false
  isSealed : Bool := false
  compacted : Bool := false
  firstPos : Nat := 0
  lastPos : Nat := 0
  deriving DecidableEq, Repr

/-- One version of a step record (R114, R115, R176, R312). -/
structure StepRec where
  stepSeq : Nat := 0
  nextPos : Nat := 0
  held : Nat := 0
  recurLen : Nat := 0
  modelFp : Nat := 0
  params : Params := {}
  /-- Sampler state: LAST_TOKEN and LAST_U. -/
  lastToken : Nat := 0xFFFFFFFF
  lastU : Word := 0
  /-- Constraint state: SCHEMA_STATE, SEQ_NODE, FORCE (entry and next index while PENDING), ESC_NEXT, ESC_FLAGS. -/
  schemaState : Nat := 0
  seqNode : Nat := 0
  force : Option (Nat × Nat) := Option.none
  escNext : Nat := 0
  escActive : Bool := false
  escSpent : Bool := false
  /-- Tokenizer carry and detokenizer pending bytes. -/
  carry : List Byte := []
  pend : List Byte := []
  /-- Logits processor: TEMP, TOP_P, TOP_K. -/
  temp : Word := 0x3F800000
  topP : Word := 0x3F800000
  topK : Nat := 0
  /-- Scorer area: TAIL_TOKENS words of the tail page's slots, and the score table by original index. -/
  tailTokens : List Nat := []
  scores : List (Nat × Word) := []
  /-- A digest that stands for the rest of the recurrent and scratch state. -/
  recur : DWord := 0
  deriving DecidableEq, Repr

/-- What an encrypted capsule or staging capsule yields when it is read with its key: the step record, the page table with ordinals
for FRAME, and the positions of each page (R121 to R125). -/
structure Capsule where
  record : StepRec
  table : List PtEntry
  pages : List (List Slot)
  deriving DecidableEq, Repr

/-- What an attention tile works on (R226, R235): a page of a session, by slot and index in its page table, and the rows, each
with its original index and its query vectors after position encoding, one for each query head. The page's keys and values, the
layer's parameters and the valid slots are the device's own. -/
structure AttnWork where
  slot : Nat
  page : Nat
  rows : List (Nat × List (List (BitVec 32)))
  deriving DecidableEq, Repr

/-- One page's partial of a row and head (R231): the index of the page, m, l and o. -/
structure Partial where
  page : Nat
  m : BitVec 32
  l : BitVec 32
  o : List (BitVec 32)
  deriving DecidableEq, Repr

/-- Vector-engine work (R191, R198 to R200, R210, R211, R232, R234, R237, R240, R245). -/
inductive VecWork
  | add (a b : List (BitVec 32))
  | mul (a b : List (BitVec 32))
  | reduce (a : List (BitVec 32))
  | exp (a : List (BitVec 32))
  | log2 (a : List (BitVec 32))
  | recip (a : List (BitVec 32))
  | rsqrt (a : List (BitVec 32))
  | tanh (a : List (BitVec 32))
  | sigmoid (a : List (BitVec 32))
  /-- Conversion, or quantization of one block or row, to a format. -/
  | quantize (format : Nat) (a : List (BitVec 32))
  /-- The merge of the partials of a row and head, in ascending page index. -/
  | merge (parts : List Partial)
  /-- Attention weights of a page's slots after the merge. -/
  | weights (pr : List (BitVec 32)) (mp m rcp : BitVec 32)
  /-- Summary bound of a sealed page of a session for a row (R237): slot, index in the page table, and the row's query vectors
  after position encoding, one for each query head. -/
  | bound (slot page : Nat) (queries : List (List (BitVec 32)))
  /-- Routing of a row: logits, SEL_BIAS, TOP_K, ROUTE_FN is SOFTMAX, NORM, ROUTE_SCALE. -/
  | route (z bias : List (BitVec 32)) (topK : Nat) (softmax norm : Bool) (scale : BitVec 32)
  /-- The sum of a row's shared and chosen experts. -/
  | combine (sharedOut : List (List (BitVec 32))) (chosen : List (BitVec 32 × List (BitVec 32)))
  /-- The exit decision of a decode row at a profile layer: the head's logit and the threshold. -/
  | exitHead (z threshold : BitVec 32)
  deriving DecidableEq, Repr

/-- Operand B of a matrix tile: consecutive rows of a weight tensor of the tile's model, by entry of the tensor table; or rows
of `k` binary elements that are no weights, as they are stored (R197, R201). -/
inductive MatB
  | tensor (entry first count : Nat)
  | codes (k : Nat) (rows : List (List (BitVec 8)))
  deriving DecidableEq, Repr

/-- A matrix tile with its readout (R201, R209): operand A's format, its rows as they are stored and their tensor scales (1.0
where none is listed), operand B, the output format, and whether a binary layer reads out K - 2 × count. -/
structure MatWork where
  fa : Nat
  a : List (List (BitVec 8))
  tensorA : List (BitVec 32) := []
  b : MatB
  out : Nat
  dot : Bool := false
  deriving DecidableEq, Repr

/-- The work of a tile (R206). -/
inductive TileWork
  | matrix (w : MatWork)
  | attention (w : AttnWork)
  | vector (w : VecWork)
  /-- A DMA tile carries bytes of any format, unconverted. -/
  | dma (bytes : List (BitVec 8))
  /-- Keys with binary32 payloads, or with INT32 payloads. -/
  | sortUnique (keys : List Nat) (payloads : List (BitVec 32)) (isFloat : Bool)
  deriving DecidableEq, Repr

/-- The layout descriptor of a model (R215). -/
structure Layout where
  kvp : Nat := 256
  kvFormat : Nat := 4
  noCarry : Bool := false
  moe : Bool := false
  sumChannels : Nat := 1
  recurBytes : Nat := 0
  scoreOff : Nat := 0
  scoreCap : Nat := 0
  layers : Nat := 1
  experts : Nat := 0
  topK : Nat := 0
  shared : Nat := 0
  vocab : Nat := 1
  dModel : Nat := 64
  dObs : Nat := 0
  deriving DecidableEq, Repr

/-- An entry of the tensor table (R216), and whether its reserved bytes are 0. -/
structure Tensor where
  format : Nat
  flags : Nat
  layer : Nat
  expert : Nat
  rows : Nat
  k : Nat
  offset : Nat
  scale : BitVec 32
  reserved : Bool := true
  deriving DecidableEq, Repr

/-- What the layer program gives a layer: the attention parameters of R227, the routing scale of R239, the split length of R210,
and the pairs of formats that its matrix products have, activation first (R194, R201). -/
structure LayerProg where
  hq : Nat
  hkv : Nat
  dk : Nat
  dv : Nat
  kvShared : Bool
  scale : BitVec 32
  qFormat : Nat
  pFormat : Nat
  selector : Bool
  routeScale : BitVec 32
  split : Nat := 0
  pairs : List (Nat × Nat) := []
  deriving DecidableEq, Repr

/-- What section 3 of a model package, whose encoding is not an interface (R213), says for each layer, and whether the device accepts
the rest of it. -/
structure LayerProgram where
  layers : List LayerProg
  accepted : Bool
  deriving DecidableEq, Repr

/-- A refused access of BAR 0: its byte offset, and whether it reads (R11). -/
structure RegAccess where
  off : BitVec 26
  read : Bool
  deriving DecidableEq, Repr

/-- A compaction that may go on: its session's slot, and whether HBM fails as it copies (R183, R190). -/
structure CompactionTurn where
  slot : Nat
  ue : Bool
  deriving DecidableEq, Repr

/-- A half of a cluster's weight window and the slab that fills it (R221). -/
structure WindowSlab where
  cluster : BitVec 3
  half : Bool
  slab : Nat
  deriving DecidableEq, Repr

/-- A vector of the MSI-X table, and the message address and data that host software has put into its entry (R25, R29). -/
structure VectorEntry where
  vector : BitVec 11
  address : DWord
  data : Word
  deriving DecidableEq, Repr

/-- Kinds of peer message (R386). -/
inductive MsgKind
  | fp32Add | rowStore | rowReq | rowData | applied | leaseNote | quietNote
  deriving DecidableEq, Repr

/-- A peer message (R384, R386): header fields and the values of its body. -/
structure PeerMsg where
  kind : MsgKind
  source : Nat
  msgSeq : Nat
  seq : Nat
  epoch : Nat := 0
  table : Nat := 0
  /-- ROW_OR_LEASE. -/
  row : Nat := 0
  values : List Word := []
  deriving DecidableEq, Repr

/-- How a fabric request completes (R387, R390). -/
inductive FabResult
  | normal | unsupported | aborted | poisoned
  deriving DecidableEq, Repr


/-! ## What comes with the events of tiles, power, self-test and the sideband -/

/-- The tile that a core takes next (R208, R221, R269): its kind, model, whether it is an urgent tile of a job, the bytes of the
urgent reserve that its operands and results take, and the half of the weight window and the slab in it that it needs, if any. -/
structure NextTile where
  kind : Nat
  model : Nat
  urgent : Bool := false
  job : Nat := 0
  reserve : Nat := 0
  needs : Option (Bool × Nat) := Option.none
  deriving DecidableEq, Repr

/-- How a tile ran (R206 to R208, R506, R519): core cycles, starved cycles of both kinds before it, the session slots of its
rows, lowest row first, or its jobs with their weights, the layer, the ticks of R519, and the flags. -/
structure TileRan where
  cycles : Nat
  front : Nat := 0
  back : Nat := 0
  rows : List Nat := []
  jobs : List (Nat × Nat) := []
  layer : Nat := 0
  queued : Nat := 0
  ready : Nat := 0
  start : Nat := 0
  windowWait : Bool := false
  preempted : Bool := false
  /-- Rows of an exit head's evaluation that do not exit (R245, R508). -/
  exits : List Nat := []
  corrected : Nat := 0
  deriving DecidableEq, Repr

/-- How a self-test goes (R495 to R497): the failed segments, the segments run, whether the window was found broken, and the
conditions at its start. -/
structure BistRun where
  failed : List Nat
  segs : Nat
  broken : Bool
  vcore : Nat
  clk : Nat
  deriving DecidableEq, Repr

/-- What a boot finds (R486, R498): SLOT_ID, the digests of measurements 1 to 3, the rest of the configuration record, the
short self-test if it runs, the measured start oscillator, and whether writing the result store fails. -/
structure BootInput where
  slotId : Nat
  firmware : List Nat
  config : List (BitVec 8)
  bist : BistRun
  startMhz : Nat
  writeFails : Bool
  deriving DecidableEq, Repr

/-- TAP instructions (R492); `other` is any that is not among the boundary-scan ones. -/
inductive TapInstr
  | bypass | idcode | sample | extest | extestPulse | extestTrain | clamp | highz | other
  deriving DecidableEq, Repr

/-- SPDM requests (R436, R437) but those with a row of their own. -/
inductive SpdmReq
  | getVersion | getCapabilities | negotiate | getDigests | getCertificate | challenge
  | keyExchange (hbeat : Bool) (periodS : Nat)
  | finish (session : Nat)
  | heartbeat (session : Nat)
  | keyUpdate (session : Nat)
  | endSession (session : Nat)
  | chunk
  | ideKm
  /-- PSK_EXCHANGE, GET_CSR, SET_CERTIFICATE, KEY_PROG and every other request that the device does not support. -/
  | unsupported
  deriving DecidableEq, Repr

/-- SPDM ERROR responses. -/
inductive SpdmError
  | busy | unexpectedRequest | unsupportedRequest | sessionLimit
  deriving DecidableEq, Repr

/-- What wrapping, signatures and fuses yield (R439, R491). -/
structure Crypto where
  /-- The key unwraps; the hash is the device's; the signature is valid; the fuses program. -/
  unwraps : Bool := true
  hashOk : Bool := true
  sigOk : Bool := true
  fuseOk : Bool := true
  deriving DecidableEq, Repr

end Sys2Proof.Machine

namespace Sys2Proof

open Sys2Proof.Machine

/-- A store that host software makes into the BAR 2 window (`window` true) or into host memory, before the register
write that announces it (R25, R44, R45). -/
structure HostStore where
  window : Bool
  addr : Nat
  bytes : List Byte
  deriving DecidableEq, Repr


/-- The rows of the table. -/
inductive Instr
  /-- NOP (R51). Completes with OK and a result of 0 and does nothing else. -/
  | nop (cmd : Nat)
  /-- FENCE (R63). Completes only after every earlier command of its ring, or with GLOBAL of the tenant or device, has written its final completion, and holds later commands of its ring until then. -/
  | fence (cmd : Nat)
  /-- SESS_CREATE (R85). Checks quota, free slot and HBM room, then allocates the oldest free slot and writes a WARM, IDLE directory entry with the new generation. -/
  | sessCreate (cmd : Nat)
  /-- SESS_CLOSE (R95). Ends an outstanding TOOL_WAIT and STEP, sets the session CLOSED and decrements the count of every page it holds. -/
  | sessClose (cmd : Nat)
  /-- SESS_FORK (R87). Creates a child that shares the parent's whole pages and inherits the first AT_POSITION positions and the newest step record. -/
  | sessFork (cmd : Nat)
  /-- SESS_QUERY (R89). Answers at once from the directory entry in RESULT and, optionally, in a 64-byte query record. -/
  | sessQuery (cmd : Nat)
  /-- APPEND_TEXT (R290). Tokenizes a UTF-8 buffer with the session's carry and enters the tokens as pending input, subject to limits and truncation. -/
  | appendText (cmd : Nat)
  /-- APPEND_TOKENS (R300). Ends the text stream and enters the given token ids as pending input, subject to limits and truncation. -/
  | appendTokens (cmd : Nat)
  /-- STEP (R261). Requests generation for a session and sets its deadline and GEN_REQ, or is refused while GEN_REQ is already 1. -/
  | step (cmd : Nat)
  /-- TOOL_WAIT (R91). Sets RESUME_TICK, runs the compaction point and hands the session to the state mover for a tier choice. -/
  | toolWait (cmd : Nat)
  /-- RESUME (R94). Ends a tool wait, writing the TOOL_WAIT's final completion, and makes the session RUNNABLE or IDLE. -/
  | resume (cmd : Nat)
  /-- PARK (R151). Moves a HOT or WARM session to PARKED or POOLED, or only writes back its sealed pages. -/
  | park (cmd : Nat)
  /-- EXPORT_CAPSULE (R129). Pins the session's pages and writes an encrypted Euldoum capsule of its state to the destination, or returns the size bound. -/
  | exportCapsule (cmd : Nat)
  /-- IMPORT_CAPSULE (R131). Checks a capsule and stores it as a new WARM, IDLE session. -/
  | importCapsule (cmd : Nat) (content : Capsule)
  /-- MIGRATE_OUT (R398). Writes a staging capsule, offers the lease to the destination device and watches the lease word. -/
  | migrateOut (cmd : Nat)
  /-- MIGRATE_IN (R399). Checks a staging capsule and the lease offer, stores the state and accepts the lease by CAS. -/
  | migrateIn (cmd : Nat) (content : Capsule) (word : Option DWord)
  /-- RECLAIM (R401). Takes an AWAY session back by a reclaim CAS and rebuilds its state from a capsule. -/
  | reclaim (cmd : Nat) (content : Capsule) (word : Option DWord)
  /-- EMB_LOOKUP (R325). Queues observation bags for pooling in the next embedding batch, for output or delivery as positions. -/
  | embLookup (cmd : Nat)
  /-- EMB_UPDATE (R334). Queues ADD and STORE records for embedding rows into the next batch. -/
  | embUpdate (cmd : Nat)
  /-- EMB_REPLICATE (R332). Gives listed or candidate hot rows copies across HBM stacks, or removes them, at batch boundaries. -/
  | embReplicate (cmd : Nat)
  /-- MEM_INSERT (R360). Places binary-code records into collection partitions at its batch's commit, founding partitions where SEED is set. -/
  | memInsert (cmd : Nat)
  /-- MEM_DELETE (R362). Records a tombstone sequence for each listed item id at its batch's commit. -/
  | memDelete (cmd : Nat)
  /-- MEM_SEARCH (R354). Queues queries for a graph walk and channel scan against the batch's snapshot. -/
  | memSearch (cmd : Nat)
  /-- MEM_COMPACT (R364). Rewrites a collection's partitions into the inactive graph half from a snapshot, optionally splitting them. -/
  | memCompact (cmd : Nat)
  /-- MODEL_LOAD (R218). Checks a model package, allots the model region and reads, decrypts and stores its sections under a model id. -/
  | modelLoad (cmd : Nat)
  /-- MODEL_UNLOAD (R220). Releases a loaded model unless a session still names it. -/
  | modelUnload (cmd : Nat)
  /-- CONSTRAINT_LOAD (R306). Loads or unloads a sequence set, schema automaton, escape sequence or exit profile for the tenant. -/
  | constraintLoad (cmd : Nat)
  /-- VOCAB_LOAD (R287). Checks a vocabulary package and loads it into the tokenizer's tables for a model. -/
  | vocabLoad (cmd : Nat)
  /-- CKPT_TAKE (R415). Starts a whole-device checkpoint, full or incremental, and completes when its manifest is written. -/
  | ckptTake (cmd : Nat)
  /-- CKPT_RESTORE (R423). Checks a checkpoint manifest and restores the device state it records. -/
  | ckptRestore (cmd : Nat)
  /-- TENANT_OPEN (R456). Opens a tenant, generating its HBM, flash and pool keys and binding its transport key. -/
  | tenantOpen (cmd : Nat)
  /-- TENANT_CLOSE (R459). Starts the preparation of a tenant's closing: drains its rings, closes its sessions and releases its objects. -/
  | tenantClose (cmd : Nat)
  /-- SHUTDOWN (R493). Stops the device, optionally runs the full self-test, records the result and switches every domain but always-on OFF. -/
  | shutdown (cmd : Nat) (bist : BistRun) (writeFails : Bool)
  /-- WAITING_COMMAND_EFFECT (R76). A command that waited for a run state, a move to end or no step to hold the session takes effect. -/
  | waitingCommandEffect
  /-- DESCRIPTOR_FETCH (R47). The device fetches a waiting descriptor once a completion slot can be reserved, validates it and admits it. -/
  | descriptorFetch (ring : BitVec 8) (readable : Bool)
  /-- COMMAND_DEQUEUE (R275). The admission shaper dequeues the eligible head of lowest finish tag in a group by weighted fair queuing. -/
  | commandDequeue
  /-- LATE_DROP (R277). A queued command of a DROP_LATE class whose deadline has passed is removed and completes with DEADLINE_MISSED. -/
  | lateDrop
  /-- ADM_SAMPLE_WINDOW_END (R278). At the end of a sojourn sample window the shaper latches each queue's sojourn figures and hands them to the dumps. -/
  | admSampleWindowEnd
  /-- COMMAND_WATCHDOG (R64). A started command whose engines made no progress for GLB_WATCHDOG.MS completes with INTERNAL. -/
  | commandWatchdog (cmd : Nat)
  /-- SQ_DOORBELL (R44). Host writes the new descriptor count; the device treats TAIL minus SQ_HEAD as descriptors waiting or discards an overflowing write. -/
  | sqDoorbell (ring : BitVec 8) (tail : Word) (stores : List HostStore)
  /-- CQ_DOORBELL (R43). Host writes the count of completions consumed, or the write is discarded if it passes completions not yet written. -/
  | cqDoorbell (ring : BitVec 8) (head : Word)
  /-- PUSH (R46). The write to PUSH +0x138 places a pushed descriptor in the next slot and advances TAIL. -/
  | push (ring : BitVec 8) (q7 : DWord) (stores : List HostStore)
  /-- RING_ENABLE (R43). CTRL.EN written 1 on a ring page enables a bound ring with valid sizes and bases, or records the failing condition. -/
  | ringEnable (ring : BitVec 8) (function : BitVec 4)
  /-- RING_DISABLE (R43). CTRL.EN written 0 on an enabled ring stops fetching and puts the ring DRAINING. -/
  | ringDisable (ring : BitVec 8)
  /-- RING_SOFT_RST (R43). CTRL.SOFT_RST of a ring drains it discarding completions, or clears counters and errors of a disabled ring. -/
  | ringSoftRst (ring : BitVec 8)
  /-- RING_DRAINED (R43). OUTSTANDING of a DRAINING ring reaches 0 and the ring goes DISABLED, unbound after TENANT_CLOSE. -/
  | ringDrained (ring : BitVec 8)
  /-- DESCRIPTOR_READ_FAIL (R43). A descriptor read fails or times out and the ring goes HALTED with ERR_CODE 0x0006. -/
  | descriptorReadFail (ring : BitVec 8)
  /-- COMPLETION_WRITE_FAIL (R43). A completion write fails or times out; the completion is discarded and the ring goes HALTED. -/
  | completionWriteFail (ring : BitVec 8)
  /-- PAYLOAD_WRITE_FAIL (R549). A device write to an output payload fails; the write is discarded, the ring records 0x0009 and the command completes with INTERNAL. -/
  | payloadWriteFail (cmd : Nat)
  /-- SOURCE_READ_FAIL (R550). A read of a package or capsule source fails; the command completes with INTERNAL and leaves nothing. -/
  | sourceReadFail (cmd : Nat)
  /-- COALESCE_TIMER (R54). COALESCE.TIME µs pass since the first unsignalled completion and a signal falls due. -/
  | coalesceTimer (ring : BitVec 8)
  /-- RING_BIND (R41). GLB_RING_BIND.BIND binds a disabled ring to a tenant with its window allotment, or records 0x0010 to 0x0012. -/
  | ringBind (value : Word)
  /-- RING_UNBIND (R41). GLB_RING_BIND.UNBIND unbinds a disabled ring, or records 0x0010. -/
  | ringUnbind (value : Word)
  /-- BAD_REGISTER_ACCESS (R11). A BAR 0 access of wrong width or alignment is discarded or reads all ones and is recorded in GLB. -/
  | badRegisterAccess (access : RegAccess)
  /-- REGISTER_WRITE (R10). A write to a register field with no row of its own, taking effect, going to a shadow, or being refused for lock as its access code states. -/
  | registerWrite (off : BitVec 26) (value : DWord) (wide : Bool)
  /-- BLOCK_ENABLE (R33). CTRL.EN written on a block page without its own enable row, enabling or disabling the block. -/
  | blockEnable (page : BitVec 10) (en : Bool)
  /-- SOFT_RST (R28). CTRL.SOFT_RST resets a block as its chapter states and discards pending shadow values. -/
  | softRst (page : BitVec 10)
  /-- COMMIT (R32). CTRL.COMMIT applies a block's pending shadow values at once or at the next safe point. -/
  | commit (page : BitVec 10)
  /-- SHADOW_APPLY (R31). At a block's safe point with HOLD 0, all pending shadow values are applied in one indivisible update. -/
  | shadowApply (page : BitVec 10)
  /-- INT_STATUS_CLEAR (R29). A W1C write to INT_STATUS clears bits, ERR_CODE with ERR, and resends the interrupt if the enabled set stays non-empty. -/
  | intStatusClear (page : BitVec 10) (bits : Word)
  /-- INT_SET (R551). A write of 1 to INT_SET sets the same INT_STATUS bit with its interrupt effects but no STATUS or ERR_CODE change. -/
  | intSet (page : BitVec 10) (bits : Word)
  /-- INT_ENABLE_WRITE (R29). A write to INT_ENABLE that makes the enabled pending set non-empty sends the block's interrupt message. -/
  | intEnableWrite (page : BitVec 10) (bits : Word)
  /-- SDIR_ENABLE (R97). SDIR_CTRL.EN written 1 checks the slot count and bases and starts initialising the directory, or a disable is refused while slots are allocated. -/
  | sdirEnable (en : Bool)
  /-- SDIR_INIT_DONE (R97). Initialisation of the backing store and free list completes and SDIR reads ENABLED. -/
  | sdirInitDone
  /-- STM_ENABLE (R158). STM_CTRL.EN written checks heap, flash quota and pool and enables the state mover, or refuses a disable while a move runs. -/
  | stmEnable (en : Bool)
  /-- CANE_ENABLE (R187). CANE_CTRL.EN written checks and clears the prefix-index and page-record tables, or refuses a disable while records are allotted. -/
  | caneEnable (en : Bool)
  /-- GAF_ENABLE (R281). GAF_CTRL.EN written 0 stops composing steps after the running one; written 1 resumes them. -/
  | gafEnable (en : Bool)
  /-- ADM_ENABLE (R283). ADM_CTRL.EN written 1 marks and queues the commands that waited before admission, in acceptance order. -/
  | admEnable (en : Bool)
  /-- MRV_ENABLE (R314). MRV_CTRL.EN written enables or disables the tokenizer block with no further check. -/
  | mrvEnable (en : Bool)
  /-- JCK_ENABLE (R316). JCK_CTRL.EN written checks the constraint store and enables the block, or refuses a disable while objects are loaded. -/
  | jckEnable (en : Bool)
  /-- EMB_ENABLE (R342). EMB_CTRL.EN written checks the replica areas and enables the block, or refuses a disable while a table is VALID. -/
  | embEnable (en : Bool)
  /-- SRCH_ENABLE (R368). SRCH_CTRL.EN written checks and clears the tombstone table, or refuses a disable while a collection is VALID. -/
  | srchEnable (en : Bool)
  /-- FAM_ENABLE (R407). FAM_CTRL.EN written checks SELF and the lease pointer table, or refuses a disable while sessions are leased or AWAY. -/
  | famEnable (en : Bool)
  /-- CKP_ENABLE (R431). CKP_CTRL.EN written checks store, staging and page map and starts reading the manifest slots. -/
  | ckpEnable (en : Bool)
  /-- CKP_INIT_DONE (R431). The checkpoint block has read both manifests and their indexes and reads ENABLED. -/
  | ckpInitDone
  /-- SEC_ENABLE (R471). SEC0_CTRL.EN written checks owner map, generation table and pads and starts rebuilding the owner map, or refuses a disable while a tenant is not CLOSED. -/
  | secEnable (en : Bool)
  /-- SEC_INIT_DONE (R471). The owner map is rebuilt and the generation table cleared, and SEC reads ENABLED. -/
  | secInitDone
  /-- TEL_ENABLE (R528). CTRL.EN of TEL0 or TEL3 written 1 checks the dump or tag ring and resets the dump counts. -/
  | telEnable (which : BitVec 2) (en : Bool)
  /-- FAB_ENABLE (R374). FABn_CTRL.EN written 1 starts link training, or written 0 takes the port OFF. -/
  | fabEnable (n : BitVec 3) (en : Bool)
  /-- FAM_MAP_COMMIT (R377). FAM_CTRL.COMMIT checks the shadow fabric address map and swaps it in as one update, or refuses it. -/
  | famMapCommit
  /-- DEAD_MARK_CLEAR (R393). FAM_DEAD_STAT.CLEAR clears the dead mark of the selected device id so the device issues to it again. -/
  | deadMarkClear
  /-- TBL_VALID_WRITE (R341). TBL_CFG.VALID written 1 checks and makes an embedding table usable; written 0 retires it at the next boundary. -/
  | tblValidWrite (v : Bool)
  /-- COLL_VALID_WRITE (R368). COLL_CFG.VALID written 1 checks and empties a collection; written 0 frees it at the next boundary. -/
  | collValidWrite (v : Bool)
  /-- KEYIN_GO (R441). Unwraps the mailbox record with the named set key and stages it as a MODEL key, or reports a result code. -/
  | keyinGo (value : Word)
  /-- KEY_DISCARD (R468). Zeroises the selected staged key entry. -/
  | keyDiscard
  /-- TEN_BIND_GO (R469). Binds a staged TRANSPORT key as the selected tenant's current TTK, dropping the oldest of four. -/
  | tenBindGo (value : Word)
  /-- CKPT_BIND_GO (R469). Binds a staged CKK for use from the next checkpoint. -/
  | ckptBindGo (value : Word)
  /-- SET_REVOKE (R451). Zeroises the selected set key so model keys wrapped under it are refused. -/
  | setRevoke
  /-- STREAM_START (R454). Derives keys for the selected IDE stream over its SPDM session and sends K_SET_GO, or records 0x0004. -/
  | streamStart
  /-- STREAM_STOP (R470). Sends K_SET_STOP and zeroises the selected stream's keys. -/
  | streamStop
  /-- STREAM_REKEY (R452). Moves the selected stream to its next key generation and alternates the key set. -/
  | streamRekey
  /-- STREAM_AUTO_REKEY (R452). A stream counter nears 2^32 − 2^24 values and the device rekeys the stream. -/
  | streamAutoRekey (n : Nat)
  /-- DOM_REQ (R476). A write to PWR_DOM_REQ starts or holds a transition of the selected domain, or is refused. -/
  | domReq (value : BitVec 2)
  /-- DOMAIN_TRANSITION_DONE (R476). A domain transition ends and any held request is applied. -/
  | domainTransitionDone (domain : Nat)
  /-- AUTO_WAKE (R477). Work needs an automatic domain in RETENTION or OFF and the device wakes it while the work waits. -/
  | autoWake (domain : Nat)
  /-- AUTO_IDLE_RETURN (R477). An automatically woken domain is idle for AUTO_IDLE.US and returns to RETENTION. -/
  | autoIdleReturn (domain : Nat)
  /-- AON_CLOCK_GATE (R481). The always-on fast clock is gated after AON_IDLE.US without work. -/
  | aonClockGate
  /-- CORE_SW_TO_PLL (R479). Moves the selected cores to the PLL at their next tile boundary. -/
  | coreSwToPll
  /-- CORE_SW_TO_START (R502). Moves the selected cores to the start oscillator at their next tile boundary. -/
  | coreSwToStart
  /-- RST_DEVICE_COLD (R485). RST_DEVICE.COLD with KEY 0xC0DE applies a cold reset; any other KEY is discarded with 0x0010. -/
  | rstDeviceCold (value : Word)
  /-- GET_MEASUREMENTS (R438). SPDM request returning the signed SHA-384 measurement blocks. -/
  | getMeasurements (index : Nat)
  /-- SPDM_REQUEST (R436). Any other supported SPDM request, such as certificate, challenge, key exchange, heartbeat, key update or end of session. -/
  | spdmRequest (req : SpdmReq)
  /-- KEY_DELIVER (R440). Vendor request in a secure session that unwraps and stages a delivered key, answering with a result code. -/
  | keyDeliver (session : Option Nat) (payload : List Byte) (unwraps : Bool)
  /-- LIFECYCLE_ADVANCE (R491). Vendor request that advances the fused life-cycle state to DEPLOYED or, with a signed token, to RMA. -/
  | lifecycleAdvance (session : Option Nat) (mctp : Bool) (payload : List Byte) (y : Crypto)
  /-- TEL_READ (R523). MCTP vendor message reading registers of TEL0, BIST or a FAILED page without side effects. -/
  | telRead (payload : List Byte)
  /-- ENTDAA (R487). The I3C controller assigns the device its dynamic address from a provisional ID carrying SLOT_ID. -/
  | entdaa (addr : BitVec 7)
  /-- FP32_ADD (R386). A peer message carrying an FP32 add change arrives at a table's home and is placed in its inbox. -/
  | fp32Add (m : PeerMsg)
  /-- ROW_STORE (R386). A peer message carrying a row store arrives at a table's home and is placed in its inbox. -/
  | rowStore (m : PeerMsg)
  /-- ROW_REQ (R340). A peer row request arrives and is served in the home's next batch fetch. -/
  | rowReq (m : PeerMsg)
  /-- ROW_DATA (R386). A peer message with requested row values arrives for a lookup of a REMOTE table. -/
  | rowData (m : PeerMsg)
  /-- APPLIED (R386). A peer message reports a sent change applied at the home, completing the update when all its changes are. -/
  | applied (m : PeerMsg)
  /-- LEASE_NOTE (R398). A peer message tells the offerer the lease word moved, and it reads the word at once. -/
  | leaseNote (m : PeerMsg) (word : Option DWord)
  /-- QUIET_NOTE (R388). A peer announces a quiet window; the receiver holds its requests to that peer and counts no timeout for them. -/
  | quietNote (m : PeerMsg)
  /-- QUIET_SPAN_END (R388). The held span for a peer's quiet window ends and held requests issue with fresh timeouts. -/
  | quietSpanEnd (device : Nat)
  /-- PEER_SLOT_TIMEOUT (R387). No reassembly slot frees within 500 µs for a peer write, which is completed with Completer Abort. -/
  | peerSlotTimeout (source : Nat)
  /-- PEER_RESEND (R387). 100 µs after a Completer Abort from a PEER entry, the sender resends the fragment. -/
  | peerResend (req : Nat)
  /-- APERTURE_BAD_ACCESS (R385). A read, atomic or malformed write to the peer aperture completes with Unsupported Request and is discarded. -/
  | apertureBadAccess (source : Nat)
  /-- VIN_RISE (R472). Both tabs rise through 58.0 V for 8 samples, the power stages start and power-on occurs. -/
  | vinRise (mv : Nat)
  /-- VIN_UV_WARN (R472). Input below PWR_UV_WARN for 8 samples sets UV_WARN. -/
  | vinUvWarn (mv : Nat)
  /-- VIN_UV_FAULT (R472). Input below 55.0 V for 2 samples drops PGOOD and every rail: a loss of power. -/
  | vinUvFault (mv : Nat)
  /-- VIN_OV_WARN (R472). Input above PWR_OV_WARN for 8 samples sets OV_WARN. -/
  | vinOvWarn (mv : Nat)
  /-- VIN_OV_FAULT (R472). Input above 85.0 V for 2 samples is treated as an under-voltage fault. -/
  | vinOvFault (mv : Nat)
  /-- VIN_OV_RECOVERY (R472). After an over-voltage fault the input stays within 58.0-80.0 V for 10 ms and the device starts a new power-on. -/
  | vinOvRecovery (mv : Nat)
  /-- TAB_FAULT (R535). One tab is absent or falls out of range; its stage is faulted and the device runs at half of PLIMIT. -/
  | tabFault
  /-- GOVERNOR_STEP_DOWN (R473). Each 10 µs over a current, power or temperature limit lowers the PLL by 25 MHz, or gates matrix issue at the floor. -/
  | governorStepDown (ma : Nat) (w : Nat) (c : Nat)
  /-- GOVERNOR_STEP_UP (R473). Each 1 ms below 97 % of both limits raises the PLL by 25 MHz toward CLK_PLL.MHZ. -/
  | governorStepUp (ma : Nat) (w : Nat) (c : Nat)
  /-- THERMAL_TRIP (R485). A die sensor at 125 °C switches off every rail and drives THERMTRIP_N low until power-on. -/
  | thermalTrip (c : Nat)
  /-- RESET_N_ASSERT (R485). RESET_N low for at least 1 µs applies a cold reset. -/
  | resetNAssert
  /-- BOOT (R486). RESET_N rises and the device runs its boot sequence to GLB ENABLED. -/
  | boot (b : BootInput)
  /-- BENCH_WATCHDOG (R485). The management-core watchdog expires and applies a cold reset. -/
  | benchWatchdog
  /-- FLR (R485). Function-level reset of a CXL.io function resets its configuration and halts rings behind it. -/
  | flr (function : BitVec 4)
  /-- REFCLK_LOST (R482). REFCLK loses its edges or range; cores move to the start oscillator, ports go DOWN and ALERT_N is set. -/
  | refclkLost
  /-- REFCLK_QUALIFIED (R482). REFCLK qualifies again, the PLL relocks and cores return if AUTO_RETURN is 1. -/
  | refclkQualified (khz : Nat)
  /-- PLL_LOCK_FAIL (R505). The PLL fails to lock within 50 µs with REFCLK qualified and cores stay on the start oscillator. -/
  | pllLockFail
  /-- JTAG_INSTRUCTION (R492). A TAP instruction is selected; a non-boundary instruction zeroises the island's secrets and applies a cold reset first. -/
  | jtagInstruction (instr : TapInstr)
  /-- RNG_HEALTH_FAIL (R435). A random number generator health test fails; no further key is generated until reset. -/
  | rngHealthFail
  /-- KEY_MEMORY_UE (R471). An uncorrectable error in the island's key memory puts the island FAILED. -/
  | keyMemoryUe
  /-- LINK_L0 (R374). A port reaches L0 in flit mode and becomes UP or DEGRADED. -/
  | linkL0 (n : Nat) (rate : Nat) (width : Nat)
  /-- LINK_TRAIN_TIMEOUT (R374). No L0 within 100 ms; the port goes DOWN, or FAILED after 16 failures. -/
  | linkTrainTimeout (n : Nat)
  /-- LINK_RETRAIN (R374). 1 s after a training failure the port restarts training. -/
  | linkRetrain (n : Nat)
  /-- LINK_DOWN (R374). A port leaves L0; it leaves every map entry and its outstanding requests are reissued or failed. -/
  | linkDown (n : Nat)
  /-- IDE_INTEGRITY_FAIL (R405). An IDE integrity failure stops the stream and fails its requests. -/
  | ideIntegrityFail (stream : Nat) (n : BitVec 3)
  /-- FABRIC_COMPLETION (R379). A completion arrives for a fabric read, write or atomic and its issuing engine continues. -/
  | fabricCompletion (req : Nat) (result : FabResult)
  /-- FABRIC_TIMEOUT (R389). A request's response timeout runs out and its target device id is marked dead. -/
  | fabricTimeout (device : Nat)
  /-- DEAD_WALK_DONE (R392). The walk of a dead target ends and WALK_DONE is set. -/
  | deadWalkDone (device : Nat)
  /-- LEASE_CAS_RESULT (R395). The answer to a lease CAS arrives, or an unknown outcome is settled by re-reading the word. -/
  | leaseCasResult (addr : Nat) (found : Option DWord) (reread : Option DWord)
  /-- LEASE_VALIDATION_RESULT (R396). A validation read of a lease word returns and the pending commit proceeds, withdraws a stale offer, loses the lease or is refused. -/
  | leaseValidationResult (slot : Nat) (word : Option DWord)
  /-- LEASE_POLL (R398). Every LEASE_POLL.US the offerer reads the lease word of an outstanding offer. -/
  | leasePoll (cmd : Nat) (word : Option DWord)
  /-- OFFER_TIMEOUT (R398). No acceptance within OFFER_MS and the offerer sends a withdrawal CAS. -/
  | offerTimeout (cmd : Nat)
  /-- STEP_COMPOSE (R253). The step scheduler composes the next step from ranked candidates, decode rows first then prefill chunks. -/
  | stepCompose
  /-- GATHER_TIMEOUT (R256). GAF_GATHER.US after the first candidate with no step running, composition starts. -/
  | gatherTimeout
  /-- TAIL_ALLOT_GIVE_UP (R255). After 10 ms of failed tail allotments the outstanding STEP completes with NO_SPACE, DETAIL 11. -/
  | tailAllotGiveUp (slot : Nat)
  /-- TILE_END (R208). A tile completes on a core, which then takes its next tile, an urgent tile or a clock switch. -/
  | tileEnd (core : BitVec 7) (work : TileWork) (ran : TileRan) (next : Option NextTile)
  /-- URGENT_WINDOW_END (R270). A window of GAF_URGENT.WINDOW_US ends and urgent tiles capped by the share may run again. -/
  | urgentWindowEnd
  /-- STEP_COMMIT (R116). A session's step ends: its working copy is written as a new version and committed in one directory update. -/
  | stepCommit (slot : Nat)
  /-- VERSION_WAIT_TIMEOUT (R149). After 50,000 ticks without a free version the step aborts the read of the lowest version and writes it. -/
  | versionWaitTimeout (slot : Nat)
  /-- COMPACTION_SPACE_READY (R183). A compaction that waited for space or page records proceeds. -/
  | compactionSpaceReady (turn : CompactionTurn)
  /-- COMPACTION_ABANDON (R183). A command-started compaction still waiting after 10 ms is abandoned and the command completes with NO_SPACE, DETAIL 8. -/
  | compactionAbandon (slot : Nat)
  /-- PARTIAL_SLOT_FREE (R48). A completion slot frees and a session held back for a partial completion may join steps again. -/
  | partialSlotFree (slot : Nat)
  /-- CORE_SRAM_UE (R225). An uncorrectable core SRAM error ends the step without commit and puts the core FAILED. -/
  | coreSramUe (core : BitVec 7)
  /-- CLUSTER_SRAM_UE (R225). An uncorrectable cluster SRAM error fails its cores and releases its seated sessions to WARM. -/
  | clusterSramUe (cluster : BitVec 3)
  /-- DIR_MISS_FILL (R77). An entry read from HBM on a cache miss returns and is filled into the victim way. -/
  | dirMissFill (slot : Nat) (ue : Bool)
  /-- DIR_TAG_PARITY (R98). A parity error in the cache tag array disables the set. -/
  | dirTagParity (set : BitVec 15)
  /-- OVERSTAY (R93). RESUME_TICK plus OVERSTAY passes in a tool wait and the state mover makes a fresh tier choice. -/
  | overstay (slot : Nat)
  /-- REHEAT_F1 (R153). Fire tick F1 of a waiting session promotes it from PARKED or POOLED to WARM. -/
  | reheatF1 (slot : Nat)
  /-- REHEAT_F2 (R153). Fire tick F2 of a waiting session promotes it from WARM to HOT. -/
  | reheatF2 (slot : Nat)
  /-- HOT_IDLE_DEMOTE (R135). A HOT session outside steps for STM_HOT_IDLE.US is demoted to WARM. -/
  | hotIdleDemote (slot : Nat)
  /-- AGE_DEMOTE (R135). A WARM idle session with no command for STM_AGE.S is demoted to PARKED or POOLED. -/
  | ageDemote (slot : Nat)
  /-- PRESSURE_DEMOTION (R139). Free heap falls below RESERVE + LOW and the state mover demotes victims until it exceeds RESERVE + 2 × LOW. -/
  | pressureDemotion
  /-- MOVE_START (R134). A move obtains a context and reserved destination space and starts, under the step fence for a HOT session. -/
  | moveStart
  /-- TILE_TRANSFER (R143). A state tile is granted credit on its read and write ports and is moved. -/
  | tileTransfer (outcome : TileOutcome)
  /-- CREDIT_WINDOW_END (R143). A credit window of STM_WINDOW.US ends and each port's credits are renewed. -/
  | creditWindowEnd
  /-- MOVE_COMMIT (R81). The last tile is written, PT_ROOT and SR_ADDR are switched in one update and the source is released. -/
  | moveCommit
  /-- PROMOTION_SPACE_TIMEOUT (R141). A promotion not started 10 ms after its need tick gives up and its waiting commands complete with NO_SPACE, DETAIL 5. -/
  | promotionSpaceTimeout
  /-- PAGE_FREE (R165). Page reclamation frees a record whose REFS and PINS reached 0, releasing its copies and hollowing its node. -/
  | pageFree
  /-- PAGE_RECORD_UE (R188). An uncorrectable error in a page record or node entry is recorded and contained. -/
  | pageRecordUe (node : Bool) (n : Nat)
  /-- EMB_BATCH_CLOSE (R319). An embedding batch closes on its index count or gather time and runs its sort, fetch and pooling. -/
  | embBatchClose
  /-- EMB_BATCH_COMMIT (R320). An embedding batch merges and applies updates, the inbox and switches, and writes completions at its boundary. -/
  | embBatchCommit
  /-- DET_EPOCH_CLOSE (R337). An epoch window closes and its changes are applied at the next boundary in source order. -/
  | detEpochClose (table : Nat) (epoch : Nat)
  /-- EMB_ROW_UE (R342). An uncorrectable error in a row copy drops the copy or blocks reads of the primary. -/
  | embRowUe (table : Nat) (row : Nat) (stack : Nat) (primary : Bool)
  /-- SRCH_BATCH_CLOSE (R350). A search batch closes on its query count or gather time and takes its snapshot. -/
  | srchBatchClose
  /-- CHANNEL_SCAN_DONE (R357). The channels finish scanning and the coordinator merges their heaps into each query's result. -/
  | channelScanDone
  /-- SRCH_BATCH_COMMIT (R350). A search batch commits its inserts and deletes and completes its commands at its boundary. -/
  | srchBatchCommit
  /-- MEM_COMPACT_SWITCH (R365). At the first boundary after the rewrite a collection compaction switches halves as one update. -/
  | memCompactSwitch
  /-- GROUP_FAIL (R369). A group fails its tag or read, or a graph entry is uncorrectable, and the collection goes FAILED. -/
  | groupFail (coll : Nat) (graph : Bool)
  /-- CKPT_TIMER (R414). CKP_TIMER.S seconds after the last cut a checkpoint starts, or is skipped if one runs. -/
  | ckptTimer
  /-- CKPT_STEP_COUNT (R414). CKP_STEPS.COUNT steps after the last cut a checkpoint starts, or is skipped if one runs. -/
  | ckptStepCount
  /-- CKPT_CUT (R416). Quiescence completes and the cut is taken. -/
  | ckptCut
  /-- CKPT_FREEZE_END (R417). The staging copy completes, the freeze ends and work resumes. -/
  | ckptFreezeEnd
  /-- CKPT_MANIFEST_DONE (R420). The second fence after the manifest passes, completing the checkpoint and releasing old store space. -/
  | ckptManifestDone
  /-- CKPT_ABORT (R421). A store write fails or the store fills and the checkpoint ends without a manifest. -/
  | ckptAbort (writeFail : Bool)
  /-- RESTORE_DONE (R424). A restore finishes writing state, adjusts ticks, settles leases and commits. -/
  | restoreDone (words : List (Nat × DWord)) (failed : Option Bool)
  /-- MODEL_LOAD_DONE (R219). Every section of a model load is stored and checked and the model id becomes usable. -/
  | modelLoadDone (program : LayerProgram)
  /-- CAPSULE_EXPORT_DONE (R130). The header of an exported capsule is written last and the export completes. -/
  | capsuleExportDone (writeFail : Bool)
  /-- CAPSULE_IMPORT_DONE (R132). Every tile of an import is stored and checked and the new entry is written. -/
  | capsuleImportDone
  /-- FINING_PREP_DONE (R455). A closing tenant's preparation completes and, with no pass running, its fining pass starts with the quiet window. -/
  | finingPrepDone (t : Nat)
  /-- QUIET_WINDOW_CLOSE (R460). At 2 ms the quiet window closes, unless QUIET extends it to the whole pass. -/
  | quietWindowClose
  /-- SCRUB_UNIT_VISIT (R461). Every 1,017 ticks each stack's next unit is scrubbed through its pad, with the SRAM scrub at an even pace. -/
  | scrubUnitVisit
  /-- FINING_SRAM_ZERO (R462). At the first step boundary after the key destruction the working, shared and urgent SRAM regions are zeroed. -/
  | finingSramZero
  /-- FINING_PASS_END (R460). At 1,602 ms the tenant's registers are cleared, the tenant is CLOSED and TENANT_CLOSE completes. -/
  | finingPassEnd
  /-- CALIBRATION_DUE (R489). A calibration deferred for CAL_MS pauses its unit for at most 2 µs. -/
  | calibrationDue
  /-- BW_WINDOW_END (R510). A bandwidth window ends and every port's counts move to the last-window registers. -/
  | bwWindowEnd (counts : List (Nat × Nat × Nat))
  /-- DUMP_WRITE_DONE (R514). A dump's sections and header writes complete and DUMPS_WRITTEN advances. -/
  | dumpWriteDone
  /-- TAG_WRITE_DONE (R520). A tag record's write completes and TAG_TAIL advances. -/
  | tagWriteDone
  /-- TEL_RING_WRITE_FAIL (R528). A dump or tag ring write fails and the dump or record is dropped. -/
  | telRingWriteFail (tag : Bool)
  /-- WINDOW_HALF_FILLED (R221). The window streamer finishes filling a half of a cluster's weight window, and a core waiting for that half starts its tile. -/
  | windowHalfFilled (filled : WindowSlab) (bytes : Nat) (stalls : Nat)
  /-- VOCAB_LOAD_DONE (R287). The vocabulary package has been read and checked and the vocabulary becomes loaded, completing VOCAB_LOAD. -/
  | vocabLoadDone
  /-- PLL_UNLOCK (R502). The PLL loses lock while REFCLK is present and CLK INT_STATUS.PLL_UNLOCK is set. -/
  | pllUnlock
  /-- POWER_STAGE_FAULT (R505). A power-stage die reports a fault and the device runs at half of PLIMIT with PWR ERR_CODE 0x0002. -/
  | powerStageFault
  /-- MCTP_CONTROL_MESSAGE (R475). An MCTP control message over I3C is received and answered from the always-on domain. -/
  | mctpControlMessage
  /-- CONFIG_REQUEST (R486). A CXL.io configuration request arrives at a function and completes, with Configuration Request Retry Status until boot tick 36,000,000. -/
  | configRequest (function : BitVec 4)
  /-- MSIX_VECTOR_UNMASK (R29). Host software unmasks an MSI-X vector in BAR 4 and a message held as a pending bit is sent. -/
  | msixVectorUnmask (function : BitVec 4) (entry : VectorEntry)
  /-- L0P_WIDTH_CHANGE (R374). An UP or DEGRADED port enters or leaves L0p width reduction, changing its width and payload rate without a change of state. -/
  | l0pWidthChange (n : Nat) (width : Nat)
  /-- SPDM_HEARTBEAT_TIMEOUT (R436). An SPDM secure session using HBEAT receives no heartbeat within its period and the device ends the session. -/
  | spdmHeartbeatTimeout (session : Nat)
  deriving DecidableEq, Repr

end Sys2Proof
end

