-- ==== Sys2Proof/Decode.lean ====
section
/-!
DEFINITION. Words and commands. The spec's table of operations and events gives none of its rows any bits: a command
reaches the device as an in-memory descriptor or as an event, never as an instruction word (log entry 5).
-/
namespace Sys2Proof

/-- The command that a word spells by the table's bits: none, since no row has bits. -/
def decodeTableWord (_nbits _w : Nat) : Option Instr := none

end Sys2Proof
end

