-- ==== Sys2Proof/Config.lean ====
section
/-!
DEFINITION. What an implementation fixes and what the spec leaves open: constants without a body, of which nothing can be
proved but what holds for every value of them. Each is named in the assumption log.
-/
namespace Sys2Proof

/-- Bytes that the spec leaves undefined: memory touched by a failed write (R549), bytes no rule fixes. -/
opaque Config.freeByte : Nat → BitVec 8

/-- Words that the spec leaves open: random draws, addresses of internal allotments, measured inputs. -/
opaque Config.freeWord : Nat → BitVec 64

/-- Digest of the KV state of one position: a function of the model fingerprint, the governing configuration, the digests
of the positions before it in page-table order, and the position's index and input (R20, R21, R103). -/
opaque Config.kvOf : Nat → Nat → List (Nat × BitVec 64) → Nat → Nat → List (BitVec 32) → BitVec 64

/-- Digest of the recurrent state after a position: a function of the fingerprint, the state before and the position's
KV digest (R20). -/
opaque Config.recurOf : Nat → BitVec 64 → BitVec 64 → BitVec 64

/-- The binary32 logit of a token after a row: a function of the fingerprint, the configuration, the digests of the
positions held up to that row, and the recurrent state (R20, R311). -/
opaque Config.logitOf : Nat → Nat → List (Nat × BitVec 64) → BitVec 64 → Nat → BitVec 32

/-- Byte of the recurrent and scratch state that a digest stands for, outside the scorer area (R114). -/
opaque Config.recurByte : BitVec 64 → Nat → BitVec 8

/-- Byte of the KV state that a position's digest stands for, by its number among the KVP bytes of the position (R103, R228). -/
opaque Config.kvByte : BitVec 64 → Nat → BitVec 8

/-- The query of a decode row after position encoding, in binary32 (R226): a function of the fingerprint, the configuration and
the digests held up to the row, by layer, query head and channel. -/
opaque Config.queryOf : Nat → Nat → List (Nat × BitVec 64) → Nat → Nat → Nat → BitVec 32

/-- The logit of a layer's exit head for a decode row (R245), a function of the same. -/
opaque Config.exitLogit : Nat → Nat → List (Nat × BitVec 64) → Nat → BitVec 32

/-- The LZ4 block that stepping A1's encoder makes of a tile's bytes, a fixed function of them (R119). -/
opaque Config.lz4 : List (BitVec 8) → List (BitVec 8)

/-- Bytes of the constraint store that an object of a kind takes, from the length of its body (R306). -/
opaque Config.storeBytes : Nat → Nat → Nat

/-- Commands that an engine of stepping A1 can hold beyond the one that every engine holds (R276). -/
opaque Config.engineRoom : Nat → Nat

/-- The fixed hash that chooses a port for a request (R378), from the target's device id and address bits [63:12]. -/
opaque Config.portHash : Nat → Nat → Nat

/-- Measurement 4, over the fuse configuration: life-cycle state and number of seed changes (R438). -/
opaque Config.fuseDigest : Nat → Nat → BitVec 384

/-- Measurement 6, over the debug state (R438). -/
opaque Config.debugDigest : Bool → BitVec 384

/-! ## What cryptography yields (R434, R439; log entry 125) -/

/-- The export master secret of the secure session with a number, opened at a tick (R439). -/
opaque Config.exportSecret : Nat → Nat → List (BitVec 8)

/-- The 256-bit key that AES Key Wrap (RFC 3394) gives from a wrapping key and 40 wrapped bytes. -/
opaque Config.unwrapKey : List (BitVec 8) → List (BitVec 8) → List (BitVec 8)

/-- The unique device secret that the PUF response and the fuse seed give, by the number of changes of the seed (R434, R491). -/
opaque Config.deviceSecret : Nat → List (BitVec 8)

/-- The private key of an ECDSA P-384 pair derived from a secret, its public key, and a signature with it. -/
opaque Config.ecKey : List (BitVec 8) → BitVec 384
opaque Config.ecPublic : BitVec 384 → BitVec 768
opaque Config.ecSign : BitVec 384 → BitVec 768 → BitVec 768

/-- Vitraulo's root and manufacturing CA: public keys, the root's signatures of itself and of the CA, and the CA's of a key. -/
opaque Config.rootKey : BitVec 768
opaque Config.makerKey : BitVec 768
opaque Config.rootSign : Nat → BitVec 768
opaque Config.makerSign : BitVec 768 → BitVec 768

/-- The digest of a certificate chain, from its public keys and signatures (R436). -/
opaque Config.chainDigest : List (BitVec 768) → List (BitVec 768) → BitVec 384

/-- A home's row that arrives in a ROW_DATA has its taint bit set there: the message has no field that says so (R23, R386; log
entry 126). -/
opaque Config.homeTainted : Nat → Bool

/-- The JEP106 manufacturer code that Vitraulo holds (R540). -/
opaque Config.jep106 : BitVec 11

end Sys2Proof
end

