-- ==== Sys2Proof/Machine/Regs.lean ====
section
/-!
DEFINITION. The block-specific register fields of BAR 0, one constructor per field of the spec's register tables
(R40, R96, R157, R186, R189, R223, R280, R282, R313, R315, R340, R367, R404, R406, R430, R467 to R470, R501 to R504,
R524 to R527), with its page, place, access code (R10) and reset value.
The common page (R28) and the command-ring pages (R37) are structures of their own in Machine/State.lean.
-/
namespace Sys2Proof.Machine

/-- The access codes of R10. -/
inductive Access
  | ro | rw | rws | rwl | w1c | w1s | wo
  deriving DecidableEq, Repr

/-- What stands for the block's enable in R33 for an RWL field: the page's CTRL.EN, or what R224, R340, R367 and R470
say in its place. -/
inductive Lock
  | page | cluster | noModel | table | collection | stream
  deriving DecidableEq, Repr

/-- Which selector register chooses the copy of a field that several tenants, queues, tables and so on each have. -/
inductive Bank
  | one | sdirTenant | stmTenant | evicTenant | model | admQueue | admTenant | vocab | mrvTenant | jckObject | jckTenant
  | table | hotRow | collection | mapEntry | deadDevice | stagedKey | secTenant | setKey | stream | domain
  | telCore | telQueue | telPort
  deriving DecidableEq, Repr

/-- The block-specific fields, named PAGE_REGISTER_FIELD as the spec writes BLOCK_REGISTER.FIELD. -/
inductive Reg
  | GLB_RING_BIND_RING
  | GLB_RING_BIND_TENANT
  | GLB_RING_BIND_ADMIN
  | GLB_RING_BIND_UNBIND
  | GLB_RING_BIND_BIND
  | GLB_RING_WIN_WIN_BASE
  | GLB_RING_WIN_WIN_UNITS
  | GLB_WATCHDOG_MS
  | GLB_TICK_TICK
  | GLB_BOOT_EPOCH_EPOCH
  | GLB_ACCESS_ERR_OFFSET
  | GLB_INT_ROUTE_VECTOR
  | GLB_INT_ROUTE_ROUTE_EN
  | SDIR_CFG_CACHE_EN
  | SDIR_CFG_LOCK_WAYS
  | SDIR_BASE_ADDR
  | SDIR_FREELIST_ADDR
  | SDIR_SLOTS_COUNT
  | SDIR_OVERSTAY_US
  | SDIR_QUOTA_SEL_TENANT
  | SDIR_QUOTA_MAX
  | SDIR_QUOTA_USED_USED
  | SDIR_BAD_SLOT_SLOT
  | SDIR_BAD_SLOT_VALID
  | SDIR_HITS_COUNT
  | SDIR_MISSES_COUNT
  | SDIR_LOCK_STALLS_COUNT
  | SDIR_STALE_COUNT
  | SDIR_ALLOCATED_COUNT
  | SDIR_RETIRED_COUNT
  | SDIR_OVERSTAYS_COUNT
  | SDIR_LOST_COUNT_COUNT
  | SDIR_RES_COUNT_COUNT
  | STM_CFG_REHEAT_EN
  | STM_CFG_AGE_EN
  | STM_CFG_PRESSURE_EN
  | STM_CFG_WEAR_GOV_EN
  | STM_CFG_POOL_EN
  | STM_CFG_PRESSURE_SHIFT
  | STM_WINDOW_US
  | STM_HEAP_BASE_ADDR
  | STM_HEAP_SIZE_GIB
  | STM_HBM_LOW_GIB
  | STM_HBM_RESERVE_GIB
  | STM_FLASH_QUOTA_GIB
  | STM_FLASH_LOW_GIB
  | STM_HOT_BELOW_US
  | STM_POOL_BASE_ADDR
  | STM_POOL_SIZE_GIB
  | STM_PARK_ABOVE_MS
  | STM_AGE_S
  | STM_HOT_IDLE_US
  | STM_TEN_SEL_TENANT
  | STM_TEN_LEAD_PW_US
  | STM_TEN_LEAD_LW_US
  | STM_TEN_LEAD_WH_US
  | STM_TEN_LEAD_WH_NVER
  | STM_WEAR_RATE_MBPS
  | STM_WEAR_DEPTH_GIB
  | STM_WEAR_LEVEL_BYTES
  | STM_BUDGET_GBPS
  | STM_SHARE_GUAR
  | STM_SHARE_CEIL
  | STM_MOVES_UP_COUNT
  | STM_MOVES_DOWN_COUNT
  | STM_TILES_MOVED_COUNT
  | STM_TILES_REFERENCED_COUNT
  | STM_FLASH_BYTES_COUNT
  | STM_VER_STALLS_COUNT
  | STM_VER_STALL_MAX_TICKS
  | STM_VER_ABORTS_COUNT
  | STM_SPACE_STALLS_COUNT
  | STM_REHEAT_FIRED_COUNT
  | STM_REHEAT_LATE_COUNT
  | STM_CANCELS_COUNT
  | STM_WEAR_REFUSALS_COUNT
  | STM_WEAR_OVERDRAW_BYTES
  | STM_FLASH_FREE_GIB
  | STM_HEAP_FREE_GIB
  | CANE_CFG_LOOKUP_EN
  | CANE_CFG_INSERT_EN
  | CANE_NODE_BASE_ADDR
  | CANE_NODES_COUNT
  | CANE_TOKEN_BASE_ADDR
  | CANE_BUCKET_BASE_ADDR
  | CANE_BUCKETS_LOG2
  | CANE_REC_BASE_ADDR
  | CANE_REC_COUNT_COUNT
  | CANE_LOOKUPS_COUNT
  | CANE_ADOPTED_COUNT
  | CANE_INSERTS_COUNT
  | CANE_INSERT_DUP_COUNT
  | CANE_INSERT_FULL_COUNT
  | CANE_COLLISIONS_COUNT
  | CANE_COW_COPIES_COUNT
  | CANE_FREED_COUNT
  | CANE_ABANDONED_COUNT
  | CANE_NODES_USED_COUNT
  | CANE_RECORDS_USED_COUNT
  | CANE_FREE_PENDING_COUNT
  | EVIC_TEN_SEL_TENANT
  | EVIC_TEN_CFG_DECAY_SHIFT
  | EVIC_TEN_CFG_PRESSURE_EVICT
  | EVIC_TEN_PRESS_BUDGET_POSITIONS
  | EVIC_COMPACTIONS_COUNT
  | EVIC_NOOPS_COUNT
  | EVIC_DROPPED_COUNT
  | EVIC_PAGES_WRITTEN_COUNT
  | EVIC_PAGES_KEPT_COUNT
  | EVIC_PRESSURE_EVICTIONS_COUNT
  | EVIC_SPACE_WAITS_COUNT
  | EVIC_TABLE_DROPS_COUNT
  | EVIC_LONGEST_TICKS
  | CRU_CFG_ZERO_SKIP_EN
  | CRU_SRAM_RES_MIB
  | CRU_SRAM_URGENT_MIB
  | CRU_CLOCK_PLL
  | CRU_CLOCK_MHZ
  | CRU_TILE_KIND
  | CRU_TILE_MODEL
  | CRU_TILE_URGENT
  | CRU_TILES_COUNT
  | CRU_BUSY_CYCLES_COUNT
  | CRU_PREEMPTS_COUNT
  | CRU_ZERO_SKIPS_COUNT
  | CRU_SPARSE_TILES_COUNT
  | CRU_SATURATIONS_COUNT
  | CRU_NAN_ZEROED_COUNT
  | CRU_OVERRUNS_COUNT
  | CRU_MAX_TILE_CYCLES
  | CRU_ECC_CORRECTED_COUNT
  | CRU_CLU_SR_MIB
  | CRU_CLU_WIN_MIB
  | CRU_CLU_SEATS_FREE_UNITS
  | CRU_CLU_WIN_STALLS_COUNT
  | CRU_CLU_WIN_BYTES_COUNT
  | CRU_MODEL_BASE_ADDR
  | CRU_MODEL_SIZE_GIB
  | CRU_MODEL_SEL_ID
  | CRU_MODEL_STAT_LOADED
  | CRU_MODEL_STAT_RESIDENT
  | CRU_MODEL_STAT_PRIVATE
  | CRU_MODEL_STAT_TENANT
  | CRU_MODEL_STAT_W
  | CRU_MODEL_BYTES_COUNT
  | CRU_MODEL_SESSIONS_COUNT
  | CRU_MODEL_FREE_GIB
  | CRU_MODEL_FP_FP
  | GAF_CFG_BUDGET
  | GAF_CHUNK_ROWS
  | GAF_CHUNK_MIN
  | GAF_GATHER_US
  | GAF_URGENT_PCT
  | GAF_URGENT_WINDOW_US
  | GAF_STEP_SEQ_COUNT
  | GAF_DECODE_ROWS_COUNT
  | GAF_PREFILL_ROWS_COUNT
  | GAF_PREEMPTS_COUNT
  | GAF_URGENT_JOBS_COUNT
  | GAF_URGENT_CAPPED_COUNT
  | GAF_ALLOT_SKIPS_COUNT
  | GAF_ALLOT_FAILS_COUNT
  | GAF_MISSES_COUNT
  | GAF_HELD_BACK_COUNT
  | GAF_LAST_ROWS_COUNT
  | GAF_LAST_TICKS_TICKS
  | GAF_MAX_TICKS_TICKS
  | ADM_CFG_POLICE_EN
  | ADM_SAMPLE_US
  | ADM_VT_URGENT_VT
  | ADM_VT_NORMAL_VT
  | ADM_CLASS_OVERHEAD
  | ADM_CLASS_URGENT
  | ADM_CLASS_DROP_LATE
  | ADM_RING_COLOUR_COLOUR
  | ADM_Q_SEL_TENANT
  | ADM_Q_SEL_CLASS
  | ADM_Q_MODE_POLICED
  | ADM_Q_MODE_COLOUR_AWARE
  | ADM_Q_WEIGHT_WEIGHT
  | ADM_Q_CIR_KBPS
  | ADM_Q_PIR_KBPS
  | ADM_Q_CBS_BYTES
  | ADM_Q_PBS_BYTES
  | ADM_Q_MAX_CMDS_COUNT
  | ADM_Q_YELLOW_MAX_BYTES
  | ADM_Q_DEPTH_CMDS_COUNT
  | ADM_Q_DEPTH_BYTES_BYTES
  | ADM_Q_SOJ_LAST_TICKS
  | ADM_Q_SOJ_MAX_TICKS
  | ADM_Q_SOJ_SUM_TICKS
  | ADM_Q_SOJ_COUNT_COUNT
  | ADM_Q_GREEN_COUNT
  | ADM_Q_YELLOW_COUNT
  | ADM_Q_RED_COUNT
  | ADM_Q_DEPTH_DROPS_COUNT
  | ADM_TEN_SEL_TENANT
  | ADM_TEN_SUBMITTED_COUNT
  | ADM_TEN_COMPLETED_COUNT
  | ADM_TEN_PREEMPTED_COUNT
  | ADM_TEN_MISSED_COUNT
  | ADM_TEN_DROPPED_COUNT
  | ADM_ACCEPTED_COUNT
  | ADM_DROPPED_COUNT
  | MRV_CFG_LANES
  | MRV_VOCAB_SEL_ID
  | MRV_VOCAB_STAT_LOADED
  | MRV_VOCAB_STAT_PRESPLIT
  | MRV_VOCAB_STAT_MAX_LEN
  | MRV_VOCAB_TOKENS_COUNT
  | MRV_VOCAB_MERGES_COUNT
  | MRV_VOCAB_EOS_TOKEN
  | MRV_VOCAB_ELIDE_TOKEN
  | MRV_VOCAB_DIGEST_DIGEST
  | MRV_FREE_TOKENS_COUNT
  | MRV_FREE_MERGES_COUNT
  | MRV_FREE_BYTES_COUNT
  | MRV_TEN_SEL_TENANT
  | MRV_TEN_TRUNC_EN
  | MRV_TEN_TRUNC_H_COUNT
  | MRV_TEN_TRUNC_T_COUNT
  | MRV_TEN_TRUNC_MAX_COUNT
  | MRV_BYTES_IN_COUNT
  | MRV_TOKENS_IN_COUNT
  | MRV_INV_OVERLONG_COUNT
  | MRV_INV_SURROGATE_COUNT
  | MRV_INV_RANGE_COUNT
  | MRV_INV_STRAY_COUNT
  | MRV_INV_TRUNCATED_COUNT
  | MRV_INV_END_COUNT
  | MRV_TRUNCATIONS_COUNT
  | MRV_ELIDED_COUNT
  | MRV_REFUSED_COUNT
  | MRV_FLUSH_DROPS_COUNT
  | MRV_DETOK_BYTES_COUNT
  | MRV_OUT_INVALID_COUNT
  | JCK_STORE_BASE_ADDR
  | JCK_STORE_SIZE_GIB
  | JCK_STORE_FREE_MIB
  | JCK_OBJ_SEL_TENANT
  | JCK_OBJ_SEL_KIND
  | JCK_OBJ_SEL_ID
  | JCK_OBJ_STAT_LOADED
  | JCK_OBJ_STAT_MODEL
  | JCK_OBJ_BYTES_COUNT
  | JCK_OBJ_USERS_COUNT
  | JCK_TEN_SEL_TENANT
  | JCK_TEN_TEMP_TEMP
  | JCK_TEN_TOP_P_TOP_P
  | JCK_TEN_TOP_K_TOP_K
  | JCK_MASKS_COUNT
  | JCK_FORCED_COUNT
  | JCK_FORCE_ABANDONS_COUNT
  | JCK_ESCAPES_COUNT
  | JCK_DEAD_ENDS_COUNT
  | JCK_DRAWS_COUNT
  | JCK_MASK_WAITS_COUNT
  | EMB_CFG_HOT_EN
  | EMB_CFG_AUTO_REPL
  | EMB_BATCH_IDX
  | EMB_GATHER_US
  | EMB_HOT_MIN_COUNT
  | EMB_HOT_DECAY_SHIFT
  | EMB_HOT_COPIES
  | EMB_HOT_REPL_AT
  | EMB_HOT_DROP_AT
  | EMB_REPL_BASE_ADDR
  | EMB_REPL_SIZE_MIB
  | EMB_TBL_SEL_TABLE
  | EMB_TBL_CFG_VALID
  | EMB_TBL_CFG_REMOTE
  | EMB_TBL_CFG_POOL
  | EMB_TBL_CFG_SHARED
  | EMB_TBL_CFG_DET_EN
  | EMB_TBL_CFG_FORMAT
  | EMB_TBL_CFG_TENANT
  | EMB_TBL_WIDTH_BYTES
  | EMB_TBL_ROWS_ROWS_M1
  | EMB_TBL_BASE_ADDR
  | EMB_TBL_TAINT_BASE_ADDR
  | EMB_TBL_HOME_DEVICE
  | EMB_TBL_HOME_TABLE
  | EMB_TBL_DET_WINDOW_US
  | EMB_TBL_SEQ_COUNT
  | EMB_TBL_TAINTED_COUNT
  | EMB_MODEL_OBS_D_OBS
  | EMB_HOT_SEL_INDEX
  | EMB_HOT_ROW_ROW
  | EMB_HOT_ROW_TABLE
  | EMB_HOT_ROW_VALID
  | EMB_HOT_ROW_SWITCH_PEND
  | EMB_HOT_STAT_COPY_MASK
  | EMB_HOT_STAT_INFLIGHT
  | EMB_HOT_COUNT_COUNT
  | EMB_HOT_SEQ_ROW_SEQ
  | EMB_BATCHES_COUNT
  | EMB_BAGS_COUNT
  | EMB_INDICES_COUNT
  | EMB_UNIQUE_COUNT
  | EMB_FETCH_BYTES_COUNT
  | EMB_RECORDS_COUNT
  | EMB_REMOTE_SENT_COUNT
  | EMB_REMOTE_RECV_COUNT
  | EMB_LATE_COUNT
  | EMB_TAINT_READS_COUNT
  | EMB_SWITCHES_COUNT
  | EMB_SWITCH_DEFERS_COUNT
  | EMB_REPL_MISMATCH_COUNT
  | EMB_HOT_FULL_COUNT
  | SRCH_BATCH_QUERIES
  | SRCH_GATHER_US
  | SRCH_WALK_MAX_VISIT
  | SRCH_WALK_INSERT_BEAM
  | SRCH_FLASH_RD_FLOOR
  | SRCH_FLASH_WR_GBPS
  | SRCH_SPLIT_AT
  | SRCH_TOMB_BASE_ADDR
  | SRCH_TOMB_COUNT_COUNT
  | SRCH_TOMB_USED_COUNT
  | SRCH_FLASH_FREE_GIB
  | SRCH_COLL_SEL_COLLECTION
  | SRCH_COLL_CFG_VALID
  | SRCH_COLL_CFG_CODE
  | SRCH_COLL_CFG_TENANT
  | SRCH_COLL_PARTS_MAX_COUNT
  | SRCH_COLL_GRAPH_ADDR
  | SRCH_COLL_LIST_ADDR
  | SRCH_COLL_LIST_SIZE_MIB
  | SRCH_COLL_SEQ_SEQ
  | SRCH_COLL_STAT_HALF
  | SRCH_COLL_STAT_COMPACTING
  | SRCH_COLL_STAT_FAILED
  | SRCH_COLL_PARTS_COUNT
  | SRCH_COLL_RECORDS_COUNT
  | SRCH_COLL_FLASH_MIB
  | SRCH_SEARCHES_COUNT
  | SRCH_QUERIES_DONE_COUNT
  | SRCH_VISITS_COUNT
  | SRCH_WALK_CAPPED_COUNT
  | SRCH_GROUPS_READ_COUNT
  | SRCH_ID_READS_COUNT
  | SRCH_SCAN_BYTES_COUNT
  | SRCH_INSERTED_COUNT
  | SRCH_TOMBSTONED_COUNT
  | SRCH_PARTIAL_GROUPS_COUNT
  | SRCH_WRITE_BYTES_COUNT
  | SRCH_COMPACTIONS_COUNT
  | FAB_CFG_MAX_RATE
  | FAB_CFG_L0P_EN
  | FAB_CFG_COMBINE_HINT
  | FAB_LINK_RATE
  | FAB_LINK_WIDTH
  | FAB_LINK_L0P
  | FAB_LINK_IDE
  | FAB_TRAIN_FAILS_COUNT
  | FAB_TX_BYTES_COUNT
  | FAB_RX_BYTES_COUNT
  | FAB_REQS_COUNT
  | FAB_REISSUED_COUNT
  | FAB_REPLAYS_COUNT
  | FAB_FEC_CORRECTED_COUNT
  | FAB_LINK_DOWNS_COUNT
  | FAB_IDE_FAILS_COUNT
  | FAM_SELF_DEVICE
  | FAM_SELF_PID
  | FAM_TIMEOUT_US
  | FAM_TGT_LIMIT_COUNT
  | FAM_LEASE_CFG_OFFER_MS
  | FAM_LEASE_CFG_VALIDATE_US
  | FAM_LEASE_POLL_US
  | FAM_LEASE_BASE_ADDR
  | FAM_MAP_SEL_INDEX
  | FAM_MAP_FA_FA_BASE
  | FAM_MAP_UNITS_UNITS
  | FAM_MAP_TGT_TGT_BASE
  | FAM_MAP_DEST_DEVICE
  | FAM_MAP_DEST_PID
  | FAM_MAP_DEST_KIND
  | FAM_MAP_DEST_COMBINE_OK
  | FAM_MAP_PORTS_PORTS
  | FAM_MAP_PORTS_IDE_STREAM
  | FAM_MAP_GEN_COUNT
  | FAM_DEAD_SEL_DEVICE
  | FAM_DEAD_STAT_DEAD
  | FAM_DEAD_STAT_CLEAR
  | FAM_DEAD_STAT_WALKING
  | FAM_DEAD_LAST_DEVICE
  | FAM_DEAD_LAST_VALID
  | FAM_DEAD_COUNT_COUNT
  | FAM_OUTSTANDING_COUNT
  | FAM_REQS_COUNT
  | FAM_TIMEOUTS_COUNT
  | FAM_LATE_RESPONSES_COUNT
  | FAM_REFUSED_DEAD_COUNT
  | FAM_MAP_MISSES_COUNT
  | FAM_MSG_SENT_COUNT
  | FAM_MSG_RECV_COUNT
  | FAM_MSG_BUSY_COUNT
  | FAM_OFFERS_COUNT
  | FAM_ACCEPTS_COUNT
  | FAM_WITHDRAWS_COUNT
  | FAM_FORCED_COUNT
  | FAM_VALIDATIONS_COUNT
  | FAM_LEASE_LOSSES_COUNT
  | FAM_HOME_FAILS_COUNT
  | FAM_LOST_MARKED_COUNT
  | CKP_CFG_TIMER_EN
  | CKP_CFG_STEPS_EN
  | CKP_CFG_AT_BOUNDARY
  | CKP_CFG_COMPRESS
  | CKP_CFG_FULL_EVERY
  | CKP_TIMER_S
  | CKP_STEPS_COUNT
  | CKP_STORE_BASE_ADDR
  | CKP_STORE_SIZE_GIB
  | CKP_STAGE_BASE_ADDR
  | CKP_STAGE_SIZE_GIB
  | CKP_MAP_BASE_ADDR
  | CKP_LAST_SEQ_SEQ
  | CKP_LAST_TICK_TICK
  | CKP_LAST_BYTES_BYTES
  | CKP_LAST_FREEZE_TICKS
  | CKP_MAX_FREEZE_TICKS
  | CKP_STORE_USED_MIB
  | CKP_SLOT_A_SEQ_SEQ
  | CKP_SLOT_B_SEQ_SEQ
  | CKP_TAKEN_COUNT
  | CKP_ABORTED_COUNT
  | CKP_SKIPPED_COUNT
  | CKP_RESTORES_COUNT
  | SEC0_CFG_QUIET
  | SEC0_ISLAND_LIFECYCLE
  | SEC0_ISLAND_DEBUG_OPEN
  | SEC0_ISLAND_RNG_OK
  | SEC0_FINE_TENANT
  | SEC0_FINE_PHASE
  | SEC0_FINE_ACTIVE
  | SEC0_PAD_BASE_ADDR
  | SEC0_FINES_COUNT
  | SEC0_KEYS_DESTROYED_COUNT
  | SEC0_SESSIONS_COUNT
  | SEC1_KEYIN_RECORD
  | SEC1_KEYIN_GO_GO
  | SEC1_KEYIN_STAT_RESULT
  | SEC1_STAGED_COUNT
  | SEC1_KEY_SEL_INDEX
  | SEC1_KEY_INFO_KIND
  | SEC1_KEY_INFO_OWNER
  | SEC1_KEY_INFO_VALID
  | SEC1_KEY_DISCARD_GO
  | SEC1_KEY_REF_REF
  | SEC2_TEN_SEL_TENANT
  | SEC2_TEN_STATE_STATE
  | SEC2_TEN_STATE_LOCAL_ONLY
  | SEC2_TEN_STATE_TTKS
  | SEC2_TEN_BIND_STAGED
  | SEC2_TEN_BIND_GO
  | SEC2_TEN_TTK_REF_REF
  | SEC2_TEN_UNITS_COUNT
  | SEC2_CKPT_BIND_STAGED
  | SEC2_CKPT_BIND_GO
  | SEC2_CKPT_REF_REF
  | SEC2_SET_SEL_SET
  | SEC2_SET_INFO_MEMBER
  | SEC2_SET_INFO_VALID
  | SEC2_SET_REVOKE_GO
  | SEC2_SET_REF_REF
  | SEC2_OWNER_BASE_ADDR
  | SEC2_POOLGEN_BASE_ADDR
  | SEC3_STREAM_SEL_STREAM
  | SEC3_STREAM_CFG_PID
  | SEC3_STREAM_CFG_TENANT
  | SEC3_STREAM_CFG_BOUND
  | SEC3_STREAM_SESS_SESSION
  | SEC3_STREAM_STAT_ACTIVE
  | SEC3_STREAM_STAT_FAILED
  | SEC3_STREAM_STAT_KEY_SET
  | SEC3_STREAM_GEN_GEN
  | SEC3_STREAM_GO_START
  | SEC3_STREAM_GO_STOP
  | SEC3_STREAM_GO_REKEY
  | SEC3_STREAM_FAILS_COUNT
  | PWR_DOM_SEL_DOMAIN
  | PWR_DOM_REQ_STATE
  | PWR_DOM_STAT_STATE
  | PWR_DOM_STAT_MOVING
  | PWR_DOM_STAT_AUTO
  | PWR_VIN_MV
  | PWR_IIN_MA
  | PWR_PIN_W
  | PWR_ILIMIT_MA
  | PWR_PLIMIT_W
  | PWR_UV_WARN_MV
  | PWR_OV_WARN_MV
  | PWR_THROTTLE_C
  | PWR_TEMP_MAX_C
  | PWR_ARB_SCRUB_PCT
  | PWR_ARB_WEAR_PCT
  | PWR_ARB_FG_FLOOR
  | PWR_ARB_CAL_MS
  | PWR_ARB_WINDOW_US
  | PWR_AON_IDLE_US
  | PWR_AUTO_IDLE_US
  | PWR_ALERT_MASK_MASK
  | PWR_LIMITED_10US_COUNT
  | PWR_AUTO_WAKES_COUNT
  | PWR_CAL_DEFERS_COUNT
  | CLK_CFG_AUTO_RETURN
  | CLK_CFG_WAKE_PLL
  | CLK_PLL_MHZ
  | CLK_PLL_EFF_MHZ
  | CLK_PLL_EFF_LOCKED
  | CLK_STATUS_REF_REF_OK
  | CLK_STATUS_REF_REF_LOST
  | CLK_STATUS_REF_REF_KHZ
  | CLK_START_MHZ_MHZ
  | CLK_CORE_SEL_CORE
  | CLK_CORE_SEL_ALL
  | CLK_CORE_SW_TO_PLL
  | CLK_CORE_SW_TO_START
  | CLK_HOLDOVER_TICKS_COUNT
  | CLK_REF_LOSSES_COUNT
  | CLK_SWITCHES_COUNT
  | RST_CAUSE_POWER_ON
  | RST_CAUSE_RESET_N
  | RST_CAUSE_WATCHDOG
  | RST_CAUSE_SOFTWARE
  | RST_CAUSE_JTAG
  | RST_DEVICE_COLD
  | RST_DEVICE_KEY
  | RST_BENCH_WDT_MS
  | RST_SLOT_SLOT_ID
  | RST_BOOTS_COUNT
  | RST_BOOT_TIME_TICKS
  | RST_FLRS_COUNT
  | BIST_CFG_AT_SHUTDOWN
  | BIST_LAST_RESULT
  | BIST_LAST_KIND
  | BIST_LAST_CONSUMED
  | BIST_LAST_SEGS_FAILED
  | BIST_LAST_SEQ_SEQ
  | BIST_LAST_COND_VCORE_MV
  | BIST_LAST_COND_CLK_MHZ
  | BIST_FAIL_MAP_MAP
  | BIST_BOOT_RAN
  | BIST_BOOT_RESULT
  | BIST_STORE_CURRENT
  | BIST_STORE_A_VALID
  | BIST_STORE_B_VALID
  | BIST_A_WRITES_COUNT
  | BIST_B_WRITES_COUNT
  | BIST_CONFIG_ID_DIGEST
  | TEL0_CFG_DUMP_EN
  | TEL0_CFG_ALERT_FAILED
  | TEL0_BW_WINDOW_US
  | TEL0_DUMP_WINDOWS
  | TEL0_DUMP_BASE_IN_WINDOW
  | TEL0_DUMP_BASE_ADDR
  | TEL0_DUMP_FUNC_FUNCTION
  | TEL0_DUMP_SLOTS_COUNT
  | TEL0_DUMP_SLOT_SIZE_KIB
  | TEL0_DUMP_QREC_MAX_COUNT
  | TEL0_DUMP_HEAD_COUNT
  | TEL0_DUMPS_WRITTEN_COUNT
  | TEL0_DUMP_SEQ_SEQ
  | TEL0_DUMP_DROPS_COUNT
  | TEL0_QREC_DROPS_COUNT
  | TEL0_TRUNCS_COUNT
  | TEL0_ERR_MAP_MAP
  | TEL0_FAILED_MAP_MAP
  | TEL1_CORE_SEL_CORE
  | TEL1_CORE_RETIRED_COUNT
  | TEL1_CORE_WASTED_COUNT
  | TEL1_CORE_FRONT_COUNT
  | TEL1_CORE_BACK_COUNT
  | TEL1_TEN_SEL_TENANT
  | TEL1_TEN_SEL_CLASS
  | TEL1_TEN_RETIRED_COUNT
  | TEL1_TEN_WASTED_COUNT
  | TEL1_TEN_BACK_COUNT
  | TEL1_DEV_RETIRED_COUNT
  | TEL1_DEV_WASTED_COUNT
  | TEL1_DEV_FRONT_COUNT
  | TEL1_DEV_BACK_COUNT
  | TEL2_PORT_SEL_PORT
  | TEL2_PORT_RD_BYTES
  | TEL2_PORT_WR_BYTES
  | TEL2_PORT_BG_BYTES
  | TEL2_PORT_MAX_BYTES
  | TEL2_PORT_CUR_RD_BYTES
  | TEL2_PORT_CUR_WR_BYTES
  | TEL2_WINDOW_SEQ_COUNT
  | TEL2_WINDOW_TICK_TICK
  | TEL3_TAG_LOG2N
  | TEL3_TAG_SEED_SEED
  | TEL3_TAG_BASE_IN_WINDOW
  | TEL3_TAG_BASE_ADDR
  | TEL3_TAG_SIZE_LOG2
  | TEL3_TAG_TAIL_COUNT
  | TEL3_TAG_HEAD_COUNT
  | TEL3_TAGGED_COUNT
  | TEL3_TAG_DROPS_COUNT
  deriving DecidableEq, Repr

/-- The place and behaviour of one register field. -/
structure RegDesc where
  /-- Page number of the first page that has the register (R26). -/
  page : Nat
  /-- How many pages have it, and how far apart they stand. -/
  pages : Nat
  pageStep : Nat
  /-- Byte offset of the register in its page, and the field's lowest bit counted from there. -/
  off : Nat
  lo : Nat
  width : Nat
  acc : Access
  lock : Lock
  /-- Number of elements of an array register and their distance in bytes; 1 and 0 for a single one. -/
  count : Nat
  stride : Nat
  bank : Bank
  reset : Nat
  /-- True for a counter that its block's enable clears and that saturates. -/
  counter : Bool
  deriving DecidableEq, Repr

/-- The register tables of the spec. -/
def Reg.desc : Reg → RegDesc
  | .GLB_RING_BIND_RING => ⟨0, 1, 1, 0x040, 0, 8, .rw, .page, 1, 0, .one, 0, false⟩
  | .GLB_RING_BIND_TENANT => ⟨0, 1, 1, 0x040, 8, 12, .rw, .page, 1, 0, .one, 0, false⟩
  | .GLB_RING_BIND_ADMIN => ⟨0, 1, 1, 0x040, 20, 1, .rw, .page, 1, 0, .one, 0, false⟩
  | .GLB_RING_BIND_UNBIND => ⟨0, 1, 1, 0x040, 30, 1, .w1s, .page, 1, 0, .one, 0, false⟩
  | .GLB_RING_BIND_BIND => ⟨0, 1, 1, 0x040, 31, 1, .w1s, .page, 1, 0, .one, 0, false⟩
  | .GLB_RING_WIN_WIN_BASE => ⟨0, 1, 1, 0x044, 0, 12, .rw, .page, 1, 0, .one, 0, false⟩
  | .GLB_RING_WIN_WIN_UNITS => ⟨0, 1, 1, 0x044, 16, 13, .rw, .page, 1, 0, .one, 0, false⟩
  | .GLB_WATCHDOG_MS => ⟨0, 1, 1, 0x048, 0, 16, .rw, .page, 1, 0, .one, 1000, false⟩
  | .GLB_TICK_TICK => ⟨0, 1, 1, 0x050, 0, 64, .ro, .page, 1, 0, .one, 0, false⟩
  | .GLB_BOOT_EPOCH_EPOCH => ⟨0, 1, 1, 0x058, 0, 32, .ro, .page, 1, 0, .one, 0, false⟩
  | .GLB_ACCESS_ERR_OFFSET => ⟨0, 1, 1, 0x060, 0, 26, .ro, .page, 1, 0, .one, 0, false⟩
  | .GLB_INT_ROUTE_VECTOR => ⟨0, 1, 1, 0x800, 0, 11, .rw, .page, 512, 4, .one, 0, false⟩
  | .GLB_INT_ROUTE_ROUTE_EN => ⟨0, 1, 1, 0x800, 31, 1, .rw, .page, 512, 4, .one, 0, false⟩
  | .SDIR_CFG_CACHE_EN => ⟨16, 1, 1, 0x040, 0, 1, .rwl, .page, 1, 0, .one, 1, false⟩
  | .SDIR_CFG_LOCK_WAYS => ⟨16, 1, 1, 0x040, 1, 3, .rwl, .page, 1, 0, .one, 6, false⟩
  | .SDIR_BASE_ADDR => ⟨16, 1, 1, 0x048, 30, 34, .rwl, .page, 1, 0, .one, 0, false⟩
  | .SDIR_FREELIST_ADDR => ⟨16, 1, 1, 0x050, 26, 38, .rwl, .page, 1, 0, .one, 0, false⟩
  | .SDIR_SLOTS_COUNT => ⟨16, 1, 1, 0x058, 0, 25, .rwl, .page, 1, 0, .one, 16777216, false⟩
  | .SDIR_OVERSTAY_US => ⟨16, 1, 1, 0x05C, 0, 24, .rws, .page, 1, 0, .one, 2000, false⟩
  | .SDIR_QUOTA_SEL_TENANT => ⟨16, 1, 1, 0x060, 0, 12, .rw, .page, 1, 0, .one, 0, false⟩
  | .SDIR_QUOTA_MAX => ⟨16, 1, 1, 0x064, 0, 25, .rw, .page, 1, 0, .sdirTenant, 0, false⟩
  | .SDIR_QUOTA_USED_USED => ⟨16, 1, 1, 0x068, 0, 25, .ro, .page, 1, 0, .sdirTenant, 0, false⟩
  | .SDIR_BAD_SLOT_SLOT => ⟨16, 1, 1, 0x06C, 0, 24, .ro, .page, 1, 0, .one, 0, false⟩
  | .SDIR_BAD_SLOT_VALID => ⟨16, 1, 1, 0x06C, 31, 1, .ro, .page, 1, 0, .one, 0, false⟩
  | .SDIR_HITS_COUNT => ⟨16, 1, 1, 0x080, 0, 64, .ro, .page, 1, 0, .one, 0, true⟩
  | .SDIR_MISSES_COUNT => ⟨16, 1, 1, 0x088, 0, 64, .ro, .page, 1, 0, .one, 0, true⟩
  | .SDIR_LOCK_STALLS_COUNT => ⟨16, 1, 1, 0x090, 0, 64, .ro, .page, 1, 0, .one, 0, true⟩
  | .SDIR_STALE_COUNT => ⟨16, 1, 1, 0x098, 0, 32, .ro, .page, 1, 0, .one, 0, true⟩
  | .SDIR_ALLOCATED_COUNT => ⟨16, 1, 1, 0x0A0, 0, 25, .ro, .page, 1, 0, .one, 0, false⟩
  | .SDIR_RETIRED_COUNT => ⟨16, 1, 1, 0x0A4, 0, 25, .ro, .page, 1, 0, .one, 0, false⟩
  | .SDIR_OVERSTAYS_COUNT => ⟨16, 1, 1, 0x0A8, 0, 32, .ro, .page, 1, 0, .one, 0, true⟩
  | .SDIR_LOST_COUNT_COUNT => ⟨16, 1, 1, 0x0AC, 0, 32, .ro, .page, 1, 0, .one, 0, true⟩
  | .SDIR_RES_COUNT_COUNT => ⟨16, 1, 1, 0x0C0, 0, 25, .ro, .page, 6, 4, .one, 0, false⟩
  | .STM_CFG_REHEAT_EN => ⟨17, 1, 1, 0x040, 0, 1, .rws, .page, 1, 0, .one, 1, false⟩
  | .STM_CFG_AGE_EN => ⟨17, 1, 1, 0x040, 1, 1, .rws, .page, 1, 0, .one, 1, false⟩
  | .STM_CFG_PRESSURE_EN => ⟨17, 1, 1, 0x040, 2, 1, .rws, .page, 1, 0, .one, 1, false⟩
  | .STM_CFG_WEAR_GOV_EN => ⟨17, 1, 1, 0x040, 3, 1, .rws, .page, 1, 0, .one, 1, false⟩
  | .STM_CFG_POOL_EN => ⟨17, 1, 1, 0x040, 4, 1, .rwl, .page, 1, 0, .one, 0, false⟩
  | .STM_CFG_PRESSURE_SHIFT => ⟨17, 1, 1, 0x040, 8, 4, .rws, .page, 1, 0, .one, 3, false⟩
  | .STM_WINDOW_US => ⟨17, 1, 1, 0x044, 0, 8, .rws, .page, 1, 0, .one, 10, false⟩
  | .STM_HEAP_BASE_ADDR => ⟨17, 1, 1, 0x048, 30, 34, .rwl, .page, 1, 0, .one, 0, false⟩
  | .STM_HEAP_SIZE_GIB => ⟨17, 1, 1, 0x050, 0, 16, .rwl, .page, 1, 0, .one, 0, false⟩
  | .STM_HBM_LOW_GIB => ⟨17, 1, 1, 0x054, 0, 16, .rws, .page, 1, 0, .one, 16, false⟩
  | .STM_HBM_RESERVE_GIB => ⟨17, 1, 1, 0x058, 0, 16, .rws, .page, 1, 0, .one, 32, false⟩
  | .STM_FLASH_QUOTA_GIB => ⟨17, 1, 1, 0x05C, 0, 15, .rwl, .page, 1, 0, .one, 14336, false⟩
  | .STM_FLASH_LOW_GIB => ⟨17, 1, 1, 0x060, 0, 16, .rws, .page, 1, 0, .one, 256, false⟩
  | .STM_HOT_BELOW_US => ⟨17, 1, 1, 0x064, 0, 24, .rws, .page, 1, 0, .one, 250, false⟩
  | .STM_POOL_BASE_ADDR => ⟨17, 1, 1, 0x068, 12, 52, .rwl, .page, 1, 0, .one, 0, false⟩
  | .STM_POOL_SIZE_GIB => ⟨17, 1, 1, 0x070, 0, 32, .rwl, .page, 1, 0, .one, 0, false⟩
  | .STM_PARK_ABOVE_MS => ⟨17, 1, 1, 0x074, 0, 32, .rws, .page, 1, 0, .one, 1000, false⟩
  | .STM_AGE_S => ⟨17, 1, 1, 0x078, 0, 16, .rws, .page, 1, 0, .one, 60, false⟩
  | .STM_HOT_IDLE_US => ⟨17, 1, 1, 0x07C, 0, 16, .rws, .page, 1, 0, .one, 10000, false⟩
  | .STM_TEN_SEL_TENANT => ⟨17, 1, 1, 0x080, 0, 12, .rw, .page, 1, 0, .one, 0, false⟩
  | .STM_TEN_LEAD_PW_US => ⟨17, 1, 1, 0x084, 0, 24, .rw, .page, 1, 0, .stmTenant, 2000, false⟩
  | .STM_TEN_LEAD_LW_US => ⟨17, 1, 1, 0x088, 0, 24, .rw, .page, 1, 0, .stmTenant, 1000, false⟩
  | .STM_TEN_LEAD_WH_US => ⟨17, 1, 1, 0x08C, 0, 16, .rw, .page, 1, 0, .stmTenant, 20, false⟩
  | .STM_TEN_LEAD_WH_NVER => ⟨17, 1, 1, 0x08C, 16, 2, .rw, .page, 1, 0, .stmTenant, 1, false⟩
  | .STM_WEAR_RATE_MBPS => ⟨17, 1, 1, 0x090, 0, 16, .rws, .page, 1, 0, .one, 1014, false⟩
  | .STM_WEAR_DEPTH_GIB => ⟨17, 1, 1, 0x094, 0, 16, .rws, .page, 1, 0, .one, 3400, false⟩
  | .STM_WEAR_LEVEL_BYTES => ⟨17, 1, 1, 0x098, 0, 64, .ro, .page, 1, 0, .one, 0, false⟩
  | .STM_BUDGET_GBPS => ⟨17, 1, 1, 0x0A0, 0, 16, .rws, .page, 5, 4, .one, 0, false⟩
  | .STM_SHARE_GUAR => ⟨17, 1, 1, 0x0C0, 0, 8, .rws, .page, 20, 4, .one, 0, false⟩
  | .STM_SHARE_CEIL => ⟨17, 1, 1, 0x0C0, 8, 8, .rws, .page, 20, 4, .one, 0, false⟩
  | .STM_MOVES_UP_COUNT => ⟨17, 1, 1, 0x200, 0, 64, .ro, .page, 1, 0, .one, 0, true⟩
  | .STM_MOVES_DOWN_COUNT => ⟨17, 1, 1, 0x208, 0, 64, .ro, .page, 1, 0, .one, 0, true⟩
  | .STM_TILES_MOVED_COUNT => ⟨17, 1, 1, 0x210, 0, 64, .ro, .page, 1, 0, .one, 0, true⟩
  | .STM_TILES_REFERENCED_COUNT => ⟨17, 1, 1, 0x218, 0, 64, .ro, .page, 1, 0, .one, 0, true⟩
  | .STM_FLASH_BYTES_COUNT => ⟨17, 1, 1, 0x220, 0, 64, .ro, .page, 1, 0, .one, 0, true⟩
  | .STM_VER_STALLS_COUNT => ⟨17, 1, 1, 0x228, 0, 64, .ro, .page, 1, 0, .one, 0, true⟩
  | .STM_VER_STALL_MAX_TICKS => ⟨17, 1, 1, 0x230, 0, 32, .ro, .page, 1, 0, .one, 0, true⟩
  | .STM_VER_ABORTS_COUNT => ⟨17, 1, 1, 0x238, 0, 64, .ro, .page, 1, 0, .one, 0, true⟩
  | .STM_SPACE_STALLS_COUNT => ⟨17, 1, 1, 0x240, 0, 64, .ro, .page, 1, 0, .one, 0, true⟩
  | .STM_REHEAT_FIRED_COUNT => ⟨17, 1, 1, 0x248, 0, 64, .ro, .page, 1, 0, .one, 0, true⟩
  | .STM_REHEAT_LATE_COUNT => ⟨17, 1, 1, 0x250, 0, 64, .ro, .page, 1, 0, .one, 0, true⟩
  | .STM_CANCELS_COUNT => ⟨17, 1, 1, 0x258, 0, 64, .ro, .page, 1, 0, .one, 0, true⟩
  | .STM_WEAR_REFUSALS_COUNT => ⟨17, 1, 1, 0x260, 0, 64, .ro, .page, 1, 0, .one, 0, true⟩
  | .STM_WEAR_OVERDRAW_BYTES => ⟨17, 1, 1, 0x268, 0, 64, .ro, .page, 1, 0, .one, 0, true⟩
  | .STM_FLASH_FREE_GIB => ⟨17, 1, 1, 0x270, 0, 15, .ro, .page, 1, 0, .one, 0, false⟩
  | .STM_HEAP_FREE_GIB => ⟨17, 1, 1, 0x274, 0, 16, .ro, .page, 1, 0, .one, 0, false⟩
  | .CANE_CFG_LOOKUP_EN => ⟨18, 1, 1, 0x040, 0, 1, .rws, .page, 1, 0, .one, 1, false⟩
  | .CANE_CFG_INSERT_EN => ⟨18, 1, 1, 0x040, 1, 1, .rws, .page, 1, 0, .one, 1, false⟩
  | .CANE_NODE_BASE_ADDR => ⟨18, 1, 1, 0x048, 12, 52, .rwl, .page, 1, 0, .one, 0, false⟩
  | .CANE_NODES_COUNT => ⟨18, 1, 1, 0x050, 0, 23, .rwl, .page, 1, 0, .one, 4194304, false⟩
  | .CANE_TOKEN_BASE_ADDR => ⟨18, 1, 1, 0x058, 12, 52, .rwl, .page, 1, 0, .one, 0, false⟩
  | .CANE_BUCKET_BASE_ADDR => ⟨18, 1, 1, 0x060, 12, 52, .rwl, .page, 1, 0, .one, 0, false⟩
  | .CANE_BUCKETS_LOG2 => ⟨18, 1, 1, 0x068, 0, 5, .rwl, .page, 1, 0, .one, 23, false⟩
  | .CANE_REC_BASE_ADDR => ⟨18, 1, 1, 0x070, 12, 52, .rwl, .page, 1, 0, .one, 0, false⟩
  | .CANE_REC_COUNT_COUNT => ⟨18, 1, 1, 0x078, 0, 32, .rwl, .page, 1, 0, .one, 16777216, false⟩
  | .CANE_LOOKUPS_COUNT => ⟨18, 1, 1, 0x100, 0, 64, .ro, .page, 1, 0, .one, 0, true⟩
  | .CANE_ADOPTED_COUNT => ⟨18, 1, 1, 0x108, 0, 64, .ro, .page, 1, 0, .one, 0, true⟩
  | .CANE_INSERTS_COUNT => ⟨18, 1, 1, 0x110, 0, 64, .ro, .page, 1, 0, .one, 0, true⟩
  | .CANE_INSERT_DUP_COUNT => ⟨18, 1, 1, 0x118, 0, 64, .ro, .page, 1, 0, .one, 0, true⟩
  | .CANE_INSERT_FULL_COUNT => ⟨18, 1, 1, 0x120, 0, 64, .ro, .page, 1, 0, .one, 0, true⟩
  | .CANE_COLLISIONS_COUNT => ⟨18, 1, 1, 0x128, 0, 64, .ro, .page, 1, 0, .one, 0, true⟩
  | .CANE_COW_COPIES_COUNT => ⟨18, 1, 1, 0x130, 0, 64, .ro, .page, 1, 0, .one, 0, true⟩
  | .CANE_FREED_COUNT => ⟨18, 1, 1, 0x138, 0, 64, .ro, .page, 1, 0, .one, 0, true⟩
  | .CANE_ABANDONED_COUNT => ⟨18, 1, 1, 0x140, 0, 64, .ro, .page, 1, 0, .one, 0, true⟩
  | .CANE_NODES_USED_COUNT => ⟨18, 1, 1, 0x148, 0, 23, .ro, .page, 1, 0, .one, 0, false⟩
  | .CANE_RECORDS_USED_COUNT => ⟨18, 1, 1, 0x14C, 0, 32, .ro, .page, 1, 0, .one, 0, false⟩
  | .CANE_FREE_PENDING_COUNT => ⟨18, 1, 1, 0x150, 0, 32, .ro, .page, 1, 0, .one, 0, false⟩
  | .EVIC_TEN_SEL_TENANT => ⟨19, 1, 1, 0x040, 0, 12, .rw, .page, 1, 0, .one, 0, false⟩
  | .EVIC_TEN_CFG_DECAY_SHIFT => ⟨19, 1, 1, 0x044, 0, 5, .rw, .page, 1, 0, .evicTenant, 4, false⟩
  | .EVIC_TEN_CFG_PRESSURE_EVICT => ⟨19, 1, 1, 0x044, 8, 1, .rw, .page, 1, 0, .evicTenant, 0, false⟩
  | .EVIC_TEN_PRESS_BUDGET_POSITIONS => ⟨19, 1, 1, 0x048, 0, 24, .rw, .page, 1, 0, .evicTenant, 1024, false⟩
  | .EVIC_COMPACTIONS_COUNT => ⟨19, 1, 1, 0x100, 0, 64, .ro, .page, 1, 0, .one, 0, true⟩
  | .EVIC_NOOPS_COUNT => ⟨19, 1, 1, 0x108, 0, 64, .ro, .page, 1, 0, .one, 0, true⟩
  | .EVIC_DROPPED_COUNT => ⟨19, 1, 1, 0x110, 0, 64, .ro, .page, 1, 0, .one, 0, true⟩
  | .EVIC_PAGES_WRITTEN_COUNT => ⟨19, 1, 1, 0x118, 0, 64, .ro, .page, 1, 0, .one, 0, true⟩
  | .EVIC_PAGES_KEPT_COUNT => ⟨19, 1, 1, 0x120, 0, 64, .ro, .page, 1, 0, .one, 0, true⟩
  | .EVIC_PRESSURE_EVICTIONS_COUNT => ⟨19, 1, 1, 0x128, 0, 64, .ro, .page, 1, 0, .one, 0, true⟩
  | .EVIC_SPACE_WAITS_COUNT => ⟨19, 1, 1, 0x130, 0, 64, .ro, .page, 1, 0, .one, 0, true⟩
  | .EVIC_TABLE_DROPS_COUNT => ⟨19, 1, 1, 0x138, 0, 64, .ro, .page, 1, 0, .one, 0, true⟩
  | .EVIC_LONGEST_TICKS => ⟨19, 1, 1, 0x140, 0, 32, .ro, .page, 1, 0, .one, 0, true⟩
  | .CRU_CFG_ZERO_SKIP_EN => ⟨256, 128, 1, 0x040, 0, 1, .rws, .page, 1, 0, .one, 1, false⟩
  | .CRU_SRAM_RES_MIB => ⟨256, 128, 1, 0x044, 0, 4, .rwl, .page, 1, 0, .one, 0, false⟩
  | .CRU_SRAM_URGENT_MIB => ⟨256, 128, 1, 0x044, 8, 4, .rwl, .page, 1, 0, .one, 1, false⟩
  | .CRU_CLOCK_PLL => ⟨256, 128, 1, 0x048, 0, 1, .ro, .page, 1, 0, .one, 0, false⟩
  | .CRU_CLOCK_MHZ => ⟨256, 128, 1, 0x048, 16, 16, .ro, .page, 1, 0, .one, 600, false⟩
  | .CRU_TILE_KIND => ⟨256, 128, 1, 0x04C, 0, 3, .ro, .page, 1, 0, .one, 0, false⟩
  | .CRU_TILE_MODEL => ⟨256, 128, 1, 0x04C, 8, 4, .ro, .page, 1, 0, .one, 0, false⟩
  | .CRU_TILE_URGENT => ⟨256, 128, 1, 0x04C, 12, 1, .ro, .page, 1, 0, .one, 0, false⟩
  | .CRU_TILES_COUNT => ⟨256, 128, 1, 0x100, 0, 64, .ro, .page, 1, 0, .one, 0, true⟩
  | .CRU_BUSY_CYCLES_COUNT => ⟨256, 128, 1, 0x108, 0, 64, .ro, .page, 1, 0, .one, 0, true⟩
  | .CRU_PREEMPTS_COUNT => ⟨256, 128, 1, 0x110, 0, 64, .ro, .page, 1, 0, .one, 0, true⟩
  | .CRU_ZERO_SKIPS_COUNT => ⟨256, 128, 1, 0x118, 0, 64, .ro, .page, 1, 0, .one, 0, true⟩
  | .CRU_SPARSE_TILES_COUNT => ⟨256, 128, 1, 0x120, 0, 64, .ro, .page, 1, 0, .one, 0, true⟩
  | .CRU_SATURATIONS_COUNT => ⟨256, 128, 1, 0x128, 0, 64, .ro, .page, 1, 0, .one, 0, true⟩
  | .CRU_NAN_ZEROED_COUNT => ⟨256, 128, 1, 0x130, 0, 64, .ro, .page, 1, 0, .one, 0, true⟩
  | .CRU_OVERRUNS_COUNT => ⟨256, 128, 1, 0x138, 0, 64, .ro, .page, 1, 0, .one, 0, true⟩
  | .CRU_MAX_TILE_CYCLES => ⟨256, 128, 1, 0x140, 0, 16, .ro, .page, 1, 0, .one, 0, true⟩
  | .CRU_ECC_CORRECTED_COUNT => ⟨256, 128, 1, 0x148, 0, 64, .ro, .page, 1, 0, .one, 0, true⟩
  | .CRU_CLU_SR_MIB => ⟨256, 8, 16, 0x200, 0, 6, .rwl, .cluster, 1, 0, .one, 16, false⟩
  | .CRU_CLU_WIN_MIB => ⟨256, 8, 16, 0x204, 0, 6, .rwl, .cluster, 1, 0, .one, 16, false⟩
  | .CRU_CLU_SEATS_FREE_UNITS => ⟨256, 8, 16, 0x208, 0, 10, .ro, .page, 1, 0, .one, 256, false⟩
  | .CRU_CLU_WIN_STALLS_COUNT => ⟨256, 8, 16, 0x210, 0, 64, .ro, .page, 1, 0, .one, 0, true⟩
  | .CRU_CLU_WIN_BYTES_COUNT => ⟨256, 8, 16, 0x218, 0, 64, .ro, .page, 1, 0, .one, 0, true⟩
  | .CRU_MODEL_BASE_ADDR => ⟨256, 1, 1, 0x300, 30, 34, .rwl, .noModel, 1, 0, .one, 0, false⟩
  | .CRU_MODEL_SIZE_GIB => ⟨256, 1, 1, 0x308, 0, 16, .rwl, .noModel, 1, 0, .one, 0, false⟩
  | .CRU_MODEL_SEL_ID => ⟨256, 1, 1, 0x30C, 0, 4, .rw, .page, 1, 0, .one, 1, false⟩
  | .CRU_MODEL_STAT_LOADED => ⟨256, 1, 1, 0x310, 0, 1, .ro, .page, 1, 0, .model, 0, false⟩
  | .CRU_MODEL_STAT_RESIDENT => ⟨256, 1, 1, 0x310, 1, 1, .ro, .page, 1, 0, .model, 0, false⟩
  | .CRU_MODEL_STAT_PRIVATE => ⟨256, 1, 1, 0x310, 2, 1, .ro, .page, 1, 0, .model, 0, false⟩
  | .CRU_MODEL_STAT_TENANT => ⟨256, 1, 1, 0x310, 4, 12, .ro, .page, 1, 0, .model, 0, false⟩
  | .CRU_MODEL_STAT_W => ⟨256, 1, 1, 0x310, 16, 16, .ro, .page, 1, 0, .model, 0, false⟩
  | .CRU_MODEL_BYTES_COUNT => ⟨256, 1, 1, 0x318, 0, 64, .ro, .page, 1, 0, .model, 0, false⟩
  | .CRU_MODEL_SESSIONS_COUNT => ⟨256, 1, 1, 0x320, 0, 25, .ro, .page, 1, 0, .model, 0, false⟩
  | .CRU_MODEL_FREE_GIB => ⟨256, 1, 1, 0x328, 0, 16, .ro, .page, 1, 0, .one, 0, false⟩
  | .CRU_MODEL_FP_FP => ⟨256, 1, 1, 0x340, 0, 256, .ro, .page, 1, 0, .model, 0, false⟩
  | .GAF_CFG_BUDGET => ⟨24, 1, 1, 0x040, 0, 21, .rws, .page, 1, 0, .one, 8192, false⟩
  | .GAF_CHUNK_ROWS => ⟨24, 1, 1, 0x044, 0, 10, .rws, .page, 1, 0, .one, 512, false⟩
  | .GAF_CHUNK_MIN => ⟨24, 1, 1, 0x044, 16, 10, .rws, .page, 1, 0, .one, 64, false⟩
  | .GAF_GATHER_US => ⟨24, 1, 1, 0x048, 0, 16, .rws, .page, 1, 0, .one, 0, false⟩
  | .GAF_URGENT_PCT => ⟨24, 1, 1, 0x04C, 0, 8, .rws, .page, 1, 0, .one, 25, false⟩
  | .GAF_URGENT_WINDOW_US => ⟨24, 1, 1, 0x04C, 8, 16, .rws, .page, 1, 0, .one, 100, false⟩
  | .GAF_STEP_SEQ_COUNT => ⟨24, 1, 1, 0x100, 0, 64, .ro, .page, 1, 0, .one, 0, true⟩
  | .GAF_DECODE_ROWS_COUNT => ⟨24, 1, 1, 0x108, 0, 64, .ro, .page, 1, 0, .one, 0, true⟩
  | .GAF_PREFILL_ROWS_COUNT => ⟨24, 1, 1, 0x110, 0, 64, .ro, .page, 1, 0, .one, 0, true⟩
  | .GAF_PREEMPTS_COUNT => ⟨24, 1, 1, 0x118, 0, 64, .ro, .page, 1, 0, .one, 0, true⟩
  | .GAF_URGENT_JOBS_COUNT => ⟨24, 1, 1, 0x120, 0, 64, .ro, .page, 1, 0, .one, 0, true⟩
  | .GAF_URGENT_CAPPED_COUNT => ⟨24, 1, 1, 0x128, 0, 64, .ro, .page, 1, 0, .one, 0, true⟩
  | .GAF_ALLOT_SKIPS_COUNT => ⟨24, 1, 1, 0x130, 0, 64, .ro, .page, 1, 0, .one, 0, true⟩
  | .GAF_ALLOT_FAILS_COUNT => ⟨24, 1, 1, 0x138, 0, 64, .ro, .page, 1, 0, .one, 0, true⟩
  | .GAF_MISSES_COUNT => ⟨24, 1, 1, 0x140, 0, 64, .ro, .page, 1, 0, .one, 0, true⟩
  | .GAF_HELD_BACK_COUNT => ⟨24, 1, 1, 0x148, 0, 64, .ro, .page, 1, 0, .one, 0, true⟩
  | .GAF_LAST_ROWS_COUNT => ⟨24, 1, 1, 0x150, 0, 21, .ro, .page, 1, 0, .one, 0, true⟩
  | .GAF_LAST_TICKS_TICKS => ⟨24, 1, 1, 0x158, 0, 64, .ro, .page, 1, 0, .one, 0, true⟩
  | .GAF_MAX_TICKS_TICKS => ⟨24, 1, 1, 0x160, 0, 64, .ro, .page, 1, 0, .one, 0, true⟩
  | .ADM_CFG_POLICE_EN => ⟨25, 1, 1, 0x040, 0, 1, .rws, .page, 1, 0, .one, 1, false⟩
  | .ADM_SAMPLE_US => ⟨25, 1, 1, 0x044, 0, 16, .rws, .page, 1, 0, .one, 1000, false⟩
  | .ADM_VT_URGENT_VT => ⟨25, 1, 1, 0x048, 0, 64, .ro, .page, 1, 0, .one, 0, false⟩
  | .ADM_VT_NORMAL_VT => ⟨25, 1, 1, 0x050, 0, 64, .ro, .page, 1, 0, .one, 0, false⟩
  | .ADM_CLASS_OVERHEAD => ⟨25, 1, 1, 0x080, 0, 16, .rw, .page, 8, 4, .one, 64, false⟩
  | .ADM_CLASS_URGENT => ⟨25, 1, 1, 0x080, 16, 1, .rw, .page, 8, 4, .one, 0, false⟩
  | .ADM_CLASS_DROP_LATE => ⟨25, 1, 1, 0x080, 17, 1, .rw, .page, 8, 4, .one, 0, false⟩
  | .ADM_RING_COLOUR_COLOUR => ⟨25, 1, 1, 0x0C0, 0, 32, .rw, .page, 16, 4, .one, 0, false⟩
  | .ADM_Q_SEL_TENANT => ⟨25, 1, 1, 0x100, 0, 12, .rw, .page, 1, 0, .one, 0, false⟩
  | .ADM_Q_SEL_CLASS => ⟨25, 1, 1, 0x100, 12, 3, .rw, .page, 1, 0, .one, 0, false⟩
  | .ADM_Q_MODE_POLICED => ⟨25, 1, 1, 0x104, 0, 1, .rw, .page, 1, 0, .admQueue, 0, false⟩
  | .ADM_Q_MODE_COLOUR_AWARE => ⟨25, 1, 1, 0x104, 1, 1, .rw, .page, 1, 0, .admQueue, 0, false⟩
  | .ADM_Q_WEIGHT_WEIGHT => ⟨25, 1, 1, 0x108, 0, 16, .rw, .page, 1, 0, .admQueue, 256, false⟩
  | .ADM_Q_CIR_KBPS => ⟨25, 1, 1, 0x10C, 0, 32, .rw, .page, 1, 0, .admQueue, 0, false⟩
  | .ADM_Q_PIR_KBPS => ⟨25, 1, 1, 0x110, 0, 32, .rw, .page, 1, 0, .admQueue, 0, false⟩
  | .ADM_Q_CBS_BYTES => ⟨25, 1, 1, 0x114, 0, 32, .rw, .page, 1, 0, .admQueue, 65536, false⟩
  | .ADM_Q_PBS_BYTES => ⟨25, 1, 1, 0x118, 0, 32, .rw, .page, 1, 0, .admQueue, 262144, false⟩
  | .ADM_Q_MAX_CMDS_COUNT => ⟨25, 1, 1, 0x11C, 0, 17, .rw, .page, 1, 0, .admQueue, 4096, false⟩
  | .ADM_Q_YELLOW_MAX_BYTES => ⟨25, 1, 1, 0x120, 0, 32, .rw, .page, 1, 0, .admQueue, 1048576, false⟩
  | .ADM_Q_DEPTH_CMDS_COUNT => ⟨25, 1, 1, 0x140, 0, 17, .ro, .page, 1, 0, .admQueue, 0, false⟩
  | .ADM_Q_DEPTH_BYTES_BYTES => ⟨25, 1, 1, 0x144, 0, 32, .ro, .page, 1, 0, .admQueue, 0, false⟩
  | .ADM_Q_SOJ_LAST_TICKS => ⟨25, 1, 1, 0x148, 0, 32, .ro, .page, 1, 0, .admQueue, 0, false⟩
  | .ADM_Q_SOJ_MAX_TICKS => ⟨25, 1, 1, 0x14C, 0, 32, .ro, .page, 1, 0, .admQueue, 0, false⟩
  | .ADM_Q_SOJ_SUM_TICKS => ⟨25, 1, 1, 0x150, 0, 64, .ro, .page, 1, 0, .admQueue, 0, false⟩
  | .ADM_Q_SOJ_COUNT_COUNT => ⟨25, 1, 1, 0x158, 0, 32, .ro, .page, 1, 0, .admQueue, 0, false⟩
  | .ADM_Q_GREEN_COUNT => ⟨25, 1, 1, 0x160, 0, 64, .ro, .page, 1, 0, .admQueue, 0, true⟩
  | .ADM_Q_YELLOW_COUNT => ⟨25, 1, 1, 0x168, 0, 64, .ro, .page, 1, 0, .admQueue, 0, true⟩
  | .ADM_Q_RED_COUNT => ⟨25, 1, 1, 0x170, 0, 64, .ro, .page, 1, 0, .admQueue, 0, true⟩
  | .ADM_Q_DEPTH_DROPS_COUNT => ⟨25, 1, 1, 0x178, 0, 64, .ro, .page, 1, 0, .admQueue, 0, true⟩
  | .ADM_TEN_SEL_TENANT => ⟨25, 1, 1, 0x200, 0, 12, .rw, .page, 1, 0, .one, 0, false⟩
  | .ADM_TEN_SUBMITTED_COUNT => ⟨25, 1, 1, 0x208, 0, 64, .ro, .page, 1, 0, .admTenant, 0, true⟩
  | .ADM_TEN_COMPLETED_COUNT => ⟨25, 1, 1, 0x210, 0, 64, .ro, .page, 1, 0, .admTenant, 0, true⟩
  | .ADM_TEN_PREEMPTED_COUNT => ⟨25, 1, 1, 0x218, 0, 64, .ro, .page, 1, 0, .admTenant, 0, true⟩
  | .ADM_TEN_MISSED_COUNT => ⟨25, 1, 1, 0x220, 0, 64, .ro, .page, 1, 0, .admTenant, 0, true⟩
  | .ADM_TEN_DROPPED_COUNT => ⟨25, 1, 1, 0x228, 0, 64, .ro, .page, 1, 0, .admTenant, 0, true⟩
  | .ADM_ACCEPTED_COUNT => ⟨25, 1, 1, 0x300, 0, 64, .ro, .page, 1, 0, .one, 0, true⟩
  | .ADM_DROPPED_COUNT => ⟨25, 1, 1, 0x308, 0, 64, .ro, .page, 1, 0, .one, 0, true⟩
  | .MRV_CFG_LANES => ⟨26, 1, 1, 0x040, 0, 5, .rws, .page, 1, 0, .one, 16, false⟩
  | .MRV_VOCAB_SEL_ID => ⟨26, 1, 1, 0x048, 0, 4, .rw, .page, 1, 0, .one, 1, false⟩
  | .MRV_VOCAB_STAT_LOADED => ⟨26, 1, 1, 0x04C, 0, 1, .ro, .page, 1, 0, .vocab, 0, false⟩
  | .MRV_VOCAB_STAT_PRESPLIT => ⟨26, 1, 1, 0x04C, 1, 1, .ro, .page, 1, 0, .vocab, 0, false⟩
  | .MRV_VOCAB_STAT_MAX_LEN => ⟨26, 1, 1, 0x04C, 8, 8, .ro, .page, 1, 0, .vocab, 0, false⟩
  | .MRV_VOCAB_TOKENS_COUNT => ⟨26, 1, 1, 0x050, 0, 19, .ro, .page, 1, 0, .vocab, 0, false⟩
  | .MRV_VOCAB_MERGES_COUNT => ⟨26, 1, 1, 0x054, 0, 21, .ro, .page, 1, 0, .vocab, 0, false⟩
  | .MRV_VOCAB_EOS_TOKEN => ⟨26, 1, 1, 0x058, 0, 18, .ro, .page, 1, 0, .vocab, 0, false⟩
  | .MRV_VOCAB_ELIDE_TOKEN => ⟨26, 1, 1, 0x05C, 0, 18, .ro, .page, 1, 0, .vocab, 0, false⟩
  | .MRV_VOCAB_DIGEST_DIGEST => ⟨26, 1, 1, 0x060, 0, 256, .ro, .page, 1, 0, .vocab, 0, false⟩
  | .MRV_FREE_TOKENS_COUNT => ⟨26, 1, 1, 0x080, 0, 19, .ro, .page, 1, 0, .one, 262144, false⟩
  | .MRV_FREE_MERGES_COUNT => ⟨26, 1, 1, 0x084, 0, 21, .ro, .page, 1, 0, .one, 1048576, false⟩
  | .MRV_FREE_BYTES_COUNT => ⟨26, 1, 1, 0x088, 0, 23, .ro, .page, 1, 0, .one, 4194304, false⟩
  | .MRV_TEN_SEL_TENANT => ⟨26, 1, 1, 0x0C0, 0, 12, .rw, .page, 1, 0, .one, 0, false⟩
  | .MRV_TEN_TRUNC_EN => ⟨26, 1, 1, 0x0C4, 0, 1, .rw, .page, 1, 0, .mrvTenant, 0, false⟩
  | .MRV_TEN_TRUNC_H_COUNT => ⟨26, 1, 1, 0x0C8, 0, 20, .rw, .page, 1, 0, .mrvTenant, 0, false⟩
  | .MRV_TEN_TRUNC_T_COUNT => ⟨26, 1, 1, 0x0CC, 0, 20, .rw, .page, 1, 0, .mrvTenant, 0, false⟩
  | .MRV_TEN_TRUNC_MAX_COUNT => ⟨26, 1, 1, 0x0D0, 0, 21, .rw, .page, 1, 0, .mrvTenant, 0, false⟩
  | .MRV_BYTES_IN_COUNT => ⟨26, 1, 1, 0x100, 0, 64, .ro, .page, 1, 0, .one, 0, true⟩
  | .MRV_TOKENS_IN_COUNT => ⟨26, 1, 1, 0x108, 0, 64, .ro, .page, 1, 0, .one, 0, true⟩
  | .MRV_INV_OVERLONG_COUNT => ⟨26, 1, 1, 0x110, 0, 64, .ro, .page, 1, 0, .one, 0, true⟩
  | .MRV_INV_SURROGATE_COUNT => ⟨26, 1, 1, 0x118, 0, 64, .ro, .page, 1, 0, .one, 0, true⟩
  | .MRV_INV_RANGE_COUNT => ⟨26, 1, 1, 0x120, 0, 64, .ro, .page, 1, 0, .one, 0, true⟩
  | .MRV_INV_STRAY_COUNT => ⟨26, 1, 1, 0x128, 0, 64, .ro, .page, 1, 0, .one, 0, true⟩
  | .MRV_INV_TRUNCATED_COUNT => ⟨26, 1, 1, 0x130, 0, 64, .ro, .page, 1, 0, .one, 0, true⟩
  | .MRV_INV_END_COUNT => ⟨26, 1, 1, 0x138, 0, 64, .ro, .page, 1, 0, .one, 0, true⟩
  | .MRV_TRUNCATIONS_COUNT => ⟨26, 1, 1, 0x140, 0, 64, .ro, .page, 1, 0, .one, 0, true⟩
  | .MRV_ELIDED_COUNT => ⟨26, 1, 1, 0x148, 0, 64, .ro, .page, 1, 0, .one, 0, true⟩
  | .MRV_REFUSED_COUNT => ⟨26, 1, 1, 0x150, 0, 64, .ro, .page, 1, 0, .one, 0, true⟩
  | .MRV_FLUSH_DROPS_COUNT => ⟨26, 1, 1, 0x158, 0, 64, .ro, .page, 1, 0, .one, 0, true⟩
  | .MRV_DETOK_BYTES_COUNT => ⟨26, 1, 1, 0x160, 0, 64, .ro, .page, 1, 0, .one, 0, true⟩
  | .MRV_OUT_INVALID_COUNT => ⟨26, 1, 1, 0x168, 0, 64, .ro, .page, 1, 0, .one, 0, true⟩
  | .JCK_STORE_BASE_ADDR => ⟨27, 1, 1, 0x048, 12, 52, .rwl, .page, 1, 0, .one, 0, false⟩
  | .JCK_STORE_SIZE_GIB => ⟨27, 1, 1, 0x050, 0, 16, .rwl, .page, 1, 0, .one, 0, false⟩
  | .JCK_STORE_FREE_MIB => ⟨27, 1, 1, 0x054, 0, 32, .ro, .page, 1, 0, .one, 0, false⟩
  | .JCK_OBJ_SEL_TENANT => ⟨27, 1, 1, 0x060, 0, 12, .rw, .page, 1, 0, .one, 0, false⟩
  | .JCK_OBJ_SEL_KIND => ⟨27, 1, 1, 0x060, 12, 3, .rw, .page, 1, 0, .one, 0, false⟩
  | .JCK_OBJ_SEL_ID => ⟨27, 1, 1, 0x060, 16, 16, .rw, .page, 1, 0, .one, 0, false⟩
  | .JCK_OBJ_STAT_LOADED => ⟨27, 1, 1, 0x064, 0, 1, .ro, .page, 1, 0, .jckObject, 0, false⟩
  | .JCK_OBJ_STAT_MODEL => ⟨27, 1, 1, 0x064, 8, 4, .ro, .page, 1, 0, .jckObject, 0, false⟩
  | .JCK_OBJ_BYTES_COUNT => ⟨27, 1, 1, 0x068, 0, 32, .ro, .page, 1, 0, .jckObject, 0, false⟩
  | .JCK_OBJ_USERS_COUNT => ⟨27, 1, 1, 0x06C, 0, 25, .ro, .page, 1, 0, .jckObject, 0, false⟩
  | .JCK_TEN_SEL_TENANT => ⟨27, 1, 1, 0x080, 0, 12, .rw, .page, 1, 0, .one, 0, false⟩
  | .JCK_TEN_TEMP_TEMP => ⟨27, 1, 1, 0x084, 0, 32, .rw, .page, 1, 0, .jckTenant, 1065353216, false⟩
  | .JCK_TEN_TOP_P_TOP_P => ⟨27, 1, 1, 0x088, 0, 32, .rw, .page, 1, 0, .jckTenant, 1065353216, false⟩
  | .JCK_TEN_TOP_K_TOP_K => ⟨27, 1, 1, 0x08C, 0, 19, .rw, .page, 1, 0, .jckTenant, 0, false⟩
  | .JCK_MASKS_COUNT => ⟨27, 1, 1, 0x100, 0, 64, .ro, .page, 1, 0, .one, 0, true⟩
  | .JCK_FORCED_COUNT => ⟨27, 1, 1, 0x108, 0, 64, .ro, .page, 1, 0, .one, 0, true⟩
  | .JCK_FORCE_ABANDONS_COUNT => ⟨27, 1, 1, 0x110, 0, 64, .ro, .page, 1, 0, .one, 0, true⟩
  | .JCK_ESCAPES_COUNT => ⟨27, 1, 1, 0x118, 0, 64, .ro, .page, 1, 0, .one, 0, true⟩
  | .JCK_DEAD_ENDS_COUNT => ⟨27, 1, 1, 0x120, 0, 64, .ro, .page, 1, 0, .one, 0, true⟩
  | .JCK_DRAWS_COUNT => ⟨27, 1, 1, 0x128, 0, 64, .ro, .page, 1, 0, .one, 0, true⟩
  | .JCK_MASK_WAITS_COUNT => ⟨27, 1, 1, 0x130, 0, 64, .ro, .page, 1, 0, .one, 0, true⟩
  | .EMB_CFG_HOT_EN => ⟨28, 1, 1, 0x040, 0, 1, .rws, .page, 1, 0, .one, 1, false⟩
  | .EMB_CFG_AUTO_REPL => ⟨28, 1, 1, 0x040, 1, 1, .rws, .page, 1, 0, .one, 0, false⟩
  | .EMB_BATCH_IDX => ⟨28, 1, 1, 0x044, 0, 21, .rws, .page, 1, 0, .one, 65536, false⟩
  | .EMB_GATHER_US => ⟨28, 1, 1, 0x048, 0, 16, .rws, .page, 1, 0, .one, 50, false⟩
  | .EMB_HOT_MIN_COUNT => ⟨28, 1, 1, 0x04C, 0, 16, .rws, .page, 1, 0, .one, 64, false⟩
  | .EMB_HOT_DECAY_SHIFT => ⟨28, 1, 1, 0x04C, 16, 5, .rws, .page, 1, 0, .one, 4, false⟩
  | .EMB_HOT_COPIES => ⟨28, 1, 1, 0x04C, 24, 4, .rws, .page, 1, 0, .one, 4, false⟩
  | .EMB_HOT_REPL_AT => ⟨28, 1, 1, 0x050, 0, 32, .rws, .page, 1, 0, .one, 4096, false⟩
  | .EMB_HOT_DROP_AT => ⟨28, 1, 1, 0x054, 0, 32, .rws, .page, 1, 0, .one, 512, false⟩
  | .EMB_REPL_BASE_ADDR => ⟨28, 1, 1, 0x080, 20, 44, .rwl, .page, 12, 8, .one, 0, false⟩
  | .EMB_REPL_SIZE_MIB => ⟨28, 1, 1, 0x0E0, 0, 16, .rwl, .page, 12, 4, .one, 0, false⟩
  | .EMB_TBL_SEL_TABLE => ⟨28, 1, 1, 0x140, 0, 8, .rw, .page, 1, 0, .one, 0, false⟩
  | .EMB_TBL_CFG_VALID => ⟨28, 1, 1, 0x144, 0, 1, .rw, .page, 1, 0, .table, 0, false⟩
  | .EMB_TBL_CFG_REMOTE => ⟨28, 1, 1, 0x144, 1, 1, .rwl, .table, 1, 0, .table, 0, false⟩
  | .EMB_TBL_CFG_POOL => ⟨28, 1, 1, 0x144, 2, 1, .rwl, .table, 1, 0, .table, 0, false⟩
  | .EMB_TBL_CFG_SHARED => ⟨28, 1, 1, 0x144, 3, 1, .rwl, .table, 1, 0, .table, 0, false⟩
  | .EMB_TBL_CFG_DET_EN => ⟨28, 1, 1, 0x144, 4, 1, .rwl, .table, 1, 0, .table, 0, false⟩
  | .EMB_TBL_CFG_FORMAT => ⟨28, 1, 1, 0x144, 8, 8, .rwl, .table, 1, 0, .table, 1, false⟩
  | .EMB_TBL_CFG_TENANT => ⟨28, 1, 1, 0x144, 16, 12, .rwl, .table, 1, 0, .table, 0, false⟩
  | .EMB_TBL_WIDTH_BYTES => ⟨28, 1, 1, 0x148, 0, 11, .rwl, .table, 1, 0, .table, 64, false⟩
  | .EMB_TBL_ROWS_ROWS_M1 => ⟨28, 1, 1, 0x14C, 0, 32, .rwl, .table, 1, 0, .table, 0, false⟩
  | .EMB_TBL_BASE_ADDR => ⟨28, 1, 1, 0x150, 6, 58, .rwl, .table, 1, 0, .table, 0, false⟩
  | .EMB_TBL_TAINT_BASE_ADDR => ⟨28, 1, 1, 0x158, 12, 52, .rwl, .table, 1, 0, .table, 0, false⟩
  | .EMB_TBL_HOME_DEVICE => ⟨28, 1, 1, 0x160, 0, 16, .rwl, .table, 1, 0, .table, 0, false⟩
  | .EMB_TBL_HOME_TABLE => ⟨28, 1, 1, 0x160, 16, 8, .rwl, .table, 1, 0, .table, 0, false⟩
  | .EMB_TBL_DET_WINDOW_US => ⟨28, 1, 1, 0x164, 0, 24, .rwl, .table, 1, 0, .table, 1000, false⟩
  | .EMB_TBL_SEQ_COUNT => ⟨28, 1, 1, 0x168, 0, 64, .ro, .page, 1, 0, .table, 0, false⟩
  | .EMB_TBL_TAINTED_COUNT => ⟨28, 1, 1, 0x170, 0, 32, .ro, .page, 1, 0, .table, 0, false⟩
  | .EMB_MODEL_OBS_D_OBS => ⟨28, 1, 1, 0x180, 0, 11, .ro, .page, 8, 4, .one, 0, false⟩
  | .EMB_HOT_SEL_INDEX => ⟨28, 1, 1, 0x1C0, 0, 15, .rw, .page, 1, 0, .one, 0, false⟩
  | .EMB_HOT_ROW_ROW => ⟨28, 1, 1, 0x1C8, 0, 32, .ro, .page, 1, 0, .hotRow, 0, false⟩
  | .EMB_HOT_ROW_TABLE => ⟨28, 1, 1, 0x1C8, 32, 8, .ro, .page, 1, 0, .hotRow, 0, false⟩
  | .EMB_HOT_ROW_VALID => ⟨28, 1, 1, 0x1C8, 40, 1, .ro, .page, 1, 0, .hotRow, 0, false⟩
  | .EMB_HOT_ROW_SWITCH_PEND => ⟨28, 1, 1, 0x1C8, 41, 1, .ro, .page, 1, 0, .hotRow, 0, false⟩
  | .EMB_HOT_STAT_COPY_MASK => ⟨28, 1, 1, 0x1D0, 0, 12, .ro, .page, 1, 0, .hotRow, 0, false⟩
  | .EMB_HOT_STAT_INFLIGHT => ⟨28, 1, 1, 0x1D0, 16, 16, .ro, .page, 1, 0, .hotRow, 0, false⟩
  | .EMB_HOT_COUNT_COUNT => ⟨28, 1, 1, 0x1D4, 0, 32, .ro, .page, 1, 0, .hotRow, 0, false⟩
  | .EMB_HOT_SEQ_ROW_SEQ => ⟨28, 1, 1, 0x1D8, 0, 64, .ro, .page, 1, 0, .hotRow, 0, false⟩
  | .EMB_BATCHES_COUNT => ⟨28, 1, 1, 0x200, 0, 64, .ro, .page, 1, 0, .one, 0, true⟩
  | .EMB_BAGS_COUNT => ⟨28, 1, 1, 0x208, 0, 64, .ro, .page, 1, 0, .one, 0, true⟩
  | .EMB_INDICES_COUNT => ⟨28, 1, 1, 0x210, 0, 64, .ro, .page, 1, 0, .one, 0, true⟩
  | .EMB_UNIQUE_COUNT => ⟨28, 1, 1, 0x218, 0, 64, .ro, .page, 1, 0, .one, 0, true⟩
  | .EMB_FETCH_BYTES_COUNT => ⟨28, 1, 1, 0x220, 0, 64, .ro, .page, 1, 0, .one, 0, true⟩
  | .EMB_RECORDS_COUNT => ⟨28, 1, 1, 0x228, 0, 64, .ro, .page, 1, 0, .one, 0, true⟩
  | .EMB_REMOTE_SENT_COUNT => ⟨28, 1, 1, 0x230, 0, 64, .ro, .page, 1, 0, .one, 0, true⟩
  | .EMB_REMOTE_RECV_COUNT => ⟨28, 1, 1, 0x238, 0, 64, .ro, .page, 1, 0, .one, 0, true⟩
  | .EMB_LATE_COUNT => ⟨28, 1, 1, 0x240, 0, 64, .ro, .page, 1, 0, .one, 0, true⟩
  | .EMB_TAINT_READS_COUNT => ⟨28, 1, 1, 0x248, 0, 64, .ro, .page, 1, 0, .one, 0, true⟩
  | .EMB_SWITCHES_COUNT => ⟨28, 1, 1, 0x250, 0, 64, .ro, .page, 1, 0, .one, 0, true⟩
  | .EMB_SWITCH_DEFERS_COUNT => ⟨28, 1, 1, 0x258, 0, 64, .ro, .page, 1, 0, .one, 0, true⟩
  | .EMB_REPL_MISMATCH_COUNT => ⟨28, 1, 1, 0x260, 0, 64, .ro, .page, 1, 0, .one, 0, true⟩
  | .EMB_HOT_FULL_COUNT => ⟨28, 1, 1, 0x268, 0, 64, .ro, .page, 1, 0, .one, 0, true⟩
  | .SRCH_BATCH_QUERIES => ⟨29, 1, 1, 0x040, 0, 9, .rws, .page, 1, 0, .one, 256, false⟩
  | .SRCH_GATHER_US => ⟨29, 1, 1, 0x044, 0, 16, .rws, .page, 1, 0, .one, 50, false⟩
  | .SRCH_WALK_MAX_VISIT => ⟨29, 1, 1, 0x048, 0, 16, .rws, .page, 1, 0, .one, 4096, false⟩
  | .SRCH_WALK_INSERT_BEAM => ⟨29, 1, 1, 0x048, 16, 10, .rws, .page, 1, 0, .one, 32, false⟩
  | .SRCH_FLASH_RD_FLOOR => ⟨29, 1, 1, 0x04C, 0, 8, .rws, .page, 1, 0, .one, 20, false⟩
  | .SRCH_FLASH_WR_GBPS => ⟨29, 1, 1, 0x04C, 8, 4, .rws, .page, 1, 0, .one, 3, false⟩
  | .SRCH_SPLIT_AT => ⟨29, 1, 1, 0x050, 0, 21, .rws, .page, 1, 0, .one, 16384, false⟩
  | .SRCH_TOMB_BASE_ADDR => ⟨29, 1, 1, 0x058, 12, 52, .rwl, .page, 1, 0, .one, 0, false⟩
  | .SRCH_TOMB_COUNT_COUNT => ⟨29, 1, 1, 0x060, 0, 25, .rwl, .page, 1, 0, .one, 4194304, false⟩
  | .SRCH_TOMB_USED_COUNT => ⟨29, 1, 1, 0x064, 0, 25, .ro, .page, 1, 0, .one, 0, false⟩
  | .SRCH_FLASH_FREE_GIB => ⟨29, 1, 1, 0x068, 0, 16, .ro, .page, 1, 0, .one, 0, false⟩
  | .SRCH_COLL_SEL_COLLECTION => ⟨29, 1, 1, 0x080, 0, 8, .rw, .page, 1, 0, .one, 0, false⟩
  | .SRCH_COLL_CFG_VALID => ⟨29, 1, 1, 0x084, 0, 1, .rw, .page, 1, 0, .collection, 0, false⟩
  | .SRCH_COLL_CFG_CODE => ⟨29, 1, 1, 0x084, 1, 2, .rwl, .collection, 1, 0, .collection, 0, false⟩
  | .SRCH_COLL_CFG_TENANT => ⟨29, 1, 1, 0x084, 16, 12, .rwl, .collection, 1, 0, .collection, 0, false⟩
  | .SRCH_COLL_PARTS_MAX_COUNT => ⟨29, 1, 1, 0x088, 0, 21, .rwl, .collection, 1, 0, .collection, 65536, false⟩
  | .SRCH_COLL_GRAPH_ADDR => ⟨29, 1, 1, 0x090, 12, 52, .rwl, .collection, 1, 0, .collection, 0, false⟩
  | .SRCH_COLL_LIST_ADDR => ⟨29, 1, 1, 0x098, 12, 52, .rwl, .collection, 1, 0, .collection, 0, false⟩
  | .SRCH_COLL_LIST_SIZE_MIB => ⟨29, 1, 1, 0x0A0, 0, 16, .rwl, .collection, 1, 0, .collection, 0, false⟩
  | .SRCH_COLL_SEQ_SEQ => ⟨29, 1, 1, 0x0A8, 0, 48, .ro, .page, 1, 0, .collection, 0, false⟩
  | .SRCH_COLL_STAT_HALF => ⟨29, 1, 1, 0x0B0, 0, 1, .ro, .page, 1, 0, .collection, 0, false⟩
  | .SRCH_COLL_STAT_COMPACTING => ⟨29, 1, 1, 0x0B0, 1, 1, .ro, .page, 1, 0, .collection, 0, false⟩
  | .SRCH_COLL_STAT_FAILED => ⟨29, 1, 1, 0x0B0, 2, 1, .ro, .page, 1, 0, .collection, 0, false⟩
  | .SRCH_COLL_PARTS_COUNT => ⟨29, 1, 1, 0x0B4, 0, 21, .ro, .page, 1, 0, .collection, 0, false⟩
  | .SRCH_COLL_RECORDS_COUNT => ⟨29, 1, 1, 0x0B8, 0, 64, .ro, .page, 1, 0, .collection, 0, false⟩
  | .SRCH_COLL_FLASH_MIB => ⟨29, 1, 1, 0x0C0, 0, 32, .ro, .page, 1, 0, .collection, 0, false⟩
  | .SRCH_SEARCHES_COUNT => ⟨29, 1, 1, 0x100, 0, 64, .ro, .page, 1, 0, .one, 0, true⟩
  | .SRCH_QUERIES_DONE_COUNT => ⟨29, 1, 1, 0x108, 0, 64, .ro, .page, 1, 0, .one, 0, true⟩
  | .SRCH_VISITS_COUNT => ⟨29, 1, 1, 0x110, 0, 64, .ro, .page, 1, 0, .one, 0, true⟩
  | .SRCH_WALK_CAPPED_COUNT => ⟨29, 1, 1, 0x118, 0, 64, .ro, .page, 1, 0, .one, 0, true⟩
  | .SRCH_GROUPS_READ_COUNT => ⟨29, 1, 1, 0x120, 0, 64, .ro, .page, 1, 0, .one, 0, true⟩
  | .SRCH_ID_READS_COUNT => ⟨29, 1, 1, 0x128, 0, 64, .ro, .page, 1, 0, .one, 0, true⟩
  | .SRCH_SCAN_BYTES_COUNT => ⟨29, 1, 1, 0x130, 0, 64, .ro, .page, 1, 0, .one, 0, true⟩
  | .SRCH_INSERTED_COUNT => ⟨29, 1, 1, 0x138, 0, 64, .ro, .page, 1, 0, .one, 0, true⟩
  | .SRCH_TOMBSTONED_COUNT => ⟨29, 1, 1, 0x140, 0, 64, .ro, .page, 1, 0, .one, 0, true⟩
  | .SRCH_PARTIAL_GROUPS_COUNT => ⟨29, 1, 1, 0x148, 0, 64, .ro, .page, 1, 0, .one, 0, true⟩
  | .SRCH_WRITE_BYTES_COUNT => ⟨29, 1, 1, 0x150, 0, 64, .ro, .page, 1, 0, .one, 0, true⟩
  | .SRCH_COMPACTIONS_COUNT => ⟨29, 1, 1, 0x158, 0, 64, .ro, .page, 1, 0, .one, 0, true⟩
  | .FAB_CFG_MAX_RATE => ⟨32, 8, 1, 0x040, 0, 2, .rwl, .page, 1, 0, .one, 0, false⟩
  | .FAB_CFG_L0P_EN => ⟨32, 8, 1, 0x040, 2, 1, .rwl, .page, 1, 0, .one, 1, false⟩
  | .FAB_CFG_COMBINE_HINT => ⟨32, 8, 1, 0x040, 3, 1, .rw, .page, 1, 0, .one, 1, false⟩
  | .FAB_LINK_RATE => ⟨32, 8, 1, 0x044, 0, 2, .ro, .page, 1, 0, .one, 0, false⟩
  | .FAB_LINK_WIDTH => ⟨32, 8, 1, 0x044, 2, 5, .ro, .page, 1, 0, .one, 0, false⟩
  | .FAB_LINK_L0P => ⟨32, 8, 1, 0x044, 7, 1, .ro, .page, 1, 0, .one, 0, false⟩
  | .FAB_LINK_IDE => ⟨32, 8, 1, 0x044, 8, 1, .ro, .page, 1, 0, .one, 0, false⟩
  | .FAB_TRAIN_FAILS_COUNT => ⟨32, 8, 1, 0x048, 0, 5, .ro, .page, 1, 0, .one, 0, false⟩
  | .FAB_TX_BYTES_COUNT => ⟨32, 8, 1, 0x100, 0, 64, .ro, .page, 1, 0, .one, 0, true⟩
  | .FAB_RX_BYTES_COUNT => ⟨32, 8, 1, 0x108, 0, 64, .ro, .page, 1, 0, .one, 0, true⟩
  | .FAB_REQS_COUNT => ⟨32, 8, 1, 0x110, 0, 64, .ro, .page, 1, 0, .one, 0, true⟩
  | .FAB_REISSUED_COUNT => ⟨32, 8, 1, 0x118, 0, 64, .ro, .page, 1, 0, .one, 0, true⟩
  | .FAB_REPLAYS_COUNT => ⟨32, 8, 1, 0x120, 0, 64, .ro, .page, 1, 0, .one, 0, true⟩
  | .FAB_FEC_CORRECTED_COUNT => ⟨32, 8, 1, 0x128, 0, 64, .ro, .page, 1, 0, .one, 0, true⟩
  | .FAB_LINK_DOWNS_COUNT => ⟨32, 8, 1, 0x130, 0, 64, .ro, .page, 1, 0, .one, 0, true⟩
  | .FAB_IDE_FAILS_COUNT => ⟨32, 8, 1, 0x138, 0, 64, .ro, .page, 1, 0, .one, 0, true⟩
  | .FAM_SELF_DEVICE => ⟨40, 1, 1, 0x040, 0, 16, .rwl, .page, 1, 0, .one, 0, false⟩
  | .FAM_SELF_PID => ⟨40, 1, 1, 0x040, 16, 12, .rwl, .page, 1, 0, .one, 0, false⟩
  | .FAM_TIMEOUT_US => ⟨40, 1, 1, 0x044, 0, 16, .rw, .page, 1, 0, .one, 2000, false⟩
  | .FAM_TGT_LIMIT_COUNT => ⟨40, 1, 1, 0x048, 0, 15, .rw, .page, 1, 0, .one, 4096, false⟩
  | .FAM_LEASE_CFG_OFFER_MS => ⟨40, 1, 1, 0x04C, 0, 16, .rw, .page, 1, 0, .one, 50, false⟩
  | .FAM_LEASE_CFG_VALIDATE_US => ⟨40, 1, 1, 0x04C, 16, 16, .rw, .page, 1, 0, .one, 1000, false⟩
  | .FAM_LEASE_POLL_US => ⟨40, 1, 1, 0x050, 0, 16, .rw, .page, 1, 0, .one, 500, false⟩
  | .FAM_LEASE_BASE_ADDR => ⟨40, 1, 1, 0x058, 12, 52, .rwl, .page, 1, 0, .one, 0, false⟩
  | .FAM_MAP_SEL_INDEX => ⟨40, 1, 1, 0x060, 0, 12, .rw, .page, 1, 0, .one, 0, false⟩
  | .FAM_MAP_FA_FA_BASE => ⟨40, 1, 1, 0x068, 21, 43, .rws, .page, 1, 0, .mapEntry, 0, false⟩
  | .FAM_MAP_UNITS_UNITS => ⟨40, 1, 1, 0x070, 0, 32, .rws, .page, 1, 0, .mapEntry, 0, false⟩
  | .FAM_MAP_TGT_TGT_BASE => ⟨40, 1, 1, 0x078, 21, 43, .rws, .page, 1, 0, .mapEntry, 0, false⟩
  | .FAM_MAP_DEST_DEVICE => ⟨40, 1, 1, 0x080, 0, 16, .rws, .page, 1, 0, .mapEntry, 0, false⟩
  | .FAM_MAP_DEST_PID => ⟨40, 1, 1, 0x080, 16, 12, .rws, .page, 1, 0, .mapEntry, 0, false⟩
  | .FAM_MAP_DEST_KIND => ⟨40, 1, 1, 0x080, 28, 2, .rws, .page, 1, 0, .mapEntry, 0, false⟩
  | .FAM_MAP_DEST_COMBINE_OK => ⟨40, 1, 1, 0x080, 30, 1, .rws, .page, 1, 0, .mapEntry, 0, false⟩
  | .FAM_MAP_PORTS_PORTS => ⟨40, 1, 1, 0x084, 0, 8, .rws, .page, 1, 0, .mapEntry, 0, false⟩
  | .FAM_MAP_PORTS_IDE_STREAM => ⟨40, 1, 1, 0x084, 8, 8, .rws, .page, 1, 0, .mapEntry, 0, false⟩
  | .FAM_MAP_GEN_COUNT => ⟨40, 1, 1, 0x088, 0, 32, .ro, .page, 1, 0, .one, 0, false⟩
  | .FAM_DEAD_SEL_DEVICE => ⟨40, 1, 1, 0x090, 0, 16, .rw, .page, 1, 0, .one, 0, false⟩
  | .FAM_DEAD_STAT_DEAD => ⟨40, 1, 1, 0x094, 0, 1, .ro, .page, 1, 0, .deadDevice, 0, false⟩
  | .FAM_DEAD_STAT_CLEAR => ⟨40, 1, 1, 0x094, 1, 1, .w1s, .page, 1, 0, .deadDevice, 0, false⟩
  | .FAM_DEAD_STAT_WALKING => ⟨40, 1, 1, 0x094, 2, 1, .ro, .page, 1, 0, .deadDevice, 0, false⟩
  | .FAM_DEAD_LAST_DEVICE => ⟨40, 1, 1, 0x098, 0, 16, .ro, .page, 1, 0, .one, 0, false⟩
  | .FAM_DEAD_LAST_VALID => ⟨40, 1, 1, 0x098, 31, 1, .ro, .page, 1, 0, .one, 0, false⟩
  | .FAM_DEAD_COUNT_COUNT => ⟨40, 1, 1, 0x09C, 0, 17, .ro, .page, 1, 0, .one, 0, false⟩
  | .FAM_OUTSTANDING_COUNT => ⟨40, 1, 1, 0x0A0, 0, 15, .ro, .page, 1, 0, .one, 0, false⟩
  | .FAM_REQS_COUNT => ⟨40, 1, 1, 0x100, 0, 64, .ro, .page, 1, 0, .one, 0, true⟩
  | .FAM_TIMEOUTS_COUNT => ⟨40, 1, 1, 0x108, 0, 64, .ro, .page, 1, 0, .one, 0, true⟩
  | .FAM_LATE_RESPONSES_COUNT => ⟨40, 1, 1, 0x110, 0, 64, .ro, .page, 1, 0, .one, 0, true⟩
  | .FAM_REFUSED_DEAD_COUNT => ⟨40, 1, 1, 0x118, 0, 64, .ro, .page, 1, 0, .one, 0, true⟩
  | .FAM_MAP_MISSES_COUNT => ⟨40, 1, 1, 0x120, 0, 64, .ro, .page, 1, 0, .mapEntry, 0, true⟩
  | .FAM_MSG_SENT_COUNT => ⟨40, 1, 1, 0x128, 0, 64, .ro, .page, 1, 0, .one, 0, true⟩
  | .FAM_MSG_RECV_COUNT => ⟨40, 1, 1, 0x130, 0, 64, .ro, .page, 1, 0, .one, 0, true⟩
  | .FAM_MSG_BUSY_COUNT => ⟨40, 1, 1, 0x138, 0, 64, .ro, .page, 1, 0, .one, 0, true⟩
  | .FAM_OFFERS_COUNT => ⟨40, 1, 1, 0x140, 0, 64, .ro, .page, 1, 0, .one, 0, true⟩
  | .FAM_ACCEPTS_COUNT => ⟨40, 1, 1, 0x148, 0, 64, .ro, .page, 1, 0, .one, 0, true⟩
  | .FAM_WITHDRAWS_COUNT => ⟨40, 1, 1, 0x150, 0, 64, .ro, .page, 1, 0, .one, 0, true⟩
  | .FAM_FORCED_COUNT => ⟨40, 1, 1, 0x158, 0, 64, .ro, .page, 1, 0, .one, 0, true⟩
  | .FAM_VALIDATIONS_COUNT => ⟨40, 1, 1, 0x160, 0, 64, .ro, .page, 1, 0, .one, 0, true⟩
  | .FAM_LEASE_LOSSES_COUNT => ⟨40, 1, 1, 0x168, 0, 64, .ro, .page, 1, 0, .one, 0, true⟩
  | .FAM_HOME_FAILS_COUNT => ⟨40, 1, 1, 0x170, 0, 64, .ro, .page, 1, 0, .one, 0, true⟩
  | .FAM_LOST_MARKED_COUNT => ⟨40, 1, 1, 0x178, 0, 64, .ro, .page, 1, 0, .one, 0, true⟩
  | .CKP_CFG_TIMER_EN => ⟨20, 1, 1, 0x040, 0, 1, .rws, .page, 1, 0, .one, 0, false⟩
  | .CKP_CFG_STEPS_EN => ⟨20, 1, 1, 0x040, 1, 1, .rws, .page, 1, 0, .one, 0, false⟩
  | .CKP_CFG_AT_BOUNDARY => ⟨20, 1, 1, 0x040, 2, 1, .rws, .page, 1, 0, .one, 0, false⟩
  | .CKP_CFG_COMPRESS => ⟨20, 1, 1, 0x040, 3, 1, .rws, .page, 1, 0, .one, 1, false⟩
  | .CKP_CFG_FULL_EVERY => ⟨20, 1, 1, 0x040, 8, 8, .rws, .page, 1, 0, .one, 0, false⟩
  | .CKP_TIMER_S => ⟨20, 1, 1, 0x044, 0, 12, .rws, .page, 1, 0, .one, 60, false⟩
  | .CKP_STEPS_COUNT => ⟨20, 1, 1, 0x048, 0, 32, .rws, .page, 1, 0, .one, 0, false⟩
  | .CKP_STORE_BASE_ADDR => ⟨20, 1, 1, 0x050, 21, 43, .rwl, .page, 1, 0, .one, 0, false⟩
  | .CKP_STORE_SIZE_GIB => ⟨20, 1, 1, 0x058, 0, 32, .rwl, .page, 1, 0, .one, 0, false⟩
  | .CKP_STAGE_BASE_ADDR => ⟨20, 1, 1, 0x060, 30, 34, .rwl, .page, 1, 0, .one, 0, false⟩
  | .CKP_STAGE_SIZE_GIB => ⟨20, 1, 1, 0x068, 0, 16, .rwl, .page, 1, 0, .one, 0, false⟩
  | .CKP_MAP_BASE_ADDR => ⟨20, 1, 1, 0x070, 12, 52, .rwl, .page, 1, 0, .one, 0, false⟩
  | .CKP_LAST_SEQ_SEQ => ⟨20, 1, 1, 0x100, 0, 64, .ro, .page, 1, 0, .one, 0, false⟩
  | .CKP_LAST_TICK_TICK => ⟨20, 1, 1, 0x108, 0, 64, .ro, .page, 1, 0, .one, 0, false⟩
  | .CKP_LAST_BYTES_BYTES => ⟨20, 1, 1, 0x110, 0, 64, .ro, .page, 1, 0, .one, 0, false⟩
  | .CKP_LAST_FREEZE_TICKS => ⟨20, 1, 1, 0x118, 0, 32, .ro, .page, 1, 0, .one, 0, false⟩
  | .CKP_MAX_FREEZE_TICKS => ⟨20, 1, 1, 0x11C, 0, 32, .ro, .page, 1, 0, .one, 0, false⟩
  | .CKP_STORE_USED_MIB => ⟨20, 1, 1, 0x120, 0, 32, .ro, .page, 1, 0, .one, 0, false⟩
  | .CKP_SLOT_A_SEQ_SEQ => ⟨20, 1, 1, 0x128, 0, 64, .ro, .page, 1, 0, .one, 0, false⟩
  | .CKP_SLOT_B_SEQ_SEQ => ⟨20, 1, 1, 0x130, 0, 64, .ro, .page, 1, 0, .one, 0, false⟩
  | .CKP_TAKEN_COUNT => ⟨20, 1, 1, 0x138, 0, 64, .ro, .page, 1, 0, .one, 0, true⟩
  | .CKP_ABORTED_COUNT => ⟨20, 1, 1, 0x140, 0, 64, .ro, .page, 1, 0, .one, 0, true⟩
  | .CKP_SKIPPED_COUNT => ⟨20, 1, 1, 0x148, 0, 64, .ro, .page, 1, 0, .one, 0, true⟩
  | .CKP_RESTORES_COUNT => ⟨20, 1, 1, 0x150, 0, 64, .ro, .page, 1, 0, .one, 0, true⟩
  | .SEC0_CFG_QUIET => ⟨8, 1, 1, 0x040, 0, 1, .rw, .page, 1, 0, .one, 0, false⟩
  | .SEC0_ISLAND_LIFECYCLE => ⟨8, 1, 1, 0x044, 0, 2, .ro, .page, 1, 0, .one, 0, false⟩
  | .SEC0_ISLAND_DEBUG_OPEN => ⟨8, 1, 1, 0x044, 8, 1, .ro, .page, 1, 0, .one, 0, false⟩
  | .SEC0_ISLAND_RNG_OK => ⟨8, 1, 1, 0x044, 9, 1, .ro, .page, 1, 0, .one, 1, false⟩
  | .SEC0_FINE_TENANT => ⟨8, 1, 1, 0x048, 0, 12, .ro, .page, 1, 0, .one, 0, false⟩
  | .SEC0_FINE_PHASE => ⟨8, 1, 1, 0x048, 16, 2, .ro, .page, 1, 0, .one, 0, false⟩
  | .SEC0_FINE_ACTIVE => ⟨8, 1, 1, 0x048, 31, 1, .ro, .page, 1, 0, .one, 0, false⟩
  | .SEC0_PAD_BASE_ADDR => ⟨8, 1, 1, 0x080, 16, 48, .rwl, .page, 12, 8, .one, 0, false⟩
  | .SEC0_FINES_COUNT => ⟨8, 1, 1, 0x100, 0, 64, .ro, .page, 1, 0, .one, 0, true⟩
  | .SEC0_KEYS_DESTROYED_COUNT => ⟨8, 1, 1, 0x108, 0, 64, .ro, .page, 1, 0, .one, 0, true⟩
  | .SEC0_SESSIONS_COUNT => ⟨8, 1, 1, 0x110, 0, 5, .ro, .page, 1, 0, .one, 0, false⟩
  | .SEC1_KEYIN_RECORD => ⟨9, 1, 1, 0x040, 0, 1024, .wo, .page, 1, 0, .one, 0, false⟩
  | .SEC1_KEYIN_GO_GO => ⟨9, 1, 1, 0x0C0, 0, 1, .w1s, .page, 1, 0, .one, 0, false⟩
  | .SEC1_KEYIN_STAT_RESULT => ⟨9, 1, 1, 0x0C4, 0, 8, .ro, .page, 1, 0, .one, 0, false⟩
  | .SEC1_STAGED_COUNT => ⟨9, 1, 1, 0x0C8, 0, 9, .ro, .page, 1, 0, .one, 0, false⟩
  | .SEC1_KEY_SEL_INDEX => ⟨9, 1, 1, 0x0D0, 0, 8, .rw, .page, 1, 0, .one, 0, false⟩
  | .SEC1_KEY_INFO_KIND => ⟨9, 1, 1, 0x0D4, 0, 3, .ro, .page, 1, 0, .stagedKey, 0, false⟩
  | .SEC1_KEY_INFO_OWNER => ⟨9, 1, 1, 0x0D4, 16, 12, .ro, .page, 1, 0, .stagedKey, 0, false⟩
  | .SEC1_KEY_INFO_VALID => ⟨9, 1, 1, 0x0D4, 31, 1, .ro, .page, 1, 0, .stagedKey, 0, false⟩
  | .SEC1_KEY_DISCARD_GO => ⟨9, 1, 1, 0x0D8, 0, 1, .w1s, .page, 1, 0, .one, 0, false⟩
  | .SEC1_KEY_REF_REF => ⟨9, 1, 1, 0x0E0, 0, 128, .ro, .page, 1, 0, .stagedKey, 0, false⟩
  | .SEC2_TEN_SEL_TENANT => ⟨10, 1, 1, 0x040, 0, 12, .rw, .page, 1, 0, .one, 0, false⟩
  | .SEC2_TEN_STATE_STATE => ⟨10, 1, 1, 0x044, 0, 2, .ro, .page, 1, 0, .secTenant, 0, false⟩
  | .SEC2_TEN_STATE_LOCAL_ONLY => ⟨10, 1, 1, 0x044, 4, 1, .ro, .page, 1, 0, .secTenant, 0, false⟩
  | .SEC2_TEN_STATE_TTKS => ⟨10, 1, 1, 0x044, 8, 3, .ro, .page, 1, 0, .secTenant, 0, false⟩
  | .SEC2_TEN_BIND_STAGED => ⟨10, 1, 1, 0x048, 0, 8, .rw, .page, 1, 0, .one, 0, false⟩
  | .SEC2_TEN_BIND_GO => ⟨10, 1, 1, 0x048, 31, 1, .w1s, .page, 1, 0, .one, 0, false⟩
  | .SEC2_TEN_TTK_REF_REF => ⟨10, 1, 1, 0x050, 0, 128, .ro, .page, 1, 0, .secTenant, 0, false⟩
  | .SEC2_TEN_UNITS_COUNT => ⟨10, 1, 1, 0x060, 0, 25, .ro, .page, 1, 0, .secTenant, 0, false⟩
  | .SEC2_CKPT_BIND_STAGED => ⟨10, 1, 1, 0x080, 0, 8, .rw, .page, 1, 0, .one, 0, false⟩
  | .SEC2_CKPT_BIND_GO => ⟨10, 1, 1, 0x080, 31, 1, .w1s, .page, 1, 0, .one, 0, false⟩
  | .SEC2_CKPT_REF_REF => ⟨10, 1, 1, 0x090, 0, 128, .ro, .page, 1, 0, .one, 0, false⟩
  | .SEC2_SET_SEL_SET => ⟨10, 1, 1, 0x0A0, 0, 2, .rw, .page, 1, 0, .one, 0, false⟩
  | .SEC2_SET_INFO_MEMBER => ⟨10, 1, 1, 0x0A4, 0, 10, .ro, .page, 1, 0, .setKey, 0, false⟩
  | .SEC2_SET_INFO_VALID => ⟨10, 1, 1, 0x0A4, 31, 1, .ro, .page, 1, 0, .setKey, 0, false⟩
  | .SEC2_SET_REVOKE_GO => ⟨10, 1, 1, 0x0A8, 0, 1, .w1s, .page, 1, 0, .one, 0, false⟩
  | .SEC2_SET_REF_REF => ⟨10, 1, 1, 0x0B0, 0, 128, .ro, .page, 1, 0, .setKey, 0, false⟩
  | .SEC2_OWNER_BASE_ADDR => ⟨10, 1, 1, 0x0C0, 16, 48, .rwl, .page, 1, 0, .one, 0, false⟩
  | .SEC2_POOLGEN_BASE_ADDR => ⟨10, 1, 1, 0x0C8, 12, 52, .rwl, .page, 1, 0, .one, 0, false⟩
  | .SEC3_STREAM_SEL_STREAM => ⟨11, 1, 1, 0x040, 0, 8, .rw, .page, 1, 0, .one, 1, false⟩
  | .SEC3_STREAM_CFG_PID => ⟨11, 1, 1, 0x044, 0, 12, .rwl, .stream, 1, 0, .stream, 0, false⟩
  | .SEC3_STREAM_CFG_TENANT => ⟨11, 1, 1, 0x044, 16, 12, .rwl, .stream, 1, 0, .stream, 0, false⟩
  | .SEC3_STREAM_CFG_BOUND => ⟨11, 1, 1, 0x044, 28, 1, .rwl, .stream, 1, 0, .stream, 0, false⟩
  | .SEC3_STREAM_SESS_SESSION => ⟨11, 1, 1, 0x048, 0, 4, .rwl, .stream, 1, 0, .stream, 0, false⟩
  | .SEC3_STREAM_STAT_ACTIVE => ⟨11, 1, 1, 0x04C, 0, 1, .ro, .page, 1, 0, .stream, 0, false⟩
  | .SEC3_STREAM_STAT_FAILED => ⟨11, 1, 1, 0x04C, 1, 1, .ro, .page, 1, 0, .stream, 0, false⟩
  | .SEC3_STREAM_STAT_KEY_SET => ⟨11, 1, 1, 0x04C, 2, 1, .ro, .page, 1, 0, .stream, 0, false⟩
  | .SEC3_STREAM_GEN_GEN => ⟨11, 1, 1, 0x050, 0, 32, .ro, .page, 1, 0, .stream, 0, false⟩
  | .SEC3_STREAM_GO_START => ⟨11, 1, 1, 0x054, 0, 1, .w1s, .page, 1, 0, .one, 0, false⟩
  | .SEC3_STREAM_GO_STOP => ⟨11, 1, 1, 0x054, 1, 1, .w1s, .page, 1, 0, .one, 0, false⟩
  | .SEC3_STREAM_GO_REKEY => ⟨11, 1, 1, 0x054, 2, 1, .w1s, .page, 1, 0, .one, 0, false⟩
  | .SEC3_STREAM_FAILS_COUNT => ⟨11, 1, 1, 0x100, 0, 64, .ro, .page, 1, 0, .one, 0, true⟩
  | .PWR_DOM_SEL_DOMAIN => ⟨1, 1, 1, 0x040, 0, 8, .rw, .page, 1, 0, .one, 0, false⟩
  | .PWR_DOM_REQ_STATE => ⟨1, 1, 1, 0x044, 0, 2, .rw, .page, 1, 0, .domain, 0, false⟩
  | .PWR_DOM_STAT_STATE => ⟨1, 1, 1, 0x048, 0, 2, .ro, .page, 1, 0, .domain, 0, false⟩
  | .PWR_DOM_STAT_MOVING => ⟨1, 1, 1, 0x048, 4, 1, .ro, .page, 1, 0, .domain, 0, false⟩
  | .PWR_DOM_STAT_AUTO => ⟨1, 1, 1, 0x048, 5, 1, .ro, .page, 1, 0, .domain, 0, false⟩
  | .PWR_VIN_MV => ⟨1, 1, 1, 0x050, 0, 17, .ro, .page, 1, 0, .one, 0, false⟩
  | .PWR_IIN_MA => ⟨1, 1, 1, 0x054, 0, 16, .ro, .page, 1, 0, .one, 0, false⟩
  | .PWR_PIN_W => ⟨1, 1, 1, 0x058, 0, 12, .ro, .page, 1, 0, .one, 0, false⟩
  | .PWR_ILIMIT_MA => ⟨1, 1, 1, 0x060, 0, 16, .rw, .page, 1, 0, .one, 32000, false⟩
  | .PWR_PLIMIT_W => ⟨1, 1, 1, 0x064, 0, 12, .rw, .page, 1, 0, .one, 2100, false⟩
  | .PWR_UV_WARN_MV => ⟨1, 1, 1, 0x068, 0, 17, .rw, .page, 1, 0, .one, 60000, false⟩
  | .PWR_OV_WARN_MV => ⟨1, 1, 1, 0x06C, 0, 17, .rw, .page, 1, 0, .one, 82000, false⟩
  | .PWR_THROTTLE_C => ⟨1, 1, 1, 0x070, 0, 8, .rw, .page, 1, 0, .one, 100, false⟩
  | .PWR_TEMP_MAX_C => ⟨1, 1, 1, 0x074, 0, 8, .ro, .page, 1, 0, .one, 0, false⟩
  | .PWR_ARB_SCRUB_PCT => ⟨1, 1, 1, 0x080, 0, 8, .rw, .page, 1, 0, .one, 2, false⟩
  | .PWR_ARB_WEAR_PCT => ⟨1, 1, 1, 0x080, 8, 8, .rw, .page, 1, 0, .one, 5, false⟩
  | .PWR_ARB_FG_FLOOR => ⟨1, 1, 1, 0x080, 16, 8, .rw, .page, 1, 0, .one, 10, false⟩
  | .PWR_ARB_CAL_MS => ⟨1, 1, 1, 0x080, 24, 8, .rw, .page, 1, 0, .one, 10, false⟩
  | .PWR_ARB_WINDOW_US => ⟨1, 1, 1, 0x084, 0, 16, .rw, .page, 1, 0, .one, 100, false⟩
  | .PWR_AON_IDLE_US => ⟨1, 1, 1, 0x088, 0, 16, .rw, .page, 1, 0, .one, 100, false⟩
  | .PWR_AUTO_IDLE_US => ⟨1, 1, 1, 0x08C, 0, 16, .rw, .page, 1, 0, .one, 1000, false⟩
  | .PWR_ALERT_MASK_MASK => ⟨1, 1, 1, 0x090, 8, 8, .rw, .page, 1, 0, .one, 0, false⟩
  | .PWR_LIMITED_10US_COUNT => ⟨1, 1, 1, 0x100, 0, 64, .ro, .page, 1, 0, .one, 0, true⟩
  | .PWR_AUTO_WAKES_COUNT => ⟨1, 1, 1, 0x108, 0, 64, .ro, .page, 1, 0, .one, 0, true⟩
  | .PWR_CAL_DEFERS_COUNT => ⟨1, 1, 1, 0x110, 0, 64, .ro, .page, 1, 0, .one, 0, true⟩
  | .CLK_CFG_AUTO_RETURN => ⟨2, 1, 1, 0x040, 0, 1, .rw, .page, 1, 0, .one, 1, false⟩
  | .CLK_CFG_WAKE_PLL => ⟨2, 1, 1, 0x040, 1, 1, .rw, .page, 1, 0, .one, 0, false⟩
  | .CLK_PLL_MHZ => ⟨2, 1, 1, 0x044, 0, 12, .rw, .page, 1, 0, .one, 1800, false⟩
  | .CLK_PLL_EFF_MHZ => ⟨2, 1, 1, 0x048, 0, 12, .ro, .page, 1, 0, .one, 1800, false⟩
  | .CLK_PLL_EFF_LOCKED => ⟨2, 1, 1, 0x048, 31, 1, .ro, .page, 1, 0, .one, 0, false⟩
  | .CLK_STATUS_REF_REF_OK => ⟨2, 1, 1, 0x04C, 0, 1, .ro, .page, 1, 0, .one, 0, false⟩
  | .CLK_STATUS_REF_REF_LOST => ⟨2, 1, 1, 0x04C, 1, 1, .ro, .page, 1, 0, .one, 0, false⟩
  | .CLK_STATUS_REF_REF_KHZ => ⟨2, 1, 1, 0x04C, 14, 18, .ro, .page, 1, 0, .one, 0, false⟩
  | .CLK_START_MHZ_MHZ => ⟨2, 1, 1, 0x050, 0, 12, .ro, .page, 1, 0, .one, 0, false⟩
  | .CLK_CORE_SEL_CORE => ⟨2, 1, 1, 0x054, 0, 7, .rw, .page, 1, 0, .one, 0, false⟩
  | .CLK_CORE_SEL_ALL => ⟨2, 1, 1, 0x054, 8, 1, .rw, .page, 1, 0, .one, 0, false⟩
  | .CLK_CORE_SW_TO_PLL => ⟨2, 1, 1, 0x058, 0, 1, .w1s, .page, 1, 0, .one, 0, false⟩
  | .CLK_CORE_SW_TO_START => ⟨2, 1, 1, 0x058, 1, 1, .w1s, .page, 1, 0, .one, 0, false⟩
  | .CLK_HOLDOVER_TICKS_COUNT => ⟨2, 1, 1, 0x100, 0, 64, .ro, .page, 1, 0, .one, 0, true⟩
  | .CLK_REF_LOSSES_COUNT => ⟨2, 1, 1, 0x108, 0, 32, .ro, .page, 1, 0, .one, 0, true⟩
  | .CLK_SWITCHES_COUNT => ⟨2, 1, 1, 0x10C, 0, 32, .ro, .page, 1, 0, .one, 0, true⟩
  | .RST_CAUSE_POWER_ON => ⟨3, 1, 1, 0x040, 0, 1, .ro, .page, 1, 0, .one, 1, false⟩
  | .RST_CAUSE_RESET_N => ⟨3, 1, 1, 0x040, 1, 1, .ro, .page, 1, 0, .one, 0, false⟩
  | .RST_CAUSE_WATCHDOG => ⟨3, 1, 1, 0x040, 2, 1, .ro, .page, 1, 0, .one, 0, false⟩
  | .RST_CAUSE_SOFTWARE => ⟨3, 1, 1, 0x040, 3, 1, .ro, .page, 1, 0, .one, 0, false⟩
  | .RST_CAUSE_JTAG => ⟨3, 1, 1, 0x040, 4, 1, .ro, .page, 1, 0, .one, 0, false⟩
  | .RST_DEVICE_COLD => ⟨3, 1, 1, 0x044, 0, 1, .w1s, .page, 1, 0, .one, 0, false⟩
  | .RST_DEVICE_KEY => ⟨3, 1, 1, 0x044, 16, 16, .wo, .page, 1, 0, .one, 0, false⟩
  | .RST_BENCH_WDT_MS => ⟨3, 1, 1, 0x048, 0, 16, .rwl, .page, 1, 0, .one, 1000, false⟩
  | .RST_SLOT_SLOT_ID => ⟨3, 1, 1, 0x04C, 0, 6, .ro, .page, 1, 0, .one, 0, false⟩
  | .RST_BOOTS_COUNT => ⟨3, 1, 1, 0x050, 0, 32, .ro, .page, 1, 0, .one, 0, false⟩
  | .RST_BOOT_TIME_TICKS => ⟨3, 1, 1, 0x058, 0, 64, .ro, .page, 1, 0, .one, 0, false⟩
  | .RST_FLRS_COUNT => ⟨3, 1, 1, 0x060, 0, 32, .ro, .page, 1, 0, .one, 0, false⟩
  | .BIST_CFG_AT_SHUTDOWN => ⟨4, 1, 1, 0x040, 0, 1, .rw, .page, 1, 0, .one, 1, false⟩
  | .BIST_LAST_RESULT => ⟨4, 1, 1, 0x044, 0, 8, .ro, .page, 1, 0, .one, 0, false⟩
  | .BIST_LAST_KIND => ⟨4, 1, 1, 0x044, 8, 8, .ro, .page, 1, 0, .one, 0, false⟩
  | .BIST_LAST_CONSUMED => ⟨4, 1, 1, 0x044, 16, 1, .ro, .page, 1, 0, .one, 0, false⟩
  | .BIST_LAST_SEGS_FAILED => ⟨4, 1, 1, 0x044, 24, 8, .ro, .page, 1, 0, .one, 0, false⟩
  | .BIST_LAST_SEQ_SEQ => ⟨4, 1, 1, 0x048, 0, 64, .ro, .page, 1, 0, .one, 0, false⟩
  | .BIST_LAST_COND_VCORE_MV => ⟨4, 1, 1, 0x050, 0, 16, .ro, .page, 1, 0, .one, 0, false⟩
  | .BIST_LAST_COND_CLK_MHZ => ⟨4, 1, 1, 0x050, 16, 16, .ro, .page, 1, 0, .one, 0, false⟩
  | .BIST_FAIL_MAP_MAP => ⟨4, 1, 1, 0x060, 0, 256, .ro, .page, 1, 0, .one, 0, false⟩
  | .BIST_BOOT_RAN => ⟨4, 1, 1, 0x080, 0, 1, .ro, .page, 1, 0, .one, 0, false⟩
  | .BIST_BOOT_RESULT => ⟨4, 1, 1, 0x080, 8, 8, .ro, .page, 1, 0, .one, 0, false⟩
  | .BIST_STORE_CURRENT => ⟨4, 1, 1, 0x084, 0, 1, .ro, .page, 1, 0, .one, 0, false⟩
  | .BIST_STORE_A_VALID => ⟨4, 1, 1, 0x084, 1, 1, .ro, .page, 1, 0, .one, 0, false⟩
  | .BIST_STORE_B_VALID => ⟨4, 1, 1, 0x084, 2, 1, .ro, .page, 1, 0, .one, 0, false⟩
  | .BIST_A_WRITES_COUNT => ⟨4, 1, 1, 0x088, 0, 32, .ro, .page, 1, 0, .one, 0, false⟩
  | .BIST_B_WRITES_COUNT => ⟨4, 1, 1, 0x08C, 0, 32, .ro, .page, 1, 0, .one, 0, false⟩
  | .BIST_CONFIG_ID_DIGEST => ⟨4, 1, 1, 0x0A0, 0, 384, .ro, .page, 1, 0, .one, 0, false⟩
  | .TEL0_CFG_DUMP_EN => ⟨12, 1, 1, 0x040, 0, 1, .rws, .page, 1, 0, .one, 0, false⟩
  | .TEL0_CFG_ALERT_FAILED => ⟨12, 1, 1, 0x040, 1, 1, .rw, .page, 1, 0, .one, 1, false⟩
  | .TEL0_BW_WINDOW_US => ⟨12, 1, 1, 0x044, 0, 20, .rws, .page, 1, 0, .one, 100, false⟩
  | .TEL0_DUMP_WINDOWS => ⟨12, 1, 1, 0x048, 0, 16, .rws, .page, 1, 0, .one, 100, false⟩
  | .TEL0_DUMP_BASE_IN_WINDOW => ⟨12, 1, 1, 0x050, 0, 1, .rwl, .page, 1, 0, .one, 0, false⟩
  | .TEL0_DUMP_BASE_ADDR => ⟨12, 1, 1, 0x050, 12, 52, .rwl, .page, 1, 0, .one, 0, false⟩
  | .TEL0_DUMP_FUNC_FUNCTION => ⟨12, 1, 1, 0x058, 0, 4, .rwl, .page, 1, 0, .one, 0, false⟩
  | .TEL0_DUMP_SLOTS_COUNT => ⟨12, 1, 1, 0x05C, 0, 17, .rwl, .page, 1, 0, .one, 16, false⟩
  | .TEL0_DUMP_SLOT_SIZE_KIB => ⟨12, 1, 1, 0x060, 0, 14, .rwl, .page, 1, 0, .one, 256, false⟩
  | .TEL0_DUMP_QREC_MAX_COUNT => ⟨12, 1, 1, 0x064, 0, 16, .rws, .page, 1, 0, .one, 4096, false⟩
  | .TEL0_DUMP_HEAD_COUNT => ⟨12, 1, 1, 0x068, 0, 32, .rw, .page, 1, 0, .one, 0, false⟩
  | .TEL0_DUMPS_WRITTEN_COUNT => ⟨12, 1, 1, 0x06C, 0, 32, .ro, .page, 1, 0, .one, 0, false⟩
  | .TEL0_DUMP_SEQ_SEQ => ⟨12, 1, 1, 0x070, 0, 64, .ro, .page, 1, 0, .one, 0, false⟩
  | .TEL0_DUMP_DROPS_COUNT => ⟨12, 1, 1, 0x078, 0, 64, .ro, .page, 1, 0, .one, 0, true⟩
  | .TEL0_QREC_DROPS_COUNT => ⟨12, 1, 1, 0x080, 0, 64, .ro, .page, 1, 0, .one, 0, true⟩
  | .TEL0_TRUNCS_COUNT => ⟨12, 1, 1, 0x088, 0, 64, .ro, .page, 1, 0, .one, 0, true⟩
  | .TEL0_ERR_MAP_MAP => ⟨12, 1, 1, 0x100, 0, 384, .ro, .page, 1, 0, .one, 0, false⟩
  | .TEL0_FAILED_MAP_MAP => ⟨12, 1, 1, 0x140, 0, 384, .ro, .page, 1, 0, .one, 0, false⟩
  | .TEL1_CORE_SEL_CORE => ⟨13, 1, 1, 0x040, 0, 7, .rw, .page, 1, 0, .one, 0, false⟩
  | .TEL1_CORE_RETIRED_COUNT => ⟨13, 1, 1, 0x048, 0, 64, .ro, .page, 1, 0, .telCore, 0, false⟩
  | .TEL1_CORE_WASTED_COUNT => ⟨13, 1, 1, 0x050, 0, 64, .ro, .page, 1, 0, .telCore, 0, false⟩
  | .TEL1_CORE_FRONT_COUNT => ⟨13, 1, 1, 0x058, 0, 64, .ro, .page, 1, 0, .telCore, 0, false⟩
  | .TEL1_CORE_BACK_COUNT => ⟨13, 1, 1, 0x060, 0, 64, .ro, .page, 1, 0, .telCore, 0, false⟩
  | .TEL1_TEN_SEL_TENANT => ⟨13, 1, 1, 0x080, 0, 12, .rw, .page, 1, 0, .one, 0, false⟩
  | .TEL1_TEN_SEL_CLASS => ⟨13, 1, 1, 0x080, 12, 3, .rw, .page, 1, 0, .one, 0, false⟩
  | .TEL1_TEN_RETIRED_COUNT => ⟨13, 1, 1, 0x088, 0, 64, .ro, .page, 1, 0, .telQueue, 0, false⟩
  | .TEL1_TEN_WASTED_COUNT => ⟨13, 1, 1, 0x090, 0, 64, .ro, .page, 1, 0, .telQueue, 0, false⟩
  | .TEL1_TEN_BACK_COUNT => ⟨13, 1, 1, 0x098, 0, 64, .ro, .page, 1, 0, .telQueue, 0, false⟩
  | .TEL1_DEV_RETIRED_COUNT => ⟨13, 1, 1, 0x100, 0, 64, .ro, .page, 1, 0, .one, 0, false⟩
  | .TEL1_DEV_WASTED_COUNT => ⟨13, 1, 1, 0x108, 0, 64, .ro, .page, 1, 0, .one, 0, false⟩
  | .TEL1_DEV_FRONT_COUNT => ⟨13, 1, 1, 0x110, 0, 64, .ro, .page, 1, 0, .one, 0, false⟩
  | .TEL1_DEV_BACK_COUNT => ⟨13, 1, 1, 0x118, 0, 64, .ro, .page, 1, 0, .one, 0, false⟩
  | .TEL2_PORT_SEL_PORT => ⟨14, 1, 1, 0x040, 0, 7, .rw, .page, 1, 0, .one, 0, false⟩
  | .TEL2_PORT_RD_BYTES => ⟨14, 1, 1, 0x048, 0, 64, .ro, .page, 1, 0, .telPort, 0, false⟩
  | .TEL2_PORT_WR_BYTES => ⟨14, 1, 1, 0x050, 0, 64, .ro, .page, 1, 0, .telPort, 0, false⟩
  | .TEL2_PORT_BG_BYTES => ⟨14, 1, 1, 0x058, 0, 64, .ro, .page, 1, 0, .telPort, 0, false⟩
  | .TEL2_PORT_MAX_BYTES => ⟨14, 1, 1, 0x060, 0, 64, .ro, .page, 1, 0, .telPort, 0, false⟩
  | .TEL2_PORT_CUR_RD_BYTES => ⟨14, 1, 1, 0x068, 0, 64, .ro, .page, 1, 0, .telPort, 0, false⟩
  | .TEL2_PORT_CUR_WR_BYTES => ⟨14, 1, 1, 0x070, 0, 64, .ro, .page, 1, 0, .telPort, 0, false⟩
  | .TEL2_WINDOW_SEQ_COUNT => ⟨14, 1, 1, 0x080, 0, 64, .ro, .page, 1, 0, .one, 0, false⟩
  | .TEL2_WINDOW_TICK_TICK => ⟨14, 1, 1, 0x088, 0, 64, .ro, .page, 1, 0, .one, 0, false⟩
  | .TEL3_TAG_LOG2N => ⟨15, 1, 1, 0x040, 0, 5, .rws, .page, 1, 0, .one, 0, false⟩
  | .TEL3_TAG_SEED_SEED => ⟨15, 1, 1, 0x044, 0, 32, .rws, .page, 1, 0, .one, 1, false⟩
  | .TEL3_TAG_BASE_IN_WINDOW => ⟨15, 1, 1, 0x048, 0, 1, .rwl, .page, 1, 0, .one, 0, false⟩
  | .TEL3_TAG_BASE_ADDR => ⟨15, 1, 1, 0x048, 12, 52, .rwl, .page, 1, 0, .one, 0, false⟩
  | .TEL3_TAG_SIZE_LOG2 => ⟨15, 1, 1, 0x050, 0, 5, .rwl, .page, 1, 0, .one, 14, false⟩
  | .TEL3_TAG_TAIL_COUNT => ⟨15, 1, 1, 0x054, 0, 32, .ro, .page, 1, 0, .one, 0, false⟩
  | .TEL3_TAG_HEAD_COUNT => ⟨15, 1, 1, 0x058, 0, 32, .rw, .page, 1, 0, .one, 0, false⟩
  | .TEL3_TAGGED_COUNT => ⟨15, 1, 1, 0x100, 0, 64, .ro, .page, 1, 0, .one, 0, true⟩
  | .TEL3_TAG_DROPS_COUNT => ⟨15, 1, 1, 0x108, 0, 64, .ro, .page, 1, 0, .one, 0, true⟩

/-- Part 0 of the list of all fields. -/
def Reg.list0 : List Reg :=
  [.GLB_RING_BIND_RING, .GLB_RING_BIND_TENANT, .GLB_RING_BIND_ADMIN,
   .GLB_RING_BIND_UNBIND, .GLB_RING_BIND_BIND, .GLB_RING_WIN_WIN_BASE,
   .GLB_RING_WIN_WIN_UNITS, .GLB_WATCHDOG_MS, .GLB_TICK_TICK,
   .GLB_BOOT_EPOCH_EPOCH, .GLB_ACCESS_ERR_OFFSET, .GLB_INT_ROUTE_VECTOR,
   .GLB_INT_ROUTE_ROUTE_EN, .SDIR_CFG_CACHE_EN, .SDIR_CFG_LOCK_WAYS,
   .SDIR_BASE_ADDR, .SDIR_FREELIST_ADDR, .SDIR_SLOTS_COUNT,
   .SDIR_OVERSTAY_US, .SDIR_QUOTA_SEL_TENANT, .SDIR_QUOTA_MAX,
   .SDIR_QUOTA_USED_USED, .SDIR_BAD_SLOT_SLOT, .SDIR_BAD_SLOT_VALID,
   .SDIR_HITS_COUNT, .SDIR_MISSES_COUNT, .SDIR_LOCK_STALLS_COUNT,
   .SDIR_STALE_COUNT, .SDIR_ALLOCATED_COUNT, .SDIR_RETIRED_COUNT,
   .SDIR_OVERSTAYS_COUNT, .SDIR_LOST_COUNT_COUNT, .SDIR_RES_COUNT_COUNT,
   .STM_CFG_REHEAT_EN, .STM_CFG_AGE_EN, .STM_CFG_PRESSURE_EN,
   .STM_CFG_WEAR_GOV_EN, .STM_CFG_POOL_EN, .STM_CFG_PRESSURE_SHIFT,
   .STM_WINDOW_US]
/-- Part 1 of the list of all fields. -/
def Reg.list1 : List Reg :=
  [.STM_HEAP_BASE_ADDR, .STM_HEAP_SIZE_GIB, .STM_HBM_LOW_GIB,
   .STM_HBM_RESERVE_GIB, .STM_FLASH_QUOTA_GIB, .STM_FLASH_LOW_GIB,
   .STM_HOT_BELOW_US, .STM_POOL_BASE_ADDR, .STM_POOL_SIZE_GIB,
   .STM_PARK_ABOVE_MS, .STM_AGE_S, .STM_HOT_IDLE_US,
   .STM_TEN_SEL_TENANT, .STM_TEN_LEAD_PW_US, .STM_TEN_LEAD_LW_US,
   .STM_TEN_LEAD_WH_US, .STM_TEN_LEAD_WH_NVER, .STM_WEAR_RATE_MBPS,
   .STM_WEAR_DEPTH_GIB, .STM_WEAR_LEVEL_BYTES, .STM_BUDGET_GBPS,
   .STM_SHARE_GUAR, .STM_SHARE_CEIL, .STM_MOVES_UP_COUNT,
   .STM_MOVES_DOWN_COUNT, .STM_TILES_MOVED_COUNT, .STM_TILES_REFERENCED_COUNT,
   .STM_FLASH_BYTES_COUNT, .STM_VER_STALLS_COUNT, .STM_VER_STALL_MAX_TICKS,
   .STM_VER_ABORTS_COUNT, .STM_SPACE_STALLS_COUNT, .STM_REHEAT_FIRED_COUNT,
   .STM_REHEAT_LATE_COUNT, .STM_CANCELS_COUNT, .STM_WEAR_REFUSALS_COUNT,
   .STM_WEAR_OVERDRAW_BYTES, .STM_FLASH_FREE_GIB, .STM_HEAP_FREE_GIB,
   .CANE_CFG_LOOKUP_EN]
/-- Part 2 of the list of all fields. -/
def Reg.list2 : List Reg :=
  [.CANE_CFG_INSERT_EN, .CANE_NODE_BASE_ADDR, .CANE_NODES_COUNT,
   .CANE_TOKEN_BASE_ADDR, .CANE_BUCKET_BASE_ADDR, .CANE_BUCKETS_LOG2,
   .CANE_REC_BASE_ADDR, .CANE_REC_COUNT_COUNT, .CANE_LOOKUPS_COUNT,
   .CANE_ADOPTED_COUNT, .CANE_INSERTS_COUNT, .CANE_INSERT_DUP_COUNT,
   .CANE_INSERT_FULL_COUNT, .CANE_COLLISIONS_COUNT, .CANE_COW_COPIES_COUNT,
   .CANE_FREED_COUNT, .CANE_ABANDONED_COUNT, .CANE_NODES_USED_COUNT,
   .CANE_RECORDS_USED_COUNT, .CANE_FREE_PENDING_COUNT, .EVIC_TEN_SEL_TENANT,
   .EVIC_TEN_CFG_DECAY_SHIFT, .EVIC_TEN_CFG_PRESSURE_EVICT, .EVIC_TEN_PRESS_BUDGET_POSITIONS,
   .EVIC_COMPACTIONS_COUNT, .EVIC_NOOPS_COUNT, .EVIC_DROPPED_COUNT,
   .EVIC_PAGES_WRITTEN_COUNT, .EVIC_PAGES_KEPT_COUNT, .EVIC_PRESSURE_EVICTIONS_COUNT,
   .EVIC_SPACE_WAITS_COUNT, .EVIC_TABLE_DROPS_COUNT, .EVIC_LONGEST_TICKS,
   .CRU_CFG_ZERO_SKIP_EN, .CRU_SRAM_RES_MIB, .CRU_SRAM_URGENT_MIB,
   .CRU_CLOCK_PLL, .CRU_CLOCK_MHZ, .CRU_TILE_KIND,
   .CRU_TILE_MODEL]
/-- Part 3 of the list of all fields. -/
def Reg.list3 : List Reg :=
  [.CRU_TILE_URGENT, .CRU_TILES_COUNT, .CRU_BUSY_CYCLES_COUNT,
   .CRU_PREEMPTS_COUNT, .CRU_ZERO_SKIPS_COUNT, .CRU_SPARSE_TILES_COUNT,
   .CRU_SATURATIONS_COUNT, .CRU_NAN_ZEROED_COUNT, .CRU_OVERRUNS_COUNT,
   .CRU_MAX_TILE_CYCLES, .CRU_ECC_CORRECTED_COUNT, .CRU_CLU_SR_MIB,
   .CRU_CLU_WIN_MIB, .CRU_CLU_SEATS_FREE_UNITS, .CRU_CLU_WIN_STALLS_COUNT,
   .CRU_CLU_WIN_BYTES_COUNT, .CRU_MODEL_BASE_ADDR, .CRU_MODEL_SIZE_GIB,
   .CRU_MODEL_SEL_ID, .CRU_MODEL_STAT_LOADED, .CRU_MODEL_STAT_RESIDENT,
   .CRU_MODEL_STAT_PRIVATE, .CRU_MODEL_STAT_TENANT, .CRU_MODEL_STAT_W,
   .CRU_MODEL_BYTES_COUNT, .CRU_MODEL_SESSIONS_COUNT, .CRU_MODEL_FREE_GIB,
   .CRU_MODEL_FP_FP, .GAF_CFG_BUDGET, .GAF_CHUNK_ROWS,
   .GAF_CHUNK_MIN, .GAF_GATHER_US, .GAF_URGENT_PCT,
   .GAF_URGENT_WINDOW_US, .GAF_STEP_SEQ_COUNT, .GAF_DECODE_ROWS_COUNT,
   .GAF_PREFILL_ROWS_COUNT, .GAF_PREEMPTS_COUNT, .GAF_URGENT_JOBS_COUNT,
   .GAF_URGENT_CAPPED_COUNT]
/-- Part 4 of the list of all fields. -/
def Reg.list4 : List Reg :=
  [.GAF_ALLOT_SKIPS_COUNT, .GAF_ALLOT_FAILS_COUNT, .GAF_MISSES_COUNT,
   .GAF_HELD_BACK_COUNT, .GAF_LAST_ROWS_COUNT, .GAF_LAST_TICKS_TICKS,
   .GAF_MAX_TICKS_TICKS, .ADM_CFG_POLICE_EN, .ADM_SAMPLE_US,
   .ADM_VT_URGENT_VT, .ADM_VT_NORMAL_VT, .ADM_CLASS_OVERHEAD,
   .ADM_CLASS_URGENT, .ADM_CLASS_DROP_LATE, .ADM_RING_COLOUR_COLOUR,
   .ADM_Q_SEL_TENANT, .ADM_Q_SEL_CLASS, .ADM_Q_MODE_POLICED,
   .ADM_Q_MODE_COLOUR_AWARE, .ADM_Q_WEIGHT_WEIGHT, .ADM_Q_CIR_KBPS,
   .ADM_Q_PIR_KBPS, .ADM_Q_CBS_BYTES, .ADM_Q_PBS_BYTES,
   .ADM_Q_MAX_CMDS_COUNT, .ADM_Q_YELLOW_MAX_BYTES, .ADM_Q_DEPTH_CMDS_COUNT,
   .ADM_Q_DEPTH_BYTES_BYTES, .ADM_Q_SOJ_LAST_TICKS, .ADM_Q_SOJ_MAX_TICKS,
   .ADM_Q_SOJ_SUM_TICKS, .ADM_Q_SOJ_COUNT_COUNT, .ADM_Q_GREEN_COUNT,
   .ADM_Q_YELLOW_COUNT, .ADM_Q_RED_COUNT, .ADM_Q_DEPTH_DROPS_COUNT,
   .ADM_TEN_SEL_TENANT, .ADM_TEN_SUBMITTED_COUNT, .ADM_TEN_COMPLETED_COUNT,
   .ADM_TEN_PREEMPTED_COUNT]
/-- Part 5 of the list of all fields. -/
def Reg.list5 : List Reg :=
  [.ADM_TEN_MISSED_COUNT, .ADM_TEN_DROPPED_COUNT, .ADM_ACCEPTED_COUNT,
   .ADM_DROPPED_COUNT, .MRV_CFG_LANES, .MRV_VOCAB_SEL_ID,
   .MRV_VOCAB_STAT_LOADED, .MRV_VOCAB_STAT_PRESPLIT, .MRV_VOCAB_STAT_MAX_LEN,
   .MRV_VOCAB_TOKENS_COUNT, .MRV_VOCAB_MERGES_COUNT, .MRV_VOCAB_EOS_TOKEN,
   .MRV_VOCAB_ELIDE_TOKEN, .MRV_VOCAB_DIGEST_DIGEST, .MRV_FREE_TOKENS_COUNT,
   .MRV_FREE_MERGES_COUNT, .MRV_FREE_BYTES_COUNT, .MRV_TEN_SEL_TENANT,
   .MRV_TEN_TRUNC_EN, .MRV_TEN_TRUNC_H_COUNT, .MRV_TEN_TRUNC_T_COUNT,
   .MRV_TEN_TRUNC_MAX_COUNT, .MRV_BYTES_IN_COUNT, .MRV_TOKENS_IN_COUNT,
   .MRV_INV_OVERLONG_COUNT, .MRV_INV_SURROGATE_COUNT, .MRV_INV_RANGE_COUNT,
   .MRV_INV_STRAY_COUNT, .MRV_INV_TRUNCATED_COUNT, .MRV_INV_END_COUNT,
   .MRV_TRUNCATIONS_COUNT, .MRV_ELIDED_COUNT, .MRV_REFUSED_COUNT,
   .MRV_FLUSH_DROPS_COUNT, .MRV_DETOK_BYTES_COUNT, .MRV_OUT_INVALID_COUNT,
   .JCK_STORE_BASE_ADDR, .JCK_STORE_SIZE_GIB, .JCK_STORE_FREE_MIB,
   .JCK_OBJ_SEL_TENANT]
/-- Part 6 of the list of all fields. -/
def Reg.list6 : List Reg :=
  [.JCK_OBJ_SEL_KIND, .JCK_OBJ_SEL_ID, .JCK_OBJ_STAT_LOADED,
   .JCK_OBJ_STAT_MODEL, .JCK_OBJ_BYTES_COUNT, .JCK_OBJ_USERS_COUNT,
   .JCK_TEN_SEL_TENANT, .JCK_TEN_TEMP_TEMP, .JCK_TEN_TOP_P_TOP_P,
   .JCK_TEN_TOP_K_TOP_K, .JCK_MASKS_COUNT, .JCK_FORCED_COUNT,
   .JCK_FORCE_ABANDONS_COUNT, .JCK_ESCAPES_COUNT, .JCK_DEAD_ENDS_COUNT,
   .JCK_DRAWS_COUNT, .JCK_MASK_WAITS_COUNT, .EMB_CFG_HOT_EN,
   .EMB_CFG_AUTO_REPL, .EMB_BATCH_IDX, .EMB_GATHER_US,
   .EMB_HOT_MIN_COUNT, .EMB_HOT_DECAY_SHIFT, .EMB_HOT_COPIES,
   .EMB_HOT_REPL_AT, .EMB_HOT_DROP_AT, .EMB_REPL_BASE_ADDR,
   .EMB_REPL_SIZE_MIB, .EMB_TBL_SEL_TABLE, .EMB_TBL_CFG_VALID,
   .EMB_TBL_CFG_REMOTE, .EMB_TBL_CFG_POOL, .EMB_TBL_CFG_SHARED,
   .EMB_TBL_CFG_DET_EN, .EMB_TBL_CFG_FORMAT, .EMB_TBL_CFG_TENANT,
   .EMB_TBL_WIDTH_BYTES, .EMB_TBL_ROWS_ROWS_M1, .EMB_TBL_BASE_ADDR,
   .EMB_TBL_TAINT_BASE_ADDR]
/-- Part 7 of the list of all fields. -/
def Reg.list7 : List Reg :=
  [.EMB_TBL_HOME_DEVICE, .EMB_TBL_HOME_TABLE, .EMB_TBL_DET_WINDOW_US,
   .EMB_TBL_SEQ_COUNT, .EMB_TBL_TAINTED_COUNT, .EMB_MODEL_OBS_D_OBS,
   .EMB_HOT_SEL_INDEX, .EMB_HOT_ROW_ROW, .EMB_HOT_ROW_TABLE,
   .EMB_HOT_ROW_VALID, .EMB_HOT_ROW_SWITCH_PEND, .EMB_HOT_STAT_COPY_MASK,
   .EMB_HOT_STAT_INFLIGHT, .EMB_HOT_COUNT_COUNT, .EMB_HOT_SEQ_ROW_SEQ,
   .EMB_BATCHES_COUNT, .EMB_BAGS_COUNT, .EMB_INDICES_COUNT,
   .EMB_UNIQUE_COUNT, .EMB_FETCH_BYTES_COUNT, .EMB_RECORDS_COUNT,
   .EMB_REMOTE_SENT_COUNT, .EMB_REMOTE_RECV_COUNT, .EMB_LATE_COUNT,
   .EMB_TAINT_READS_COUNT, .EMB_SWITCHES_COUNT, .EMB_SWITCH_DEFERS_COUNT,
   .EMB_REPL_MISMATCH_COUNT, .EMB_HOT_FULL_COUNT, .SRCH_BATCH_QUERIES,
   .SRCH_GATHER_US, .SRCH_WALK_MAX_VISIT, .SRCH_WALK_INSERT_BEAM,
   .SRCH_FLASH_RD_FLOOR, .SRCH_FLASH_WR_GBPS, .SRCH_SPLIT_AT,
   .SRCH_TOMB_BASE_ADDR, .SRCH_TOMB_COUNT_COUNT, .SRCH_TOMB_USED_COUNT,
   .SRCH_FLASH_FREE_GIB]
/-- Part 8 of the list of all fields. -/
def Reg.list8 : List Reg :=
  [.SRCH_COLL_SEL_COLLECTION, .SRCH_COLL_CFG_VALID, .SRCH_COLL_CFG_CODE,
   .SRCH_COLL_CFG_TENANT, .SRCH_COLL_PARTS_MAX_COUNT, .SRCH_COLL_GRAPH_ADDR,
   .SRCH_COLL_LIST_ADDR, .SRCH_COLL_LIST_SIZE_MIB, .SRCH_COLL_SEQ_SEQ,
   .SRCH_COLL_STAT_HALF, .SRCH_COLL_STAT_COMPACTING, .SRCH_COLL_STAT_FAILED,
   .SRCH_COLL_PARTS_COUNT, .SRCH_COLL_RECORDS_COUNT, .SRCH_COLL_FLASH_MIB,
   .SRCH_SEARCHES_COUNT, .SRCH_QUERIES_DONE_COUNT, .SRCH_VISITS_COUNT,
   .SRCH_WALK_CAPPED_COUNT, .SRCH_GROUPS_READ_COUNT, .SRCH_ID_READS_COUNT,
   .SRCH_SCAN_BYTES_COUNT, .SRCH_INSERTED_COUNT, .SRCH_TOMBSTONED_COUNT,
   .SRCH_PARTIAL_GROUPS_COUNT, .SRCH_WRITE_BYTES_COUNT, .SRCH_COMPACTIONS_COUNT,
   .FAB_CFG_MAX_RATE, .FAB_CFG_L0P_EN, .FAB_CFG_COMBINE_HINT,
   .FAB_LINK_RATE, .FAB_LINK_WIDTH, .FAB_LINK_L0P,
   .FAB_LINK_IDE, .FAB_TRAIN_FAILS_COUNT, .FAB_TX_BYTES_COUNT,
   .FAB_RX_BYTES_COUNT, .FAB_REQS_COUNT, .FAB_REISSUED_COUNT,
   .FAB_REPLAYS_COUNT]
/-- Part 9 of the list of all fields. -/
def Reg.list9 : List Reg :=
  [.FAB_FEC_CORRECTED_COUNT, .FAB_LINK_DOWNS_COUNT, .FAB_IDE_FAILS_COUNT,
   .FAM_SELF_DEVICE, .FAM_SELF_PID, .FAM_TIMEOUT_US,
   .FAM_TGT_LIMIT_COUNT, .FAM_LEASE_CFG_OFFER_MS, .FAM_LEASE_CFG_VALIDATE_US,
   .FAM_LEASE_POLL_US, .FAM_LEASE_BASE_ADDR, .FAM_MAP_SEL_INDEX,
   .FAM_MAP_FA_FA_BASE, .FAM_MAP_UNITS_UNITS, .FAM_MAP_TGT_TGT_BASE,
   .FAM_MAP_DEST_DEVICE, .FAM_MAP_DEST_PID, .FAM_MAP_DEST_KIND,
   .FAM_MAP_DEST_COMBINE_OK, .FAM_MAP_PORTS_PORTS, .FAM_MAP_PORTS_IDE_STREAM,
   .FAM_MAP_GEN_COUNT, .FAM_DEAD_SEL_DEVICE, .FAM_DEAD_STAT_DEAD,
   .FAM_DEAD_STAT_CLEAR, .FAM_DEAD_STAT_WALKING, .FAM_DEAD_LAST_DEVICE,
   .FAM_DEAD_LAST_VALID, .FAM_DEAD_COUNT_COUNT, .FAM_OUTSTANDING_COUNT,
   .FAM_REQS_COUNT, .FAM_TIMEOUTS_COUNT, .FAM_LATE_RESPONSES_COUNT,
   .FAM_REFUSED_DEAD_COUNT, .FAM_MAP_MISSES_COUNT, .FAM_MSG_SENT_COUNT,
   .FAM_MSG_RECV_COUNT, .FAM_MSG_BUSY_COUNT, .FAM_OFFERS_COUNT,
   .FAM_ACCEPTS_COUNT]
/-- Part 10 of the list of all fields. -/
def Reg.list10 : List Reg :=
  [.FAM_WITHDRAWS_COUNT, .FAM_FORCED_COUNT, .FAM_VALIDATIONS_COUNT,
   .FAM_LEASE_LOSSES_COUNT, .FAM_HOME_FAILS_COUNT, .FAM_LOST_MARKED_COUNT,
   .CKP_CFG_TIMER_EN, .CKP_CFG_STEPS_EN, .CKP_CFG_AT_BOUNDARY,
   .CKP_CFG_COMPRESS, .CKP_CFG_FULL_EVERY, .CKP_TIMER_S,
   .CKP_STEPS_COUNT, .CKP_STORE_BASE_ADDR, .CKP_STORE_SIZE_GIB,
   .CKP_STAGE_BASE_ADDR, .CKP_STAGE_SIZE_GIB, .CKP_MAP_BASE_ADDR,
   .CKP_LAST_SEQ_SEQ, .CKP_LAST_TICK_TICK, .CKP_LAST_BYTES_BYTES,
   .CKP_LAST_FREEZE_TICKS, .CKP_MAX_FREEZE_TICKS, .CKP_STORE_USED_MIB,
   .CKP_SLOT_A_SEQ_SEQ, .CKP_SLOT_B_SEQ_SEQ, .CKP_TAKEN_COUNT,
   .CKP_ABORTED_COUNT, .CKP_SKIPPED_COUNT, .CKP_RESTORES_COUNT,
   .SEC0_CFG_QUIET, .SEC0_ISLAND_LIFECYCLE, .SEC0_ISLAND_DEBUG_OPEN,
   .SEC0_ISLAND_RNG_OK, .SEC0_FINE_TENANT, .SEC0_FINE_PHASE,
   .SEC0_FINE_ACTIVE, .SEC0_PAD_BASE_ADDR, .SEC0_FINES_COUNT,
   .SEC0_KEYS_DESTROYED_COUNT]
/-- Part 11 of the list of all fields. -/
def Reg.list11 : List Reg :=
  [.SEC0_SESSIONS_COUNT, .SEC1_KEYIN_RECORD, .SEC1_KEYIN_GO_GO,
   .SEC1_KEYIN_STAT_RESULT, .SEC1_STAGED_COUNT, .SEC1_KEY_SEL_INDEX,
   .SEC1_KEY_INFO_KIND, .SEC1_KEY_INFO_OWNER, .SEC1_KEY_INFO_VALID,
   .SEC1_KEY_DISCARD_GO, .SEC1_KEY_REF_REF, .SEC2_TEN_SEL_TENANT,
   .SEC2_TEN_STATE_STATE, .SEC2_TEN_STATE_LOCAL_ONLY, .SEC2_TEN_STATE_TTKS,
   .SEC2_TEN_BIND_STAGED, .SEC2_TEN_BIND_GO, .SEC2_TEN_TTK_REF_REF,
   .SEC2_TEN_UNITS_COUNT, .SEC2_CKPT_BIND_STAGED, .SEC2_CKPT_BIND_GO,
   .SEC2_CKPT_REF_REF, .SEC2_SET_SEL_SET, .SEC2_SET_INFO_MEMBER,
   .SEC2_SET_INFO_VALID, .SEC2_SET_REVOKE_GO, .SEC2_SET_REF_REF,
   .SEC2_OWNER_BASE_ADDR, .SEC2_POOLGEN_BASE_ADDR, .SEC3_STREAM_SEL_STREAM,
   .SEC3_STREAM_CFG_PID, .SEC3_STREAM_CFG_TENANT, .SEC3_STREAM_CFG_BOUND,
   .SEC3_STREAM_SESS_SESSION, .SEC3_STREAM_STAT_ACTIVE, .SEC3_STREAM_STAT_FAILED,
   .SEC3_STREAM_STAT_KEY_SET, .SEC3_STREAM_GEN_GEN, .SEC3_STREAM_GO_START,
   .SEC3_STREAM_GO_STOP]
/-- Part 12 of the list of all fields. -/
def Reg.list12 : List Reg :=
  [.SEC3_STREAM_GO_REKEY, .SEC3_STREAM_FAILS_COUNT, .PWR_DOM_SEL_DOMAIN,
   .PWR_DOM_REQ_STATE, .PWR_DOM_STAT_STATE, .PWR_DOM_STAT_MOVING,
   .PWR_DOM_STAT_AUTO, .PWR_VIN_MV, .PWR_IIN_MA,
   .PWR_PIN_W, .PWR_ILIMIT_MA, .PWR_PLIMIT_W,
   .PWR_UV_WARN_MV, .PWR_OV_WARN_MV, .PWR_THROTTLE_C,
   .PWR_TEMP_MAX_C, .PWR_ARB_SCRUB_PCT, .PWR_ARB_WEAR_PCT,
   .PWR_ARB_FG_FLOOR, .PWR_ARB_CAL_MS, .PWR_ARB_WINDOW_US,
   .PWR_AON_IDLE_US, .PWR_AUTO_IDLE_US, .PWR_ALERT_MASK_MASK,
   .PWR_LIMITED_10US_COUNT, .PWR_AUTO_WAKES_COUNT, .PWR_CAL_DEFERS_COUNT,
   .CLK_CFG_AUTO_RETURN, .CLK_CFG_WAKE_PLL, .CLK_PLL_MHZ,
   .CLK_PLL_EFF_MHZ, .CLK_PLL_EFF_LOCKED, .CLK_STATUS_REF_REF_OK,
   .CLK_STATUS_REF_REF_LOST, .CLK_STATUS_REF_REF_KHZ, .CLK_START_MHZ_MHZ,
   .CLK_CORE_SEL_CORE, .CLK_CORE_SEL_ALL, .CLK_CORE_SW_TO_PLL,
   .CLK_CORE_SW_TO_START]
/-- Part 13 of the list of all fields. -/
def Reg.list13 : List Reg :=
  [.CLK_HOLDOVER_TICKS_COUNT, .CLK_REF_LOSSES_COUNT, .CLK_SWITCHES_COUNT,
   .RST_CAUSE_POWER_ON, .RST_CAUSE_RESET_N, .RST_CAUSE_WATCHDOG,
   .RST_CAUSE_SOFTWARE, .RST_CAUSE_JTAG, .RST_DEVICE_COLD,
   .RST_DEVICE_KEY, .RST_BENCH_WDT_MS, .RST_SLOT_SLOT_ID,
   .RST_BOOTS_COUNT, .RST_BOOT_TIME_TICKS, .RST_FLRS_COUNT,
   .BIST_CFG_AT_SHUTDOWN, .BIST_LAST_RESULT, .BIST_LAST_KIND,
   .BIST_LAST_CONSUMED, .BIST_LAST_SEGS_FAILED, .BIST_LAST_SEQ_SEQ,
   .BIST_LAST_COND_VCORE_MV, .BIST_LAST_COND_CLK_MHZ, .BIST_FAIL_MAP_MAP,
   .BIST_BOOT_RAN, .BIST_BOOT_RESULT, .BIST_STORE_CURRENT,
   .BIST_STORE_A_VALID, .BIST_STORE_B_VALID, .BIST_A_WRITES_COUNT,
   .BIST_B_WRITES_COUNT, .BIST_CONFIG_ID_DIGEST, .TEL0_CFG_DUMP_EN,
   .TEL0_CFG_ALERT_FAILED, .TEL0_BW_WINDOW_US, .TEL0_DUMP_WINDOWS,
   .TEL0_DUMP_BASE_IN_WINDOW, .TEL0_DUMP_BASE_ADDR, .TEL0_DUMP_FUNC_FUNCTION,
   .TEL0_DUMP_SLOTS_COUNT]
/-- Part 14 of the list of all fields. -/
def Reg.list14 : List Reg :=
  [.TEL0_DUMP_SLOT_SIZE_KIB, .TEL0_DUMP_QREC_MAX_COUNT, .TEL0_DUMP_HEAD_COUNT,
   .TEL0_DUMPS_WRITTEN_COUNT, .TEL0_DUMP_SEQ_SEQ, .TEL0_DUMP_DROPS_COUNT,
   .TEL0_QREC_DROPS_COUNT, .TEL0_TRUNCS_COUNT, .TEL0_ERR_MAP_MAP,
   .TEL0_FAILED_MAP_MAP, .TEL1_CORE_SEL_CORE, .TEL1_CORE_RETIRED_COUNT,
   .TEL1_CORE_WASTED_COUNT, .TEL1_CORE_FRONT_COUNT, .TEL1_CORE_BACK_COUNT,
   .TEL1_TEN_SEL_TENANT, .TEL1_TEN_SEL_CLASS, .TEL1_TEN_RETIRED_COUNT,
   .TEL1_TEN_WASTED_COUNT, .TEL1_TEN_BACK_COUNT, .TEL1_DEV_RETIRED_COUNT,
   .TEL1_DEV_WASTED_COUNT, .TEL1_DEV_FRONT_COUNT, .TEL1_DEV_BACK_COUNT,
   .TEL2_PORT_SEL_PORT, .TEL2_PORT_RD_BYTES, .TEL2_PORT_WR_BYTES,
   .TEL2_PORT_BG_BYTES, .TEL2_PORT_MAX_BYTES, .TEL2_PORT_CUR_RD_BYTES,
   .TEL2_PORT_CUR_WR_BYTES, .TEL2_WINDOW_SEQ_COUNT, .TEL2_WINDOW_TICK_TICK,
   .TEL3_TAG_LOG2N, .TEL3_TAG_SEED_SEED, .TEL3_TAG_BASE_IN_WINDOW,
   .TEL3_TAG_BASE_ADDR, .TEL3_TAG_SIZE_LOG2, .TEL3_TAG_TAIL_COUNT,
   .TEL3_TAG_HEAD_COUNT]
/-- Part 15 of the list of all fields. -/
def Reg.list15 : List Reg :=
  [.TEL3_TAGGED_COUNT, .TEL3_TAG_DROPS_COUNT]

/-- Every field, in the order of the constructors. -/
def Reg.all : List Reg :=
  Reg.list0 ++ Reg.list1 ++ Reg.list2 ++ Reg.list3 ++ Reg.list4 ++ Reg.list5 ++ Reg.list6 ++ Reg.list7 ++ Reg.list8 ++ Reg.list9 ++ Reg.list10 ++ Reg.list11 ++ Reg.list12 ++ Reg.list13 ++ Reg.list14 ++ Reg.list15

/-- Where a field's copies are kept: field number times 2^32 plus the number of the page, array element or banked copy.
A field has at most one of the three. -/
def Reg.key (r : Reg) (idx : Nat) : Nat := r.ctorIdx * 4294967296 + idx

/-- The reset value of copy `idx` of a field. BUDGET takes the five values of R157 and SHARE those of R143; the wear
level starts at the wear depth (R156, R157). A field whose reset the spec gives as "—" reads 0 (log entry 3). -/
def Reg.resetOf (r : Reg) (idx : Nat) : Nat :=
  match r with
  | .STM_BUDGET_GBPS => ([6000, 160, 45, 256, 256] : List Nat).getD idx 0
  | .STM_SHARE_GUAR => ([40, 30, 10, 10, 70, 0, 0, 20, 0, 70, 30, 0, 70, 0, 0, 20, 0, 60, 20, 20] : List Nat).getD idx 0
  | .STM_SHARE_CEIL => ([100, 100, 50, 50, 100, 0, 0, 50, 0, 100, 60, 0, 100, 0, 0, 50, 0, 100, 60, 50] : List Nat).getD idx 0
  | _ => r.desc.reset

end Sys2Proof.Machine
end

