-- ==== Sys2Proof/Machine/Bits.lean ====
section
/-!
DEFINITION. Bit fields, byte order and check codes (R8): the plain arithmetic every other file of the machine uses.
-/
namespace Sys2Proof.Machine

/-- Bits [lo + w - 1 : lo] of `n` (R8). -/
def bitsOf (n lo w : Nat) : Nat := (n / 2 ^ lo) % 2 ^ w

/-- `n` with bits [lo + w - 1 : lo] replaced by the low `w` bits of `v`. -/
def putBits (n lo w v : Nat) : Nat := n % 2 ^ lo + (v % 2 ^ w) * 2 ^ lo + n / 2 ^ (lo + w) * 2 ^ (lo + w)

/-- Bit `i` of `n`. -/
def bitAt (n i : Nat) : Bool := (n / 2 ^ i) % 2 == 1

/-- 1 for true. -/
def b2n (b : Bool) : Nat := if b then 1 else 0

/-- The little-endian number that a list of bytes spells (R8). -/
def leNat : List Byte → Nat
  | [] => 0
  | b :: bs => b.toNat + 256 * leNat bs

/-- The `w` bytes of `n`, least significant first (R8). -/
def leBytes (n : Nat) : Nat → List Byte
  | 0 => []
  | w + 1 => BitVec.ofNat 8 n :: leBytes (n / 256) w

/-- `len` bytes of `bs` from byte `off`. -/
def slice (bs : List Byte) (off len : Nat) : List Byte := (bs.drop off).take len

/-- The little-endian field of `len` bytes at byte `off` of a structure (R8). -/
def leAt (bs : List Byte) (off len : Nat) : Nat := leNat (slice bs off len)

/-- `n / d` rounded up. -/
def ceilDiv (n d : Nat) : Nat := (n + d - 1) / d

/-- `n` rounded up to a multiple of `d`. -/
def roundUp (n d : Nat) : Nat := ceilDiv n d * d

/-- `n + k`, held at the greatest value of `w` bits: a saturating counter. -/
def satAdd (w n k : Nat) : Nat := min (n + k) (2 ^ w - 1)

/-- True where every byte is 0. -/
def allZero (bs : List Byte) : Bool := bs.all (· == 0)

/-- One bit of a CRC register of `w` bits, most significant bit first. -/
def crcBit (w poly reg : Nat) (b : Bool) : Nat :=
  let top := bitAt reg (w - 1)
  let sh := (reg * 2) % 2 ^ w
  if top == b then sh else Nat.xor sh poly

/-- A CRC of `w` bits over the low `n` bits of `v`, most significant bit first. -/
def crcBits (w poly : Nat) (v : Nat) : Nat → Nat → Nat
  | 0, reg => reg
  | n + 1, reg => crcBits w poly v n (crcBit w poly reg (bitAt v n))


/-- Split a list into chunks of `k`. -/
def chunks {α : Type} (k : Nat) : Nat → List α → List (List α)
  | 0, _ => []
  | _, [] => []
  | fuel + 1, l => l.take k :: chunks k fuel (l.drop k)

end Sys2Proof.Machine
end

