-- ==== Sys2Proof/Machine/Map.lean ====
section
/-!
DEFINITION. Sparse tables and byte memories as plain data in one canonical form: keys strictly rising, and in a memory
no entry equal to what an unlisted address reads as (0: log entry 2).
-/
namespace Sys2Proof.Machine

/-- A sparse table: what a key that is not listed holds is the table owner's default. -/
structure Map (α : Type) where
  entries : List (Nat × α)
  deriving DecidableEq, Repr

/-- The entry of key `k` in a list of pairs. -/
def lookupIn {α : Type} (k : Nat) : List (Nat × α) → Option α
  | [] => none
  | (a, x) :: l => if a = k then some x else lookupIn k l

/-- Write key `k`, keeping the keys rising. -/
def insertIn {α : Type} (k : Nat) (v : α) : List (Nat × α) → List (Nat × α)
  | [] => [(k, v)]
  | (a, x) :: l =>
    if a < k then (a, x) :: insertIn k v l
    else if a = k then (k, v) :: l
    else (k, v) :: (a, x) :: l

/-- Remove key `k`. -/
def eraseIn {α : Type} (k : Nat) : List (Nat × α) → List (Nat × α)
  | [] => []
  | (a, x) :: l => if a = k then eraseIn k l else (a, x) :: eraseIn k l

/-- Keys strictly rising. -/
def rising {α : Type} : List (Nat × α) → Bool
  | [] => true
  | [_] => true
  | (a, _) :: (b, y) :: l => decide (a < b) && rising ((b, y) :: l)

/-- The empty table. -/
def Map.empty {α : Type} : Map α := ⟨[]⟩

/-- The entry of key `k`, if listed. -/
def Map.get? {α : Type} (m : Map α) (k : Nat) : Option α := lookupIn k m.entries

/-- The entry of key `k`, or the default. -/
def Map.getD {α : Type} (m : Map α) (k : Nat) (d : α) : α := (m.get? k).getD d

/-- Write key `k`. -/
def Map.set {α : Type} (m : Map α) (k : Nat) (v : α) : Map α := ⟨insertIn k v m.entries⟩

/-- Remove key `k`. -/
def Map.erase {α : Type} (m : Map α) (k : Nat) : Map α := ⟨eraseIn k m.entries⟩

/-- Whether key `k` is listed. -/
def Map.has {α : Type} (m : Map α) (k : Nat) : Bool := (m.get? k).isSome

/-- Change key `k` where it is listed. -/
def Map.modify {α : Type} (m : Map α) (k : Nat) (f : α → α) : Map α :=
  match m.get? k with
  | some v => m.set k (f v)
  | none => m

/-- The keys, rising. -/
def Map.keys {α : Type} (m : Map α) : List Nat := m.entries.map (·.1)

/-- The values, in rising order of key. -/
def Map.values {α : Type} (m : Map α) : List α := m.entries.map (·.2)

/-- The number of entries. -/
def Map.size {α : Type} (m : Map α) : Nat := m.entries.length

/-- Keep the entries that satisfy `p`. -/
def Map.filter {α : Type} (m : Map α) (p : Nat → α → Bool) : Map α := ⟨m.entries.filter (fun e => p e.1 e.2)⟩

/-- The first entry, in rising order of key, that satisfies `p`. -/
def Map.find? {α : Type} (m : Map α) (p : Nat → α → Bool) : Option (Nat × α) := m.entries.find? (fun e => p e.1 e.2)

/-- Change every value. -/
def Map.map {α : Type} (m : Map α) (f : Nat → α → α) : Map α := ⟨m.entries.map (fun e => (e.1, f e.1 e.2))⟩

/-- The table of another type with the same keys. -/
def Map.map' {α β : Type} (m : Map α) (f : α → β) : Map β := ⟨m.entries.map (fun e => (e.1, f e.2))⟩

/-- The canonical form of a table. -/
def Map.wf {α : Type} (m : Map α) : Bool := rising m.entries

/-- The smallest number at or above `lo` that is no key, tried `fuel` times. -/
def Map.freeFrom {α : Type} (m : Map α) (lo : Nat) : Nat → Option Nat
  | 0 => none
  | fuel + 1 => if m.has lo then Map.freeFrom m (lo + 1) fuel else some lo

/-- A byte memory: addresses rising, no byte equal to 0 listed, an unlisted address reads 0 (log entry 2). -/
structure Memory where
  cells : List Host.Cell
  deriving DecidableEq, Repr

/-- The memory with nothing listed. -/
def Memory.empty : Memory := ⟨[]⟩

/-- What an address that is not listed reads as (log entry 2). -/
def Memory.unlisted : Byte := 0

/-- One byte. -/
def Memory.read (m : Memory) (a : Nat) : Byte := (lookupIn a m.cells).getD Memory.unlisted

/-- Store one byte, keeping the canonical form. -/
def Memory.write (m : Memory) (a : Nat) (b : Byte) : Memory :=
  if b = Memory.unlisted then ⟨eraseIn a m.cells⟩ else ⟨insertIn a b m.cells⟩

/-- `n` bytes from address `a`. -/
def Memory.readN (m : Memory) (a : Nat) : Nat → List Byte
  | 0 => []
  | n + 1 => m.read a :: Memory.readN m (a + 1) n

/-- Store bytes in rising address order from `a`. -/
def Memory.writeN (m : Memory) (a : Nat) : List Byte → Memory
  | [] => m
  | b :: bs => Memory.writeN (m.write a b) (a + 1) bs

/-- No listed byte equals what an unlisted address reads as. -/
def Memory.noDefault (m : Memory) : Bool := m.cells.all (fun c => c.2 != Memory.unlisted)

/-- The canonical form of a memory. -/
def Memory.wf (m : Memory) : Bool := rising m.cells && m.noDefault

end Sys2Proof.Machine
end

