-- ==== Sys2Proof/Machine/State.lean ====
section
/-!
DEFINITION. The state of the WG480: every register, ring, queue, table, buffer and unit the spec gives it, as plain data,
and the state after power-on reset. Register fields that are not named here are in the table of fields of
Machine/Regs.lean; their values stand in `State.regs`, and a field that is not listed there has its reset value.
-/
namespace Sys2Proof.Machine

/-! ## Register pages (R28) and command rings (R37) -/

/-- An entry of the MSI-X table, but for its mask bit: Message Address and Message Data, as PCIe 6.x defines them (R25). -/
structure MsixEntry where
  address : DWord := 0
  data : Word := 0
  deriving DecidableEq, Repr

/-- The registers that every block page begins with (R28). SOFT_RST, COMMIT and INT_SET read 0 and hold nothing. -/
structure Common where
  /-- CTRL.EN and CTRL.HOLD. -/
  en : Bool := false
  hold : Bool := false
  /-- STATUS bits BUSY, ERR, LOCK_ERR, SHADOW_PEND and the STATE field. -/
  busy : Bool := false
  err : Bool := false
  lockErr : Bool := false
  shadowPend : Bool := false
  /-- A COMMIT waits for the next safe point (R32). -/
  commitPend : Bool := false
  state : Nat := 0
  /-- INT_STATUS and INT_ENABLE. -/
  int : Word := 0
  intEn : Word := 0
  /-- ERR_CODE.CODE. -/
  code : Nat := 0
  /-- PROGRESS. -/
  position : Nat := 0
  percent : Nat := 0
  valid : Bool := false
  deriving DecidableEq, Repr

/-- STATUS.STATE of a command-ring page (R37). -/
inductive RingState
  | disabled | enabled | draining | halted
  deriving DecidableEq, Repr

/-- What the write of a completion changed besides its slot, kept until it is known to have succeeded (R43, R54). -/
structure CqUndo where
  old : List Byte := []
  int : Word := 0
  unsignalled : Nat := 0
  since : Nat := 0
  due : Bool := false
  message : Bool := false
  deriving DecidableEq, Repr

/-- The registers and internal counts of one command-ring page (R37, R43 to R47, R54). -/
structure Ring where
  en : Bool := false
  state : RingState := .disabled
  err : Bool := false
  lockErr : Bool := false
  int : Word := 0
  intEn : Word := 0
  code : Nat := 0
  /-- BINDING and WINDOW. -/
  tenant : Nat := 0
  admin : Bool := false
  bound : Bool := false
  winBase : Nat := 0
  winUnits : Nat := 0
  /-- SQ_BASE and CQ_BASE: the IN_WINDOW bit, and the address with bits [11:0] zero. -/
  sqInWindow : Bool := false
  sqBase : Nat := 0
  cqInWindow : Bool := false
  cqBase : Nat := 0
  /-- SIZES, MSIX and COALESCE. -/
  sqLog2 : Nat := 0
  cqLog2 : Nat := 0
  vector : Nat := 0
  coalCount : Nat := 1
  coalTime : Nat := 0
  /-- SQ_DOORBELL.TAIL, CQ_DOORBELL.HEAD, SQ_HEAD and CQ_TAIL: free-running counts. -/
  sqTail : Word := 0
  cqHead : Word := 0
  sqHead : Word := 0
  cqTail : Word := 0
  outstanding : Nat := 0
  dropped : Nat := 0
  /-- Quadwords 0 to 6 of PUSH written since the last push (R46). -/
  stage : Map Nat := ⟨[]⟩
  /-- A pushed descriptor not yet fetched: its count number and its 64 bytes. -/
  pushed : Option (Nat × List Byte) := none
  /-- Completions written since the last signal, and the tick of the first of them (R54). -/
  unsignalled : Nat := 0
  unsignalledSince : Nat := 0
  /-- DRAINING after CTRL.SOFT_RST: completions are discarded and counted in DROPPED (R43). -/
  discard : Bool := false
  /-- DRAINING after TENANT_CLOSE: the ring is unbound when it goes DISABLED (R43). -/
  unbindAtDrain : Bool := false
  /-- The CXL.io function through which the ring page is reached (R39). -/
  function : Nat := 0
  /-- The completion written last: what its slot held before, and the signal state before it with whether its signal sent a
  message (R43). -/
  lastCq : Option CqUndo := none
  deriving DecidableEq, Repr

/-- A descriptor (R49). CLASS_OPT is `opts`; `spec` is the 28 bytes [63:36]. -/
structure Desc where
  opcode : Nat := 0
  flags : Nat := 0
  tag : Nat := 0
  opts : Nat := 0
  handle : Nat := 0
  deadline : Nat := 0
  payAddr : Nat := 0
  payLen : Nat := 0
  spec : List Byte := []
  deriving DecidableEq, Repr

/-- Where a command stands: waiting while ADM_CTRL.EN is 0 (R283), in its admission queue (R271), dequeued and about to
take effect, waiting under R76, R90 or R95 for its session, or running in an engine. -/
inductive CmdPhase
  | unadmitted | queued | started | waiting | running
  deriving DecidableEq, Repr

/-- A command that passed validation and has no final completion yet (R37, R47, R59). Its key in the table of commands
is its acceptance number. -/
structure Cmd where
  ring : Nat
  /-- Count number of its descriptor in its ring. -/
  seq : Nat := 0
  desc : Desc
  tenant : Nat := 0
  admin : Bool := false
  acceptTick : Nat := 0
  phase : CmdPhase := .queued
  /-- Length L (R272), colour (R273) and finish tag (R275). -/
  len : Nat := 0
  colour : Nat := 0
  finish : Nat := 0
  /-- Slot of the session that its handle resolved to (R75). -/
  slot : Option Nat := none
  /-- Tick at which it was dequeued or took effect, and tick of the last progress an engine made on it (R64). -/
  startTick : Nat := 0
  progressTick : Nat := 0
  /-- The wait it is in does not count toward the watchdog (R64). -/
  exempt : Bool := false
  /-- Bytes written and tiles referenced for it by the state mover (R151). -/
  moved : Nat := 0
  referenced : Nat := 0
  /-- Page records written for it. -/
  pages : List Nat := []
  /-- What its engine keeps for it besides: a record number of that engine. -/
  aux : Nat := 0
  deriving DecidableEq, Repr

/-! ## Admission (R271 to R283) -/

/-- One queue of the admission shaper. -/
structure AdmQueue where
  /-- Acceptance numbers, oldest first. -/
  cmds : List Nat := []
  /-- Finish tag of the command last accepted (R275). -/
  lastFinish : Nat := 0
  /-- Committed and peak bucket in units of 1/65,536 byte, the tick to which they are filled, and what the fill left
  over (R273). -/
  tc : Nat := 0
  tp : Nat := 0
  filledAt : Nat := 0
  remC : Nat := 0
  remP : Nat := 0
  /-- Sojourn figures of the window now running, and whether the queue was non-empty in it (R278). -/
  curMax : Nat := 0
  curSum : Nat := 0
  curCount : Nat := 0
  active : Bool := false
  deriving DecidableEq, Repr

/-- The admission shaper. -/
structure Adm where
  /-- Tenant queues by tenant × 8 + class. -/
  queues : Map AdmQueue := ⟨[]⟩
  /-- The queue of administrative commands. -/
  adminQ : List Nat := []
  /-- Commands that wait while ADM_CTRL.EN is 0, in acceptance order (R283). -/
  held : List Nat := []
  vtUrgent : Nat := 0
  vtNormal : Nat := 0
  /-- End tick of the sample window now running (R278). -/
  windowEnd : Nat := 1000000
  deriving DecidableEq, Repr
/-! ## Sessions: the directory entry (R72), the page table (R112) and the step record (R114, R312) -/

/-- Residency codes (R73), in the order of their numbers. -/
inductive Residency
  | free | hot | warm | parked | pooled | away | moving
  deriving DecidableEq, Repr

/-- Run-state codes (R73), in the order of their numbers. -/
inductive RunState
  | none | idle | runnable | running | toolWait | deadEnd | lost | closed
  deriving DecidableEq, Repr

/-- A page record (R110) with the page's content (R103, R108). -/
structure PageRec where
  uid : Nat := 0
  refs : Nat := 0
  pins : Nat := 0
  isSealed : Bool := false
  sumUnbounded : Bool := false
  inHbm : Bool := false
  onFlash : Bool := false
  inPool : Bool := false
  tilesM1 : Nat := 0
  hbmKv : Nat := 0
  hbmMeta : Nat := 0
  flash : Nat := 0
  pool : Nat := 0
  caneNode : Option Nat := none
  /-- The slots that hold positions, slot 0 first. -/
  slots : List Slot := []
  /-- Model whose layout the page has, and the tenant whose key protects it (R118, R444). -/
  model : Nat := 0
  tenant : Nat := 0
  /-- Raw bytes of the page's metadata tile before rounding (R108). -/
  metaLen : Nat := 0
  /-- Bytes the flash copy occupies (R118, R119). -/
  flashBytes : Nat := 0
  /-- HBM-user count of R137. -/
  users : Nat := 0
  /-- Readers of a copy by the checkpoint engine (R138, R418). -/
  ckptReads : Nat := 0
  /-- The release of its pool copy is due, and was held back by a pin or a read (R138). -/
  poolDue : Bool := false
  /-- An uncorrectable error was found in the record (R188). -/
  bad : Bool := false
  deriving DecidableEq, Repr

/-- One pending input position (R297): a vocabulary token, or a vector of binary32 elements (R327). `sampled` marks a
token sampled for the session's current STEP (R250). -/
structure InPos where
  token : Option Nat
  vec : List Word := []
  sampled : Bool := false
  deriving DecidableEq, Repr

/-- An outstanding STEP (R257, R260, R263). -/
structure StepReq where
  cmd : Nat
  maxNew : Nat
  partialEvery : Nat
  textOff : Nat
  outText : Bool
  dropOnMiss : Bool
  tokens : Nat := 0
  textBytes : Nat := 0
  sincePartial : Nat := 0
  /-- Run state and DEADLINE of the session before the STEP took effect, which it keeps where its promotion is given up
  (R141). -/
  before : RunState := .idle
  deadline : Nat := 0
  deriving DecidableEq, Repr

/-- An outstanding tool wait (R80, R90 to R93). -/
structure WaitInfo where
  cmd : Nat
  start : Nat
  wait : Nat
  /-- SDIR_OVERSTAY.US in effect when the TOOL_WAIT took effect. -/
  overstayUs : Nat
  tierLimit : Nat
  overstayed : Bool := false
  deriving DecidableEq, Repr

/-- The reheat calendar entry of a session (R152). -/
structure Reheat where
  resumeTick : Nat
  f1 : Option Nat
  f2 : Option Nat
  leadPw : Nat
  leadLw : Nat
  leadWh : Nat
  deriving DecidableEq, Repr

/-- A compaction that waits for space or page records (R183): its start, and the command it delays, if any. -/
structure CompactWait where
  since : Nat
  cmd : Option Nat
  deriving DecidableEq, Repr

/-- The operations on a lease word (R395): the offeree of a create, offer or withdrawal, and the source of an accept. -/
inductive LeaseOp
  | create (target : Nat)
  | offer (target : Nat)
  | accept (source : Nat)
  | withdraw (target : Nat)
  | reclaim (word : Nat)
  | markLost
  | release
  deriving DecidableEq, Repr

/-- A CAS on a lease word: the slot and epoch of the session it is made for, and the words it expects and writes. -/
structure CasOp where
  slot : Nat
  op : LeaseOp
  expect : Nat
  word : Nat
  deriving DecidableEq, Repr

/-- One session: its directory entry, its state, and what the engines keep for it. -/
structure Session where
  tenant : Nat
  generation : Nat
  residency : Residency := .warm
  runState : RunState := .idle
  moveSrc : Residency := .free
  moveDst : Residency := .free
  nr : Bool := false
  inputPend : Bool := false
  genReq : Bool := false
  waitHeld : Bool := false
  cancel : Bool := false
  leased : Bool := false
  cls : Nat := 0
  leaseEpoch : Nat := 0
  home : Nat := 0
  owner : Nat := 0
  ptRoot : Nat := 0
  srAddr : Nat := 0
  srCur : Nat := 0
  srNver : Nat := 1
  deadline : Nat := 0
  resumeTick : Nat := 0
  caneNode : Option Nat := none
  positions : Nat := 0
  steps : Nat := 0
  revives : Nat := 0
  misses : Nat := 0
  /-- Page table, entry 0 first; PAGES is its length. -/
  table : List PtEntry := []
  /-- Versions of the step record, version 0 first (R116), and the readers of each (R149). -/
  vers : List StepRec := [{}]
  readers : List Nat := [0, 0]
  /-- Provisional version of a writeback: index and STEP_SEQ (R147, R148). -/
  provisional : Option (Nat × Nat) := none
  /-- Tier and stored bytes of the provisional version. -/
  provTier : Residency := .free
  provBytes : Nat := 0
  input : List InPos := []
  stepReq : Option StepReq := none
  /-- A STEP whose end condition is met (GEN_REQ is 0 again) and whose completion is written at the commit that runs its
  last token, with the DETAIL [7:0] of the end (R263). -/
  ended : Option (StepReq × Nat) := none
  wait : Option WaitInfo := none
  reheat : Option Reheat := none
  /-- HOT seat: cluster and first 64 KiB unit (R146, R193). -/
  seat : Option (Nat × Nat) := none
  compact : Option CompactWait := none
  /-- A STEP with a compaction point that took effect while a step held the session: the compaction runs at that step's end
  (R76, R182). -/
  compactDue : Option Nat := none
  /-- Ticks of the last accepted command, the last step that held it, and of its last becoming RUNNABLE. -/
  lastCmd : Nat := 0
  lastStep : Nat := 0
  runnableAt : Nat := 0
  /-- Tick of the first failed tail allotment since the last success (R255). -/
  allotFail : Option Nat := none
  /-- Held back for want of a completion slot (R48). -/
  heldBack : Bool := false
  /-- Tick at which its commit began to wait for a version (R149). -/
  verWait : Option Nat := none
  /-- A tile or record of its state failed (R120, R188, R190): commands that need the state complete with INTERNAL. -/
  bad : Bool := false
  /-- SESS_CLOSE that takes effect at the end of the step (R76, R80). -/
  closing : Option Nat := none
  /-- Records of a CLOSED session that page reclamation has still to free (R80). -/
  leftover : List Nat := []
  /-- Bytes that its step record and page table occupy on flash or in the pool. -/
  recStored : Nat := 0
  /-- Positions adopted since the last commit (R172, R179). -/
  adopted : Nat := 0
  /-- Lease pointer table entry (R395): address of the lease word and tick at which the last validation read was issued; a
  validation that no update has used yet; a commit waits for a validation (R396); issue tick of a read with no answer yet. -/
  leaseAddr : Nat := 0
  leaseTick : Option Nat := none
  leaseIssued : Option Nat := none
  leaseFresh : Bool := false
  leaseWait : Bool := false
  /-- A promotion of the session waits for space since the tick given (R141). -/
  promoteWait : Option Nat := none
  deriving DecidableEq, Repr

/-- One way of a set of the directory cache (R77, R78). -/
structure Way where
  tag : Nat
  dirty : Bool := false
  locked : Bool := false
  deriving DecidableEq, Repr

/-- The session directory (R67 to R98). -/
structure Sdir where
  /-- Allocated slots. -/
  sess : Map Session := ⟨[]⟩
  /-- Stored generation of each slot that was ever allocated (R69). -/
  gens : Map Nat := ⟨[]⟩
  /-- Freed slots, oldest first, and the lowest slot never used (R71). -/
  freed : List Nat := []
  neverUsed : Nat := 0
  /-- Retired slots (R70), and slots with an uncorrectable entry error (R79). -/
  retired : List Nat := []
  badSlots : List Nat := []
  /-- Cache sets, most recently used way first; entries waiting to be written back; sets disabled for tag parity;
  slots whose miss has not been filled (R77, R98). -/
  cache : Map (List Way) := ⟨[]⟩
  writeBuf : List Nat := []
  disabledSets : List Nat := []
  missing : List Nat := []
  /-- INIT is running (R97). -/
  init : Bool := false
  deriving DecidableEq, Repr
/-! ## Pages, the prefix index and the state mover -/

/-- A node of the prefix index with its token entry and USERS count (R169). -/
structure Node where
  hash : Nat
  parent : Option Nat
  depth : Nat
  tenant : Nat
  model : Nat
  topP : Nat
  exitProfile : Nat
  /-- Page record, or none for a hollow node. -/
  page : Option Nat
  /-- Next node of the bucket chain. -/
  next : Option Nat
  children : Nat := 0
  users : Nat := 0
  tokens : List Nat := []
  /-- An uncorrectable error was found: treated as hollow and never matched (R188). -/
  bad : Bool := false
  deriving DecidableEq, Repr

/-- The prefix index and page reclamation. -/
structure Cane where
  nodes : Map Node := ⟨[]⟩
  /-- First node of each bucket that has one. -/
  buckets : Map Nat := ⟨[]⟩
  /-- Page records in use (R110), by record number. -/
  recs : Map PageRec := ⟨[]⟩
  /-- Records handed to page reclamation, oldest first (R163, R165). -/
  reclaim : List Nat := []
  /-- The device's sealed-page count since power-on (R110). -/
  sealedCount : Nat := 0
  deriving DecidableEq, Repr

/-- Classes of the state mover's work (R133), in the order of their codes. -/
inductive MoveClass
  | promote | demote | writeback | capsule
  deriving DecidableEq, Repr

/-- Kinds of state tile (R101). -/
inductive TileKind
  | kv | metadata | stepRecord | pageTable
  deriving DecidableEq, Repr

/-- One state tile that a move has still to write: its kind, page record (0 for none), index and raw length. -/
structure MTile where
  kind : TileKind
  page : Nat
  index : Nat
  raw : Nat
  deriving DecidableEq, Repr

/-- A move or writeback of the state mover (R134), or the state transfer of a capsule. -/
structure Move where
  slot : Nat
  cls : MoveClass
  src : Residency
  dst : Residency
  need : Nat
  /-- Move context, once it has one. -/
  ctx : Option Nat := none
  /-- Tiles still to be moved, and pages whose tiles were all moved. -/
  tiles : List MTile := []
  done : List Nat := []
  /-- Stored bytes of step-record and page-table tiles written, and bytes reserved at the destination. -/
  recBytes : Nat := 0
  reserved : Nat := 0
  /-- Bytes of the header array at the start of the extent in a pool (R118). -/
  head : Nat := 0
  /-- The command that the move serves, and whether reheat alone started it. -/
  cmd : Option Nat := none
  reheat : Bool := false
  /-- A promotion that goes on to HOT once WARM (R135, R153). -/
  thenHot : Bool := false
  /-- A writeback that changes no residency (R147), and the version and STEP_SEQ it copies. -/
  writebackOnly : Bool := false
  version : Option (Nat × Nat) := none
  /-- Seat reserved for a promotion to HOT (R146). -/
  seat : Option (Nat × Nat) := none
  /-- Capsule job that the transfer belongs to. -/
  job : Option Nat := none
  /-- The page whose tiles it is reading, on which it holds a step pin (R162). -/
  pinned : Option Nat := none
  deriving DecidableEq, Repr

/-- Credits of one port and window (R143): offered and taken bytes, and per class the carried guarantee and the bytes
used. -/
structure Credit where
  avail : Nat := 0
  total : Nat := 0
  used : List Nat := [0, 0, 0, 0]
  carry : List Nat := [0, 0, 0, 0]
  deriving DecidableEq, Repr

/-- The state mover (R133 to R159). -/
structure Stm where
  /-- Moves requested and not yet ended, by request number. -/
  moves : Map Move := ⟨[]⟩
  nextMove : Nat := 0
  credits : List Credit := [{}, {}, {}, {}, {}]
  windowEnd : Nat := 10000
  /-- Bytes of the HBM heap held per owner, in 4 KiB pieces, by owner (tenant id, or 4,096 for the device). -/
  heap : Map Nat := ⟨[]⟩
  /-- 64 KiB units that a closing tenant's objects have released and that stay tagged to it (R459). -/
  finePend : Map Nat := ⟨[]⟩
  flashUsed : Nat := 0
  poolUsed : Nat := 0
  /-- The generation table (R447): generations that are not 0, by fabric address / 65,536. -/
  poolGen : Map Nat := ⟨[]⟩
  wearLevel : Int := 3650722201600
  wearAt : Nat := 0
  /-- Bytes in the pSLC zone of the flash tier, and the tick to which they are folded away (R155). -/
  pslc : Nat := 0
  pslcAt : Nat := 0
  /-- Pressure demotion is running (R139). -/
  pressure : Bool := false
  deriving DecidableEq, Repr
/-- What a capsule transfer is for (R129, R131, R398, R399, R401). -/
inductive JobKind
  | exportTo | importFrom | migrateOut | migrateIn | reclaim
  deriving DecidableEq, Repr

/-- A capsule that is being written or read. -/
structure CapsuleJob where
  kind : JobKind
  cmd : Nat
  slot : Nat
  /-- Pages pinned by an export, and the content it read or an import is given. -/
  pins : List Nat := []
  content : Capsule
  compress : Bool := false
  /-- Number of its move, and the tiles left when the three first reads of an export have finished (R129). -/
  move : Nat
  first : Nat := 0
  /-- Place and header of the capsule: space (0 host, 1 window, 2 fabric), address, header bytes. -/
  space : Nat
  addr : Nat
  header : List Byte := []
  /-- Page-table entries of a capsule that returns into an AWAY slot (R399, R401). -/
  entries : List PtEntry := []
  /-- The word that a RECLAIM or MIGRATE_IN found. -/
  word : Nat := 0
  /-- The capsule key (R448). -/
  key : List Byte := []
  /-- A tile failed as it was read. -/
  failed : Bool := false
  deriving DecidableEq, Repr

/-! ## Models, vocabularies, constraint objects and the cores -/

/-- A loaded model, or one whose load runs (R212, R218, R219). -/
structure Model where
  loaded : Bool := false
  /-- The MODEL_LOAD or MODEL_UNLOAD that works on it. -/
  cmd : Option Nat := none
  resident : Bool := false
  isPrivate : Bool := false
  tenant : Nat := 0
  fp : Nat := 0
  layout : Layout := {}
  weightBytes : Nat := 0
  /-- Place and bytes of its allotment in the model region. -/
  base : Nat := 0
  bytes : Nat := 0
  /-- KEY_REF of its model key while it loads (R450). -/
  keyRef : Nat := 0
  /-- Keys of sections 1 to 4 while it loads (R450). -/
  keys : List (List Byte) := []
  /-- Layers that have an exit head (R216, R244). -/
  exitHeads : List Nat := []
  /-- What its package gives (R213): the tensor table, the layer program's parameters, and the WEIGHTS section. -/
  tensors : List Tensor := []
  program : List LayerProg := []
  weights : List Byte := []
  deriving DecidableEq, Repr

/-- A token of a vocabulary (R286). KIND 1 is a byte token, 2 a special token. -/
structure Token where
  bytes : List Byte
  kind : Nat
  emit : Bool
  deriving DecidableEq, Repr

/-- A vocabulary (R285 to R288). -/
structure Vocab where
  loaded : Bool := false
  tokens : List Token := []
  merges : List (Nat × Nat × Nat) := []
  maxLen : Nat := 1
  presplit : Bool := false
  eos : Nat := 0
  elide : Nat := 0
  byteMap : List Nat := []
  tokenBytes : Nat := 0
  digest : Nat := 0
  failed : Bool := false
  deriving DecidableEq, Repr

/-- An entry of a sequence set (R303). -/
structure SeqEntry where
  isForce : Bool
  seq : List Nat
  cont : List Nat
  deriving DecidableEq, Repr

/-- A state of a schema automaton: its ranges as (LO, HI, NEXT), and ACCEPT (R304). -/
structure SchemaState where
  ranges : List (Nat × Nat × Nat)
  accept : Bool
  deriving DecidableEq, Repr

/-- A point of an exit profile: layer and threshold (R244). -/
structure ExitPoint where
  layer : Nat
  threshold : Word
  deriving DecidableEq, Repr

/-- The body of a constraint object (R302 to R305, R244). -/
inductive CBody
  | sequences (entries : List SeqEntry)
  | schema (states : List SchemaState)
  | escape (tokens : List Nat)
  | profile (points : List ExitPoint)
  deriving DecidableEq, Repr

/-- A loaded constraint object. -/
structure CObject where
  model : Nat
  body : CBody
  bytes : Nat
  failed : Bool := false
  deriving DecidableEq, Repr

/-- A core (R191, R192, R223): the tile in progress, its clock, and whether its SRAM failed. -/
structure Core where
  tileKind : Nat := 0
  tileModel : Nat := 0
  tileUrgent : Bool := false
  /-- Runs from the PLL, and a pending switch: some true to the PLL, some false to the start oscillator (R479). -/
  onPll : Bool := false
  swTo : Option Bool := none
  /-- The next tile, which waits for a half of the weight window (R221), and the words that the last tile put out. -/
  waits : Option NextTile := none
  out : List Nat := []
  /-- Model whose resident slice its SRAM holds (R222); 0 for none. -/
  slice : Nat := 0
  /-- The tile in progress is tagged (R518). -/
  tagged : Bool := false
  deriving DecidableEq, Repr

/-- A half of a cluster's weight window that is filled (R221): the slab it holds, its bytes, and the model they are of. -/
structure WinHalf where
  slab : Nat
  bytes : Nat
  model : Nat
  deriving DecidableEq, Repr

/-- One step of the step scheduler (R249, R253): its model, and per session slot, decode row or number of prefill
positions, copy-on-write page, and adopted pages. -/
structure StepRow where
  slot : Nat
  decode : Bool
  count : Nat
  /-- The rows run the last position that was pending at composition. -/
  last : Bool := false
  /-- GEN_REQ was 1 then, so that the last row samples. -/
  sampling : Bool := false
  /-- Page record that takes the tail's place, when the tail is copied (R164). -/
  cow : Option Nat := none
  /-- Tail records allotted for the step, in order (R106). -/
  allotted : List Nat := []
  deriving DecidableEq, Repr

structure StepRun where
  model : Nat
  rows : List StepRow
  pins : List Nat
  start : Nat
  /-- Rows of the step in all, and decode rows among them. -/
  total : Nat := 0
  decodes : Nat := 0
  tenants : List Nat := []
  preempted : Bool := false
  deriving DecidableEq, Repr

/-- The step scheduler (R249 to R270). -/
structure Gaf where
  running : Option StepRun := none
  composed : Option StepRun := none
  /-- Tick of the first candidate while the gather delay runs (R256). -/
  gather : Option Nat := none
  /-- Urgent cycles of the window now running, its end, and whether the share was reached in it (R270). -/
  urgentCycles : Nat := 0
  urgentEnd : Nat := 0
  urgentCapped : Bool := false
  /-- Urgent jobs whose tiles ran and that are counted (R280). -/
  urgentJobs : List Nat := []
  deriving DecidableEq, Repr
/-! ## Tenants and keys (R434 to R471) -/

/-- Tenant states (R455), in the order of SEC2_TEN_STATE.STATE. -/
inductive TenantState
  | closed | opened | closing | fining
  deriving DecidableEq, Repr

/-- One tenant id: its state, LOCAL_ONLY, and the KEY_REFs of its transport keys, current one first (R455 to R458). -/
structure Tenant where
  state : TenantState := .closed
  localOnly : Bool := false
  ttks : List Nat := []
  /-- The transport keys themselves, in the same order (R443). -/
  ttkKeys : List (List Byte) := []
  /-- The tenant's HBM, flash and pool keys exist, and the random bytes that they are (R443). -/
  keys : Bool := false
  drawn : List Byte := []
  deriving DecidableEq, Repr

/-- A key that the island holds staged or as a set key: KIND (1 TRANSPORT, 2 CKPT, 3 MODEL, 4 SET), KEY_REF, and OWNER, the
tenant or the set member index, and the key (R439, R440). -/
structure StagedKey where
  kind : Nat
  ref : Nat
  owner : Nat := 0
  key : List Byte := []
  deriving DecidableEq, Repr

/-- A selective IDE stream (R452, R470); its configuration is in the registers of SEC3. `partner` is the SPDM session over
which its keys were derived. -/
structure IdeStream where
  active : Bool := false
  failed : Bool := false
  keySet : Bool := false
  gen : Nat := 0
  partner : Nat := 0
  /-- The export master secret of that session, and the keys of the generation in use. -/
  secret : List Byte := []
  keys : List (List Byte) := []
  deriving DecidableEq, Repr

/-- An open SPDM secure session (R436): whether it uses HBEAT, its period in ticks, and the tick of the last heartbeat. -/
structure SpdmSession where
  /-- FINISH has passed: the secure session is open. -/
  isOpen : Bool := false
  hbeat : Bool := false
  period : Nat := 0
  last : Nat := 0
  /-- Generation of its keys: KEY_UPDATE adds 1. -/
  keyGen : Nat := 0
  /-- Tick of its KEY_EXCHANGE, which sets its export master secret apart. -/
  opened : Nat := 0
  deriving DecidableEq, Repr

/-- The certificates of slot 0 (R434): what each is for, its public key, and its issuer's signature. -/
inductive CertKind
  | root | manufacturing | deviceId | aliasId
  deriving DecidableEq, Repr

structure Cert where
  kind : CertKind
  key : BitVec 768
  signature : BitVec 768
  deriving DecidableEq, Repr

/-- The device's identity: private keys of DeviceID and Alias, and the chain from the root to the Alias certificate. -/
structure Identity where
  device : BitVec 384
  aliasKey : BitVec 384
  chain : List Cert
  deriving DecidableEq, Repr

/-- The preparation of a tenant's closing (R459): the TENANT_CLOSE, the sessions it has closed, and whether its domains are
awake. -/
structure ClosePrep where
  cmd : Nat
  closed : Nat := 0
  /-- Tick at which its K_SET_STOPs and QUIET_NOTEs were sent and domains were woken, and those domains (R388, R463). -/
  noted : Option Nat := none
  woken : List Nat := []
  /-- SEC0_CFG.QUIET as the notes were sent. -/
  quiet : Bool := false
  deriving DecidableEq, Repr

/-- A fining pass (R460 to R463). -/
structure FinePass where
  tenant : Nat
  cmd : Nat
  closed : Nat
  start : Nat
  /-- SEC0_CFG.QUIET when the pass started. -/
  quiet : Bool
  /-- The keys are destroyed and phase 3 runs; the quiet window is closed; units visited per stack; the SRAM regions of R462
  are zeroed; domains woken for the pass. -/
  destroyed : Bool := false
  windowShut : Bool := false
  visited : Nat := 0
  zeroed : Bool := false
  woken : List Nat := []
  /-- Domain requests written during the pass, in order (R463). -/
  requests : List (Nat × Nat) := []
  deriving DecidableEq, Repr

/-- What the security island holds besides the tenants. -/
structure Sec where
  /-- Staged keys by entry (R439), set keys by slot (R451), revoked set KEY_REFs, and the KEY_REF of the bound CKK. -/
  staged : Map StagedKey := ⟨[]⟩
  setKeys : Map StagedKey := ⟨[]⟩
  revoked : List Nat := []
  ckk : Option Nat := none
  ckkKey : List Byte := []
  /-- What the last boot derived (R434); none before the first. -/
  identity : Option Identity := none
  spdm : Map SpdmSession := ⟨[]⟩
  streams : Map IdeStream := ⟨[]⟩
  prep : Map ClosePrep := ⟨[]⟩
  pass : Option FinePass := none
  /-- The device memory key exists (R443, R486). -/
  memKey : Bool := false
  deriving DecidableEq, Repr
/-! ## Embedding tables and agent memory (R317 to R369) -/

/-- A copy of a row in the replica area of a stack, with the ROW_SEQ of the primary value that it holds (R329). -/
structure RowCopy where
  seq : Nat
  bytes : List Byte
  deriving DecidableEq, Repr

/-- An entry of the hot-row table (R330): `mask` holds the copies other than a primary in a pool, `pend` the mask of a switch
that waits, `copies` what the copies other than the primary hold, by stack. -/
structure HotRow where
  table : Nat
  row : Nat
  mask : Nat := 0
  seq : Nat := 0
  inflight : Nat := 0
  count : Nat := 0
  pend : Option Nat := none
  copies : Map RowCopy := ⟨[]⟩
  deriving DecidableEq, Repr

/-- A merged change of a row (R335): the last stored row, if any, then the sum of the adds after it. `source` and `seq` are
the sender's device id and batch sequence. -/
structure Change where
  table : Nat
  row : Nat
  base : Option (List Word) := none
  delta : Option (List Word) := none
  source : Nat := 0
  seq : Nat := 0
  epoch : Nat := 0
  /-- The commands that wait for the change to be applied here, if it is this device's own. -/
  cmds : List Nat := []
  deriving DecidableEq, Repr

/-- An epoch window of a table in deterministic mode (R337): when it closes, whether it has closed, and its changes in arrival
order. -/
structure Epoch where
  table : Nat
  epoch : Nat
  closeTick : Nat
  closed : Bool := false
  changes : List Change := []
  deriving DecidableEq, Repr

/-- A batch of the embedding engine (R319, R320): its commands in dequeue order, the row values of its snapshot by key, the
keys that were tainted, that could not be read, and that a home has still to send. -/
structure EmbBatch where
  cmds : List Nat := []
  rows : Map (List Word) := ⟨[]⟩
  tainted : List Nat := []
  unread : List Nat := []
  waiting : List Nat := []
  /-- The batch's tiles have had the cores: it is urgent, or a time between steps has passed (R323). -/
  tiles : Bool := false
  deriving DecidableEq, Repr

/-- An EMB_REPLICATE that waits for its boundary (R333): its command and the entries it listed. -/
structure ReplJob where
  cmd : Nat
  entries : List Nat
  deriving DecidableEq, Repr

/-- The embedding engine. -/
structure Emb where
  /-- Commands that wait for a batch, in dequeue order. -/
  waiting : List Nat := []
  batch : Option EmbBatch := none
  /-- Batch sequence sent with changes (R335). -/
  seq : Nat := 0
  /-- Changes from other devices in arrival order (R336), and row requests as (source, SEQ, table, row). -/
  inbox : List Change := []
  requests : List (Nat × Nat × Nat × Nat) := []
  /-- Open and closed epoch windows in the order of their opening, and applied epochs as (table, epoch) (R337, R338). -/
  epochs : List Epoch := []
  applied : List (Nat × Nat) := []
  /-- Late changes that wait for the next boundary. -/
  late : List Change := []
  hot : Map HotRow := ⟨[]⟩
  /-- Lookup indices of the batches by key since the last boundary. -/
  counts : Map Nat := ⟨[]⟩
  /-- Taint bitmaps and unreadable primaries, by key TABLE × 2^32 + ROW. -/
  taint : List Nat := []
  badRows : List Nat := []
  /-- Updates whose changes a home has still to apply, once for each change: command, home, SEQ, ROW. -/
  sent : List (Nat × Nat × Nat × Nat) := []
  /-- Tables whose VALID was written 0, until the next boundary (R341), each with the number of the next command accepted. -/
  retiring : List (Nat × Nat) := []
  /-- Replica space of removed copies, freed at the next boundary (R330), as (stack, bytes). -/
  freeing : List (Nat × Nat) := []
  repl : Option ReplJob := none
  deriving DecidableEq, Repr

/-- A record of a group (R345). -/
structure SRecord where
  id : Nat
  payload : Nat
  seq : Nat
  code : Nat
  deriving DecidableEq, Repr

/-- A partition with its graph node (R346): 32 edge slots, and its groups of records, oldest first. -/
structure SNode where
  repItem : Nat
  repCode : Nat
  seq : Nat
  edges : List (Option (Nat × Nat))
  groups : List (List SRecord) := []
  deriving DecidableEq, Repr

/-- A collection (R343 to R347). -/
structure Coll where
  seq : Nat := 0
  half : Bool := false
  nodes : Map SNode := ⟨[]⟩
  failed : Bool := false
  compacting : Bool := false
  deriving DecidableEq, Repr

/-- An entry of the tombstone table (R349). -/
structure Tomb where
  coll : Nat
  id : Nat
  seqs : List Nat
  deriving DecidableEq, Repr

/-- A query of a search batch after its walk (R353): the command, the query's number in it, and the partitions it probes. -/
structure SQuery where
  cmd : Nat
  index : Nat
  coll : Nat
  code : Nat
  probes : List Nat
  deriving DecidableEq, Repr

/-- A batch of the search engine (R350): its commands in dequeue order, each collection's snapshot by number, its queries, and
whether the channels have finished. `results` holds the bytes of each command's results and its groups read. -/
structure SBatch where
  cmds : List Nat
  snaps : List (Nat × Nat)
  queries : List SQuery := []
  scanned : Bool := false
  results : List (Nat × Nat × List Byte) := []
  /-- The batch's walk tiles have had the cores: it is urgent, or a time between steps has passed (R351). -/
  tiles : Bool := false
  deriving DecidableEq, Repr

/-- A compaction of a collection (R364 to R366): its command and its snapshot. -/
structure SCompact where
  cmd : Nat
  coll : Nat
  snap : Nat
  deriving DecidableEq, Repr

/-- The search engine. -/
structure Srch where
  colls : Map Coll := ⟨[]⟩
  tombs : List Tomb := []
  waiting : List Nat := []
  batch : Option SBatch := none
  compact : Option SCompact := none
  /-- Collections whose VALID was written 0, until the next boundary (R368), each with the number of the next command accepted. -/
  retiring : List (Nat × Nat) := []
  deriving DecidableEq, Repr

/-! ## The fabric (R370 to R407) -/

/-- The write of a peer message that has not completed (R379, R389): its port, or none while it waits at issue; when it was
issued or first waited; whether it was reissued (R390); when it is resent after a Completer Abort (R387); and the request engine
that it occupies (R381). -/
structure Req where
  device : Nat
  engine : Nat := 0
  msg : PeerMsg
  port : Option Nat
  since : Nat
  reissued : Bool := false
  resendAt : Option Nat := none
  deriving DecidableEq, Repr

/-- A fabric port (R374): whether it trains now, and since when, or since when it waits to train again. -/
structure Port where
  training : Bool := false
  since : Nat := 0
  deriving DecidableEq, Repr

/-- The fabric agent: requests, peer messages and dead targets. -/
structure Fam where
  reqs : Map Req := ⟨[]⟩
  nextReq : Nat := 0
  /-- Requests that failed when their target was marked dead, whose completions may still arrive. -/
  late : List Nat := []
  dead : List Nat := []
  walking : List Nat := []
  /-- Next MSG_SEQ to each device, next expected from each device (R384). -/
  sendSeq : Map Nat := ⟨[]⟩
  recvSeq : Map Nat := ⟨[]⟩
  /-- Messages held at issue for a device: 16 incomplete there, or its quiet window (R387, R388). -/
  outbox : Map (List PeerMsg) := ⟨[]⟩
  /-- End of the quiet span of each device (R388). -/
  quiet : Map Nat := ⟨[]⟩
  ports : Map Port := ⟨[]⟩
  /-- CAS operations by lease word: the first of a list is outstanding, the others wait (R395). -/
  cas : Map (List CasOp) := ⟨[]⟩
  /-- What the lease word of a MIGRATE_IN or RECLAIM reads as, by command; a word that is not listed gave no answer. -/
  words : Map Nat := ⟨[]⟩
  deriving DecidableEq, Repr

/-- A migration or reclaim that deals with the lease word (R398 to R401). -/
structure Migration where
  slot : Nat
  kind : JobKind
  /-- Lease address; the destination T of a MIGRATE_OUT or the expected source S of a MIGRATE_IN. -/
  addr : Nat
  peer : Nat
  /-- Bytes of the capsule. -/
  len : Nat := 0
  /-- Tick of the offer, once made, and of the last read of the word. -/
  offeredAt : Option Nat := none
  polledAt : Nat := 0
  /-- The PARTIAL completion of the offer waits for a slot (R48). -/
  partialDue : Bool := false
  /-- The epoch that the accept or reclaim reaches, and what arrived. -/
  epoch : Nat := 0
  job : Option CapsuleJob := none
  deriving DecidableEq, Repr

/-! ## Checkpoints (R408 to R432) -/

/-- What a checkpoint records of the device at its cut (R408), as its store holds it. -/
structure Snapshot where
  /-- The cut fell inside a step. -/
  inStep : Bool
  tick : Nat
  epoch : Nat
  source : Nat
  /-- KEY_REF of its checkpoint key, and of the TTK under which each tenant's objects are held (R449). -/
  keyRef : Nat
  ttks : Map Nat
  /-- Register fields, and the common registers, of the blocks that R408 lists. -/
  regs : Map Nat
  commons : Map Common
  sdir : Sdir
  cane : Cane
  cmds : Map Cmd
  adm : Adm
  gaf : Gaf
  emb : Emb
  srch : Srch
  hbm : Memory
  objects : Map CObject
  cores : Map Core
  windows : Map WinHalf
  /-- Fingerprints and vocabulary digests by model id, 0 for none. -/
  fps : List Nat
  digests : List Nat
  /-- Slots recorded as LOST (R421). -/
  lost : List Nat := []
  deriving DecidableEq, Repr

/-- What the store holds behind a manifest: the decrypted index and objects, and the bytes written and referenced. -/
structure StoreImage where
  seq : Nat
  snap : Snapshot
  dataBytes : Nat
  storeBytes : Nat
  deriving DecidableEq, Repr

/-- A checkpoint that runs (R414 to R420): the CKPT_TAKE it serves, the tick at which it began to quiesce, and its cut, once
taken. `copied` says that the freeze has ended. -/
structure CkptRun where
  cmd : Option Nat
  full : Bool
  seq : Nat
  base : Nat
  start : Nat
  cut : Option Snapshot := none
  copied : Bool := false
  /-- NONCE_BASE, and the keys of the index and of each tenant's objects (R411, R449). -/
  nonce : List Byte := []
  indexKey : List Byte := []
  tenantKeys : Map (List Byte) := ⟨[]⟩
  deriving DecidableEq, Repr

/-- A restore that runs (R423): its command, the manifest slot, and CMDS. -/
structure RestoreRun where
  cmd : Nat
  slot : Nat
  cmds : Bool
  deriving DecidableEq, Repr

/-- The checkpoint engine. -/
structure Ckp where
  run : Option CkptRun := none
  restore : Option RestoreRun := none
  /-- What lies behind manifest slots A (0) and B (1). -/
  store : Map StoreImage := ⟨[]⟩
  /-- The tick and the step count from which the triggers count (R414). -/
  timerFrom : Nat := 0
  stepsFrom : Nat := 0
  /-- The page map names what the store holds, so that a checkpoint can build on the newest manifest (R425, R431). -/
  mapValid : Bool := false
  deriving DecidableEq, Repr

/-! ## Telemetry (R506 to R528) -/

/-- A tile that has ended and whose outcome is not settled (R506, R507): its core, the shares of its rows as (session slot,
tenant × 8 + class, slots) or of its jobs as (command, tenant × 8 + class, slots), and its tag record but for the outcome
(R519). -/
structure TileAcct where
  core : Nat
  isJob : Bool
  shares : List (Nat × Nat × Nat)
  /-- Shares that are WASTED whatever the outcome (R508): the evaluation of an exit head for a row that does not exit. -/
  exits : List (Nat × Nat) := []
  tag : Option (List Byte) := none
  deriving DecidableEq, Repr

/-- A snapshot that its dump has not yet carried out (R511): the bytes of the dump, header first, its SEQ and whether it is
truncated. -/
structure Dump where
  seq : Nat
  bytes : List Byte
  trunc : Bool
  deriving DecidableEq, Repr

/-- What the TEL pages keep besides their registers. -/
structure Tel where
  accts : List TileAcct := []
  /-- Sessions of the running step whose commit was refused (R508). -/
  wasted : List Nat := []
  dump : Option Dump := none
  /-- Tag records that wait to be written, oldest first, and the shift register of each core that has one (R518). -/
  tags : List (List Byte) := []
  lfsr : Map Nat := ⟨[]⟩
  /-- End of the bandwidth window now running, windows ended since TEL was enabled, and its snapshots (R510 to R513). -/
  windowEnd : Nat := 100000
  windows : Nat := 0
  snapshots : Nat := 0
  /-- Queue records of 48 bytes since the last snapshot, and whether some were dropped; counters were cleared since then. -/
  qrecs : List (List Byte) := []
  qlost : Bool := false
  cleared : Bool := false
  deriving DecidableEq, Repr

/-! ## Power, clocks, reset and self-test (R472 to R505) -/

/-- What the input power and the trips leave the device in (R472, R485): powered; without power until the next rise; without
power after an over-voltage fault; tripped until the input falls below 55.0 V. -/
inductive PowerPhase
  | on | off | overVolt | tripped
  deriving DecidableEq, Repr

/-- A bank of the result store (R498, R499): whether MAGIC, VERSION and CRC are correct, and its fields. -/
structure StoreBank where
  valid : Bool := false
  seq : Nat := 0
  bootCount : Nat := 0
  result : Nat := 0
  kind : Nat := 0
  consumed : Bool := false
  lifecycle : Nat := 0
  segsRun : Nat := 0
  segsFailed : Nat := 0
  vcore : Nat := 0
  clk : Nat := 0
  failMap : Nat := 0
  configId : Nat := 0
  config : List Byte := []
  deriving DecidableEq, Repr

/-- What the platform keeps besides the registers of PWR, CLK, RST and BIST. -/
structure Plat where
  phase : PowerPhase := .on
  pgood : Bool := true
  /-- The pin THERMTRIP_N is driven low; RESET_N is low. -/
  thermtrip : Bool := false
  resetLow : Bool := true
  /-- A power stage is faulted: the device runs at half of PLIMIT (R505, R535). The governor gates matrix issue (R473). -/
  halfLimit : Bool := false
  issueGated : Bool := false
  /-- The tick from which PWR_LIMITED_10US counts next (R474). -/
  limitedAt : Nat := 0
  /-- The always-on fast clock is gated (R481). -/
  aonGated : Bool := false
  /-- Cores that a loss of REFCLK moves to the start oscillator (R482). -/
  lostCores : List Nat := []
  /-- Transitions that run, as target and earliest end, and requests held behind them, by domain (R476), and the tick of each automatic wake (R477). -/
  moving : Map (Nat × Nat) := ⟨[]⟩
  held : Map Nat := ⟨[]⟩
  wokenAt : Map Nat := ⟨[]⟩
  /-- The result store, and how often each bank was written. -/
  bankA : StoreBank := {}
  bankB : StoreBank := {}
  writesA : Nat := 0
  writesB : Nat := 0
  /-- Fuses: the life-cycle state (R490) and how often the seed was changed (R434); digests of measurements 1 to 3 (R438). -/
  lifecycle : Nat := 1
  fuseSeed : Nat := 0
  firmware : List Nat := []
  /-- The instruction in the TAP (R492), and the I3C dynamic address (R487). -/
  tap : TapInstr := .idcode
  i3c : Option Nat := none
  /-- SHUTDOWN has taken effect and the device is SHUT: the island is OFF (R475, R494). -/
  islandOff : Bool := false
  /-- PWR, CLK, RST, BIST registers that outlive a cold reset: boots since power-on (R503). -/
  boots : Nat := 0
  deriving DecidableEq, Repr

/-! ## The whole state -/

/-- Why a step stops. No command of the table stops the block: a command whose condition does not hold leaves the state
as it is (log entry 4), and every failure the spec describes is a completion, an error code or a FAILED page. -/
inductive Fault
  /-- Raised by no command; it stands for a machine that could not go on. Safe. -/
  | halted
  deriving DecidableEq, Repr

/-- Why a command is refused by the model. -/
inductive Refusal
  /-- Raised by exec's arm for a command that has no meaning yet; safe. -/
  | notModelled (mnemonic : String)
  deriving DecidableEq, Repr

/-- What the device sends out that is neither a completion nor an MSI-X message. -/
inductive OutMsg
  /-- A peer message to a device (R384). -/
  | peer (device : Nat) (m : PeerMsg)
  /-- Reads of the tiles of a page in a pool, from an address, with the combine hint or none (R382, R383). -/
  | poolRead (addr : Nat) (hint : List Byte)
  /-- Unsupported Request or Completer Abort for an access from a requester (R385, R387). -/
  | unsupportedRequest (source : Nat)
  | completerAbort (source : Nat)
  /-- An answer to an SPDM request (R436), a measurement block (R438) with its signature, a VENDOR_DEFINED_RESPONSE payload
  (R440, R491), and an SPDM ERROR. -/
  | spdm (r : SpdmReq)
  | measurements (blocks : List (List Byte)) (signature : List DWord)
  /-- DIGESTS and CERTIFICATE: the digest of slot 0's chain, and the chain (R434, R436). -/
  | digests (slot0 : BitVec 384)
  | certificates (chain : List Cert)
  | vendor (payload : List Byte)
  | spdmError (e : SpdmError)
  /-- K_SET_GO and K_SET_STOP of a stream (R437, R452). -/
  | keySetGo (stream gen : Nat)
  | keySetStop (stream : Nat)
  /-- An answer to a TEL_READ (R523), to an MCTP control message (R475), to ENTDAA (R487): its low 6 bits. -/
  | telRead (payload : List Byte)
  | mctpControl
  | provisionalId (low : Nat)
  /-- What a read of BAR 0 that R11 refuses returns. -/
  | regRead (value : Word)
  /-- A configuration request completed, or got Configuration Request Retry Status (R486). -/
  | configDone (function : Nat)
  | configRetry (function : Nat)
  deriving DecidableEq, Repr

/-- The state of the device. -/
structure State where
  /-- Commands that are waiting to be taken, first in, first out: the model's own queue. -/
  pending : List Instr := []
  /-- The device tick counter (R7). -/
  tick : Nat := 0
  bootEpoch : Nat := 0
  /-- The model's own counter of free values used so far (log entry 1). -/
  free : Nat := 0
  /-- Register fields of Machine/Regs.lean, and pending shadow values (R31), by Reg.key. -/
  regs : Map Nat := ⟨[]⟩
  shadow : Map Nat := ⟨[]⟩
  /-- Common registers by page number, and command-ring pages by ring number. -/
  commons : Map Common := ⟨[]⟩
  rings : Map Ring := ⟨[]⟩
  /-- BAR 4: vectors that host software has unmasked, vectors with their pending bit set, and the entries of the MSI-X table,
  by function × 2,048 + vector (R25, R29). -/
  unmasked : List Nat := []
  msixPending : List Nat := []
  msixTable : Map MsixEntry := ⟨[]⟩
  /-- MSI-X messages sent, newest first: the vector, numbered alike, and what its entry held. -/
  sent : List (Nat × MsixEntry) := []
  /-- The BAR 2 window, host memory and the memory of fabric targets. -/
  window : Memory := ⟨[]⟩
  host : Memory := ⟨[]⟩
  fabric : Memory := ⟨[]⟩
  /-- Commands without a final completion, by acceptance number, and the next number. -/
  cmds : Map Cmd := ⟨[]⟩
  nextCmd : Nat := 0
  adm : Adm := {}
  sdir : Sdir := {}
  cane : Cane := {}
  stm : Stm := {}
  /-- Capsule transfers by number, and what the source of a command yields when it is read (log entry 26). -/
  jobs : Map CapsuleJob := ⟨[]⟩
  nextJob : Nat := 0
  sources : Map Capsule := ⟨[]⟩
  models : Map Model := ⟨[]⟩
  vocabs : Map Vocab := ⟨[]⟩
  objects : Map CObject := ⟨[]⟩
  cores : Map Core := ⟨[]⟩
  /-- The filled halves of the weight windows, by cluster × 2 + half. -/
  windows : Map WinHalf := ⟨[]⟩
  gaf : Gaf := {}
  /-- Quiescing for a checkpoint's cut: 0 none, 1 quiescing, 2 from the cut to the end of the freeze (R416, R417). -/
  freeze : Nat := 0
  tenants : Map Tenant := ⟨[]⟩
  sec : Sec := {}
  /-- HBM that holds embedding tables, as bytes by device address. -/
  hbm : Memory := ⟨[]⟩
  emb : Emb := {}
  srch : Srch := {}
  fam : Fam := {}
  ckp : Ckp := {}
  /-- Migrations and reclaims in progress, by the command. -/
  migrations : Map Migration := ⟨[]⟩
  tel : Tel := {}
  plat : Plat := {}
  /-- Messages sent, newest first. -/
  out : List OutMsg := []
  deriving DecidableEq, Repr

/-- The machine right after power-on: every field at the value the spec states for reset; where it states none, at the
value that log entry 3 names. -/
def State.reset : State := {}

end Sys2Proof.Machine
end

