-- ==== Sys2Proof/Machine/Ops.lean ====
section
/-!
DEFINITION. The named operations that every command shares: register fields and their shadows, the common page, error
codes, interrupts, the memories that the device reads and writes, and completions.
-/
namespace Sys2Proof.Machine

/-! ## Page numbers (R26) -/

def pgGlb : Nat := 0
def pgPwr : Nat := 1
def pgClk : Nat := 2
def pgRst : Nat := 3
def pgBist : Nat := 4
def pgSec : Nat := 8
def pgTel : Nat := 12
def pgSdir : Nat := 16
def pgStm : Nat := 17
def pgCane : Nat := 18
def pgEvic : Nat := 19
def pgCkp : Nat := 20
def pgGaf : Nat := 24
def pgAdm : Nat := 25
def pgMrv : Nat := 26
def pgJck : Nat := 27
def pgEmb : Nat := 28
def pgSrch : Nat := 29
def pgFab : Nat := 32
def pgFam : Nat := 40
def pgHbm : Nat := 48
def pgFcd : Nat := 64
def pgCru : Nat := 256

/-- First page, number of pages and whether the block has a safe point, for each block of R26. -/
def blockMap : List (Nat × Nat × Bool) :=
  [(0, 1, false), (1, 1, false), (2, 1, false), (3, 1, false), (4, 1, false), (8, 4, false), (12, 4, true),
   (16, 1, true), (17, 1, true), (18, 1, true), (19, 1, true), (20, 1, true), (24, 1, true), (25, 1, true),
   (26, 1, true), (27, 1, true), (28, 1, true), (29, 1, true), (32, 8, false), (40, 1, false), (48, 12, false),
   (64, 8, false), (256, 128, true)]

/-- The block of a page: first page, number of pages, safe point. -/
def blockOf (p : Nat) : Option (Nat × Nat × Bool) :=
  blockMap.find? (fun b => decide (b.1 ≤ p) && decide (p < b.1 + b.2.1))

/-- Whether a page belongs to a block that has a safe point (R26). -/
def hasSafePoint (p : Nat) : Bool := ((blockOf p).map (fun b => b.2.2)).getD false

/-! ## Register fields -/

/-- The value in effect of copy `i` of a field. -/
def State.reg (s : State) (r : Reg) (i : Nat := 0) : Nat := (s.regs.get? (r.key i)).getD (r.resetOf i)

/-- Whether copy `i` of a one-bit field is 1. -/
def State.regBit (s : State) (r : Reg) (i : Nat := 0) : Bool := s.reg r i == 1

/-- Set copy `i` of a field; a copy at its reset value is not listed. -/
def State.setReg (s : State) (r : Reg) (v : Nat) (i : Nat := 0) : State :=
  let w := v % 2 ^ r.desc.width
  if w = r.resetOf i then { s with regs := s.regs.erase (r.key i) }
  else { s with regs := s.regs.set (r.key i) w }

/-- Add `k` to copy `i` of a counter; counters saturate. -/
def State.bump (s : State) (r : Reg) (i : Nat := 0) (k : Nat := 1) : State :=
  s.setReg r (satAdd r.desc.width (s.reg r i) k) i

/-- Raise copy `i` of a field that keeps a maximum. -/
def State.raiseReg (s : State) (r : Reg) (v : Nat) (i : Nat := 0) : State :=
  s.setReg r (max (s.reg r i) (min v (2 ^ r.desc.width - 1))) i

/-- The counters of a page count from its last enable: set them to 0. -/
def State.clearCounters (s : State) (p : Nat) : State :=
  Reg.all.foldl (fun s r =>
    if r.desc.counter && decide (r.desc.page ≤ p) && decide (p < r.desc.page + r.desc.pages * r.desc.pageStep)
        && (p - r.desc.page) % r.desc.pageStep == 0 then
      if r.desc.pages = 1 then
        { s with regs := s.regs.filter (fun k _ => k / 4294967296 != r.ctorIdx) }
      else { s with regs := s.regs.erase (r.key ((p - r.desc.page) / r.desc.pageStep)) }
    else s) s

/-- The tenant that a TEN_SEL or Q_SEL register selects, and so on: the copy a banked field addresses. -/
def State.bankIndex (s : State) : Bank → Nat
  | .one => 0
  | .sdirTenant => s.reg .SDIR_QUOTA_SEL_TENANT
  | .stmTenant => s.reg .STM_TEN_SEL_TENANT
  | .evicTenant => s.reg .EVIC_TEN_SEL_TENANT
  | .model => s.reg .CRU_MODEL_SEL_ID
  | .admQueue => s.reg .ADM_Q_SEL_TENANT * 8 + s.reg .ADM_Q_SEL_CLASS
  | .admTenant => s.reg .ADM_TEN_SEL_TENANT
  | .vocab => s.reg .MRV_VOCAB_SEL_ID
  | .mrvTenant => s.reg .MRV_TEN_SEL_TENANT
  | .jckObject => (s.reg .JCK_OBJ_SEL_TENANT * 8 + s.reg .JCK_OBJ_SEL_KIND) * 65536 + s.reg .JCK_OBJ_SEL_ID
  | .jckTenant => s.reg .JCK_TEN_SEL_TENANT
  | .table => s.reg .EMB_TBL_SEL_TABLE
  | .hotRow => s.reg .EMB_HOT_SEL_INDEX
  | .collection => s.reg .SRCH_COLL_SEL_COLLECTION
  | .mapEntry => s.reg .FAM_MAP_SEL_INDEX
  | .deadDevice => s.reg .FAM_DEAD_SEL_DEVICE
  | .stagedKey => s.reg .SEC1_KEY_SEL_INDEX
  | .secTenant => s.reg .SEC2_TEN_SEL_TENANT
  | .setKey => s.reg .SEC2_SET_SEL_SET
  | .stream => s.reg .SEC3_STREAM_SEL_STREAM
  | .domain => s.reg .PWR_DOM_SEL_DOMAIN
  | .telCore => s.reg .TEL1_CORE_SEL_CORE
  | .telQueue => s.reg .TEL1_TEN_SEL_TENANT * 8 + s.reg .TEL1_TEN_SEL_CLASS
  | .telPort => s.reg .TEL2_PORT_SEL_PORT

/-! ## The common page -/

/-- The common registers of a page (R28). -/
def State.common (s : State) (p : Nat) : Common := (s.commons.get? p).getD {}

/-- Replace the common registers of a page. -/
def State.setCommon (s : State) (p : Nat) (c : Common) : State := { s with commons := s.commons.set p c }

/-- STATUS.STATE of a page. -/
def State.pageState (s : State) (p : Nat) : Nat := (s.common p).state

/-- The block reads 0x01 ENABLED, or a block-defined state in which it runs (GAF's 0x02 and 0x03, R280). -/
def State.enabled (s : State) (p : Nat) : Bool :=
  s.pageState p == 1 || (p == pgGaf && (s.pageState p == 2 || s.pageState p == 3))

/-- STATUS.STATE reads 0xFF FAILED (R28, R66). -/
def State.failed (s : State) (p : Nat) : Bool := s.pageState p == 0xFF

/-- The device answers accesses to BAR 0: GLB_STATUS.STATE is ENABLED, shutting down, or FAILED (R486, R494, R497). -/
def State.live (s : State) : Bool := s.pageState pgGlb == 1 || s.pageState pgGlb == 2 || s.pageState pgGlb == 0xFF

/-- The working, shared and urgent regions of every core and cluster are written with zeros, once in a fining pass, after its
keys are destroyed (R462). -/
def State.sramZero (s : State) : State :=
  match s.sec.pass with
  | none => s
  | some p =>
    if p.destroyed && !p.zeroed then
      { s with cores := s.cores.map (fun _ c => { c with out := [] }),
               sec := { s.sec with pass := some { p with zeroed := true } } }
    else s

/-- An access to a register, a doorbell, a timer or a request ungates the always-on fast clock (R481). -/
def State.ungate (s : State) : State := { s with plat := { s.plat with aonGated := false } }

/-- An access of a host to BAR 0, where the device answers it. -/
def State.touch (s : State) : State := if s.live then s.ungate else s

/-! ## Messages and interrupts -/

/-- An entry of the MSI-X table. -/
def State.msixEntry (s : State) (v : Nat) : MsixEntry := s.msixTable.getD v {}

/-- Send an MSI-X message of a CXL.io function; while its vector is masked it is held as a pending bit (R29). -/
def State.sendMsi (s : State) (vector : Nat) (function : Nat := 0) : State :=
  let v := function * 2048 + vector
  if s.unmasked.contains v then { s with sent := (v, s.msixEntry v) :: s.sent }
  else if s.msixPending.contains v then s
  else { s with msixPending := v :: s.msixPending }

/-- Send the interrupt message of a block page through GLB_INT_ROUTE (R29, R40). -/
def State.routeMsg (s : State) (p : Nat) : State :=
  if s.regBit .GLB_INT_ROUTE_ROUTE_EN p then s.sendMsi (s.reg .GLB_INT_ROUTE_VECTOR p) else s

/-- Set bits of a page's INT_STATUS, with the message of R29 when the enabled set stops being empty. -/
def State.setInt (s : State) (p : Nat) (bits : Word) : State :=
  let c := s.common p
  let s' := s.setCommon p { c with int := c.int ||| bits }
  if c.int &&& c.intEn = 0 ∧ (c.int ||| bits) &&& c.intEn ≠ 0 then s'.routeMsg p else s'

/-- Set bit `i` of a page's INT_STATUS. -/
def State.setIntBit (s : State) (p i : Nat) : State := s.setInt p (BitVec.ofNat 32 (2 ^ i))

/-- Record an error of a block: STATUS.ERR, the first code since the last clear, INT_STATUS.ERR (R28, R30). -/
def State.recErr (s : State) (p code : Nat) : State :=
  let c := s.common p
  (s.setCommon p { c with err := true, code := if c.code = 0 then code else c.code }).setInt p 2

/-- An RWL field was written while locked: STATUS.LOCK_ERR and INT_STATUS.LOCK_ERR (R33). -/
def State.lockErr (s : State) (p : Nat) : State :=
  (s.setCommon p { s.common p with lockErr := true }).setInt p 4

/-- Set STATUS.STATE of a page. -/
def State.setPageState (s : State) (p st : Nat) : State := s.setCommon p { s.common p with state := st }

/-- A page goes to STATE 0xFF FAILED (R66), which TEL0 reports (R522). -/
def State.failPage (s : State) (p code : Nat) : State :=
  if s.failed p then s
  else ((s.recErr p code).setPageState p 0xFF).setIntBit pgTel 10

/-- Start of a long operation of a page: PROGRESS (R36) and STATUS.BUSY. -/
def State.beginLong (s : State) (p : Nat) : State :=
  s.setCommon p { s.common p with busy := true, position := 0, percent := 0, valid := true }

/-- Progress of a long operation: POSITION holds at 0xFF_FFFF, and PERCENT stays below 100 until the end (R36). -/
def State.progress (s : State) (p pos pct : Nat) : State :=
  let c := s.common p
  s.setCommon p { c with position := min pos 0xFFFFFF, percent := max c.percent (min pct 99) }

/-- End of a long operation: PERCENT 100 and INT_STATUS.DONE (R36). -/
def State.endLong (s : State) (p : Nat) : State :=
  (s.setCommon p { s.common p with busy := false, percent := 100 }).setInt p 1

/-- End of a long operation that failed: it has ended, so PERCENT reads 100 and DONE is set all the same (log entry 27). -/
def State.abortLong (s : State) (p : Nat) : State := s.endLong p

/-! ## Power domains (R475) -/

/-- A domain is ON and no transition of it runs. -/
def State.domOn (s : State) (d : Nat) : Bool := s.reg .PWR_DOM_STAT_STATE d == 0 && !s.plat.moving.has d

/-- Every HBM interface is ON. -/
def State.hbmOn (s : State) : Bool := (List.range 12).all (fun i => s.domOn (136 + i))

/-- Every FCD is ON. -/
def State.fcdOn (s : State) : Bool := (List.range 8).all (fun i => s.domOn (148 + i))

/-- The tokenizer and constraint engine, and the search and embedding engines, are ON. -/
def State.textOn (s : State) : Bool := s.domOn 164
def State.rowsOn (s : State) : Bool := s.domOn 165

/-- A core takes tiles: its domain is ON, its page is ENABLED (R66, R476). -/
def State.coreOn (s : State) (n : Nat) : Bool := s.domOn n && s.enabled (pgCru + n)

/-! ## Free values -/

/-- Use one free value (log entry 1). -/
def State.useFree (s : State) (k : Nat := 1) : State := { s with free := s.free + k }

/-- `n` bytes that the spec leaves undefined, from free value number `k`. -/
def freeBytes (k : Nat) : Nat → List Byte
  | 0 => []
  | n + 1 => Config.freeByte k :: freeBytes (k + 1) n

/-! ## Memory that the device reads and writes for commands (R25, R39) -/

/-- Read from the window or from host memory. -/
def State.readMem (s : State) (inWindow : Bool) (addr n : Nat) : List Byte :=
  if inWindow then s.window.readN addr n else s.host.readN addr n

/-- Write to the window or to host memory. -/
def State.writeMem (s : State) (inWindow : Bool) (addr : Nat) (bs : List Byte) : State :=
  if inWindow then { s with window := s.window.writeN addr bs } else { s with host := s.host.writeN addr bs }

/-- Read from a source or destination named by a SRC or DEST option: 0 host, 1 window, 2 fabric (R127, R217, R284). -/
def State.readSrc (s : State) (src addr n : Nat) : List Byte :=
  if src = 2 then s.fabric.readN addr n else s.readMem (src == 1) addr n

/-- Bytes at an offset from the address of a source. -/
def State.srcAt (s : State) (src addr off n : Nat) : List Byte := s.readSrc src (addr + off) n

/-- Write to a destination named by a DEST option. -/
def State.writeDst (s : State) (dst addr : Nat) (bs : List Byte) : State :=
  if dst = 2 then { s with fabric := s.fabric.writeN addr bs } else s.writeMem (dst == 1) addr bs

/-- The stores of host software that precede a register write (R45). -/
def State.hostStores (s : State) (l : List HostStore) : State :=
  l.foldl (fun s h => s.writeMem h.window h.addr h.bytes) s

/-! ## Descriptors (R49) -/

/-- The fields of the 64 bytes of a descriptor. -/
def Desc.ofBytes (bs : List Byte) : Desc where
  opcode := leAt bs 0 1
  flags := leAt bs 1 1
  tag := leAt bs 2 2
  opts := leAt bs 4 4
  handle := leAt bs 8 8
  deadline := leAt bs 16 8
  payAddr := leAt bs 24 8
  payLen := leAt bs 32 4
  spec := slice bs 36 28

/-- SPECIFIC bytes [hi:lo], numbered as in the descriptor. -/
def Desc.specF (d : Desc) (hi lo : Nat) : Nat := leAt d.spec (lo - 36) (hi - lo + 1)

/-- Option or class bits [lo + w - 1 : lo] of CLASS_OPT. -/
def Desc.opt (d : Desc) (lo w : Nat) : Nat := bitsOf d.opts lo w

/-- One option bit. -/
def Desc.optBit (d : Desc) (i : Nat) : Bool := bitAt d.opts i

/-- The admission class (R49). -/
def Desc.cls (d : Desc) : Nat := bitsOf d.opts 0 3

def Desc.irq (d : Desc) : Bool := bitAt d.flags 0
def Desc.ordered (d : Desc) : Bool := bitAt d.flags 1
def Desc.inWindow (d : Desc) : Bool := bitAt d.flags 2

/-- The deadline, with 0 taken as 2^64 - 1 (R49). -/
def deadlineOf (n : Nat) : Nat := if n = 0 then 2 ^ 64 - 1 else n

/-- The slot, generation and tenant fields of a handle (R67). -/
def handleSlot (h : Nat) : Nat := bitsOf h 28 24
def handleGen (h : Nat) : Nat := bitsOf h 8 20
def handleTenant (h : Nat) : Nat := bitsOf h 52 12

/-- The check byte of a handle (R68). -/
def handleCheck (h : Nat) : Nat := crcBits 8 0x07 (h / 256) 56 0

/-- The handle of a slot (R67). -/
def mkHandle (tenant slot gen : Nat) : Nat :=
  let h := tenant % 4096 * 2 ^ 52 + slot % 2 ^ 24 * 2 ^ 28 + gen % 2 ^ 20 * 256
  h + handleCheck h

/-! ## Completions (R52 to R55) -/

/-- The completion statuses (R55). -/
inductive Status
  | ok | part | notReproducible | deadEnd | deadlineMissed | staleHandle | notOwner | lost | noSpace | policedDrop
  | invalid | locked | security | internal
  deriving DecidableEq, Repr

/-- The code of a status (R55). -/
def Status.code : Status → Nat
  | .ok => 0x00
  | .part => 0x01
  | .notReproducible => 0x02
  | .deadEnd => 0x10
  | .deadlineMissed => 0x11
  | .staleHandle => 0x20
  | .notOwner => 0x21
  | .lost => 0x22
  | .noSpace => 0x30
  | .policedDrop => 0x31
  | .invalid => 0x40
  | .locked => 0x41
  | .security => 0x50
  | .internal => 0x7F

/-- The page of a command ring. -/
def State.ring (s : State) (n : Nat) : Ring := (s.rings.get? n).getD {}

/-- A core, and its replacement. -/
def State.core (s : State) (n : Nat) : Core := (s.cores.get? n).getD {}
def State.setCore (s : State) (n : Nat) (c : Core) : State := { s with cores := s.cores.set n c }

/-- Replace the page of a command ring. -/
def State.setRing (s : State) (n : Nat) (r : Ring) : State := { s with rings := s.rings.set n r }

/-- Set bits of a ring page's INT_STATUS; ERR and LOCK_ERR send on MSIX.VECTOR under R29 (R54). -/
def State.ringInt (s : State) (n : Nat) (bits : Word) : State :=
  let r := s.ring n
  let s' := s.setRing n { r with int := r.int ||| bits }
  if r.int &&& r.intEn = 0 ∧ (r.int ||| bits) &&& r.intEn ≠ 0 then s'.sendMsi r.vector r.function else s'

/-- Record an error on a ring page: STATUS.ERR and the first code (R30, R43). -/
def State.ringErr (s : State) (n code : Nat) : State :=
  let r := s.ring n
  (s.setRing n { r with err := true, code := if r.code = 0 then code else r.code }).ringInt n 2

/-- A signal of R54 has fallen due: INT_STATUS.CQ is set, every completion written counts as signalled, and the message
goes out if INT_ENABLE.CQ is 1. -/
def State.signal (s : State) (n : Nat) : State :=
  let r := s.ring n
  let s' := s.setRing n { r with int := r.int ||| 1, unsignalled := 0 }
  if r.intEn &&& 1 = 1 then s'.sendMsi r.vector r.function else s'

/-- The phase bit of completion number `c` (R53). -/
def phaseBit (cqLog2 : Nat) (c : Word) : Nat := if (c.toNat / 2 ^ cqLog2) % 2 = 0 then 1 else 0

/-- The 32 bytes of a completion (R52). -/
def completionBytes (opcode phase status tag detail handle tick result : Nat) : List Byte :=
  leBytes (opcode % 128 + 128 * phase) 1 ++ leBytes status 1 ++ leBytes tag 2 ++ leBytes detail 4 ++ leBytes handle 8
    ++ leBytes tick 8 ++ leBytes result 8

/-- Address of completion slot `c` of a ring (R53). -/
def Ring.cqSlot (r : Ring) (c : Word) : Nat := r.cqBase + 32 * (c.toNat % 2 ^ r.cqLog2)

/-- Write a completion of ring `n` and raise the signal it makes due; a ring that drains after CTRL.SOFT_RST discards it
and counts it in DROPPED (R43, R53, R54). -/
def State.writeCompletion (s : State) (n : Nat) (d : Desc) (st : Status) (detail handle result : Nat) : State :=
  let r := s.ring n
  if r.discard then s.setRing n { r with dropped := satAdd 32 r.dropped 1 }
  else
    let bytes := completionBytes d.opcode (phaseBit r.cqLog2 r.cqTail) st.code d.tag detail handle s.tick result
    let due := decide (max 1 r.coalCount ≤ r.unsignalled + 1) || d.irq
    let undo : CqUndo :=
      { old := if r.cqInWindow then s.readMem true (r.cqSlot r.cqTail) 32 else [], int := r.int, unsignalled := r.unsignalled,
        since := r.unsignalledSince, due := due, message := due && r.intEn &&& 1 == 1 }
    let s := s.writeMem r.cqInWindow (r.cqSlot r.cqTail) bytes
    let s := s.setRing n { r with
      cqTail := r.cqTail + 1, unsignalled := r.unsignalled + 1, lastCq := some undo,
      unsignalledSince := if r.unsignalled = 0 then s.tick else r.unsignalledSince }
    if due then s.signal n else s

/-- A descriptor that has its final completion leaves OUTSTANDING (R37). -/
def State.release (s : State) (n : Nat) : State :=
  let r := s.ring n
  s.setRing n { r with outstanding := r.outstanding - 1 }

/-! ## Sessions -/

/-- The session of an allocated slot. -/
def State.session? (s : State) (slot : Nat) : Option Session := s.sdir.sess.get? slot

/-- Replace or add the session of a slot. -/
def State.setSession (s : State) (slot : Nat) (x : Session) : State :=
  { s with sdir := { s.sdir with sess := s.sdir.sess.set slot x } }

/-- Change the session of a slot, where it is allocated. -/
def State.onSession (s : State) (slot : Nat) (f : Session → Session) : State :=
  match s.session? slot with
  | some x => s.setSession slot (f x)
  | none => s

/-- The handle of a session. -/
def Session.handle (x : Session) (slot : Nat) : Nat := mkHandle x.tenant slot x.generation

/-! ## Slot accounting (R506 to R508, R519, R520) -/

/-- Count RETIRED or WASTED slots of a core for a tenant and class, or for none, while TEL1 is ENABLED. -/
def State.countSlots (s : State) (core : Nat) (key : Option Nat) (wasted : Bool) (n : Nat) : State :=
  if s.enabled (pgTel + 1) = false then s
  else
    let s := if wasted then (s.bump .TEL1_CORE_WASTED_COUNT core n).bump .TEL1_DEV_WASTED_COUNT 0 n
      else (s.bump .TEL1_CORE_RETIRED_COUNT core n).bump .TEL1_DEV_RETIRED_COUNT 0 n
    match key with
    | none => s
    | some k => if wasted then s.bump .TEL1_TEN_WASTED_COUNT k n else s.bump .TEL1_TEN_RETIRED_COUNT k n

/-- Records in the ring of tag records. -/
def State.tagSlots (s : State) : Nat := 2 ^ max 10 (min 20 (s.reg .TEL3_TAG_SIZE_LOG2))

/-- The outcome of a tagged tile is settled: its record, with the tick, waits to be written, or finds the ring full and is
dropped (R519, R520). -/
def State.tagRecord (s : State) (bytes : List Byte) (wasted : Bool) : State :=
  let flags := (bytes.getD 1 0) ||| (if wasted then 2 else 0)
  let r := bytes.set 1 flags ++ leBytes s.tick 8
  let used := (s.reg .TEL3_TAG_TAIL_COUNT + s.tel.tags.length + 2 ^ 32 - s.reg .TEL3_TAG_HEAD_COUNT) % 2 ^ 32
  if s.tagSlots ≤ used then (s.bump .TEL3_TAG_DROPS_COUNT).setIntBit (pgTel + 3) 8
  else { s with tel := { s.tel with tags := s.tel.tags ++ [r] } }

/-- Settle shares of a tile: `waste` says whose work is discarded. -/
def State.settleShares (s : State) (core : Nat) (shares : List (Nat × Nat × Nat)) (waste : Nat → Bool) : State :=
  shares.foldl (fun s e => s.countSlots core (some e.2.1) (waste e.1) e.2.2) s

/-- Settle what is left of a tile, with its tag record: the record shows the outcome of its first share. -/
def State.settleAcct (s : State) (a : TileAcct) (waste : Nat → Bool) : State :=
  let s := s.settleShares a.core a.shares waste
  let s := a.exits.foldl (fun s e => s.countSlots a.core (some e.1) true e.2) s
  match a.tag with
  | some b => s.tagRecord b (((a.shares.head?).map (fun e => waste e.1)).getD (!a.exits.isEmpty))
  | none => s

/-- The final completion of a job settles its share of every tile it had; the tile's record follows with its last job. -/
def State.settleJob (s : State) (id : Nat) (wasted : Bool) : State :=
  let mine := s.tel.accts.filter (fun a => a.isJob && a.shares.any (fun e => e.1 == id))
  if mine.isEmpty then s
  else
    let cut (a : TileAcct) : TileAcct := { a with shares := a.shares.filter (fun e => e.1 != id) }
    let rest := s.tel.accts.filterMap (fun a =>
      if a.isJob && a.shares.all (fun e => e.1 == id) then none else if a.isJob then some (cut a) else some a)
    let s := { s with tel := { s.tel with accts := rest } }
    mine.foldl (fun s a =>
      if a.shares.all (fun e => e.1 == id) then s.settleAcct a (fun _ => wasted)
      else s.settleShares a.core (a.shares.filter (fun e => e.1 == id)) (fun _ => wasted)) s

/-- The step boundary settles the tiles of the step: WASTED where it ended without commit, and for the sessions whose commit
was refused (R508). -/
def State.settleStep (s : State) (ran : Bool) : State :=
  let l := s.tel.accts.filter (fun a => !a.isJob)
  let out := s.tel.wasted
  let s := { s with tel := { s.tel with accts := s.tel.accts.filter (·.isJob), wasted := [] } }
  l.foldl (fun s a => s.settleAcct a (fun k => !ran || out.contains k)) s

/-! ## Final completions -/

/-- A command by its acceptance number. -/
def State.cmd? (s : State) (id : Nat) : Option Cmd := s.cmds.get? id

/-- Change a command. -/
def State.onCmd (s : State) (id : Nat) (f : Cmd → Cmd) : State := { s with cmds := s.cmds.modify id f }

/-- Opcodes whose DEADLINE is not compared with their completion: STEP by R264, the rest by R267. -/
def deadlineExempt (opcode : Nat) : Bool := [0x01, 0x02, 0x1A, 0x1B, 0x1C].contains opcode

/-- The status and DETAIL of a final completion after R267. -/
def lateStatus (c : Cmd) (tick : Nat) (st : Status) (detail : Nat) : Status × Nat :=
  if (st = .ok ∨ st = .notReproducible) ∧ deadlineExempt c.desc.opcode = false ∧ tick > deadlineOf c.desc.deadline then
    (.deadlineMissed, 0x0B + if st = .notReproducible then 256 else 0)
  else (st, detail)

/-- Count a final completion for its tenant: COMPLETED, DROPPED and MISSED (R279). -/
def State.account (s : State) (tenant : Nat) (st : Status) : State :=
  let s := if st = .policedDrop then s.bump .ADM_TEN_DROPPED_COUNT tenant else s.bump .ADM_TEN_COMPLETED_COUNT tenant
  if st = .deadlineMissed then s.bump .ADM_TEN_MISSED_COUNT tenant else s

/-- An engine has made progress on a command (R64). -/
def State.progressCmd (s : State) (id : Nat) : State := s.onCmd id (fun c => { c with progressTick := s.tick })

/-- The running step has made progress for the outstanding STEP of a session (R64). -/
def State.progressStep (s : State) (slot : Nat) : State :=
  match (s.session? slot).bind (fun x => (x.stepReq.map (·.cmd)).or (x.ended.map (·.1.cmd))) with
  | some id => s.progressCmd id
  | none => s

/-- Write the final completion of an accepted command and forget the command (R37, R47, R52, R59, R267, R279).
RESULT is 0 with a status other than OK, PARTIAL and NOT_REPRODUCIBLE unless the caller passes it (R52). -/
def State.completeH (s : State) (id : Nat) (st : Status) (detail result handle : Nat) : State :=
  match s.cmd? id with
  | none => s
  | some c =>
    let (st', detail') := lateStatus c s.tick st detail
    let s := if st' = .deadlineMissed ∧ st ≠ .deadlineMissed then
        match c.slot with
        | some k => s.onSession k (fun x => { x with misses := satAdd 16 x.misses 1 })
        | none => s
      else s
    let s := ({ s with cmds := s.cmds.erase id }).settleJob id (decide (st' = Status.internal))
    let s := s.account c.tenant st'
    let s := if st = .staleHandle then s.bump .SDIR_STALE_COUNT else s
    (s.writeCompletion c.ring c.desc st' detail' handle result).release c.ring

/-- Final completion with the descriptor's HANDLE (R52). -/
def State.complete (s : State) (id : Nat) (st : Status) (detail : Nat := 0) (result : Nat := 0) : State :=
  s.completeH id st detail result (((s.cmd? id).map (fun c => c.desc.handle)).getD 0)

/-- INVALID or SECURITY decided by no descriptor field: DETAIL [7:0] 0xFF and the reason in [15:8] (R57). -/
def State.refuse (s : State) (id : Nat) (st : Status) (reason : Nat) : State := s.complete id st (0xFF + 256 * reason)

end Sys2Proof.Machine
end

