-- ==== Sys2Proof/Machine/AddressMap.lean ====
section
/-!
DEFINITION. The fabric address map, the targets that may be reached, and the CAS operations on lease words as they are issued
(R375 to R379, R389, R394, R395).
-/
namespace Sys2Proof.Machine

/-! ## The fabric address map (R375 to R378) -/

/-- The copies of a field that are not at their reset value, as (index, value). -/
def State.copies (s : State) (r : Reg) : List (Nat × Nat) :=
  s.regs.entries.filterMap (fun e => if e.1 / 4294967296 = r.ctorIdx then some (e.1 % 4294967296, e.2) else none)

/-- Used map entries. -/
def State.mapEntries (s : State) : List Nat := (s.copies .FAM_MAP_UNITS_UNITS).map (·.1)

/-- First fabric address and length in bytes of an entry. -/
def State.mapBase (s : State) (i : Nat) : Nat := s.reg .FAM_MAP_FA_FA_BASE i * 2 ^ 21
def State.mapBytes (s : State) (i : Nat) : Nat := s.reg .FAM_MAP_UNITS_UNITS i * 2 ^ 21

/-- The used entry in which `n` bytes from a fabric address lie (R376). -/
def State.mapOf (s : State) (addr n : Nat) : Option Nat :=
  s.mapEntries.find? (fun i => decide (s.mapBase i ≤ addr) && decide (addr + n ≤ s.mapBase i + s.mapBytes i))

/-- The target device of a fabric address. -/
def State.targetOf (s : State) (addr : Nat) : Option Nat := (s.mapOf addr 1).map (fun i => s.reg .FAM_MAP_DEST_DEVICE i)

/-- The entries that cover `n` bytes from an address, one after the other; none where a byte lies in no used entry. Entries are
multiples of 2 MiB, so that no aligned request spans two of them. -/
def coverFrom (s : State) : Nat → Nat → Nat → Option (List Nat)
  | 0, _, _ => none
  | fuel + 1, addr, n =>
    match s.mapOf addr 1 with
    | none => none
    | some i =>
      let left := s.mapBase i + s.mapBytes i - addr
      if n ≤ left then some [i] else (coverFrom s fuel (addr + left) (n - left)).map (fun l => i :: l)

def State.cover (s : State) (addr n : Nat) : Option (List Nat) := coverFrom s (s.mapEntries.length + 1) addr (max 1 n)

/-- A range lies in POOL entries. -/
def State.inPoolEntry (s : State) (addr n : Nat) : Bool :=
  match s.cover addr n with
  | some l => l.all (fun i => s.reg .FAM_MAP_DEST_KIND i == 1)
  | none => false

/-- The PEER entry of a device. -/
def State.peerEntry (s : State) (device : Nat) : Option Nat :=
  s.mapEntries.find? (fun i => s.reg .FAM_MAP_DEST_DEVICE i == device && s.reg .FAM_MAP_DEST_KIND i == 2)

/-- Ports of an entry that are UP or DEGRADED (R374, R378). -/
def State.usablePorts (s : State) (i : Nat) : List Nat :=
  (List.range 8).filter (fun n => bitAt (s.reg .FAM_MAP_PORTS_PORTS i) n
    && (s.pageState (pgFab + n) == 3 || s.pageState (pgFab + n) == 4))

/-- The port on which a request leaves, by the fixed hash. -/
def State.portFor (s : State) (i device addr : Nat) : Option Nat :=
  let l := s.usablePorts i
  if l.isEmpty then none else l[Config.portHash device (addr / 4096) % l.length]?

/-- The IDE stream of an entry, if it has one, is ACTIVE, and a stream that is bound to a tenant carries that tenant's data
alone (R390, R453, R454). -/
def State.streamOk (s : State) (i : Nat) (tenant : Option Nat := none) : Bool :=
  let n := s.reg .FAM_MAP_PORTS_IDE_STREAM i
  n == 0 || (((s.sec.streams.get? n).map (·.active)).getD false
    && (!s.regBit .SEC3_STREAM_CFG_BOUND n || tenant == some (s.reg .SEC3_STREAM_CFG_TENANT n)))

/-- A request to a target may be issued: FAM is ENABLED and the device id is not marked dead (R389, R407). -/
def State.mayReach (s : State) (device : Nat) : Bool := s.enabled pgFam && !s.fam.dead.contains device

/-- A range of fabric addresses is mapped (R376). -/
def State.mapped (s : State) (addr n : Nat) : Bool := (s.cover addr n).isSome

/-- A range is mapped, FAM is ENABLED, no target of it is dead, and its streams carry the data of `tenant`
(R376, R389, R407, R453). -/
def State.fabricOk (s : State) (addr n : Nat) (tenant : Option Nat := none) : Bool :=
  match s.cover addr n with
  | some l => l.all (fun i => s.mayReach (s.reg .FAM_MAP_DEST_DEVICE i) && s.streamOk i tenant)
  | none => false

/-- A range has bytes at a device. -/
def State.atDevice (s : State) (addr n device : Nat) : Bool :=
  match s.cover addr n with
  | some l => l.any (fun i => s.reg .FAM_MAP_DEST_DEVICE i == device)
  | none => false

/-- The parts of the state mover's pool extent at targets that can be reached, as (first address, length) (R157, R375). -/
def State.poolParts (s : State) : List (Nat × Nat) :=
  let base := s.reg .STM_POOL_BASE_ADDR * 4096
  let lim := base + s.reg .STM_POOL_SIZE_GIB * 2 ^ 30
  s.mapEntries.filterMap (fun i =>
    let lo := max base (s.mapBase i)
    let hi := min lim (s.mapBase i + s.mapBytes i)
    if lo < hi ∧ s.mayReach (s.reg .FAM_MAP_DEST_DEVICE i) = true ∧ s.streamOk i = true ∧ s.reg .FAM_MAP_DEST_KIND i = 1 then some (lo, hi - lo) else none)

/-- The 64 KiB pool locations of a range. -/
def poolLocations (addr bytes : Nat) : List Nat := (List.range (ceilDiv bytes 65536)).map (fun i => addr / 65536 + i)

/-- No location of a range has a generation of 0xFFFF_FFFF (R447). -/
def State.poolFresh (s : State) (addr bytes : Nat) : Bool :=
  (poolLocations addr bytes).all (fun l => decide (s.stm.poolGen.getD l 0 < 0xFFFFFFFF))

/-- A 64 KiB-aligned address in the pool extent, from free value number `k` (log entry 12): the first from there on whose locations
are not exhausted (R118, R447). -/
def State.poolAddr (s : State) (k bytes : Nat) : Nat :=
  let l := s.poolParts
  let w := (Config.freeWord k).toNat
  match l[w % max 1 l.length]? with
  | some (lo, n) =>
    let first := lo + w / 65536 % max 1 (n / 65536) * 65536
    (((List.range ((s.stm.poolGen.size + 1) * (ceilDiv bytes 65536 + 1))).map (fun i => first + i * 65536)).find?
      (fun a => s.poolFresh a bytes)).getD first
  | none => 0

/-- The locations of a range are allotted: their generations go up (R447). -/
def State.allotPool (s : State) (addr bytes : Nat) : State :=
  { s with stm := { s.stm with poolGen := (poolLocations addr bytes).foldl (fun m l => m.set l (m.getD l 0 + 1)) s.stm.poolGen } }

/-- The GCM nonce of a tile at a pool address: the address, then the generation of its location (R447). -/
def State.poolNonce (s : State) (addr : Nat) : List Byte := leBytes addr 8 ++ leBytes (s.stm.poolGen.getD (addr / 65536) 0) 4

/-- This device's own quiet window is open: its requests wait before issue (R460, R465). -/
def State.ownQuiet (s : State) : Bool := (s.sec.pass.map (fun p => !p.windowShut)).getD false

/-- A target in its quiet span, or any target in this device's own quiet window (R388, R465). -/
def State.isQuiet (s : State) (device : Nat) : Bool :=
  s.ownQuiet ||
  ((s.fam.quiet.get? device).map (fun t => decide (s.tick < t))).getD false

/-- Count a request issued on a port. -/
def State.countReq (s : State) (port : Option Nat) : State :=
  let s := s.bump .FAM_REQS_COUNT
  match port with
  | some n => s.bump .FAB_REQS_COUNT n
  | none => s

/-- Requests now outstanding, as FAM_OUTSTANDING shows them: peer writes that have left on a port, and CAS operations. -/
def State.outstanding (s : State) : Nat := (s.fam.reqs.values.filter (fun r => r.port.isSome)).length + s.fam.cas.size

/-- Ticks of the response timeout (R389, R406). -/
def State.timeoutTicks (s : State) : Nat := max 100 (s.reg .FAM_TIMEOUT_US) * 1000

/-! ## Lease words (R394) and the CAS operations on them (R395) -/

def leaseWord (epoch state owner offeree : Nat) : Nat :=
  epoch % 2 ^ 24 * 2 ^ 40 + state % 256 * 2 ^ 32 + owner % 65536 * 65536 + offeree % 65536

def owned (epoch owner : Nat) : Nat := leaseWord epoch 1 owner 0
def offered (epoch owner offeree : Nat) : Nat := leaseWord epoch 2 owner offeree
def lostWord (epoch owner : Nat) : Nat := leaseWord epoch 3 owner 0

def leaseEpochOf (w : Nat) : Nat := bitsOf w 40 24
def leaseStateOf (w : Nat) : Nat := bitsOf w 32 8
def leaseOwnerOf (w : Nat) : Nat := bitsOf w 16 16
def leaseOffereeOf (w : Nat) : Nat := bitsOf w 0 16

/-- This device's id. -/
def State.self (s : State) : Nat := s.reg .FAM_SELF_DEVICE

/-- The next lease epoch, modulo 2^24. -/
def nextEpoch (e : Nat) : Nat := (e + 1) % 2 ^ 24

/-- The expected and the new word of an operation for a session at epoch `e`. -/
def State.casWords (s : State) (op : LeaseOp) (e : Nat) : Nat × Nat :=
  match op with
  | .create t => (0, offered 0 s.self t)
  | .offer t => (owned e s.self, offered e s.self t)
  | .accept src => (offered e src s.self, owned (nextEpoch e) s.self)
  | .withdraw t => (offered e s.self t, owned (nextEpoch e) s.self)
  | .reclaim w => (w, owned (nextEpoch (leaseEpochOf w)) s.self)
  | .markLost => (owned e s.self, lostWord e s.self)
  | .release => (owned e s.self, 0)

/-- The home of a lease word answers: FAM is ENABLED, an entry maps the word, and its device is not marked dead. -/
def State.homeReachable (s : State) (addr : Nat) : Bool :=
  match s.targetOf addr with
  | some d => s.mayReach d
  | none => false

/-- Count a lease operation or read that is issued, or the refusal at a dead target or outside the map (R376, R389). -/
def State.countLease (s : State) (addr : Nat) : State :=
  match s.mapOf addr 8 with
  | none => s.bump .FAM_MAP_MISSES_COUNT
  | some i =>
    let d := s.reg .FAM_MAP_DEST_DEVICE i
    if s.mayReach d then s.countReq (s.portFor i d addr)
    else if s.fam.dead.contains d then s.bump .FAM_REFUSED_DEAD_COUNT else s

/-- Issue a CAS, or hold it behind the one that is outstanding on its word. -/
def State.casIssue (s : State) (addr slot e : Nat) (op : LeaseOp) : State :=
  let w := s.casWords op e
  let l := s.fam.cas.getD addr []
  let s := if l.isEmpty then s.countLease addr else s
  { s with fam := { s.fam with cas := s.fam.cas.set addr (l ++ [{ slot := slot, op := op, expect := w.1, word := w.2 }]) } }

/-- A mark lost or release of a leased session whose home can be reached; it changes nothing here whatever its outcome. -/
def State.casIfLeased (s : State) (slot : Nat) (op : LeaseOp) : State :=
  match s.session? slot with
  | some x => if x.leased && x.residency != .away && s.homeReachable x.leaseAddr then
      s.casIssue x.leaseAddr slot x.leaseEpoch op else s
  | none => s

end Sys2Proof.Machine
end

