-- ==== Sys2Proof/Machine/Float.lean ====
section
/-!
DEFINITION. The number formats of the device, exact values, rounding to nearest with ties to even, and the arithmetic of
the vector engine in binary32 (R196 to R198, R211).
-/
namespace Sys2Proof.Machine

/-! ## Exact values -/

/-- What an element of a format stands for: NaN, an infinity, or (-1)^neg * m * 2^e. -/
inductive Fl
  | nan
  | inf (neg : Bool)
  | fin (neg : Bool) (m : Nat) (e : Int)
  deriving DecidableEq, Repr

/-- 2^k for k at or above 0, else 1. -/
def twoTo (k : Int) : Nat := 2 ^ k.toNat

/-- A signed value over 2^e as an exact value; a sum of 0 is +0 (R209). -/
def Fl.ofInt (v : Int) (e : Int) : Fl := .fin (decide (v < 0)) v.natAbs e

/-- The signed mantissa of a finite value brought to exponent `e`, which is at most its own. -/
def signedAt (neg : Bool) (m : Nat) (e0 e : Int) : Int :=
  let k : Int := (m * twoTo (e0 - e) : Nat)
  if neg then -k else k

/-- The exact sum, infinities and signs of zero as IEEE 754 gives them. -/
def Fl.add : Fl → Fl → Fl
  | .nan, _ => .nan
  | _, .nan => .nan
  | .inf a, .inf b => if a = b then .inf a else .nan
  | .inf a, _ => .inf a
  | _, .inf b => .inf b
  | .fin a m e, .fin b n f =>
    if m = 0 ∧ n = 0 then .fin (a && b) 0 0
    else
      let g := min e f
      Fl.ofInt (signedAt a m e g + signedAt b n f g) g

def Fl.neg : Fl → Fl
  | .nan => .nan
  | .inf a => .inf (!a)
  | .fin a m e => .fin (!a) m e

/-- The exact product. -/
def Fl.mul : Fl → Fl → Fl
  | .nan, _ => .nan
  | _, .nan => .nan
  | .inf a, .inf b => .inf (a != b)
  | .inf a, .fin b n _ => if n = 0 then .nan else .inf (a != b)
  | .fin a m _, .inf b => if m = 0 then .nan else .inf (a != b)
  | .fin a m e, .fin b n f => .fin (a != b) (m * n) (e + f)

def Fl.isZero : Fl → Bool
  | .fin _ m _ => m == 0
  | _ => false

def Fl.isNan : Fl → Bool
  | .nan => true
  | _ => false

/-- Strictly less, false with a NaN; +0 equals -0. -/
def Fl.lt : Fl → Fl → Bool
  | .nan, _ => false
  | _, .nan => false
  | .inf a, .inf b => a && !b
  | .inf a, .fin _ _ _ => a
  | .fin _ _ _, .inf b => !b
  | .fin a m e, .fin b n f =>
    let g := min e f
    decide (signedAt a m e g < signedAt b n f g)

def Fl.abs : Fl → Fl
  | .nan => .nan
  | .inf _ => .inf false
  | .fin _ m e => .fin false m e

/-! ## Formats -/

/-- What a format makes of a finite overflow (R198). -/
inductive OverRule
  | toInf | saturate
  deriving DecidableEq, Repr

/-- A binary floating-point element format (R196): field widths, bias, its largest code, what an overflow and an infinity
become, and the NaN code if it has one. -/
structure Fmt where
  ebits : Nat
  mbits : Nat
  bias : Int
  /-- Code of the largest finite magnitude. -/
  maxCode : Nat
  overflow : OverRule
  /-- Code of infinity, where the format has one. -/
  infCode : Option Nat
  /-- Code of the NaN produced, and lowest magnitude code that is NaN. -/
  nanCode : Option Nat
  nanFrom : Option Nat
  deriving DecidableEq, Repr

def fmtB32 : Fmt := ⟨8, 23, 127, 0x7F7FFFFF, .toInf, some 0x7F800000, some 0x7FC00000, some 0x7F800001⟩
def fmtB16 : Fmt := ⟨5, 10, 15, 0x7BFF, .toInf, some 0x7C00, some 0x7E00, some 0x7C01⟩
def fmtBf16 : Fmt := ⟨8, 7, 127, 0x7F7F, .toInf, some 0x7F80, some 0x7FC0, some 0x7F81⟩
def fmtE4m3 : Fmt := ⟨4, 3, 7, 0x7E, .saturate, none, some 0x7F, some 0x7F⟩
def fmtE5m2 : Fmt := ⟨5, 2, 15, 0x7B, .saturate, some 0x7C, some 0x7E, some 0x7D⟩
def fmtE3m2 : Fmt := ⟨3, 2, 3, 0x1F, .saturate, none, none, none⟩
def fmtE2m3 : Fmt := ⟨2, 3, 1, 0x1F, .saturate, none, none, none⟩
def fmtE2m1 : Fmt := ⟨2, 1, 1, 0x07, .saturate, none, none, none⟩

/-- Bits of an element. -/
def Fmt.width (f : Fmt) : Nat := 1 + f.ebits + f.mbits

/-- The value of a code (R196). -/
def Fmt.decode (f : Fmt) (c : Nat) : Fl :=
  let neg := bitAt c (f.ebits + f.mbits)
  let mag := c % 2 ^ (f.ebits + f.mbits)
  if f.infCode = some mag then .inf neg
  else if (f.nanFrom.map (fun n => decide (n ≤ mag))).getD false then .nan
  else
    let ex := mag / 2 ^ f.mbits
    let m := mag % 2 ^ f.mbits
    if ex = 0 then .fin neg m (1 - f.bias - f.mbits)
    else .fin neg (m + 2 ^ f.mbits) (ex - f.bias - f.mbits)

/-- `m / 2^k` to the nearest integer, ties to even; `sticky` says that the true value lies above `m / 2^k`. -/
def rneShift (m k : Nat) (sticky : Bool) : Nat :=
  let q := m / 2 ^ k
  let r := m % 2 ^ k
  if k = 0 then q
  else
    let half := 2 ^ (k - 1)
    if half < r ∨ (r = half ∧ (sticky = true ∨ q % 2 = 1)) then q + 1 else q

/-- The magnitude code of m * 2^e rounded to nearest even (with `sticky` the true value lies just above), before
overflow is looked at (R198). -/
def Fmt.roundMag (f : Fmt) (m : Nat) (e : Int) (sticky : Bool) : Nat :=
  if m = 0 then 0
  else
    let top : Int := e + (Nat.log2 m : Int)
    let q : Int := max (top - f.mbits) (1 - f.bias - f.mbits)
    let n := if e ≥ q then m * twoTo (e - q) else rneShift m (q - e).toNat sticky
    -- n * 2^q; the exponent field counts n's leading bit
    let field : Nat := (q - (1 - f.bias - f.mbits)).toNat
    n + field * 2 ^ f.mbits

/-- Code of a value in a format, and whether it saturated (R198). -/
def Fmt.encode (f : Fmt) (x : Fl) (sticky : Bool := false) : Nat × Bool :=
  let signBit (b : Bool) : Nat := if b then 2 ^ (f.ebits + f.mbits) else 0
  match x with
  | .nan => (f.nanCode.getD 0, false)
  | .inf b =>
    match f.infCode with
    | some c => (signBit b + c, false)
    | none => (signBit b + f.maxCode, true)
  | .fin b m e =>
    let mag := f.roundMag m e sticky
    if mag ≤ f.maxCode then (signBit b + mag, false)
    else match f.overflow with
      | .toInf => (signBit b + f.infCode.getD f.maxCode, false)
      | .saturate => (signBit b + f.maxCode, true)

/-! ## binary32 (R211) -/

/-- The value of a binary32 word. -/
def f32 (w : Word) : Fl := fmtB32.decode w.toNat

/-- A value rounded to binary32; NaN is 0x7FC0_0000. -/
def toF32 (x : Fl) (sticky : Bool := false) : Word := BitVec.ofNat 32 (fmtB32.encode x sticky).1

def f32zero : Word := 0
def f32one : Word := 0x3F800000
def f32negInf : Word := 0xFF800000
def f32nan : Word := 0x7FC00000

def fadd (a b : Word) : Word := toF32 ((f32 a).add (f32 b))
def fsub (a b : Word) : Word := toF32 ((f32 a).add (f32 b).neg)
def fmul (a b : Word) : Word := toF32 ((f32 a).mul (f32 b))
def flt (a b : Word) : Bool := (f32 a).lt (f32 b)
def fisNan (a : Word) : Bool := (f32 a).isNan

/-- The larger of two; a NaN operand gives NaN. -/
def fmax (a b : Word) : Word :=
  if fisNan a || fisNan b then f32nan else if flt a b then b else a

/-- The integer n as binary32, rounded once. -/
def f32OfInt (n : Int) : Word := toF32 (Fl.ofInt n 0)

/-- num / den with sign, rounded to binary32 once; `sticky` says that the true magnitude lies above the quotient. The
quotient is taken to 64 bits below its leading one. -/
def roundRat (neg : Bool) (num den : Nat) (e : Int) (sticky : Bool) : Word :=
  if num = 0 ∨ den = 0 then toF32 (.fin neg 0 0)
  else
    let k : Nat := (64 + Nat.log2 den) - Nat.log2 num
    let n := num * 2 ^ k
    let q := n / den
    -- two more bits keep the remainder and the stickiness apart from an exact tie
    let low := if n % den = 0 ∧ sticky = false then 0 else 1
    toF32 (.fin neg (q * 4 + low) (e - k - 2))

def frecip (a : Word) : Word :=
  match f32 a with
  | .nan => f32nan
  | .inf b => toF32 (.fin b 0 0)
  | .fin b m e => if m = 0 then toF32 (.inf b) else roundRat b 1 m (-e) false

def fdiv (a b : Word) : Word :=
  match f32 a, f32 b with
  | .nan, _ => f32nan
  | _, .nan => f32nan
  | .inf _, .inf _ => f32nan
  | .inf s, .fin t _ _ => toF32 (.inf (s != t))
  | .fin s _ _, .inf t => toF32 (.fin (s != t) 0 0)
  | .fin s m e, .fin t n f =>
    if n = 0 then (if m = 0 then f32nan else toF32 (.inf (s != t)))
    else roundRat (s != t) m n (e - f) false

/-- Integer square root, bit by bit from 2^k. -/
def isqrtBits (n : Nat) : Nat → Nat → Nat
  | 0, r => r
  | k + 1, r =>
    let c := r + 2 ^ k
    isqrtBits n k (if c * c ≤ n then c else r)

/-- 1 / sqrt(x), correctly rounded; rSqrt of IEEE 754-2019 9.2. -/
def frsqrt (a : Word) : Word :=
  match f32 a with
  | .nan => f32nan
  | .inf false => f32zero
  | .inf true => f32nan
  | .fin s m e =>
    if m = 0 then toF32 (.inf s)
    else if s then f32nan
    else
      -- m * 2^e with e made even; 1/sqrt = sqrt(2^160 / m) * 2^(-80 - e/2)
      let (m, e) := if e % 2 = 0 then (m, e) else (2 * m, e - 1)
      let q := 2 ^ 200 / m
      let r := isqrtBits q 101 0
      let exact := r * r * m == 2 ^ 200
      toF32 (.fin false (r * 4 + (if exact then 0 else 1)) (-100 - e / 2 - 2))

/-! ### exp, log2, tanh, sigmoid in 256-bit fixed point -/

/-- Fraction bits of the fixed-point work. -/
def fxBits : Nat := 256

/-- ln 2 * 2^320, rounded down: sum of 1 / (k * 2^k). -/
def ln2Scaled : Nat → Nat → Nat
  | 0, _ => 0
  | fuel + 1, k => 2 ^ 320 / (k * 2 ^ k) + ln2Scaled fuel (k + 1)

def ln2Fx : Nat := ln2Scaled 320 1 / 2 ^ 64

/-- Sum of r^n / n! in fixed point, r in [0, 1). -/
def expSeries (r : Nat) : Nat → Nat → Nat → Nat
  | 0, _, _ => 0
  | fuel + 1, n, term => term + expSeries r fuel (n + 1) (term * r / 2 ^ fxBits / n)

/-- e^x for a finite x = (-1)^neg * m * 2^e of magnitude below 2^8: mantissa M and exponent k with value
M * 2^(k - 256), M in [2^256, 2^257) to about 250 bits. -/
def expParts (neg : Bool) (m : Nat) (e : Int) : Nat × Int :=
  -- |x| in fixed point
  let ax : Nat := if e + fxBits ≥ 0 then m * twoTo (e + fxBits) else m / twoTo (-(e + fxBits))
  let v : Int := if neg then -(ax : Int) else (ax : Int)
  let k : Int := v / (ln2Fx : Int)
  let r : Nat := (v - k * (ln2Fx : Int)).toNat
  (expSeries r 80 1 (2 ^ fxBits), k)

/-- exp, correctly rounded (R211). -/
def fexp (a : Word) : Word :=
  match f32 a with
  | .nan => f32nan
  | .inf false => toF32 (.inf false)
  | .inf true => f32zero
  | .fin s m e =>
    if m = 0 then f32one
    else if (Nat.log2 m : Int) + e ≥ 8 then (if s then f32zero else toF32 (.inf false))
    else if (Nat.log2 m : Int) + e < -30 then toF32 (.fin false (if s then 2 ^ 40 - 1 else 2 ^ 40 + 1) (-40))
    else
      let (M, k) := expParts s m e
      toF32 (.fin false (M * 2 + 1) (k - fxBits - 1))

/-- Fraction bits of log2 of y / 2^256, y in [2^256, 2^257), by repeated squaring. -/
def log2Bits : Nat → Nat → Nat → Nat
  | 0, _, acc => acc
  | fuel + 1, y, acc =>
    let z := y * y / 2 ^ fxBits
    if 2 ^ (fxBits + 1) ≤ z then log2Bits fuel (z / 2) (2 * acc + 1) else log2Bits fuel z (2 * acc)

/-- log2, correctly rounded (R211). -/
def flog2 (a : Word) : Word :=
  match f32 a with
  | .nan => f32nan
  | .inf false => toF32 (.inf false)
  | .inf true => f32nan
  | .fin s m e =>
    if m = 0 then f32negInf
    else if s then f32nan
    else
      let t := Nat.log2 m
      let n : Int := e + t
      if m = 2 ^ t then f32OfInt n
      else
        let frac := log2Bits 120 (m * 2 ^ (fxBits - t)) 0
        -- n + frac / 2^120, with more below
        let v : Int := (n * (2 ^ 120 : Nat) + frac) * 2 + 1
        toF32 (Fl.ofInt v (-121))

/-- sigmoid: 1 / (1 + e^(-x)), rounded once (R211). -/
def fsigmoid (a : Word) : Word :=
  match f32 a with
  | .nan => f32nan
  | .inf false => f32one
  | .inf true => f32zero
  | .fin s m e =>
    if m = 0 then 0x3F000000
    else if (Nat.log2 m : Int) + e ≥ 8 then (if s then f32zero else f32one)
    else if (Nat.log2 m : Int) + e < -60 then
      toF32 (.fin false (if s then 2 ^ 100 - 1 else 2 ^ 100 + 1) (-101))
    else
      let (M, k) := expParts s m e
      -- e^x / (1 + e^x) with e^x = M * 2^(k - 256)
      if k ≥ fxBits then roundRat false (M * twoTo (k - fxBits)) (M * twoTo (k - fxBits) + 1) 0 true
      else roundRat false M (M + twoTo (fxBits - k)) 0 true

/-- tanh, correctly rounded (R211). Below 2^-12 the nearest binary32 value is the argument. -/
def ftanh (a : Word) : Word :=
  match f32 a with
  | .nan => f32nan
  | .inf s => toF32 (.fin s 1 0)
  | .fin s m e =>
    if m = 0 then a
    else if (Nat.log2 m : Int) + e ≥ 5 then toF32 (.fin s 1 0)
    else if (Nat.log2 m : Int) + e < -13 then a
    else
      -- (E - 1) / (E + 1) with E = e^(2|x|)
      let (M, k) := expParts false m (e + 1)
      if k ≥ fxBits then
        roundRat s (M * twoTo (k - fxBits) - 1) (M * twoTo (k - fxBits) + 1) 0 true
      else roundRat s (M - twoTo (fxBits - k)) (M + twoTo (fxBits - k)) 0 true

/-! ## Sums in the device's order (R209, R210) -/

/-- One level of pairwise sums of adjacent terms; an absent term is +0. -/
def pairUp : List Word → List Word
  | [] => []
  | [a] => [fadd a f32zero]
  | a :: b :: l => fadd a b :: pairUp l

/-- `n` levels of pairwise sums. -/
def treeLevels : Nat → List Word → List Word
  | 0, l => l
  | n + 1, l => treeLevels n (pairUp l)

/-- tree(x) of R209 over a list of at most 2^n terms. -/
def fsumTree (n : Nat) (l : List Word) : Word := (treeLevels n l).headD f32zero

/-- A vector-engine reduction (R210): chunks of 256 by the pairwise tree, chunk sums in turn. -/
def fsum (l : List Word) : Word :=
  (chunks 256 l.length l).foldl (fun acc c => fadd acc (fsumTree 8 c)) f32zero

end Sys2Proof.Machine
end

