-- ==== Sys2Proof/Machine/Numeric.lean ====
section
/-!
DEFINITION. What the engines of a core compute: conversions and quantization (R196 to R199), matrix products (R201 to R209),
attention partials and merges (R231, R232, R234), the summary bound (R237), expert routing and grouping (R240, R241, R245),
and the sort-unique engine (R195).
-/
namespace Sys2Proof.Machine

/-- A row of an operand: element codes, block scale codes where the format has them, and the nibbles of 2:4 sparsity where the row
is stored so (R196, R197, R204). -/
structure MRow where
  elems : List Nat
  scales : List Nat := []
  nibbles : List Nat := []
  deriving DecidableEq, Repr

/-! ## Elements of the 18 formats (R196) -/

/-- The scalar float format of a format code, or of the elements of a block format. -/
def fmtOf : Nat → Option Fmt
  | 0x01 => some fmtB32
  | 0x02 => some fmtB16
  | 0x03 => some fmtBf16
  | 0x04 => some fmtE4m3
  | 0x05 => some fmtE5m2
  | 0x06 => some fmtE3m2
  | 0x07 => some fmtE2m3
  | 0x08 => some fmtE2m1
  | 0x09 => some fmtE4m3
  | 0x0A => some fmtE2m3
  | 0x0B => some fmtE2m1
  | 0x12 => some fmtE2m1
  | _ => none

/-- A two's-complement code of `w` bits. -/
def signedCode (w c : Nat) : Int := if c % 2 ^ w < 2 ^ (w - 1) then (c % 2 ^ w : Nat) else (c % 2 ^ w : Nat) - (2 ^ w : Nat)

/-- The value of an element code without its scales. -/
def elemValue (f c : Nat) : Fl :=
  match fmtOf f with
  | some m => m.decode c
  | none =>
    if f = 0x0C then Fl.ofInt (signedCode 8 c) (-6)
    else if f = 0x0D then Fl.ofInt (signedCode 8 c) 0
    else if f = 0x0E then Fl.ofInt (signedCode 4 c) 0
    else if f = 0x0F then Fl.ofInt (signedCode 32 c) 0
    else if f = 0x10 then (if c % 4 = 1 then Fl.ofInt 1 0 else if c % 4 = 3 then Fl.ofInt (-1) 0 else .fin false 0 0)
    else if f = 0x11 then Fl.ofInt (if c % 2 = 1 then 1 else -1) 0
    else .nan

/-- A format with block scales of 32 elements. -/
def isBlock (f : Nat) : Bool := f == 0x09 || f == 0x0A || f == 0x0B || f == 0x0C || f == 0x12

/-- The value of a block scale: E8M0 for the MX formats, UE5M3 for Cane4; 0xFF is NaN. -/
def scaleValue (f s : Nat) : Fl :=
  if s = 0xFF then .nan
  else if f = 0x12 then
    let e := s / 8
    if e = 0 then .fin false (s % 8) (-17) else .fin false (8 + s % 8) (e - 18)
  else .fin false 1 (s - 127)

/-- A block scale as binary32; 1.0 for a format without scales (R209). -/
def scaleWord (f : Nat) (scales : List Nat) (block : Nat) : Word :=
  if isBlock f then toF32 (scaleValue f (scales.getD block 127)) else f32one

/-! ## Packing (R197, R204) -/

/-- Bits of an element of a format (R196). -/
def elemBits (f : Nat) : Nat :=
  if f = 0x01 ∨ f = 0x0F then 32
  else if f = 0x02 ∨ f = 0x03 then 16
  else if f = 0x06 ∨ f = 0x07 ∨ f = 0x0A then 6
  else if f = 0x08 ∨ f = 0x0B ∨ f = 0x0E ∨ f = 0x12 then 4
  else if f = 0x10 then 2
  else if f = 0x11 then 1
  else 8

/-- `n` elements of `b` bits from packed bytes: element i in bits [b·i + b - 1 : b·i] of the little-endian number they spell. -/
def unpackElems (b n : Nat) (bytes : List Byte) : List Nat :=
  let v := leNat bytes
  (List.range n).map (fun i => bitsOf v (b * i) b)

/-- The packed bytes of elements of `b` bits. -/
def packElems (b : Nat) (l : List Nat) : List Byte :=
  leBytes (l.foldr (fun c v => c % 2 ^ b + 2 ^ b * v) 0) (ceilDiv (b * l.length) 8)

/-- Bytes of the values, the sparsity metadata and the scales of a row of `k` elements. -/
def rowDataBytes (f k : Nat) (sparse : Bool) : Nat := ceilDiv ((if sparse then k / 2 else k) * elemBits f) 8
def rowMetaBytes (k : Nat) (sparse : Bool) : Nat := if sparse then ceilDiv k 8 else 0
def rowScaleBytes (f k : Nat) : Nat := if isBlock f then ceilDiv k 32 else 0

/-- A row of `k` elements from the bytes that store it: packed values, then the metadata of a sparse row, then a scale per
block. -/
def MRow.ofBytes (f k : Nat) (sparse : Bool) (bytes : List Byte) : MRow :=
  let n := rowDataBytes f k sparse
  let m := rowMetaBytes k sparse
  { elems := unpackElems (elemBits f) (if sparse then k / 2 else k) (bytes.take n)
    nibbles := if sparse then unpackElems 4 (k / 4) (slice bytes n m) else []
    scales := (slice bytes (n + m) (rowScaleBytes f k)).map BitVec.toNat }

/-- The bytes that store a row: values, then scales. -/
def packRow (f : Nat) (elems scales : List Nat) : List Byte :=
  packElems (elemBits f) elems ++ scales.map (BitVec.ofNat 8)

/-- A sparsity nibble is valid: the first position is less than the second (R204). -/
def nibbleOk (n : Nat) : Bool := decide (n % 4 < n / 4 % 4)

/-! ## Conversion (R198) -/

/-- A converted code, whether it saturated, and whether a NaN became 0 or +0. -/
structure Conv where
  code : Nat
  sat : Bool
  nanZero : Bool
  deriving DecidableEq, Repr

/-- Round an exact value to the nearest integer, ties to even. -/
def rneInt (neg : Bool) (m : Nat) (e : Int) : Int :=
  let n : Nat := if e ≥ 0 then m * twoTo e else rneShift m (-e).toNat false
  if neg then -(n : Int) else n

/-- Conversion to a two's-complement code of `w` bits, values lo to hi (R198). -/
def convInt (w : Nat) (lo hi : Int) (x : Fl) : Conv :=
  let code (v : Int) : Nat := (v % (2 ^ w : Nat)).toNat
  match x with
  | .nan => { code := 0, sat := false, nanZero := true }
  | .inf b => { code := code (if b then lo else hi), sat := true, nanZero := false }
  | .fin b m e =>
    let v := rneInt b m e
    if v < lo then { code := code lo, sat := true, nanZero := false }
    else if hi < v then { code := code hi, sat := true, nanZero := false }
    else { code := code v, sat := false, nanZero := false }

/-- Conversion of a value to an element of a format (R198). -/
def convert (f : Nat) (x : Fl) : Conv :=
  match fmtOf f with
  | some m =>
    let (c, s) := m.encode x
    { code := c, sat := s, nanZero := x.isNan && m.nanCode.isNone }
  | none =>
    if f = 0x0C then
      match x with
      | .fin b m e => convInt 8 (-128) 127 (.fin b m (e + 6))
      | y => convInt 8 (-128) 127 y
    else if f = 0x0D then convInt 8 (-128) 127 x
    else if f = 0x0E then convInt 4 (-8) 7 x
    else if f = 0x0F then convInt 32 (-(2 ^ 31 : Nat)) ((2 ^ 31 : Nat) - 1) x
    else if f = 0x10 then convInt 2 (-1) 1 x
    else if f = 0x11 then
      match x with
      | .nan => { code := 1, sat := false, nanZero := false }
      | .inf b => { code := b2n (!b), sat := false, nanZero := false }
      | .fin b _ _ => { code := b2n (!b), sat := false, nanZero := false }
    else { code := 0, sat := false, nanZero := false }

/-! ## Block quantization (R199) -/

/-- The largest magnitude of a list. -/
def amax : List Word → Word
  | [] => f32zero
  | a :: l =>
    let r := amax l
    let x : Word := a &&& 0x7FFFFFFF
    if fisNan x || fisNan r then f32nan else if flt r x then x else r

/-- floor(log2) of a positive finite value. -/
def floorLog2 (x : Fl) : Int :=
  match x with
  | .fin _ m e => (Nat.log2 m : Int) + e
  | _ => 0

/-- Largest exponent e of R199 for a block format. -/
def mxExp (f : Nat) : Int := if f = 0x09 then 8 else if f = 0x0C then 0 else 2

/-- A quantized block: element codes, scale code, and what saturated or became zero. -/
structure QBlock where
  elems : List Nat
  scale : Nat
  sats : Nat
  zeros : Nat
  deriving DecidableEq, Repr

/-- Counts over a list of conversions. -/
def countConv (l : List Conv) : Nat × Nat := ((l.filter (·.sat)).length, (l.filter (·.nanZero)).length)

/-- Quantize one block to an MX format (R199). -/
def quantMx (f : Nat) (l : List Word) : QBlock :=
  if l.any fisNan then { elems := l.map (fun _ => 0), scale := 0xFF, sats := 0, zeros := 0 }
  else
    let a := f32 (amax l)
    let scale : Int := match a with
      | .inf _ => 127
      | x => if x.isZero then -127 else max (-127) (min 127 (floorLog2 x - mxExp f))
    let down (w : Word) : Fl := match f32 w with
      | .fin b m e => .fin b m (e - scale)
      | y => y
    let cs := l.map (fun w => convert f (down w))
    let (s, z) := countConv cs
    { elems := cs.map (·.code), scale := (scale + 127).toNat, sats := s, zeros := z }

/-- num / den rounded up to UE5M3, saturated at 114,688 (R199). -/
def ue5m3Up (num den : Nat) (e : Int) : Nat :=
  -- the smallest code whose value is at least num / den * 2^e
  ((List.range 255).find? (fun c =>
    match scaleValue 0x12 c with
    | .fin _ m k =>
      -- m * 2^k * den ≥ num * 2^e
      let g := min k e
      decide (num * twoTo (e - g) ≤ m * den * twoTo (k - g))
    | _ => false)).getD 0xFE

/-- x / y as an exact ratio of two finite values: numerator, denominator, exponent. -/
def ratio (x y : Fl) : Nat × Nat × Int :=
  match x, y with
  | .fin _ m e, .fin _ n f => (m, n, e - f)
  | _, _ => (0, 1, 0)

/-- v / (scale * t) of R199: the quotient is taken to 80 bits with a bit for the rest, which settles its rounding. -/
def cane4Quot (v : Word) (scale : Fl) (t : Word) : Fl :=
  match f32 v, scale.mul (f32 t) with
  | .fin b m e, .fin _ n k =>
    if n = 0 then (if m = 0 then .nan else .inf b)
    else .fin b (2 * (m * 2 ^ 80 / n) + b2n (m * 2 ^ 80 % n != 0)) (e - k - 81)
  | .fin b _ _, .inf _ => .fin b 0 0
  | .inf b, .fin _ _ _ => .inf b
  | _, _ => .nan

/-- The tensor scale of a row of Cane4 activations: amax / 6 rounded to binary32, 1.0 for a row of zeros (R199). With a NaN in the
row it is taken as NaN, so that every block of the row has the scale 0xFF: the spec does not say (DESIGN CHOICE, log entry 118). -/
def cane4RowScale (row : List Word) : Word :=
  let a := amax row
  if (f32 a).isZero then f32one else fdiv a 0x40C00000

/-- A block whose scale is 0xFF: every element is NaN, whatever its code, which is written as 0 (DESIGN CHOICE, log entry 118). -/
def nanBlock (l : List Word) : QBlock := { elems := l.map (fun _ => 0), scale := 0xFF, sats := 0, zeros := 0 }

/-- Quantize one block of Cane4 with tensor scale t (R199); where an element or its quotient is NaN, the block's scale is 0xFF
(R198). -/
def quantCane4 (t : Word) (l : List Word) : QBlock :=
  let a := f32 (amax l)
  if a.isZero && !fisNan t then { elems := l.map (fun _ => 0), scale := 0, sats := 0, zeros := 0 }
  else
    let code : Nat := match a, f32 t with
      | .inf _, _ => 0xFE
      | _, .inf _ => 0
      | x, y =>
        let (n, d, e) := ratio x (y.mul (.fin false 6 0))
        ue5m3Up n d e
    let qs := l.map (fun w => cane4Quot w (scaleValue 0x12 code) t)
    if qs.any Fl.isNan then nanBlock l
    else
      let cs := qs.map (convert 0x12)
      let (s, z) := countConv cs
      { elems := cs.map (·.code), scale := code, sats := s, zeros := z }

/-! ## Matrix products (R201 to R209) -/

/-- Class of a format as a matrix operand (R201): 0 none, 1 float, 2 integer, 3 binary; ternary takes its partner's. -/
def matClass (f : Nat) : Nat :=
  if f = 0x0D ∨ f = 0x0E then 2
  else if f = 0x11 then 3
  else if f = 0x10 then 4
  else if 0x02 ≤ f ∧ f ≤ 0x0C ∨ f = 0x12 then 1
  else 0

/-- Whether a pairing is one that the matrix engine accepts (R194, R201). Ternary, which R201 lists in both classes, takes its
partner's; ternary with ternary is taken as integer (DEDUCED, log entry 119). -/
def pairOk (fa fb : Nat) : Bool :=
  let a := matClass fa
  let b := matClass fb
  a != 0 && b != 0 && (a == b || (a == 4 && b != 3) || (b == 4 && a != 3))

/-- The elements of a row along K, none where 2:4 sparsity pruned them (R204). -/
def MRow.expand (r : MRow) : List (Option Nat) :=
  if r.nibbles = [] then r.elems.map some
  else
    (r.nibbles.zip (List.range r.nibbles.length)).flatMap (fun (n, g) =>
      [0, 1, 2, 3].map (fun p =>
        if n % 4 = p then r.elems[2 * g]? else if n / 4 % 4 = p then r.elems[2 * g + 1]? else none))

/-- A product (R202): +0 where the A element is ±0 or the B element is pruned; else exact, rounded once. -/
def product (fa fb : Nat) (a : Nat) (b : Option Nat) : Word :=
  match b with
  | none => f32zero
  | some bb => if (elemValue fa a).isZero then f32zero else toF32 ((elemValue fa a).mul (elemValue fb bb))

/-- The scaled sum of one group (R209). -/
def groupSum (fa fb : Nat) (a b : MRow) (prods : List Word) (block : Nat) : Word :=
  fmul (fmul (fsumTree 6 prods) (scaleWord fa a.scales block)) (scaleWord fb b.scales block)

/-- One chunk of 64 elements, `at'` elements from the start (R209). -/
def chunkSum (fa fb : Nat) (a b : MRow) (prods : List Word) (at' : Nat) : Word :=
  let g := if isBlock fa || isBlock fb then 32 else 64
  let gs := chunks g prods.length prods
  let leaves := (gs.zip (List.range gs.length)).map (fun (p, i) => groupSum fa fb a b p (at' / 32 + i))
  fsumTree 1 leaves

/-- The sum of one split, `at'` elements from the start: its chunks of 64 in turn (R209). -/
def splitSum (fa fb : Nat) (a b : MRow) (prods : List Word) (at' : Nat) : Word :=
  let cs := chunks 64 prods.length prods
  (cs.zip (List.range cs.length)).foldl (fun p (c, i) => fadd p (chunkSum fa fb a b c (at' + 64 * i))) f32zero

/-- A float-class element of a product, before the tensor and channel scales (R209): splits of the layer's split length, one
split where the layer program gives none (R210). -/
def dotFloat (fa fb : Nat) (a b : MRow) (split : Nat) : Word :=
  let prods := (a.elems.zip b.expand).map (fun (x, y) => product fa fb x y)
  let n := if split = 0 then prods.length else split
  let ss := chunks n prods.length prods
  (ss.zip (List.range ss.length)).foldl (fun acc (p, i) => fadd acc (splitSum fa fb a b p (n * i))) f32zero

/-- The integer of an element of an integer-class operand. -/
def elemInt (f c : Nat) : Int :=
  if f = 0x0D then signedCode 8 c
  else if f = 0x0E then signedCode 4 c
  else if c % 4 = 1 then 1 else if c % 4 = 3 then -1 else 0

/-- An integer-class sum: exact (R201). -/
def dotInt (fa fb : Nat) (a b : MRow) : Int :=
  ((a.elems.zip b.expand).map (fun (x, y) => match y with
    | some c => elemInt fa x * elemInt fb c
    | none => 0)).sum

/-- A binary-class count of differing bits (R201). -/
def hamming (a b : MRow) : Nat := ((a.elems.zip b.elems).filter (fun (x, y) => x % 2 != y % 2)).length

/-- What a tile puts out: words, and the counts of R198 and R203. -/
structure TileOut where
  words : List Nat := []
  sats : Nat := 0
  zeros : Nat := 0
  skips : Nat := 0
  sparse : Bool := false
  deriving DecidableEq, Repr

/-- Rows of outputs joined, counts added. -/
def TileOut.join (l : List TileOut) : TileOut :=
  { words := l.flatMap (·.words), sats := (l.map (·.sats)).sum, zeros := (l.map (·.zeros)).sum }

/-- Conversion or quantization of a row of binary32 values to a format, packed (R197 to R199), with what it counts. The tensor
scale of a Cane4 row follows its bytes. -/
def quantizeRow (f : Nat) (a : List Word) : TileOut :=
  let bytes (elems scales : List Nat) : List Nat := (packRow f elems scales).map BitVec.toNat
  if isBlock f then
    let t := cane4RowScale a
    let bs := (chunks 32 a.length a).map (if f = 0x12 then quantCane4 t else quantMx f)
    { words := bytes (bs.flatMap (·.elems)) (bs.map (·.scale)) ++ (if f = 0x12 then [t.toNat] else [])
      sats := (bs.map (·.sats)).sum, zeros := (bs.map (·.zeros)).sum }
  else
    let cs := a.map (fun w => convert f (f32 w))
    let (s, z) := countConv cs
    { words := bytes (cs.map (·.code)) [], sats := s, zeros := z }

/-- The 16 × 16 tiles of A that are all zero, which the engine skips while ZERO_SKIP_EN is 1 (R203). A tile at the edge of A counts by
the elements it has (log entry 121). -/
def zeroTiles (f : Nat) (rows : List (List Nat)) : Nat :=
  ((chunks 16 rows.length rows).map (fun g =>
    let k := (g.map List.length).foldl max 0
    ((List.range (ceilDiv k 16)).filter (fun j =>
      g.all (fun r => (slice' r (16 * j) 16).all (fun x => (elemValue f x).isZero)))).length)).sum
where
  slice' (r : List Nat) (at' n : Nat) : List Nat := (r.drop at').take n

/-- Readout of an exact integer sum: INT32 saturated, or binary32 rounded once (R201). -/
def readInt (out : Nat) (n : Int) : TileOut :=
  let c : Conv := if out = 0x01 then { code := (f32OfInt n).toNat, sat := false, nanZero := false }
    else convInt 32 (-(2 ^ 31 : Nat)) ((2 ^ 31 : Nat) - 1) (Fl.ofInt n 0)
  { words := (leBytes c.code 4).map BitVec.toNat, sats := b2n c.sat }

/-- A row of A times the rows of B with its readout (R201, R209): `chans` are the channel scales. In a binary layer the count of
differing bits is read out, or K - 2 × count. -/
def matrixRow (fa fb : Nat) (a : MRow) (bs : List MRow) (split : Nat) (tsA tsB : Word) (chans : List Word) (out : Nat)
    (dot : Bool) : TileOut :=
  if matClass fa = 3 then
    TileOut.join (bs.map (fun b =>
      let n : Int := hamming a b
      readInt out (if dot then a.elems.length - 2 * n else n)))
  else if matClass fa ≠ 1 ∧ matClass fb ≠ 1 then TileOut.join (bs.map (fun b => readInt out (dotInt fa fb a b)))
  else
    quantizeRow out ((bs.zip (List.range bs.length)).map (fun (b, j) =>
      fmul (fmul (fmul (dotFloat fa fb a b split) tsA) tsB) (chans.getD j f32one)))

/-! ## Attention (R231, R232, R234, R237) -/

/-- A page as attention sees it for one KV head: for each of its 256 slots, the codes of the key and of the value where the slot is
valid for the row (R230). -/
abbrev PageKv := List (Option (List Nat × List Nat))

/-- The partial of a page and the probabilities of its slots; none where no slot is valid (R231). `kvf` is KV_FORMAT, `q` the codes
of the query in Q_FORMAT. -/
def attnPartial (a : LayerProg) (kvf page : Nat) (q : List Nat) (kv : PageKv) : Option (Partial × List Word) :=
  let score (e : Option (List Nat × List Nat)) : Word := match e with
    | some (k, _) => fmul (dotFloat a.qFormat kvf { elems := q } { elems := k } a.split) a.scale
    | none => f32negInf
  let s := kv.map score
  let m := s.foldl (fun a b => fmax a b) f32negInf
  if m = f32negInf then none
  else
    let code (x : Word) : Nat := if x = f32negInf then 0 else (convert a.pFormat (f32 (fexp (fsub x m)))).code
    let codes := s.map code
    let pr := codes.map (fun c => toF32 (elemValue a.pFormat c))
    let col (c : Nat) : MRow := { elems := kv.map (fun e => (e.map (fun p => p.2.getD c 0)).getD 0) }
    let o := (List.range a.dv).map (fun c => dotFloat a.pFormat kvf { elems := codes } (col c) a.split)
    some ({ page := page, m := m, l := fsum pr, o := o }, pr)

/-- One step of the merge chain (R232). -/
def mergeTwo (a b : Partial) : Partial :=
  let n := fmax a.m b.m
  let x := fexp (fsub a.m n)
  let y := fexp (fsub b.m n)
  { page := b.page, m := n, l := fadd (fmul a.l x) (fmul b.l y),
    o := (a.o.zip b.o).map (fun (p, q) => fadd (fmul p x) (fmul q y)) }

/-- Insert by rank. -/
def insertBy {α : Type} (before : α → α → Bool) (a : α) : List α → List α
  | [] => [a]
  | b :: l => if before a b then a :: b :: l else b :: insertBy before a l

def sortBy {α : Type} (before : α → α → Bool) (l : List α) : List α := l.foldr (insertBy before) []

/-- The merge of the contributing partials in ascending page index, before the division (R232). -/
def mergeAll (l : List Partial) : Option Partial :=
  match sortBy (fun a b => decide (a.page ≤ b.page)) l with
  | [] => none
  | p :: rest => some (rest.foldl mergeTwo p)

/-- The attention output (R232). -/
def attnOut (l : List Partial) : List Word :=
  match mergeAll l with
  | none => []
  | some p => p.o.map (fun o => fmul o (frecip p.l))

/-- The weights delivered to the eviction scorer (R234). -/
def attnWeights (pr : List Word) (mp m rcp : Word) : List Word :=
  pr.map (fun p => fmul (fmul p (fexp (fsub mp m))) rcp)

/-- The summary bound of a page (R237): per query head, the query's channels with their minimum and maximum. -/
def summaryBound (heads : List (List (Word × Word × Word))) (scale : Word) : Word :=
  heads.foldl (fun u h =>
    fmax u (fmul (fsum (h.map (fun (q, lo, hi) => fmax (fmul q lo) (fmul q hi)))) scale)) f32negInf

/-- Page `a` ranks before page `b` by bound (R238): higher first, NaN last, lower page index among equals. -/
def boundBefore (a b : Nat × Word) : Bool :=
  if fisNan a.2 then fisNan b.2 && decide (a.1 < b.1)
  else if fisNan b.2 then true
  else flt b.2 a.2 || (!flt a.2 b.2 && decide (a.1 < b.1))

/-- The attended set of a decode row (R236): all pages where TOP_P is 255 or covers them, else the forced pages and the
best of the others. `bounds` gives u(p) of the pages that are not forced. -/
def attendedSet (topP pages : Nat) (forced : List Nat) (bounds : List (Nat × Word)) : List Nat :=
  if topP = 255 ∨ pages ≤ topP then List.range pages
  else
    let chosen := ((sortBy boundBefore bounds).take (topP - forced.length)).map (·.1)
    (List.range pages).filter (fun p => forced.contains p || chosen.contains p)

/-! ## Experts (R240, R241, R242, R245) -/

/-- Rank of experts: higher score first, lower index among equals, NaN last (R240). -/
def expertBefore (a b : Nat × Word) : Bool := boundBefore a b

/-- Routing of a row: the chosen experts in rank order with their weights (R240). -/
def routeRow (z bias : List Word) (topK : Nat) (softmax norm : Bool) (scale : Word) : List (Nat × Word) :=
  let g : List Word :=
    if softmax then
      let mx := z.foldl (fun a b => fmax a b) f32negInf
      let e := z.map (fun x => fexp (fsub x mx))
      let r := frecip (fsum e)
      e.map (fun x => fmul x r)
    else z.map fsigmoid
  let sel := (g.zip (List.range g.length)).map (fun (x, j) => (j, match bias[j]? with | some b => fadd x b | none => x))
  let chosen := ((sortBy expertBefore sel).take topK).map (·.1)
  let gs := chosen.map (fun j => (j, g.getD j f32zero))
  let t := gs.foldl (fun acc p => fadd acc p.2) f32zero
  let w (x : Word) : Word := if norm then fmul x (frecip t) else x
  gs.map (fun (j, x) => (j, fmul (w x) scale))

/-- y + x, channel by channel. -/
def addVec (y x : List Word) : List Word := if y = [] then x.map (fadd f32zero) else (y.zip x).map (fun (a, b) => fadd a b)

/-- The sum of the shared experts, ascending, and the weighted chosen experts in ascending index (R240). -/
def combineExperts (sharedOut : List (List Word)) (chosen : List (Word × List Word)) : List Word :=
  let y := sharedOut.foldl addVec []
  chosen.foldl (fun y e => addVec y (e.2.map (fun x => fmul e.1 x))) y

/-- The 48-bit key of a choice (R241). -/
def choiceKey (expert row rank : Nat) : Nat := expert * 2 ^ 24 + row * 16 + rank

/-- The decision of an exit head (R245): sigmoid(z) at least the threshold; NaN never. -/
def exits (z threshold : Word) : Bool :=
  let c := fsigmoid z
  !fisNan c && !flt c threshold

/-- Deal experts to the 8 clusters (R242): descending rows, ascending expert among equals, each to the cluster with the
fewest rows so far. -/
def dealExperts (counts : List (Nat × Nat)) : List (Nat × Nat) :=
  let order := sortBy (fun (a b : Nat × Nat) => decide (b.2 < a.2) || (a.2 == b.2 && decide (a.1 < b.1))) counts
  let step (st : List Nat × List (Nat × Nat)) (e : Nat × Nat) : List Nat × List (Nat × Nat) :=
    let best := (List.range 8).foldl (fun b k => if st.1.getD k 0 < st.1.getD b 0 then k else b) 0
    (st.1.set best (st.1.getD best 0 + e.2), st.2 ++ [(e.1, best)])
  (order.foldl step ([0, 0, 0, 0, 0, 0, 0, 0], [])).2

/-! ## Sort-unique (R195) -/

/-- Keys with their input index, ascending and stable. -/
def sortKeys (keys : List Nat) : List (Nat × Nat) :=
  sortBy (fun (a b : Nat × Nat) => decide (a.1 < b.1) || (a.1 == b.1 && decide (a.2 < b.2)))
    (keys.zip (List.range keys.length))

/-- Sum of payloads of equal keys in ascending input index: binary32, or INT32 with saturation. -/
def mergePayload (isFloat : Bool) (ps : List Word) : Word :=
  match ps with
  | [] => f32zero
  | p :: rest =>
    if isFloat then rest.foldl fadd p
    else rest.foldl (fun a b => BitVec.ofInt 32 (max (-(2 ^ 31 : Nat)) (min ((2 ^ 31 : Nat) - 1) (a.toInt + b.toInt)))) p

/-- Unique keys with count, first input index and merged payload, ascending. -/
def sortUniqueKeys (keys : List Nat) (payloads : List Word) (isFloat : Bool) : List (Nat × Nat × Nat × Word) :=
  let sorted := sortKeys keys
  let uniq := (sorted.map (·.1)).eraseDups
  uniq.map (fun k =>
    let occ := (sorted.filter (fun e => e.1 == k)).map (·.2)
    (k, occ.length, occ.headD 0, mergePayload isFloat (occ.filterMap (fun i => payloads[i]?))))

/-- For each input the index of its unique key. -/
def inverseMap (keys : List Nat) : List Nat :=
  let uniq := ((sortKeys keys).map (·.1)).eraseDups
  keys.map (fun k => (uniq.findIdx? (· == k)).getD 0)

/-! ## Tiles (R206) -/

def outWords (l : List Word) : TileOut := { words := l.map (·.toNat) }

/-- What the vector engine computes from values alone; a summary bound is formed from the page (R237). -/
def VecWork.run : VecWork → TileOut
  | .add a b => outWords ((a.zip b).map (fun (x, y) => fadd x y))
  | .mul a b => outWords ((a.zip b).map (fun (x, y) => fmul x y))
  | .reduce a => outWords [fsum a]
  | .exp a => outWords (a.map fexp)
  | .log2 a => outWords (a.map flog2)
  | .recip a => outWords (a.map frecip)
  | .rsqrt a => outWords (a.map frsqrt)
  | .tanh a => outWords (a.map ftanh)
  | .sigmoid a => outWords (a.map fsigmoid)
  | .quantize f a => quantizeRow f a
  | .merge ps => outWords (attnOut ps)
  | .weights pr mp m rcp => outWords (attnWeights pr mp m rcp)
  | .bound .. => {}
  | .route z b k sm n sc => { words := (routeRow z b k sm n sc).flatMap (fun (j, w) => [j, w.toNat]) }
  | .combine sh ch => outWords (combineExperts sh ch)
  | .exitHead z th => { words := [b2n (exits z th)] }

/-- What the sort-unique engine puts out: the unique keys in order with their counts, first indices and payloads, then for each
input the index of its unique key (R195). -/
def sortOut (ks : List Nat) (ps : List Word) (fl : Bool) : TileOut :=
  { words := (sortUniqueKeys ks ps fl).flatMap (fun (k, n, i, w) => [k, n, i, w.toNat]) ++ inverseMap ks }

/-- KIND of CRU_TILE (R223). -/
def TileWork.kind : TileWork → Nat
  | .matrix .. => 1
  | .attention _ => 2
  | .vector _ => 3
  | .dma _ => 4
  | .sortUnique .. => 5

end Sys2Proof.Machine
end

