-- ==== Sys2Proof/Machine/KvImage.lean ====
section
/-!
DEFINITION. What the layout descriptor, the tensor table and the layer program say of stored bytes (R103, R108, R109, R215, R216, R227,
R228): the sections of a model package as they are laid out, the KV bytes of a position by layer, head and channel, and the key
summary of a sealed page.
-/
namespace Sys2Proof.Machine

/-! ## The LAYOUT and TENSOR_TABLE sections (R215, R216) -/

/-- The layout descriptor of 64 bytes. -/
def Layout.ofBytes (b : List Byte) : Layout where
  kvp := leAt b 0 4
  kvFormat := leAt b 4 1
  noCarry := bitAt (leAt b 5 1) 0
  moe := bitAt (leAt b 5 1) 1
  sumChannels := leAt b 8 4
  recurBytes := leAt b 12 4
  scoreOff := leAt b 16 4
  scoreCap := leAt b 20 4
  layers := leAt b 24 2
  experts := leAt b 26 2
  topK := leAt b 28 1
  shared := leAt b 29 1
  vocab := leAt b 32 4
  dModel := leAt b 36 4
  dObs := leAt b 40 2

/-- Its length and its reserved bits and bytes. -/
def layoutBytesOk (b : List Byte) : Bool :=
  b.length == 64 && decide (leAt b 5 1 < 4) && allZero (slice b 6 2) && allZero (slice b 30 2) && allZero (slice b 42 22)

/-- An entry of 32 bytes of the tensor table. -/
def Tensor.ofBytes (b : List Byte) : Tensor where
  format := leAt b 0 1
  flags := leAt b 1 1
  layer := leAt b 2 2
  expert := leAt b 4 2
  rows := leAt b 8 4
  k := leAt b 12 4
  offset := leAt b 16 8
  scale := BitVec.ofNat 32 (leAt b 24 4)
  reserved := allZero (slice b 6 2) && allZero (slice b 28 4)

/-- The entries of the tensor table. -/
def tensorTable (b : List Byte) : List Tensor := (chunks 32 b.length b).map Tensor.ofBytes

/-! ## Weight tensors (R197, R204, R216) -/

def Tensor.sparse (t : Tensor) : Bool := bitAt t.flags 0

/-- Bytes of a row, padded with zeros to a multiple of 64. -/
def Tensor.rowBytes (t : Tensor) : Nat :=
  roundUp (rowDataBytes t.format t.k t.sparse + rowMetaBytes t.k t.sparse + rowScaleBytes t.format t.k) 64

/-- Bytes of a tensor with its channel scales. -/
def Tensor.bytes (t : Tensor) : Nat := t.rows * t.rowBytes + if bitAt t.flags 1 then 4 * t.rows else 0

/-- Row `j` of a tensor in the WEIGHTS section. -/
def Tensor.row (t : Tensor) (weights : List Byte) (j : Nat) : MRow :=
  MRow.ofBytes t.format t.k t.sparse (slice weights (t.offset + j * t.rowBytes) t.rowBytes)

/-- Channel scale of row `j`; 1.0 without CHANNEL_SCALE. -/
def Tensor.channel (t : Tensor) (weights : List Byte) (j : Nat) : Word :=
  if bitAt t.flags 1 then BitVec.ofNat 32 (leAt weights (t.offset + t.rows * t.rowBytes + 4 * j) 4) else f32one

/-- Every sparsity nibble of the tensor is valid. -/
def Tensor.nibblesOk (t : Tensor) (weights : List Byte) : Bool :=
  !t.sparse || (List.range t.rows).all (fun j => (t.row weights j).nibbles.all nibbleOk)

/-! ## KV bytes of a position (R103, R228) -/

/-- KV bytes of a position in a layer. -/
def LayerProg.kvBytes (a : LayerProg) (f : Nat) : Nat :=
  a.hkv * (if a.kvShared then a.dk else a.dk + a.dv) * (elemBits f / 8)

/-- Byte of a position at which a layer's KV begins: the layers follow each other, and in a layer the keys by head, then the values
by head (DESIGN CHOICE, log entry 120). -/
def Model.layerOff (m : Model) (layer : Nat) : Nat :=
  ((m.program.take layer).map (fun a => a.kvBytes m.layout.kvFormat)).sum

/-- The codes of `n` elements of a position's KV from byte `at'` of it. -/
def Model.kvCodes (m : Model) (kv : DWord) (at' n : Nat) : List Nat :=
  let w := elemBits m.layout.kvFormat / 8
  (List.range n).map (fun c => leNat ((List.range w).map (fun j => Config.kvByte kv (at' + w * c + j))))

/-- Key of a position for a KV head of a layer. -/
def Model.keyOf (m : Model) (layer : Nat) (a : LayerProg) (head : Nat) (kv : DWord) : List Nat :=
  m.kvCodes kv (m.layerOff layer + elemBits m.layout.kvFormat / 8 * (head * a.dk)) a.dk

/-- Value of a position for a KV head of a layer: with KV_SHARED, the key's bytes. -/
def Model.valueOf (m : Model) (layer : Nat) (a : LayerProg) (head : Nat) (kv : DWord) : List Nat :=
  if a.kvShared then m.keyOf layer a head kv
  else m.kvCodes kv (m.layerOff layer + elemBits m.layout.kvFormat / 8 * (a.hkv * a.dk + head * a.dv)) a.dv

/-- The KV image of a page (R103): each layer's slice holds that layer's bytes of the 256 slots, slot 0 first; unused slots hold
zero bytes (DESIGN CHOICE of the order, log entry 120). -/
def Model.pageImage (m : Model) (slots : List Slot) : List Byte :=
  ((List.range m.program.length).zip m.program).flatMap (fun (l, a) =>
    let n := a.kvBytes m.layout.kvFormat
    slots.flatMap (fun q => (List.range n).map (fun j => Config.kvByte q.kv (m.layerOff l + j)))
      ++ List.replicate ((256 - slots.length) * n) 0)

/-! ## The key summary and the metadata tile (R108, R109) -/

/-- The value of an E4M3 code in binary32. -/
def e4m3Word (c : Nat) : Word := toF32 (fmtE4m3.decode c)

/-- The E4M3 code that a finite value of at most 448 in magnitude rounds to, toward +∞ or toward −∞. -/
def e4m3Toward (up : Bool) (v : Word) : Nat :=
  let pos := List.range 0x7F
  let neg := pos.map (· + 0x80)
  if flt v f32zero then
    -- magnitudes grow with the code: the value at or next to v on the asked side
    let below := (neg.find? (fun c => !flt v (e4m3Word c))).getD 0xFE
    if up && flt (e4m3Word below) v then (below - 1) else below
  else
    let above := (pos.find? (fun c => !flt (e4m3Word c) v)).getD 0x7E
    if !up && flt v (e4m3Word above) then above - 1 else above

/-- A key value that a summary entry cannot bound: NaN, or a magnitude above 448. -/
def unboundedKey (v : Word) : Bool := fisNan v || flt 0x43E00000 (v &&& 0x7FFFFFFF)

/-- The summary entry of a channel from its key values, and whether it is unbounded (R109). -/
def sumEntry (vs : List Word) : (Nat × Nat) × Bool :=
  if vs.any unboundedKey then ((0xFE, 0x7E), true)
  else match vs with
    | [] => ((0xFE, 0x7E), false)
    | v :: rest =>
      let lo := rest.foldl (fun a b => if flt b a then b else a) v
      let hi := rest.foldl (fun a b => if flt a b then b else a) v
      ((e4m3Toward false lo, e4m3Toward true hi), false)

/-- The summary entries of one KV head of a layer, by channel. -/
def Model.headSummary (m : Model) (layer : Nat) (a : LayerProg) (slots : List Slot) (head : Nat) : List ((Nat × Nat) × Bool) :=
  let keys := slots.map (fun q => (m.keyOf layer a head q.kv).map (fun c => toF32 (elemValue m.layout.kvFormat c)))
  (List.range a.dk).map (fun c => sumEntry (keys.map (fun k => k.getD c f32zero)))

/-- The summary of a page: by selector layer, then KV head, then channel (R108, R228). -/
def Model.summary (m : Model) (slots : List Slot) : List ((Nat × Nat) × Bool) :=
  ((List.range m.program.length).zip m.program).flatMap (fun (l, a) =>
    if a.selector then (List.range a.hkv).flatMap (m.headSummary l a slots) else [])

/-- SUM_UNBOUNDED of a page that is sealed (R109). -/
def Model.unbounded (m : Model) (slots : List Slot) : Bool := (m.summary slots).any (·.2)

/-- The metadata tile of a sealed page: POSITION_MAP, then SUMMARY (R108). -/
def Model.metaTile (m : Model) (slots : List Slot) : List Byte :=
  (List.range 256).flatMap (fun i => leBytes (((slots[i]?).map (·.index)).getD 0xFFFFFFFF) 4)
    ++ (m.summary slots).flatMap (fun e => [BitVec.ofNat 8 e.1.1, BitVec.ofNat 8 e.1.2])

end Sys2Proof.Machine
end

