-- ==== Sys2Proof/Machine/Shadow.lean ====
section
/-!
DEFINITION. Shadowed fields (R31, R32): the values that a field takes, the application of a page's pending values, and the
checks made at it (R10, R143, R281, R342).
-/
namespace Sys2Proof.Machine

/-! ## The page of a copy of a field -/

/-- The page that copy `i` of a field stands in. -/
def Reg.pageOf (r : Reg) (i : Nat) : Nat := if r.desc.pages = 1 then r.desc.page else r.desc.page + i * r.desc.pageStep

/-- The pending values of a page, as (field, copy, value). -/
def State.pendingOf (s : State) (p : Nat) : List (Reg × Nat × Nat) :=
  s.shadow.entries.filterMap (fun e =>
    match Reg.all[e.1 / 4294967296]? with
    | some r => if r.pageOf (e.1 % 4294967296) = p then some (r, e.1 % 4294967296, e.2) else none
    | none => none)

/-- Forget the pending values of a page. -/
def State.dropShadow (s : State) (p : Nat) : State :=
  let l := (s.pendingOf p).map (fun e => e.1.key e.2.1)
  let s := { s with shadow := s.shadow.filter (fun k _ => !l.contains k) }
  s.setCommon p { s.common p with shadowPend := false }

/-! ## Values as they are taken (R10) -/

/-- A value held between two bounds. -/
def clampNat (lo hi v : Nat) : Nat := max lo (min hi v)

/-- STM_BUDGET by port: the greatest values of R142. -/
def budgetMax (i : Nat) : Nat := ([29491, 230, 48, 1024, 1024] : List Nat).getD i 0

/-- Pre-colours with 3 taken as green (R282). -/
def colours : Nat → Nat → Nat
  | 0, _ => 0
  | n + 1, v => (if v % 4 = 3 then 0 else v % 4) + 4 * colours n (v / 4)

/-- The value that copy `i` of a field takes for a value written. -/
def Reg.taken (r : Reg) (i v : Nat) : Nat :=
  match r with
  | .SDIR_CFG_LOCK_WAYS | .STM_TEN_LEAD_WH_NVER | .ADM_SAMPLE_US | .ADM_Q_WEIGHT_WEIGHT | .EMB_TBL_DET_WINDOW_US
  | .SRCH_WALK_MAX_VISIT | .FAM_LEASE_CFG_OFFER_MS | .CKP_STEPS_COUNT | .TEL0_DUMP_WINDOWS => max 1 v
  | .STM_WINDOW_US => clampNat 1 100 v
  | .STM_BUDGET_GBPS => clampNat 1 (budgetMax i) v
  | .EVIC_TEN_CFG_DECAY_SHIFT => clampNat 1 16 v
  | .CRU_SRAM_RES_MIB => min 12 v
  | .CRU_SRAM_URGENT_MIB => clampNat 1 4 v
  -- R192 and R223 give the window 2 to 32 MiB and no meaning to a smaller value (DESIGN CHOICE, log entry 122)
  | .CRU_CLU_WIN_MIB => max 2 v
  | .GAF_CFG_BUDGET => clampNat 64 1048576 v
  | .GAF_CHUNK_ROWS => clampNat 16 512 v
  | .GAF_URGENT_PCT => min 100 v
  | .ADM_RING_COLOUR_COLOUR => colours 16 v
  | .MRV_CFG_LANES => clampNat 1 16 v
  | .JCK_TEN_TOP_K_TOP_K => min 262144 v
  | .SRCH_BATCH_QUERIES => clampNat 1 256 v
  | .SRCH_WALK_INSERT_BEAM => max 32 v
  | .SRCH_FLASH_RD_FLOOR => min 50 v
  | .SRCH_FLASH_WR_GBPS => min 8 v
  | .FAB_CFG_MAX_RATE => if v = 3 then 0 else v
  | .FAM_TIMEOUT_US => max 100 v
  | .FAM_TGT_LIMIT_COUNT => clampNat 1 16384 v
  | .CKP_TIMER_S => clampNat 1 3600 v
  | .PWR_DOM_REQ_STATE => if v = 3 then 0 else v
  | .PWR_ILIMIT_MA => min 32000 v
  | .PWR_PLIMIT_W => min 2100 v
  | .PWR_ARB_SCRUB_PCT => max 2 v
  | .PWR_ARB_WEAR_PCT => max 5 v
  | .PWR_ARB_CAL_MS => min 10 v
  | .CLK_PLL_MHZ => clampNat 600 1800 (v / 25 * 25)
  | .TEL0_BW_WINDOW_US => max 10 v
  | .TEL3_TAG_LOG2N => min 24 v
  | .TEL3_TAG_SIZE_LOG2 => clampNat 10 20 v
  | _ => v

/-! ## The wear level (R156) -/

def gib : Nat := 2 ^ 30

/-- The wear depth in bytes. -/
def State.wearDepth (s : State) : Nat := s.reg .STM_WEAR_DEPTH_GIB * gib

/-- Bring the wear level up to the present tick, in whole µs: 1 MB/s is 1 byte per µs. It is kept while the governor is on. -/
def State.wearTick (s : State) : State :=
  if !s.regBit .STM_CFG_WEAR_GOV_EN then { s with stm := { s.stm with wearAt := s.tick } }
  else
    let us := (s.tick - s.stm.wearAt) / 1000
    let up : Int := s.stm.wearLevel + (s.reg .STM_WEAR_RATE_MBPS * us : Nat)
    let level := if up > (s.wearDepth : Int) then (s.wearDepth : Int) else up
    { s with stm := { s.stm with wearLevel := level, wearAt := s.stm.wearAt + us * 1000 } }

/-! ## Applying the shadow -/

/-- A pair of fields that a check refuses keeps its previous values, and the page records 0x0010. -/
def State.keepPair (s old : State) (p : Nat) (a b : Reg) : State :=
  ((s.setReg a (old.reg a)).setReg b (old.reg b)).recErr p 0x0010

/-- Shares of a port after a commit: GUAR adds to at most 100, and none exceeds its CEIL (R143). -/
def State.sharesOk (s : State) (port : Nat) : Bool :=
  let guar (c : Nat) : Nat := s.reg .STM_SHARE_GUAR (4 * port + c)
  decide (((List.range 4).map guar).sum ≤ 100)
    && (List.range 4).all (fun c => decide (guar c ≤ s.reg .STM_SHARE_CEIL (4 * port + c)))

/-- A port whose shares a commit would break keeps its previous ones (R143). -/
def State.keepShares (s old : State) (port : Nat) : State :=
  if s.sharesOk port then s
  else ((List.range 4).foldl (fun s c =>
      let i := 4 * port + c
      (s.setReg .STM_SHARE_GUAR (old.reg .STM_SHARE_GUAR i) i).setReg .STM_SHARE_CEIL (old.reg .STM_SHARE_CEIL i) i) s).recErr
    17 0x0010

/-- The checks of the blocks on values that are applied together; `old` is the state before. -/
def State.checkApplied (s old : State) (p : Nat) (l : List (Reg × Nat × Nat)) : State :=
  let has (r : Reg) : Bool := l.any (fun e => e.1 == r)
  if p = 17 ∧ (has .STM_SHARE_GUAR || has .STM_SHARE_CEIL) = true then (List.range 5).foldl (fun s k => s.keepShares old k) s
  else if p = 24 ∧ s.reg .GAF_CHUNK_ROWS < s.reg .GAF_CHUNK_MIN then s.keepPair old p .GAF_CHUNK_ROWS .GAF_CHUNK_MIN
  else if p = 28 ∧ s.reg .EMB_HOT_REPL_AT < s.reg .EMB_HOT_DROP_AT then
    s.keepPair old p .EMB_HOT_REPL_AT .EMB_HOT_DROP_AT
  else if p = 15 ∧ has .TEL3_TAG_LOG2N = true then { s with tel := { s.tel with lfsr := Map.empty } }
  else s

/-- All values pending in a page are applied in one update; the wear level has risen at the old rate until then (R156). -/
def State.applyShadow (s : State) (p : Nat) : State :=
  let l := s.pendingOf p
  let s := if p = pgStm then s.wearTick else s
  let t := l.foldl (fun s e => s.setReg e.1 e.2.2 e.2.1) s
  (t.checkApplied s p l).dropShadow p

/-- The safe point of a page: its values are applied while HOLD is 0, and those of a COMMIT that waited, which clears HOLD. -/
def State.safePoint (s : State) (p : Nat) : State :=
  let c := s.common p
  if c.commitPend then
    let s := s.applyShadow p
    s.setCommon p { s.common p with hold := false, commitPend := false }
  else if c.shadowPend && !c.hold then s.applyShadow p
  else s

end Sys2Proof.Machine
end

