-- ==== Sys2Proof/Machine/Rings.lean ====
section
/-!
DEFINITION. The command-ring pages: doorbells, pushes, enabling, draining, failures, interrupt coalescing, and binding
through GLB (R37 to R48, R53, R54).
-/
namespace Sys2Proof.Machine

/-- A tenant id as it stands. -/
def State.tenant (s : State) (t : Nat) : Tenant := (s.tenants.get? t).getD {}

/-- The tenant is OPEN (R455). -/
def State.tenantOpen (s : State) (t : Nat) : Bool := (s.tenant t).state == .opened

/-- Descriptors waiting: (TAIL - SQ_HEAD) mod 2^32 (R44). -/
def Ring.waiting (r : Ring) : Nat := (r.sqTail - r.sqHead).toNat

/-- Completions written and not yet consumed: (CQ_TAIL - HEAD) mod 2^32 (R47). -/
def Ring.unread (r : Ring) : Nat := (r.cqTail - r.cqHead).toNat

/-- SQ_DOORBELL (R43, R44): an ENABLED ring takes the count unless it would make more than 2^SQ_LOG2 descriptors wait
(0x0004); a write in another state is discarded, and recorded as 0x0008 unless the ring is DISABLED. -/
def sqDoorbellRing (s : State) (n : Nat) (tail : Word) : State :=
  let r := s.ring n
  match r.state with
  | .enabled =>
    if (tail - r.sqHead).toNat > 2 ^ r.sqLog2 then s.ringErr n 0x0004
    else s.setRing n { r with sqTail := tail }
  | .disabled => s
  | _ => s.ringErr n 0x0008

/-- The row SQ_DOORBELL, with the stores of host software that come before the write (R45). -/
def execSqDoorbell (ring : BitVec 8) (tail : Word) (stores : List HostStore) (s : State) :
    Host.Outcome State Fault Refusal :=
  let s := s.hostStores stores
  let s := s.touch
  .next (if s.live then sqDoorbellRing s ring.toNat tail else s)

/-- CQ_DOORBELL (R37, R43): the count of completions consumed; one that passes CQ_TAIL is discarded with 0x0005. On a
DISABLED ring nothing has been written, and the write is discarded (log entry 9). -/
def cqDoorbellRing (s : State) (n : Nat) (head : Word) : State :=
  let r := s.ring n
  match r.state with
  | .disabled => s
  | _ =>
    if (head - r.cqHead).toNat > r.unread then s.ringErr n 0x0005
    else s.setRing n { r with cqHead := head }

/-- The row CQ_DOORBELL. -/
def execCqDoorbell (ring : BitVec 8) (head : Word) (s : State) : Host.Outcome State Fault Refusal :=
  let s := s.touch
  .next (if s.live then cqDoorbellRing s ring.toNat head else s)

/-- The eight quadwords of a push (R46): the seven staged ones and the last. -/
def pushBytes (stage : Map Nat) (q7 : DWord) : List Byte :=
  ([0, 1, 2, 3, 4, 5, 6].flatMap (fun i => leBytes (stage.getD i 0) 8)) ++ leBytes q7.toNat 8

/-- The write to PUSH +0x138 (R43, R46). -/
def pushRing (s : State) (n : Nat) (q7 : DWord) : State :=
  let r := s.ring n
  match r.state with
  | .enabled =>
    if ([0, 1, 2, 3, 4, 5, 6].all (fun i => r.stage.has i)) = false then s.ringErr n 0x0008
    else if r.pushed.isSome then s.ringErr n 0x0008
    else if r.waiting + 1 > 2 ^ r.sqLog2 then s.ringErr n 0x0004
    else s.setRing n { r with
      pushed := some (r.sqTail.toNat, pushBytes r.stage q7), sqTail := r.sqTail + 1, stage := Map.empty }
  | .disabled => s
  | _ => s.ringErr n 0x0008

/-- The row PUSH, with the stores of host software that come before the write. -/
def execPush (ring : BitVec 8) (q7 : DWord) (stores : List HostStore) (s : State) :
    Host.Outcome State Fault Refusal :=
  let s := s.hostStores stores
  let s := s.touch
  .next (if s.live then pushRing s ring.toNat q7 else s)

/-- A ring in the window lies inside the allotment (R38): `bytes` from window offset `base`. -/
def Ring.inAllotment (r : Ring) (base bytes : Nat) : Bool :=
  decide (r.winBase * 65536 ≤ base) && decide (base + bytes ≤ (r.winBase + r.winUnits) * 65536)

/-- The set-up check that CTRL.EN makes: the error code, or 0 (R43). -/
def Ring.enableCode (r : Ring) : Nat :=
  if r.bound = false then 0x0001
  else if (decide (6 ≤ r.sqLog2) && decide (r.sqLog2 ≤ 16) && decide (6 ≤ r.cqLog2) && decide (r.cqLog2 ≤ 16)) = false then
    0x0002
  else if (r.sqInWindow && !r.inAllotment r.sqBase (64 * 2 ^ r.sqLog2))
      || (r.cqInWindow && !r.inAllotment r.cqBase (32 * 2 ^ r.cqLog2)) then 0x0003
  else 0

/-- The page of a ring that goes ENABLED: the counts at 0, the phase at 1 (R43). -/
def Ring.opened (r : Ring) : Ring :=
  { r with en := true, state := .enabled, sqTail := 0, cqHead := 0, sqHead := 0, cqTail := 0, outstanding := 0,
           stage := Map.empty, pushed := none, unsignalled := 0, lastCq := none, discard := false, unbindAtDrain := false }

/-- CTRL.EN written 1 through a CXL.io function (R39, R43). Only a DISABLED ring reacts. -/
def ringEnableOp (s : State) (n function : Nat) : State :=
  let r := { s.ring n with function := function }
  match r.state with
  | .disabled => if r.enableCode = 0 then s.setRing n r.opened else s.ringErr n r.enableCode
  | _ => s

/-- The row RING_ENABLE. -/
def execRingEnable (ring : BitVec 8) (function : BitVec 4) (s : State) : Host.Outcome State Fault Refusal :=
  let s := s.touch
  .next (if s.live then ringEnableOp s ring.toNat function.toNat else s)

/-- CTRL.EN written 0 on an ENABLED ring (R43); a ring in another state keeps it (log entry 9). -/
def ringDisableOp (s : State) (n : Nat) : State :=
  let r := s.ring n
  match r.state with
  | .enabled => s.setRing n { r with en := false, state := .draining }
  | _ => s

/-- The row RING_DISABLE. -/
def execRingDisable (ring : BitVec 8) (s : State) : Host.Outcome State Fault Refusal :=
  let s := s.touch
  .next (if s.live then ringDisableOp s ring.toNat else s)

/-- CTRL.SOFT_RST of a ring (R43): a ring that is not DISABLED drains and discards its completions; a DISABLED one has
its counters and ERR cleared and keeps its set-up fields. -/
def ringSoftRstOp (s : State) (n : Nat) : State :=
  let r := s.ring n
  match r.state with
  | .disabled => s.setRing n { r with
      sqTail := 0, cqHead := 0, sqHead := 0, cqTail := 0, dropped := 0, stage := Map.empty, pushed := none,
      unsignalled := 0, lastCq := none, err := false, code := 0, int := r.int &&& (~~~ (2 : Word)) }
  | _ => s.setRing n { r with state := .draining, discard := true }

/-- The row RING_SOFT_RST. -/
def execRingSoftRst (ring : BitVec 8) (s : State) : Host.Outcome State Fault Refusal :=
  let s := s.touch
  .next (if s.live then ringSoftRstOp s ring.toNat else s)

/-- A ring without its binding and allotment (R41, R43). -/
def Ring.unbind (r : Ring) : Ring := { r with bound := false, tenant := 0, admin := false, winBase := 0, winUnits := 0 }

/-- The page of a ring that has drained (R43). -/
def Ring.drained (r : Ring) : Ring :=
  let r' := { r with state := .disabled, en := false, discard := false, unbindAtDrain := false }
  if r.unbindAtDrain then r'.unbind else r'

/-- A DRAINING ring whose OUTSTANDING is 0 goes DISABLED (R43). -/
def ringDrainedOp (s : State) (n : Nat) : State :=
  let r := s.ring n
  if r.state = .draining ∧ r.outstanding = 0 then s.setRing n r.drained else s

/-- The row RING_DRAINED. -/
def execRingDrained (ring : BitVec 8) (s : State) : Host.Outcome State Fault Refusal :=
  .next (ringDrainedOp s ring.toNat)

/-- A ring goes HALTED with an error code (R43). -/
def haltRing (s : State) (n code : Nat) : State :=
  let r := s.ring n
  (s.setRing n { r with state := if r.state = .enabled then .halted else r.state }).ringErr n code

/-- The row DESCRIPTOR_READ_FAIL: the read of a waiting descriptor of an ENABLED ring fails or times out (R43, R65). -/
def execDescriptorReadFail (ring : BitVec 8) (s : State) : Host.Outcome State Fault Refusal :=
  let r := s.ring ring.toNat
  .next (if r.state = .enabled ∧ r.waiting ≠ 0 then haltRing s ring.toNat 0x0006 else s)

/-- A message that was held or sent for a completion that was not written has not gone out: the newest one of the vector. -/
def State.unsend (s : State) (v : Nat) : State :=
  if s.msixPending.contains v then { s with msixPending := s.msixPending.erase v }
  else { s with sent := s.sent.eraseP (fun m => m.1 == v) }

/-- The completion written last was not written: a slot in the window keeps what it held, one in host memory holds undefined
content (log entry 1), and the signal that it made due is not due (R43, R54). -/
def State.undoCompletion (s : State) (n : Nat) (u : CqUndo) : State :=
  let r := s.ring n
  let slot := r.cqSlot (r.cqTail - 1)
  let s := if u.message then s.unsend (r.function * 2048 + r.vector) else s
  let s := if r.cqInWindow then s.writeMem true slot u.old else (s.writeMem false slot (freeBytes s.free 32)).useFree 32
  s.setRing n { r with
    cqTail := r.cqTail - 1, dropped := satAdd 32 r.dropped 1, lastCq := none
    int := if u.due && u.int &&& 1 == 0 then r.int &&& ~~~ (1 : Word) else r.int
    unsignalled := if u.due then u.unsignalled else r.unsignalled - 1
    unsignalledSince := if u.due then u.since else r.unsignalledSince }

/-- The row COMPLETION_WRITE_FAIL: the write of the ring's newest completion, which host software has not read, fails or times
out. The completion is discarded and counted in DROPPED, and an ENABLED ring goes HALTED (R43). -/
def execCompletionWriteFail (ring : BitVec 8) (s : State) : Host.Outcome State Fault Refusal :=
  let n := ring.toNat
  let r := s.ring n
  .next (match r.lastCq with
    | none => s
    | some u => if r.state ≠ .disabled ∧ r.unread ≠ 0 then haltRing (s.undoCompletion n u) n 0x0007 else s)

/-- The row COALESCE_TIMER: COALESCE.TIME µs have passed since the first unsignalled completion (R54). -/
def execCoalesceTimer (ring : BitVec 8) (s : State) : Host.Outcome State Fault Refusal :=
  let r := s.ring ring.toNat
  .next (if r.unsignalled ≠ 0 ∧ r.coalTime ≠ 0 ∧ s.tick ≥ r.unsignalledSince + r.coalTime * 1000 then
    s.signal ring.toNat else s)

/-- The error code of a bind with the given register value, or 0 (R41). -/
def bindCode (s : State) (v : Word) : Nat :=
  let n := bitsOf v.toNat 0 8
  if (s.ring n).state ≠ .disabled then 0x0010
  else if s.reg .GLB_RING_WIN_WIN_BASE + s.reg .GLB_RING_WIN_WIN_UNITS > 4096 then 0x0011
  else if s.tenantOpen (bitsOf v.toNat 8 12) = false ∧ bitAt v.toNat 20 = false then 0x0012
  else 0

/-- The fields RING, TENANT and ADMIN of a write to GLB_RING_BIND. -/
def setRingBind (s : State) (v : Word) : State :=
  ((s.setReg .GLB_RING_BIND_RING (bitsOf v.toNat 0 8)).setReg .GLB_RING_BIND_TENANT (bitsOf v.toNat 8 12)).setReg
    .GLB_RING_BIND_ADMIN (bitsOf v.toNat 20 1)

/-- A write to GLB_RING_BIND with BIND 1 (R41): bind the ring, or discard the write and record the code. -/
def ringBindOp (s : State) (v : Word) : State :=
  let code := bindCode s v
  if code ≠ 0 then s.recErr pgGlb code
  else
    let s := setRingBind s v
    let n := bitsOf v.toNat 0 8
    s.setRing n { s.ring n with
      bound := true, tenant := bitsOf v.toNat 8 12, admin := bitAt v.toNat 20,
      winBase := s.reg .GLB_RING_WIN_WIN_BASE, winUnits := s.reg .GLB_RING_WIN_WIN_UNITS }

/-- The row RING_BIND: a write to GLB_RING_BIND whose BIND bit is 1. -/
def execRingBind (value : Word) (s : State) : Host.Outcome State Fault Refusal :=
  let s := s.touch
  .next (if s.live ∧ bitAt value.toNat 31 = true then ringBindOp s value else s)

/-- A write to GLB_RING_BIND with UNBIND 1 (R41). -/
def ringUnbindOp (s : State) (v : Word) : State :=
  let n := bitsOf v.toNat 0 8
  if (s.ring n).state ≠ .disabled then s.recErr pgGlb 0x0010
  else
    let s := setRingBind s v
    s.setRing n (s.ring n).unbind

/-- The row RING_UNBIND: a write to GLB_RING_BIND whose UNBIND bit is 1 and whose BIND bit is 0. -/
def execRingUnbind (value : Word) (s : State) : Host.Outcome State Fault Refusal :=
  let s := s.touch
  .next (if s.live ∧ bitAt value.toNat 30 = true ∧ bitAt value.toNat 31 = false then ringUnbindOp s value else s)

/-- The row MSIX_VECTOR_UNMASK: host software writes a vector's entry of the MSI-X table with its mask bit 0, and a message held
as a pending bit is sent (R25, R29). -/
def execMsixVectorUnmask (function : BitVec 4) (entry : VectorEntry) (s : State) : Host.Outcome State Fault Refusal :=
  let v := function.toNat * 2048 + entry.vector.toNat
  let e : MsixEntry := { address := entry.address, data := entry.data }
  let s' := if s.unmasked.contains v then s else { s with unmasked := v :: s.unmasked }
  let s' := { s' with msixTable := s'.msixTable.set v e }
  .next (if s.msixPending.contains v then
      { s' with msixPending := s'.msixPending.filter (· != v), sent := (v, e) :: s'.sent }
    else s')

/-- Vectors of a function, and the place of the pending-bit array after its table of 16-byte entries in BAR 4: log entry 108. -/
def msixVectors : Nat := 2048
def pbaOffset : Nat := 16 * msixVectors

/-- The 64-bit word at an offset of BAR 4 of a function: an entry's Message Address, its Message Data with Vector Control (bit
32 is the mask bit), or 64 pending bits (R25, PCIe 6.x). -/
def State.readBar4 (s : State) (function off : Nat) : Nat :=
  let v := function * 2048
  if off < pbaOffset then
    let e := s.msixEntry (v + off / 16)
    if off % 16 < 8 then e.address.toNat
    else e.data.toNat + 2 ^ 32 * b2n (!s.unmasked.contains (v + off / 16))
  else if off < pbaOffset + 256 then
    ((List.range 64).map (fun i => b2n (s.msixPending.contains (v + (off - pbaOffset) / 8 * 64 + i)) * 2 ^ i)).sum
  else 0

end Sys2Proof.Machine
end

