-- ==== Sys2Proof/Machine/Pages.lean ====
section
/-!
DEFINITION. Space in HBM, and page records: allotment, reference counts, step pins, sealing and release (R103 to R113,
R136 to R139, R160 to R166, R444).
-/
namespace Sys2Proof.Machine

/-! ## The HBM heap (R139, R444) -/

/-- The owner number that stands for the device itself. -/
def ownerDevice : Nat := 4096

/-- 64 KiB units of the heap. -/
def State.heapUnits (s : State) : Nat := s.reg .STM_HEAP_SIZE_GIB * 16384

/-- Bytes of heap that an owner holds. -/
def State.heapOf (s : State) (owner : Nat) : Nat := (s.stm.heap.get? owner).getD 0

/-- Units of the table of HBM-user counts at the start of the heap: 4 bytes for each page record (R137). -/
def State.userTableUnits (s : State) : Nat := ceilDiv (4 * s.reg .CANE_REC_COUNT_COUNT) 65536

/-- Units tagged to owners, those of the device's own table among them, and units held FINE_PEND. No unit holds data of two
owners (R444). -/
def State.heapUsed (s : State) : Nat :=
  s.userTableUnits + (s.stm.heap.values.map (fun b => ceilDiv b 65536)).sum + (s.stm.finePend.values).sum

/-- Free 64 KiB units of the heap (R139). -/
def State.heapFree (s : State) : Nat := s.heapUnits - s.heapUsed

/-- Units that `bytes` more of an owner would take. -/
def State.heapNeed (s : State) (owner bytes : Nat) : Nat :=
  ceilDiv (s.heapOf owner + bytes) 65536 - ceilDiv (s.heapOf owner) 65536

/-- Room in the heap; only promotions and tail allotments (`reserve`) may go below STM_HBM_RESERVE (R139). -/
def State.heapRoom (s : State) (owner bytes : Nat) (reserve : Bool) : Bool :=
  decide (s.heapNeed owner bytes + (if reserve then 0 else s.reg .STM_HBM_RESERVE_GIB * 16384) ≤ s.heapFree)

/-- Take heap space for an owner. -/
def State.heapTake (s : State) (owner bytes : Nat) : State :=
  if bytes = 0 then s
  else { s with stm := { s.stm with heap := s.stm.heap.set owner (s.heapOf owner + bytes) } }

/-- Give heap space of an owner back. Units released by a tenant that is CLOSING or FINING stay tagged with FINE_PEND
(R459). -/
def State.heapGive (s : State) (owner bytes : Nat) : State :=
  let old := s.heapOf owner
  let new := old - bytes
  let heap := if new = 0 then s.stm.heap.erase owner else s.stm.heap.set owner new
  let units := ceilDiv old 65536 - ceilDiv new 65536
  let pend := owner < 4096 ∧ ((s.tenant owner).state = .closing ∨ (s.tenant owner).state = .fining) ∧ units ≠ 0
  let fp := if pend then s.stm.finePend.set owner ((s.stm.finePend.get? owner).getD 0 + units) else s.stm.finePend
  { s with stm := { s.stm with heap := heap, finePend := fp } }

/-- Bytes of free flash space of the session quota (R138). -/
def State.flashFree (s : State) : Nat := s.reg .STM_FLASH_QUOTA_GIB * 2 ^ 30 - s.stm.flashUsed

/-- Bytes of free pool space at targets that can be reached (R138, R389). -/
def State.poolFree (s : State) : Nat := (s.poolParts.map (·.2)).sum - s.stm.poolUsed

/-! ## Models as the session state sees them -/

/-- A model id as it stands. -/
def State.model (s : State) (id : Nat) : Model := (s.models.get? id).getD {}

/-- The step record of a session that its engines read: version SR_CUR (R116, R117). -/
def Session.rec' (x : Session) : StepRec := x.vers.getD x.srCur {}

/-- The layout of a session's model. -/
def State.layoutOf (s : State) (x : Session) : Layout := (s.model x.rec'.params.model).layout

/-- State tiles of a step record (R114, R215). -/
def Layout.srTiles (l : Layout) : Nat := ceilDiv (8192 + l.recurBytes) 65536

/-- KV tiles of a page (R103). -/
def Layout.kvTiles (l : Layout) : Nat := l.kvp / 256

/-- Raw length of a metadata tile (R108). -/
def Layout.metaRaw (l : Layout) : Nat := 1024 + 2 * l.sumChannels

/-- Heap bytes of a page: its KV tiles and its metadata space (R103, R106, R108). -/
def Layout.pageBytes (l : Layout) : Nat := l.kvTiles * 65536 + roundUp l.metaRaw 4096

/-- Heap bytes of the versions and the page table of a session in HBM (R116, R118). -/
def Layout.recordBytes (l : Layout) (nver : Nat) : Nat := (nver + 1) * l.srTiles * 65536 + 65536

/-! ## Page records -/

/-- The pool copy of a record lies at a target that has been found dead (R166). -/
def State.poolDead (s : State) (p : PageRec) : Bool :=
  p.inPool && ((s.targetOf p.pool).map (fun d => s.fam.dead.contains d)).getD false

/-- A page record. -/
def State.page? (s : State) (n : Nat) : Option PageRec := s.cane.recs.get? n

/-- Replace or add a page record. -/
def State.setPage (s : State) (n : Nat) (p : PageRec) : State :=
  { s with cane := { s.cane with recs := s.cane.recs.set n p } }

/-- Change a page record, where it is in use. -/
def State.onPage (s : State) (n : Nat) (f : PageRec → PageRec) : State :=
  match s.page? n with
  | some p => s.setPage n (f p)
  | none => s

/-- The lowest free page record (the order of records is the model's choice: log entry 12). -/
def State.freeRecord (s : State) : Option Nat :=
  match s.cane.recs.freeFrom 1 (s.cane.recs.size + 1) with
  | some n => if n < s.reg .CANE_REC_COUNT_COUNT then some n else none
  | none => none

/-- Whether a page of the layout can be allotted now, with HBM space for its metadata tile (R106, R139). -/
def State.pageRoom (s : State) (tenant : Nat) (l : Layout) (reserve : Bool) : Bool :=
  s.freeRecord.isSome && s.heapRoom tenant l.pageBytes reserve

/-- Allot a page record with REFS 1 and its HBM space (R106, R160). RECORDS_LOW is set at every allotment that leaves more than
15/16 of the table in use, not only at the one that passes that level (R186 names the passing only: log entry 114). -/
def State.allotPage (s : State) (tenant model : Nat) (l : Layout) (slots : List Slot) : Option (Nat × State) :=
  match s.freeRecord with
  | none => none
  | some n =>
    let p : PageRec := { refs := 1, inHbm := true, tilesM1 := l.kvTiles - 1, slots := slots, model := model,
                         tenant := tenant, metaLen := l.metaRaw,
                         hbmKv := (Config.freeWord s.free).toNat / 65536 * 65536,
                         hbmMeta := (Config.freeWord (s.free + 1)).toNat / 4096 * 4096 }
    let s := ((s.setPage n p).heapTake tenant l.pageBytes).useFree 2
    let s := if 16 * s.cane.recs.size > 15 * s.reg .CANE_REC_COUNT_COUNT then s.setIntBit pgCane 9 else s
    some (n, s)

/-- Hand a record whose REFS and PINS are both 0 to page reclamation (R163). -/
def State.handOver (s : State) (n : Nat) : State :=
  if s.cane.reclaim.contains n then s else { s with cane := { s.cane with reclaim := s.cane.reclaim ++ [n] } }

/-- REFS + 1; only a REFS above 0 can rise (R161). -/
def State.incRef (s : State) (n : Nat) : State :=
  s.onPage n (fun p => if p.refs = 0 then p else { p with refs := p.refs + 1 })

/-- REFS − 1; a decrement of 0 puts CANE FAILED with 0x0002 (R161). -/
def State.decRef (s : State) (n : Nat) : State :=
  match s.page? n with
  | none => s
  | some p =>
    if p.refs = 0 then s.failPage pgCane 0x0002
    else
      let s := s.setPage n { p with refs := p.refs - 1 }
      if p.refs = 1 ∧ p.pins = 0 then s.handOver n else s

/-- Take a step pin (R162). -/
def State.pin (s : State) (n : Nat) : State := s.onPage n (fun p => { p with pins := p.pins + 1 })

def State.pinAll (s : State) (l : List Nat) : State := l.foldl State.pin s

/-- HBM-user counts of the pages of a session change when it comes to or leaves HBM (R137). -/
def State.addUsers (s : State) (l : List Nat) : State :=
  l.foldl (fun s n => s.onPage n (fun p => { p with users := p.users + 1 })) s

def State.dropUsers (s : State) (l : List Nat) : State :=
  l.foldl (fun s n => s.onPage n (fun p => { p with users := p.users - 1 })) s

/-- The page records of a session, in page order. -/
def Session.frames (x : Session) : List Nat := x.table.map (·.frame)

/-- Bytes of a page in a pool: its KV tiles, and its metadata tile, when sealed, in 4 KiB-aligned space (R118). -/
def PageRec.poolBytes (p : PageRec) : Nat := (p.tilesM1 + 1) * 65536 + if p.isSealed then roundUp p.metaLen 4096 else 0

/-- State tiles of a page: KV tiles, and the metadata tile when sealed. -/
def PageRec.tiles (p : PageRec) : Nat := p.tilesM1 + 1 + if p.isSealed then 1 else 0

/-- Heap bytes of a page's HBM copy. -/
def PageRec.hbmBytes (p : PageRec) : Nat := (p.tilesM1 + 1) * 65536 + roundUp p.metaLen 4096

/-- Release the HBM copy of a page. -/
def State.dropHbm (s : State) (n : Nat) : State :=
  match s.page? n with
  | some p => if p.inHbm then (s.setPage n { p with inHbm := false }).heapGive p.tenant p.hbmBytes else s
  | none => s

/-- Release the flash copy of a page. -/
def State.dropFlash (s : State) (n : Nat) : State :=
  match s.page? n with
  | some p =>
    if p.onFlash then
      let s := s.setPage n { p with onFlash := false, flashBytes := 0 }
      { s with stm := { s.stm with flashUsed := s.stm.flashUsed - p.flashBytes } }
    else s
  | none => s

/-- Release the pool copy of a page. -/
def State.dropPool (s : State) (n : Nat) : State :=
  match s.page? n with
  | some p =>
    if p.inPool then
      let s := s.setPage n { p with inPool := false, poolDue := false }
      { s with stm := { s.stm with poolUsed := s.stm.poolUsed - p.poolBytes } }
    else s
  | none => s

/-- The number of copies of a page. -/
def PageRec.copies (p : PageRec) : Nat := b2n p.inHbm + b2n p.onFlash + b2n p.inPool

/-- A redundant copy may go: it is not the last of a page with holders, no pin is held, and the checkpoint engine reads
none (R138). -/
def PageRec.mayDrop (p : PageRec) : Bool :=
  (decide (1 < p.copies) || p.refs == 0) && p.pins == 0 && p.ckptReads == 0

/-- Release the HBM copy of a page whose HBM-user count is 0 (R138); that of an unsealed page only where it has just gone to
another tier (R111). -/
def State.dropIdleHbm (s : State) (n : Nat) : State :=
  match s.page? n with
  | some p => if p.inHbm && p.users == 0 && p.mayDrop && (p.isSealed || decide (1 < p.copies)) then s.dropHbm n else s
  | none => s

/-- The last POOLED session that held a sealed page has been promoted: its pool copy is released, or is due for it (R138). -/
def State.dropIdlePool (s : State) (n : Nat) : State :=
  match s.page? n with
  | some p =>
    if p.isSealed && p.inPool then (if p.mayDrop then s.dropPool n else s.setPage n { p with poolDue := true }) else s
  | none => s

/-- Free flash space is below STM_FLASH_LOW (R138, R157). -/
def State.flashShort (s : State) : Bool := decide (s.flashFree < s.reg .STM_FLASH_LOW_GIB * 2 ^ 30)

/-- The flash copy that goes next while space is short: of a sealed page, one with a copy in HBM before one without, the page
sealed first among equals (R138). -/
def State.nextFlashDrop (s : State) : Option Nat :=
  let l := s.cane.recs.entries.filter (fun e => e.2.isSealed && e.2.onFlash && decide (e.2.refs ≠ 0) && e.2.mayDrop)
  let first (l : List (Nat × PageRec)) : Option (Nat × PageRec) :=
    l.foldl (fun best e => match best with
      | none => some e
      | some b => if e.2.uid % 2 ^ 48 < b.2.uid % 2 ^ 48 then some e else some b) none
  ((first (l.filter (·.2.inHbm))).or (first l)).map (·.1)

/-- Flash copies go while free flash space is short (R138). -/
def releaseFlash : Nat → State → State
  | 0, s => s
  | fuel + 1, s =>
    if s.flashShort then
      match s.nextFlashDrop with
      | some n => releaseFlash fuel (s.dropFlash n)
      | none => s
    else s

def State.easeFlash (s : State) : State := if s.flashShort then releaseFlash s.cane.recs.size s else s

/-- A release that a pin or a read held back is made once they have gone, if its cause still holds (R138, R163). -/
def State.releaseHeld (s : State) (n : Nat) : State :=
  let s := s.dropIdleHbm n
  let s := match s.page? n with
    | some p => if p.poolDue then s.dropIdlePool n else s
    | none => s
  s.easeFlash

/-- Release a step pin; a decrement of 0 puts CANE FAILED (R161, R163). -/
def State.unpin (s : State) (n : Nat) : State :=
  match s.page? n with
  | none => s
  | some p =>
    if p.pins = 0 then s.failPage pgCane 0x0002
    else
      let s := s.setPage n { p with pins := p.pins - 1 }
      if p.pins = 1 then (if p.refs = 0 then s.handOver n else s.releaseHeld n) else s

def State.unpinAll (s : State) (l : List Nat) : State := l.foldl State.unpin s

/-- Seal a page: UID, key summary, SEALED (R104, R109, R110). The sealed-page count covers every page sealed since power-on,
this one among them. -/
def State.seal (s : State) (n : Nat) : State :=
  match s.page? n with
  | some p =>
    let uid := s.reg .FAM_SELF_DEVICE * 2 ^ 48 + (s.cane.sealedCount + 1) % 2 ^ 48
    let s := s.setPage n { p with
      isSealed := true, uid := uid, sumUnbounded := (s.model p.model).unbounded p.slots }
    { s with cane := { s.cane with sealedCount := s.cane.sealedCount + 1 } }
  | none => s

/-- Slots of an entry: the first COUNT slots of its page. -/
def State.entrySlots (s : State) (e : PtEntry) : List Slot := (((s.page? e.frame).map (·.slots)).getD []).take e.count

/-- A page that the session holds has a record with an uncorrectable error: its commands complete with INTERNAL (R188). -/
def State.holdsBad (s : State) (x : Session) : Bool := x.frames.any (fun n => ((s.page? n).map (·.bad)).getD false)

/-- The positions a session holds, in page-table order (R113). -/
def State.heldSlots (s : State) (x : Session) : List Slot := x.table.flatMap s.entrySlots

end Sys2Proof.Machine
end

