-- ==== Sys2Proof/Machine/Attention.lean ====
section
/-!
DEFINITION. Attention over the pages of a session (R226 to R238, R244, R245): the layer's parameters, the page partials, the
pages a decode row attends, and the weights that the eviction scorer gets. Keys and values are those that the positions' digests stand
for; queries and exit logits are the model's own (log entry 38).
-/
namespace Sys2Proof.Machine

/-- A page of a session as attention reads it: its index in the page table, whether it is sealed, SUM_UNBOUNDED, and the slots
that hold positions. -/
structure PageView where
  page : Nat
  isSealed : Bool
  unbounded : Bool
  slots : List Slot

/-- KV head of a query head (R227). -/
def LayerProg.kvHead (a : LayerProg) (h : Nat) : Nat := h / max 1 (a.hq / max 1 a.hkv)

/-- The query of a head converted to Q_FORMAT (R198, R226). -/
def LayerProg.queryCodes (a : LayerProg) (q : List Word) : List Nat := q.map (fun w => (convert a.qFormat (f32 w)).code)

/-- The slots of a page for a KV head: valid below COUNT where the original index is at most `t` (R230). -/
def Model.pageKv (m : Model) (layer : Nat) (a : LayerProg) (head t : Nat) (v : PageView) : PageKv :=
  (List.range 256).map (fun i => (v.slots[i]?).bind (fun q =>
    if q.index ≤ t then some (m.keyOf layer a head q.kv, m.valueOf layer a head q.kv) else none))

/-- The partial of a page for a row at original index `t` and a query head (R229, R231). -/
def Model.partialOf (m : Model) (layer : Nat) (a : LayerProg) (t h : Nat) (q : List Word) (v : PageView) :
    Option (Partial × List Word) :=
  attnPartial a m.layout.kvFormat v.page (a.queryCodes q) (m.pageKv layer a (a.kvHead h) t v)

/-- The bound u(p) of a sealed page for a row (R237, R238): +∞ with SUM_UNBOUNDED. -/
def Model.boundOf (m : Model) (layer : Nat) (a : LayerProg) (qs : List (List Word)) (v : PageView) : Word :=
  if v.unbounded then 0x7F800000
  else summaryBound ((qs.zip (List.range qs.length)).map (fun (q, h) =>
    let codes := a.queryCodes q
    (codes.zip (m.headSummary layer a v.slots (a.kvHead h))).map (fun (c, e) =>
      (toF32 (elemValue a.qFormat c), e4m3Word e.1.1, e4m3Word e.1.2)))) a.scale

/-- The forced pages of a decode row (R236): those that hold any of the SINK lowest-index positions held, the last sealed page, and
the tail page. -/
def forcedPages (sink : Nat) (vs : List PageView) : List Nat :=
  let held := sortBy (fun (a b : Nat) => decide (a ≤ b)) (vs.flatMap (fun v => v.slots.map (·.index)))
  let sinks := held.take sink
  let lastSealed := ((vs.filter (·.isSealed)).getLast?).map (·.page)
  (vs.filter (fun v => v.slots.any (fun q => sinks.contains q.index) || some v.page == lastSealed || !v.isSealed)).map
    (·.page)

/-- The pages that a decode row attends from a selector layer on (R236, R238). -/
def Model.attends (m : Model) (p : Params) (layer : Nat) (a : LayerProg) (qs : List (List Word)) (vs : List PageView) :
    List Nat :=
  let forced := forcedPages p.sink vs
  attendedSet p.topP vs.length forced
    ((vs.filter (fun v => !forced.contains v.page)).map (fun v => (v.page, m.boundOf layer a qs v)))

/-- The attention weights of a head of a row on the valid slots of the pages it attends, by original index (R232, R234). -/
def Model.headWeights (m : Model) (layer : Nat) (a : LayerProg) (t h : Nat) (q : List Word) (vs : List PageView) :
    List (Nat × Word) :=
  let ps := vs.filterMap (fun v => (m.partialOf layer a t h q v).map (fun r => (v, r)))
  match mergeAll (ps.map (·.2.1)) with
  | none => []
  | some f =>
    ps.flatMap (fun (v, part, pr) =>
      let ws := attnWeights pr part.m f.m (frecip f.l)
      ((v.slots.zip ws).filter (fun e => decide (e.1.index ≤ t))).map (fun e => (e.1.index, e.2)))

/-- What governs a decode row: model, parameters, exit points, fingerprint and configuration, and the digests held up to the row. -/
structure RowEnv where
  model : Model
  params : Params
  points : List ExitPoint
  fp : Nat
  cfg : Nat
  ctx : List (Nat × DWord)

/-- Query vectors of a layer, one for each head. -/
def RowEnv.queries (e : RowEnv) (layer : Nat) (a : LayerProg) : List (List Word) :=
  (List.range a.hq).map (fun h => (List.range a.dk).map (fun c => Config.queryOf e.fp e.cfg e.ctx layer h c))

/-- The row exits at the end of the layer (R245). -/
def RowEnv.exitsAt (e : RowEnv) (layer : Nat) : Bool :=
  (e.points.find? (fun p => p.layer == layer)).any (fun p => exits (Config.exitLogit e.fp e.cfg e.ctx layer) p.threshold)

/-- The weights of a decode row at original index `t`, layer by layer and head by head (R179, R234), from `layer` on with the
attended set in effect; an exited row has none in later layers (R246). -/
def RowEnv.weights (e : RowEnv) (t : Nat) (vs : List PageView) : Nat → List Nat → List LayerProg → List (List (Nat × Word))
  | _, _, [] => []
  | layer, on, a :: rest =>
    let qs := e.queries layer a
    let on := if a.selector then e.model.attends e.params layer a qs vs else on
    let here := (qs.zip (List.range qs.length)).map (fun (q, h) =>
      e.model.headWeights layer a t h q (vs.filter (fun v => on.contains v.page)))
    here ++ (if e.exitsAt layer then [] else e.weights t vs (layer + 1) on rest)

/-- mass(p) of R179 from the weights of the decode rows in order: binary32 sums; a position that no row attended has 0. -/
def massFrom (ws : List (List (Nat × Word))) (p : Nat) : Word :=
  ws.foldl (fun acc l => fadd acc (((l.find? (fun e => e.1 == p)).map (·.2)).getD f32zero)) f32zero

/-- The pages of a session as its page table has them. -/
def State.pageViews (s : State) (x : Session) : List PageView :=
  (x.table.zip (List.range x.table.length)).map (fun (e, k) =>
    { page := k, isSealed := e.isSealed, slots := s.entrySlots e
      unbounded := ((s.page? e.frame).map (·.sumUnbounded)).getD false })

/-- New slots join the pages: each into the tail page, or into a new page where that is full or there is none. -/
def addSlots (vs : List PageView) : List Slot → List PageView
  | [] => vs
  | q :: l =>
    match vs.getLast? with
    | some v =>
      if !v.isSealed && decide (v.slots.length < 256) then addSlots (vs.dropLast ++ [{ v with slots := v.slots ++ [q] }]) l
      else addSlots (vs ++ [{ page := vs.length, isSealed := false, unbounded := false, slots := [q] }]) l
    | none => addSlots [{ page := 0, isSealed := false, unbounded := false, slots := [q] }] l

/-- The weights that a session's decode rows deliver at a commit: `new` are the rows' slots in ascending order, `vs` the pages with them. -/
def decodeWeights (e : RowEnv) (vs : List PageView) (new : List Slot) : List (List (Nat × Word)) :=
  new.flatMap (fun q => e.weights q.index vs 0 (vs.map (·.page)) e.model.program)

end Sys2Proof.Machine
end

