-- ==== Sys2Proof/Machine/Sha.lean ====
section
/-!
DEFINITION. The hash functions the spec names (SHA-256 in R214, R218, R288; SHA-384 in R436, R438, R442, R498), written once for both
word widths, and the key derivation of R442. The constants are computed from what FIPS 180-4 says they are: fractional bits
of square and cube roots of the first primes.
-/
namespace Sys2Proof.Machine

/-- A SHA-2 function by its word width in bits, its rounds, and the amounts of its four mixing functions: those of the two
chains are three rotations, those of the message window two rotations and a shift. -/
structure HashKind where
  bits : Nat
  rounds : Nat
  lead : Nat × Nat × Nat
  follow : Nat × Nat × Nat
  near : Nat × Nat × Nat
  far : Nat × Nat × Nat

def hash256 : HashKind :=
  { bits := 32, rounds := 64, lead := (2, 13, 22), follow := (6, 11, 25), near := (17, 19, 10), far := (7, 18, 3) }

def hash512 : HashKind :=
  { bits := 64, rounds := 80, lead := (28, 34, 39), follow := (14, 18, 41), near := (19, 61, 6), far := (1, 8, 7) }

/-- The primes below 410: the first 80. -/
def firstPrimes : List Nat := (List.range' 2 408).filter (fun n => (List.range' 2 19).all (fun d => n ≤ d || n % d != 0))

/-- The greatest `r` below 2^(number of steps), at least the start, whose `k`-th power is at most `n`, found bit by bit. -/
def rootFrom (k n : Nat) : Nat → Nat → Nat
  | 0, r => r
  | b + 1, r => rootFrom k n b (if (r + 2 ^ b) ^ k ≤ n then r + 2 ^ b else r)

/-- The first `w` fractional bits of the `k`-th root of `p`, for roots below 8. -/
def rootFraction (k w p : Nat) : Nat := rootFrom k (p * 2 ^ (k * w)) (w + 3) 0 % 2 ^ w

/-- Round constants of 64 bits; those of SHA-256 are the upper halves of the first 64. -/
def cubeFractions : List Nat := firstPrimes.map (rootFraction 3 64)

def HashKind.constants (h : HashKind) : List Nat := (cubeFractions.take h.rounds).map (· / 2 ^ (64 - h.bits))

/-- `x` turned right by `n` of the width's bits. -/
def HashKind.turn (h : HashKind) (x n : Nat) : Nat := x / 2 ^ n + x % 2 ^ n * 2 ^ (h.bits - n)

def HashKind.mix (h : HashKind) (r : Nat × Nat × Nat) (x : Nat) : Nat :=
  Nat.xor (h.turn x r.1) (Nat.xor (h.turn x r.2.1) (h.turn x r.2.2))

def HashKind.mixShift (h : HashKind) (r : Nat × Nat × Nat) (x : Nat) : Nat :=
  Nat.xor (h.turn x r.1) (Nat.xor (h.turn x r.2.1) (x / 2 ^ r.2.2))

/-- The working value: its two chains of four words, newest word first. -/
structure HashValue where
  lead : List Nat
  follow : List Nat

def chainAt (l : List Nat) (i : Nat) : Nat := l.getD i 0

/-- One round with the sum `x` of its constant and its message word: each chain takes one new word. -/
def HashKind.roundStep (h : HashKind) (v : HashValue) (x : Nat) : HashValue :=
  let f := chainAt v.follow
  let l := chainAt v.lead
  let choose := Nat.xor (f 2) (Nat.land (f 0) (Nat.xor (f 1) (f 2)))
  let most := Nat.lor (Nat.land (l 0) (l 1)) (Nat.land (l 2) (Nat.lor (l 0) (l 1)))
  let t := f 3 + h.mix h.follow (f 0) + choose + x
  { lead := (t + h.mix h.lead (l 0) + most) % 2 ^ h.bits :: v.lead.take 3
    follow := (l 3 + t) % 2 ^ h.bits :: v.follow.take 3 }

/-- The rounds of one block: the window holds the 16 message words that the next rounds use, in order. -/
def HashKind.runRounds (h : HashKind) : List Nat → List Nat → HashValue → HashValue
  | [], _, v => v
  | k :: ks, window, v =>
    let m := chainAt window
    let next := (m 0 + h.mixShift h.far (m 1) + m 9 + h.mixShift h.near (m 14)) % 2 ^ h.bits
    h.runRounds ks (window.drop 1 ++ [next]) (h.roundStep v (k + m 0))

/-- A number of `n` bytes, most significant byte first. -/
def bytesBig (v n : Nat) : List Byte := (leBytes v n).reverse
def numBig (bs : List Byte) : Nat := leNat bs.reverse

/-- The message with its 1 bit, its zeros and its length in two words, as words of the width, `n` of them. -/
def HashKind.words (h : HashKind) (bs : List Byte) : Nat → List Nat
  | 0 => []
  | n + 1 => numBig (bs.take (h.bits / 8)) :: h.words (bs.drop (h.bits / 8)) n

def HashKind.fillUp (h : HashKind) (bs : List Byte) : List Byte :=
  let used := bs.length + 1 + h.bits / 4
  bs ++ (0x80 : Byte) :: List.replicate (roundUp used (h.bits * 2) - used) 0 ++ bytesBig (bs.length * 8) (h.bits / 4)

/-- Blocks of 16 words, each added to the value it started from. -/
def HashKind.absorb (h : HashKind) : Nat → List Nat → HashValue → HashValue
  | 0, _, v => v
  | n + 1, ws, v =>
    let out := h.runRounds h.constants (ws.take 16) v
    let sum (a b : List Nat) : List Nat := List.zipWith (fun x y => (x + y) % 2 ^ h.bits) a b
    h.absorb n (ws.drop 16) { lead := sum v.lead out.lead, follow := sum v.follow out.follow }

/-- The bytes of the hash of a message, from the starting words. -/
def HashKind.digest (h : HashKind) (start : List Nat) (bs : List Byte) : List Byte :=
  let m := h.fillUp bs
  let n := m.length / (h.bits / 8)
  let v := h.absorb (n / 16) (h.words m n) { lead := start.take 4, follow := start.drop 4 }
  (v.lead ++ v.follow).flatMap (fun w => bytesBig w (h.bits / 8))

/-- The digest of SHA-256 and SHA-384, byte 0 first. -/
def sha256Bytes (bs : List Byte) : List Byte := hash256.digest ((firstPrimes.take 8).map (rootFraction 2 32)) bs

def sha384Bytes (bs : List Byte) : List Byte :=
  (hash512.digest (((firstPrimes.drop 8).take 8).map (rootFraction 2 64)) bs).take 48

/-- The same as numbers, byte 0 in bits [7:0] (R8). -/
def sha256 (bs : List Byte) : Nat := leNat (sha256Bytes bs)
def sha384 (bs : List Byte) : Nat := leNat (sha384Bytes bs)

/-! ## Key derivation (R442) -/

/-- HMAC with SHA-384 (FIPS 198-1): blocks of 128 bytes. -/
def hmac384 (key msg : List Byte) : List Byte :=
  let k := if key.length ≤ 128 then key else sha384Bytes key
  let block (pad : Byte) : List Byte := (k ++ List.replicate (128 - k.length) (0 : Byte)).map (· ^^^ pad)
  sha384Bytes (block 0x5C ++ sha384Bytes (block 0x36 ++ msg))

/-- ASCII text. -/
def asciiBytes (t : String) : List Byte := t.toList.map (fun c => BitVec.ofNat 8 c.toNat)

/-- The KDF in counter mode of NIST SP 800-108 with HMAC-SHA-384: `bits` of output. The widths of its counter and length fields
and the zero byte between label and context are SP 800-108's usual ones (log entry 107). -/
def kdf (key : List Byte) (label : String) (context : List Byte) (bits : Nat) : List Byte :=
  let block (i : Nat) : List Byte :=
    hmac384 key (bytesBig i 4 ++ asciiBytes label ++ (0 : Byte) :: context ++ bytesBig bits 4)
  (((List.range (ceilDiv bits 384)).flatMap (fun i => block (i + 1)))).take (bits / 8)

end Sys2Proof.Machine
end

