-- ==== Sys2Proof/Machine/Aes.lean ====
section
/-!
DEFINITION. The block cipher that the spec names and its modes: AES-256 (FIPS 197), GCM (SP 800-38D; R125, R447, R449, R450), CMAC
(SP 800-38B; R446), XTS (IEEE 1619; R444, R446) and AES Key Wrap (RFC 3394; R439). The substitution table is computed from its
definition, the inverse in the field of 256 elements followed by an affine map.
-/
namespace Sys2Proof.Machine

/-! ## The field of 256 elements -/

/-- Times x, in the field. -/
def fieldDouble (a : Nat) : Nat := if a < 128 then 2 * a else Nat.xor (2 * a) 0x11B

/-- Times 3. -/
def fieldTriple (a : Nat) : Nat := Nat.xor (fieldDouble a) a

def fieldMul : Nat → Nat → Nat → Nat
  | 0, _, _ => 0
  | n + 1, a, b => Nat.xor (if b % 2 = 1 then a else 0) (fieldMul n (fieldDouble a) (b / 2))

/-- The powers of 3, which are the 255 elements that have an inverse. -/
def powersOf3 : Nat → Nat → List Nat
  | 0, _ => []
  | n + 1, a => a :: powersOf3 n (fieldTriple a)

/-- The affine map of FIPS 197 on an element. -/
def affine (a : Nat) : Nat :=
  let r (k : Nat) : Nat := (a * 2 ^ k) / 256 + (a * 2 ^ k) % 256
  Nat.xor 0x63 (Nat.xor a (Nat.xor (r 1) (Nat.xor (r 2) (Nat.xor (r 3) (r 4)))))

/-- The substitution, as one number with the byte of `a` at bits [8a + 7:8a], and its inverse. 3^k and 3^(255 − k) are inverse. -/
def substPairs : List (Nat × Nat) :=
  let p := powersOf3 255 1
  (0, 0x63) :: p.zip ((1 :: (p.drop 1).reverse).map affine)

def substTable : Nat := substPairs.foldl (fun t e => t + e.2 * 2 ^ (8 * e.1)) 0
def unsubstTable : Nat := substPairs.foldl (fun t e => t + e.1 * 2 ^ (8 * e.2)) 0

def tableByte (t a : Nat) : Nat := t / 2 ^ (8 * a) % 256

/-! ## AES-256 -/

def xorLists (a b : List Nat) : List Nat := List.zipWith Nat.xor a b

/-- The words of the key schedule after the first eight, four bytes each: `prev` holds the last eight, oldest first. -/
def scheduleFrom : Nat → Nat → Nat → List (List Nat) → List (List Nat)
  | 0, _, _, _ => []
  | n + 1, i, rcon, prev =>
    let last := prev.getD 7 []
    let t := if i % 8 = 0 then
        xorLists ((last.drop 1 ++ last.take 1).map (tableByte substTable)) [rcon, 0, 0, 0]
      else if i % 8 = 4 then last.map (tableByte substTable) else last
    let w := xorLists (prev.getD 0 []) t
    w :: scheduleFrom n (i + 1) (if i % 8 = 0 then fieldDouble rcon else rcon) (prev.drop 1 ++ [w])

def pieces (k : Nat) : Nat → List Nat → List (List Nat)
  | 0, _ => []
  | n + 1, l => l.take k :: pieces k n (l.drop k)

/-- The 15 round keys of a key of 32 bytes. -/
def roundKeys (key : List Byte) : List (List Nat) :=
  let w := pieces 4 8 (key.map (·.toNat))
  pieces 16 15 ((w ++ scheduleFrom 52 8 1 w).flatten)

/-- SHIFT ROWS and its inverse: byte i is row i mod 4 of column i / 4. -/
def turnRows (back : Bool) (b : List Nat) : List Nat :=
  (List.range 16).map (fun i => b.getD ((i + (if back then 12 else 4) * (i % 4)) % 16) 0)

/-- Each column times a matrix, whose first row is given. -/
def mixColumns (row : List Nat) : Nat → List Nat → List Nat
  | 0, _ => []
  | n + 1, b =>
    let col := b.take 4
    (List.range 4).map (fun r =>
      ((List.range 4).map (fun c => fieldMul 4 (col.getD c 0) (row.getD ((c + 4 - r) % 4) 0))).foldl Nat.xor 0)
      ++ mixColumns row n (b.drop 4)

/-- The rounds after the first key: the last has no mixing of columns. -/
def cipherRounds : List (List Nat) → List Nat → List Nat
  | [], b => b
  | k :: ks, b =>
    let x := turnRows false (b.map (tableByte substTable))
    cipherRounds ks (xorLists k (if ks.isEmpty then x else mixColumns [2, 3, 1, 1] 4 x))

def decipherRounds : List (List Nat) → List Nat → List Nat
  | [], b => b
  | k :: ks, b =>
    let x := xorLists k ((turnRows true b).map (tableByte unsubstTable))
    decipherRounds ks (if ks.isEmpty then x else mixColumns [14, 11, 13, 9] 4 x)

/-- A block of 16 bytes under round keys, and back. -/
def encipher (ks : List (List Nat)) (b : List Nat) : List Nat := cipherRounds (ks.drop 1) (xorLists (ks.headD []) b)
def decipher (ks : List (List Nat)) (b : List Nat) : List Nat :=
  decipherRounds (ks.reverse.drop 1) (xorLists (ks.reverse.headD []) b)

/-- The same over bytes. -/
def aesBlock (ks : List (List Nat)) (b : List Byte) : List Byte := (encipher ks (b.map (·.toNat))).map (BitVec.ofNat 8)
def aesUnblock (ks : List (List Nat)) (b : List Byte) : List Byte := (decipher ks (b.map (·.toNat))).map (BitVec.ofNat 8)

def xorBytes (a b : List Byte) : List Byte := List.zipWith (· ^^^ ·) a b

/-- Bytes in blocks of 16, the last one as short as it comes. -/
def blocksOf (b : List Byte) : List (List Byte) := chunks 16 b.length b

/-- A block filled up with zeros. -/
def padBlock (b : List Byte) : List Byte := b ++ List.replicate (16 - b.length) 0

/-! ## GCM -/

/-- The product in the field of 2^128 elements that GHASH uses: bit 127 of a number is its first bit. -/
def ghashMul : Nat → Nat → Nat → Nat → Nat
  | 0, _, _, z => z
  | n + 1, x, v, z =>
    ghashMul n x (if v % 2 = 1 then Nat.xor (v / 2) (0xE1 * 2 ^ 120) else v / 2) (if x / 2 ^ n % 2 = 1 then Nat.xor z v else z)

/-- GHASH over blocks. -/
def ghash (h : Nat) (bs : List (List Byte)) : Nat :=
  bs.foldl (fun y b => ghashMul 128 (Nat.xor y (numBig (padBlock b))) h 0) 0

/-- The counter block of a nonce of 12 bytes. -/
def gcmCounter (nonce : List Byte) (i : Nat) : List Byte := nonce ++ bytesBig i 4

/-- Text under the key stream, one way or the other. -/
def gcmText (ks : List (List Nat)) (nonce text : List Byte) : List Byte :=
  ((blocksOf text).zip (List.range (blocksOf text).length)).flatMap (fun (b, i) =>
    xorBytes b (aesBlock ks (gcmCounter nonce (i + 2))))

/-- The tag of a ciphertext with its additional data. -/
def gcmTag (ks : List (List Nat)) (nonce aad cipher : List Byte) : List Byte :=
  let h := numBig (aesBlock ks (List.replicate 16 0))
  let s := ghash h (blocksOf aad ++ blocksOf cipher ++ [bytesBig (8 * aad.length) 8 ++ bytesBig (8 * cipher.length) 8])
  xorBytes (bytesBig s 16) (aesBlock ks (gcmCounter nonce 1))

/-- Encryption under a key: ciphertext and tag. -/
def gcmSeal (key nonce aad text : List Byte) : List Byte × List Byte :=
  let ks := roundKeys key
  let c := gcmText ks nonce text
  (c, gcmTag ks nonce aad c)

/-- Decryption: the plaintext, where the tag is right. -/
def gcmOpen (key nonce aad cipher tag : List Byte) : Option (List Byte) :=
  let ks := roundKeys key
  if gcmTag ks nonce aad cipher = tag then some (gcmText ks nonce cipher) else none

/-! ## CMAC, XTS and key wrap -/

/-- A block times x: in CMAC the first byte is the most significant. -/
def cmacDouble (b : List Byte) : List Byte :=
  let v := 2 * numBig b
  bytesBig (if v < 2 ^ 128 then v else Nat.xor (v % 2 ^ 128) 0x87) 16

/-- AES-CMAC-256. -/
def cmac (key msg : List Byte) : List Byte :=
  let ks := roundKeys key
  let k1 := cmacDouble (aesBlock ks (List.replicate 16 0))
  let bs := blocksOf msg
  let last := (bs.getLast?).getD []
  let final := if last.length = 16 then xorBytes last k1 else xorBytes (padBlock (last ++ [0x80])) (cmacDouble k1)
  (bs.dropLast ++ [final]).foldl (fun c b => aesBlock ks (xorBytes c b)) (List.replicate 16 0)

/-- A block of XTS, and the tweak of the next: the first byte is the least significant. -/
def xtsBlocks (ks : List (List Nat)) : Nat → List (List Byte) → List Byte
  | _, [] => []
  | t, b :: rest =>
    xorBytes (aesBlock ks (xorBytes b (leBytes t 16))) (leBytes t 16)
      ++ xtsBlocks ks (if 2 * t < 2 ^ 128 then 2 * t else Nat.xor (2 * t % 2 ^ 128) 0x87) rest

/-- AES-XTS-256 of a data unit that is a whole number of blocks, under a key of two halves. -/
def xtsSeal (key : List Byte) (unit : Nat) (text : List Byte) : List Byte :=
  xtsBlocks (roundKeys (key.take 32)) (leNat (aesBlock (roundKeys (key.drop 32)) (leBytes unit 16))) (blocksOf text)

/-- The unwrapping of RFC 3394: `t` counts down, `a` is the check value, `r` the key's blocks of 8 bytes, last one first. -/
def unwrapFrom (ks : List (List Nat)) : Nat → List Byte → List (List Byte) → List Byte × List (List Byte)
  | 0, a, r => (a, r)
  | t + 1, a, r =>
    let b := aesUnblock ks (xorBytes a (bytesBig (t + 1) 8) ++ r.headD [])
    unwrapFrom ks t (b.take 8) (r.drop 1 ++ [b.drop 8])

/-- AES Key Wrap backwards: the key, where its check value is right. -/
def unwrapKey (key wrapped : List Byte) : Option (List Byte) :=
  let r := chunks 8 wrapped.length (wrapped.drop 8)
  let (a, r) := unwrapFrom (roundKeys key) (6 * r.length) (wrapped.take 8) r.reverse
  if a = List.replicate 8 0xA6 then some r.reverse.flatten else none

end Sys2Proof.Machine
end

