-- ==== Sys2Proof/Machine/Keys.lean ====
section
/-!
DEFINITION. Keys of the security island: what is derived, with its label and context (R434, R439, R442, R448 to R450, R452), and the
device's identity. What AES Key Wrap and the elliptic curve give are values without a body (log entry 125).
-/
namespace Sys2Proof.Machine

/-! ## Derived keys (R442) -/

/-- The key that wraps what a KEY_DELIVER brings (R439). -/
def deliverKey (secret : List Byte) : List Byte := kdf secret "WG-DELIVER" [] 256

/-- The key of a capsule (R448). -/
def capsuleKey (ttk nonce : List Byte) (tenant : Nat) : List Byte := kdf ttk "WG-CAPSULE" (nonce ++ leBytes tenant 2) 256

/-- The keys of a checkpoint: of the index and the device's own objects, and of a tenant's objects (R449). -/
def ckptIndexKey (ckk nonce : List Byte) : List Byte := kdf ckk "WG-CKPT-D" nonce 256
def ckptTenantKey (ttk nonce : List Byte) (tenant : Nat) : List Byte := kdf ttk "WG-CKPT-T" (nonce ++ leBytes tenant 2) 256

/-- The key of section `i` of a model package (R450). -/
def sectionKey (modelKey : List Byte) (fp i : Nat) : List Byte := kdf modelKey "WG-MODEL" (leBytes fp 32 ++ leBytes i 1) 256

/-- The keys of a stream's generation, for each direction and sub-stream (R452); the widths of the context's integers but the
generation's are the model's (log entry 107). -/
def ideKeys (secret : List Byte) (stream gen : Nat) : List (List Byte) :=
  [0, 1].flatMap (fun d => [0, 1, 2].map (fun b =>
    kdf secret "WG-IDE" (leBytes stream 1 ++ leBytes d 1 ++ leBytes b 1 ++ leBytes gen 4) 256))

/-! ## Keys that the island holds (R439, R443, R448) -/

/-- The export master secret of a secure session. -/
def State.exportSecret (s : State) (session : Nat) : List Byte :=
  Config.exportSecret session (((s.sec.spdm.get? session).map (·.opened)).getD 0)

/-- A tenant's current transport key, and the key that its KEY_REF names among those bound. -/
def Tenant.currentKey (t : Tenant) : List Byte := t.ttkKeys.headD []
def Tenant.keyNamed (t : Tenant) (ref : Nat) : List Byte :=
  (((t.ttks.zip t.ttkKeys).find? (fun e => e.1 == ref)).map (·.2)).getD []

/-- The keys that TENANT_OPEN draws, in the order in which the model takes them from the generator: HBM and flash, which are pairs for
XTS, the tag key of flash, and the pool key. -/
def Tenant.hbmKey (t : Tenant) : List Byte := slice t.drawn 0 64
def Tenant.flashKey (t : Tenant) : List Byte := slice t.drawn 64 64
def Tenant.tagKey (t : Tenant) : List Byte := slice t.drawn 128 32
def Tenant.poolKey (t : Tenant) : List Byte := slice t.drawn 160 32

/-- The staged model key of a KEY_REF. -/
def State.modelKey (s : State) (ref : Nat) : List Byte :=
  ((s.sec.staged.find? (fun _ k => k.kind == 3 && k.ref == ref)).map (fun e => e.2.key)).getD []

/-! ## Identity (R434) -/

/-- The identity that a boot derives: the DeviceID key from the unique device secret, which the PUF response and the fuse seed give
and which is never stored; the Alias key from it and the digests of measurements 2 and 3; and the chain of slot 0. -/
def deriveIdentity (fuseSeed : Nat) (firmware : List Nat) : Identity :=
  let device := Config.ecKey (Config.deviceSecret fuseSeed)
  let aliasKey := Config.ecKey (leBytes device.toNat 48 ++ leBytes (firmware.getD 1 0) 48 ++ leBytes (firmware.getD 2 0) 48)
  { device := device, aliasKey := aliasKey
    chain := [⟨.root, Config.rootKey, Config.rootSign 0⟩, ⟨.manufacturing, Config.makerKey, Config.rootSign 1⟩,
              ⟨.deviceId, Config.ecPublic device, Config.makerSign (Config.ecPublic device)⟩,
              ⟨.aliasId, Config.ecPublic aliasKey, Config.ecSign device (Config.ecPublic aliasKey)⟩] }

/-- SHA-384 over the chain of slot 0, whose encoding no rule gives. -/
def Identity.digest (i : Identity) : BitVec 384 := Config.chainDigest (i.chain.map (·.key)) (i.chain.map (·.signature))

/-! ## Measurements (R438) -/

/-- DMTF value type of a block: immutable ROM, mutable firmware, hardware and firmware configuration, and mutable firmware for models and
vocabularies (PRESUMED, log entry 124). -/
def measureType (i : Nat) : Nat := if i = 1 then 0 else if i = 4 ∨ i = 6 then 2 else if i = 5 then 3 else 1

/-- A measurement block in the DMTF measurement format: index, specification 1 and size, then the value's type, its size, and the
48 bytes of the digest. -/
def measureBlock (i v : Nat) : List Byte :=
  leBytes i 1 ++ leBytes 1 1 ++ leBytes 51 2 ++ leBytes (measureType i) 1 ++ leBytes 48 2 ++ leBytes v 48

end Sys2Proof.Machine
end

