-- ==== Sys2Proof/Machine/Lz4.lean ====
section
/-!
DEFINITION. The lossless compression of state tiles (R119): the planes of a KV tile, the LZ4 block format as the decoder reads it, and
when a compressed form is kept. What stepping A1's encoder makes of a tile is a value without a body (log entry 26).
-/
namespace Sys2Proof.Machine

/-- Bytes in planes: the bytes at offset 0 of each element of `w` bytes, in element order, then those at offset 1, and so on. -/
def planes (w : Nat) (b : List Byte) : List Byte :=
  (List.range w).flatMap (fun j => (List.range (b.length / w)).map (fun i => b.getD (w * i + j) 0))

/-- The order of a tile's bytes before coding: planes for a KV tile (FORMAT is not 0) with elements of 2 or 4 bytes. -/
def codingOrder (format : Nat) (b : List Byte) : List Byte :=
  let w := elemBits format / 8
  if format ≠ 0 ∧ (w = 2 ∨ w = 4) then planes w b else b

/-- The LZ4 block of a tile. -/
def lz4Coded (format : Nat) (b : List Byte) : List Byte := Config.lz4 (codingOrder format b)

/-- The stored length of a tile of `raw` bytes, and COMPRESSED: a block, which is never empty, is kept up to 15/16 of the raw
length. -/
def storedForm (compress : Bool) (block : List Byte) (raw : Nat) : Nat × Bool :=
  if compress && block != [] && decide (block.length ≤ raw * 15 / 16) then (block.length, true) else (raw, false)

/-! ## Decoding -/

/-- The rest of a length whose four bits are 15: bytes are added up to the first that is not 255. -/
def longLength (n : Nat) : List Byte → Option (Nat × List Byte)
  | [] => none
  | b :: l => if b = 255 then longLength (n + 255) l else some (n + b.toNat, l)

def lengthOf (n : Nat) (l : List Byte) : Option (Nat × List Byte) := if n < 15 then some (n, l) else longLength 15 l

/-- `n` bytes copied from `off` bytes back; the output stands newest byte first. -/
def copyBack (off : Nat) : Nat → List Byte → List Byte
  | 0, out => out
  | n + 1, out => copyBack off n (out.getD (off - 1) 0 :: out)

/-- The sequences of a block: literals, then a match; the last sequence ends with its literals. -/
def lz4Sequences : Nat → List Byte → List Byte → Option (List Byte)
  | 0, _, _ => none
  | _, [], _ => none
  | fuel + 1, token :: l, out =>
    (lengthOf (token.toNat / 16) l).bind (fun (n, l) =>
      if l.length < n then none
      else
        let out := (l.take n).reverse ++ out
        match l.drop n with
        | [] => some out.reverse
        | [_] => none
        | a :: b :: l =>
          let off := a.toNat + 256 * b.toNat
          if off = 0 ∨ out.length < off then none
          else (lengthOf (token.toNat % 16) l).bind (fun (k, l) => lz4Sequences fuel l (copyBack off (k + 4) out)))

/-- What a block decodes to, if it is valid. -/
def lz4Decode (block : List Byte) : Option (List Byte) := lz4Sequences block.length block []

end Sys2Proof.Machine
end

