-- ==== Sys2Proof/Machine/Prefix.lean ====
section
/-!
DEFINITION. The prefix index (the Cane): keys and hashes, lookup, adoption, insertion, removal of nodes (R167 to R177),
and page reclamation (R165, R166).
-/
namespace Sys2Proof.Machine

/-- A CRC over bytes, each entering most significant bit first. -/
def crcBytes (w poly : Nat) (bs : List Byte) (init : Nat) : Nat :=
  bs.foldl (fun r b => crcBits w poly b.toNat 8 r) init

/-- The CRC-64 of R170, R412 and R498, from 0. -/
def crc64 (bs : List Byte) : Nat := crcBytes 64 0x42F0E1EBA9EA3693 bs 0

/-- The number that stands for "no node" (R169). -/
def noNode : Nat := 0x7FFFFF

/-- The index key of a block (R167). -/
structure CaneKey where
  tenant : Nat
  model : Nat
  topP : Nat
  exitProfile : Nat
  parent : Option Nat
  tokens : List Nat
  deriving DecidableEq, Repr

/-- EDGE_HASH (R170). -/
def CaneKey.hash (k : CaneKey) : Nat :=
  crc64
    (leBytes k.tenant 2 ++ leBytes k.model 1 ++ leBytes k.topP 1 ++ leBytes k.exitProfile 1 ++ [0, 0, 0]
      ++ leBytes (k.parent.getD noNode) 4 ++ k.tokens.flatMap (fun t => leBytes t 4))

/-- A node of the index. -/
def State.node? (s : State) (n : Nat) : Option Node := s.cane.nodes.get? n

def State.setNode (s : State) (n : Nat) (x : Node) : State :=
  { s with cane := { s.cane with nodes := s.cane.nodes.set n x } }

def State.onNode (s : State) (n : Nat) (f : Node → Node) : State :=
  match s.node? n with
  | some x => s.setNode n (f x)
  | none => s

/-- The bucket of a hash (R170). -/
def State.bucketOf (s : State) (h : Nat) : Nat := h % 2 ^ s.reg .CANE_BUCKETS_LOG2

/-- Whether a node's hash, parent and key items equal those of the key (R171). -/
def Node.keyMatch (x : Node) (k : CaneKey) (h : Nat) : Bool :=
  x.hash == h && x.parent == k.parent && x.tenant == k.tenant && x.model == k.model && x.topP == k.topP
    && x.exitProfile == k.exitProfile && !x.bad

/-- Walk a bucket chain: the node that matches, and the collisions passed over (R171). -/
def walkChain (nodes : Map Node) (k : CaneKey) (h : Nat) : Nat → Option Nat → Nat → Option Nat × Nat
  | 0, _, c => (none, c)
  | _ + 1, none, c => (none, c)
  | fuel + 1, some n, c =>
    match nodes.get? n with
    | none => (none, c)
    | some x =>
      if x.keyMatch k h then
        if x.tokens = k.tokens then (some n, c) else walkChain nodes k h fuel x.next (c + 1)
      else walkChain nodes k h fuel x.next c

/-- A lookup, with its counts (R171, R186). -/
def caneLookup (s : State) (k : CaneKey) : Option Nat × State :=
  let h := k.hash
  let (r, c) := walkChain s.cane.nodes k h (s.cane.nodes.size + 1) (s.cane.buckets.get? (s.bucketOf h)) 0
  let s := s.bump .CANE_LOOKUPS_COUNT
  let s := if c = 0 then s else (s.bump .CANE_COLLISIONS_COUNT 0 c).setIntBit pgCane 10
  (r, s)

/-- Remove node `n` from a chain of `next` links that starts at `first`. -/
def unlinkNode (nodes : Map Node) (n : Nat) : Nat → Nat → Map Node
  | 0, _ => nodes
  | fuel + 1, at' =>
    match nodes.get? at' with
    | none => nodes
    | some x =>
      if x.next = some n then
        match nodes.get? n with
        | some y => nodes.set at' { x with next := y.next }
        | none => nodes
      else match x.next with
        | some m => unlinkNode nodes n fuel m
        | none => nodes

/-- Remove nodes that are hollow with neither children nor users, from `n` upward (R175). -/
def pruneNode (s : State) : Nat → Nat → State
  | 0, _ => s
  | fuel + 1, n =>
    match s.node? n with
    | none => s
    | some x =>
      if (x.page.isNone || x.bad) && x.children == 0 && x.users == 0 then
        let b := s.bucketOf x.hash
        let buckets := if s.cane.buckets.get? b = some n then
            match x.next with
            | some m => s.cane.buckets.set b m
            | none => s.cane.buckets.erase b
          else s.cane.buckets
        let nodes := match s.cane.buckets.get? b with
          | some first => if first = n then s.cane.nodes else unlinkNode s.cane.nodes n (s.cane.nodes.size + 1) first
          | none => s.cane.nodes
        let s := { s with cane := { s.cane with nodes := nodes.erase n, buckets := buckets } }
        match x.parent with
        | some p => pruneNode (s.onNode p (fun y => { y with children := y.children - 1 })) fuel p
        | none => s
      else s

/-- Prune from a node upward. -/
def State.prune (s : State) (n : Nat) : State := pruneNode s 4097 n

/-- A session's CANE_NODE changes: one count of USERS moves from the old node to the new (R174). -/
def State.setCaneNode (s : State) (slot : Nat) (n : Option Nat) : State :=
  match s.session? slot with
  | none => s
  | some x =>
    if x.caneNode = n then s
    else
      let s := match n with
        | some m => s.onNode m (fun y => { y with users := y.users + 1 })
        | none => s
      let s := s.setSession slot { x with caneNode := n }
      match x.caneNode with
      | some m => (s.onNode m (fun y => { y with users := y.users - 1 })).prune m
      | none => s

/-- The ancestor of depth `d` of a node (R177, R181). -/
def ancestorAt (s : State) (d : Nat) : Nat → Option Nat → Option Nat
  | 0, _ => none
  | _ + 1, none => none
  | fuel + 1, some n =>
    match s.node? n with
    | none => none
    | some x => if x.depth = d then some n else if x.depth < d then none else ancestorAt s d fuel x.parent

def State.ancestor (s : State) (n : Option Nat) (d : Nat) : Option Nat :=
  if d = 0 then none else ancestorAt s d 4097 n

/-- The depth of a node. -/
def State.depthOf (s : State) (n : Option Nat) : Nat :=
  match n with
  | some m => ((s.node? m).map (·.depth)).getD 0
  | none => 0

/-- The session takes part in the index at page index `i` (R168). -/
def State.extendable (s : State) (x : Session) (i : Nat) : Bool :=
  (s.layoutOf x).noCarry && !x.nr &&
    match x.caneNode with
    | none => i == 0
    | some n => ((s.node? n).map (·.depth)) == some i

/-- The key of a block for a session (R167). -/
def Session.caneKey (x : Session) (tokens : List Nat) : CaneKey :=
  { tenant := x.tenant, model := x.rec'.params.model, topP := x.rec'.params.topP,
    exitProfile := x.rec'.params.exitProfile, parent := x.caneNode, tokens := tokens }

/-- The vocabulary tokens of the first 256 pending positions, if all are (R172). -/
def first256 (l : List InPos) : Option (List Nat) :=
  if l.length < 257 then none
  else (l.take 256).mapM (fun p => p.token)

/-- Adopt one page at composition (R172): the session with the page appended, or nothing. The adopted positions are the
entry's only from the commit on: SESS_QUERY leaves them out, and a session that leaves the step without commit gives them back
(log entry 33). -/
def adoptOne (s : State) (slot : Nat) : Option State :=
  match s.session? slot with
  | none => none
  | some x =>
    if s.enabled pgCane && s.regBit .CANE_CFG_LOOKUP_EN && s.extendable x x.table.length && !(x.table.any (·.isTail)) then
      match first256 x.input with
      | none => none
      | some toks =>
        let (r, s) := caneLookup s (x.caneKey toks)
        match r with
        | none => none
        | some n =>
          match (s.node? n).bind (·.page) with
          | none => none
          | some f =>
            match s.page? f with
            | none => none
            | some p =>
              if p.inHbm && decide (0 < p.refs) && !p.bad then
                let e : PtEntry := { frame := f, count := 256, isSealed := true,
                                     firstPos := ((p.slots.head?).map (·.index)).getD 0,
                                     lastPos := ((p.slots.getLast?).map (·.index)).getD 0 }
                let r0 := x.rec'
                let r1 := { r0 with nextPos := r0.nextPos + 256, held := r0.held + 256 }
                let s := s.incRef f
                let s := s.addUsers [f]
                let s := s.setSession slot { x with
                  table := x.table ++ [e], positions := x.positions + 256, adopted := x.adopted + 256, input := x.input.drop 256,
                  vers := x.vers.set x.srCur r1 }
                let s := s.setCaneNode slot (some n)
                some s
              else none
    else none

/-- Adopt while the conditions hold (R172). -/
def adoptLoop : Nat → State → Nat → State
  | 0, s, _ => s
  | fuel + 1, s, slot =>
    match adoptOne s slot with
    | some s' => adoptLoop fuel s' slot
    | none =>
      -- a lookup that finds nothing is still counted
      match s.session? slot with
      | some x =>
        if s.enabled pgCane && s.regBit .CANE_CFG_LOOKUP_EN && s.extendable x x.table.length && !(x.table.any (·.isTail)) then
          match first256 x.input with
          | some toks => (caneLookup s (x.caneKey toks)).2
          | none => s
        else s
      | none => s

/-- Adoption for a candidate at composition; at most 4,096 pages (R107). -/
def State.adopt (s : State) (slot : Nat) : State := adoptLoop 4096 s slot

/-- The last `k` pages of a session, which it adopted, are given back: their positions wait again. -/
def State.unadopt (s : State) (slot : Nat) : State :=
  match s.session? slot with
  | none => s
  | some x =>
    if x.adopted = 0 then s
    else
      let depth := x.table.length - x.adopted / 256
      let gone := x.table.drop depth
      let back : List InPos := (gone.flatMap s.entrySlots).map (fun q => { token := some q.word })
      let r := x.rec'
      let s := s.setSession slot { x with
        table := x.table.take depth, positions := x.positions - x.adopted, adopted := 0, input := back ++ x.input,
        vers := x.vers.set x.srCur { r with nextPos := r.nextPos - x.adopted, held := r.held - x.adopted } }
      let s := s.setCaneNode slot (s.ancestor x.caneNode depth)
      (gone.map (·.frame)).foldl State.decRef (s.dropUsers (gone.map (·.frame)))

/-- Insertion of a page that a step sealed as page `i` of the session, keyed by the page's own tail-token words (R174). The rule
does not say which free node is allotted, nor where in its bucket's chain it enters: the lowest number, at the head of the chain
(DESIGN CHOICE, log entry 117). -/
def caneInsert (s : State) (slot i frame : Nat) (words : List Nat) : State :=
  match s.session? slot with
  | none => s
  | some x =>
    if s.enabled pgCane && s.regBit .CANE_CFG_INSERT_EN && s.extendable x i && words.all (fun w => decide (w < 2 ^ 31)) then
      let k := x.caneKey (words.map (fun w => bitsOf w 0 18))
      let (r, s) := caneLookup s k
      match r with
      | none =>
        match s.cane.nodes.freeFrom 1 (s.cane.nodes.size + 1) with
        | some n =>
          if n < s.reg .CANE_NODES_COUNT then
            let h := k.hash
            let b := s.bucketOf h
            let node : Node := { hash := h, parent := x.caneNode, depth := i + 1, tenant := k.tenant, model := k.model,
                                 topP := k.topP, exitProfile := k.exitProfile, page := some frame,
                                 next := s.cane.buckets.get? b, tokens := k.tokens }
            let s := { s with cane := { s.cane with
              nodes := s.cane.nodes.set n node, buckets := s.cane.buckets.set b n } }
            let s := match x.caneNode with
              | some p => s.onNode p (fun y => { y with children := y.children + 1 })
              | none => s
            let s := s.onPage frame (fun p => { p with caneNode := some n })
            (s.setCaneNode slot (some n)).bump .CANE_INSERTS_COUNT
          else (s.bump .CANE_INSERT_FULL_COUNT).setIntBit pgCane 8
        | none => (s.bump .CANE_INSERT_FULL_COUNT).setIntBit pgCane 8
      | some n =>
        let old := (s.node? n).bind (·.page)
        let hbm := ((old.bind s.page?).map (·.inHbm)).getD false
        if hbm then
          (s.setCaneNode slot (some n)).bump .CANE_INSERT_DUP_COUNT
        else
          let s := match old with
            | some f => s.onPage f (fun p => { p with caneNode := none })
            | none => s
          let s := s.onNode n (fun y => { y with page := some frame })
          let s := s.onPage frame (fun p => { p with caneNode := some n })
          (s.setCaneNode slot (some n)).bump .CANE_INSERTS_COUNT
    else s

/-! ## Page reclamation (R165, R166) -/

/-- Free a record: its copies, its node, the record (R165). `deadPool` says that the pool copy lies at a target found
dead, so that the copy is abandoned (R166). -/
def freeRecordOp (s : State) (n : Nat) (deadPool : Bool) : State :=
  match s.page? n with
  | none => s
  | some p =>
    let s := if p.inPool ∧ deadPool then s.bump .CANE_ABANDONED_COUNT else s
    let s := ((s.dropHbm n).dropFlash n).dropPool n
    let s := match p.caneNode with
      | some m =>
        match s.node? m with
        | some x => if x.page = some n then (s.setNode m { x with page := none }).prune m else s
        | none => s
      | none => s
    let s := { s with cane := { s.cane with
      recs := s.cane.recs.erase n, reclaim := s.cane.reclaim.filter (· != n) } }
    s.bump .CANE_FREED_COUNT

end Sys2Proof.Machine
end

