-- ==== Sys2Proof/Machine/Sessions.lean ====
section
/-!
DEFINITION. Sessions and the directory: slots and generations, the cache with its locks, parameter blocks, handle
resolution, the ends of waits and steps, and the commands SESS_CREATE, SESS_QUERY and SESS_CLOSE (R67 to R98).
-/
namespace Sys2Proof.Machine

/-! ## Codes (R73) -/

def Residency.code : Residency → Nat
  | .free => 0 | .hot => 1 | .warm => 2 | .parked => 3 | .pooled => 4 | .away => 5 | .moving => 6

def RunState.code : RunState → Nat
  | .none => 0 | .idle => 1 | .runnable => 2 | .running => 3 | .toolWait => 4 | .deadEnd => 5 | .lost => 6 | .closed => 7

/-! ## The directory cache (R77 to R79, R98) -/

/-- Number of ways a set may have locked. -/
def State.lockWays (s : State) : Nat := max 1 (s.reg .SDIR_CFG_LOCK_WAYS)

def cacheSet (slot : Nat) : Nat := slot % 32768
def cacheTag (slot : Nat) : Nat := slot / 32768

def State.cacheWays (s : State) (set : Nat) : List Way := s.sdir.cache.getD set []

def State.setWays (s : State) (set : Nat) (w : List Way) : State :=
  { s with sdir := { s.sdir with cache := if w = [] then s.sdir.cache.erase set else s.sdir.cache.set set w } }

/-- Whether lookups of a set go to HBM: CACHE_EN 0, or the set disabled for a tag parity error. -/
def State.uncached (s : State) (set : Nat) : Bool :=
  !s.regBit .SDIR_CFG_CACHE_EN || s.sdir.disabledSets.contains set

/-- The way of a slot, where the cache serves its set and holds it. -/
def State.wayOf (s : State) (slot : Nat) : Option Way :=
  if s.uncached (cacheSet slot) then none else (s.cacheWays (cacheSet slot)).find? (fun w => w.tag == cacheTag slot)

/-- A lookup counts as a hit or as a miss (R96). -/
def State.countLookup (s : State) (slot : Nat) : State :=
  if (s.wayOf slot).isSome then s.bump .SDIR_HITS_COUNT else s.bump .SDIR_MISSES_COUNT

/-- A lookup by the command path: a hit moves the way to the front, a miss is read from HBM (R77). -/
def State.lookup (s : State) (slot : Nat) : State :=
  let set := cacheSet slot
  let s := s.countLookup slot
  match s.wayOf slot with
  | some w => s.setWays set (w :: (s.cacheWays set).filter (fun v => v.tag != cacheTag slot))
  | none =>
    if s.sdir.missing.contains slot then s
    else { s with sdir := { s.sdir with missing := s.sdir.missing ++ [slot] } }

/-- An engine has changed the entry of a slot: its way, where the cache holds it, is dirty (R77). -/
def State.dirtyEntry (s : State) (slot : Nat) : State :=
  if (s.wayOf slot).isSome then
    s.setWays (cacheSet slot) ((s.cacheWays (cacheSet slot)).map (fun v =>
      if v.tag = cacheTag slot then { v with dirty := true } else v))
  else s

/-- The ways left and the victim taken, when a set of 8 ways is full: the least recently used unlocked way. -/
def takeVictim (ways : List Way) : Option Way × List Way :=
  if ways.length < 8 then (none, ways)
  else match ways.reverse.find? (fun w => !w.locked) with
    | some v => (some v, ways.filter (fun w => w.tag != v.tag))
    | none => (none, ways)

/-- Fill an entry into its set; a dirty victim goes to the write buffer, and while that is full the miss waits (R77). -/
def State.fillWay (s : State) (slot : Nat) (dirty locked : Bool) : Option State :=
  let set := cacheSet slot
  let (victim, ways) := takeVictim (s.cacheWays set)
  match victim with
  | some v =>
    if v.dirty then
      if s.sdir.writeBuf.length < 64 then
        let s := { s with sdir := { s.sdir with writeBuf := s.sdir.writeBuf ++ [v.tag * 32768 + set] } }
        some (s.setWays set ({ tag := cacheTag slot, dirty := dirty, locked := locked } :: ways))
      else none
    else some (s.setWays set ({ tag := cacheTag slot, dirty := dirty, locked := locked } :: ways))
  | none => some (s.setWays set ({ tag := cacheTag slot, dirty := dirty, locked := locked } :: ways))

/-- One entry of the write buffer drains to HBM. -/
def State.drainWriteBuf (s : State) : State :=
  { s with sdir := { s.sdir with writeBuf := s.sdir.writeBuf.drop 1 } }

/-- Lock the entry of a slot in the cache, with the lookup that finds it; nothing where LOCK_WAYS ways of its set are locked
(R78, R96). -/
def State.lockEntry (s : State) (slot : Nat) : Option State :=
  let set := cacheSet slot
  let s := s.countLookup slot
  if s.uncached set then some s
  else
    let ways := s.cacheWays set
    match ways.find? (fun w => w.tag == cacheTag slot) with
    | some w =>
      if w.locked then some s
      else if (ways.filter (·.locked)).length < s.lockWays then
        some (s.setWays set (ways.map (fun v => if v.tag = cacheTag slot then { v with locked := true, dirty := true } else v)))
      else none
    | none =>
      if (ways.filter (·.locked)).length < s.lockWays then s.fillWay slot true true else none

/-- A lock, or the deferral it costs (R78). -/
def State.lockOrStall (s : State) (slot : Nat) : Option State × State :=
  match s.lockEntry slot with
  | some t => (some t, t)
  | none => (none, (s.countLookup slot).bump .SDIR_LOCK_STALLS_COUNT)

/-- The session leaves RUNNING or MOVING: its way is unlocked. -/
def State.unlockEntry (s : State) (slot : Nat) : State :=
  let set := cacheSet slot
  s.setWays set ((s.cacheWays set).map (fun v => if v.tag = cacheTag slot then { v with locked := false } else v))

/-! ## Slots and generations (R69 to R71) -/

/-- The lowest slot never used, passing over slots with a bad entry (R71, R79). -/
def nextNever (s : State) : Nat → Nat → Option Nat
  | 0, _ => none
  | fuel + 1, n =>
    if n ≥ s.reg .SDIR_SLOTS_COUNT then none
    else if s.sdir.badSlots.contains n then nextNever s fuel (n + 1) else some n

/-- The slot that the next allocation takes (R71). -/
def State.nextSlot (s : State) : Option Nat :=
  match s.sdir.freed with
  | n :: _ => some n
  | [] => nextNever s (s.sdir.badSlots.length + 1) s.sdir.neverUsed

/-- The generation that the next allocation of a slot carries (R69). -/
def State.nextGen (s : State) (slot : Nat) : Nat := (s.sdir.gens.get? slot).getD 0 + 1

/-- Take a slot out of the free slots and store its new generation. -/
def State.takeSlot (s : State) (slot : Nat) : State :=
  let d := s.sdir
  match d.freed with
  | _ :: rest => { s with sdir := { d with freed := rest, gens := d.gens.set slot (s.nextGen slot) } }
  | [] => { s with sdir := { d with neverUsed := slot + 1, gens := d.gens.set slot (s.nextGen slot) } }

/-- The slot is not allocated any more: it returns to the free slots, or is retired (R70), or stays out of use when its
entry is bad (R79). -/
def State.giveSlot (s : State) (slot : Nat) : State :=
  let d := s.sdir
  let s := { s with sdir := { d with sess := d.sess.erase slot } }
  if d.badSlots.contains slot then s
  else if (d.gens.get? slot).getD 0 ≥ 0xFFFFF then
    { s with sdir := { s.sdir with retired := d.retired ++ [slot] } }
  else { s with sdir := { s.sdir with freed := d.freed ++ [slot] } }

/-- The free-slot list is inconsistent (R98): the slot that it would give next is allocated, retired, named a second time, or not
a slot at all. -/
def State.freeListBad (s : State) : Bool :=
  match s.sdir.freed with
  | n :: rest => (s.session? n).isSome || s.sdir.retired.contains n || rest.contains n || decide (s.sdir.neverUsed ≤ n)
  | [] => false

/-- Allocated slots of a tenant: SDIR_QUOTA_USED (R96). -/
def State.quotaUsed (s : State) (t : Nat) : Nat := (s.sdir.sess.values.filter (fun x => x.tenant == t)).length

/-- Step-record versions minus 1 that a session of the tenant is given now (R157). -/
def State.nverOf (s : State) (t : Nat) : Nat := max 1 (s.reg .STM_TEN_LEAD_WH_NVER t)

/-! ## Parameter blocks (R84, R86, R115, R178, R302) -/

/-- Key of a constraint object: tenant, kind and id (R302), as JCK_OBJ_SEL packs them. -/
def objKey (tenant kind id : Nat) : Nat := (tenant * 8 + kind) * 65536 + id

def State.object? (s : State) (tenant kind id : Nat) : Option CObject := s.objects.get? (objKey tenant kind id)

/-- A field of 0 selects the value in `d`. -/
def orDefault (n d : Nat) : Nat := if n = 0 then d else n

/-- The 64 bytes of a parameter block over a base: the defaults at SESS_CREATE, the parent's values at SESS_FORK. SEED is
the caller's. -/
def parseParams (base : Params) (seed : Nat) (bs : List Byte) : Params where
  seed := seed
  model := orDefault (leAt bs 8 1) base.model
  utf8Replace := if leAt bs 9 1 = 0 then base.utf8Replace else bitAt (leAt bs 9 1) 0
  deadEndEscape := if leAt bs 9 1 = 0 then base.deadEndEscape else bitAt (leAt bs 9 1) 1
  cls := orDefault (bitsOf (leAt bs 10 1) 0 3) base.cls
  topP := orDefault (leAt bs 11 1) base.topP
  banSet := orDefault (leAt bs 12 2) base.banSet
  schema := orDefault (leAt bs 14 2) base.schema
  escape := orDefault (leAt bs 16 2) base.escape
  sink := orDefault (leAt bs 18 2) base.sink
  recent := orDefault (leAt bs 20 4) base.recent
  budget := orDefault (leAt bs 24 4) base.budget
  compactAt := orDefault (leAt bs 28 4) base.compactAt
  exitProfile := orDefault (leAt bs 32 1) base.exitProfile

/-- The reserved bits and bytes of a parameter block are 0. -/
def paramsReserved (bs : List Byte) : Bool :=
  decide (leAt bs 9 1 < 4) && decide (leAt bs 10 1 < 8) && allZero (slice bs 33 31)

/-- A parameter block as its bytes (R115). -/
def Params.bytes (p : Params) : List Byte :=
  leBytes p.seed 8 ++ leBytes p.model 1 ++ leBytes (b2n p.utf8Replace + 2 * b2n p.deadEndEscape) 1 ++ leBytes p.cls 1
    ++ leBytes p.topP 1 ++ leBytes p.banSet 2 ++ leBytes p.schema 2 ++ leBytes p.escape 2 ++ leBytes p.sink 2
    ++ leBytes p.recent 4 ++ leBytes p.budget 4 ++ leBytes p.compactAt 4 ++ leBytes p.exitProfile 1
    ++ List.replicate 31 0

/-- The model is loaded and the tenant may name it (R212). -/
def State.modelFor (s : State) (tenant id : Nat) : Bool :=
  let m := s.model id
  m.loaded && (!m.isPrivate || m.tenant == tenant)

/-- The object exists for the tenant and model, or the field is none (R302). -/
def State.namesObject (s : State) (tenant model kind id : Nat) : Bool :=
  id == 0 || ((s.object? tenant kind id).map (fun o => o.model == model)).getD false

/-- An exit profile fits the model: every layer has an exit head and is not the last (R244). -/
def CObject.profileFits (o : CObject) (m : Model) : Bool :=
  match o.body with
  | .profile pts => pts.all (fun e => m.exitHeads.contains e.layer && decide (e.layer + 1 < m.layout.layers))
  | _ => true

/-- The parameters of a block pass the checks of R84. -/
def State.paramsOk (s : State) (tenant : Nat) (p : Params) : Bool :=
  s.modelFor tenant p.model
    && s.namesObject tenant p.model 1 p.banSet && s.namesObject tenant p.model 2 p.schema
    && s.namesObject tenant p.model 3 p.escape && s.namesObject tenant p.model 4 p.exitProfile
    && ((s.object? tenant 4 p.exitProfile).map (fun o => o.profileFits (s.model p.model))).getD true
    && !(p.deadEndEscape && p.escape == 0)
    && decide (p.sink ≤ 256) && decide (p.recent + p.budget ≤ (s.model p.model).layout.scoreCap)
    && (p.compactAt == 0 || decide (p.sink + p.recent + p.budget ≤ p.compactAt))

/-- The block names a constraint object, which JCK serves (R316). -/
def Params.namesAny (p : Params) : Bool :=
  p.banSet != 0 || p.schema != 0 || p.escape != 0 || p.exitProfile != 0

/-! ## Placing a session -/

/-- Bytes of HBM that the input queue of some positions takes: 4 a token, 4 an element of a vector (log entry 20). -/
def inputBytes (l : List InPos) : Nat := (l.map (fun p => 4 * max 1 p.vec.length)).sum

/-- A device address that the spec leaves to the device, 4 KiB aligned (log entry 12). -/
def State.freeAddr (s : State) : Nat := (Config.freeWord s.free).toNat / 4096 * 4096

/-- Heap bytes of a session's step record versions and page table. -/
def State.recordBytesOf (s : State) (x : Session) : Nat := (s.layoutOf x).recordBytes x.srNver

/-- Room for a new session: the DETAIL of NO_SPACE, or 0, in the order quota, free slot, HBM room (R85). The interrupt of
a refusal is set. -/
def State.roomForSession (s : State) (tenant : Nat) (l : Layout) : Nat × State :=
  let q := s.reg .SDIR_QUOTA_MAX tenant
  if q ≠ 0 ∧ s.quotaUsed tenant ≥ q then (2, s.setIntBit pgSdir 9)
  else match s.nextSlot with
    | none => (1, s.setIntBit pgSdir 10)
    | some _ => if s.heapRoom tenant (l.recordBytes (s.nverOf tenant)) false then (0, s) else (3, s)

/-- Allocate a slot for a session and take the space of its record (R69, R71, R85). The caller has seen the room. -/
def State.placeSession (s : State) (x : Session) : Nat × State :=
  match s.nextSlot with
  | none => (0, s)
  | some slot =>
    let x := { x with generation := s.nextGen slot, srNver := s.nverOf x.tenant, srAddr := s.freeAddr,
                      ptRoot := ((Config.freeWord (s.free + 1)).toNat / 65536 * 65536), lastCmd := s.tick }
    let s := (s.takeSlot slot).useFree 2
    let s := s.setSession slot x
    (slot, s.heapTake x.tenant (s.recordBytesOf x))

/-! ## Ends of steps and waits (R92, R263, R264, R266) -/

/-- The buffer header of a STEP that emitted no token and whose buffer no write has failed in (R260; log entry 105). -/
def State.emptyHeader (s : State) (q : StepReq) (st : Status) : State :=
  match s.cmd? q.cmd with
  | none => s
  | some c =>
    if q.tokens = 0 ∧ c.desc.payLen ≠ 0 ∧ st ≠ .internal then
      s.writeMem c.desc.inWindow c.desc.payAddr (List.replicate 16 0)
    else s

/-- The final completion of a STEP (R260, R263, R264, R266). -/
def State.stepCompletion (s : State) (slot : Nat) (q : StepReq) (st : Status) (detail : Nat) : State :=
  match s.session? slot with
  | none => s
  | some x =>
    let st1 : Status := if st = .ok ∧ x.nr = true then .notReproducible else st
    let missed := (st1 == Status.ok || st1 == Status.notReproducible) && x.deadline != 0 && decide (x.deadline < s.tick)
    let st2 : Status := if missed then .deadlineMissed else st1
    let det := if missed ∧ x.nr = true then detail + 256 else detail
    let result := if st2 = Status.ok ∨ st2 = Status.notReproducible then q.tokens + q.textBytes * 2 ^ 32 else 0
    let s := if st2 = Status.deadlineMissed then
        ((s.setSession slot { x with misses := satAdd 16 x.misses 1 }).bump .GAF_MISSES_COUNT).setIntBit pgGaf 8
      else s
    (s.emptyHeader q st).complete q.cmd st2 det result

/-- Generation ends and the STEP completes at once: GEN_REQ becomes 0 (R263). -/
def State.endStep (s : State) (slot : Nat) (st : Status) (detail : Nat) : State :=
  match s.session? slot with
  | none => s
  | some x =>
    match x.stepReq with
    | none => s
    | some q => (s.setSession slot { x with stepReq := none, genReq := false }).stepCompletion slot q st detail

/-- A STEP that has met its end and waited for its last token completes. -/
def State.endEnded (s : State) (slot : Nat) : State :=
  match s.session? slot with
  | none => s
  | some x =>
    match x.ended with
    | none => s
    | some (q, d) => (s.setSession slot { x with ended := none }).stepCompletion slot q .ok d

/-- Both kinds of outstanding STEP end with the given status. -/
def State.endAllSteps (s : State) (slot : Nat) (st : Status) (detail : Nat) : State :=
  let s := match s.session? slot with
    | none => s
    | some x =>
      match x.ended with
      | none => s
      | some (q, d) =>
        (s.setSession slot { x with ended := none }).stepCompletion slot q st (if st = Status.ok then d else detail)
  s.endStep slot st detail

/-- The final completion of an outstanding TOOL_WAIT (R92): DETAIL the reason, RESULT the residency, the overstay and the
ticks since it took effect. RESUME_TICK becomes 0. -/
def State.endWait (s : State) (slot : Nat) (st : Status) (detail : Nat) : State :=
  match s.session? slot with
  | none => s
  | some x =>
    match x.wait with
    | none => s
    | some w =>
      let result := x.residency.code + 16 * b2n w.overstayed + 256 * ((s.tick - w.start) % 2 ^ 56)
      (s.setSession slot { x with wait := none, resumeTick := 0, reheat := none }).complete w.cmd st detail result

/-- The session becomes LOST (R80). -/
def State.setLost (s : State) (slot : Nat) : State :=
  match s.session? slot with
  | none => s
  | some x =>
    if x.runState = .closed ∨ x.runState = .lost then s
    else
      let s := s.endWait slot .lost 0
      let s := s.endAllSteps slot .lost 0x09
      let s := s.casIfLeased slot .markLost
      let s := s.onSession slot (fun x => { x with runState := .lost })
      (s.bump .SDIR_LOST_COUNT_COUNT).setIntBit pgSdir 8

/-! ## SESS_CREATE (R84, R85) -/

/-- The parameters that a SESS_CREATE asks for: none where its block has a reserved bit set. -/
def createParams (payload : List Byte) : Option Params :=
  if payload.length = 0 then some {}
  else if paramsReserved payload then some (parseParams {} (leAt payload 0 8) payload) else none

/-- The payload bytes of a command. -/
def State.payload (s : State) (d : Desc) : List Byte := s.readMem d.inWindow d.payAddr d.payLen

/-- The step record of a new session (R114, R307, R310, R312). -/
def State.newRecord (s : State) (tenant : Nat) (p : Params) : StepRec :=
  { modelFp := (s.model p.model).fp, params := p, temp := BitVec.ofNat 32 (s.reg .JCK_TEN_TEMP_TEMP tenant),
    topP := BitVec.ofNat 32 (s.reg .JCK_TEN_TOP_P_TOP_P tenant), topK := min (s.reg .JCK_TEN_TOP_K_TOP_K tenant) 262144 }

/-- A session as SESS_CREATE writes it. -/
def State.newSession (s : State) (tenant : Nat) (p : Params) : Session :=
  { tenant := tenant, generation := 0, cls := p.cls, vers := [s.newRecord tenant p] }

/-- SESS_CREATE takes effect. -/
def opSessCreate (s : State) (id : Nat) (c : Cmd) : State :=
  if !s.enabled pgSdir then s.complete id .internal
  else match createParams (s.payload c.desc) with
    | none => s.refuse id .invalid 0x0B
    | some p =>
      if p.namesAny && !s.enabled pgJck then s.complete id .internal
      else if !s.paramsOk c.tenant p then s.refuse id .invalid 0x0B
      else
        let (d, s) := s.roomForSession c.tenant (s.model p.model).layout
        if d ≠ 0 then s.complete id .noSpace d
        else
          let (slot, s) := s.placeSession (s.newSession c.tenant p)
          s.completeH id .ok 0 0 (((s.session? slot).map (fun x => x.handle slot)).getD 0)

/-! ## SESS_QUERY (R89) -/

/-- RESULT of SESS_QUERY. -/
def Session.queryResult (x : Session) : Nat :=
  x.residency.code + 16 * x.runState.code + 256 * x.moveDst.code + 4096 * b2n x.nr + 8192 * b2n x.inputPend
    + 16384 * b2n x.genReq + 65536 * (x.positions - x.adopted) + 2 ^ 37 * (x.table.length - x.adopted / 256)

/-- The 64-byte query record. -/
def Session.queryRecord (x : Session) : List Byte :=
  leBytes x.queryResult 8 ++ leBytes x.deadline 8 ++ leBytes x.resumeTick 8
    ++ leBytes x.steps 4 ++ leBytes x.revives 2 ++ leBytes x.misses 2
    ++ leBytes x.leaseEpoch 4 ++ leBytes (if x.residency = .away then x.owner else 0) 2
    ++ leBytes (if x.leased then x.home else 0) 2 ++ List.replicate 24 0

/-- SESS_QUERY answers from the entry. -/
def opSessQuery (s : State) (id : Nat) (c : Cmd) (slot : Nat) : State :=
  match s.session? slot with
  | none => s.complete id .staleHandle
  | some x =>
    let s := if c.desc.payLen = 64 then s.writeMem c.desc.inWindow c.desc.payAddr x.queryRecord else s
    s.complete id .ok 0 x.queryResult

/-! ## SESS_CLOSE (R95) and the freeing of slots -/

/-- Release the storage of a session's record and page table in the tier where they lie, its seat, and its input queue.
`flashRec` is what they occupy there. -/
def Layout.tierRecordBytes (l : Layout) : Nat := (l.srTiles + 1) * 65536

/-- Release what belongs to the session alone: its record, page table, seat, input queue. -/
def State.releaseRecord (s : State) (slot : Nat) : State :=
  match s.session? slot with
  | none => s
  | some x =>
    let s := s.heapGive x.tenant (inputBytes x.input)
    let s := match x.residency with
      | .hot => s.heapGive x.tenant (s.recordBytesOf x)
      | .warm => s.heapGive x.tenant (s.recordBytesOf x)
      | .parked => { s with stm := { s.stm with flashUsed := s.stm.flashUsed - x.recStored } }
      | .pooled => { s with stm := { s.stm with poolUsed := s.stm.poolUsed - x.recStored } }
      | _ => s
    s.onSession slot (fun x => { x with input := [], inputPend := false, seat := none, recStored := 0 })

/-- A CLOSED session none of whose pages waits for page reclamation gives its slot back (R80). -/
def State.freeClosed (s : State) (slot : Nat) : State :=
  match s.session? slot with
  | some x => if x.runState = .closed ∧ x.leftover = [] then (s.giveSlot slot).unlockEntry slot else s
  | none => s

/-- The page references a close can release: those of pages that have a copy on this device or at a target that answers. -/
def State.hasCopy (s : State) (n : Nat) : Bool :=
  match s.page? n with
  | some p => p.inHbm || p.onFlash || (p.inPool && !s.poolDead p)
  | none => false

/-- The session is in HBM: HOT or WARM. -/
def Session.inHbm (x : Session) : Bool := x.residency == .hot || x.residency == .warm

/-- The session's residency is among those that R137 counts. -/
def Session.counted (x : Session) : Bool :=
  x.inHbm || (x.residency == .moving &&
    (x.moveSrc == .hot || x.moveSrc == .warm || x.moveDst == .hot || x.moveDst == .warm))

/-- SESS_CLOSE takes effect on a session that no step holds and that is not MOVING (R95). -/
def State.closeSession (s : State) (slot : Nat) : State × Nat × Nat :=
  match s.session? slot with
  | none => (s, 0, 0)
  | some x0 =>
    let s := s.endWait slot .ok 2
    let s := s.endAllSteps slot .ok 0x03
    let frames := x0.frames
    let live := frames.filter s.hasCopy
    let s := s.casIfLeased slot .release
    let s := if x0.counted then s.dropUsers frames else s
    let s := s.releaseRecord slot
    let s := s.setCaneNode slot none
    let s := live.foldl State.decRef s
    let left := live.filter (fun n => s.cane.reclaim.contains n)
    let s := live.foldl (fun s n => s.dropIdleHbm n) s
    let s := s.onSession slot (fun x => { x with
      runState := .closed, resumeTick := 0, waitHeld := false, nr := false, leftover := left,
      residency := if x.residency = .away then .away else x.residency })
    let detail := if x0.residency = .away then 1 else if x0.runState = .lost then 2 else 0
    (s.freeClosed slot, detail, live.length)

/-- SESS_CLOSE, once nothing holds it back. -/
def opSessClose (s : State) (id : Nat) (slot : Nat) : State :=
  let (s, detail, n) := s.closeSession slot
  s.complete id .ok detail n

/-! ## Rows of the directory -/

/-- Two ranges of device addresses overlap. -/
def overlaps (a la b lb : Nat) : Bool := decide (a < b + lb) && decide (b < a + la) && la != 0 && lb != 0

/-- A range lies in HBM (R548): 1,152 GiB. -/
def inHbmRange (a len : Nat) : Bool := decide (a + len ≤ 1152 * 2 ^ 30)

def State.sdirBase (s : State) : Nat := s.reg .SDIR_BASE_ADDR * 2 ^ 30
def State.sdirFree (s : State) : Nat := s.reg .SDIR_FREELIST_ADDR * 2 ^ 26

/-- The checks of SDIR_CTRL.EN (R97). -/
def State.sdirOk (s : State) : Bool :=
  decide (1 ≤ s.reg .SDIR_SLOTS_COUNT) && decide (s.reg .SDIR_SLOTS_COUNT ≤ 16777216)
    && inHbmRange s.sdirBase (2 ^ 30) && inHbmRange s.sdirFree (2 ^ 26)
    && !overlaps s.sdirBase (2 ^ 30) s.sdirFree (2 ^ 26)

/-- CTRL.EN of a page. -/
def State.setEn (s : State) (p : Nat) (b : Bool) : State := s.setCommon p { s.common p with en := b }

/-- A block goes ENABLED: its counters start at 0. -/
def State.enableBlock (s : State) (p : Nat) : State := ((s.clearCounters p).setEn p true).setPageState p 1

/-- A block goes DISABLED. -/
def State.disableBlock (s : State) (p : Nat) : State := (s.setEn p false).setPageState p 0

/-- SDIR_CTRL.EN written 1: check, clear the directory, INIT (R97). -/
def sdirEnableOp (s : State) : State :=
  if s.pageState pgSdir ≠ 0 then s
  else if !s.sdirOk then s.recErr pgSdir 0x0003
  else
    let s := ((s.clearCounters pgSdir).setEn pgSdir true).setPageState pgSdir 2
    { s with sdir := { ({} : Sdir) with init := true } }

/-- SDIR_CTRL.EN written 0: refused while sessions exist (R98). A write of 0 while STATE is INIT has no effect and records
nothing: R98 states only the case of ALLOCATED not 0 (DESIGN CHOICE, log entry 111). -/
def sdirDisableOp (s : State) : State :=
  if s.pageState pgSdir ≠ 1 then s
  else if s.sdir.sess.size ≠ 0 then s.recErr pgSdir 0x0005
  else s.disableBlock pgSdir

/-- The row SDIR_ENABLE, with the value of CTRL.EN written. -/
def execSdirEnable (en : Bool) (s : State) : Host.Outcome State Fault Refusal :=
  let s := s.touch
  .next (if s.live then (if en then sdirEnableOp s else sdirDisableOp s) else s)

/-- The row SDIR_INIT_DONE (R97). -/
def execSdirInitDone (s : State) : Host.Outcome State Fault Refusal :=
  .next (if s.pageState pgSdir = 2 then
    { s.setPageState pgSdir 1 with sdir := { s.sdir with init := false } } else s)

/-- An uncorrectable error in an entry (R79). -/
def State.badEntry (s : State) (slot : Nat) : State :=
  let s := if s.regBit .SDIR_BAD_SLOT_VALID then s
    else (s.setReg .SDIR_BAD_SLOT_SLOT slot).setReg .SDIR_BAD_SLOT_VALID 1
  let s := s.recErr pgSdir 0x0001
  { s with sdir := { s.sdir with
      badSlots := if s.sdir.badSlots.contains slot then s.sdir.badSlots else s.sdir.badSlots ++ [slot]
      freed := s.sdir.freed.filter (· != slot) } }

/-- The row DIR_MISS_FILL: the entry of `slot` comes back from HBM, `ue` with an uncorrectable error (R77, R79). -/
def execDirMissFill (slot : Nat) (ue : Bool) (s : State) : Host.Outcome State Fault Refusal :=
  .next (if s.sdir.missing.contains slot then
    let done (s : State) : State :=
      { s with sdir := { s.sdir with missing := s.sdir.missing.filter (· != slot) } }
    if ue then done (s.badEntry slot)
    else if s.uncached (cacheSet slot) || (s.wayOf slot).isSome then done s
    else match s.fillWay slot false false with
      | some t => done t
      | none => s.bump .SDIR_LOCK_STALLS_COUNT
  else s)

/-- The row DIR_TAG_PARITY: the set is disabled and its slots are served from HBM (R98). -/
def execDirTagParity (set : BitVec 15) (s : State) : Host.Outcome State Fault Refusal :=
  .next (if s.pageState pgSdir = 1 then
    let n := set.toNat
    let s := s.recErr pgSdir 0x0002
    let s := if s.sdir.disabledSets.contains n then s
      else { s with sdir := { s.sdir with disabledSets := s.sdir.disabledSets ++ [n] } }
    s.setWays n []
  else s)

end Sys2Proof.Machine
end

