-- ==== Sys2Proof/Machine/StateBytes.lean ====
section
/-!
DEFINITION. How the device stores what a session is made of: the directory entry (R72), the page record (R110), the page table (R112),
and the step record (R84, R114, R115, R176, R312). The commands act on the fields; these are the bytes that the fields make at the
addresses the spec gives.
-/
namespace Sys2Proof.Machine

/-- A word from its fields, each as lowest bit, width and value. -/
def packFields (l : List (Nat × Nat × Nat)) : Nat := (l.map (fun (lo, w, v) => v % 2 ^ w * 2 ^ lo)).sum

/-- Words of 64 bits, little-endian. -/
def wordBytes (l : List Nat) : List Byte := l.flatMap (fun w => leBytes w 8)

/-! ## The directory entry (R72) -/

/-- The code of no prefix-index node. -/
def nodeCode (n : Option Nat) : Nat := n.getD 0x7FFFFF

/-- The eight words of the entry of an allocated slot. MOVE_SRC and MOVE_DST are 0 unless the session is MOVING. -/
def Session.entryWords (x : Session) : List Nat :=
  let moving := x.residency == .moving
  [ packFields [(0, 12, x.tenant), (12, 20, x.generation), (32, 4, x.residency.code), (36, 4, x.runState.code),
      (40, 4, if moving then x.moveSrc.code else 0), (44, 4, if moving then x.moveDst.code else 0), (48, 1, 1), (50, 1, b2n x.nr),
      (51, 1, b2n x.inputPend), (52, 1, b2n x.genReq), (53, 1, b2n x.waitHeld), (54, 1, b2n x.cancel), (55, 1, b2n x.leased),
      (56, 3, x.cls)],
    packFields [(0, 24, x.leaseEpoch), (24, 16, x.home), (40, 16, x.owner)],
    x.ptRoot / 4096 * 4096,
    packFields [(0, 2, x.srCur), (2, 2, x.srNver), (12, 52, x.srAddr / 4096)],
    x.deadline,
    x.resumeTick,
    packFields [(0, 23, nodeCode x.caneNode), (24, 21, x.positions), (45, 13, x.table.length)],
    packFields [(0, 32, min x.steps (2 ^ 32 - 1)), (32, 16, min x.revives (2 ^ 16 - 1)), (48, 16, min x.misses (2 ^ 16 - 1))] ]

/-- The 64 bytes of the entry of any slot: one that no session holds keeps its generation and RETIRED. -/
def State.dirEntry (s : State) (slot : Nat) : List Byte :=
  match s.session? slot with
  | some x => wordBytes x.entryWords
  | none => wordBytes (packFields [(12, 20, s.sdir.gens.getD slot 0), (49, 1, b2n (s.sdir.retired.contains slot))]
      :: List.replicate 7 0)

/-- The address of the entry in HBM. -/
def State.dirEntryAddr (s : State) (slot : Nat) : Nat := s.reg .SDIR_BASE_ADDR * 4096 + 64 * slot

/-! ## The page record and the page table (R110, R112) -/

/-- The 64 bytes of a page record. -/
def PageRec.bytes (p : PageRec) : List Byte :=
  wordBytes [ p.uid,
    packFields [(0, 32, p.refs), (32, 16, p.pins), (48, 1, b2n p.isSealed), (49, 1, b2n p.sumUnbounded), (50, 1, b2n p.inHbm),
      (51, 1, b2n p.onFlash), (52, 1, b2n p.inPool), (53, 8, p.tilesM1)],
    p.hbmKv / 65536 * 65536, p.hbmMeta / 4096 * 4096, p.flash, p.pool, nodeCode p.caneNode, 0 ]

/-- The 16 bytes of a page-table entry. -/
def PtEntry.bytes (e : PtEntry) : List Byte :=
  wordBytes [ packFields [(0, 32, e.frame), (32, 9, e.count), (41, 1, b2n e.isTail), (42, 1, b2n e.isSealed), (43, 1, b2n e.compacted)],
    packFields [(0, 32, e.firstPos), (32, 32, e.lastPos)] ]

/-- The page-table tile: 4,096 entries, those of no page all zero. -/
def tableBytes (t : List PtEntry) : List Byte := t.flatMap PtEntry.bytes ++ List.replicate (16 * (4096 - t.length)) 0

/-! ## The step record (R114, R115, R176, R312) -/

/-- Bytes filled up with zeros to a length. -/
def zeroFill (n : Nat) (l : List Byte) : List Byte := l ++ List.replicate (n - l.length) 0

/-- The header. -/
def StepRec.headerBytes (r : StepRec) (tiles : Nat) : List Byte :=
  zeroFill 256 (leBytes 0x53505754 4 ++ [1] ++ leBytes tiles 1 ++ [0, 0] ++ leBytes r.stepSeq 8 ++ leBytes r.nextPos 4
    ++ leBytes r.held 4 ++ leBytes r.recurLen 4 ++ List.replicate 4 0 ++ leBytes r.modelFp 32 ++ r.params.bytes)

def StepRec.samplerBytes (r : StepRec) : List Byte := zeroFill 256 (leBytes r.lastToken 4 ++ leBytes r.lastU.toNat 4)

def StepRec.constraintBytes (r : StepRec) : List Byte :=
  let force := match r.force with
    | some (entry, next) => packFields [(0, 16, entry), (16, 6, next), (31, 1, 1)]
    | none => 0
  zeroFill 3584 (leBytes r.schemaState 4 ++ leBytes r.seqNode 4 ++ leBytes force 4 ++ leBytes r.escNext 1
    ++ leBytes (b2n r.escActive + 2 * b2n r.escSpent) 1)

def StepRec.carryBytes (r : StepRec) : List Byte :=
  zeroFill 64 (leBytes r.carry.length 1 ++ zeroFill 3 r.carry ++ leBytes r.pend.length 1 ++ zeroFill 3 r.pend)

def StepRec.logitsBytes (r : StepRec) : List Byte :=
  zeroFill 4032 (leBytes r.temp.toNat 4 ++ leBytes r.topP.toNat 4 ++ leBytes r.topK 4)

/-- The scorer area: the tail's token words, COUNT, and the score table. -/
def StepRec.scorerBytes (r : StepRec) (cap : Nat) : List Byte :=
  zeroFill (1040 + 8 * cap) (zeroFill 1024 (r.tailTokens.flatMap (fun w => leBytes w 4)) ++ leBytes r.scores.length 4
    ++ List.replicate 12 0 ++ r.scores.flatMap (fun (i, v) => leBytes i 4 ++ leBytes v.toNat 4))

/-- The recurrent and scratch region: the scorer area at SCORE_OFF, the model's own bytes around it. -/
def StepRec.recurBytes (r : StepRec) (l : Layout) : List Byte :=
  let area := r.scorerBytes l.scoreCap
  let own (lo n : Nat) : List Byte := (List.range n).map (fun i => Config.recurByte r.recur (lo + i))
  zeroFill (l.srTiles * 65536 - 8192) (own 0 l.scoreOff ++ area
    ++ own (l.scoreOff + area.length) (l.recurBytes - l.scoreOff - area.length))

/-- The step-record image. -/
def StepRec.bytes (r : StepRec) (l : Layout) : List Byte :=
  r.headerBytes l.srTiles ++ r.samplerBytes ++ r.constraintBytes ++ r.carryBytes ++ r.logitsBytes ++ r.recurBytes l

/-! ## State tiles (R101, R103) -/

/-- The raw bytes of a state tile of a session: tile t of a KV image holds its bytes from 65,536 t on. -/
def State.tileBytes (s : State) (x : Session) (t : MTile) : List Byte :=
  let m := s.model x.rec'.params.model
  match t.kind with
  | .kv => slice (m.pageImage (((s.page? t.page).map (·.slots)).getD [])) (65536 * t.index) 65536
  | .metadata => m.metaTile (((s.page? t.page).map (·.slots)).getD [])
  | .stepRecord => slice (x.rec'.bytes m.layout) (65536 * t.index) 65536
  | .pageTable => tableBytes x.table

end Sys2Proof.Machine
end

