-- ==== Sys2Proof/Machine/Records.lean ====
section
/-!
DEFINITION. The tile records of a capsule (R101, R124, R125): what a record's tile holds, its stored form and encryption, and how a
record is found and opened in a capsule that is read.
-/
namespace Sys2Proof.Machine

def TileKind.code : TileKind → Nat
  | .kv => 1 | .metadata => 2 | .stepRecord => 3 | .pageTable => 4

/-- One tile record of a capsule. -/
structure TileRec where
  kind : TileKind
  format : Nat
  compressed : Bool
  last : Bool
  index : Nat
  stored : Nat
  object : Nat
  deriving DecidableEq, Repr

def roundup64 (n : Nat) : Nat := roundUp n 64

/-- Bytes of a record: header, stored bytes, padding (R124). -/
def TileRec.bytes (r : TileRec) : Nat := roundup64 (32 + r.stored)

/-- Bytes [15:0] of a record's tile header. -/
def TileRec.head (r : TileRec) : List Byte :=
  leBytes r.kind.code 1 ++ leBytes r.format 1 ++ leBytes (b2n r.compressed + 2 * b2n r.last) 1 ++ leBytes r.index 1
    ++ leBytes r.stored 4 ++ leBytes r.object 8

/-! ## What a capsule's records hold (R124) -/

/-- Raw length of the tile of a record. -/
def recordRaw (l : Layout) (c : Capsule) : TileKind → Nat
  | .kv | .stepRecord => 65536
  | .metadata => l.metaRaw
  | .pageTable => 16 * c.table.length

/-- The bytes of the tile of a record, filled up to its raw length. -/
def Model.recordText (m : Model) (c : Capsule) (kind : TileKind) (index object : Nat) : List Byte :=
  let page := c.pages.getD object []
  let text := match kind with
    | .kv => slice (m.pageImage page) (65536 * index) 65536
    | .metadata => m.metaTile page
    | .stepRecord => slice (c.record.bytes m.layout) (65536 * index) 65536
    | .pageTable => c.table.flatMap PtEntry.bytes
  zeroFill (recordRaw m.layout c kind) text

/-- FORMAT of a tile. -/
def Layout.tileFormat (l : Layout) (kind : TileKind) : Nat := if kind = .kv then l.kvFormat else 0

/-- The record of a tile of a capsule, compressed or not as R119 has it. -/
def Model.capsuleRecord (m : Model) (c : Capsule) (compress : Bool) (kind : TileKind) (index object : Nat) (last : Bool) : TileRec :=
  let f := m.layout.tileFormat kind
  let (n, z) := storedForm compress (lz4Coded f (m.recordText c kind index object)) (recordRaw m.layout c kind)
  { kind := kind, format := f, compressed := z, last := last, index := index, stored := n, object := object }

/-- The tile records of a capsule in order, by section. -/
def Model.capsuleSections (m : Model) (c : Capsule) (compress : Bool) : List (List TileRec) :=
  let l := m.layout
  let pages := List.range c.pages.length
  let sealedAt (k : Nat) : Bool := ((c.table[k]?).map (·.isSealed)).getD false
  [ (List.range l.srTiles).map (fun i => m.capsuleRecord c compress .stepRecord i 0 (i + 1 == l.srTiles)),
    if c.table.isEmpty then [] else [m.capsuleRecord c compress .pageTable 0 0 true],
    (pages.filter sealedAt).map (fun k => m.capsuleRecord c compress .metadata 0 k true),
    pages.flatMap (fun k => (List.range l.kvTiles).map (fun i => m.capsuleRecord c compress .kv i k (i + 1 == l.kvTiles))) ]

/-- Bytes of a section. -/
def sectionLen (l : List TileRec) : Nat := (l.map TileRec.bytes).sum

/-! ## Encryption (R125) -/

/-- The nonce of record `n`. -/
def recordNonce (base : List Byte) (n : Nat) : List Byte := base.take 8 ++ leBytes (Nat.xor (leAt base 8 4) n) 4

/-- The additional data of record `n`, from bytes [15:0] of its header. -/
def recordAad (head : List Byte) (n : Nat) : List Byte := head ++ leBytes n 4

/-- HEADER_TAG of a capsule's 256 header bytes. -/
def capsuleTag (key header : List Byte) : List Byte :=
  gcmTag (roundKeys key) (recordNonce (slice header 112 12) 0xFFFFFFFF) header []

/-- Record `n` of a capsule as bytes: header, tag, ciphertext, padding. -/
def Model.encodeRecord (m : Model) (c : Capsule) (key base : List Byte) (n : Nat) (r : TileRec) : List Byte :=
  let text := m.recordText c r.kind r.index r.object
  let (cipher, tag) := gcmSeal key (recordNonce base n) (recordAad r.head n) (if r.compressed then lz4Coded r.format text else text)
  r.head ++ tag ++ cipher ++ List.replicate (r.bytes - 32 - r.stored) 0

/-- The whole capsule, header first: the records in order from number 0, and HEADER_TAG. -/
def Model.capsuleBytes (m : Model) (c : Capsule) (compress : Bool) (key header : List Byte) : List Byte :=
  let recs := (m.capsuleSections c compress).flatten
  header ++ (recs.zip (List.range recs.length)).flatMap (fun (r, n) => m.encodeRecord c key (slice header 112 12) n r)
    ++ capsuleTag key header ++ List.replicate 48 0

/-! ## Records of a capsule that is read -/

/-- The place of the record of a tile: its section, its number in it, and its number in the capsule. -/
def recordPlace (secs : List (List TileRec)) (kind : TileKind) (index object : Nat) : Option (Nat × Nat × Nat) :=
  let same (r : TileRec) : Bool := r.kind == kind && r.index == index && r.object == object
  ((List.range secs.length).zip secs).findSome? (fun (i, recs) =>
    (recs.findIdx? same).map (fun k => (i, k, (secs.take i).flatten.length + k)))

/-- The offset of a section in the section table of a header. -/
def sectionOffset (h : List Byte) (i : Nat) : Nat := leAt h (146 + 16 * i) 6

/-- The offset after `k` records from an offset on. -/
def skipRecords (read : Nat → Nat → List Byte) : Nat → Nat → Nat
  | 0, off => off
  | k + 1, off => skipRecords read k (off + roundup64 (32 + leAt (read off 32) 4 4))

/-- How the record of a tile at an offset is read: its tag is checked, then it is decompressed to its raw length (R119, R131). -/
def openRecord (read : Nat → Nat → List Byte) (key base : List Byte) (off n raw : Nat) : TileOutcome :=
  let h := read off 32
  match gcmOpen key (recordNonce base n) (recordAad (h.take 16) n) (read (off + 32) (leAt h 4 4)) (slice h 16 16) with
  | none => .tagFail
  | some text =>
    let plain := if bitAt (leAt h 2 1) 0 then lz4Decode text else some text
    if plain.map (·.length) = some raw then .done else .decompressFail

/-- A capsule that is written or read has its pages in the order of their ordinals. -/
def CapsuleJob.frames (j : CapsuleJob) : List Nat := if j.pins.isEmpty then j.entries.map (·.frame) else j.pins

/-- The ordinal of a move's tile in a capsule. -/
def CapsuleJob.ordinal (j : CapsuleJob) (t : MTile) : Nat := if t.page = 0 then 0 else j.frames.idxOf t.page

/-- A capsule compresses its tiles: as its export asks, or as its header says. -/
def CapsuleJob.compressed (j : CapsuleJob) : Bool := j.compress || bitAt (leAt j.header 14 2) 1

/-- The offset, number and raw length of the record of a tile that a job reads. -/
def CapsuleJob.recordAt (j : CapsuleJob) (m : Model) (read : Nat → Nat → List Byte) (t : MTile) : Option (Nat × Nat × Nat) :=
  (recordPlace (m.capsuleSections j.content false) t.kind t.index (j.ordinal t)).map (fun (i, k, n) =>
    (skipRecords read k (sectionOffset j.header i), n, recordRaw m.layout j.content t.kind))

/-- How the tile of a capsule that is read authenticates and decompresses. -/
def State.readRecord (s : State) (j : CapsuleJob) (m : Model) (t : MTile) : TileOutcome :=
  let read := s.srcAt j.space j.addr
  match j.recordAt m read t with
  | none => .tagFail
  | some (off, n, raw) => openRecord read j.key (slice j.header 112 12) off n raw

/-- STORED_LEN of a tile of a capsule: as it is made, or as the source's tile header says (R142). -/
def State.recordStored (s : State) (j : CapsuleJob) (m : Model) (reading : Bool) (t : MTile) : Nat :=
  if reading then
    let read := s.srcAt j.space j.addr
    ((j.recordAt m read t).map (fun (off, _, _) => leAt (read off 32) 4 4)).getD t.raw
  else (m.capsuleRecord j.content j.compress t.kind t.index (j.ordinal t) false).stored

end Sys2Proof.Machine
end

