-- ==== Sys2Proof/Machine/Motion.lean ====
section
/-!
DEFINITION. The state mover (the Lehr): space, seats, wear, the choice of a tier, moves and their tiles, credits
(R133 to R149, R155, R156, R191 to R193).
-/
namespace Sys2Proof.Machine

/-! ## Wear and the flash tier (R155, R156) -/

/-- The wear level now. -/
def State.wear (s : State) : Int := s.wearTick.stm.wearLevel

/-- Bytes in the pSLC zone now: it folds away 12 bytes a tick (R155). -/
def State.pslcNow (s : State) : Nat := s.stm.pslc - 12 * (s.tick - s.stm.pslcAt)

/-- The device writes `n` bytes to the flash tier for session state or a memory collection (R155, R156). -/
def State.chargeFlash (s : State) (n : Nat) : State :=
  let s := { s with stm := { s.stm with pslc := min (512 * gib) (s.pslcNow + n), pslcAt := s.tick } }
  if !s.regBit .STM_CFG_WEAR_GOV_EN then s
  else
    let s := s.wearTick
    let old := s.stm.wearLevel
    let low := old - (n : Int)
    let new := if low < -(s.wearDepth : Int) then -(s.wearDepth : Int) else low
    let s := { s with stm := { s.stm with wearLevel := new } }
    let below := if new < 0 then (if old < 0 then n else n - old.toNat) else 0
    let s := if below = 0 then s else s.bump .STM_WEAR_OVERDRAW_BYTES 0 below
    let s := if 2 * old ≥ (s.wearDepth : Int) ∧ 2 * new < (s.wearDepth : Int) then s.setIntBit pgStm 9 else s
    if old ≥ 0 ∧ new < 0 then s.setIntBit pgStm 10 else s

/-- Flash bytes of a tile: 4 KiB units of its stored form (R118, R119). -/
def storedLen (block : List Byte) (raw : Nat) : Nat := roundUp (storedForm true block raw).1 4096

/-- Take flash space; FLASH_LOW when free space falls below STM_FLASH_LOW (R157), and flash copies go (R138). -/
def State.takeFlash (s : State) (n : Nat) : State :=
  let before := s.flashShort
  let s := { s with stm := { s.stm with flashUsed := s.stm.flashUsed + n } }
  (if !before && s.flashShort then s.setIntBit pgStm 12 else s).easeFlash

def State.giveFlash (s : State) (n : Nat) : State :=
  { s with stm := { s.stm with flashUsed := s.stm.flashUsed - n } }

def State.takePool (s : State) (n : Nat) : State := { s with stm := { s.stm with poolUsed := s.stm.poolUsed + n } }
def State.givePool (s : State) (n : Nat) : State := { s with stm := { s.stm with poolUsed := s.stm.poolUsed - n } }

/-! ## Tiles -/

/-- Whether a page has a copy in a tier. -/
def PageRec.inTier (p : PageRec) : Residency → Bool
  | .parked => p.onFlash
  | .pooled => p.inPool
  | .hot => p.inHbm
  | .warm => p.inHbm
  | _ => false

/-- The state tiles of a page. -/
def pageTiles (n : Nat) (p : PageRec) : List MTile :=
  (List.range (p.tilesM1 + 1)).map (fun i => { kind := .kv, page := n, index := i, raw := 65536 })
    ++ if p.isSealed then [{ kind := .metadata, page := n, index := 0, raw := p.metaLen }] else []

/-- Pages of a session without a copy in a tier, and those with one. -/
def State.pagesLacking (s : State) (x : Session) (t : Residency) : List Nat :=
  x.frames.filter (fun n => !((s.page? n).map (·.inTier t)).getD true)

def State.pagesHaving (s : State) (x : Session) (t : Residency) : List Nat :=
  x.frames.filter (fun n => ((s.page? n).map (·.inTier t)).getD false)

/-- The step-record tiles. -/
def srTileList (n : Nat) : List MTile :=
  (List.range n).map (fun i => { kind := .stepRecord, page := 0, index := i, raw := 65536 })

def ptTile : MTile := { kind := .pageTable, page := 0, index := 0, raw := 65536 }

/-- Tiles of the pages in a list. -/
def State.tilesOf (s : State) (pages : List Nat) : List MTile :=
  pages.flatMap (fun n => match s.page? n with | some p => pageTiles n p | none => [])

def rawSum (l : List MTile) : Nat := (l.map (·.raw)).sum

/-- The tiles that a demotion of the session to a tier would write (R111, R144, R148). -/
def State.demoteTiles (s : State) (x : Session) (t : Residency) : List MTile :=
  let sr := if x.provisional = some (x.srCur, x.rec'.stepSeq) ∧ x.provTier = t then []
    else srTileList (s.layoutOf x).srTiles
  s.tilesOf (s.pagesLacking x t) ++ sr ++ [ptTile]

/-- Bytes that the tiles of a downward move or writeback take at the destination, at their raw length (R118, R136): in a pool,
metadata in 4 KiB-aligned space, and the header array of a session's extent before it. -/
def spaceOf (dst : Residency) (extent : Bool) (l : List MTile) : Nat :=
  if dst = .pooled then (l.map (fun t => if t.kind = .metadata then roundUp t.raw 4096 else t.raw)).sum
    + (if extent then roundUp (32 * l.length) 4096 else 0)
  else rawSum l

/-- Whether the destination has room for it (R136). -/
def State.dstRoom (s : State) (dst : Residency) (n : Nat) : Bool :=
  if dst = .parked then decide (n ≤ s.flashFree) else decide (n ≤ s.poolFree)

/-- est_bytes of R144. -/
def State.estBytes (s : State) (x : Session) (t : Residency) : Nat := rawSum (s.demoteTiles x t)

/-! ## Tier choice (R144) -/

/-- flash_ok without the wear condition, and with it. -/
def State.flashRoom (s : State) (est : Nat) : Bool := decide (s.reg .STM_FLASH_LOW_GIB * gib + est ≤ s.flashFree)
def State.wearOk (s : State) (est : Nat) : Bool := !s.regBit .STM_CFG_WEAR_GOV_EN || decide ((est : Int) ≤ s.wear)
def State.flashOk (s : State) (est : Nat) : Bool := s.flashRoom est && s.wearOk est

/-- Free heap below RESERVE + LOW (R139). -/
def State.heapLow (s : State) : Bool :=
  decide (s.heapFree < (s.reg .STM_HBM_RESERVE_GIB + s.reg .STM_HBM_LOW_GIB) * 16384)

/-- The threshold `above` in ticks (R144). -/
def State.parkAbove (s : State) : Nat :=
  let a := s.reg .STM_PARK_ABOVE_MS * 1000000
  let a := if s.regBit .STM_CFG_PRESSURE_EN ∧ s.heapLow = true then a / 2 ^ s.reg .STM_CFG_PRESSURE_SHIFT else a
  if s.regBit .STM_CFG_WEAR_GOV_EN ∧ 2 * s.wear < (s.wearDepth : Int) then a * 4 else a

/-- The tier for a wait of `w` ticks, and whether PARKED was refused for wear alone (R144, R157). `pressure` lets a
pressure demotion pass the wear condition down to minus the depth (R156). -/
def State.chooseTier (s : State) (x : Session) (w limit : Nat) (pressure : Bool) : Residency × Bool :=
  let above := s.parkAbove
  let est := s.estBytes x .parked
  let wearHolds := s.wearOk est || (pressure && decide (-(s.wearDepth : Int) ≤ s.wear - (est : Int)))
  let want : Residency × Bool :=
    if w = 0 then (.warm, false)
    else if w < s.reg .STM_HOT_BELOW_US * 1000 ∧ x.residency = .hot then (.hot, false)
    else if w < above then (.warm, false)
    else if s.flashRoom est && wearHolds then (.parked, false)
    else
      let refused := s.flashRoom est && !wearHolds
      if s.regBit .STM_CFG_POOL_EN && decide (s.estBytes x .pooled ≤ s.poolFree) then (.pooled, refused)
      else (.warm, refused)
  if limit = 1 ∧ (want.1 = .parked ∨ want.1 = .pooled) then (.warm, false)
  else if limit = 2 ∧ want.1 = .pooled then (.warm, want.2)
  else want

/-! ## HOT seats (R146, R193) -/

/-- A cluster all of whose cores are FAILED has no seats (R225). -/
def State.clusterFailed (s : State) (k : Nat) : Bool := (List.range 16).all (fun i => s.failed (pgCru + 16 * k + i))

/-- Units of the step-record region of a cluster. -/
def State.seatUnits (s : State) (k : Nat) : Nat := s.reg .CRU_CLU_SR_MIB k * 16

/-- The seats taken in a cluster, as first unit and length: those of sessions, and those reserved by moves. -/
def State.seatsTaken (s : State) (k : Nat) : List (Nat × Nat) :=
  (s.sdir.sess.values.filterMap (fun x => match x.seat with
    | some (c, u) => if c = k then some (u, (s.layoutOf x).srTiles) else none
    | none => none))
  ++ (s.stm.moves.values.filterMap (fun m => match m.seat with
    | some (c, u) => if c = k then some (u, ((s.session? m.slot).map (fun x => (s.layoutOf x).srTiles)).getD 1) else none
    | none => none))

/-- The lowest free run of `n` units in a cluster, whose domain is ON (R475). -/
def State.seatIn (s : State) (n k : Nat) : Option (Nat × Nat) :=
  if s.clusterFailed k || !s.domOn (128 + k) then none
  else
    let taken := s.seatsTaken k
    ((List.range (s.seatUnits k)).find? (fun u =>
      decide (u + n ≤ s.seatUnits k) && taken.all (fun t => decide (t.1 + t.2 ≤ u) || decide (u + n ≤ t.1)))).map
        (fun u => (k, u))

/-- A seat for a step record of `n` tiles: the lowest run of the lowest cluster that has one (log entry 12). -/
def State.findSeat (s : State) (n : Nat) : Option (Nat × Nat) := (List.range 8).findSome? (s.seatIn n)

/-! ## Victims (R140) -/

/-- The session may be a victim: not RUNNABLE, RUNNING or MOVING, nothing pending. -/
def Session.victimOk (x : Session) : Bool :=
  (x.runState == .toolWait || x.runState == .deadEnd || x.runState == .idle) && !x.inputPend && !x.genReq
    && x.ended.isNone && x.compact.isNone

/-- Order of victims: a group number and a key that ascends. A RESUME_TICK of 0 counts as latest. R140 gives no order among
DEAD_END sessions and none among equal keys: the one whose last command was accepted earliest goes first, and of equal keys the
lowest slot (DESIGN CHOICE, log entry 115). -/
def Session.victimKey (x : Session) : Nat × Nat :=
  match x.runState with
  | .toolWait => (0, 2 ^ 64 - (if x.resumeTick = 0 then 2 ^ 64 else x.resumeTick))
  | .deadEnd => (1, x.lastCmd)
  | _ => (2, x.lastCmd)

/-- The first in an order given by pairs of numbers. -/
def pickMin {α : Type} (key : α → Nat × Nat) : List α → Option α
  | [] => none
  | a :: l =>
    match pickMin key l with
    | none => some a
    | some b => if (key b).1 < (key a).1 ∨ ((key b).1 = (key a).1 ∧ (key b).2 < (key a).2) then some b else some a

/-- The victim among the sessions that satisfy `p`. -/
def State.victim (s : State) (p : Nat × Session → Bool) : Option (Nat × Session) :=
  pickMin (fun e => e.2.victimKey) (s.sdir.sess.entries.filter (fun e => e.2.victimOk && p e))

/-! ## Requests -/

def State.setMove (s : State) (n : Nat) (m : Move) : State :=
  { s with stm := { s.stm with moves := s.stm.moves.set n m } }

/-- A move ends: the step pin on the page that it was reading goes (R162). -/
def State.eraseMove (s : State) (n : Nat) : State :=
  let t := { s with stm := { s.stm with moves := s.stm.moves.erase n } }
  match (s.stm.moves.get? n).bind (·.pinned) with
  | some k => t.unpin k
  | none => t

/-- A new entry of the table of moves. -/
def State.addMove (s : State) (m : Move) : State :=
  { (s.setMove s.stm.nextMove m) with
    stm := { (s.setMove s.stm.nextMove m).stm with nextMove := s.stm.nextMove + 1 } }

/-- A move of residency that is asked for and not yet ended, of the given class. -/
def State.moveOf (s : State) (slot : Nat) (c : MoveClass) : Option (Nat × Move) :=
  s.stm.moves.find? (fun _ m => m.slot == slot && m.cls == c && !m.writebackOnly)

/-- The writeback of a session. -/
def State.writebackOf (s : State) (slot : Nat) : Option (Nat × Move) :=
  s.stm.moves.find? (fun _ m => m.slot == slot && m.writebackOnly)

/-- Ask for a promotion (R135). One that is already asked for only takes the earlier need and the further goal. -/
def State.askPromote (s : State) (slot : Nat) (need : Nat) (hot reheat : Bool) : State :=
  match s.session? slot with
  | none => s
  | some x =>
    match s.moveOf slot .promote with
    | some (n, m) =>
      s.setMove n { m with thenHot := m.thenHot || (hot && m.dst == .warm), reheat := m.reheat && reheat,
                           need := min m.need need }
    | none =>
      match x.residency with
      | .parked => s.addMove { slot := slot, cls := .promote, src := .parked, dst := .warm, need := need,
                               thenHot := hot, reheat := reheat }
      | .pooled => s.addMove { slot := slot, cls := .promote, src := .pooled, dst := .warm, need := need,
                               thenHot := hot, reheat := reheat }
      | .warm => if hot then s.addMove { slot := slot, cls := .promote, src := .warm, dst := .hot, need := need,
                                         reheat := reheat } else s
      | _ => s

/-- Ask for a demotion (R135). -/
def State.askDemote (s : State) (slot : Nat) (dst : Residency) (cmd : Option Nat) : State :=
  match s.session? slot with
  | none => s
  | some x =>
    if (s.moveOf slot .demote).isSome then s
    else if x.residency = .hot ∧ (dst = .warm ∨ dst = .parked ∨ dst = .pooled)
        ∨ x.residency = .warm ∧ (dst = .parked ∨ dst = .pooled) then
      s.addMove { slot := slot, cls := .demote, src := x.residency, dst := dst, need := s.tick, cmd := cmd }
    else s

/-- The session is moving to a lower tier. -/
def Session.movingDown (x : Session) : Bool :=
  x.residency == .moving && (x.moveDst == .parked || x.moveDst == .pooled || (x.moveSrc == .hot && x.moveDst == .warm))

/-- The session is moving to a higher tier. -/
def Session.movingUp (x : Session) : Bool :=
  x.residency == .moving && (x.moveDst == .hot || (x.moveDst == .warm && x.moveSrc != .hot))

/-- A promoting command, or reheat, ends a downward move early: CANCEL is 1 until the end (R81, R153). A demotion that has
not started is dropped. A RESUME of an IDLE session does so too: R81 lists RESUME among the promoting commands without regard to
the run state, and R94's "changes nothing other than DEADLINE" is read of the session's entry (DESIGN CHOICE, log entry 110). -/
def State.cancelDown (s : State) (slot : Nat) : State :=
  match s.session? slot with
  | none => s
  | some x =>
    if x.movingDown then s.setSession slot { x with cancel := true }
    else match s.moveOf slot .demote with
      | some (n, m) => if m.ctx.isNone ∧ m.cmd.isNone then s.eraseMove n else s
      | none => s

/-! ## Lease validations (R396) -/

/-- An update of the session may commit: it is not leased, or a validation covers it, whose read was issued no more than
VALIDATE_US before; with VALIDATE_US 0, one that no other update has used. -/
def State.leaseOk (s : State) (x : Session) : Bool :=
  let us := s.reg .FAM_LEASE_CFG_VALIDATE_US
  !x.leased || (if us = 0 then x.leaseFresh
    else (x.leaseTick.map (fun t => decide (s.tick ≤ t + us * 1000))).getD false)

/-- The device issues a validation read, where the validation of a leased session will not last: as it composes the step, starts
the move or comes to the commit. -/
def State.issueRead (s : State) (slot : Nat) : State :=
  s.onSession slot (fun x => if x.leased && x.leaseIssued.isNone then { x with leaseIssued := some s.tick } else x)

/-- An update has used the validation. -/
def State.useLease (s : State) (slot : Nat) : State :=
  s.onSession slot (fun x => if x.leased then { x with leaseFresh := false, leaseWait := false } else x)

/-- A commit of the session waits for a validation. -/
def State.awaitLease (s : State) (slot : Nat) : State :=
  (s.issueRead slot).onSession slot (fun x => { x with leaseWait := true })

/-! ## Step-record versions (R149, R552) -/

def readersOf (x : Session) (v : Nat) : Nat := x.readers.getD v 0

/-- The version a commit writes: the lowest that is not SR_CUR and has no reader. -/
def Session.freeVersion (x : Session) : Option Nat :=
  (List.range (x.srNver + 1)).find? (fun v => v != x.srCur && readersOf x v == 0)

/-- The version taken after the wait: the lowest that is not SR_CUR; its readers are aborted. -/
def Session.forcedVersion (x : Session) : Nat := if x.srCur = 0 then 1 else 0

/-- Store a version and make it current. -/
def Session.writeVersion (x : Session) (v : Nat) (r : StepRec) : Session :=
  { x with vers := (List.range (max x.vers.length (v + 1))).map (fun i => if i = v then r else x.vers.getD i {}),
           srCur := v }

/-- Reads of a version that a commit has overwritten start again from the version now current (R149). -/
def State.restartReaders (s : State) (slot v : Nat) : State :=
  match s.session? slot with
  | none => s
  | some x =>
    { s with stm := { s.stm with moves := s.stm.moves.map (fun _ m =>
        if m.slot = slot ∧ m.version.isSome = true ∧ m.ctx.isSome = true ∧ (m.version.map (·.1)) = some v then
          { m with version := some (x.srCur, x.rec'.stepSeq), recBytes := 0,
                   tiles := m.tiles.filter (fun t => t.kind != .stepRecord) ++
                     (List.range (s.layoutOf x).srTiles).map (fun i => { kind := .stepRecord, page := 0, index := i, raw := 65536 }) }
        else m) } }

/-- Write a version after aborting its readers, and make it current (R149). -/
def State.forceVersion (s : State) (slot : Nat) (r : StepRec) : State :=
  match s.session? slot with
  | none => s
  | some x =>
    let v := x.forcedVersion
    let s := s.bump .STM_VER_ABORTS_COUNT 0 (readersOf x v)
    (s.setSession slot (x.writeVersion v r)).restartReaders slot v

/-- The commit of a session's version begins to wait for one without a reader (R149). -/
def State.beginVerWait (s : State) (slot : Nat) : State :=
  match s.session? slot with
  | none => s
  | some x =>
    if x.verWait.isSome then s
    else (s.setSession slot { x with verWait := some s.tick }).bump .STM_VER_STALLS_COUNT

/-- Such a wait ends: STM_VER_STALL_MAX keeps the longest, which is 50,000 ticks at most (R149, R157). -/
def State.endVerWait (s : State) (slot : Nat) : State :=
  match s.session? slot with
  | none => s
  | some x =>
    match x.verWait with
    | none => s
    | some t => (s.setSession slot { x with verWait := none }).raiseReg .STM_VER_STALL_MAX_TICKS (min 50000 (s.tick - t))

/-- A version can be written: one has no reader, or the wait for one has lasted 50,000 ticks (R149). -/
def State.verReady (s : State) (x : Session) : Bool :=
  x.freeVersion.isSome || (x.verWait.map (fun t => decide (t + 50000 ≤ s.tick))).getD false

/-- Commit a change of the step record made outside a step as a new version (R552). A command has waited for its version before
(R149); a change that no command makes and that finds every version being read takes one at once (log entry 35). -/
def State.commitOutside (s : State) (slot : Nat) (f : StepRec → StepRec) : State :=
  match s.session? slot with
  | none => s
  | some x =>
    if x.inHbm then
      let s := s.endVerWait slot
      let x := { x with verWait := none }
      match x.freeVersion with
      | some v => s.setSession slot (x.writeVersion v (f x.rec'))
      | none => s.forceVersion slot (f x.rec')
    else s.setSession slot (x.writeVersion x.srCur (f x.rec'))

/-! ## Move contexts and the start of moves (R134, R136) -/

def MoveClass.rank : MoveClass → Nat
  | .promote => 0 | .demote => 1 | .capsule => 2 | .writeback => 3

def MoveClass.code : MoveClass → Nat
  | .promote => 0 | .demote => 1 | .writeback => 2 | .capsule => 3

/-- Whether `a` starts before `b` when both wait (R134). -/
def moveBefore (a b : Nat × Move) : Bool :=
  decide (a.2.cls.rank < b.2.cls.rank) ||
    (decide (a.2.cls.rank = b.2.cls.rank) &&
      (decide (a.2.need < b.2.need) || (decide (a.2.need = b.2.need) && decide (a.1 < b.1))))

/-- Insert in the order of R134. -/
def insertMove (a : Nat × Move) : List (Nat × Move) → List (Nat × Move)
  | [] => [a]
  | b :: l => if moveBefore a b then a :: b :: l else b :: insertMove a l

def sortMoves (l : List (Nat × Move)) : List (Nat × Move) := l.foldr insertMove []

/-- A free move context for a class. -/
def State.freeCtx (s : State) (c : MoveClass) : Option Nat :=
  let used := s.stm.moves.values.filterMap (·.ctx)
  let own := match c with
    | .promote => List.range 256
    | .demote => (List.range 256).map (· + 256)
    | _ => []
  match own.find? (fun k => !used.contains k) with
  | some k => some k
  | none => ((List.range 512).map (· + 512)).find? (fun k => !used.contains k)

/-- The session of a move enters MOVING. -/
def State.enterMoving (s : State) (slot : Nat) (src dst : Residency) : State :=
  s.onSession slot (fun x => { x with residency := .moving, moveSrc := src, moveDst := dst, cancel := false })

/-- The session of a move leaves MOVING. -/
def State.leaveMoving (s : State) (slot : Nat) (r : Residency) : State :=
  (s.onSession slot (fun x => { x with residency := r, moveSrc := .free, moveDst := .free, cancel := false })).unlockEntry slot

/-- A move of residency HOT to WARM commits at once (R135). -/
def State.hotToWarm (s : State) (slot : Nat) : State :=
  (s.onSession slot (fun x => { x with residency := .warm, seat := none })).bump .STM_MOVES_DOWN_COUNT

/-- The result of PARK (R151). -/
def parkResult (c : Cmd) (res : Nat) : Nat := bitsOf c.moved 0 32 + bitsOf c.referenced 0 16 * 2 ^ 32 + res * 2 ^ 48

/-- The command of a move completes with the PARK result, where the move serves a PARK. -/
def State.completeMove (s : State) (cmd : Option Nat) (slot : Nat) (st : Status) (detail : Nat) : State :=
  match cmd with
  | none => s
  | some id =>
    match s.cmd? id with
    | none => s
    | some c =>
      let res := ((s.session? slot).map (fun x => x.residency.code)).getD 0
      s.complete id st detail (if st = .ok then parkResult c res else 0)

/-- Count tiles that a move references. -/
def State.countReferenced (s : State) (cmd : Option Nat) (pages : List Nat) (extra : Nat) : State :=
  let n := (pages.map (fun k => ((s.page? k).map PageRec.tiles).getD 0)).sum + extra
  let s := s.bump .STM_TILES_REFERENCED_COUNT 0 n
  match cmd with
  | none => s
  | some id =>
    let own := ((s.cmd? id).map (·.pages)).getD []
    let k := ((pages.filter (fun p => !own.contains p)).map (fun k => ((s.page? k).map PageRec.tiles).getD 0)).sum + extra
    s.onCmd id (fun c => { c with referenced := c.referenced + k })

/-- Record F1 again when a demotion of a waiting session starts (R152). -/
def Session.reheatAgain (x : Session) (dst : Residency) (tick : Nat) : Session :=
  match x.reheat with
  | none => x
  | some h =>
    let f := h.resumeTick - (if dst = .pooled then h.leadLw else h.leadPw)
    { x with reheat := some { h with f1 := if f < tick then none else some f } }

/-- Release the provisional version of a session where it lies (R148). -/
def State.dropProvisional (s : State) (slot : Nat) : State :=
  match s.session? slot with
  | none => s
  | some x =>
    let s := match x.provTier with
      | .parked => s.giveFlash x.provBytes
      | .pooled => s.givePool x.provBytes
      | _ => s
    s.setSession slot { x with provisional := none, provTier := .free, provBytes := 0 }

/-- Start of a demotion to PARKED or POOLED: its space, its tiles, MOVING (R136, R148). -/
def State.startDemote (s : State) (n : Nat) (m : Move) (x : Session) (ctx : Nat) : Option State :=
  let tiles := s.demoteTiles x m.dst
  let need := spaceOf m.dst true tiles
  if s.dstRoom m.dst need then
    match s.lockEntry m.slot with
    | none => none
    | some s =>
      let s := if m.dst = .parked then s.takeFlash need else s.takePool need
      let sr := (s.layoutOf x).srTiles
      let extra := if tiles.length = (s.tilesOf (s.pagesLacking x m.dst)).length + 1 then sr else 0
      let s := s.countReferenced m.cmd (s.pagesHaving x m.dst) extra
      let s := s.setMove n { m with ctx := some ctx, tiles := tiles, reserved := need, head := need - spaceOf m.dst false tiles }
      let s := s.enterMoving m.slot m.src m.dst
      some (s.onSession m.slot (fun x => x.reheatAgain m.dst s.tick))
  else none

/-- Heap bytes that a promotion of a session to WARM takes (R136, R137). -/
def State.promoteBytes (s : State) (x : Session) : Nat :=
  ((s.pagesLacking x .warm).map (fun k => ((s.page? k).map PageRec.hbmBytes).getD 0)).sum
    + (s.layoutOf x).recordBytes (s.nverOf x.tenant)

/-- A promotion to WARM that waits finds no space (R141). -/
def State.lacksSpace (s : State) (m : Move) : Bool :=
  m.cls == .promote && m.dst == .warm && m.ctx.isNone &&
    ((s.session? m.slot).map (fun x => !s.heapRoom x.tenant (s.promoteBytes x) true)).getD false

/-- Start of a promotion from PARKED or POOLED to WARM (R136, R137). -/
def State.startPromote (s : State) (n : Nat) (m : Move) (x : Session) (ctx : Nat) : Option State :=
  let l := s.layoutOf x
  let lacking := s.pagesLacking x .warm
  let bytes := s.promoteBytes x
  if s.heapRoom x.tenant bytes true then
    match s.lockEntry m.slot with
    | none => none
    | some s =>
      let s := s.heapTake x.tenant bytes
      let s := s.countReferenced none (s.pagesHaving x .warm) 0
      let s := s.setMove n { m with ctx := some ctx, reserved := bytes,
                                    tiles := [ptTile] ++ s.tilesOf lacking ++ srTileList l.srTiles }
      let s := s.addUsers x.frames
      let s := s.enterMoving m.slot m.src .warm
      let s := s.onSession m.slot (fun x => { x with revives := satAdd 16 x.revives 1 })
      some (if m.reheat then s.bump .STM_REHEAT_FIRED_COUNT else s)
  else none

/-- The HOT session that a promotion to HOT displaces (R140): one that no other demotion waits for. -/
def State.seatVictim (s : State) (m : Move) : Option Nat :=
  (s.victim (fun e => e.2.residency == .hot && e.1 != m.slot && s.leaseOk e.2 && (s.moveOf e.1 .demote).isNone &&
    (!m.reheat || e.2.runState != .toolWait || e.2.resumeTick == 0 || decide (m.need < e.2.resumeTick)))).map (·.1)

/-- A seat for a promotion to HOT, with as many victims displaced as it takes; each displacement is a move with a context of its
own, which ends at once (R134, R135). -/
def displace (m : Move) (tiles : Nat) : Nat → State → Option (Nat × Nat) × State
  | 0, s => (s.findSeat tiles, s)
  | fuel + 1, s =>
    match s.findSeat tiles with
    | some c => (some c, s)
    | none =>
      match s.freeCtx .demote, s.seatVictim m with
      | some _, some v => displace m tiles fuel ((s.hotToWarm v).useLease v)
      | _, _ => (none, s)

/-- Start of a promotion from WARM to HOT (R146). -/
def State.startHot (s : State) (n : Nat) (m : Move) (x : Session) (ctx : Nat) : Option State :=
  let tiles := (s.layoutOf x).srTiles
  match displace m tiles s.sdir.sess.size s with
  | (none, t) => if (s.seatVictim m).isSome && (s.freeCtx .demote).isSome then some t else none
  | (some seat, s) =>
    match s.lockEntry m.slot with
    | none => none
    | some s =>
      let s := s.setMove n { m with ctx := some ctx, seat := some seat, tiles := srTileList tiles }
      let s := s.enterMoving m.slot .warm .hot
      some (if m.reheat then s.bump .STM_REHEAT_FIRED_COUNT else s)

/-- The version that a writeback copies: the one that it was asked for, or, where a step has written over it since, the newest
(R147, R149). -/
def Session.versionFor (x : Session) (v : Nat × Nat) : Nat × Nat :=
  if (x.vers.getD v.1 {}).stepSeq = v.2 then v else (x.srCur, x.rec'.stepSeq)

/-- Start of a writeback (R147): its tiles, with a reader on the version it copies (R149). -/
def State.startWriteback (s : State) (n : Nat) (m : Move) (x : Session) (ctx : Nat) : Option State :=
  let pages := (s.pagesLacking x m.dst).filter (fun k => ((s.page? k).map (·.isSealed)).getD false)
  let sr := match m.version with
    | some _ => srTileList (s.layoutOf x).srTiles
    | none => []
  let tiles := s.tilesOf pages ++ sr
  let need := spaceOf m.dst false tiles
  if s.dstRoom m.dst need then
    let s := if m.dst = .parked then s.takeFlash need else s.takePool need
    let ver := m.version.map x.versionFor
    let s := match ver with
      | some (v, _) => s.onSession m.slot (fun x => { x with readers := x.readers.set v (readersOf x v + 1) })
      | none => s
    some (s.setMove n { m with ctx := some ctx, tiles := tiles, reserved := need, version := ver })
  else none

/-- Whether the session of a demotion is free of steps: a HOT session moves between steps only (R148). -/
def Session.betweenSteps (x : Session) : Bool := x.runState != .running

/-- Try to start one waiting move. -/
def State.tryStart (s : State) (n : Nat) (m : Move) : Option State :=
  match s.session? m.slot, s.freeCtx m.cls with
  | none, some ctx => if m.job.isSome then some (s.setMove n { m with ctx := some ctx }) else none
  | some x, some ctx =>
    if m.job.isSome then some (s.setMove n { m with ctx := some ctx })
    else if m.writebackOnly then
      if x.inHbm then s.startWriteback n m x ctx else none
    else if x.residency ≠ m.src ∨ x.compact.isSome = true ∨ x.compactDue.isSome = true then none
    else match m.cls, m.dst with
      | .promote, .hot => s.startHot n m x ctx
      | .promote, .warm => s.startPromote n m x ctx
      | .demote, .warm =>
        if x.betweenSteps && s.leaseOk x then some (((s.hotToWarm m.slot).useLease m.slot).eraseMove n) else none
      | .demote, .parked => if x.betweenSteps then s.startDemote n m x ctx else none
      | .demote, .pooled => if x.betweenSteps then s.startDemote n m x ctx else none
      | _, _ => none
  | _, _ => none

/-- The moves that wait for a start, in the order of R134. -/
def State.waitingMoves (s : State) : List (Nat × Move) :=
  sortMoves (s.stm.moves.entries.filter (fun e => e.2.ctx.isNone))

/-- A waiting move whose session is no longer where the move would start from is dropped. -/
def State.staleMove (s : State) (m : Move) : Bool :=
  match s.session? m.slot with
  | none => m.job.isNone
  | some x => m.job.isNone && (x.runState == .closed || x.runState == .lost
      || (x.residency != .moving && !m.writebackOnly && x.residency != m.src))

def State.dropStale (s : State) : State :=
  (s.waitingMoves.filter (fun e => s.staleMove e.2)).foldl (fun s e =>
    (s.eraseMove e.1).completeMove e.2.cmd e.2.slot .ok 1) s

/-- A deferral for want of a lock is counted for the first waiting move (R78). -/
def State.lockStall (s : State) : State :=
  match s.waitingMoves.filter (fun e => e.2.job.isNone) with
  | (_, m) :: _ => if (s.lockEntry m.slot).isNone then s.bump .SDIR_LOCK_STALLS_COUNT else s
  | [] => s

/-- The row MOVE_START: the first waiting move that obtains a context and its space starts. -/
def execMoveStart (s : State) : Host.Outcome State Fault Refusal :=
  .next (if s.enabled pgStm ∧ s.freeze = 0 then
    let s := s.dropStale
    match s.waitingMoves.findSome? (fun e => (s.tryStart e.1 e.2).map (fun t => t.issueRead e.2.slot)) with
    | some t => t
    | none => s.lockStall
  else s)

/-! ## Credits (R142, R143) -/

/-- Ticks of a credit window. -/
def State.windowTicks (s : State) : Nat := min 100 (max 1 (s.reg .STM_WINDOW_US)) * 1000

def portMax : List Nat := [29491, 230, 48, 1024, 1024]

/-- The bound on the flash budgets while scans or collection writes wait for the channels (R363). -/
def State.channelBound (s : State) (p : Nat) : Nat :=
  let scans := (s.srch.batch.map (fun b => !b.scanned)).getD false
  let writes := s.srch.compact.isSome
    || (s.srch.batch.map (fun b => b.cmds.any (fun id => ((s.cmd? id).map (fun c => c.desc.opcode == 0x38)).getD false))).getD false
  if p = 1 ∧ scans = true then 230 * (100 - min 50 (s.reg .SRCH_FLASH_RD_FLOOR)) / 100
  else if p = 2 ∧ writes = true then 48 - min 8 (s.reg .SRCH_FLASH_WR_GBPS)
  else portMax.getD p 0

/-- Budget of a port in bytes a tick, the flash write budget held at the folding rate while the pSLC zone is full (R155): it
counts as full in a window whose writes it has no room for beside what it folds away (log entry 113). -/
def State.budgetOf (s : State) (p : Nat) : Nat :=
  let b := min (s.channelBound p) (min (portMax.getD p 0) (max 1 (s.reg .STM_BUDGET_GBPS p)))
  if p = 2 ∧ 512 * gib < s.pslcNow + (b - 12) * s.windowTicks then min b 12 else b

def State.credit (s : State) (p : Nat) : Credit := s.stm.credits.getD p {}

/-- Own share of a class in a window, in bytes. -/
def State.guarOwn (s : State) (p c : Nat) : Nat := s.reg .STM_SHARE_GUAR (4 * p + c) * (s.credit p).avail / 100

/-- Guarantee with the bytes carried: capped at one full tile (R143). -/
def State.guar (s : State) (p c : Nat) : Nat :=
  let own := s.guarOwn p c
  let carry := (s.credit p).carry.getD c 0
  if carry = 0 then own else max own (min 65536 (own + carry))

def State.ceilOf (s : State) (p c : Nat) : Nat := s.reg .STM_SHARE_CEIL (4 * p + c) * (s.credit p).avail / 100

/-- Flash bytes of a tile of a session's move. -/
def State.tileStored (s : State) (m : Move) (t : MTile) : Nat :=
  match s.session? m.slot with
  | some x => storedLen (lz4Coded ((s.layoutOf x).tileFormat t.kind) (s.tileBytes x t)) t.raw
  | none => roundUp t.raw 4096

/-- The model of the session of a move. -/
def State.moveModel (s : State) (m : Move) : Model :=
  s.model (((s.session? m.slot).map (fun x => x.rec'.params.model)).getD 0)

/-- The capsule job that a move reads tiles for, from outside the device. -/
def State.readingJob (s : State) (m : Move) : Option CapsuleJob :=
  if m.dst = .moving then none else m.job.bind (fun j => s.jobs.get? j)

/-- Bytes of a capsule's tile as they cross a fabric port (R142). -/
def State.capsuleTile (s : State) (j : Nat) (m : Move) (t : MTile) : Nat :=
  match s.jobs.get? j with
  | some job => s.recordStored job (s.moveModel m) (m.dst != .moving) t
  | none => t.raw

/-- The (port, bytes) pairs that a tile of a move is charged to: its read port first. Capsule transfers use HBM and the
fabric ports (R133, R142). -/
def State.tilePorts (s : State) (m : Move) (t : MTile) : List (Nat × Nat) :=
  match m.job with
  | some j =>
    let far := s.capsuleTile j m t
    if m.dst = .moving then
      match m.src with
      | .parked => [(1, s.tileStored m t), (4, far)]
      | .pooled => [(3, t.raw), (4, far)]
      | _ => [(0, t.raw), (4, far)]
    else [(3, far), (0, t.raw)]
  | none =>
    match m.src, m.dst with
    | .parked, _ => [(1, s.tileStored m t), (0, t.raw)]
    | .pooled, _ => [(3, t.raw), (0, t.raw)]
    | _, .parked => [(0, t.raw), (2, s.tileStored m t)]
    | _, .pooled => [(0, t.raw), (4, t.raw)]
    | _, _ => [(0, t.raw)]

/-- The class codes with a transfer waiting on a port. -/
def State.waitingOn (s : State) (p : Nat) : List Nat :=
  s.stm.moves.values.filterMap (fun m =>
    match m.ctx, m.tiles with
    | some _, t :: _ => if (s.tilePorts m t).any (fun q => q.1 == p) then some m.cls.code else none
    | _, _ => none)

/-- May class `c` move a tile of `n` bytes over port `p` now (R143)? -/
def State.grant (s : State) (p c n : Nat) : Bool :=
  let k := s.credit p
  let waiting := s.waitingOn p
  let held := (((List.range 4).filter (fun d => d != c && waiting.contains d)).map
    (fun d => s.guar p d - k.used.getD d 0)).sum
  let used := k.used.getD c 0
  s.reg .STM_SHARE_CEIL (4 * p + c) != 0 &&
    (decide (used + n ≤ s.guar p c) || (decide (used + n ≤ s.ceilOf p c) && decide (k.total + n + held ≤ k.avail)))

/-- Charge a grant. -/
def State.charge (s : State) (p c n : Nat) : State :=
  let k := s.credit p
  let k' : Credit := { k with used := k.used.set c (k.used.getD c 0 + n), total := k.total + n }
  { s with stm := { s.stm with credits := s.stm.credits.set p k' } }

/-- The credit of a port for the window that starts (R143). -/
def State.renewPort (s : State) (p : Nat) : Credit :=
  let k := s.credit p
  let carry := (List.range 4).map (fun c =>
    let own := s.guarOwn p c
    if own = 0 ∨ 65536 ≤ own then 0 else s.guar p c - k.used.getD c 0)
  { avail := s.budgetOf p * s.windowTicks - (k.total - k.avail), carry := carry }

/-- Start a window of every port; it ends at the next multiple of the window length. -/
def State.renewCredits (s : State) : State :=
  let cs := (List.range 5).map s.renewPort
  { s with stm := { s.stm with credits := cs, windowEnd := (s.tick / s.windowTicks + 1) * s.windowTicks } }

/-- The row CREDIT_WINDOW_END. -/
def execCreditWindowEnd (s : State) : Host.Outcome State Fault Refusal :=
  .next (if s.enabled pgStm ∧ s.stm.windowEnd ≤ s.tick then s.renewCredits else s)

/-! ## The end of a move -/

/-- Set the flag of a tier on a page whose tiles were all written there, at addresses that the device chooses (R110, R118). -/
def State.flagPage (s : State) (n : Nat) (t : Residency) : State :=
  let bytes := ((s.page? n).map PageRec.poolBytes).getD 0
  let at' := s.poolAddr s.free bytes
  let s := if t = .pooled then s.allotPool at' bytes else s
  (s.onPage n (fun p => match t with
    | .parked => { p with onFlash := true, flash := (Config.freeWord s.free).toNat / 4096 * 4096 }
    | .pooled => { p with inPool := true, poolDue := false, pool := at' }
    | .warm => { p with inHbm := true, hbmKv := (Config.freeWord s.free).toNat / 65536 * 65536,
                        hbmMeta := (Config.freeWord (s.free + 1)).toNat / 4096 * 4096 }
    | _ => p)).useFree 2

/-- Bytes that the pages of a list occupy at the destination. -/
def State.keptBytes (s : State) (t : Residency) (l : List Nat) : Nat :=
  (l.map (fun n => ((s.page? n).map (fun p => if t = .parked then p.flashBytes else p.poolBytes)).getD 0)).sum

/-- Give back what the reservation of a downward move or writeback did not use (R136): `kept` pages stay, and `rec` bytes
of record and page table. -/
def State.settleDown (s : State) (m : Move) (recB : Nat) : State :=
  let kept := s.keptBytes m.dst m.done + recB
  let s := if m.dst = .parked then s.giveFlash (m.reserved - kept) else s.givePool (m.reserved - kept)
  -- flash bytes counted for pages that were not finished are forgotten
  let rest := ((m.tiles.map (·.page)).filter (fun n => !m.done.contains n)).eraseDups
  if m.dst = .parked then rest.foldl (fun s n => s.onPage n (fun p => if p.onFlash then p else { p with flashBytes := 0 })) s
  else s

/-- Release the HBM storage of a session that has left HBM: record, page table, page copies (R137, R138). -/
def State.leaveHbm (s : State) (slot : Nat) (x : Session) : State :=
  let s := s.heapGive x.tenant ((s.layoutOf x).recordBytes x.srNver)
  let s := s.dropUsers x.frames
  let s := x.frames.foldl (fun s n => s.dropIdleHbm n) s
  s.onSession slot (fun y => { y with seat := none })

/-- The tail page of a session that comes to another tier has its one copy there from the commit on (R111). While another session
in HBM holds the page, it stays in HBM alone (log entry 112). The pages so placed come with it. -/
def State.placeTail (s : State) (x : Session) (dst : Residency) : State × List Nat :=
  (x.table.filter (·.isTail)).foldl (fun (s, l) e =>
    match s.page? e.frame with
    | none => (s, l)
    | some p =>
      if p.inTier dst then (s, l)
      else if dst = .warm then (((s.flagPage e.frame .warm).dropFlash e.frame).dropPool e.frame, l ++ [e.frame])
      else if 1 < p.users then (s.onPage e.frame (fun p => { p with flashBytes := 0 }), l)
      else (s.flagPage e.frame dst, l ++ [e.frame])) (s, [])

/-- A RUNNABLE session that is not HOT is promoted on demand (R83). -/
def State.promoteRunnable (s : State) (slot : Nat) : State :=
  match s.session? slot with
  | none => s
  | some x => if x.runState = .runnable ∧ s.enabled pgStm = true then s.askPromote slot s.tick true false else s

/-- The stale or referenced provisional version at the commit of a demotion. -/
def State.useProvisional (s : State) (slot : Nat) (m : Move) (x : Session) : Nat × State :=
  if x.provisional = some (x.srCur, x.rec'.stepSeq) ∧ x.provTier = m.dst then
    (m.recBytes + x.provBytes, s.onSession slot (fun y => { y with provisional := none, provTier := .free, provBytes := 0 }))
  else (m.recBytes, s.dropProvisional slot)

/-- A demotion to PARKED or POOLED commits (R81, R111, R117, R148). -/
def State.commitDemote (s : State) (n : Nat) (m : Move) (x : Session) : State :=
  let (s, tail) := s.placeTail x m.dst
  let m := { m with done := m.done ++ tail, recBytes := m.recBytes + m.head }
  let s := s.settleDown m m.recBytes
  let (recB, s) := s.useProvisional m.slot m x
  let s := s.leaveHbm m.slot x
  let extent := s.poolAddr (s.free + 1) recB
  let s := s.onSession m.slot (fun y => { y with
    vers := [x.rec'], srCur := 0, srNver := 0, readers := [0], recStored := recB, srAddr := s.freeAddr,
    ptRoot := if m.dst = .pooled then extent else (Config.freeWord (s.free + 1)).toNat / 4096 * 4096 })
  let s := if m.dst = .pooled then s.allotPool extent recB else s
  let s := (s.useFree 2).leaveMoving m.slot m.dst
  let s := (s.eraseMove n).bump .STM_MOVES_DOWN_COUNT
  (s.completeMove m.cmd m.slot .ok 0).promoteRunnable m.slot

/-- A promotion to WARM commits (R81, R117, R137, R138). -/
def State.commitPromote (s : State) (n : Nat) (m : Move) (x : Session) : State :=
  let nver := s.nverOf x.tenant
  let s := if m.src = .parked then s.giveFlash x.recStored else s.givePool x.recStored
  let (s, _) := s.placeTail x .warm
  let s := s.onSession m.slot (fun y => { y with
    recStored := 0, srCur := 0, srNver := nver, vers := [x.rec'], readers := List.replicate (nver + 1) 0,
    srAddr := s.freeAddr, ptRoot := ((Config.freeWord (s.free + 1)).toNat / 65536 * 65536) })
  let s := (s.useFree 2).leaveMoving m.slot .warm
  -- the pool copy goes when no POOLED session holds the page any more
  let pooled := (s.sdir.sess.values.filter (fun y =>
    y.residency == .pooled || (y.residency == .moving && (y.moveSrc == .pooled || y.moveDst == .pooled)))).flatMap Session.frames
  let s := if m.src = .pooled then
      x.frames.foldl (fun s k => if pooled.contains k then s else s.dropIdlePool k) s
    else s
  let s := s.easeFlash
  let s := (s.eraseMove n).bump .STM_MOVES_UP_COUNT
  let runnable := x.runState = .runnable
  if m.thenHot ∨ runnable then s.askPromote m.slot m.need true m.reheat else s

/-- A promotion to HOT commits. -/
def State.commitHot (s : State) (n : Nat) (m : Move) : State :=
  let s := s.onSession m.slot (fun y => { y with seat := m.seat, lastStep := s.tick })
  ((s.leaveMoving m.slot .hot).eraseMove n).bump .STM_MOVES_UP_COUNT

/-- A writeback ends: its reader goes, and the version it copied is provisional (R147, R148). -/
def State.endWriteback (s : State) (n : Nat) (m : Move) (whole : Bool) : State :=
  let keep := if whole ∧ m.version.isSome = true then m.recBytes else 0
  let s := s.settleDown m keep
  let s := match m.version with
    | none => s
    | some (v, q) =>
      let s := if m.ctx.isSome then
          s.onSession m.slot (fun x => { x with readers := x.readers.set v (readersOf x v - 1) })
        else s
      if whole then
        let s := s.dropProvisional m.slot
        s.onSession m.slot (fun x => { x with provisional := some (v, q), provTier := m.dst, provBytes := m.recBytes })
      else s
  s.eraseMove n

/-- A downward move ends early, in its source tier; whole pages it wrote stay as copies (R81, R82). -/
def State.cancelMove (s : State) (n : Nat) (m : Move) : State :=
  let s := s.settleDown m 0
  let s := s.leaveMoving m.slot m.src
  let s := (s.eraseMove n).bump .STM_CANCELS_COUNT
  (s.completeMove m.cmd m.slot .ok 2).promoteRunnable m.slot

/-- The HBM copies that a failed promotion had written go, but for those that another session uses or a reader holds. -/
def State.undoPromote (s : State) (m : Move) (x : Session) : State :=
  let s := s.dropUsers x.frames
  let stays (k : Nat) : Bool := ((s.page? k).map (fun p => p.users != 0 || !p.mayDrop)).getD false
  let kept := m.done.filter stays
  let s := (m.done.filter (fun k => !stays k)).foldl (fun s k => s.onPage k (fun p => { p with inHbm := false })) s
  s.heapGive x.tenant (m.reserved - (kept.map (fun k => ((s.page? k).map PageRec.hbmBytes).getD 0)).sum)

/-- Commands of a session that wait for its state end with the given status. -/
def State.failWaiting (s : State) (slot : Nat) (st : Status) (detail : Nat) : State :=
  (s.cmds.entries.filter (fun e => e.2.phase == .waiting && e.2.slot == some slot)).foldl
    (fun s e => s.complete e.1 st detail) s

/-- An outstanding STEP whose promotion is given up ends; where it has emitted nothing, the session keeps the run state and the
DEADLINE that it had before (R120, R141). -/
def State.giveUpStep (s : State) (slot : Nat) (st : Status) (detail : Nat) : State :=
  match (s.session? slot).bind (·.stepReq) with
  | none => s
  | some q =>
    (s.endStep slot st detail).onSession slot (fun y =>
      { y with deadline := if q.tokens = 0 then q.deadline else y.deadline,
               runState := if y.runState = .runnable ∧ y.input.isEmpty then q.before else y.runState })

/-- A move fails: the session stays whole in its source tier (R82); the commands that needed its state end with INTERNAL where a
tile of a promotion failed (R120). -/
def State.failMove (s : State) (n : Nat) (m : Move) (bad : Bool) : State :=
  match s.session? m.slot with
  | none => s.eraseMove n
  | some x =>
    let s := if m.cls = .promote ∧ m.dst = .warm then s.undoPromote m x
      else if m.cls = .promote then s
      else s.settleDown m 0
    let s := s.leaveMoving m.slot m.src
    let s := s.onSession m.slot (fun y => { y with bad := y.bad || bad })
    let s := (s.eraseMove n).completeMove m.cmd m.slot .internal 0
    if m.cls = .promote then (s.failWaiting m.slot .internal 0).giveUpStep m.slot .internal 0 else s.promoteRunnable m.slot

/-- Commit the move whose tiles are all written. -/
def State.commitMove (s : State) (n : Nat) (m : Move) : State :=
  match s.session? m.slot with
  | none => s.eraseMove n
  | some x =>
    if m.writebackOnly then
      let s := s.endWriteback n m true
      match m.cmd.bind s.cmd? with
      | some c => if c.phase = .running then s.completeMove m.cmd m.slot .ok 0 else s
      | none => s
    else if x.cancel then s.cancelMove n m
    else if !s.leaseOk x then s.awaitLease m.slot
    else
      let s := s.useLease m.slot
      match m.cls, m.dst with
      | .promote, .hot => s.commitHot n m
      | .promote, _ => s.commitPromote n m x
      | _, _ => s.commitDemote n m x

/-- Started moves of residency and writebacks with no tile left, in the order of their numbers. -/
def State.finishedMove (s : State) : Option (Nat × Move) :=
  s.stm.moves.find? (fun _ m => m.ctx.isSome && m.tiles.isEmpty && m.job.isNone)

/-- The row MOVE_COMMIT. -/
def execMoveCommit (s : State) : Host.Outcome State Fault Refusal :=
  .next (match s.finishedMove with
    | some (n, m) => if s.freeze = 0 then s.commitMove n m else s
    | none => s)

/-! ## Moving a tile -/

/-- The outcome of a tile that is read and written: a failed tag or decompression of a tile that is read (R120), or a
flash program that failed after relocation (R159). -/
def State.tileFailed (s : State) (n : Nat) (m : Move) (o : TileOutcome) : State :=
  match o with
  | .done => s
  | .tagFail => (s.failMove n m true |>.recErr pgStm 0x0001).setIntBit pgStm 11
  | .decompressFail => (s.failMove n m true |>.recErr pgStm 0x0002).setIntBit pgStm 11
  | .programFail => (s.failMove n m false).recErr pgStm 0x0004

/-- A move reads a page: it holds a step pin on it from the first of its tiles to the last; an export has pinned its pages
(R162). -/
def Move.pinsFor (m : Move) (t : MTile) : Bool := m.job.isNone && t.page != 0 && m.pinned != some t.page

/-- The pin on the page that a move was reading goes. -/
def State.releasePage (s : State) (m : Move) : State :=
  match m.pinned with
  | some k => s.unpin k
  | none => s

/-- A tile is moved: counts, wear, the page's flag when its last tile is written; an unsealed page is flagged at the commit
(R111). -/
def State.tileDone (s : State) (n : Nat) (m : Move) (t : MTile) (rest : List MTile) : State :=
  let stored := if m.dst = .parked then s.tileStored m t else t.raw
  let s := s.bump .STM_TILES_MOVED_COUNT
  let s := if m.dst = .parked then (s.chargeFlash stored).bump .STM_FLASH_BYTES_COUNT 0 stored else s
  let isPage := t.page ≠ 0
  let s := if isPage ∧ m.dst = .parked then s.onPage t.page (fun p => { p with flashBytes := p.flashBytes + stored }) else s
  let last := isPage ∧ rest.all (fun u => u.page != t.page) = true
  let fin := last ∧ m.job.isNone = true ∧ ((s.page? t.page).map (·.isSealed)).getD false = true
  let s := if fin then s.flagPage t.page m.dst else s
  let m' : Move := { m with
    tiles := rest, done := if fin then m.done ++ [t.page] else m.done,
    recBytes := if isPage then m.recBytes else m.recBytes + stored }
  let s := if last then (s.setMove n { m' with pinned := none }).releasePage m' else s.setMove n m'
  match m.cmd with
  | none => s
  | some id => s.onCmd id (fun c => { c with
      progressTick := s.tick, moved := c.moved + stored, pages := if fin then c.pages ++ [t.page] else c.pages })

/-- A commit waits for a version, and the move reads one that is not the newest: it is raised above all credit waits (R149). -/
def State.raised (s : State) (m : Move) : Bool :=
  match m.version, s.session? m.slot with
  | some (v, _), some x => x.verWait.isSome && v != x.srCur
  | _, _ => false

/-- Whether both ports of the next tile of a move grant it. -/
def State.tileGranted (s : State) (m : Move) : Bool :=
  match m.ctx, m.tiles with
  | some _, t :: _ => s.hbmOn && (s.fcdOn || (m.src != .parked && m.dst != .parked))
      && (s.raised m || (s.tilePorts m t).all (fun q => s.grant q.1 m.cls.code q.2))
  | _, _ => false

/-- How a tile is read: a capsule's tile as its record's tag and compression say (R131); any other as its row says. -/
def State.tileOutcome (s : State) (m : Move) (t : MTile) (o : TileOutcome) : TileOutcome :=
  match s.readingJob m with
  | some j => s.readRecord j (s.moveModel m) t
  | none => o

/-- A tile of a capsule failed as it was read (R120, R131): the job ends with that failure. -/
def State.jobTileFailed (s : State) (j : Nat) (o : TileOutcome) : State :=
  let s := { s with jobs := s.jobs.modify j (fun x => { x with failed := true }) }
  (s.recErr pgStm (if o = .decompressFail then 0x0002 else 0x0001)).setIntBit pgStm 11

/-- A tile of a capsule export or import counts in STM_PROGRESS (R35). -/
def State.jobProgress (s : State) (m : Move) : State :=
  match m.job.bind (fun j => s.jobs.get? j) with
  | some j =>
    if j.kind = .exportTo ∨ j.kind = .importFrom then
      let p := (s.common pgStm).position + 1
      s.progress pgStm p (100 * p / (p + m.tiles.length))
    else s
  | none => s

/-- The outcomes that a move's tile can have: a tag or decompression fails only on tiles read from a lower tier, a flash
program only on tiles written to flash. -/
def Move.canHave (m : Move) : TileOutcome → Bool
  | .done => true
  | .tagFail => m.src == .parked || m.src == .pooled
  | .decompressFail => m.src == .parked
  | .programFail => m.dst == .parked

/-- The combine hint of a read in a pool: its prefix bytes for a sealed page, where the map entry and the issuing port allow it,
none otherwise (R382, R383). -/
def State.combineHint (s : State) (isSealed : Bool) (addr : Nat) : List Byte :=
  match s.mapOf addr 1 with
  | none => []
  | some i =>
    let port := s.portFor i (s.reg .FAM_MAP_DEST_DEVICE i) addr
    if isSealed && s.regBit .FAM_MAP_DEST_COMBINE_OK i && (port.map (fun n => s.regBit .FAB_CFG_COMBINE_HINT n)).getD false then
      [0x57, 0x01, 0x00]
    else []

/-- The reads of a page's tile in a pool are sent. -/
def State.readPool (s : State) (m : Move) (t : MTile) : State :=
  match s.page? t.page with
  | some p => if m.src = .pooled ∧ t.page ≠ 0 then
      { s with out := OutMsg.poolRead p.pool (s.combineHint p.isSealed p.pool) :: s.out } else s
  | none => s

/-- Move one tile of move `n`. A cancelled move ends at this state-tile boundary (R81). -/
def State.transfer (s : State) (n : Nat) (m : Move) (o : TileOutcome) : State :=
  match m.tiles with
  | [] => s
  | t :: rest =>
    if ((s.session? m.slot).map (·.cancel)).getD false ∧ m.writebackOnly = false ∧ m.job = none then s.cancelMove n m
    else
      let o := s.tileOutcome m t o
      let s := ((s.tilePorts m t).foldl (fun s q => s.charge q.1 m.cls.code q.2) s).readPool m t
      let (s, m) := if m.pinsFor t then
          let k := { m with pinned := some t.page }
          (((s.releasePage m).pin t.page).setMove n k, k)
        else (s, m)
      if m.job.isSome then
        let s := if o = .tagFail ∨ o = .decompressFail then s.jobTileFailed (m.job.getD 0) o else s
        (s.jobProgress m).tileDone n m t rest
      else if o = .done ∨ m.canHave o = false then s.tileDone n m t rest
      else if m.writebackOnly then
        let s := s.endWriteback n m false
        let s := s.recErr pgStm 0x0004
        match m.cmd.bind s.cmd? with
        | some c => if c.phase = .running then s.completeMove m.cmd m.slot .internal 0 else s
        | none => s
      else s.tileFailed n m o

/-- The move that takes the next tile: a reader that a commit waits for, else the first in the order of R134 that both its ports
grant. -/
def State.nextTransfer (s : State) : Option (Nat × Move) :=
  let l := sortMoves (s.stm.moves.entries.filter (fun e => e.2.ctx.isSome && !e.2.tiles.isEmpty && s.tileGranted e.2))
  (l.find? (fun e => s.raised e.2)).or l.head?

/-- The row TILE_TRANSFER. -/
def execTileTransfer (outcome : TileOutcome) (s : State) : Host.Outcome State Fault Refusal :=
  .next (match s.nextTransfer with
    | some (n, m) => if s.freeze = 0 then s.transfer n m outcome else s
    | none => s)

/-! ## A cluster that loses its SRAM (R225, R476) -/

/-- A promotion that holds a seat in a cluster returns the session to where it was. -/
def State.dropSeatMoves (s : State) (k : Nat) : State :=
  (s.stm.moves.entries.filter (fun e => (e.2.seat.map (·.1)) == some k)).foldl (fun s e => s.failMove e.1 e.2 false) s

/-- The HOT sessions seated in a cluster are released to WARM. -/
def State.unseatCluster (s : State) (k : Nat) : State :=
  (s.sdir.sess.entries.filter (fun e => (e.2.seat.map (·.1)) == some k && e.2.residency == .hot)).foldl
    (fun s e => s.hotToWarm e.1) s

/-- A move out of HOT from the cluster goes on from WARM. -/
def State.unseatMoving (s : State) (k : Nat) : State :=
  let hit (x : Session) : Bool := x.residency == .moving && x.moveSrc == .hot && (x.seat.map (·.1)) == some k
  let slots := (s.sdir.sess.entries.filter (fun e => hit e.2)).map (·.1)
  let s := slots.foldl (fun s n => s.onSession n (fun x => { x with seat := none, moveSrc := .warm })) s
  { s with stm := { s.stm with moves := s.stm.moves.map (fun _ m =>
      if slots.contains m.slot && m.src == .hot then { m with src := .warm } else m) } }

/-- The halves of a cluster's weight window are discarded. -/
def State.dropHalves (s : State) (k : Nat) : State := { s with windows := s.windows.filter (fun i _ => i / 2 != k) }

/-- The seats of a cluster are released to WARM, which copies nothing (R135), and the halves of its window are discarded. -/
def State.clearCluster (s : State) (k : Nat) : State := (((s.dropSeatMoves k).unseatCluster k).unseatMoving k).dropHalves k

end Sys2Proof.Machine
end

