-- ==== Sys2Proof/Machine/Evict.lean ====
section
/-!
DEFINITION. The eviction scorer and compaction (R176, R178 to R185).
-/
namespace Sys2Proof.Machine

/-! ## Scores (R178, R179) -/

/-- Score `a` ranks below score `b`: NaN below all others, all NaN equal, +0 equal to -0 (R179). -/
def scoreBelow (a b : Word) : Bool :=
  if fisNan a then !fisNan b else if fisNan b then false else flt a b

/-- The entry that goes first: lowest score, lowest index among equal scores, entries in ascending index. -/
def lowestEntry : List (Nat × Word) → Option (Nat × Word)
  | [] => none
  | e :: l =>
    match lowestEntry l with
    | none => some e
    | some f => if scoreBelow f.2 e.2 then some f else some e

/-- 2^(-k) as binary32. -/
def f32pow2neg (k : Nat) : Word := toF32 (.fin false 1 (-(k : Int)))

/-- The decay shift of a tenant, 1 to 16 (R189). -/
def State.decayShift (s : State) (t : Nat) : Nat := min 16 (max 1 (s.reg .EVIC_TEN_CFG_DECAY_SHIFT t))

/-- Decay an entry and add its mass. -/
def decayAdd (k : Nat) (score mass : Word) : Word :=
  fadd (fsub score (fmul score (f32pow2neg k))) mass

/-- The lowest index of the recent window, given the indices held in ascending order; past them all where RECENT is 0. -/
def windowStart (p : Params) (held : List Nat) : Nat :=
  if p.recent = 0 then (held.getLast?.getD 0) + 1 else held.getD (held.length - p.recent) 0

/-- While a table holds more than RECENT + BUDGET entries, the lowest of those outside the recent window goes. Returns the table
and the number removed; the number of entries is fuel enough. -/
def trimScores (p : Params) (start : Nat) : Nat → List (Nat × Word) → Nat → List (Nat × Word) × Nat
  | 0, t, n => (t, n)
  | fuel + 1, t, n =>
    if t.length ≤ p.recent + p.budget then (t, n)
    else match lowestEntry (t.filter (fun e => decide (e.1 < start))) with
      | some e => trimScores p start fuel (t.filter (fun f => f.1 != e.1)) (n + 1)
      | none => (t, n)

/-- Insert a new position and trim: `held` are the indices held up to and with `p`, in ascending order (log entry 23).
Returns the table and the entries removed. -/
def insertScore (p : Params) (table : List (Nat × Word)) (held : List Nat) (i : Nat) : List (Nat × Word) × Nat :=
  if held.length ≤ p.sink then (table, 0)
  else trimScores p (windowStart p held) (table.length + 1) (table ++ [(i, f32zero)]) 0

/-- The score table of a session under parameters that have changed, as at a fork: no entry of a sink position, at most
RECENT + BUDGET entries (R178). -/
def fitScores (p : Params) (held : List Nat) (t : List (Nat × Word)) : List (Nat × Word) :=
  let t := t.filter (fun e => !(held.take p.sink).contains e.1)
  (trimScores p (windowStart p held) t.length t 0).1

/-- A score table is consistent: at most RECENT + BUDGET entries, in ascending original index (R190). -/
def StepRec.scoresOk (r : StepRec) : Bool :=
  let rec rising : List (Nat × Word) → Bool
    | a :: b :: l => decide (a.1 < b.1) && rising (b :: l)
    | _ => true
  decide (r.scores.length ≤ r.params.recent + r.params.budget) && rising r.scores

/-- Insert the positions that a step added, in ascending index. -/
def insertScores (p : Params) : List Nat → List Nat → List (Nat × Word) → Nat → List (Nat × Word) × Nat
  | [], _, t, n => (t, n)
  | i :: rest, held, t, n =>
    let h := held ++ [i]
    let (t', k) := insertScore p t h i
    insertScores p rest h t' (n + k)

/-- The score update at the commit of a step (R179): `mass` gives the attention mass of a position, `before` the indices
held before the step, `added` those it added. -/
def scoreUpdate (k : Nat) (p : Params) (table : List (Nat × Word)) (mass : Nat → Word) (before added : List Nat) :
    List (Nat × Word) × Nat :=
  insertScores p added before (table.map (fun e => (e.1, decayAdd k e.2 (mass e.1)))) 0

/-! ## The kept set (R180) -/

/-- Take the `n` entries of highest score; lower index first among equal scores. -/
def topScores : Nat → List (Nat × Word) → List Nat
  | 0, _ => []
  | n + 1, l =>
    match bestEntry l with
    | none => []
    | some e => e.1 :: topScores n (l.filter (fun f => f.1 != e.1))
where
  bestEntry : List (Nat × Word) → Option (Nat × Word)
    | [] => none
    | e :: l =>
      match bestEntry l with
      | none => some e
      | some f => if scoreBelow e.2 f.2 then some f else some e

/-- The indices that a compaction keeps, given those held in ascending order. -/
def keptSet (p : Params) (budget : Nat) (scores : List (Nat × Word)) (held : List Nat) : List Nat :=
  let sinks := held.take p.sink
  let recent := held.drop (held.length - p.recent)
  let middle := held.filter (fun i => !sinks.contains i && !recent.contains i)
  let best := topScores budget (scores.filter (fun e => middle.contains e.1))
  held.filter (fun i => sinks.contains i || recent.contains i || best.contains i)

/-- Whether a compaction would drop anything: POSITIONS above SINK + RECENT + BUDGET (R180). -/
def Session.compactable (x : Session) (budget : Nat) : Bool :=
  let p := x.rec'.params
  decide (p.sink + p.recent + budget < x.positions)

/-! ## The new page table (R181) -/

/-- The number of leading pages that are sealed and kept whole. -/
def keptRun (s : State) (kept : List Nat) : List PtEntry → Nat
  | [] => 0
  | e :: l =>
    if e.isSealed && (s.entrySlots e).all (fun q => kept.contains q.index) then 1 + keptRun s kept l else 0

/-- Write the rest of the kept positions into new sealed pages. -/
def writePages (s : State) (x : Session) (l : Layout) : List (List Slot) → List PtEntry → Option (List PtEntry × State)
  | [], acc => some (acc, s)
  | g :: rest, acc =>
    match s.allotPage x.tenant x.rec'.params.model l g with
    | none => none
    | some (n, s) =>
      let e : PtEntry := { frame := n, count := g.length, isSealed := true, compacted := true,
                           firstPos := ((g.head?).map (·.index)).getD 0, lastPos := ((g.getLast?).map (·.index)).getD 0 }
      writePages (s.seal n) x l rest (acc ++ [e])

/-- Whether `k` pages can be allotted outside the reserve (R183). -/
def State.roomForPages (s : State) (x : Session) (l : Layout) (k : Nat) : Bool :=
  decide (s.cane.recs.size + k < s.reg .CANE_REC_COUNT_COUNT) && s.heapRoom x.tenant (k * l.pageBytes) false

/-- Run a compaction of a HOT or WARM session with a budget: none when space is lacking (R183). `since` is the tick of its
point. -/
def State.compact (s : State) (slot budget since : Nat) : Option State :=
  match s.session? slot with
  | none => some s
  | some x =>
    if !x.compactable budget then some (s.bump .EVIC_NOOPS_COUNT)
    else
      let l := s.layoutOf x
      let slots := s.heldSlots x
      let kept := keptSet x.rec'.params budget x.rec'.scores (slots.map (·.index))
      let run := keptRun s kept x.table
      let old := x.table.take run
      let rest := ((x.table.drop run).flatMap s.entrySlots).filter (fun q => kept.contains q.index)
      let groups := chunks 256 rest.length rest
      if !s.roomForPages x l groups.length then none
      else match writePages s x l groups [] with
        | none => none
        | some (entries, s) =>
          let gone := (x.table.drop run).map (·.frame)
          let s := s.addUsers (entries.map (·.frame))
          let s := s.dropUsers gone
          let node := if s.depthOf x.caneNode < run then none else s.ancestor x.caneNode run
          let s := s.setSession slot { x with table := old ++ entries, positions := kept.length, adopted := 0 }
          let s := s.setCaneNode slot node
          let s := s.commitOutside slot (fun r => { r with
            held := kept.length, tailTokens := [], scores := r.scores.filter (fun e => kept.contains e.1) })
          let s := gone.foldl State.decRef s
          let s := ((s.bump .EVIC_COMPACTIONS_COUNT).bump .EVIC_DROPPED_COUNT 0 (x.positions - kept.length)).bump
            .EVIC_PAGES_WRITTEN_COUNT 0 entries.length
          let s := (s.bump .EVIC_PAGES_KEPT_COUNT 0 run).raiseReg .EVIC_LONGEST_TICKS (s.tick - since)
          some (s.onSession slot (fun y => { y with compact := none }))

/-- The compaction waits for space or page records (R183). -/
def State.compactWait (s : State) (slot : Nat) (cmd : Option Nat) : State :=
  let s := s.onSession slot (fun y => { y with compact := some { since := s.tick, cmd := cmd } })
  (s.bump .EVIC_SPACE_WAITS_COUNT).setIntBit pgEvic 9

/-- Pressure eviction of a WARM victim (R184): skipped where it cannot proceed at once. -/
def State.pressureEvict (s : State) (slot : Nat) : State :=
  match s.session? slot with
  | none => s
  | some x =>
    let budget := min x.rec'.params.budget (s.reg .EVIC_TEN_PRESS_BUDGET_POSITIONS x.tenant)
    if s.regBit .EVIC_TEN_CFG_PRESSURE_EVICT x.tenant && x.victimOk && x.residency == .warm && x.compactable budget
        && s.leaseOk x && x.freeVersion.isSome then
      match s.compact slot budget s.tick with
      | none => s
      | some s =>
        let s := s.onSession slot (fun y => { y with nr := true })
        (s.bump .EVIC_PRESSURE_EVICTIONS_COUNT).setIntBit pgEvic 8
    else s

end Sys2Proof.Machine
end

