-- ==== Sys2Proof/Machine/Waits.lean ====
section
/-!
DEFINITION. SESS_FORK, TOOL_WAIT, RESUME and PARK, and what happens to a session while it waits: overstay, reheat, the
demotions for idleness, age and pressure, compactions that wait for space, and the enables of the state mover and the
prefix index (R86 to R88, R90 to R94, R135, R139 to R141, R147, R150 to R154, R158, R183, R184, R187, R188).
-/
namespace Sys2Proof.Machine

/-- A command waits under R76, R90, R141, R182 or R183; such a wait does not count toward the watchdog (R64). -/
def State.waitCmd (s : State) (id : Nat) : State := s.onCmd id (fun c => { c with phase := .waiting, exempt := true })

/-- A command has taken effect and an engine works on it. -/
def State.runCmd (s : State) (id : Nat) (free : Bool) : State :=
  s.onCmd id (fun c => { c with phase := .running, exempt := free, progressTick := s.tick })

/-- OK, or NOT_REPRODUCIBLE of a session whose NR is 1 (R185). -/
def Session.okStatus (x : Session) : Status := if x.nr then .notReproducible else .ok

/-- The session becomes RUNNABLE, and is promoted on demand (R80, R83, R135). -/
def State.becomeRunnable (s : State) (slot : Nat) : State :=
  match s.session? slot with
  | none => s
  | some x =>
    let s := s.setSession slot { x with
      runState := .runnable,
      runnableAt := if x.runState = .runnable then x.runnableAt else s.tick }
    if s.enabled pgStm then s.askPromote slot s.tick true false else s

/-- The promoting commands (R81). -/
def promotes (op : Nat) : Bool := [0x18, 0x19, 0x1A, 0x1C].contains op

/-- A promoting command takes effect (R135, R154): a session below WARM comes up, and a late one is counted. -/
def State.promoting (s : State) (slot : Nat) : State :=
  match s.session? slot with
  | none => s
  | some x =>
    let s := if x.resumeTick ≠ 0 ∧ x.residency ≠ .hot then s.bump .STM_REHEAT_LATE_COUNT else s
    if s.enabled pgStm ∧ (x.residency = .parked ∨ x.residency = .pooled) then
      s.askPromote slot s.tick (x.runState == .runnable) false
    else s

/-! ## A compaction point of a command (R22, R182, R183) -/

/-- What a compaction point leads to: done (or nothing to do), or the command waits. -/
inductive PointOutcome
  | passed (s : State)
  | waits (s : State)

/-- Run the compaction point of a command. `c.aux` is 1 once its compaction has run while it waited. -/
def State.point (s : State) (id : Nat) (c : Cmd) (slot : Nat) (suppressed : Bool) : PointOutcome :=
  match s.session? slot with
  | none => .passed s
  | some x =>
    let budget := x.rec'.params.budget
    if suppressed ∨ c.aux = 1 then .passed s
    else if !x.compactable budget then .passed (s.bump .EVIC_NOOPS_COUNT)
    else if x.residency = .parked ∨ x.residency = .pooled then
      .waits ((s.askPromote slot s.tick false false).waitCmd id)
    else if x.compact.isSome then .waits (s.waitCmd id)
    else match s.compact slot budget s.tick with
      | some t => .passed t
      | none => .waits ((s.compactWait slot (some id)).waitCmd id)

/-! ## SESS_FORK (R86 to R88, R177) -/

/-- The page and slot count that AT_POSITION falls in: whole pages before it, and what it takes of the next. -/
def cutAt : List PtEntry → Nat → Nat × Nat
  | [], _ => (0, 0)
  | e :: l, n =>
    if n ≥ e.count then
      let (j, r) := cutAt l (n - e.count)
      (j + 1, r)
    else (0, n)

/-- The parameters of the child: the parent's, changed by a block, with the seed as NEW_SEED says. -/
def forkParams (x : Session) (d : Desc) (payload : List Byte) : Option Params :=
  let p := x.rec'.params
  let seed := if d.optBit 8 then d.specF 47 40 else p.seed
  if payload.length = 0 then some { p with seed := seed }
  else if paramsReserved payload then some (parseParams p seed payload) else none

/-- The node that the child takes from the parent (R177); `d` pages are shared whole. -/
def State.forkNode (s : State) (x : Session) (p : Params) (d : Nat) : Option Nat :=
  if p.topP ≠ x.rec'.params.topP ∨ p.exitProfile ≠ x.rec'.params.exitProfile then none
  else if s.depthOf x.caneNode ≥ d ∧ x.caneNode.isSome = true then s.ancestor x.caneNode d
  else x.caneNode

/-- What a fork inherits: held positions, whole pages, slots of the next page, pending input. -/
structure ForkCut where
  held : Nat
  whole : Nat
  rest : Nat
  input : List InPos

def forkCut (x : Session) (at' : Nat) : ForkCut :=
  if at' = 0 ∨ at' ≥ x.positions then
    { held := x.positions, whole := x.table.length, rest := 0,
      input := if at' = 0 then x.input else x.input.take (at' - x.positions) }
  else
    let (j, r) := cutAt x.table at'
    { held := at', whole := j, rest := r, input := [] }

/-- The child's step record (R87, R177). -/
def forkRecord (x : Session) (p : Params) (f : ForkCut) (slots : List Slot) : StepRec :=
  let r := x.rec'
  let inh := slots.take f.held
  let idx := inh.map (·.index)
  { r with
    stepSeq := 0, params := p, held := f.held,
    nextPos := if f.held = x.positions then r.nextPos else ((inh.getLast?).map (fun q => q.index + 1)).getD 0,
    scores := fitScores p idx (r.scores.filter (fun e => idx.contains e.1)),
    tailTokens := if f.rest = 0 then r.tailTokens else List.replicate 256 (2 ^ 31) }

/-- Create the child, once every check has passed. -/
def State.makeChild (s : State) (x : Session) (p : Params) (f : ForkCut) (cls : Nat) : Option (Nat × State) :=
  let l := s.layoutOf x
  let slots := s.heldSlots x
  let shared := x.table.take f.whole
  let node := s.forkNode x p f.whole
  let part : Option (List PtEntry × List Nat × State) :=
    if f.rest = 0 then some ([], [], s)
    else match x.table.drop f.whole with
      | [] => some ([], [], s)
      | e :: _ =>
        let part := (s.entrySlots e).take f.rest
        match s.allotPage x.tenant p.model l part with
        | none => none
        | some (n, s) =>
          let s := if e.compacted then s.seal n else s
          some ([{ frame := n, count := f.rest, isTail := !e.compacted, isSealed := e.compacted,
                   compacted := e.compacted, firstPos := ((part.head?).map (·.index)).getD 0,
                   lastPos := ((part.getLast?).map (·.index)).getD 0 }], [n], s)
  match part with
  | none => none
  | some (extra, own, s) =>
    let child : Session := { s.newSession x.tenant p with
      cls := cls, nr := x.nr, table := shared ++ extra, positions := f.held, input := f.input,
      inputPend := !f.input.isEmpty, runState := if f.input.isEmpty then .idle else .runnable,
      runnableAt := s.tick, vers := [forkRecord x p f slots] }
    let (slot, s) := s.placeSession child
    let s := (shared.map (·.frame)).foldl State.incRef s
    let s := s.addUsers ((shared.map (·.frame)) ++ own)
    let s := s.heapTake x.tenant (inputBytes f.input)
    let s := s.setCaneNode slot node
    some (slot, if f.input.isEmpty then s else s.becomeRunnable slot)

/-- SESS_FORK takes effect. A PARKED or POOLED parent is promoted first. Where no page record is free for the private copy of
page j, the fork completes as where HBM has no room for it, NO_SPACE DETAIL 3: R88 names HBM room alone (DESIGN CHOICE, log
entry 116). -/
def opSessFork (s : State) (id : Nat) (c : Cmd) (slot : Nat) : State :=
  match s.session? slot with
  | none => s.complete id .staleHandle
  | some x =>
    if !s.enabled pgCane then s.complete id .internal
    else if !x.inHbm then
      if s.enabled pgStm then (s.askPromote slot s.tick false false).waitCmd id else s.complete id .internal
    else
      let at' := c.desc.specF 39 36
      if x.positions + x.input.length < at' then s.refuse id .invalid 0x0E
      else match forkParams x c.desc (s.payload c.desc) with
        | none => s.refuse id .invalid 0x0B
        | some p =>
          if p.model ≠ x.rec'.params.model then s.refuse id .invalid 0x0B
          else if p.namesAny && !s.enabled pgJck then s.complete id .internal
          else if !s.paramsOk x.tenant p then s.refuse id .invalid 0x0B
          else
            let f := forkCut x at'
            let l := s.layoutOf x
            let (d, s) := s.roomForSession x.tenant l
            let recB := l.recordBytes (s.nverOf x.tenant)
            if d ≠ 0 then s.complete id .noSpace d
            else if f.rest ≠ 0 ∧ (s.freeRecord.isNone = true ∨ s.heapRoom x.tenant (recB + l.pageBytes) false = false) then
              s.complete id .noSpace 3
            else if s.heapRoom x.tenant (recB + (if f.rest = 0 then 0 else l.pageBytes) + inputBytes f.input) false = false then
              s.complete id .noSpace 13
            else match s.makeChild x p f (if c.desc.payLen = 0 then x.cls else p.cls) with
              | none => s.complete id .noSpace 3
              | some (child, s) =>
                s.completeH id x.okStatus 0 (f.held + f.whole * 2 ^ 32)
                  (((s.session? child).map (fun y => y.handle child)).getD 0)

/-! ## TOOL_WAIT and RESUME (R90 to R94, R152) -/

/-- The reheat calendar entry of a wait (R152). -/
def State.calendar (s : State) (x : Session) (resume : Nat) : Reheat :=
  let pw := s.reg .STM_TEN_LEAD_PW_US x.tenant * 1000
  let lw := s.reg .STM_TEN_LEAD_LW_US x.tenant * 1000
  let wh := s.reg .STM_TEN_LEAD_WH_US x.tenant * 1000
  { resumeTick := resume, f1 := some (resume - (if x.residency = .pooled then lw else pw)), f2 := some (resume - wh),
    leadPw := pw, leadLw := lw, leadWh := wh }

/-- A PARKED choice was refused for wear (R157). -/
def State.countRefusal (s : State) (refused : Bool) : State := if refused then s.bump .STM_WEAR_REFUSALS_COUNT else s

/-- Hand a waiting session to the state mover (R144). -/
def State.tierChoice (s : State) (slot w limit : Nat) (pressure : Bool) : State :=
  match s.session? slot with
  | none => s
  | some x =>
    if !s.enabled pgStm then s
    else
      let (dst, refused) := s.chooseTier x w limit pressure
      let s := s.countRefusal refused
      if dst = x.residency then s else s.askDemote slot dst none

/-- The tick at which a command took effect: that at which its compaction point was reached, where the compaction waited for
space (R183). -/
def Cmd.effectTick (c : Cmd) (now : Nat) : Nat := if c.aux = 1 then c.startTick else now

/-- The effect of a TOOL_WAIT after its compaction point. -/
def State.beginWait (s : State) (id : Nat) (c : Cmd) (slot : Nat) : State :=
  let s := s.endWait slot .ok 1
  match s.session? slot with
  | none => s
  | some x =>
    let w := c.desc.specF 43 36
    let start := c.effectTick s.tick
    let resume := if w = 0 then 0 else min (start + w) (2 ^ 64 - 1)
    let info : WaitInfo := { cmd := id, start := start, wait := w, overstayUs := s.reg .SDIR_OVERSTAY_US,
                             tierLimit := c.desc.opt 8 3 }
    let s := s.setSession slot { x with
      runState := .toolWait, waitHeld := false, resumeTick := resume, wait := some info,
      reheat := if resume = 0 then none else some (s.calendar x resume) }
    (s.runCmd id true).tierChoice slot w (c.desc.opt 8 3) false

/-- TOOL_WAIT takes effect. -/
def opToolWait (s : State) (id : Nat) (c : Cmd) (slot : Nat) : State :=
  match s.point id c slot (c.desc.optBit 11) with
  | .passed s => s.beginWait id c slot
  | .waits s => s

/-- RESUME takes effect. -/
def opResume (s : State) (id : Nat) (c : Cmd) (slot : Nat) : State :=
  let s := if c.desc.deadline = 0 then s else s.onSession slot (fun x => { x with deadline := c.desc.deadline })
  match s.session? slot with
  | none => s.complete id .staleHandle
  | some x =>
    match x.runState with
    | .toolWait =>
      let s := s.promoting slot
      let s := s.endWait slot .ok 0
      let s := if x.inputPend then s.becomeRunnable slot
        else s.onSession slot (fun y => { y with runState := .idle })
      s.complete id .ok
    | _ => s.complete id .ok 1

/-! ## PARK (R147, R150, R151) -/

/-- PARKED is refused to a PARK for wear alone: it has room (R156). -/
def State.parkWorn (s : State) (x : Session) (target : Nat) : Bool :=
  target != 2 && s.flashRoom (s.estBytes x .parked) && !s.wearOk (s.estBytes x .parked)

/-- The tier that a PARK names, and the DETAIL of a refusal or 0. -/
def State.parkTarget (s : State) (x : Session) (target : Nat) : Residency × Nat :=
  let est := s.estBytes x .parked
  let pool : Residency × Nat :=
    if s.regBit .STM_CFG_POOL_EN && decide (s.estBytes x .pooled ≤ s.poolFree) then (.pooled, 0) else (.pooled, 6)
  if target = 2 then pool
  else if target = 1 then
    if !s.flashRoom est then (.parked, 6) else if !s.wearOk est then (.parked, 7) else (.parked, 0)
  else if s.flashOk est then (.parked, 0) else pool

/-- The writeback that the acceptance of a PARK starts (R147): sealed pages without a copy in the target tier, and the
version SR_CUR. -/
def State.parkAccepted (s : State) (id : Nat) (c : Cmd) : State :=
  let slot := handleSlot c.desc.handle
  match s.session? slot with
  | none => s
  | some x =>
    let (dst, d) := s.parkTarget x (c.desc.opt 8 2)
    if s.enabled pgStm && x.generation == handleGen c.desc.handle && x.inHbm && d == 0 && !c.desc.optBit 11
        && (s.writebackOf slot).isNone then
      s.addMove { slot := slot, cls := .writeback, src := x.residency, dst := dst, need := s.tick, cmd := some id,
                  writebackOnly := true, version := some (x.srCur, x.rec'.stepSeq) }
    else s

/-- A compaction that came due while a step held the session runs, at that step's end (R76, R182, R183). -/
def State.dueCompaction (s : State) (slot : Nat) : State :=
  match s.session? slot with
  | none => s
  | some x =>
    match x.compactDue with
    | none => s
    | some id =>
      let s := s.setSession slot { x with compactDue := none }
      match s.compact slot x.rec'.params.budget s.tick with
      | some t => t
      | none => s.compactWait slot (some id)

/-- A writeback of the session ends where it stands. -/
def State.stopWriteback (s : State) (slot : Nat) : State :=
  match s.writebackOf slot with
  | some (n, m) => s.endWriteback n m false
  | none => s

/-- PARK after its compaction point. -/
def State.park (s : State) (id : Nat) (c : Cmd) (slot : Nat) : State :=
  match s.session? slot with
  | none => s.complete id .staleHandle
  | some x =>
    let done (s : State) (d : Nat) : State :=
      s.complete id .ok d (parkResult (((s.cmd? id)).getD c) x.residency.code)
    if !x.inHbm then done s 1
    else
      let (dst, d) := s.parkTarget x (c.desc.opt 8 2)
      let s := s.countRefusal (s.parkWorn x (c.desc.opt 8 2))
      if d ≠ 0 then s.complete id .noSpace d
      else if c.desc.optBit 11 then
        let s := s.stopWriteback slot
        let lack := (s.pagesLacking x dst).filter (fun k => ((s.page? k).map (·.isSealed)).getD false)
        if lack.isEmpty then done s 0
        else
          let s := s.addMove { slot := slot, cls := .writeback, src := x.residency, dst := dst, need := s.tick,
                               cmd := some id, writebackOnly := true }
          s.runCmd id false
      else
        let s := s.stopWriteback slot
        let s := match s.moveOf slot .demote with
          | some (n, _) => s.eraseMove n
          | none => s
        (s.askDemote slot dst (some id)).runCmd id false

/-- PARK takes effect. -/
def opPark (s : State) (id : Nat) (c : Cmd) (slot : Nat) : State :=
  if !s.enabled pgStm || (c.desc.opt 8 2 == 2 && s.regBit .STM_CFG_POOL_EN && !s.enabled pgFam) then s.complete id .internal
  else match s.point id c slot (c.desc.optBit 10 || c.desc.optBit 11) with
    | .passed s => s.park id c slot
    | .waits s => s

/-! ## Overstay, reheat, idleness, age (R93, R135, R153) -/

/-- The row OVERSTAY. -/
def execOverstay (slot : Nat) (s : State) : Host.Outcome State Fault Refusal :=
  .next (match s.session? slot with
    | none => s
    | some x =>
      match x.wait with
      | none => s
      | some w =>
        if x.runState = .toolWait ∧ x.resumeTick ≠ 0 ∧ w.overstayUs ≠ 0 ∧ w.overstayed = false
            ∧ x.resumeTick + w.overstayUs * 1000 ≤ s.tick then
          let s := s.setSession slot { x with wait := some { w with overstayed := true } }
          let s := (s.bump .SDIR_OVERSTAYS_COUNT).setIntBit pgSdir 11
          s.tierChoice slot w.wait w.tierLimit false
        else s)

/-- The session still waits for the resume that its calendar entry serves (R154). -/
def Session.reheatDue (x : Session) : Option Reheat :=
  match x.reheat with
  | some h => if x.runState = .toolWait ∧ h.resumeTick = x.resumeTick then some h else none
  | none => none

/-- The row REHEAT_F1. -/
def execReheatF1 (slot : Nat) (s : State) : Host.Outcome State Fault Refusal :=
  .next (match s.session? slot with
    | none => s
    | some x =>
      match x.reheatDue with
      | none => s
      | some h =>
        if s.enabled pgStm ∧ s.regBit .STM_CFG_REHEAT_EN = true ∧ (h.f1.map (fun f => decide (f ≤ s.tick))).getD false then
          if x.residency = .parked ∨ x.residency = .pooled then
            let s := s.ungate.setSession slot { x with reheat := some { h with f1 := none } }
            s.askPromote slot h.resumeTick false true
          else if x.movingDown then s.cancelDown slot
          else s
        else s)

/-- The row REHEAT_F2. A session found HOT, with no demotion due, needs no promotion, and its F2 has fired: demoted later, it
stays in its new tier (R152, R153). -/
def execReheatF2 (slot : Nat) (s : State) : Host.Outcome State Fault Refusal :=
  .next (match s.session? slot with
    | none => s
    | some x =>
      match x.reheatDue with
      | none => s
      | some h =>
        if s.enabled pgStm ∧ s.regBit .STM_CFG_REHEAT_EN = true ∧ (h.f2.map (fun f => decide (f ≤ s.tick))).getD false then
          let passed := s.ungate.setSession slot { x with reheat := some { h with f2 := none } }
          if x.residency = .warm ∨ x.movingUp = true then passed.askPromote slot h.resumeTick true true
          else if x.residency = .hot ∧ (s.moveOf slot .demote).isNone then passed
          else s
        else s)

/-- Outside steps: the run states in which HOT_IDLE acts. -/
def Session.outsideSteps (x : Session) : Bool :=
  x.runState == .idle || x.runState == .toolWait || x.runState == .deadEnd

/-- The row HOT_IDLE_DEMOTE. -/
def execHotIdleDemote (slot : Nat) (s : State) : Host.Outcome State Fault Refusal :=
  .next (match s.session? slot with
    | none => s
    | some x =>
      if s.enabled pgStm ∧ x.residency = .hot ∧ x.outsideSteps = true
          ∧ x.lastStep + s.reg .STM_HOT_IDLE_US * 1000 ≤ s.tick then s.askDemote slot .warm none
      else s)

/-- The row AGE_DEMOTE. -/
def execAgeDemote (slot : Nat) (s : State) : Host.Outcome State Fault Refusal :=
  .next (match s.session? slot with
    | none => s
    | some x =>
      if s.enabled pgStm ∧ s.regBit .STM_CFG_AGE_EN = true ∧ x.residency = .warm
          ∧ (x.runState = .idle ∨ x.runState = .deadEnd)
          ∧ x.lastCmd + s.reg .STM_AGE_S * 1000000000 ≤ s.tick then
        s.tierChoice slot s.parkAbove 0 false
      else s)

/-! ## Pressure (R139 to R141, R147, R184) -/

/-- A promotion, a tail allotment or a compaction waits for space, so pressure demotion runs whatever the free level
(R141, R183, R255). -/
def State.spaceWanted (s : State) : Bool :=
  s.stm.moves.values.any s.lacksSpace
    || s.sdir.sess.values.any (fun x => x.compact.isSome || x.allotFail.isSome)

/-- Whether pressure demotion runs now (R139); PRESSURE_EN 0 holds all of it (R157). -/
def State.pressureNow (s : State) : Bool :=
  let full := (s.reg .STM_HBM_RESERVE_GIB + 2 * s.reg .STM_HBM_LOW_GIB) * 16384
  s.regBit .STM_CFG_PRESSURE_EN && (s.heapLow || (s.stm.pressure && decide (s.heapFree ≤ full)) || s.spaceWanted)

/-- The tier that a pressure demotion takes a session to: the choice of R144 with w taken as the threshold, under the TIER_LIMIT of
a tool wait that is outstanding. -/
def State.pressureTier (s : State) (x : Session) : Residency × Bool :=
  s.chooseTier x s.parkAbove ((x.wait.map (·.tierLimit)).getD 0) true

/-- A WARM victim that is not already on its way. -/
def State.pressureVictim (s : State) : Option (Nat × Session) :=
  s.victim (fun e => e.2.residency == .warm && (s.moveOf e.1 .demote).isNone && (s.moveOf e.1 .promote).isNone
    && (match (s.pressureTier e.2).1 with
        | .parked => true
        | .pooled => true
        | _ => false))

/-- One act of pressure demotion on the next victim: eviction where the tenant allows it, a writeback of its sealed pages,
then its demotion. -/
def State.pressureStep (s : State) : State :=
  match s.pressureVictim with
  | none => s
  | some (slot, _) =>
    let s := s.pressureEvict slot
    match s.session? slot with
    | none => s
    | some x =>
      let (dst, refused) := s.pressureTier x
      let lack := (s.pagesLacking x dst).filter (fun k => ((s.page? k).map (·.isSealed)).getD false)
      if (s.writebackOf slot).isSome then s
      else if (dst = .parked ∨ dst = .pooled) ∧ lack.isEmpty = false then
        s.addMove { slot := slot, cls := .writeback, src := x.residency, dst := dst, need := s.tick, writebackOnly := true }
      else (s.countRefusal refused).askDemote slot dst none

/-- The row PRESSURE_DEMOTION. -/
def execPressureDemotion (s : State) : Host.Outcome State Fault Refusal :=
  .next (if s.enabled pgStm then
    if s.pressureNow then
      let s := if s.stm.pressure then s else s.setIntBit pgStm 13
      ({ s with stm := { s.stm with pressure := true } }).pressureStep
    else { s with stm := { s.stm with pressure := false } }
  else s)

/-- The row PROMOTION_SPACE_TIMEOUT (R141): the first promotion that has found no space for 10 ms is given up, and every command of
the session that waits for it. -/
def execPromotionSpaceTimeout (s : State) : Host.Outcome State Fault Refusal :=
  .next (match (s.waitingMoves.filter (fun e => s.lacksSpace e.2 && decide (e.2.need + 10000000 ≤ s.tick))) with
    | [] => s
    | (n, m) :: _ =>
      let s := s.eraseMove n
      let s := (s.failWaiting m.slot .noSpace 5).giveUpStep m.slot .noSpace 5
      (s.bump .STM_SPACE_STALLS_COUNT).setIntBit pgStm 8)

/-! ## Compactions that wait (R183) -/

/-- The command that a compaction delays ends: a STEP that is outstanding ends its generation. -/
def State.endDelayed (s : State) (slot : Nat) (x : Session) (id : Nat) (st : Status) (detail : Nat) : State :=
  if (x.stepReq.map (·.cmd)) = some id then s.endStep slot st detail else s.complete id st detail

/-- An uncorrectable error in HBM while kept positions are copied: the compaction ends without commit (R190). -/
def State.compactUe (s : State) (slot : Nat) (x : Session) (w : CompactWait) : State :=
  let s := (s.setSession slot { x with compact := none, waitHeld := false }).recErr pgEvic 0x0002
  match w.cmd with
  | some id => s.endDelayed slot x id .internal 0
  | none => s

/-- The row COMPACTION_SPACE_READY: a waiting compaction proceeds where there is space now, or HBM fails with an uncorrectable
error under its copies. -/
def execCompactionSpaceReady (turn : CompactionTurn) (s : State) : Host.Outcome State Fault Refusal :=
  let slot := turn.slot
  .next (match s.session? slot with
    | none => s
    | some x =>
      match x.compact with
      | none => s
      | some w =>
        match s.compact slot x.rec'.params.budget w.since with
        | none => s
        | some t =>
          if turn.ue then s.compactUe slot x w else
          let t := t.onSession slot (fun y => { y with compact := none })
          match w.cmd with
          | some id => if (x.stepReq.map (·.cmd)) = some id then t
                       else t.onCmd id (fun c => { c with aux := 1, startTick := w.since })
          | none => t)

/-- The row COMPACTION_ABANDON. -/
def execCompactionAbandon (slot : Nat) (s : State) : Host.Outcome State Fault Refusal :=
  .next (match s.session? slot with
    | none => s
    | some x =>
      match x.compact with
      | none => s
      | some w =>
        match w.cmd with
        | none => s
        | some id =>
          if w.since + 10000000 ≤ s.tick then
            (s.setSession slot { x with compact := none, waitHeld := false }).endDelayed slot x id .noSpace 8
          else s)

/-! ## Enables (R158, R187) and errors in the tables (R188) -/

def State.heapBase (s : State) : Nat := s.reg .STM_HEAP_BASE_ADDR * 2 ^ 30
def State.heapSize (s : State) : Nat := s.reg .STM_HEAP_SIZE_GIB * gib

/-- The checks of STM_CTRL.EN. -/
def State.stmOk (s : State) : Bool :=
  inHbmRange s.heapBase s.heapSize && !overlaps s.heapBase s.heapSize s.sdirBase (2 ^ 30)
    && !overlaps s.heapBase s.heapSize s.sdirFree (2 ^ 26)
    && decide (s.reg .STM_FLASH_QUOTA_GIB ≤ 16384)
    && (!s.regBit .STM_CFG_POOL_EN || decide (s.reg .STM_POOL_SIZE_GIB ≠ 0))

/-- The row STM_ENABLE, with the value written. -/
def execStmEnable (en : Bool) (s : State) : Host.Outcome State Fault Refusal :=
  let s := s.touch
  .next (if !s.live then s
    else if en then
      if s.pageState pgStm ≠ 0 then s
      else if !s.stmOk then s.recErr pgStm 0x0005
      else
        let s := s.enableBlock pgStm
        ({ s with stm := { s.stm with wearLevel := (s.wearDepth : Int), wearAt := s.tick,
                                      credits := [{}, {}, {}, {}, {}] } }).renewCredits
    else if s.pageState pgStm ≠ 1 then s
    else if s.sdir.sess.values.any (fun x => x.residency == .moving) then s.recErr pgStm 0x0006
    else s.disableBlock pgStm)

/-- The four tables of the prefix index as base and length (R169, R186). -/
def State.caneTables (s : State) : List (Nat × Nat) :=
  [(s.reg .CANE_NODE_BASE_ADDR * 4096, s.reg .CANE_NODES_COUNT * 68),
   (s.reg .CANE_TOKEN_BASE_ADDR * 4096, s.reg .CANE_NODES_COUNT * 768),
   (s.reg .CANE_BUCKET_BASE_ADDR * 4096, 4 * 2 ^ s.reg .CANE_BUCKETS_LOG2),
   (s.reg .CANE_REC_BASE_ADDR * 4096, s.reg .CANE_REC_COUNT_COUNT * 64)]

/-- No two ranges of a list overlap. -/
def disjoint : List (Nat × Nat) → Bool
  | [] => true
  | a :: l => l.all (fun b => !overlaps a.1 a.2 b.1 b.2) && disjoint l

/-- The checks of CANE_CTRL.EN. -/
def State.caneOk (s : State) : Bool :=
  s.caneTables.all (fun t => inHbmRange t.1 t.2)
    && disjoint (s.caneTables ++ [(s.sdirBase, 2 ^ 30)]) && disjoint (s.caneTables ++ [(s.sdirFree, 2 ^ 26)])
    && disjoint (s.caneTables ++ [(s.heapBase, s.heapSize)])
    && decide (1024 ≤ s.reg .CANE_NODES_COUNT) && decide (s.reg .CANE_NODES_COUNT ≤ 4194304)
    && decide (16 ≤ s.reg .CANE_BUCKETS_LOG2) && decide (s.reg .CANE_BUCKETS_LOG2 ≤ 24)
    && decide (65536 ≤ s.reg .CANE_REC_COUNT_COUNT) && decide (s.reg .CANE_REC_COUNT_COUNT ≤ 268435456)

/-- The row CANE_ENABLE, with the value written. -/
def execCaneEnable (en : Bool) (s : State) : Host.Outcome State Fault Refusal :=
  let s := s.touch
  .next (if !s.live then s
    else if en then
      if s.pageState pgCane ≠ 0 then s
      else if !s.caneOk then s.recErr pgCane 0x0003
      else { s.enableBlock pgCane with cane := { ({} : Cane) with sealedCount := s.cane.sealedCount } }
    else if s.pageState pgCane ≠ 1 then s
    else if s.cane.recs.size ≠ 0 then s.recErr pgCane 0x0005
    else s.disableBlock pgCane)

end Sys2Proof.Machine
end

