-- ==== Sys2Proof/Machine/Capsule.lean ====
section
/-!
DEFINITION. The Euldoum capsule: its header and section table, EXPORT_CAPSULE and IMPORT_CAPSULE (R113, R121 to R132, R448). Its tags
are checked; what its records hold of the model's state comes with the command that reads it (log entry 26).
-/
namespace Sys2Proof.Machine

/-! ## Layout (R122, R123) -/

/-- The section table: types 1 to 5, each where the one before ends, then two entries of zeros (R123). -/
def sectionTable : Nat → Nat → List Nat → List Byte
  | _, _, [] => List.replicate 32 0
  | t, off, n :: rest => leBytes t 2 ++ leBytes off 6 ++ leBytes n 6 ++ [0, 0] ++ sectionTable (t + 1) (off + n) rest

/-- The size bound B (R128). -/
def capsuleBound (l : Layout) (pages sealedPages : Nat) : Nat :=
  256 + l.srTiles * 65600 + (if pages = 0 then 0 else roundup64 (32 + 16 * pages))
    + sealedPages * roundup64 (32 + l.metaRaw) + pages * l.kvTiles * 65600 + 64

/-- The header of a capsule (R122). -/
def capsuleHeader (s : State) (x : Session) (slot : Nat) (m : Model) (c : Capsule) (compress : Bool) (keyRef nonce : List Byte) :
    List Byte :=
  let secs := m.capsuleSections c compress
  let lens := secs.map sectionLen ++ [64]
  let recs := secs.flatMap id
  leBytes 0x004D554F444C5545 8 ++ leBytes 1 2 ++ leBytes 256 2 ++ [0xA1] ++ leBytes x.runState.code 1
    ++ leBytes (b2n x.nr + 2 * b2n (recs.any (·.compressed))) 2 ++ leBytes c.record.modelFp 32
    ++ leBytes x.tenant 2 ++ leBytes (s.reg .FAM_SELF_DEVICE) 2 ++ leBytes s.bootEpoch 4 ++ leBytes (x.handle slot) 8
    ++ leBytes s.tick 8 ++ leBytes c.record.held 4 ++ leBytes c.table.length 2 ++ leBytes m.layout.srTiles 1 ++ [0]
    ++ leBytes c.record.nextPos 4 ++ leBytes x.leaseEpoch 4 ++ leBytes (256 + lens.sum) 8 ++ keyRef ++ nonce
    ++ leBytes recs.length 4 ++ List.replicate 16 0 ++ sectionTable 1 256 lens

/-! ## What a session's capsule holds -/

/-- The content of a capsule of a session: FRAME becomes the ordinal (R124). -/
def State.capsuleOf (s : State) (x : Session) : Capsule where
  record := x.rec'
  table := (x.table.zip (List.range x.table.length)).map (fun (e, k) => { e with frame := k })
  pages := x.table.map s.entrySlots

/-- A tenant's current transport key (R448). -/
def State.currentTtk (s : State) (t : Nat) : Option Nat := (s.tenant t).ttks.head?

/-! ## EXPORT_CAPSULE (R127 to R130) -/

/-- A long operation of a page runs (R35). -/
def State.longBusy (s : State) (p : Nat) : Bool := (s.common p).busy

/-- The tiles of an export: the three reads of R129 first. -/
def exportTiles (s : State) (x : Session) (l : Layout) : List MTile × Nat :=
  let tailPages := (x.table.filter (·.isTail)).map (·.frame)
  let others := (x.table.filter (fun e => !e.isTail)).map (·.frame)
  let first := srTileList l.srTiles ++ (if x.table.isEmpty then [] else [{ ptTile with raw := 16 * x.table.length }]) ++ s.tilesOf tailPages
  let rest := s.tilesOf others
  (first ++ rest, rest.length)

/-- Start the transfer of a capsule out of the device. -/
def State.startExport (s : State) (id slot : Nat) (x : Session) (kind : JobKind) (space addr : Nat) (compress : Bool)
    (keyRef : Nat) : State :=
  let l := s.layoutOf x
  let (tiles, rest) := exportTiles s x l
  let c := s.capsuleOf x
  let nonce := freeBytes s.free 12
  let header := capsuleHeader s x slot (s.model x.rec'.params.model) c compress (leBytes keyRef 16) nonce
  let s := s.useFree 12
  let s := s.pinAll x.frames
  let n := s.stm.nextMove
  let s := s.addMove { slot := slot, cls := .capsule, src := x.residency, dst := .moving, need := s.tick, tiles := tiles,
                       cmd := some id, job := some s.nextJob }
  let job : CapsuleJob := { kind := kind, cmd := id, slot := slot, pins := x.frames, content := c, compress := compress,
                            move := n, first := rest, space := space, addr := addr, header := header
                            key := capsuleKey ((s.tenant x.tenant).keyNamed keyRef) nonce x.tenant }
  ({ s with jobs := s.jobs.set s.nextJob job, nextJob := s.nextJob + 1 }).runCmd id false

/-- EXPORT_CAPSULE takes effect. -/
def opExportCapsule (s : State) (id : Nat) (c : Cmd) (slot : Nat) : State :=
  match s.session? slot with
  | none => s.complete id .staleHandle
  | some x =>
    let bound := capsuleBound (s.layoutOf x) x.table.length (x.table.filter (·.isSealed)).length
    if !s.enabled pgStm then s.complete id .internal
    else match s.currentTtk x.tenant with
      | none => s.refuse id .security 0x05
      | some key =>
        if c.desc.optBit 11 then s.complete id x.okStatus 0 bound
        else if c.desc.specF 51 44 < bound then s.complete id .noSpace 4
        else if s.longBusy pgStm then s.waitCmd id
        else (s.beginLong pgStm).startExport id slot x .exportTo (c.desc.opt 8 2) (c.desc.specF 43 36) (c.desc.optBit 10) key

/-- An export of the session has not finished its three first reads (R129). -/
def State.exportReads (s : State) (slot : Nat) : Bool :=
  s.jobs.values.any (fun j => j.kind == .exportTo && j.slot == slot &&
    ((s.stm.moves.get? j.move).map (fun m => decide (j.first < m.tiles.length))).getD false)

/-- A capsule job whose tiles have all been moved. -/
def State.jobDone (s : State) (p : JobKind → Bool) : Option (Nat × CapsuleJob) :=
  s.jobs.find? (fun _ j => p j.kind && ((s.stm.moves.get? j.move).map (fun m => m.ctx.isSome && m.tiles.isEmpty)).getD false)

def State.eraseJob (s : State) (n : Nat) (j : CapsuleJob) : State :=
  { s.eraseMove j.move with jobs := s.jobs.erase n }

/-- The model that a capsule's record names. -/
def State.modelOfFp (s : State) (fp : Nat) : Model :=
  ((s.models.find? (fun _ m => m.loaded && m.fp == fp)).map (·.2)).getD {}

/-- The end of an export's tiles (R130). -/
def State.exportEnd (s : State) (n : Nat) (j : CapsuleJob) (writeFail : Bool) : State :=
  let bytes := (s.modelOfFp j.content.record.modelFp).capsuleBytes j.content j.compress j.key j.header
  let st : Status := if bitAt (leAt j.header 14 2) 0 then .notReproducible else .ok
  let fail := writeFail || (j.space == 2 && !s.fabricOk j.addr bytes.length ((s.session? j.slot).map (·.tenant)))
  let s := (s.eraseJob n j).unpinAll j.pins
  if j.failed then (s.abortLong pgStm).complete j.cmd .internal
  else if j.space = 2 ∧ s.enabled pgFam = true ∧ s.mapped j.addr bytes.length = false then
    ((s.abortLong pgStm).bump .FAM_MAP_MISSES_COUNT).refuse j.cmd .invalid 0x60
  else if fail then
    let s := (s.writeDst j.space j.addr (freeBytes s.free bytes.length)).useFree bytes.length
    ((s.abortLong pgStm).recErr pgStm 0x0003).complete j.cmd .internal
  else
    ((s.writeDst j.space j.addr bytes).endLong pgStm).complete j.cmd st 0 bytes.length

/-! ## IMPORT_CAPSULE (R131, R132) -/

/-- The sections of a header: types 1 to 5 in order, each where the one before ends, multiples of 64 (R121, R123). -/
def sectionsOk (h : List Byte) (len : Nat) : Bool :=
  let ent (i : Nat) : Nat × Nat × Nat := (leAt h (144 + 16 * i) 2, leAt h (146 + 16 * i) 6, leAt h (152 + 16 * i) 6)
  let es := (List.range 5).map ent
  let rec go : Nat → Nat → List (Nat × Nat × Nat) → Bool
    | _, off, [] => off == len
    | t, off, (ty, o, n) :: l => ty == t && o == off && n % 64 == 0 && go (t + 1) (off + n) l
  go 1 256 es && allZero (slice h 224 32) && es.all (fun e => decide (e.2.1 % 64 = 0))

/-- Reserved bytes of a capsule header and its section table (R126). -/
def headerReserved (h : List Byte) : Bool :=
  decide (leAt h 14 2 < 4) && decide (leAt h 48 2 < 4096) && allZero (slice h 79 1) && decide (leAt h 84 4 < 2 ^ 24)
    && allZero (slice h 128 16) && (List.range 5).all (fun i => allZero (slice h (158 + 16 * i) 2))

/-- A tile record's header as R101 and R124 have it: kind, format, index, object and LAST as the record at its place, no reserved
flag, 1 to 65,536 stored bytes. -/
def TileRec.headerOk (r : TileRec) (h : List Byte) : Bool :=
  leAt h 0 1 == r.kind.code && leAt h 1 1 == r.format && decide (leAt h 2 1 < 4) && bitAt (leAt h 2 1) 1 == r.last
    && leAt h 3 1 == r.index && decide (1 ≤ leAt h 4 4) && decide (leAt h 4 4 ≤ 65536) && leAt h 8 8 == r.object

/-- The tile headers of the records expected from an offset: where the walk ends, none if one is not as expected. -/
def walkHeaders (read : Nat → Nat → List Byte) : Nat → List TileRec → Option Nat
  | off, [] => some off
  | off, r :: l =>
    let h := read off 32
    if r.headerOk h then walkHeaders read (off + roundup64 (32 + leAt h 4 4)) l else none

/-- The tile headers of a capsule stand as its sections say: each section's records end where the next section begins (R124,
R126). -/
def tileHeadersOk (read : Nat → Nat → List Byte) (h : List Byte) (m : Model) (c : Capsule) : Bool :=
  ((m.capsuleSections c false).zip (List.range 4)).all (fun (recs, i) =>
    walkHeaders read (sectionOffset h i) recs == some (sectionOffset h (i + 1)))

/-- The page-table invariants of R113 with ordinals for FRAME. Beyond the words of R113, a table whose entries do not match the
capsule's pages, and an entry that is TAIL and SEALED or neither, break them too (DESIGN CHOICE, log entry 127). -/
def tableOk (c : Capsule) (positions : Nat) : Bool :=
  let rec ascending : List PtEntry → Bool
    | [] => true
    | [_] => true
    | a :: b :: l => decide (a.lastPos < b.firstPos) && ascending (b :: l)
  decide (c.pages.length = c.table.length) && ascending c.table
    && decide ((c.table.map (·.count)).sum = positions)
    && (c.table.zip (List.range c.table.length)).all (fun (e, k) => e.frame == k && decide (1 ≤ e.count) && decide (e.count ≤ 256)
        && (!e.isTail || k + 1 == c.table.length) && e.isTail != e.isSealed)
    && (c.table.zip c.pages).all (fun (e, q) => q.length == e.count && ((q.head?).map (·.index)) == some e.firstPos
        && ((q.getLast?).map (·.index)) == some e.lastPos)

/-- The loaded model of a fingerprint that a tenant may name. -/
def State.modelByFp (s : State) (tenant fp : Nat) : Option Nat :=
  ((s.models.find? (fun k m => m.fp == fp && s.modelFor tenant k)).map (·.1))

/-- What a check of a capsule leads to: the status, reason or DETAIL of a refusal, or the model it passes with. -/
inductive ImportCheck
  | refuse (st : Status) (reason : Nat)
  | pass (model : Nat)

/-- Checks 1 to 7 of R131 of a capsule of which `read off n` are n bytes at an offset. A tile header that is not as its record's
place asks fails check 6, with the counts and the reserved fields (DESIGN CHOICE, log entry 127). -/
def State.importChecks (s : State) (tenant len : Nat) (read : Nat → Nat → List Byte) (c : Capsule) : ImportCheck :=
  let h := read 0 256
  if leAt h 0 8 ≠ 0x004D554F444C5545 ∨ leAt h 8 2 ≠ 1 ∨ leAt h 10 2 ≠ 256 then .refuse .invalid 0x20
  else if leAt h 88 8 ≠ len ∨ sectionsOk h len = false then .refuse .invalid 0x21
  else if bitsOf (leAt h 48 2) 0 12 ≠ tenant then .refuse .security 0x03
  else if !(s.tenant tenant).ttks.contains (leAt h 96 16) then .refuse .security 0x05
  else if read (sectionOffset h 4) 16
      ≠ capsuleTag (capsuleKey ((s.tenant tenant).keyNamed (leAt h 96 16)) (slice h 112 12) tenant) h then .refuse .security 0x04
  else match s.modelByFp tenant (leAt h 16 32) with
    | none => .refuse .invalid 0x22
    | some id =>
      let l := (s.model id).layout
      let sealedN := (c.table.filter (·.isSealed)).length
      let tiles := l.srTiles + (if c.table.isEmpty then 0 else 1) + sealedN + c.table.length * l.kvTiles
      if leAt h 78 1 ≠ l.srTiles ∨ leAt h 124 4 ≠ tiles ∨ leAt h 72 4 > 1048576 ∨ leAt h 76 2 > 4096
          ∨ leAt h 76 2 ≠ c.table.length ∨ headerReserved h = false
          ∨ tileHeadersOk read h (s.model id) c = false then .refuse .invalid 0x23
      else if s.paramsOk tenant { c.record.params with model := id } then .pass id
      else .refuse .invalid 0x24

/-- Heap bytes of the pages of an import. -/
def importBytes (l : Layout) (n : Nat) : Nat := n * l.pageBytes

/-- Room for an import: the DETAIL of NO_SPACE, or 0 (R131 check 8). -/
def State.importRoom (s : State) (tenant : Nat) (l : Layout) (pages : Nat) : Nat × State :=
  let (d, s) := s.roomForSession tenant l
  if d ≠ 0 then (d, s)
  else if s.heapRoom tenant (l.recordBytes (s.nverOf tenant) + importBytes l pages) false
      && decide (s.cane.recs.size + pages < s.reg .CANE_REC_COUNT_COUNT) then (0, s)
  else (3, s)

/-- Allot the pages of an import, in order. -/
def allotImport (s : State) (tenant model : Nat) (l : Layout) : List (PtEntry × List Slot) → List PtEntry →
    Option (List PtEntry × State)
  | [], acc => some (acc, s)
  | (e, q) :: rest, acc =>
    match s.allotPage tenant model l q with
    | none => none
    | some (n, s) => allotImport s tenant model l rest (acc ++ [{ e with frame := n }])

/-- A session that arrives from outside: MOVING from 0 to WARM, its pages and record allotted (R81, R132). It holds the positions
of its step record, where the header's POSITIONS says otherwise too: the page table must count the header's (`tableOk`), and
R132 names no check between the two (DESIGN CHOICE, log entry 128). -/
def State.arriving (s : State) (tenant model : Nat) (nr : Bool) (c : Capsule) : Option (Nat × State) :=
  let m := s.model model
  let p := { c.record.params with model := model }
  match allotImport s tenant model m.layout (c.table.zip c.pages) [] with
  | none => none
  | some (entries, s) =>
    let x : Session := {
      tenant := tenant, generation := 0, cls := p.cls, residency := .moving, moveSrc := .free,
      moveDst := .warm, nr := nr, table := entries, positions := c.record.held,
      vers := [{ c.record with params := p, modelFp := m.fp }] }
    let (slot, s) := s.placeSession x
    some (slot, s.addUsers (entries.map (·.frame)))

/-- Start the transfer of a capsule into the device. -/
def State.startImport (s : State) (id slot : Nat) (kind : JobKind) (space addr : Nat) (h : List Byte) (c : Capsule)
    (l : Layout) (entries : List PtEntry) (word : Nat) : State :=
  let frames := entries.map (·.frame)
  let tiles := srTileList l.srTiles ++ (if frames.isEmpty then [] else [{ ptTile with raw := 16 * frames.length }]) ++ s.tilesOf frames
  let n := s.stm.nextMove
  let s := s.addMove { slot := slot, cls := .capsule, src := .free, dst := .warm, need := s.tick, tiles := tiles,
                       cmd := some id, job := some s.nextJob }
  let job : CapsuleJob := { kind := kind, cmd := id, slot := slot, content := c, move := n, space := space, addr := addr,
                            header := h, entries := entries, word := word
                            key := capsuleKey ((s.tenant (leAt h 48 2)).keyNamed (leAt h 96 16)) (slice h 112 12) (leAt h 48 2) }
  ({ s with jobs := s.jobs.set s.nextJob job, nextJob := s.nextJob + 1 }).runCmd id false

/-- IMPORT_CAPSULE takes effect; `s.sources` holds what its source yields. -/
def opImportCapsule (s : State) (id : Nat) (c : Cmd) : State :=
  let space := c.desc.opt 8 2
  let addr := c.desc.specF 43 36
  let h := s.readSrc space addr 256
  match s.sources.get? id with
  | none => s.refuse id .invalid 0x20
  | some content =>
    if !s.enabled pgStm || !s.enabled pgSdir || !s.enabled pgCane then s.complete id .internal
    else if s.longBusy pgStm then s.waitCmd id
    else match s.importChecks c.tenant (c.desc.specF 51 44) (s.srcAt space addr) content with
      | .refuse st reason => s.refuse id st reason
      | .pass model =>
        let l := (s.model model).layout
        let (d, s) := s.importRoom c.tenant l content.table.length
        if d ≠ 0 then s.complete id .noSpace d
        else match s.arriving c.tenant model (bitAt (leAt h 14 2) 0) content with
          | none => s.complete id .noSpace 3
          | some (slot, s) => 
            (s.beginLong pgStm).startImport id slot .importFrom space addr h content l
              (((s.session? slot).map (·.table)).getD []) 0

/-- Release everything of a session that did not arrive; its slot is freed as after a close (R132, R550). -/
def State.undoArrival (s : State) (slot : Nat) : State :=
  match s.session? slot with
  | none => s
  | some x =>
    let s := s.dropUsers x.frames
    let s := s.heapGive x.tenant (s.recordBytesOf x)
    let s := x.frames.foldl State.decRef s
    let left := x.frames.filter (fun n => s.cane.reclaim.contains n)
    let s := s.onSession slot (fun y => { y with runState := .closed, residency := .free, leftover := left })
    s.freeClosed slot

/-- The sealed pages of a table are offered to the prefix index in page order, a compacted page never (R132, R174). R174 keys a page
by the TAIL_TOKENS words of the steps that filled it, which an import does not run: the words that its slots came with key it
(DESIGN CHOICE, log entry 61). -/
def offerPages (slot : Nat) : Nat → List PtEntry → State → State
  | _, [], s => s
  | i, e :: rest, s =>
    offerPages slot (i + 1) rest
      (if e.isSealed && !e.compacted && e.count == 256 then caneInsert s slot i e.frame ((s.entrySlots e).map (·.word)) else s)

/-- A session has arrived: its pages are sealed as its table says, and its entry is WARM and IDLE (R132). -/
def State.arrived (s : State) (slot : Nat) : State :=
  match s.session? slot with
  | none => s
  | some x =>
    let s := (x.table.filter (·.isSealed)).foldl (fun s e => s.seal e.frame) s
    let s := offerPages slot 0 x.table s
    let s := s.onSession slot (fun y => { y with
      runState := .idle, leased := false, deadline := 0, resumeTick := 0, readers := List.replicate (y.srNver + 1) 0 })
    s.leaveMoving slot .warm

/-- The end of an import's tiles: check 9 (R131). -/
def State.importEnd (s : State) (n : Nat) (j : CapsuleJob) : State :=
  let s := s.eraseJob n j
  if j.failed then (s.undoArrival j.slot |>.abortLong pgStm).refuse j.cmd .security 0x04
  else if !tableOk j.content (leAt j.header 72 4) then (s.undoArrival j.slot |>.abortLong pgStm).refuse j.cmd .invalid 0x23
  else
    let s := (s.arrived j.slot).endLong pgStm
    match s.session? j.slot with
    | none => s
    | some x => s.completeH j.cmd .ok 0 (x.positions + x.table.length * 2 ^ 32) (x.handle j.slot)

end Sys2Proof.Machine
end

