-- ==== Sys2Proof/Machine/Models.lean ====
section
/-!
DEFINITION. Model packages: MODEL_LOAD, its end, and MODEL_UNLOAD (R212 to R220, R222, R224, R227, R228, R239, R450, R457).
What the layer program says comes with the end of the load (log entry 26).
-/
namespace Sys2Proof.Machine

/-! ## The package (R213, R450) -/

/-- Plaintext length of a section that stores `n` bytes: chunks of 65,536 bytes, each with a tag of 16 (R450). -/
def plainLen (n : Nat) : Nat := n - 16 * ceilDiv n 65552

/-- Entry `i` of the section table: TYPE, OFFSET, LENGTH. -/
def pkgSection (h : List Byte) (i : Nat) : Nat × Nat × Nat :=
  (leAt h (112 + 16 * i) 2, leAt h (114 + 16 * i) 6, leAt h (120 + 16 * i) 6)

/-- Sections of types 1 to 4 follow the header in order, each at a multiple of 64 within the package (R213). -/
def pkgSectionsOk (h : List Byte) (len : Nat) : Bool :=
  let rec go : Nat → Nat → List Nat → Bool
    | _, _, [] => true
    | t, from', i :: l =>
      let (ty, o, n) := pkgSection h i
      ty == t && o % 64 == 0 && decide (from' ≤ o) && decide (o + n ≤ len) && go (t + 1) (o + n) l
  go 1 256 [0, 1, 2, 3]

/-- Reserved bytes of the header and of the section table, and entry 4 (R213). -/
def pkgReserved (h : List Byte) : Bool :=
  allZero (slice h 13 3) && allZero (slice h 80 32) && allZero (slice h 192 64) && allZero (slice h 176 16)
    && [0, 1, 2, 3].all (fun i => allZero (slice h (126 + 16 * i) 2))

/-- Check 1 of R218. -/
def pkgHeaderOk (h : List Byte) (len : Nat) : Bool :=
  leAt h 0 8 == 0x004C45444F4D4757 && leAt h 8 2 == 1 && leAt h 10 2 == 256 && leAt h 64 8 == len
    && pkgSectionsOk h len && pkgReserved h
    && (pkgSection h 3).2.2 == leAt h 72 8 + 16 * ceilDiv (leAt h 72 8) 65536

/-- Bytes that a load allots (R219). -/
def pkgAllotment (h : List Byte) : Nat :=
  ([1, 2, 3].map (fun i => roundUp (plainLen (pkgSection h i).2.2) 2097152)).sum

/-! ## The model region (R219, R222, R224) -/

def State.modelBase (s : State) : Nat := s.reg .CRU_MODEL_BASE_ADDR * 2 ^ 30
def State.modelSize (s : State) : Nat := s.reg .CRU_MODEL_SIZE_GIB * 2 ^ 30

/-- The model region lies in HBM and overlaps nothing that R224 names. -/
def State.modelRegionOk (s : State) : Bool :=
  inHbmRange s.modelBase s.modelSize
    && ([(s.sdirBase, 2 ^ 30), (s.sdirFree, 2 ^ 26), (s.heapBase, s.heapSize)] ++ s.caneTables).all
      (fun t => !overlaps s.modelBase s.modelSize t.1 t.2)

/-- Allotments in the model region, as base and bytes. -/
def State.modelRanges (s : State) : List (Nat × Nat) := s.models.values.map (fun m => (m.base, m.bytes))

/-- Bytes of the model region that are allotted. -/
def State.modelUsed (s : State) : Nat := (s.models.values.map (·.bytes)).sum

/-- The lowest free range of `n` bytes of the model region. -/
def State.modelPlace (s : State) (n : Nat) : Option Nat :=
  let fits (a : Nat) : Bool :=
    decide (s.modelBase ≤ a) && decide (a + n ≤ s.modelBase + s.modelSize)
      && s.modelRanges.all (fun r => !overlaps a n r.1 r.2)
  let starts := s.modelBase :: s.modelRanges.map (fun r => r.1 + r.2)
  starts.foldl (fun best a => if fits a then
    match best with
    | some b => some (min a b)
    | none => some a
    else best) none

/-- RES_MIB of a core; above 12 is taken as 12. -/
def State.resMib (s : State) (core : Nat) : Nat := min 12 (s.reg .CRU_SRAM_RES_MIB core)

/-- Residency (R222); a core's share is a 128th of the weights, rounded up (log entry 28). -/
def State.residentOk (s : State) (weightBytes : Nat) : Bool :=
  s.models.values.all (fun m => !m.resident)
    && (List.range 128).all (fun i => decide (ceilDiv weightBytes 128 ≤ s.resMib i * 1048576))

/-! ## MODEL_LOAD (R217, R218) -/

def State.hasStaged (s : State) (kind ref : Nat) : Bool :=
  s.sec.staged.values.any (fun k => k.kind == kind && k.ref == ref)

/-- A model key is destroyed (R450). -/
def State.destroyModelKey (s : State) (ref : Nat) : State :=
  { s with sec := { s.sec with staged := s.sec.staged.filter (fun _ k => !(k.kind == 3 && k.ref == ref)) } }

/-- Outcome of checks 1 to 6 of R218: a refusal with whether the key is destroyed, or the base of the allotment. -/
inductive LoadCheck
  | refuse (st : Status) (reason : Nat)
  | noSpace (detail : Nat)
  | pass (base : Nat)

/-- Checks 1 to 6. -/
def State.loadChecks (s : State) (id len : Nat) (resident : Bool) (h : List Byte) : LoadCheck :=
  if !pkgHeaderOk h len then .refuse .invalid 0x30
  else if leAt h 12 1 ≠ 0xA1 then .refuse .invalid 0x31
  else if (s.model id).loaded then .refuse .invalid 0x33
  else if s.models.values.any (fun m => m.loaded && m.fp == leAt h 16 32) then .refuse .invalid 0x35
  else if !s.hasStaged 3 (leAt h 48 16) then .refuse .security 0x05
  else match s.modelPlace (pkgAllotment h) with
    | none => .noSpace 9
    | some b => if resident && !s.residentOk (leAt h 72 8) then .noSpace 10 else .pass b

/-- MODEL_LOAD takes effect: checks 1 to 6, the allotment, and the long operation of GLB (R35). -/
def opModelLoad (s : State) (id : Nat) (c : Cmd) : State :=
  let d := c.desc
  let mid := d.specF 36 36
  let tenant := bitsOf (d.specF 38 37) 0 12
  if d.optBit 11 && !s.tenantOpen tenant then s.refuse id .invalid 0x80
  else if s.longBusy pgGlb then s.waitCmd id
  else if !s.modelRegionOk then (s.recErr pgCru 0x0011).complete id .internal
  else
    let h := s.readSrc (d.opt 8 2) (d.specF 47 40) 256
    match s.loadChecks mid (d.specF 55 48) (d.optBit 10) h with
    | .refuse st r => s.refuse id st r
    | .noSpace k => (s.destroyModelKey (leAt h 48 16)).complete id .noSpace k
    | .pass base =>
      let m : Model := { cmd := some id, resident := d.optBit 10, isPrivate := d.optBit 11,
                         tenant := if d.optBit 11 then tenant else 0, fp := leAt h 16 32, weightBytes := leAt h 72 8,
                         base := base, bytes := pkgAllotment h, keyRef := leAt h 48 16
                         keys := [1, 2, 3, 4].map (sectionKey (s.modelKey (leAt h 48 16)) (leAt h 16 32)) }
      ({ s with models := s.models.set mid m }.beginLong pgGlb).runCmd id false

/-! ## Checks 7 to 9 (R215, R216, R227, R228, R239) -/

/-- binary32, positive and finite. -/
def posFinite (w : Word) : Bool := flt f32zero w && flt w f32inf
where f32inf : Word := 0x7F800000

/-- The limits of R215. -/
def Layout.limitsOk (l : Layout) : Bool :=
  l.kvp % 256 == 0 && decide (256 ≤ l.kvp) && decide (l.kvp ≤ 65536)
    && decide (1 ≤ l.sumChannels) && decide (l.sumChannels ≤ 32256) && decide (l.recurBytes ≤ 253952)
    && l.scoreOff % 64 == 0 && decide (l.scoreOff + 1040 + 8 * l.scoreCap ≤ l.recurBytes)
    && decide (1 ≤ l.layers) && decide (l.layers ≤ 1024) && decide (l.experts ≤ 1024) && decide (l.topK ≤ 16)
    && decide (l.shared ≤ 4) && decide (1 ≤ l.vocab) && decide (l.vocab ≤ 262144) && l.dModel % 64 == 0
    && (l.dObs == 0 || (l.dObs % 16 == 0 && decide (16 ≤ l.dObs) && decide (l.dObs ≤ 512)))

/-- The limits of one entry of the tensor table, with its sparsity nibbles in the WEIGHTS section (R204, R216). -/
def Tensor.ok (t : Tensor) (l : Layout) (weights : Nat) (text : List Byte) : Bool :=
  matClass t.format != 0 && decide (t.flags < 4) && t.reserved && decide (t.layer < l.layers)
    && (decide (t.expert < l.experts + l.shared) || t.expert == 0xFFFF || (t.expert == 0xFFFE && t.rows == 1))
    && (if t.sparse then t.k % 4 == 0 && t.nibblesOk text else t.k % 64 == 0)
    && t.offset % 64 == 0 && posFinite t.scale && decide (t.offset + t.bytes ≤ weights)

/-- What a package's sections 1 to 4 decrypt to, what its layer program says, and whether every chunk authenticates. -/
structure ModelPackage where
  layout : List Byte
  tensors : List Byte
  programText : List Byte
  weights : List Byte
  program : LayerProgram
  chunksOk : Bool
  deriving DecidableEq, Repr

/-- The stored bytes of a section under its key (R450): chunks of 65,536 bytes, each with its tag, whose additional data is the
header and the chunk's number; the plaintext, and whether every tag is right. -/
def openSection (key header stored : List Byte) : List Byte × Bool :=
  let ks := roundKeys key
  let cs := chunks 65552 stored.length stored
  let parts := (cs.zip (List.range cs.length)).map (fun (b, c) =>
    let cipher := b.take (b.length - 16)
    let nonce := leBytes c 8 ++ List.replicate 4 0
    (gcmText ks nonce cipher, gcmTag ks nonce (header ++ leBytes c 8) cipher == b.drop (b.length - 16)))
  (parts.flatMap (·.1), parts.all (·.2))

/-- The package of a load that runs, read from the source of its command. -/
def State.openPackage (s : State) (id : Nat) (m : Model) (program : LayerProgram) : ModelPackage :=
  let d := ((s.cmd? id).map (·.desc)).getD {}
  let read := s.srcAt (d.opt 8 2) (d.specF 47 40)
  let h := read 0 256
  let part (i : Nat) : List Byte × Bool :=
    openSection (m.keys.getD i []) h (read (pkgSection h i).2.1 (pkgSection h i).2.2)
  { layout := (part 0).1, tensors := (part 1).1, programText := (part 2).1, weights := (part 3).1, program := program
    chunksOk := (part 0).2 && (part 1).2 && (part 2).2 && (part 3).2 }

/-- The layout descriptor and the tensor table of a package. -/
def ModelPackage.desc (p : ModelPackage) : Layout := Layout.ofBytes p.layout
def ModelPackage.table (p : ModelPackage) : List Tensor := tensorTable p.tensors

/-- Layers that have an exit head (R216). -/
def ModelPackage.heads (p : ModelPackage) : List Nat := (p.table.filter (fun t => t.expert == 0xFFFE)).map (·.layer)

/-- Check 7 of R218. -/
def ModelPackage.tablesOk (p : ModelPackage) (weights : Nat) : Bool :=
  layoutBytesOk p.layout && p.desc.limitsOk && p.tensors.length % 32 == 0
    && p.table.all (fun t => t.ok p.desc weights p.weights)
    && disjoint (p.table.map (fun t => (t.offset, t.bytes))) && p.heads.eraseDups.length == p.heads.length

/-- The parameter ranges of R227 and R239 for one layer. -/
def LayerProg.ok (a : LayerProg) (l : Layout) : Bool :=
  decide (1 ≤ a.hq) && decide (a.hq ≤ 256) && decide (1 ≤ a.hkv) && decide (a.hkv ≤ 256) && a.hq % a.hkv == 0
    && a.dk % 16 == 0 && decide (16 ≤ a.dk) && decide (a.dk ≤ 1024)
    && a.dv % 16 == 0 && decide (16 ≤ a.dv) && decide (a.dv ≤ 1024) && (!a.kvShared || a.dv == a.dk)
    && posFinite a.scale && [0x02, 0x03, 0x04, 0x05].contains a.qFormat && [0x03, 0x04].contains a.pFormat
    && (l.experts == 0 || posFinite a.routeScale) && a.pairs.all (fun e => pairOk e.1 e.2)

/-- Check 8 of R218: the ranges of R227 and R239, the pairings of R194 and R201, the equalities of R228, and the rest of the
program. -/
def ModelPackage.programOk (p : ModelPackage) : Bool :=
  let l := p.desc
  p.program.accepted && p.program.layers.length == l.layers && p.program.layers.all (fun a => a.ok l)
    && [0x02, 0x03, 0x04, 0x05].contains l.kvFormat
    && (p.program.layers.map (fun a => a.kvBytes l.kvFormat)).sum == l.kvp
    && ((p.program.layers.head?).map (·.selector)).getD false
    && ((p.program.layers.filter (·.selector)).map (fun a => a.hkv * a.dk)).sum == l.sumChannels

/-- Check 9 of R218: every chunk authenticates, and the SHA-256 digest of the plaintext of sections 1 to 4 is the fingerprint
(R214). -/
def ModelPackage.authentic (p : ModelPackage) (fp weights : Nat) : Bool :=
  p.chunksOk && p.weights.length == weights && sha256 (p.layout ++ p.tensors ++ p.programText ++ p.weights) == fp

/-- The model that a package makes of its entry, once loaded. -/
def ModelPackage.install (p : ModelPackage) (m : Model) : Model :=
  { m with loaded := true, cmd := none, keys := [], layout := p.desc, exitHeads := p.heads, tensors := p.table, program := p.program.layers,
           weights := p.weights }

/-- A resident model's slices are put into the SRAM of the cores that are ON (R222). -/
def State.fillSlices (s : State) (mid : Nat) : State :=
  (List.range 128).foldl (fun s n => if s.reg .PWR_DOM_STAT_STATE n = 0 then s.setCore n { s.core n with slice := mid } else s) s

/-- The load that runs: the model id that is being loaded. -/
def State.loadingModel (s : State) : Option (Nat × Model) := s.models.find? (fun _ m => !m.loaded && m.cmd.isSome)

/-- A load fails: the allotment is released, the id stays unused, the model key is destroyed (R219, R450, R550). -/
def State.dropLoad (s : State) (mid : Nat) (m : Model) : State :=
  ({ s with models := s.models.erase mid }.destroyModelKey m.keyRef).abortLong pgGlb

/-- The row MODEL_LOAD_DONE, with what the package's layer program says. -/
def execModelLoadDone (program : LayerProgram) (s : State) : Host.Outcome State Fault Refusal :=
  .next (match s.loadingModel with
    | none => s
    | some (mid, m) =>
      match m.cmd with
      | none => s
      | some id =>
        let pkg := s.openPackage id m program
        if !pkg.tablesOk m.weightBytes then (s.dropLoad mid m).refuse id .invalid 0x32
        else if !pkg.programOk then (s.dropLoad mid m).refuse id .invalid 0x34
        else if !pkg.authentic m.fp m.weightBytes then (s.dropLoad mid m).refuse id .security 0x06
        else
          let s := { s with models := s.models.set mid (pkg.install m) }
          let s := if m.resident then s.fillSlices mid else s
          let s := s.destroyModelKey m.keyRef
          let s := (s.progress pgGlb (ceilDiv m.weightBytes 1048576) 99).endLong pgGlb
          s.complete id .ok 0 m.bytes)

/-! ## MODEL_UNLOAD (R220, R288) -/

/-- Sessions that name a model and are not AWAY. -/
def State.modelUsers (s : State) (mid : Nat) : Nat :=
  (s.sdir.sess.values.filter (fun x => x.rec'.params.model == mid && x.residency != .away)).length

/-- Release a model with its allotment, resident weights, window contents and vocabulary. -/
def State.releaseModel (s : State) (mid : Nat) : State :=
  { s with models := s.models.erase mid, vocabs := s.vocabs.erase mid
           windows := s.windows.filter (fun _ h => h.model != mid)
           cores := s.cores.map (fun _ c => if c.slice = mid then { c with slice := 0 } else c) }

/-- MODEL_UNLOAD takes effect. -/
def opModelUnload (s : State) (id : Nat) (c : Cmd) : State :=
  let mid := c.desc.specF 36 36
  if s.longBusy pgGlb then s.waitCmd id
  else if !(s.model mid).loaded then s.refuse id .invalid 0x36
  else
    let n := s.modelUsers mid
    if n ≠ 0 then s.complete id .locked (min n 0xFFFFFFFF)
    else
      let bytes := (s.model mid).bytes
      let s := ((s.releaseModel mid).beginLong pgGlb).endLong pgGlb
      s.complete id .ok 0 bytes

end Sys2Proof.Machine
end

