-- ==== Sys2Proof/Machine/Text.lean ====
section
/-!
DEFINITION. Vocabularies and the tokenizer (the Marver): VOCAB_LOAD, UTF-8 and its invalid bytes, pieces and merges, the
limits of an append, APPEND_TEXT, APPEND_TOKENS and the detokenizer (R284 to R301, R313, R314).
-/
namespace Sys2Proof.Machine

/-! ## VOCAB_LOAD (R284 to R288) -/

/-- The vocabulary of a model. -/
def State.vocab? (s : State) (mid : Nat) : Option Vocab :=
  match s.vocabs.get? mid with
  | some v => if v.loaded then some v else none
  | none => none

/-- Room left in the tokenizer's tables (R288): token entries, merge rules, token bytes. -/
def State.freeTokens (s : State) : Nat := 262144 - ((s.vocabs.values.filter (·.loaded)).map (fun v => v.tokens.length)).sum
def State.freeMerges (s : State) : Nat := 1048576 - ((s.vocabs.values.filter (·.loaded)).map (fun v => v.merges.length)).sum
def State.freeTokenBytes (s : State) : Nat := 4194304 - ((s.vocabs.values.filter (·.loaded)).map (·.tokenBytes)).sum

/-- The fields of a vocabulary header (R285). -/
structure VocabHeader where
  tokens : Nat
  merges : Nat
  maxLen : Nat
  presplit : Nat
  eos : Nat
  elide : Nat
  tableOff : Nat
  mergeOff : Nat
  bytesOff : Nat
  len : Nat

def vocabHeader (h : List Byte) : VocabHeader where
  tokens := leAt h 12 4
  merges := leAt h 16 4
  maxLen := leAt h 20 1
  presplit := leAt h 21 1
  eos := leAt h 24 4
  elide := leAt h 28 4
  tableOff := leAt h 32 8
  mergeOff := leAt h 40 8
  bytesOff := leAt h 48 8
  len := leAt h 56 8

/-- Check 1 of R287. -/
def vocabHeaderOk (h : List Byte) (len : Nat) : Bool :=
  let v := vocabHeader h
  leAt h 0 8 == 0x004241434F564757 && leAt h 8 2 == 1 && leAt h 10 2 == 64
    && v.len == len && allZero (slice h 22 2)
    && v.tableOff % 64 == 0 && v.mergeOff % 64 == 0 && v.bytesOff % 64 == 0
    && decide (64 + 1024 ≤ len) && decide (v.tableOff + 8 * v.tokens ≤ len) && decide (v.mergeOff + 16 * v.merges ≤ len)
    && decide (v.bytesOff ≤ len)

/-- Check 3 of R287. -/
def VocabHeader.ok (v : VocabHeader) (l : Layout) : Bool :=
  v.tokens == l.vocab && decide (v.merges ≤ 1048576) && decide (1 ≤ v.maxLen) && decide (v.maxLen ≤ 128)
    && decide (v.presplit ≤ 1) && decide (v.eos < v.tokens) && decide (v.elide < v.tokens)

/-- A token entry of 8 bytes and its bytes, where it is valid (check 5). -/
def parseToken (v : VocabHeader) (pkg e : List Byte) : Option Token :=
  let off := leAt e 0 4
  let len := leAt e 4 1
  let kind := leAt e 5 1
  if kind ≤ 2 ∧ len ≤ v.maxLen ∧ (1 ≤ len ∨ kind = 2) ∧ leAt e 6 1 < 2 ∧ leAt e 7 1 = 0 ∧ v.bytesOff + off + len ≤ v.len then
    some { bytes := slice pkg (v.bytesOff + off) len, kind := kind, emit := bitAt (leAt e 6 1) 0 }
  else none

/-- Entries of `size` bytes in a row. -/
def entriesOf (bs : List Byte) (size : Nat) : Nat → List (List Byte)
  | 0 => []
  | n + 1 => bs.take size :: entriesOf (bs.drop size) size n

/-- Check 5 of R287 on the whole table. -/
def tokensOk (v : VocabHeader) (tokens : List Token) (byteMap : List Nat) : Bool :=
  decide (byteMap.eraseDups.length = 256)
    && (byteMap.zip (List.range 256)).all (fun (id, b) =>
      match tokens[id]? with
      | some t => t.kind == 1 && t.bytes == [BitVec.ofNat 8 b]
      | none => false)
    && (tokens.zip (List.range tokens.length)).all (fun (t, i) => t.kind != 1 || byteMap.contains i)
    && tokens.any (fun t => t.bytes.length == v.maxLen)

/-- A merge entry that passes check 6 on its own. -/
def parseMerge (tokens : List Token) (e : List Byte) : Option (Nat × Nat × Nat) :=
  let l := leAt e 0 4
  let r := leAt e 4 4
  let z := leAt e 8 4
  match tokens[l]?, tokens[r]?, tokens[z]? with
  | some a, some b, some c =>
    if allZero (slice e 12 4) && c.kind != 2 && c.bytes == a.bytes ++ b.bytes then some (l, r, z) else none
  | _, _, _ => none

/-- What the checks of R287 lead to. -/
inductive VocabCheck
  | refuse (reason : Nat)
  | noSpace
  | pass (v : Vocab)

/-- The checks of R287 in their order. -/
def State.vocabChecks (s : State) (mid len : Nat) (pkg : List Byte) : VocabCheck :=
  let h := vocabHeader pkg
  if !vocabHeaderOk (pkg.take 64) len then .refuse 0x46
  else if !(s.model mid).loaded || (s.vocab? mid).isSome then .refuse 0x47
  else if !h.ok (s.model mid).layout then .refuse 0x48
  else
    let raw := entriesOf (pkg.drop h.tableOff) 8 h.tokens
    let bytes := (raw.map (fun e => leAt e 4 1)).sum
    if s.freeTokens < h.tokens ∨ s.freeMerges < h.merges ∨ s.freeTokenBytes < bytes then .noSpace
    else match raw.mapM (parseToken h pkg) with
      | none => .refuse 0x49
      | some tokens =>
        let byteMap := (entriesOf (pkg.drop 64) 4 256).map leNat
        if !tokensOk h tokens byteMap then .refuse 0x49
        else match (entriesOf (pkg.drop h.mergeOff) 16 h.merges).mapM (parseMerge tokens) with
          | none => .refuse 0x4A
          | some merges =>
            let pairs := merges.map (fun m => (m.1, m.2.1))
            if pairs.eraseDups.length ≠ pairs.length then .refuse 0x4A
            else .pass { loaded := true, tokens := tokens, merges := merges, maxLen := h.maxLen,
                         presplit := h.presplit == 1, eos := h.eos, elide := h.elide, byteMap := byteMap,
                         tokenBytes := bytes, digest := sha256 pkg }

/-- VOCAB_LOAD takes effect: the package is read. -/
def opVocabLoad (s : State) (id : Nat) : State :=
  if !s.enabled pgMrv then s.complete id .internal else s.runCmd id false

/-- The VOCAB_LOAD of lowest number that is reading its package. -/
def State.loadingVocab (s : State) : Option (Nat × Cmd) :=
  s.cmds.find? (fun _ c => c.desc.opcode == 0x43 && c.phase == .running)

/-- The row VOCAB_LOAD_DONE: the package has been read and is checked. -/
def execVocabLoadDone (s : State) : Host.Outcome State Fault Refusal :=
  .next (match s.loadingVocab with
    | none => s
    | some (id, c) =>
      let d := c.desc
      let mid := d.specF 36 36
      let len := d.specF 55 48
      let head := s.readSrc (d.opt 8 2) (d.specF 47 40) 64
      if !vocabHeaderOk head len then s.refuse id .invalid 0x46
      else match s.vocabChecks mid len (s.readSrc (d.opt 8 2) (d.specF 47 40) len) with
        | .refuse r => s.refuse id .invalid r
        | .noSpace => s.complete id .noSpace 15
        | .pass v =>
          ({ s with vocabs := s.vocabs.set mid v }).complete id .ok 0 (v.tokens.length + v.merges.length * 2 ^ 32))

/-- The row MRV_ENABLE, with the value written (R314). -/
def execMrvEnable (en : Bool) (s : State) : Host.Outcome State Fault Refusal :=
  let s := s.touch
  .next (if !s.live then s
    else if en then (if s.pageState pgMrv = 0 then s.enableBlock pgMrv else s)
    else if s.pageState pgMrv = 1 then s.disableBlock pgMrv else s)

/-! ## UTF-8 (R291, R293) -/

/-- Classes of invalid bytes. -/
inductive InvClass
  | overlong | surrogate | range | stray | truncated | atEnd
  deriving DecidableEq, Repr

/-- A unit of decoded text: a character with its bytes, or the bytes of an invalid maximal subpart. -/
inductive TextUnit
  | char (cp : Nat) (bytes : List Byte)
  | bad (cls : InvClass) (bytes : List Byte)
  deriving DecidableEq, Repr

/-- Continuation bytes that a lead byte asks for and the range of the first of them (Table 3-7 of the Unicode Standard). -/
def leadOf (b : Nat) : Option (Nat × Nat × Nat) :=
  if 0xC2 ≤ b ∧ b ≤ 0xDF then some (1, 0x80, 0xBF)
  else if b = 0xE0 then some (2, 0xA0, 0xBF)
  else if b = 0xED then some (2, 0x80, 0x9F)
  else if 0xE1 ≤ b ∧ b ≤ 0xEF then some (2, 0x80, 0xBF)
  else if b = 0xF0 then some (3, 0x90, 0xBF)
  else if 0xF1 ≤ b ∧ b ≤ 0xF3 then some (3, 0x80, 0xBF)
  else if b = 0xF4 then some (3, 0x80, 0x8F)
  else none

/-- Continuation bytes of a form, as many as follow: `n` in all, the first between `lo` and `hi`. -/
def takeCont : Nat → Nat → Nat → List Byte → List Byte
  | 0, _, _, _ => []
  | _ + 1, _, _, [] => []
  | n + 1, lo, hi, b :: l => if lo ≤ b.toNat ∧ b.toNat ≤ hi then b :: takeCont n 0x80 0xBF l else []

/-- The class of a byte that begins no form. -/
def loneClass (b : Nat) : InvClass :=
  if b = 0xC0 ∨ b = 0xC1 then .overlong else if 0x80 ≤ b ∧ b ≤ 0xBF then .stray else .range

/-- The class of a subpart that `next` does not continue. -/
def brokenClass (lead taken next : Nat) : InvClass :=
  if taken = 0 ∧ lead = 0xE0 ∧ 0x80 ≤ next ∧ next ≤ 0x9F then .overlong
  else if taken = 0 ∧ lead = 0xF0 ∧ 0x80 ≤ next ∧ next ≤ 0x8F then .overlong
  else if taken = 0 ∧ lead = 0xED ∧ 0xA0 ≤ next ∧ next ≤ 0xBF then .surrogate
  else if taken = 0 ∧ lead = 0xF4 ∧ 0x90 ≤ next ∧ next ≤ 0xBF then .range
  else .truncated

/-- The code point of a well-formed form. -/
def codePoint (lead : Nat) (cont : List Byte) : Nat :=
  let top := if lead < 0xE0 then lead - 0xC0 else if lead < 0xF0 then lead - 0xE0 else lead - 0xF0
  cont.foldl (fun n b => n * 64 + (b.toNat - 0x80)) top

/-- Decode bytes: the units, and a valid prefix of a form at the end. -/
def decodeUtf8 : Nat → List Byte → List TextUnit × List Byte
  | 0, _ => ([], [])
  | _ + 1, [] => ([], [])
  | fuel + 1, b :: l =>
    let lead := b.toNat
    if lead < 0x80 then
      let (u, t) := decodeUtf8 fuel l
      (.char lead [b] :: u, t)
    else match leadOf lead with
      | none =>
        let (u, t) := decodeUtf8 fuel l
        (.bad (loneClass lead) [b] :: u, t)
      | some (n, lo, hi) =>
        let cont := takeCont n lo hi l
        let rest := l.drop cont.length
        if cont.length = n then
          let (u, t) := decodeUtf8 fuel rest
          (.char (codePoint lead cont) (b :: cont) :: u, t)
        else match rest with
          | [] => ([], b :: cont)
          | x :: _ =>
            let (u, t) := decodeUtf8 fuel rest
            (.bad (brokenClass lead cont.length x.toNat) (b :: cont) :: u, t)

/-- The invalid bytes of some units, by class. -/
def badBytes (u : List TextUnit) (c : InvClass) : Nat :=
  (u.map (fun x => match x with
    | .bad d bs => if c = d then bs.length else 0
    | .char _ _ => 0)).sum

def badTotal (u : List TextUnit) : Nat :=
  (u.map (fun x => match x with
    | .bad _ bs => bs.length
    | .char _ _ => 0)).sum

/-- Count invalid bytes in MRV (R292, R313). -/
def State.countInvalid (s : State) (u : List TextUnit) : State :=
  let s := s.bump .MRV_INV_OVERLONG_COUNT 0 (badBytes u .overlong)
  let s := s.bump .MRV_INV_SURROGATE_COUNT 0 (badBytes u .surrogate)
  let s := s.bump .MRV_INV_RANGE_COUNT 0 (badBytes u .range)
  let s := s.bump .MRV_INV_STRAY_COUNT 0 (badBytes u .stray)
  let s := s.bump .MRV_INV_TRUNCATED_COUNT 0 (badBytes u .truncated)
  let s := s.bump .MRV_INV_END_COUNT 0 (badBytes u .atEnd)
  if badTotal u = 0 then s else s.setIntBit pgMrv 8

/-! ## Pieces (R292, R294) -/

/-- A character as its code point and bytes. -/
abbrev Chr := Nat × List Byte

/-- The text cut at invalid bytes, which in byte-fallback mode are pieces of their own (log entry 29). -/
inductive Seg
  | text (chars : List Chr)
  | byte (b : Byte)
  deriving DecidableEq, Repr

/-- U+FFFD. -/
def replacement : Chr := (0xFFFD, [0xEF, 0xBF, 0xBD])

/-- The segments of some units; `acc` holds the characters since the last invalid byte, newest first. -/
def segments (replace : Bool) : List TextUnit → List Chr → List Seg
  | [], acc => if acc.isEmpty then [] else [.text acc.reverse]
  | .char c bs :: l, acc => segments replace l ((c, bs) :: acc)
  | .bad _ bs :: l, acc =>
    if replace then segments replace l (replacement :: acc)
    else (if acc.isEmpty then [] else [.text acc.reverse]) ++ bs.map .byte ++ segments replace l []

/-- Maximal runs of characters of one class. -/
def classRuns : List Chr → List (CharClass × List Chr)
  | [] => []
  | c :: l =>
    match classRuns l with
    | [] => [(charClass c.1, [c])]
    | (k, r) :: rest => if charClass c.1 = k then (k, c :: r) :: rest else (charClass c.1, [c]) :: (k, r) :: rest

/-- The pieces of a run, `lead` being a space that has moved to its start. -/
def cutRun (k : CharClass) (r : List Chr) (lead : List Chr) : List (List Chr) :=
  match k with
  | .number =>
    match chunks 3 r.length r with
    | [] => [lead]
    | p :: ps => (lead ++ p) :: ps
  | _ => [lead ++ r]

/-- Pieces with PRESPLIT 1. `lead` is a space carried over from the run before. -/
def presplit : List (CharClass × List Chr) → List Chr → List (List Chr)
  | [], lead => [lead]
  | (k, r) :: rest, lead =>
    match rest, k, r.getLast? with
    | _ :: _, .space, some (0x20, bs) => cutRun k r.dropLast lead ++ presplit rest [(0x20, bs)]
    | _, _, _ => cutRun k r lead ++ presplit rest []

/-- Cut a piece longer than 4,096 bytes at the last character boundary at or before 4,096 bytes. -/
def cutLong : List Chr → List Chr → Nat → List (List Chr)
  | [], acc, _ => [acc.reverse]
  | c :: l, acc, n =>
    if n + c.2.length > 4096 then acc.reverse :: cutLong l [c] c.2.length else cutLong l (c :: acc) (n + c.2.length)

/-- The pieces of a segment of text. -/
def piecesOf (split : Bool) (chars : List Chr) : List (List Chr) :=
  (((if split then presplit (classRuns chars) [] else [chars]).filter (fun p => !p.isEmpty)).flatMap
    (fun p => cutLong p [] 0)).filter (fun p => !p.isEmpty)

/-! ## Merges (R295) -/

/-- Rank and RESULT of the rule for a pair. -/
def Vocab.rule (v : Vocab) (a b : Nat) : Option (Nat × Nat) :=
  ((v.merges.zip (List.range v.merges.length)).find? (fun m => m.1.1 == a && m.1.2.1 == b)).map (fun m => (m.2, m.1.2.2))

/-- The place, rank and RESULT of the pass: lowest rank, leftmost. -/
def bestMerge (v : Vocab) : Nat → List Nat → Option (Nat × Nat × Nat)
  | i, a :: b :: l =>
    let later := bestMerge v (i + 1) (b :: l)
    match v.rule a b, later with
    | some (r, z), some (j, q, y) => if r ≤ q then some (i, r, z) else some (j, q, y)
    | some (r, z), none => some (i, r, z)
    | none, x => x
  | _, _ => none

/-- Merge a piece. -/
def mergePiece (v : Vocab) : Nat → List Nat → List Nat
  | 0, seq => seq
  | fuel + 1, seq =>
    match bestMerge v 0 seq with
    | none => seq
    | some (i, _, z) => mergePiece v fuel (seq.take i ++ [z] ++ seq.drop (i + 2))

/-- The byte token of a byte. -/
def Vocab.byteToken (v : Vocab) (b : Byte) : Nat := v.byteMap.getD b.toNat 0

/-- The tokens of some units. -/
def Vocab.tokenize (v : Vocab) (replace : Bool) (u : List TextUnit) : List Nat :=
  (segments replace u []).flatMap (fun g =>
    match g with
    | .byte b => [v.byteToken b]
    | .text cs => (piecesOf v.presplit cs).flatMap (fun p =>
        let seq := (p.flatMap (·.2)).map v.byteToken
        mergePiece v seq.length seq))

/-- A carry at the end of a stream is invalid in class END. -/
def endUnits (carry : List Byte) : List TextUnit := if carry.isEmpty then [] else [.bad .atEnd carry]

/-! ## Limits (R297, R298) -/

/-- What an append of tokens leads to (R298): the tokens that enter, with the number elided, or a refusal. -/
inductive AppendFit
  | fits (tokens : List Nat) (elided : Nat)
  | refused

/-- Room of a session in positions (R298). -/
def Session.room (x : Session) : Nat :=
  min (min (1048576 - x.positions - x.input.length) (2 ^ 32 - x.rec'.nextPos - x.input.length))
    (((4096 - x.table.length) * 256 + ((x.table.filter (·.isTail)).map (fun e => 256 - e.count)).sum) - x.input.length)

/-- The rule of R298 for a session of a tenant. -/
def State.fit (s : State) (x : Session) (noTrunc : Bool) (toks : List Nat) (v : Option Vocab) : AppendFit :=
  let room := x.room
  let mx := s.reg .MRV_TEN_TRUNC_MAX_COUNT x.tenant
  let limit := if mx = 0 then room else min mx room
  let h := s.reg .MRV_TEN_TRUNC_H_COUNT x.tenant
  let t := s.reg .MRV_TEN_TRUNC_T_COUNT x.tenant
  let n := toks.length
  if n ≤ limit then .fits toks 0
  else match v with
    | none => .refused
    | some v =>
      if s.regBit .MRV_TEN_TRUNC_EN x.tenant && !noTrunc && decide (h + 1 + t ≤ limit) then
        .fits (toks.take h ++ [v.elide] ++ toks.drop (n - t)) (n - h - t)
      else .refused

/-- Pending positions of tokens. -/
def tokenInput (l : List Nat) : List InPos := l.map (fun t => { token := some t })

/-- The constraint state returns to its start (R307); a RESET also ends an escape. -/
def StepRec.restart (r : StepRec) : StepRec := { r with schemaState := 0, seqNode := 0, force := none }
def StepRec.resetConstraint (r : StepRec) : StepRec :=
  { r.restart with escActive := false, escNext := 0, escSpent := false }

/-- Positions enter the input queue, and the run state follows R80. -/
def State.enterInput (s : State) (slot : Nat) (l : List InPos) : State :=
  match s.session? slot with
  | none => s
  | some x =>
    if l.isEmpty then s
    else
      let s := s.heapTake x.tenant (inputBytes l)
      let s := s.setSession slot { x with input := x.input ++ l, inputPend := true }
      match x.runState with
      | .idle => s.becomeRunnable slot
      | .deadEnd => s.becomeRunnable slot
      | _ => s

/-- The step record's carry and constraint state change, where they do (R293, R307, R552). -/
def State.changeRecord (s : State) (slot : Nat) (x : Session) (carry : List Byte) (reset : Bool) : State :=
  if carry = x.rec'.carry ∧ reset = false then s
  else s.commitOutside slot (fun r =>
    let r := { r with carry := carry }
    if reset then r.resetConstraint else r)

/-- RESULT of an append (R299). -/
def appendResult (added invalid : Nat) (truncated : Bool) (carry : Nat) : Nat :=
  added % 2 ^ 32 + invalid % 2 ^ 24 * 2 ^ 32 + b2n truncated * 2 ^ 56 + carry % 4 * 2 ^ 57

/-- The end of an append, text or tokens: limits, room, counts, effects; a refused one counts no bytes taken in (R298). -/
def State.append (s : State) (id slot : Nat) (x : Session) (noTrunc reset : Bool) (v : Option Vocab)
    (toks : List Nat) (u : List TextUnit) (carry : List Byte) (taken : Nat) : State :=
  match s.fit x noTrunc toks v with
  | .refused => ((s.bump .MRV_REFUSED_COUNT).setIntBit pgMrv 10).complete id .noSpace 12
  | .fits l elided =>
    let inp := tokenInput l
    if !s.heapRoom x.tenant (inputBytes inp) false then s.complete id .noSpace 13
    else
      let s := (s.countInvalid u).bump .MRV_BYTES_IN_COUNT 0 taken
      let s := s.bump .MRV_TOKENS_IN_COUNT 0 l.length
      let s := if elided = 0 then s
        else ((s.bump .MRV_TRUNCATIONS_COUNT).bump .MRV_ELIDED_COUNT 0 elided).setIntBit pgMrv 9
      let s := s.promoting slot
      let s := s.changeRecord slot x carry reset
      let s := s.enterInput slot inp
      s.complete id .ok elided (appendResult l.length (badTotal u) (elided != 0) carry.length)

/-! ## APPEND_TEXT and APPEND_TOKENS (R289, R290, R300) -/

/-- APPEND_TEXT takes effect. -/
def opAppendText (s : State) (id : Nat) (c : Cmd) (slot : Nat) : State :=
  match s.session? slot with
  | none => s.complete id .staleHandle
  | some x =>
    if !s.enabled pgMrv then s.complete id .internal
    else match s.vocab? x.rec'.params.model with
      | none => s.refuse id .invalid 0x40
      | some v =>
        if v.failed then s.complete id .internal
        else
          let pay := s.payload c.desc
          let bytes := x.rec'.carry ++ pay
          let (u, tail) := decodeUtf8 bytes.length bytes
          let ends := c.desc.optBit 8
          let u := if ends then u ++ endUnits tail else u
          s.append id slot x (c.desc.optBit 10) (c.desc.optBit 9) (some v) (v.tokenize x.rec'.params.utf8Replace u) u
            (if ends then [] else tail) pay.length

/-- An append needs the vocabulary of its session: it flushes a carry, or it is truncated (R293, R298, R314). -/
def AppendFit.needsVocab (f : AppendFit) (carry : List Byte) : Bool :=
  match f with
  | .fits _ elided => !carry.isEmpty || elided != 0
  | .refused => !carry.isEmpty

/-- APPEND_TOKENS takes effect. -/
def opAppendTokens (s : State) (id : Nat) (c : Cmd) (slot : Nat) : State :=
  match s.session? slot with
  | none => s.complete id .staleHandle
  | some x =>
    let pay := s.payload c.desc
    let toks := (entriesOf pay 4 (pay.length / 4)).map leNat
    if toks.any (fun t => decide ((s.layoutOf x).vocab ≤ t)) then s.refuse id .invalid 0x41
    else
      let v := s.vocab? x.rec'.params.model
      let u := endUnits x.rec'.carry
      let flush := (v.map (fun v => v.tokenize x.rec'.params.utf8Replace u)).getD []
      if ((v.map (·.failed)).getD false) && (s.fit x (c.desc.optBit 10) (flush ++ toks) v).needsVocab x.rec'.carry then
        s.complete id .internal
      else s.append id slot x (c.desc.optBit 10) (c.desc.optBit 9) v (flush ++ toks) u [] 0

/-- The end of the text stream as a STEP takes effect (R293): as many of the carry's tokens as there is room for. -/
def State.flushCarry (s : State) (slot : Nat) : State :=
  match s.session? slot with
  | none => s
  | some x =>
    let carry := x.rec'.carry
    if carry.isEmpty then s
    else
      let v := s.vocab? x.rec'.params.model
      let u := endUnits carry
      let toks := (v.map (fun v => v.tokenize x.rec'.params.utf8Replace u)).getD []
      let room := x.room
      let kept := (List.range (min toks.length room + 1)).foldl (fun best k =>
        if s.heapRoom x.tenant (inputBytes (tokenInput (toks.take k))) false then max best k else best) 0
      let dropped := if toks.isEmpty then carry.length else min carry.length (toks.length - kept)
      let s := s.countInvalid u
      let s := if dropped = 0 then s else s.bump .MRV_FLUSH_DROPS_COUNT 0 dropped
      let s := s.changeRecord slot x [] false
      s.enterInput slot (tokenInput (toks.take kept))

/-! ## Detokenization (R301) -/

/-- The bytes that a token contributes. -/
def Vocab.outBytes (v : Vocab) (t : Nat) : List Byte :=
  match v.tokens[t]? with
  | some k => if k.kind = 2 ∧ k.emit = false then [] else k.bytes
  | none => []

/-- The detokenizer for one token: the bytes written, the bytes held back, and the invalid bytes among those written. -/
def detok (v : Option Vocab) (pend : List Byte) (t : Nat) : List Byte × List Byte × Nat :=
  let all := pend ++ ((v.map (fun v => v.outBytes t)).getD [])
  let (u, tail) := decodeUtf8 all.length all
  (all.take (all.length - tail.length), tail, badTotal u)

end Sys2Proof.Machine
end

