-- ==== Sys2Proof/Machine/Constraints.lean ====
section
/-!
DEFINITION. Constraint objects and the choice of each token: CONSTRAINT_LOAD, the sequence and schema automata, forced
continuations, escapes and the sampler (R302 to R311, R315, R316).
-/
namespace Sys2Proof.Machine

/-! ## Bodies (R303 to R305, R244) -/

/-- Token words of the form of R300; none where bits [31:18] are not 0. -/
def tokenWords (bs : List Byte) (n : Nat) : Option (List Nat) :=
  if bs.length < 4 * n then none
  else
    let l := (entriesOf bs 4 n).map leNat
    if l.all (fun w => decide (w < 262144)) then some l else none

/-- `n` entries of a sequence set, and what follows them. -/
def parseSeqs : Nat → List Byte → Option (List SeqEntry × List Byte)
  | 0, bs => some ([], bs)
  | n + 1, bs =>
    let ty := leAt bs 0 1
    let len := leAt bs 1 1
    let cont := leAt bs 2 1
    if bs.length < 4 ∨ 1 < ty ∨ leAt bs 3 1 ≠ 0 ∨ len = 0 ∨ 64 < len ∨ 64 < cont ∨ (ty = 0) ≠ (cont = 0) then none
    else match tokenWords (bs.drop 4) (len + cont) with
      | none => none
      | some ws =>
        match parseSeqs n (bs.drop (4 + 4 * (len + cont))) with
        | none => none
        | some (l, rest) => some ({ isForce := ty == 1, seq := ws.take len, cont := ws.drop len } :: l, rest)

/-- A sequence-set body (R303). -/
def parseSequences (bs : List Byte) : Option CBody :=
  let n := leAt bs 0 4
  if bs.length < 4 ∨ n = 0 ∨ 65536 < n then none
  else match parseSeqs n (bs.drop 4) with
    | some (l, []) => some (.sequences l)
    | _ => none

/-- A transition entry as (LO, HI, NEXT). -/
def parseTransition (states : Nat) (e : List Byte) : Option (Nat × Nat × Nat) :=
  let w := leNat e
  let lo := bitsOf w 0 18
  let hi := bitsOf w 18 18
  let nx := bitsOf w 36 22
  if w < 2 ^ 58 ∧ lo ≤ hi ∧ nx < states then some (lo, hi, nx) else none

/-- The ranges of a state ascend and do not overlap. -/
def rangesAscend : List (Nat × Nat × Nat) → Bool
  | a :: b :: l => decide (a.2.1 < b.1) && rangesAscend (b :: l)
  | _ => true

/-- A state entry with its ranges. -/
def parseState (tl : List (Nat × Nat × Nat)) (e : List Byte) : Option SchemaState :=
  let w := leNat e
  let first := bitsOf w 0 32
  let count := bitsOf w 32 19
  let rs := (tl.drop first).take count
  if w < 2 ^ 52 ∧ count ≤ 262144 ∧ rs.length = count ∧ rangesAscend rs = true then
    some { ranges := rs, accept := bitAt w 51 }
  else none

/-- A schema-automaton body (R304). -/
def parseSchema (bs : List Byte) : Option CBody :=
  let st := leAt bs 0 4
  let tr := leAt bs 4 4
  if bs.length ≠ 16 + 8 * (st + tr) ∨ st = 0 ∨ 4194304 < st ∨ 16777216 < tr ∨ leAt bs 8 8 ≠ 0 then none
  else match (entriesOf (bs.drop (16 + 8 * st)) 8 tr).mapM (parseTransition st) with
    | none => none
    | some tl => ((entriesOf (bs.drop 16) 8 st).mapM (parseState tl)).map .schema

/-- An escape body (R305). -/
def parseEscape (bs : List Byte) : Option CBody :=
  let n := leAt bs 0 1
  if bs.length ≠ 4 + 4 * n ∨ n = 0 ∨ 32 < n ∨ leAt bs 1 3 ≠ 0 then none
  else (tokenWords (bs.drop 4) n).map .escape

/-- An exit point of a profile. -/
def parsePoint (e : List Byte) : Option ExitPoint :=
  let th : Word := BitVec.ofNat 32 (leAt e 4 4)
  if leAt e 2 2 = 0 ∧ flt f32zero th = true ∧ flt f32one th = false then some { layer := leAt e 0 2, threshold := th } else none

/-- The layers of the points ascend strictly. -/
def pointsAscend : List ExitPoint → Bool
  | a :: b :: l => decide (a.layer < b.layer) && pointsAscend (b :: l)
  | _ => true

/-- An exit profile (R244). -/
def parseProfile (bs : List Byte) : Option CBody :=
  let n := leAt bs 1 1
  if bs.length ≠ 64 ∨ leAt bs 0 1 ≠ 1 ∨ n = 0 ∨ 7 < n ∨ leAt bs 2 6 ≠ 0 ∨ allZero (bs.drop (8 + 8 * n)) = false then none
  else match (entriesOf (bs.drop 8) 8 n).mapM parsePoint with
    | some pts => if pointsAscend pts then some (.profile pts) else none
    | none => none

/-- The body of a kind. -/
def parseBody (kind : Nat) (bs : List Byte) : Option CBody :=
  if kind = 1 then parseSequences bs
  else if kind = 2 then parseSchema bs
  else if kind = 3 then parseEscape bs
  else parseProfile bs

/-- The token ids that a body names. -/
def CBody.tokens : CBody → List Nat
  | .sequences l => l.flatMap (fun e => e.seq ++ e.cont)
  | .schema l => l.flatMap (fun x => x.ranges.map (·.2.1))
  | .escape l => l
  | .profile _ => []

/-- The token ids of a body as loaded: those of a schema's transition entries, whether or not a state refers to them. -/
def bodyTokens (kind : Nat) (bs : List Byte) (b : CBody) : List Nat :=
  if kind = 2 then (entriesOf (bs.drop (16 + 8 * leAt bs 0 4)) 8 (leAt bs 4 4)).map (fun e => bitsOf (leNat e) 18 18)
  else b.tokens

/-! ## CONSTRAINT_LOAD (R302, R306) -/

/-- Sessions that name an object and are not AWAY. -/
def State.objectUsers (s : State) (tenant kind id : Nat) : Nat :=
  (s.sdir.sess.values.filter (fun x =>
    let p := x.rec'.params
    x.tenant == tenant && x.residency != .away
      && (if kind = 1 then p.banSet else if kind = 2 then p.schema else if kind = 3 then p.escape else p.exitProfile) == id)).length

/-- Bytes of the constraint store in use. -/
def State.storeUsed (s : State) : Nat := (s.objects.values.map (·.bytes)).sum
def State.storeBase (s : State) : Nat := s.reg .JCK_STORE_BASE_ADDR * 4096
def State.storeSize (s : State) : Nat := s.reg .JCK_STORE_SIZE_GIB * gib

/-- A load of an object. -/
def State.loadObject (s : State) (id : Nat) (c : Cmd) (kind oid mid : Nat) : State :=
  let t := c.tenant
  if (s.object? t kind oid).isSome then s.refuse id .invalid 0x42
  else if !s.modelFor t mid then s.refuse id .invalid 0x43
  else match parseBody kind (s.payload c.desc) with
    | none => s.refuse id .invalid 0x44
    | some b =>
      let bytes := Config.storeBytes kind c.desc.payLen
      let o : CObject := { model := mid, body := b, bytes := bytes }
      if !o.profileFits (s.model mid) then s.refuse id .invalid 0x44
      else if (bodyTokens kind (s.payload c.desc) b).any (fun k => decide ((s.model mid).layout.vocab ≤ k)) then s.refuse id .invalid 0x41
      else if s.storeSize < s.storeUsed + bytes then s.complete id .noSpace 14
      else ({ s with objects := s.objects.set (objKey t kind oid) o }).complete id .ok 0 bytes

/-- An unload of an object. -/
def State.unloadObject (s : State) (id : Nat) (c : Cmd) (kind oid : Nat) : State :=
  let t := c.tenant
  match s.object? t kind oid with
  | none => s.refuse id .invalid 0x45
  | some o =>
    let n := s.objectUsers t kind oid
    if n ≠ 0 then s.complete id .locked (min n 0xFFFFFFFF)
    else ({ s with objects := s.objects.erase (objKey t kind oid) }).complete id .ok 0 o.bytes

/-- CONSTRAINT_LOAD takes effect. -/
def opConstraintLoad (s : State) (id : Nat) (c : Cmd) : State :=
  let kind := c.desc.opt 9 3
  let oid := c.desc.specF 37 36
  if !s.enabled pgJck then s.complete id .internal
  else if c.desc.optBit 8 then s.unloadObject id c kind oid
  else s.loadObject id c kind oid (c.desc.specF 38 38)

/-- The checks of JCK_CTRL.EN (R316). -/
def State.jckOk (s : State) : Bool :=
  inHbmRange s.storeBase s.storeSize
    && ([(s.sdirBase, 2 ^ 30), (s.sdirFree, 2 ^ 26), (s.heapBase, s.heapSize), (s.modelBase, s.modelSize)] ++ s.caneTables).all
      (fun t => !overlaps s.storeBase s.storeSize t.1 t.2)

/-- The row JCK_ENABLE, with the value written. -/
def execJckEnable (en : Bool) (s : State) : Host.Outcome State Fault Refusal :=
  let s := s.touch
  .next (if !s.live then s
    else if en then
      if s.pageState pgJck ≠ 0 then s else if !s.jckOk then s.recErr pgJck 0x0003 else s.enableBlock pgJck
    else if s.pageState pgJck ≠ 1 then s
    else if s.objects.size ≠ 0 then s.recErr pgJck 0x0005
    else s.disableBlock pgJck)

/-! ## The sequence automaton (R303, R309) -/

/-- The non-empty prefixes of a list, shortest first. -/
def prefixesOf (l : List Nat) : List (List Nat) := (List.range l.length).map (fun i => l.take (i + 1))

/-- The nodes: the root, then each distinct prefix in the order of the entries (log entry 32). -/
def seqNodes (es : List SeqEntry) : List (List Nat) := [] :: (es.flatMap (fun e => prefixesOf e.seq)).eraseDups

/-- The suffixes of a list, longest first. -/
def suffixesOf : List Nat → List (List Nat)
  | [] => [[]]
  | a :: l => (a :: l) :: suffixesOf l

/-- The string that a node stands for. -/
def nodeString (es : List SeqEntry) (n : Nat) : List Nat := (seqNodes es).getD n []

/-- The node reached from a node by a token: the longest suffix that is a node. -/
def nextNode (es : List SeqEntry) (n t : Nat) : Nat :=
  let nodes := seqNodes es
  ((suffixesOf (nodeString es n ++ [t])).findSome? (fun x => nodes.findIdx? (· == x))).getD 0

/-- Whether `y` ends with `x`. -/
def endsWith (y x : List Nat) : Bool := x.length ≤ y.length && y.drop (y.length - x.length) == x

/-- A token is banned at a node. -/
def bannedAt (es : List SeqEntry) (n t : Nat) : Bool :=
  let y := nodeString es n ++ [t]
  es.any (fun e => !e.isForce && endsWith y e.seq)

/-- The lowest-numbered FORCE entry whose trigger a token completes from a node. -/
def triggered (es : List SeqEntry) (n t : Nat) : Option Nat :=
  let y := nodeString es n ++ [t]
  es.findIdx? (fun e => e.isForce && endsWith y e.seq)

/-! ## The sampler (R311) -/

/-- One round of Philox-4×32: the counter words under a key. -/
def philoxRound (k0 k1 : Nat) (c : Nat × Nat × Nat × Nat) : Nat × Nat × Nat × Nat :=
  let p0 := 0xD2511F53 * c.1
  let p1 := 0xCD9E8D57 * c.2.2.1
  (Nat.xor (Nat.xor (p1 / 2 ^ 32) c.2.1) k0, p1 % 2 ^ 32, Nat.xor (Nat.xor (p0 / 2 ^ 32) c.2.2.2) k1, p0 % 2 ^ 32)

/-- Rounds with the key advanced between them. -/
def philoxRounds : Nat → Nat → Nat → Nat × Nat × Nat × Nat → Nat × Nat × Nat × Nat
  | 0, _, _, c => c
  | n + 1, k0, k1, c => philoxRounds n ((k0 + 0x9E3779B9) % 2 ^ 32) ((k1 + 0xBB67AE85) % 2 ^ 32) (philoxRound k0 k1 c)

/-- philox(seed, pos): the first output word of ten rounds. -/
def philox (seed pos : Nat) : Nat :=
  (philoxRounds 10 (bitsOf seed 0 32) (bitsOf seed 32 32) (pos % 2 ^ 32, 0, 0, 0)).1

/-- u of a draw: the high 24 bits as a binary32 in [0, 1). -/
def drawU (seed pos : Nat) : Word := toF32 (.fin false (philox seed pos / 256) (-24))

/-- NaN is taken as -inf. -/
def noNan (w : Word) : Word := if fisNan w then f32negInf else w

/-- Largest logit, lowest id among equals, over ids in ascending order. -/
def argmax : List (Nat × Word) → Option (Nat × Word)
  | [] => none
  | a :: l =>
    match argmax l with
    | none => some a
    | some b => if flt a.2 b.2 then some b else some a

/-- Order of the sampler: y descending, lower id first among equals. -/
def sampleBefore (a b : Nat × Word) : Bool := flt b.2 a.2 || (!flt a.2 b.2 && decide (a.1 < b.1))

/-- The shortest prefix whose running sum reaches `goal`; a sum that is no number reaches nothing (log entry 104). -/
def prefixTo (goal : Word) : List (Nat × Word) → Word → List (Nat × Word)
  | [], _ => []
  | e :: l, acc =>
    let acc := fadd acc e.2
    if flt acc goal || fisNan acc || fisNan goal then e :: prefixTo goal l acc else [e]

/-- The first entry at which the running sum exceeds `r`; the last entry where none does. -/
def pickAt (r : Word) : List (Nat × Word) → Word → Nat → Nat
  | [], _, last => last
  | e :: l, acc, _ =>
    let acc := fadd acc e.2
    if flt r acc then e.1 else pickAt r l acc e.1

/-- The sampler: the token, and u where a draw was made. `z` lists the allowed ids in ascending order with their logits. -/
def sample (temp topP : Word) (topK seed pos : Nat) (z : List (Nat × Word)) : Nat × Option Word :=
  let a := z.map (fun e => (e.1, noNan e.2))
  if (f32 temp).isZero || a.all (fun e => e.2 == f32negInf) then (((argmax a).map (·.1)).getD 0, none)
  else
    let rt := frecip temp
    let c := sortBy sampleBefore (a.map (fun e => (e.1, fmul e.2 rt)))
    let c := if topK = 0 then c else c.take topK
    let y0 := ((c.head?).map (·.2)).getD f32zero
    let p := c.map (fun e => (e.1, fexp (fsub e.2 y0)))
    let sum (l : List (Nat × Word)) : Word := l.foldl (fun s e => fadd s e.2) f32zero
    let p := if flt topP f32one then prefixTo (fmul topP (sum p)) p f32zero else p
    let u := drawU seed pos
    (pickAt (fmul u (sum p)) p f32zero (((p.getLast?).map (·.1)).getD 0), some u)

/-! ## Choosing a token (R307, R308) -/

/-- The constraint objects of a session. -/
structure Rules where
  entries : List SeqEntry := []
  schema : Option (List SchemaState) := none
  escape : List Nat := []

/-- The body of an object that a parameter block names. -/
def State.bodyOf (s : State) (tenant kind id : Nat) : Option CBody :=
  if id = 0 then none else (s.object? tenant kind id).map (fun o => o.body)

/-- The rules that a parameter block names. -/
def State.rulesOf (s : State) (tenant : Nat) (p : Params) : Rules :=
  { entries := (match s.bodyOf tenant 1 p.banSet with
      | some (CBody.sequences l) => l
      | _ => []),
    schema := (match s.bodyOf tenant 2 p.schema with
      | some (CBody.schema l) => some l
      | _ => none),
    escape := (match s.bodyOf tenant 3 p.escape with
      | some (CBody.escape l) => l
      | _ => []) }

/-- A token is in the allow set of a schema state. -/
def inState (st : SchemaState) (t : Nat) : Bool := st.ranges.any (fun r => decide (r.1 ≤ t) && decide (t ≤ r.2.1))

/-- The mask of R308 as a test. -/
def Rules.allows (k : Rules) (r : StepRec) (vocab t : Nat) : Bool :=
  decide (t < vocab)
    && (match k.schema with
        | none => true
        | some l => match l[r.schemaState]? with
          | some st => inState st t
          | none => false)
    && !bannedAt k.entries r.seqNode t

/-- What the choice of a token leads to. -/
structure Choice where
  /-- none for a dead end. -/
  token : Option Nat
  record : StepRec
  forced : Bool := false
  escape : Bool := false
  /-- The schema automaton has entered an accepting state. -/
  accept : Bool := false
  mask : Bool := true
  abandoned : Bool := false
  escapeStarted : Bool := false
  drew : Bool := false

/-- The next token of an escape. -/
def escapeStep (k : Rules) (r : StepRec) : Option Nat × StepRec :=
  match k.escape[r.escNext]? with
  | none => (none, { r with escActive := false, escNext := 0 })
  | some t =>
    let r := { r with lastToken := t }
    if r.escNext + 1 < k.escape.length then (some t, { r with escActive := true, escNext := r.escNext + 1 })
    else (some t, { r.restart with escActive := false, escNext := 0 })

/-- The schema state that a token leads to, and whether it accepts. -/
def schemaNext (k : Rules) (n t : Nat) : Nat × Bool :=
  match k.schema with
  | none => (n, false)
  | some l =>
    match l[n]? with
    | none => (n, false)
    | some st =>
      match st.ranges.find? (fun q => decide (q.1 ≤ t) && decide (t ≤ q.2.1)) with
      | none => (n, false)
      | some q => (q.2.2, match l[q.2.2]? with | some x => x.accept | none => false)

/-- Advance the schema state, the node and the triggers by an emitted token; whether an accepting state is entered. -/
def advance (k : Rules) (r : StepRec) (t : Nat) : StepRec × Bool :=
  let nx := schemaNext k r.schemaState t
  let force := match r.force with
    | some f => some f
    | none => (triggered k.entries r.seqNode t).map (fun e => (e, 0))
  ({ r with schemaState := nx.1, seqNode := nextNode k.entries r.seqNode t, force := force, lastToken := t }, nx.2)

/-- The pending continuation after its token was emitted. -/
def forceNext (k : Rules) (e i : Nat) : Option (Nat × Nat) :=
  if i + 1 < (((k.entries[e]?).map (·.cont)).getD []).length then some (e, i + 1) else none

/-- Choose the token of a sampling row: `logit` gives the logits, `pos` the original index that the token will take. -/
def chooseToken (k : Rules) (r : StepRec) (vocab pos : Nat) (logit : Nat → Word) : Choice :=
  if r.escActive then
    let (t, r) := escapeStep k r
    { token := t, record := r, escape := true, mask := false }
  else
    let pendingTok := match r.force with
      | none => none
      | some (e, i) => (((k.entries[e]?).map (·.cont)).getD [])[i]?
    let keep := match pendingTok with
      | some c => k.allows r vocab c
      | none => false
    match pendingTok, r.force, keep with
    | some c, some (e, i), true =>
      let (r', acc) := advance k { r with force := forceNext k e i } c
      { token := some c, record := r', forced := true, accept := acc }
    | _, _, _ =>
      let gone := r.force.isSome
      let r := { r with force := none }
      let allowed := (List.range vocab).filter (fun t => k.allows r vocab t)
      if allowed.isEmpty then
        if r.params.deadEndEscape && !r.escSpent && !k.escape.isEmpty then
          let (t, r) := escapeStep k { r with escActive := true, escNext := 0, escSpent := true }
          { token := t, record := r, escape := true, abandoned := gone, escapeStarted := true }
        else { token := none, record := r, abandoned := gone }
      else
        let (t, u) := sample r.temp r.topP r.topK r.params.seed pos (allowed.map (fun t => (t, logit t)))
        let (r', acc) := advance k { r with escSpent := false, lastU := u.getD r.lastU } t
        { token := some t, record := r', accept := acc, abandoned := gone, drew := u.isSome }

/-- Count a choice in JCK (R315). -/
def State.countChoice (s : State) (c : Choice) : State :=
  let s := if c.mask then s.bump .JCK_MASKS_COUNT else s
  let s := if c.forced then s.bump .JCK_FORCED_COUNT else s
  let s := if c.abandoned then (s.bump .JCK_FORCE_ABANDONS_COUNT).setIntBit pgJck 10 else s
  let s := if c.escapeStarted then (s.bump .JCK_ESCAPES_COUNT).setIntBit pgJck 9 else s
  let s := if c.drew then s.bump .JCK_DRAWS_COUNT else s
  if c.token.isNone then (s.bump .JCK_DEAD_ENDS_COUNT).setIntBit pgJck 8 else s

end Sys2Proof.Machine
end

