-- ==== Sys2Proof/Machine/Gaffer.lean ====
section
/-!
DEFINITION. The step scheduler (the Gaffer): candidates, composition, STEP, and the commit of a session's step with its KV
state, its scores, its sampled token and its seals (R48, R104, R106, R116, R149, R164, R172, R174, R179, R182, R226, R235,
R249 to R266, R280, R281, R311).
-/
namespace Sys2Proof.Machine

/-! ## Configuration of R20 and what stands for the forward pass -/

/-- The exit points of a session's profile (R244). -/
def State.exitPoints (s : State) (x : Session) : List ExitPoint :=
  match s.bodyOf x.tenant 4 x.rec'.params.exitProfile with
  | some (CBody.profile l) => l
  | _ => []

/-- The configuration that governs a row: TOP_P, SINK, the exit profile, and whether it is a decode row (R20, R235, R246). -/
def State.cfgOf (s : State) (x : Session) (decode : Bool) : Nat :=
  let p := x.rec'.params
  let pts := (s.exitPoints x).flatMap (fun e => [e.layer, e.threshold.toNat])
  (b2n decode :: p.topP :: p.sink :: pts).foldl (fun n v => n * 2 ^ 32 + v) 1

/-- The digests of the positions held, each with its page and original index (log entry 38). -/
def State.context (s : State) (x : Session) : List (Nat × BitVec 64) :=
  ((x.table.zip (List.range x.table.length)).flatMap (fun (e, k) =>
    (s.entrySlots e).map (fun q => (k * 2 ^ 32 + q.index, q.kv))))

/-- TAIL_TOKENS word of an input (R176). -/
def InPos.word (p : InPos) : Nat :=
  match p.token with
  | some t => t
  | none => 2 ^ 31

/-- What the rows of a session yield: new slots, the context after them, the recurrent digest. -/
structure RowsOut where
  slots : List Slot
  context : List (Nat × BitVec 64)
  recur : DWord

/-- Run rows in position order: `page` and `fill` say where the next position goes, `index` is its original index. -/
def runRows (fp cfg : Nat) : List InPos → Nat → Nat → Nat → RowsOut → RowsOut
  | [], _, _, _, o => o
  | p :: l, page, fill, index, o =>
    let (page, fill) := if fill = 256 then (page + 1, 0) else (page, fill)
    let kv := Config.kvOf fp cfg o.context index p.word p.vec
    let o := { slots := o.slots ++ [{ index := index, word := p.word, kv := kv }],
               context := o.context ++ [(page * 2 ^ 32 + index, kv)], recur := Config.recurOf fp o.recur kv }
    runRows fp cfg l page (fill + 1) (index + 1) o

/-! ## Candidates (R250 to R252) -/

/-- The tail entry of a session. -/
def Session.tail? (x : Session) : Option PtEntry :=
  match x.table.getLast? with
  | some e => if e.isTail then some e else none
  | none => none

/-- The session contributes a decode row (R250). -/
def Session.decodes (x : Session) : Bool :=
  x.genReq && (match x.input with
    | [p] => p.sampled
    | _ => false)

/-- Opcodes that wait under R76 for no step to hold the session: SESS_FORK, PARK, EXPORT_CAPSULE, MIGRATE_OUT. -/
def waitsForNoStep (op : Nat) : Bool := [0x12, 0x1D, 0x20, 0x22].contains op

/-- A command of the session waits for no step to hold it, or a PARK has taken effect and its move waits for its start: the step
fence of R148 keeps the session out of steps from the PARK's effect on. -/
def State.stepBarred (s : State) (slot : Nat) : Bool :=
  s.cmds.values.any (fun c => c.slot == some slot && c.phase == .waiting && waitsForNoStep c.desc.opcode)
    || ((s.moveOf slot .demote).map (fun e => e.2.cmd.isSome)).getD false

/-- Cores can run a model: all of them where it is resident, else any, and HBM is ON (R476). -/
def State.modelRuns (s : State) (mid : Nat) : Bool :=
  s.hbmOn && if (s.model mid).resident then (List.range 128).all s.coreOn else (List.range 128).any s.coreOn

/-- The session may join a step but for its page allotments and its lock (R251); its tenant is not being closed (R459). -/
def State.mayJoin (s : State) (slot : Nat) (x : Session) : Bool :=
  x.runState == .runnable && x.residency == .hot && !x.input.isEmpty && !x.bad && !s.holdsBad x && x.compact.isNone && x.closing.isNone
    && !s.stepBarred slot && s.tenantOpen x.tenant && s.modelRuns x.rec'.params.model

/-- Key of the rank order (R252). -/
def rankKey (e : Nat × Session) : Nat × Nat × Nat := (deadlineOf e.2.deadline, e.2.runnableAt, e.1)

/-- Order of triples. -/
def tripleBefore (a b : Nat × Nat × Nat) : Bool :=
  decide (a.1 < b.1) || (a.1 == b.1 && (decide (a.2.1 < b.2.1) || (a.2.1 == b.2.1 && decide (a.2.2 < b.2.2))))

def rankBefore (a b : Nat × Session) : Bool := tripleBefore (rankKey a) (rankKey b)

/-- The candidates in rank order, those held back under R48 left out. -/
def State.candidates (s : State) : List (Nat × Session) :=
  sortBy rankBefore (s.sdir.sess.entries.filter (fun e => s.mayJoin e.1 e.2 && !e.2.heldBack))

/-- Rows per step (R280). -/
def State.budget (s : State) : Nat := min 1048576 (max 64 (s.reg .GAF_CFG_BUDGET))
def State.chunkRows (s : State) : Nat := min 512 (max 16 (s.reg .GAF_CHUNK_ROWS))
def State.chunkMin (s : State) : Nat := max 1 (min (s.chunkRows) (s.reg .GAF_CHUNK_MIN))

/-! ## Placement (R253) -/

/-- One pass over the prefill sessions: (slot, rows left, rows placed) triples, the rows of the step so far. -/
def prefillPass (chunk minc budget : Nat) : List (Nat × Nat × Nat) → Nat → List (Nat × Nat × Nat) × Nat
  | [], rows => ([], rows)
  | (k, left, placed) :: l, rows =>
    let n := min chunk (min left (budget - rows))
    if left ≠ 0 ∧ (minc ≤ n ∨ n = left) then
      let (l', r) := prefillPass chunk minc budget l (rows + n)
      ((k, left - n, placed + n) :: l', r)
    else
      let (l', r) := prefillPass chunk minc budget l rows
      ((k, left, placed) :: l', r)

/-- Passes until one adds nothing or the budget is reached. -/
def prefillPasses (chunk minc budget : Nat) : Nat → List (Nat × Nat × Nat) → Nat → List (Nat × Nat × Nat)
  | 0, l, _ => l
  | fuel + 1, l, rows =>
    let (l', r) := prefillPass chunk minc budget l rows
    if r = rows ∨ r = budget then l' else prefillPasses chunk minc budget fuel l' r

/-- The rows of a step over its candidates in rank order: slot, whether a decode row, number of rows. -/
def State.placeRows (s : State) (cand : List (Nat × Session)) : List (Nat × Bool × Nat) :=
  let dec := ((cand.filter (fun e => e.2.decodes)).take s.budget).map (fun e => (e.1, true, 1))
  let pend := (cand.filter (fun e => !e.2.decodes)).map (fun e => (e.1, e.2.input.length, 0))
  let placed := prefillPasses s.chunkRows s.chunkMin s.budget (s.budget + 1) pend dec.length
  dec ++ (placed.filter (fun p => p.2.2 != 0)).map (fun p => (p.1, false, p.2.2))

/-! ## Tail allotment and copy on write (R106, R164, R255) -/

/-- Slots of the step whose sessions copy their tail, decided in ascending slot order. -/
def cowDecide (s : State) : List Nat → List (Nat × Nat) → List Nat
  | [], _ => []
  | k :: l, decided =>
    match (s.session? k).bind Session.tail? with
    | none => cowDecide s l decided
    | some e =>
      let refs := ((s.page? e.frame).map (·.refs)).getD 0
      let cut := ((decided.find? (fun d => d.1 == e.frame)).map (·.2)).getD 0
      if 1 < refs - cut then
        k :: cowDecide s l ((e.frame, cut + 1) :: decided.filter (fun d => d.1 != e.frame))
      else cowDecide s l decided

/-- Order of slots. -/
def slotBefore (a b : Nat) : Bool := decide (a < b)

/-- Allot `n` pages for a session from the reserve. -/
def allotPages (s : State) (x : Session) : Nat → List Nat → Option (List Nat × State)
  | 0, acc => some (acc, s)
  | n + 1, acc =>
    let l := s.layoutOf x
    if s.pageRoom x.tenant l true then
      match s.allotPage x.tenant x.rec'.params.model l [] with
      | none => none
      | some (k, s) => allotPages s x n (acc ++ [k])
    else none

/-- Pages that `n` rows of a session need beyond its tail. -/
def Session.newPages (x : Session) (n : Nat) : Nat :=
  match x.tail? with
  | some e => ceilDiv (e.count + n - 256) 256
  | none => ceilDiv n 256

/-- Allot what one session of the step needs: its row entry, or nothing where an allotment fails. -/
def State.allotFor (s : State) (slot : Nat) (x : Session) (decode : Bool) (n : Nat) (cow : Bool) :
    Option (StepRow × State) :=
  match allotPages s x ((if cow then 1 else 0) + x.newPages n) [] with
  | none => none
  | some (pages, s) =>
    let row : StepRow := { slot := slot, decode := decode, count := n, last := n == x.input.length,
                           sampling := x.genReq && n == x.input.length,
                           cow := if cow then pages.head? else none, allotted := if cow then pages.drop 1 else pages }
    match row.cow, x.tail? with
    | some q, some e =>
      some (row, (s.onPage q (fun p => { p with slots := s.entrySlots e })).bump .CANE_COW_COPIES_COUNT)
    | _, _ => some (row, s)

/-- Allot for the sessions of the step in rank order; the slot of the first that fails, if any. -/
def allotAll (s : State) (cows : List Nat) : List (Nat × Bool × Nat) → List StepRow → Sum Nat (List StepRow × State)
  | [], acc => .inr (acc, s)
  | (k, dec, n) :: l, acc =>
    match s.session? k with
    | none => allotAll s cows l acc
    | some x =>
      match s.allotFor k x dec n (cows.contains k) with
      | none => .inl k
      | some (row, s) => allotAll s cows l (acc ++ [row])

/-- A candidate is left out for want of pages (R255). -/
def State.allotSkip (s : State) (slot : Nat) : State :=
  (s.onSession slot (fun x => { x with allotFail := if x.allotFail.isSome then x.allotFail else some s.tick })).bump
    .GAF_ALLOT_SKIPS_COUNT

/-- Compose over candidates, leaving out those whose allotment fails. -/
def composeLoop : Nat → State → List (Nat × Session) → List StepRow × State
  | 0, s, _ => ([], s)
  | fuel + 1, s, cand =>
    let rows := s.placeRows cand
    let cows := cowDecide s (sortBy slotBefore (rows.map (·.1))) []
    match allotAll s cows rows [] with
    | .inr (l, t) => (l, t)
    | .inl k => composeLoop fuel (s.allotSkip k) (cand.filter (fun e => e.1 != k))

/-! ## Composition (R253 to R256, R263) -/

/-- Generation of a candidate whose deadline has passed ends, where DROP_ON_MISS asks for it (R263). -/
def State.dropMissed (s : State) (slot : Nat) : State :=
  match s.session? slot with
  | none => s
  | some x =>
    match x.stepReq with
    | some q => if q.dropOnMiss && x.deadline != 0 && decide (x.deadline < s.tick) then s.endStep slot .deadlineMissed 7 else s
    | none => s

/-- End the generation of every candidate that has missed its deadline with DROP_ON_MISS. -/
def State.dropAllMissed (s : State) : State := s.candidates.foldl (fun s e => s.dropMissed e.1) s

/-- Lock the entries of candidates; those that cannot be locked are left out (R78, R251). -/
def lockAll (s : State) : List (Nat × Session) → State × List (Nat × Session)
  | [] => (s, [])
  | e :: l =>
    let (r, s') := s.lockOrStall e.1
    let (t, rest) := lockAll s' l
    if r.isSome then (t, e :: rest) else (t, rest)

/-- The model of the step (R253). -/
def stepModel (cand : List (Nat × Session)) : Option Nat :=
  match cand.find? (fun e => e.2.decodes) with
  | some e => some e.2.rec'.params.model
  | none => (cand.head?).map (fun e => e.2.rec'.params.model)

/-- A session enters a step: RUNNING, its allotment failures forgotten, the pages that it adopted counted (R80, R186, R255). -/
def State.enterStep (s : State) (row : StepRow) : State :=
  let n := ((s.session? row.slot).map (fun x => x.adopted / 256)).getD 0
  ((s.bump .CANE_ADOPTED_COUNT 0 n).progressStep row.slot).onSession row.slot (fun x => { x with
    runState := .running, allotFail := none, lastStep := s.tick })

/-- Compose a step; none where no session can join one. -/
def State.composeStep (s : State) : Option StepRun × State :=
  let s := s.dropAllMissed
  let held := s.sdir.sess.entries.filter (fun e => s.mayJoin e.1 e.2 && e.2.heldBack)
  let s := held.foldl (fun s _ => s.bump .GAF_HELD_BACK_COUNT) s
  match stepModel s.candidates with
  | none => (none, s)
  | some m =>
    let (s, cand) := lockAll s (s.candidates.filter (fun e => e.2.rec'.params.model == m))
    let s := (cand.filter (fun e => !e.2.decodes)).foldl (fun s e => s.adopt e.1) s
    let cand := cand.filterMap (fun e => (s.session? e.1).map (fun x => (e.1, x)))
    let (rows, s) := composeLoop (cand.length + 1) s cand
    let s := (cand.filter (fun e => rows.all (fun r => r.slot != e.1))).foldl
      (fun s e => (s.unadopt e.1).unlockEntry e.1) s
    if rows.isEmpty then (none, s)
    else
      let frames := (rows.flatMap (fun r => ((s.session? r.slot).map Session.frames).getD [] ++ r.cow.toList)).eraseDups
      let s := ((rows.foldl State.enterStep s).pinAll frames)
      let s := rows.foldl (fun s r => s.issueRead r.slot) s
      (some { model := m, rows := rows, pins := frames, start := s.tick, total := (rows.map (·.count)).sum,
              decodes := (rows.filter (·.decode)).length,
              tenants := rows.filterMap (fun r => (s.session? r.slot).map (·.tenant)) }, s)

/-- Urgent tiles hold a core. -/
def State.urgentHeld (s : State) : Bool := s.cores.values.any (fun c => c.tileUrgent && c.tileKind != 0)

/-- Start a composed step: GAF reads RUNNING, or PREEMPTED while urgent tiles hold a core (R280). -/
def State.startStep (s : State) (r : StepRun) : State :=
  ({ s with gaf := { s.gaf with running := some { r with start := s.tick }, composed := none, gather := none } }).setPageState
    pgGaf (if s.urgentHeld then 3 else 2)

/-- No step is composed or started: a checkpoint quiesces or freezes the device, or the device shuts down (R416, R494). -/
def State.stepsHeld (s : State) : Bool := s.freeze != 0 || s.pageState pgGlb == 2

/-- GAF composes: the block is enabled, EN is 1 and no freeze of a checkpoint or shutdown holds steps back. -/
def State.mayCompose (s : State) : Bool := s.enabled pgGaf && (s.common pgGaf).en && !s.stepsHeld

/-- Compose now, and start at once where no step runs. -/
def State.composeNow (s : State) : State :=
  match s.composeStep with
  | (none, s) => s
  | (some r, s) =>
    if s.gaf.running.isSome then { s with gaf := { s.gaf with composed := some r } } else s.startStep r

/-- Rows that the candidates have waiting, for the gather delay (R256). -/
def State.rowsWaiting (s : State) : Nat := (s.candidates.map (fun e => e.2.input.length)).sum

/-- The row STEP_COMPOSE. -/
def execStepCompose (s : State) : Host.Outcome State Fault Refusal :=
  .next (if !s.mayCompose || s.gaf.composed.isSome then s
    else if s.gaf.running.isSome then s.composeNow
    else if s.candidates.isEmpty then s.composeStep.2
    else if s.reg .GAF_GATHER_US = 0 ∨ s.budget ≤ s.rowsWaiting then s.composeNow
    else if s.gaf.gather.isSome then s
    else { s with gaf := { s.gaf with gather := some s.tick } })

/-- The row GATHER_TIMEOUT (R256). -/
def execGatherTimeout (s : State) : Host.Outcome State Fault Refusal :=
  .next (match s.gaf.gather with
    | none => s
    | some t =>
      if s.mayCompose && s.gaf.running.isNone && s.gaf.composed.isNone && decide (t + s.reg .GAF_GATHER_US * 1000 ≤ s.tick)
      then ({ s with gaf := { s.gaf with gather := none } }).composeNow
      else s)

/-- The row TAIL_ALLOT_GIVE_UP (R255): allotments of a session with an outstanding STEP have failed for 10 ms. -/
def execTailAllotGiveUp (slot : Nat) (s : State) : Host.Outcome State Fault Refusal :=
  .next (match s.session? slot with
    | none => s
    | some x =>
      match x.allotFail, x.stepReq with
      | some t, some _ =>
        if t + 10000000 ≤ s.tick then
          let s := (s.endStep slot .noSpace 11).onSession slot (fun y => { y with allotFail := none })
          (s.bump .GAF_ALLOT_FAILS_COUNT).setIntBit pgGaf 9
        else s
      | _, _ => s)

/-! ## STEP (R257 to R261, R265) -/

/-- The request that a STEP's descriptor makes. -/
def stepReqOf (id : Nat) (d : Desc) (x : Session) : StepReq :=
  { cmd := id, before := x.runState, deadline := x.deadline, maxNew := d.specF 39 36, partialEvery := d.specF 43 40
    textOff := d.specF 47 44, outText := d.optBit 10, dropOnMiss := d.optBit 9 }

/-- STEP sets its request, DEADLINE and GEN_REQ, and the session becomes RUNNABLE from IDLE and DEAD_END. -/
def State.beginStep (s : State) (id : Nat) (c : Cmd) (slot : Nat) : State :=
  match s.session? slot with
  | none => s.complete id .staleHandle
  | some x =>
    let s := s.promoting slot
    let s := s.setSession slot { x with
      genReq := true, deadline := c.desc.deadline, stepReq := some (stepReqOf id c.desc x),
      input := x.input.map (fun p => { p with sampled := false }) }
    let s := s.runCmd id true
    match x.runState with
    | .idle => s.becomeRunnable slot
    | .deadEnd => s.becomeRunnable slot
    | _ => s

/-- STEP takes effect. -/
def opStep (s : State) (id : Nat) (c : Cmd) (slot : Nat) : State :=
  match s.session? slot with
  | none => s.complete id .staleHandle
  | some x =>
    let p := x.rec'.params
    let outText := c.desc.optBit 10
    let objBad := [(1, p.banSet), (2, p.schema), (3, p.escape), (4, p.exitProfile)].any (fun o =>
      o.2 != 0 && ((s.object? x.tenant o.1 o.2).map (·.failed)).getD false)
    if x.genReq then s.refuse id .invalid 0x0D
    else if outText && !s.enabled pgMrv then s.complete id .internal
    else if p.namesAny && !s.enabled pgJck then s.complete id .internal
    else if objBad || (((s.vocab? p.model).map (·.failed)).getD false) then s.complete id .internal
    else if !s.enabled pgStm && x.residency != .hot then s.complete id .internal
    else if outText && (s.vocab? p.model).isNone then s.refuse id .invalid 0x40
    else match s.point id c slot (!c.desc.optBit 8 || x.runState == .running) with
      | .waits s => s
      | .passed s =>
        let due := c.desc.optBit 8 && x.runState == .running
        let s := if due then s.onSession slot (fun y => { y with compactDue := some id }) else s
        let s := s.flushCarry slot
        let empty := ((s.session? slot).map (fun y => y.input.isEmpty)).getD true
        if c.desc.specF 39 36 = 0 ∧ empty = true then s.complete id .ok 6 else s.beginStep id c slot

/-! ## The commit of a session's step -/

/-- Free completion slots that no final completion has reserved (R47, R48). -/
def Ring.freeSlots (r : Ring) : Nat := 2 ^ r.cqLog2 - r.unread - r.outstanding

/-- RESULT of a STEP's completions: TOKENS and TEXT_BYTES (R260). -/
def StepReq.result (q : StepReq) : Nat := q.tokens + q.textBytes * 2 ^ 32

/-- Write an intermediate completion, or hold the session back where no slot is free (R48, R260). -/
def State.writePartial (s : State) (slot : Nat) (q : StepReq) : State × StepReq :=
  match s.cmd? q.cmd with
  | none => (s, q)
  | some c =>
    if (s.ring c.ring).freeSlots = 0 then (s.onSession slot (fun x => { x with heldBack := true }), q)
    else (s.writeCompletion c.ring c.desc .part 0 c.desc.handle q.result, { q with sincePartial := 0 })

/-- End of the token area and bytes left in the text area (R259). -/
def tokenEnd (d : Desc) (q : StepReq) : Nat := if q.outText then q.textOff else d.payLen

/-- No room for a further entry, or too little for a token's text (R263). -/
def bufferFull (d : Desc) (q : StepReq) (maxLen : Nat) : Bool :=
  decide (tokenEnd d q < 16 + 4 * (q.tokens + 1)) || (q.outText && decide (d.payLen - q.textOff - q.textBytes < maxLen + 3))

/-- Write the entry of a token, its bytes, and then the buffer header (R259, R260). -/
def State.writeOutput (s : State) (d : Desc) (q : StepReq) (t : Nat) (forced escape : Bool) (text : List Byte) :
    State × StepReq :=
  let entry := t + b2n forced * 2 ^ 28 + b2n escape * 2 ^ 29
  let s := s.writeMem d.inWindow (d.payAddr + 16 + 4 * q.tokens) (leBytes entry 4)
  let s := if q.outText then s.writeMem d.inWindow (d.payAddr + q.textOff + q.textBytes) text else s
  let n := if q.outText then text.length else 0
  let s := s.bump .MRV_DETOK_BYTES_COUNT 0 n
  let q := { q with tokens := q.tokens + 1, textBytes := q.textBytes + n, sincePartial := q.sincePartial + 1 }
  (s.writeMem d.inWindow d.payAddr (leBytes q.tokens 4 ++ leBytes q.textBytes 4 ++ List.replicate 8 0), q)

/-- Fill slots into the tail and the allotted pages: the entries of the new table after the sealed part. -/
def layPages : List (List Slot) → List Nat → List PtEntry
  | g :: gs, f :: fs =>
    { frame := f, count := g.length, isTail := true, firstPos := ((g.head?).map (·.index)).getD 0,
      lastPos := ((g.getLast?).map (·.index)).getD 0 } :: layPages gs fs
  | _, _ => []

/-- The slots that a session's last pages hold after a step: those of its tail, then the new ones, in pages of 256. -/
def stepPages (old : List Slot) (new : List Slot) : List (List Slot) :=
  let all := old ++ new
  chunks 256 all.length all

/-- Store the slots of the last pages. -/
def writeSlots (s : State) : List (List Slot) → List Nat → State
  | g :: gs, f :: fs => writeSlots (s.onPage f (fun p => { p with slots := g })) gs fs
  | _, _ => s

/-- The KV state of the rows enters the session's pages (R104 to R106, R164): the state, with the session's table changed. -/
def State.writeKv (s : State) (row : StepRow) (x : Session) (new : List Slot) : State :=
  let keep := match x.tail? with
    | some _ => x.table.dropLast
    | none => x.table
  let old := match x.tail? with
    | some e => s.entrySlots e
    | none => []
  let first := match row.cow, x.tail? with
    | some q, _ => [q]
    | none, some e => [e.frame]
    | none, none => []
  let groups := stepPages old new
  let frames := first ++ row.allotted
  let s := writeSlots s groups frames
  let s := s.onSession row.slot (fun y => { y with
    table := keep ++ layPages groups frames, positions := y.positions + new.length })
  let s := s.addUsers (row.cow.toList ++ row.allotted)
  match row.cow, x.tail? with
  | some _, some e => (s.dropUsers [e.frame]).decRef e.frame
  | _, _ => s

/-- Seal the full pages of a session at its step's end and insert them into the index, in page order. `words` gives the
TAIL_TOKENS words of the tail and of the new positions. -/
def sealFull (s : State) (slot : Nat) (words : List Nat) : Nat → Nat → State
  | 0, _ => s
  | fuel + 1, i =>
    match s.session? slot with
    | none => s
    | some x =>
      match x.table[i]? with
      | none => s
      | some e =>
        if e.isTail && e.count == 256 then
          let s := s.seal e.frame
          let s := s.onSession slot (fun y => { y with
            table := y.table.set i { e with isTail := false, isSealed := true } })
          let s := caneInsert s slot i e.frame (words.take 256)
          sealFull s slot (words.drop 256) fuel (i + 1)
        else s

/-- What the sampling row of a commit leads to. -/
inductive Sampled
  | nothing
  | dead (c : Choice)
  | ends (detail : Nat)
  | token (c : Choice) (t : Nat)

/-- The sampling of a row after which the session holds `x` (R250, R263, R308). -/
def State.sampleRow (s : State) (x : Session) (r : StepRec) (q : StepReq) (ctx : List (Nat × BitVec 64)) (cfg : Nat) : Sampled :=
  match s.cmd? q.cmd with
  | none => .nothing
  | some cmd =>
    let p := r.params
    let vocab := (s.model p.model).layout.vocab
    let c := chooseToken (s.rulesOf x.tenant p) r vocab r.nextPos
      (fun t => Config.logitOf (s.model p.model).fp cfg ctx r.recur t)
    match c.token with
    | none => .dead c
    | some t =>
      if x.room = 0 then .ends 5
      else if bufferFull cmd.desc q (((s.vocab? p.model).map (·.maxLen)).getD 0) then .ends 4
      else .token c t

/-- The DETAIL with which generation ends after a token was emitted, if it does (R263). -/
def endAfter (v : Option Vocab) (c : Choice) (t : Nat) (q : StepReq) : Option Nat :=
  if (v.map (·.eos)) = some t then some 1
  else if c.accept then some 2
  else if q.tokens ≥ q.maxNew then some 0
  else none

/-- A token is emitted: detokenized, written, and a pending position of the session, before anything that an append placed
during the step (R250, R260, R262; log entry 34). The record is the choice's with the detokenizer's bytes. -/
def State.emitToken (s : State) (slot : Nat) (q : StepReq) (c : Choice) (t : Nat) : State × StepRec :=
  match s.cmd? q.cmd with
  | none => (s, c.record)
  | some cmd =>
    let v := s.vocab? c.record.params.model
    let (text, pend, bad) := detok v c.record.pend t
    let s := s.countChoice c
    let s := if q.outText then s.bump .MRV_OUT_INVALID_COUNT 0 bad else s
    let (s, q) := s.writeOutput cmd.desc q t c.forced c.escape text
    let s := s.progressCmd q.cmd
    let (s, q) := if q.partialEvery ≠ 0 ∧ q.partialEvery ≤ q.sincePartial then s.writePartial slot q else (s, q)
    let fin := endAfter v c t q
    let r := { c.record with pend := pend }
    let r := if fin = some 2 then r.restart else r
    let s := match s.session? slot with
      | some x => s.heapTake x.tenant 4
      | none => s
    let s := s.onSession slot (fun x => { x with
      input := { token := some t, sampled := fin.isNone } :: x.input, inputPend := true,
      stepReq := if fin.isSome then none else some q, genReq := fin.isNone,
      ended := match fin with
        | some d => some (q, d)
        | none => x.ended })
    (s, r)

/-- The run state after a commit (R80). -/
def State.settleRun (s : State) (slot : Nat) (dead : Bool) : State :=
  match s.session? slot with
  | none => s
  | some x =>
    if x.runState ≠ .running then s
    else if dead ∧ x.input.isEmpty then s.setSession slot { x with runState := .deadEnd }
    else if !x.input.isEmpty || x.genReq then s.becomeRunnable slot
    else s.setSession slot { x with runState := .idle }

/-- The crossing of COMPACT_AT (R22, R182, R183). -/
def State.crossing (s : State) (slot before : Nat) : State :=
  match s.session? slot with
  | none => s
  | some x =>
    let p := x.rec'.params
    if p.compactAt ≠ 0 ∧ before ≤ p.compactAt ∧ p.compactAt < x.positions then
      match s.compact slot p.budget s.tick with
      | some t => t
      | none => s.compactWait slot none
    else s

/-- Between two steps the tiles of the batches that wait for the cores run (R323, R351). -/
def State.batchTiles (s : State) : State :=
  { s with emb := { s.emb with batch := s.emb.batch.map (fun b => { b with tiles := b.tiles || b.waiting.isEmpty }) },
           srch := { s.srch with batch := s.srch.batch.map (fun b => { b with tiles := true }) } }

/-- The step boundary: pins go, the counters of the step are kept, the composed step starts (R162, R256, R280). -/
def State.boundary (s : State) (r : StepRun) (ran : Bool) : State :=
  let s := (s.unpinAll r.pins).settleStep ran
  let dt := s.tick - r.start
  let s := if ran then
      let s := ((s.bump .GAF_STEP_SEQ_COUNT).bump .GAF_DECODE_ROWS_COUNT 0 r.decodes).bump .GAF_PREFILL_ROWS_COUNT 0
        (r.total - r.decodes)
      ((s.setReg .GAF_LAST_ROWS_COUNT r.total).setReg .GAF_LAST_TICKS_TICKS dt).raiseReg .GAF_MAX_TICKS_TICKS dt
    else s
  let s := { s with gaf := { s.gaf with running := none } }.batchTiles
  let s := ((s.setPageState pgGaf (if (s.common pgGaf).en then 1 else 0)).sramZero.safePoint pgGaf).safePoint pgJck
  match s.gaf.composed with
  | some n => if s.stepsHeld then s else s.startStep n
  | none => s

/-- A session has left the running step; at the last one the boundary follows. -/
def State.leaveStep (s : State) (slot : Nat) (ran : Bool) : State :=
  match s.gaf.running with
  | none => s
  | some r =>
    let s := if ran then s else { s with tel := { s.tel with wasted := slot :: s.tel.wasted } }
    let rows := r.rows.filter (fun w => w.slot != slot)
    if rows.isEmpty then s.boundary r true
    else { s with gaf := { s.gaf with running := some { r with rows := rows } } }

/-- A SESS_CLOSE that waited for the end of the step takes effect (R76, R80). -/
def State.closePending (s : State) (slot : Nat) : State :=
  match (s.session? slot).bind (·.closing) with
  | some id => opSessClose (s.onSession slot (fun x => { x with closing := none })) id slot
  | none => s

/-- The commit of a session of the running step, with the version that it writes. -/
def State.commitRow (s : State) (row : StepRow) (x : Session) (forced : Bool) : State :=
  let l := s.layoutOf x
  let fp := (s.model x.rec'.params.model).fp
  let cfg := s.cfgOf x row.decode
  let run := x.input.take row.count
  let r0 := x.rec'
  let ctx0 := s.context x
  let fill := match x.tail? with
    | some e => e.count
    | none => 256
  let page := x.table.length - 1
  let page := if x.table.isEmpty then 0 else page
  let fill := if x.table.isEmpty then 0 else fill
  let out := runRows fp cfg run page fill r0.nextPos { slots := [], context := ctx0, recur := r0.recur }
  let oldIdx := (s.heldSlots x).map (·.index)
  let before := oldIdx.take (oldIdx.length - x.adopted)
  let added := oldIdx.drop (oldIdx.length - x.adopted) ++ out.slots.map (·.index)
  let env : RowEnv := { model := s.model r0.params.model, params := r0.params, points := s.exitPoints x, fp := fp, cfg := cfg,
                        ctx := out.context }
  let weights := if row.decode then decodeWeights env (addSlots (s.pageViews x) out.slots) out.slots else []
  let mass := massFrom weights
  let (scores, removed) := scoreUpdate (s.decayShift x.tenant) r0.params r0.scores mass before added
  let tailOld := match x.tail? with
    | some e => r0.tailTokens.take e.count
    | none => []
  let words := tailOld ++ run.map InPos.word
  let s := s.bump .EVIC_TABLE_DROPS_COUNT 0 removed
  let s := s.writeKv row x out.slots
  let s := s.heapGive x.tenant (inputBytes run + 4 * x.adopted)
  let s := s.onSession row.slot (fun y => { y with
    input := y.input.drop row.count, inputPend := decide (row.count < y.input.length),
    steps := satAdd 32 y.steps 1, adopted := 0, lastStep := s.tick })
  let r : StepRec := { r0 with
    stepSeq := r0.stepSeq + 1, nextPos := r0.nextPos + row.count, held := x.positions + row.count,
    recurLen := l.recurBytes, recur := out.recur, scores := scores,
    tailTokens := words.drop (words.length / 256 * 256) }
  -- ends at this commit: a STEP that waited for its last token, and MAX_NEW 0
  let s := s.endEnded row.slot
  let s := match (s.session? row.slot).bind (fun y => y.stepReq.map (fun q => (y, q))) with
    | some (y, q) => if q.maxNew = 0 ∧ y.input.isEmpty then s.endStep row.slot .ok 6 else s
    | none => s
  -- the sampling row
  let sampled := match s.session? row.slot with
    | some y => match y.stepReq with
      | some q => if row.last && y.genReq && (row.sampling || y.input.isEmpty) then
          s.sampleRow y r q out.context cfg else Sampled.nothing
      | none => Sampled.nothing
    | none => Sampled.nothing
  let (s, r, dead) := match sampled with
    | .nothing => (s, r, false)
    | .dead c => ((s.countChoice c).endStep row.slot .deadEnd 8, c.record, true)
    | .ends d => (s.endStep row.slot .ok d, r, false)
    | .token c t =>
      match (s.session? row.slot).bind (·.stepReq) with
      | some q => let (s, r) := s.emitToken row.slot q c t; (s, r, false)
      | none => (s, r, false)
  -- the version, seals and the index
  let s := match s.session? row.slot with
    | none => s
    | some y =>
      match forced, y.freeVersion with
      | false, some v => s.setSession row.slot (y.writeVersion v r)
      | _, _ => s.forceVersion row.slot r
  let s := sealFull s row.slot words 4096 (if x.tail?.isSome then x.table.length - 1 else x.table.length)
  let s := (s.useLease row.slot).unlockEntry row.slot
  let s := (s.crossing row.slot (x.positions - x.adopted)).dueCompaction row.slot
  let s := s.settleRun row.slot dead
  let s := s.closePending row.slot
  s.leaveStep row.slot true

/-- A commit that finds no version waits (R149). -/
def State.commitOrWait (s : State) (row : StepRow) (x : Session) : State :=
  if !s.leaseOk x then s.awaitLease row.slot
  else match x.freeVersion with
    | some _ => (s.endVerWait row.slot).commitRow row { x with verWait := none } false
    | none => s.beginVerWait row.slot

/-- The row of the running step for a slot. -/
def State.rowOf (s : State) (slot : Nat) : Option StepRow :=
  s.gaf.running.bind (fun r => r.rows.find? (fun w => w.slot == slot))

/-- The row STEP_COMMIT: the session in `slot` ends its step. -/
def execStepCommit (slot : Nat) (s : State) : Host.Outcome State Fault Refusal :=
  .next (match s.rowOf slot, s.session? slot with
    | some row, some x => if s.freeze = 2 then s else s.commitOrWait row x
    | _, _ => s)

/-- The row VERSION_WAIT_TIMEOUT (R149). -/
def execVersionWaitTimeout (slot : Nat) (s : State) : Host.Outcome State Fault Refusal :=
  .next (match s.rowOf slot, s.session? slot with
    | some row, some x =>
      match x.verWait with
      | none => s
      | some t =>
        if t + 50000 ≤ s.tick then (s.endVerWait slot).commitRow row { x with verWait := none } true else s
    | _, _ => s)

/-- A completion slot frees for a STEP's intermediate completion: it is written and the session may join steps again (R48). -/
def State.partialFree (s : State) (slot : Nat) : State :=
  match s.session? slot with
    | none => s
    | some x =>
      if !x.heldBack then s
      else match x.stepReq, x.ended with
        | some q, _ =>
          let s := s.setSession slot { x with heldBack := false }
          let (s, q) := s.writePartial slot q
          s.onSession slot (fun y => { y with stepReq := some q })
        | none, some (q, d) =>
          let s := s.setSession slot { x with heldBack := false }
          let (s, q) := s.writePartial slot q
          s.onSession slot (fun y => { y with ended := some (q, d) })
        | none, none => s.setSession slot { x with heldBack := false }

/-! ## GAF_CTRL.EN and steps that end without commit (R225, R281) -/

/-- The row GAF_ENABLE, with the value written. -/
def execGafEnable (en : Bool) (s : State) : Host.Outcome State Fault Refusal :=
  let s := s.touch
  .next (if !s.live then s
    else if en then
      if s.pageState pgGaf = 0 then s.enableBlock pgGaf
      else if s.enabled pgGaf then s.setEn pgGaf true else s
    else if !s.enabled pgGaf then s
    else if s.gaf.running.isSome then s.setEn pgGaf false
    else s.disableBlock pgGaf)

/-- A session leaves a step without commit: pages allotted for it go, it is RUNNABLE again, from its newest committed
version (R225, R396). -/
def State.abortRow (s : State) (row : StepRow) : State :=
  let s := (row.cow.toList ++ row.allotted).foldl State.decRef s
  let s := (s.unadopt row.slot).unlockEntry row.slot
  let s := match s.session? row.slot with
    | some x => if x.runState = RunState.running then s.becomeRunnable row.slot else s
    | none => s
  ((s.dueCompaction row.slot).onSession row.slot (fun x => { x with verWait := none, leaseWait := false })).closePending row.slot

/-- The running step ends without commit for every session still in it. -/
def State.abortStep (s : State) : State :=
  match s.gaf.running with
  | none => s
  | some r =>
    let s := r.rows.foldl State.abortRow s
    (s.boundary r false).recErr pgGaf 0x0001

/-- A composed step that has not started is undone. -/
def State.dropComposed (s : State) : State :=
  match s.gaf.composed with
  | none => s
  | some r =>
    let s := r.rows.foldl State.abortRow s
    { s.unpinAll r.pins with gaf := { (s.unpinAll r.pins).gaf with composed := none } }

end Sys2Proof.Machine
end

