-- ==== Sys2Proof/Machine/Admission.lean ====
section
/-!
DEFINITION. Descriptors and admission: fetch and validation (R46, R47, R49, R50, R56 to R60, R549), the marker, the queues
with their fair queuing, late drops, sojourn windows and ADM_CTRL.EN (R63, R271 to R279, R282, R283).
-/
namespace Sys2Proof.Machine

/-! ## The opcode table (R42, R50) -/

/-- Use of HANDLE. -/
inductive HandleUse
  | zero | required | optional
  deriving DecidableEq, Repr

/-- What validation knows of an opcode: administrative or tenant ring or both, use of HANDLE, whether the device reads the
payload, the option bits and SPECIFIC byte ranges (low, high) that it defines. -/
structure OpSpec where
  onAdmin : Bool := false
  onTenant : Bool := true
  handle : HandleUse := .zero
  reads : Bool := false
  opts : Nat := 0
  bytes : List (Nat × Nat) := []
  deriving DecidableEq, Repr

/-- The opcode table. -/
def opSpec : Nat → Option OpSpec
  | 0x01 => some { onAdmin := true }
  | 0x02 => some { onAdmin := true, opts := 0x100 }
  | 0x10 => some { reads := true }
  | 0x11 => some { handle := .required }
  | 0x12 => some { handle := .required, reads := true, opts := 0x100, bytes := [(36, 39), (40, 47)] }
  | 0x13 => some { handle := .required }
  | 0x18 => some { handle := .required, reads := true, opts := 0x700 }
  | 0x19 => some { handle := .required, reads := true, opts := 0x600 }
  | 0x1A => some { handle := .required, opts := 0x700, bytes := [(36, 47)] }
  | 0x1B => some { handle := .required, opts := 0xF00, bytes := [(36, 43)] }
  | 0x1C => some { handle := .required }
  | 0x1D => some { handle := .required, opts := 0xF00 }
  | 0x20 => some { handle := .required, opts := 0xF00, bytes := [(36, 51)] }
  | 0x21 => some { opts := 0x300, bytes := [(36, 51)] }
  | 0x22 => some { handle := .required, opts := 0x100, bytes := [(36, 53), (56, 63)] }
  | 0x23 => some { reads := true, bytes := [(36, 53), (56, 63)] }
  | 0x24 => some { handle := .required, opts := 0x700, bytes := [(36, 51)] }
  | 0x30 => some { handle := .optional, reads := true, opts := 0x1F00, bytes := [(36, 51)] }
  | 0x31 => some { handle := .optional, reads := true, bytes := [(36, 43)] }
  | 0x32 => some { reads := true, opts := 0x3F00 }
  | 0x38 => some { handle := .optional, reads := true, opts := 0x100, bytes := [(36, 36), (38, 39)] }
  | 0x39 => some { handle := .optional, reads := true, bytes := [(36, 36), (38, 39)] }
  | 0x3A => some { handle := .optional, reads := true, opts := 0x100, bytes := [(36, 36), (38, 45), (48, 59)] }
  | 0x3B => some { opts := 0x100, bytes := [(36, 36)] }
  | 0x40 => some { onAdmin := true, onTenant := false, opts := 0xF00, bytes := [(36, 38), (40, 55)] }
  | 0x41 => some { onAdmin := true, onTenant := false, bytes := [(36, 36)] }
  | 0x42 => some { reads := true, opts := 0xF00, bytes := [(36, 38)] }
  | 0x43 => some { onAdmin := true, onTenant := false, opts := 0x300, bytes := [(36, 36), (40, 55)] }
  | 0x48 => some { onAdmin := true, onTenant := false, opts := 0x100 }
  | 0x49 => some { onAdmin := true, onTenant := false, opts := 0x300, bytes := [(36, 43)] }
  | 0x50 => some { onAdmin := true, onTenant := false, opts := 0x100, bytes := [(36, 37), (40, 55)] }
  | 0x51 => some { onAdmin := true, onTenant := false, bytes := [(36, 37)] }
  | 0x58 => some { onAdmin := true, onTenant := false, opts := 0x300 }
  | _ => none

/-- The device reads the opcode's payload. -/
def readsPayload (op : Nat) : Bool := ((opSpec op).map (·.reads)).getD false

/-- Largest body of a constraint object of a kind (R302). -/
def bodyLimit (kind : Nat) : Nat :=
  if kind = 1 then 33816580 else if kind = 2 then 167772176 else if kind = 3 then 132 else if kind = 4 then 64
  else 2 ^ 32

/-- Check 4: PAYLOAD_LEN is one that the opcode's chapter allows. -/
def lenOk (d : Desc) : Bool :=
  let n := d.payLen
  match d.opcode with
  | 0x10 | 0x12 | 0x13 => n == 0 || n == 64
  | 0x18 => decide (n ≤ 4194304)
  | 0x19 => n % 4 == 0 && decide (4 ≤ n) && decide (n ≤ 4194304)
  | 0x1A => n == 0 || (n % 4 == 0 && decide (32 ≤ n))
  | 0x23 => n == 0 || n == 8
  | 0x30 | 0x31 => decide (n ≤ 8388608)
  | 0x32 => if d.opt 8 2 = 2 then n == 0 else n % 8 == 0 && decide (n ≤ 262144)
  | 0x38 => decide (n ≤ 9437184)
  | 0x39 => decide (n ≤ 524288)
  | 0x3A => decide (n ≤ 32768)
  | 0x42 => if d.optBit 8 then n == 0 else decide (n ≤ bodyLimit (d.opt 9 3))
  | _ => n == 0

/-- Check 6. -/
def handleOk (u : HandleUse) (d : Desc) : Bool :=
  match u with
  | .zero => d.handle == 0
  | .required => d.handle != 0
  | .optional => d.handle != 0 || !(d.opcode == 0x30 && d.opt 8 2 == 1)

/-- A window range lies inside the ring's allotment; other addresses are not checked (R38, R39). -/
def Ring.rangeOk (r : Ring) (inWindow : Bool) (addr len : Nat) : Bool := !inWindow || r.inAllotment addr len

/-- The offset of a field that fails, once for each failing field. -/
def bad (off : Nat) (ok : Bool) : List Nat := if ok then [] else [off]

/-- An address in ADDR and the space that DEST or SRC names (R127, R131, R217, R284). -/
def addrBad (r : Ring) (off space addr len : Nat) : List Nat :=
  bad 4 (space != 3) ++ bad off (addr % 64 == 0 && r.rangeOk (space == 1) addr len)

/-- Check 9: what an opcode's chapter asks of its fields, as the offsets of those that fail. -/
def State.fieldsBad (s : State) (r : Ring) (d : Desc) : List Nat :=
  match d.opcode with
  | 0x1A =>
    let off := d.specF 47 44
    bad 36 (decide (d.specF 39 36 ≤ 1048576)) ++ bad 32 (d.specF 39 36 == 0 || d.payLen != 0)
      ++ (if d.optBit 10 then
            bad 44 (off % 4 == 0 && decide (20 ≤ off)) ++ bad 32 (decide (off + 4 ≤ d.payLen))
          else bad 44 (off == 0))
  | 0x1B => bad 4 (decide (d.opt 8 3 < 3))
  | 0x1D => bad 4 (d.opt 8 2 != 3)
  | 0x20 | 0x21 | 0x24 => addrBad r 36 (d.opt 8 2) (d.specF 43 36) (d.specF 51 44)
  | 0x22 =>
    let leased := ((s.session? (handleSlot d.handle)).map (fun x =>
      x.leased && x.generation == handleGen d.handle)).getD false
    bad 36 (d.specF 43 36 % 64 == 0) ++ bad 52 (d.specF 53 52 != 0 && d.specF 53 52 != s.reg .FAM_SELF_DEVICE)
      ++ bad 56 (leased || d.specF 63 56 % 8 == 0)
  | 0x30 =>
    let toSession := d.opt 8 2 == 1
    bad 4 (decide (d.opt 8 2 < 2)) ++ bad 36 (decide (1 ≤ d.specF 39 36) && decide (d.specF 39 36 ≤ 65536))
      ++ bad 40 (if toSession then d.specF 47 40 == 0 else d.specF 47 40 % 64 == 0)
      ++ bad 48 (!toSession || d.specF 51 48 == 0)
  | 0x31 => bad 36 (decide (1 ≤ d.specF 39 36) && decide (d.specF 39 36 ≤ 65536))
  | 0x32 =>
    let n := d.opt 10 4
    bad 4 (d.opt 8 2 != 3 && (if d.opt 8 2 = 1 then n == 0 else decide (2 ≤ n) && decide (n ≤ 12)))
  | 0x38 | 0x39 => bad 38 (d.specF 39 38 != 0)
  | 0x3A =>
    bad 38 (decide (1 ≤ d.specF 39 38) && decide (d.specF 39 38 ≤ 256))
      ++ bad 40 (decide (1 ≤ d.specF 41 40) && decide (d.specF 41 40 ≤ 1024))
      ++ bad 42 (decide (1 ≤ d.specF 43 42) && decide (d.specF 43 42 ≤ d.specF 45 44))
      ++ bad 44 (decide (1 ≤ d.specF 45 44) && decide (d.specF 45 44 ≤ 1024))
      ++ bad 48 (d.specF 55 48 % 64 == 0)
  | 0x40 =>
    bad 36 (decide (1 ≤ d.specF 36 36) && decide (d.specF 36 36 ≤ 8)) ++ bad 37 (decide (d.specF 38 37 < 4096))
      ++ addrBad r 40 (d.opt 8 2) (d.specF 47 40) (d.specF 55 48)
  | 0x42 =>
    let kind := d.opt 9 3
    bad 4 (decide (1 ≤ kind) && decide (kind ≤ 4))
      ++ bad 36 (d.specF 37 36 != 0 && (kind != 4 || decide (d.specF 37 36 ≤ 255)))
  | 0x43 =>
    bad 36 (decide (1 ≤ d.specF 36 36) && decide (d.specF 36 36 ≤ 8))
      ++ addrBad r 40 (d.opt 8 2) (d.specF 47 40) (d.specF 55 48)
  | 0x50 => bad 36 (decide (d.specF 37 36 < 4096)) ++ bad 40 (!d.optBit 8 || d.specF 55 40 == 0)
  | 0x51 => bad 36 (decide (d.specF 37 36 < 4096))
  | 0x58 => bad 4 (d.opt 8 2 != 3)
  | _ => []

/-- Check 9: reserved options and SPECIFIC bytes, and the opcode's own fields. -/
def State.check9 (s : State) (r : Ring) (o : OpSpec) (d : Desc) : List Nat :=
  let opts := (List.range 24).all (fun i => !d.optBit (i + 8) || bitAt o.opts (i + 8))
  let spare := (List.range 28).filter (fun i =>
    ((d.spec[i]?).getD 0) != 0 && o.bytes.all (fun b => decide (i + 36 < b.1) || decide (b.2 < i + 36)))
  bad 4 opts ++ spare.map (· + 36) ++ s.fieldsBad r d

/-- The lowest of some offsets. -/
def lowest : List Nat → Nat
  | [] => 0
  | [a] => a
  | a :: l => min a (lowest l)

/-- Check 10: the payload can be read, and no entry of an APPEND_TOKENS has a bit above [17:0] (R300). Window memory can
always be read. -/
def State.payloadOk (s : State) (o : OpSpec) (d : Desc) (readable : Bool) : Bool :=
  !o.reads || d.payLen == 0 ||
    ((d.inWindow || readable) &&
      (d.opcode != 0x19 || (List.range (d.payLen / 4)).all (fun i =>
        decide (leNat (s.readMem d.inWindow (d.payAddr + 4 * i) 4) < 2 ^ 18))))

/-- The checks of R56 in order: the status, DETAIL of the first that fails. -/
def State.validate (s : State) (r : Ring) (d : Desc) (readable : Bool) : Option (Status × Nat) :=
  match opSpec d.opcode with
  | none => some (.invalid, 0x100)
  | some o =>
    if (if r.admin then o.onAdmin else o.onTenant) = false then some (.security, 0x1FF)
    else if bitsOf d.flags 3 5 ≠ 0 then some (.invalid, 0x201)
    else if bitsOf d.opts 3 5 ≠ 0 then some (.invalid, 0x204)
    else if lenOk d = false then some (.invalid, 0x320)
    else if d.payLen ≠ 0 ∧ r.rangeOk d.inWindow d.payAddr d.payLen = false then some (.invalid, 0x418)
    else if handleOk o.handle d = false then some (.invalid, 0x608)
    else if d.handle ≠ 0 ∧ handleCheck d.handle ≠ d.handle % 256 then some (.invalid, 0x508)
    else if d.handle ≠ 0 ∧ handleTenant d.handle ≠ r.tenant then some (.security, 0x2FF)
    else
      match s.check9 r o d with
      | [] => if s.payloadOk o d readable then none else some (.invalid, 0x8FF)
      | l => some (.invalid, 0x700 + lowest l)

/-! ## Queues and the marker (R271 to R274) -/

/-- Queue index: tenant × 8 + class. -/
def Cmd.queue (c : Cmd) : Nat := c.tenant * 8 + c.desc.cls

/-- A queue of the shaper. -/
def State.admQ (s : State) (q : Nat) : AdmQueue := (s.adm.queues.get? q).getD {}

def State.setAdmQ (s : State) (q : Nat) (a : AdmQueue) : State :=
  { s with adm := { s.adm with queues := s.adm.queues.set q a } }

/-- Length of a command (R272). -/
def State.cmdLen (s : State) (d : Desc) : Nat :=
  (if readsPayload d.opcode then d.payLen else 0) + s.reg .ADM_CLASS_OVERHEAD d.cls

/-- One bucket filled for `dt` ticks at `rate` kB/s up to `size` bytes: 65,536 units a byte, and the part of a unit left over
in units of a millionth. -/
def fillBucket (level left rate size dt : Nat) : Nat × Nat :=
  let n := left + rate * 65536 * dt
  (min (size * 65536) (level + n / 1000000), n % 1000000)

/-- The buckets of a queue at the present tick. -/
def State.fillQueue (s : State) (q : Nat) (a : AdmQueue) : AdmQueue :=
  let dt := s.tick - a.filledAt
  let c := fillBucket a.tc a.remC (s.reg .ADM_Q_CIR_KBPS q) (s.reg .ADM_Q_CBS_BYTES q) dt
  let p := fillBucket a.tp a.remP (s.reg .ADM_Q_PIR_KBPS q) (s.reg .ADM_Q_PBS_BYTES q) dt
  { a with tc := c.1, remC := c.2, tp := p.1, remP := p.2, filledAt := s.tick }

/-- The pre-colour that the ring of a command has (R273, R282): 0 green, 1 yellow, 2 red. -/
def State.preColour (s : State) (q ring : Nat) : Nat :=
  if s.regBit .ADM_Q_MODE_COLOUR_AWARE q then
    let c := bitsOf (s.reg .ADM_RING_COLOUR_COLOUR (ring / 16)) (2 * (ring % 16)) 2
    if c = 3 then 0 else c
  else 0

/-- Mark a command of length `l`: its colour and the queue with its buckets charged (R273). -/
def State.mark (s : State) (q ring l : Nat) (a : AdmQueue) : Nat × AdmQueue :=
  if s.regBit .ADM_Q_MODE_POLICED q then
    let a := s.fillQueue q a
    let n := l * 65536
    let pre := s.preColour q ring
    if pre = 2 ∨ a.tp < n then (2, a)
    else if pre = 1 ∨ a.tc < n then (1, { a with tp := a.tp - n })
    else (0, { a with tp := a.tp - n, tc := a.tc - n })
  else (0, a)

/-- Sum of L of the commands queued. -/
def State.depthBytes (s : State) (a : AdmQueue) : Nat := (a.cmds.map (fun i => ((s.cmd? i).map (·.len)).getD 0)).sum

/-- Depth limit of a queue, 1 to 65,536 (R282). -/
def State.maxCmds (s : State) (q : Nat) : Nat := min 65536 (max 1 (s.reg .ADM_Q_MAX_CMDS_COUNT q))

/-- The drop rule that applies after marking: DETAIL [7:0], or 0 (R274). -/
def State.dropRule (s : State) (q colour l : Nat) (a : AdmQueue) : Nat :=
  let police := s.regBit .ADM_CFG_POLICE_EN
  if police && colour == 2 then 1
  else if police && colour == 1 && decide (s.reg .ADM_Q_YELLOW_MAX_BYTES q < s.depthBytes a + l) then 2
  else if s.maxCmds q ≤ a.cmds.length then 3
  else 0

/-- Count a colour. -/
def State.countColour (s : State) (q colour : Nat) : State :=
  if colour = 0 then s.bump .ADM_Q_GREEN_COUNT q
  else if colour = 1 then s.bump .ADM_Q_YELLOW_COUNT q else s.bump .ADM_Q_RED_COUNT q

/-- Whether a class is in the urgent group. -/
def State.urgentClass (s : State) (cls : Nat) : Bool := s.regBit .ADM_CLASS_URGENT cls

/-- Virtual time of the group of a class. -/
def State.vtOf (s : State) (cls : Nat) : Nat := if s.urgentClass cls then s.adm.vtUrgent else s.adm.vtNormal

/-- Put a command into its queue with its finish tag (R275). -/
def State.enqueue (s : State) (id q : Nat) (c : Cmd) (a : AdmQueue) (colour l : Nat) : State :=
  let start := if a.cmds.isEmpty then s.vtOf c.desc.cls else a.lastFinish
  let fin := (start + ceilDiv (l * 256) (max 1 (s.reg .ADM_Q_WEIGHT_WEIGHT q))) % 2 ^ 64
  let s := s.setAdmQ q { a with cmds := a.cmds ++ [id], lastFinish := fin, active := true }
  let s := s.onCmd id (fun c => { c with phase := .queued, colour := colour, len := l, finish := fin })
  s.bump .ADM_ACCEPTED_COUNT

/-- A command of a tenant ring is marked, and dropped or queued (R273, R274). -/
def State.admitTenant (s : State) (id : Nat) (c : Cmd) : State :=
  let q := c.queue
  let l := s.cmdLen c.desc
  let (colour, a) := s.mark q c.ring l (s.admQ q)
  let s := (s.setAdmQ q a).countColour q colour
  let rule := s.dropRule q colour l a
  if rule = 0 then s.enqueue id q c a colour l
  else
    let s := if rule = 1 then s.setIntBit pgAdm 8
      else (s.bump .ADM_Q_DEPTH_DROPS_COUNT q).setIntBit pgAdm 9
    (s.bump .ADM_DROPPED_COUNT).complete id .policedDrop (rule + 256 * colour)

/-- The session that a command's handle names now. -/
def State.named (s : State) (d : Desc) : Option Nat :=
  if d.handle = 0 then none
  else match s.session? (handleSlot d.handle) with
    | some x => if x.generation = handleGen d.handle then some (handleSlot d.handle) else none
    | none => none

/-- The session at the acceptance of a command: the tick of its last accepted command (R135, R140), and WAIT_HELD where a TOOL_WAIT
finds it not at rest (R80). -/
def Session.accepting (x : Session) (op tick : Nat) : Session :=
  { x with lastCmd := tick, waitHeld := x.waitHeld || (op == 0x1B && (x.runState == .runnable || x.runState == .running)) }

/-- What the acceptance of a command of a session does at once: besides the session's own fields, a promoting command ends a
downward move (R81), and a PARK starts its writeback (R147). -/
def State.onAccept (s : State) (id : Nat) : State :=
  match s.cmd? id with
  | none => s
  | some c =>
    if c.phase ≠ .queued then s
    else match s.named c.desc with
      | none => s
      | some k =>
        let s := s.onSession k (fun x => x.accepting c.desc.opcode s.tick)
        let s := if promotes c.desc.opcode then s.cancelDown k else s
        if c.desc.opcode = 0x1D then s.parkAccepted id c else s

/-- A command that passed validation is admitted, or waits while ADM_CTRL.EN is 0 (R271, R283). -/
def State.takeIn (s : State) (id : Nat) (c : Cmd) : State :=
  if c.admin then
    (({ s with adm := { s.adm with adminQ := s.adm.adminQ ++ [id] } }).onCmd id (fun c => { c with phase := .queued })).bump
      .ADM_ACCEPTED_COUNT
  else if s.enabled pgAdm then (s.admitTenant id c).onAccept id
  else ({ s with adm := { s.adm with held := s.adm.held ++ [id] } }).onCmd id (fun c => { c with phase := .unadmitted })

/-! ## DESCRIPTOR_FETCH (R44 to R47, R56) -/

/-- The bytes of the descriptor at SQ_HEAD: a pushed one, or those in the ring's memory (R44, R46). -/
def State.nextDescriptor (s : State) (r : Ring) : List Byte :=
  match r.pushed with
  | some (n, bs) => if n = r.sqHead.toNat then bs
      else s.readMem r.sqInWindow (r.sqBase + 64 * (r.sqHead.toNat % 2 ^ r.sqLog2)) 64
  | none => s.readMem r.sqInWindow (r.sqBase + 64 * (r.sqHead.toNat % 2 ^ r.sqLog2)) 64

/-- A ring whose next descriptor can be fetched (R43, R47). -/
def Ring.mayFetch (r : Ring) : Bool :=
  r.state == .enabled && r.waiting != 0 && decide (r.outstanding + r.unread < 2 ^ r.cqLog2)

/-- The ring's page after a fetch. -/
def Ring.fetched (r : Ring) : Ring :=
  { r with sqHead := r.sqHead + 1, outstanding := r.outstanding + 1,
           pushed := match r.pushed with
             | some (n, bs) => if n = r.sqHead.toNat then none else some (n, bs)
             | none => none }

/-- A descriptor is fetched, validated, and completed or admitted. -/
def State.fetch (s : State) (n : Nat) (readable : Bool) : State :=
  let r := s.ring n
  let d := Desc.ofBytes (s.nextDescriptor r)
  let s := s.setRing n r.fetched
  match s.validate r d readable with
  | some (st, detail) => (s.writeCompletion n d st detail d.handle 0).release n
  | none =>
    let id := s.nextCmd
    let c : Cmd := { ring := n, seq := r.sqHead.toNat, desc := d, tenant := r.tenant, admin := r.admin,
                     acceptTick := s.tick }
    let s := { s with cmds := s.cmds.set id c, nextCmd := id + 1 }
    (s.bump .ADM_TEN_SUBMITTED_COUNT r.tenant).takeIn id c

/-- The row DESCRIPTOR_FETCH: `readable` tells whether a payload in host memory can be read (check 10). -/
def execDescriptorFetch (ring : BitVec 8) (readable : Bool) (s : State) : Host.Outcome State Fault Refusal :=
  let s := s.touch
  .next (if s.live && (s.ring ring.toNat).mayFetch then s.fetch ring.toNat readable else s)

/-! ## COMMAND_DEQUEUE (R63, R275, R276) -/

/-- The engine that executes an opcode (R276). -/
def engineOf (op : Nat) : Nat :=
  if op < 0x10 then 0 else if op < 0x20 then 1 else if op < 0x30 then 2 else if op < 0x38 then 3 else if op < 0x40 then 4
  else if op = 0x42 then 5 else if op < 0x48 then 6 else if op < 0x50 then 7 else if op < 0x58 then 8 else 9

/-- The engine can take a further command: it holds those dequeued that have not taken effect. -/
def State.engineFree (s : State) (op : Nat) : Bool :=
  decide ((s.cmds.values.filter (fun c => c.phase == .started && engineOf c.desc.opcode == engineOf op)).length
    ≤ Config.engineRoom (engineOf op))

/-- Not yet dequeued. -/
def Cmd.undequeued (c : Cmd) : Bool := c.phase == .queued || c.phase == .unadmitted

/-- Every command of the same session accepted before has been dequeued; SESS_QUERY stands outside (R276). -/
def State.inTurn (s : State) (id : Nat) (c : Cmd) : Bool :=
  c.desc.handle == 0 || c.desc.opcode == 0x13 ||
    s.cmds.entries.all (fun e => !(decide (e.1 < id) && e.2.desc.handle == c.desc.handle && e.2.undequeued
      && e.2.desc.opcode != 0x13))

/-- The FLAGS.ORDERED and FENCE conditions of R63 that apply are met. -/
def State.orderMet (s : State) (id : Nat) (c : Cmd) : Bool :=
  s.cmds.entries.all (fun e => !(decide (e.1 < id) &&
    ((e.2.ring == c.ring && (c.desc.ordered || c.desc.opcode == 0x02 || e.2.desc.opcode == 0x02))
      || (c.desc.opcode == 0x02 && c.desc.optBit 8 && e.2.phase != .unadmitted && (c.admin || e.2.tenant == c.tenant)))))

/-- A queue's head may be dequeued (R276). -/
def State.eligible (s : State) (id : Nat) : Bool :=
  match s.cmd? id with
  | none => false
  | some c => s.inTurn id c && s.orderMet id c && s.engineFree c.desc.opcode

/-- a precedes b modulo 2^64 (R275). -/
def tagBefore (a b : Nat) : Bool := decide ((b + 2 ^ 64 - a) % 2 ^ 64 < 2 ^ 63) && a != b

/-- The eligible heads of a group: queue, command, finish tag. -/
def State.heads (s : State) (urgent : Bool) : List (Nat × Nat × Nat) :=
  s.adm.queues.entries.filterMap (fun e =>
    match e.2.cmds with
    | id :: _ => if s.urgentClass (e.1 % 8) == urgent && s.eligible id then
        some (e.1, id, ((s.cmd? id).map (·.finish)).getD 0) else none
    | [] => none)

/-- The head of lowest finish; of equal ones the lower queue. -/
def bestHead : List (Nat × Nat × Nat) → Option (Nat × Nat × Nat)
  | [] => none
  | e :: l =>
    match bestHead l with
    | none => some e
    | some f => if tagBefore f.2.2 e.2.2 then some f else some e

/-- The later of two virtual times. -/
def laterTag (a b : Nat) : Nat := if tagBefore a b then b else a

/-- A command leaves its queue and starts: sojourn figures, directory lookup (R77, R278). -/
def State.startCmd (s : State) (id : Nat) : State :=
  let s := s.onCmd id (fun c => { c with phase := .started, startTick := s.tick, progressTick := s.tick })
  match s.cmd? id with
  | some c => if c.desc.handle = 0 then s else s.lookup (handleSlot c.desc.handle)
  | none => s

/-- Dequeue a tenant queue's head. -/
def State.dequeue (s : State) (urgent : Bool) (q id fin : Nat) : State :=
  let soj := s.tick - ((s.cmd? id).map (·.acceptTick)).getD 0
  let a := s.admQ q
  let s := s.setAdmQ q { a with cmds := a.cmds.drop 1, curMax := max a.curMax soj, curSum := a.curSum + soj,
                                curCount := a.curCount + 1 }
  let s := { s with adm := if urgent then { s.adm with vtUrgent := laterTag s.adm.vtUrgent fin }
                           else { s.adm with vtNormal := laterTag s.adm.vtNormal fin } }
  (s.setReg .ADM_Q_SOJ_LAST_TICKS (min soj (2 ^ 32 - 1)) q).startCmd id

/-- The tenant queues: the urgent group ahead of the normal group. -/
def State.dequeueGroups (s : State) : State :=
  match bestHead (s.heads true) with
  | some (q, id, f) => s.dequeue true q id f
  | none =>
    match bestHead (s.heads false) with
    | some (q, id, f) => s.dequeue false q id f
    | none => s

/-- One dequeue decision: the administrative queue first, then the urgent group, then the normal group. -/
def State.dequeueNext (s : State) : State :=
  match s.adm.adminQ with
  | id :: rest =>
    if s.eligible id then ({ s with adm := { s.adm with adminQ := rest } }).startCmd id else s.dequeueGroups
  | [] => s.dequeueGroups

/-- The row COMMAND_DEQUEUE: admission dequeues nothing while a checkpoint quiesces the device, a restore runs (log entry 41),
or it shuts down (R416, R494). -/
def execCommandDequeue (s : State) : Host.Outcome State Fault Refusal :=
  .next (if s.freeze = 0 ∧ s.ckp.restore.isNone = true ∧ s.pageState pgGlb = 1 then s.dequeueNext else s)

/-! ## LATE_DROP (R277) -/

/-- The first queued command of a DROP_LATE class whose deadline has passed. -/
def State.lateCmd (s : State) : Option (Nat × Cmd) :=
  s.cmds.find? (fun _ c => c.phase == .queued && !c.admin && s.regBit .ADM_CLASS_DROP_LATE c.desc.cls
    && c.desc.deadline != 0 && decide (c.desc.deadline < s.tick))

/-- Take a command out of its queue. -/
def State.unqueue (s : State) (id : Nat) (c : Cmd) : State :=
  let a := s.admQ c.queue
  s.setAdmQ c.queue { a with cmds := a.cmds.filter (· != id) }

/-- A session's WAIT_HELD is 1 while a TOOL_WAIT waits for it to become IDLE (R72): one that has ended, or was dropped, no longer
does. -/
def State.settleHeld (s : State) (id : Nat) (c : Cmd) : State :=
  if c.desc.opcode = 0x1B ∧ (s.cmd? id).isNone then
    s.onSession (handleSlot c.desc.handle) (fun x => { x with
      waitHeld := x.waitHeld
        && s.cmds.values.any (fun e => e.desc.opcode == 0x1B && e.desc.handle == c.desc.handle && e.phase != .running) })
  else s

/-- Drop a command late. -/
def State.dropLate (s : State) (id : Nat) (c : Cmd) : State :=
  let s := s.unqueue id c
  let s := match s.named c.desc with
    | some k => s.onSession k (fun x => { x with misses := satAdd 16 x.misses 1 })
    | none => s
  (((s.complete id .deadlineMissed 0x0A).settleHeld id c).bump .ADM_DROPPED_COUNT).setIntBit pgAdm 10

/-- The row LATE_DROP. -/
def execLateDrop (s : State) : Host.Outcome State Fault Refusal :=
  .next (match s.lateCmd with
    | some (id, c) => s.dropLate id c
    | none => s)

/-! ## Sojourn windows (R278) -/

/-- Ticks of a sojourn window. -/
def State.sampleTicks (s : State) : Nat := max 1 (s.reg .ADM_SAMPLE_US) * 1000

/-- The queue record of a dump (R516). -/
def State.queueRecord (s : State) (q : Nat) (a : AdmQueue) : List Byte :=
  leBytes q 4 ++ leBytes a.cmds.length 4 ++ leBytes (s.depthBytes a) 4 ++ leBytes (s.reg .ADM_Q_SOJ_LAST_TICKS q) 4
    ++ leBytes (min a.curMax (2 ^ 32 - 1)) 4 ++ leBytes a.curCount 4 ++ leBytes a.curSum 8 ++ leBytes s.tick 8 ++ leBytes 0 8

/-- Keep a queue record until the next snapshot, or drop it (R517). -/
def State.keepRecord (s : State) (r : List Byte) : State :=
  if s.tel.qrecs.length < s.reg .TEL0_DUMP_QREC_MAX_COUNT then { s with tel := { s.tel with qrecs := s.tel.qrecs ++ [r] } }
  else { s.bump .TEL0_QREC_DROPS_COUNT with tel := { s.tel with qlost := true } }

/-- The sojourn window ends: every queue's figures are latched, and those of the queues that were non-empty are handed to
the dumps; a tenant that is CLOSING or FINING gives no queue records (R517). -/
def State.sampleEnd (s : State) : State :=
  let qs := s.adm.queues.entries
  let s := qs.foldl (fun s e =>
    ((s.setReg .ADM_Q_SOJ_MAX_TICKS (min e.2.curMax (2 ^ 32 - 1)) e.1).setReg .ADM_Q_SOJ_SUM_TICKS e.2.curSum e.1).setReg
      .ADM_Q_SOJ_COUNT_COUNT e.2.curCount e.1) s
  let s := if s.enabled pgTel then
      ((qs.filter (fun e => e.2.active && s.tenantOpen (e.1 / 8))).map (fun e => s.queueRecord e.1 e.2)).foldl
        State.keepRecord s
    else s
  { s with adm := { s.adm with
      queues := s.adm.queues.map (fun _ a => { a with
                                                     curMax := 0, curSum := 0, curCount := 0,
                                                     active := !a.cmds.isEmpty }),
      windowEnd := (s.tick / s.sampleTicks + 1) * s.sampleTicks } }

/-- The row ADM_SAMPLE_WINDOW_END. -/
def execAdmSampleWindowEnd (s : State) : Host.Outcome State Fault Refusal :=
  .next (if s.adm.windowEnd ≤ s.tick then s.sampleEnd else s)

/-! ## ADM_CTRL.EN (R283) -/

/-- Mark and queue the commands that waited, in acceptance order. -/
def State.admitHeld (s : State) : State :=
  let l := s.adm.held
  l.foldl (fun s id => match s.cmd? id with
    | some c => (s.admitTenant id c).onAccept id
    | none => s) { s with adm := { s.adm with held := [] } }

/-- The row ADM_ENABLE, with the value written. -/
def execAdmEnable (en : Bool) (s : State) : Host.Outcome State Fault Refusal :=
  let s := s.touch
  .next (if !s.live then s
    else if en then (if s.pageState pgAdm ≠ 0 then s else (s.enableBlock pgAdm).admitHeld)
    else if s.pageState pgAdm ≠ 1 then s
    else s.disableBlock pgAdm)

end Sys2Proof.Machine
end

