-- ==== Sys2Proof/Machine/Images.lean ====
section
/-!
DEFINITION. The state tiles of a session as they lie on flash and in a pool, with the header that each carries there (R101 to R103,
R118, R446, R447).
-/
namespace Sys2Proof.Machine

/-! ## State tiles and their headers (R101 to R103, R118, R447) -/

/-- Bytes [15:0] of the header of a tile: OBJECT is the page's UID, or the session handle. -/
def State.tileHead (s : State) (x : Session) (slot : Nat) (t : MTile) (compressed last : Bool) (stored : Nat) : List Byte :=
  let object := match t.kind with
    | .kv | .metadata => ((s.page? t.page).map (·.uid)).getD 0
    | .stepRecord | .pageTable => x.handle slot
  let format := if t.kind = .kv then (s.layoutOf x).kvFormat else 0
  leBytes t.kind.code 1 ++ leBytes format 1 ++ leBytes (b2n compressed + 2 * b2n last) 1 ++ leBytes t.index 1 ++ leBytes stored 4
    ++ leBytes object 8

/-- The last tile of its object among some tiles. -/
def lastTile (l : List MTile) (t : MTile) : Bool :=
  l.all (fun u => !(u.kind == t.kind && u.page == t.page) || decide (u.index ≤ t.index))

/-- A tile on flash: units of 4 KiB from an address on, the last filled up with zeros, each encrypted under the tenant's flash key with
its address as the tweak (R446; the filling and the unit of the address are the model's, log entry 136). -/
def flashCipher (key : List Byte) (addr : Nat) (text : List Byte) : List Byte :=
  let units := chunks 4096 text.length text
  ((List.range units.length).zip units).flatMap (fun (i, u) => xtsSeal key (addr + 4096 * i) (zeroFill 4096 u))

/-- A tile as it is compressed for flash, its length, and whether it is (R119). -/
def State.flashForm (s : State) (x : Session) (t : MTile) : List Byte × Nat × Bool :=
  let text := s.tileBytes x t
  let block := lz4Coded ((s.layoutOf x).tileFormat t.kind) text
  let (n, z) := storedForm true block t.raw
  (if z then block else text, n, z)

/-- The header in the spare area of a flash unit: the tag is the AES-CMAC under the tenant's tag key over bytes [15:0], the flash
address and the ciphertext. -/
def State.flashHeader (s : State) (x : Session) (slot : Nat) (l : List MTile) (t : MTile) (addr : Nat) : List Byte :=
  let (form, n, z) := s.flashForm x t
  let h := s.tileHead x slot t z (lastTile l t) n
  let k := s.tenant x.tenant
  h ++ cmac k.tagKey (h ++ leBytes addr 8 ++ flashCipher k.flashKey addr form)

/-- The header of a tile at an address of a pool extent, where no tile is compressed, and its ciphertext: GCM under the tenant pool
key, with the address and its location's generation as the nonce and bytes [15:0] as the additional data (R447). -/
def State.poolSeal (s : State) (x : Session) (slot : Nat) (l : List MTile) (t : MTile) (addr : Nat) : List Byte × List Byte :=
  let h := s.tileHead x slot t false (lastTile l t) t.raw
  let (cipher, tag) := gcmSeal (s.tenant x.tenant).poolKey (s.poolNonce addr) h (s.tileBytes x t)
  (h ++ tag, cipher)

def State.poolHeader (s : State) (x : Session) (slot : Nat) (l : List MTile) (t : MTile) (addr : Nat) : List Byte :=
  (s.poolSeal x slot l t addr).1

/-- The header array at the start of a session's pool extent, from its tiles and their addresses. -/
def State.poolHeaders (s : State) (x : Session) (slot : Nat) (l : List (MTile × Nat)) : List Byte :=
  l.flatMap (fun (t, a) => s.poolHeader x slot (l.map (·.1)) t a)

/-- The tiles of a session that a tier holds, in the order of a capsule's sections (R124): step record, page table, metadata, KV. -/
def State.storedTiles (s : State) (x : Session) : List MTile :=
  let pages := s.tilesOf x.frames
  srTileList (s.layoutOf x).srTiles ++ [ptTile] ++ pages.filter (fun t => t.kind == .metadata) ++ pages.filter (fun t => t.kind == .kv)

end Sys2Proof.Machine
end

