-- ==== Sys2Proof/Machine/Fabric.lean ====
section
/-!
DEFINITION. The fabric ports, peer messages, and how links come and go (R370 to R379, R384
to R390, R393, R404 to R407).
-/
namespace Sys2Proof.Machine

/-! ## Sending peer messages (R384, R387) -/

/-- What the 32 request engines are assigned to (R381). -/
inductive FabUser
  | lease | checkpoint | mover | embedding | loads
  deriving DecidableEq, Repr

def FabUser.engines : FabUser → List Nat
  | .lease => [0, 1]
  | .checkpoint => [2, 3]
  | .mover => (List.range 24).map (· + 4)
  | .embedding => [28, 29]
  | .loads => [30, 31]

/-- Requests outstanding on an engine; lease operations, one for each word, are counted on engine 0 (log entry 123). -/
def State.engineLoad (s : State) (e : Nat) : Nat :=
  (s.fam.reqs.values.filter (fun r => r.engine == e)).length + (if e = 0 then s.fam.cas.size else 0)

/-- The engine of a user that a request takes: the one with the fewest outstanding, the lower number among equals, none where each
has 512 (R381; log entry 123). -/
def State.freeEngine (s : State) (u : FabUser) : Option Nat :=
  let best := u.engines.foldl (fun (b : Option Nat) e => match b with
    | some f => if s.engineLoad e < s.engineLoad f then some e else some f
    | none => some e) none
  best.filter (fun e => decide (s.engineLoad e < 512))

/-- Requests outstanding to a target device. -/
def State.targetLoad (s : State) (device : Nat) : Nat :=
  (s.fam.reqs.values.filter (fun r => r.device == device)).length
    + (s.fam.cas.keys.filter (fun a => s.atDevice a 8 device)).length

/-- Messages incomplete at a receiver. -/
def State.incomplete (s : State) (device : Nat) : Nat := (s.fam.reqs.values.filter (fun r => r.device == device)).length

/-- A message to a receiver can be issued: at most 15 are incomplete there, the receiver is not quiet, fewer than FAM_TGT_LIMIT
requests are outstanding to it, and an engine has room (R381, R387, R388). -/
def State.canIssue (s : State) (device : Nat) : Bool :=
  decide (s.incomplete device < 16) && !s.isQuiet device && decide (s.targetLoad device < s.reg .FAM_TGT_LIMIT_COUNT)
    && (s.freeEngine .lease).isSome

/-- The port on which a message to a device would leave now. -/
def State.peerPort (s : State) (device : Nat) : Option Nat := (s.peerEntry device).bind (fun i => s.portFor i device 0)

/-- A request leaves on its port: counted, and sent. -/
def State.leave (s : State) (r : Req) : State :=
  match r.port with
  | some n => { s.countReq (some n) with out := OutMsg.peer r.device r.msg :: s.out }
  | none => s

/-- Issue the write of a peer message: it leaves on its port, or waits for a usable one (R378). -/
def State.issuePeer (s : State) (device : Nat) (m : PeerMsg) : State :=
  let n := s.fam.nextReq
  let r : Req := { device := device, engine := (s.freeEngine .lease).getD 0, msg := m, port := s.peerPort device, since := s.tick }
  let s := { s with fam := { s.fam with reqs := s.fam.reqs.set n r, nextReq := n + 1 } }
  (s.leave r).bump .FAM_MSG_SENT_COUNT

/-- Requests that wait at issue for a usable port leave, where there is one now. -/
def State.leaveWaiting (s : State) : State :=
  (s.fam.reqs.entries.filter (fun e => e.2.port.isNone && e.2.resendAt.isNone)).foldl (fun s e =>
    match s.peerPort e.2.device with
    | none => s
    | some k =>
      let r := { e.2 with port := some k }
      let s := { s with fam := { s.fam with reqs := s.fam.reqs.set e.1 r } }
      let s := if r.reissued then s.bump .FAB_REISSUED_COUNT k else s
      s.leave r) s

/-- Hold a message at issue. -/
def State.holdPeer (s : State) (device : Nat) (m : PeerMsg) : State :=
  { s with fam := { s.fam with outbox := s.fam.outbox.set device ((s.fam.outbox.getD device []) ++ [m]) } }

/-- A message is issued now rather than held: none is held before it, and it can be issued. -/
def State.peerFree (s : State) (device : Nat) : Bool := (s.fam.outbox.getD device []).isEmpty && s.canIssue device

/-- Send a peer message; false where no PEER entry names the device or it is refused (R376, R389, R407). -/
def State.sendPeer (s : State) (device : Nat) (kind : MsgKind) (seq epoch table row : Nat) (values : List Word)
    (tenant : Option Nat := none) : Bool × State :=
  if !s.mayReach device then (false, if s.fam.dead.contains device then s.bump .FAM_REFUSED_DEAD_COUNT else s)
  else if (s.peerEntry device).isNone then (false, s.bump .FAM_MAP_MISSES_COUNT)
  else if (s.peerEntry device).any (fun i => !s.streamOk i tenant) then (false, s)
  else
    let q := s.fam.sendSeq.getD device 0
    let m : PeerMsg := { kind := kind, source := s.reg .FAM_SELF_DEVICE, msgSeq := q, seq := seq, epoch := epoch,
                         table := table, row := row, values := values }
    let s := { s with fam := { s.fam with sendSeq := s.fam.sendSeq.set device ((q + 1) % 2 ^ 32) } }
    (true, if s.peerFree device then s.issuePeer device m else s.holdPeer device m)

/-- Issue held messages while they may go. -/
def drainOutbox : Nat → State → Nat → State
  | 0, s, _ => s
  | fuel + 1, s, device =>
    match s.fam.outbox.getD device [] with
    | [] => s
    | m :: rest =>
      if s.canIssue device && s.mayReach device then
        let box := if rest.isEmpty then s.fam.outbox.erase device else s.fam.outbox.set device rest
        drainOutbox fuel (({ s with fam := { s.fam with outbox := box } }).issuePeer device m) device
      else s

/-- Issue what is held for a device. -/
def State.drainPeer (s : State) (device : Nat) : State :=
  drainOutbox ((s.fam.outbox.getD device []).length) s device

/-- A request leaves the table; what it held back issues, for its own target first. -/
def State.endReq (s : State) (n : Nat) (r : Req) : State :=
  let s := ({ s with fam := { s.fam with reqs := s.fam.reqs.erase n } }).drainPeer r.device
  s.fam.outbox.keys.foldl State.drainPeer s

/-! ## Receiving peer messages (R384, R386) -/

/-- A message is the next of its sender in ascending MSG_SEQ, and FAM is ENABLED; then it counts as received. -/
def State.takeMsg (s : State) (m : PeerMsg) : Option State :=
  if s.enabled pgFam ∧ s.fam.recvSeq.getD m.source 0 = m.msgSeq then
    some ({ s.ungate with fam := { s.fam with recvSeq := s.fam.recvSeq.set m.source ((m.msgSeq + 1) % 2 ^ 32) } }.bump
      .FAM_MSG_RECV_COUNT)
  else none

/-- The row QUIET_NOTE (R388): requests to the sender are held until the span ends, 1 ms after the window. -/
def execQuietNote (m : PeerMsg) (s : State) : Host.Outcome State Fault Refusal :=
  .next (match s.takeMsg m with
    | none => s
    | some s =>
      if m.kind = .quietNote then
        { s with fam := { s.fam with quiet := s.fam.quiet.set m.source (s.tick + m.seq * 1000 + 1000000) } }
      else s)

/-- The row QUIET_SPAN_END: requests outstanding to the device get a fresh timeout, and held ones issue. -/
def execQuietSpanEnd (device : Nat) (s : State) : Host.Outcome State Fault Refusal :=
  .next (match s.fam.quiet.get? device with
    | none => s
    | some t =>
      if t ≤ s.tick then
        let reqs := s.fam.reqs.map (fun _ r => if r.device = device then { r with since := s.tick } else r)
        ({ s with fam := { s.fam with quiet := s.fam.quiet.erase device, reqs := reqs } }).drainPeer device
      else s)

/-- The row PEER_SLOT_TIMEOUT (R387): a fragment of a peer's message found no slot for 500 µs. -/
def execPeerSlotTimeout (source : Nat) (s : State) : Host.Outcome State Fault Refusal :=
  .next (if s.enabled pgFam then { s with out := OutMsg.completerAbort source :: s.out } else s)

/-- The row PEER_RESEND (R387): 100 µs after a Completer Abort the write is sent again. -/
def execPeerResend (req : Nat) (s : State) : Host.Outcome State Fault Refusal :=
  .next (match s.fam.reqs.get? req with
    | none => s
    | some r =>
      match r.resendAt with
      | none => s
      | some t =>
        if t ≤ s.tick ∧ s.isQuiet r.device = false then
          let r := { r with resendAt := none, since := s.tick, port := s.peerPort r.device }
          ({ s with fam := { s.fam with reqs := s.fam.reqs.set req r } }).leave r
        else s)

/-- The row APERTURE_BAD_ACCESS (R385): Unsupported Request; the access is discarded. -/
def execApertureBadAccess (source : Nat) (s : State) : Host.Outcome State Fault Refusal :=
  .next { s with out := OutMsg.unsupportedRequest source :: s.out }

/-! ## Links (R374, R405) -/

/-- A port's page. -/
def fabPage (n : Nat) : Nat := pgFab + n

def State.port (s : State) (n : Nat) : Port := s.fam.ports.getD n {}

def State.setPort (s : State) (n : Nat) (p : Port) : State :=
  { s with fam := { s.fam with ports := s.fam.ports.set n p } }

/-- Lanes of an L0p or trained width code: 16, 8 or 4. -/
def widthOk (w : Nat) : Bool := w == 16 || w == 8 || w == 4

/-- The link registers of a port that is in L0. -/
def State.setLink (s : State) (n rate width : Nat) (l0p : Bool) : State :=
  ((s.setReg .FAB_LINK_RATE rate n).setReg .FAB_LINK_WIDTH width n).setReg .FAB_LINK_L0P (b2n l0p) n

/-- The configured rate of a port: 3 is taken as 0 (R404). -/
def State.maxRate (s : State) (n : Nat) : Nat :=
  let r := s.reg .FAB_CFG_MAX_RATE n
  if r = 3 then 0 else r

/-- The row LINK_L0: port `n` reaches L0 in flit mode at a rate code and width. -/
def execLinkL0 (n rate width : Nat) (s : State) : Host.Outcome State Fault Refusal :=
  let st := s.pageState (fabPage n)
  .next (if n < 8 ∧ (st = 2 ∨ st = 5) ∧ (s.port n).training = true ∧ widthOk width = true ∧ rate < 3 ∧ s.maxRate n ≤ rate then
    let s := (s.setLink n rate width false).setReg .FAB_TRAIN_FAILS_COUNT 0 n
    let s := s.setPort n { training := false, since := s.tick }
    let s := if width = 16 ∧ rate = s.maxRate n then (s.setPageState (fabPage n) 3).setIntBit (fabPage n) 8
      else (s.setPageState (fabPage n) 4).setIntBit (fabPage n) 10
    s.leaveWaiting
  else s)

/-- The row LINK_TRAIN_TIMEOUT: 100 ms of training without L0. -/
def execLinkTrainTimeout (n : Nat) (s : State) : Host.Outcome State Fault Refusal :=
  let st := s.pageState (fabPage n)
  .next (if n < 8 ∧ (st = 2 ∨ st = 5) ∧ (s.port n).training = true ∧ (s.port n).since + 100000000 ≤ s.tick then
    let k := s.reg .FAB_TRAIN_FAILS_COUNT n + 1
    let s := (s.setReg .FAB_TRAIN_FAILS_COUNT k n).setPort n { training := false, since := s.tick }
    let s := s.setPageState (fabPage n) 5
    if 16 ≤ k then s.failPage (fabPage n) 0x0001 else s
  else s)

/-- The row LINK_RETRAIN: 1 s after a training failure. -/
def execLinkRetrain (n : Nat) (s : State) : Host.Outcome State Fault Refusal :=
  .next (if n < 8 ∧ s.pageState (fabPage n) = 5 ∧ (s.port n).training = false ∧ (s.port n).since + 1000000000 ≤ s.tick then
    s.setPort n { training := true, since := s.tick }
  else s)

/-- Requests on a port that goes DOWN or OFF: a peer write is reissued once, on another usable port of its entry or on the first
that becomes usable, with its original timeout; one that was reissued before gets no completion (R390). -/
def State.reissue (s : State) (n : Nat) : State :=
  let l := s.fam.reqs.entries.filter (fun e => e.2.port == some n && !e.2.reissued && e.2.resendAt.isNone)
  (l.foldl (fun s e => { s with fam := { s.fam with reqs := s.fam.reqs.set e.1 { e.2 with port := none, reissued := true } } })
    s).leaveWaiting

/-- A port leaves L0. -/
def State.linkDown (s : State) (n : Nat) : State :=
  let s := (s.setLink n 0 0 false).setPageState (fabPage n) 5
  let s := (s.bump .FAB_LINK_DOWNS_COUNT n).setIntBit (fabPage n) 9
  (s.setPort n { training := true, since := s.tick }).reissue n

/-- The row LINK_DOWN. -/
def execLinkDown (n : Nat) (s : State) : Host.Outcome State Fault Refusal :=
  .next (if n < 8 ∧ (s.pageState (fabPage n) = 3 ∨ s.pageState (fabPage n) = 4) then s.linkDown n else s)

/-- The row L0P_WIDTH_CHANGE: an UP or DEGRADED port with L0P_EN takes a width; the state does not change. -/
def execL0pWidthChange (n width : Nat) (s : State) : Host.Outcome State Fault Refusal :=
  .next (if n < 8 ∧ (s.pageState (fabPage n) = 3 ∨ s.pageState (fabPage n) = 4) ∧ s.regBit .FAB_CFG_L0P_EN n = true
      ∧ widthOk width = true then
    (s.setReg .FAB_LINK_WIDTH width n).setReg .FAB_LINK_L0P (b2n (width != 16)) n
  else s)

/-- A port goes OFF (R374). -/
def State.portOff (s : State) (n : Nat) : State :=
  let s := ((s.setLink n 0 0 false).disableBlock (fabPage n)).setPort n {}
  s.reissue n

/-! ## FAM_CTRL.EN, the map commit and dead marks (R377, R393, R407) -/

/-- Field of the map as a commit would leave it: the shadow where one is pending. -/
def State.mapNext (s : State) (r : Reg) (i : Nat) : Nat := (s.shadow.get? (r.key i)).getD (s.reg r i)

/-- The map fields. -/
def mapRegs : List Reg :=
  [.FAM_MAP_FA_FA_BASE, .FAM_MAP_UNITS_UNITS, .FAM_MAP_TGT_TGT_BASE, .FAM_MAP_DEST_DEVICE, .FAM_MAP_DEST_PID,
   .FAM_MAP_DEST_KIND, .FAM_MAP_DEST_COMBINE_OK, .FAM_MAP_PORTS_PORTS, .FAM_MAP_PORTS_IDE_STREAM]

/-- Entries that are used in the map or are to be. -/
def State.mapTouched (s : State) : List Nat :=
  (s.mapEntries ++ s.shadow.entries.filterMap (fun (e : Nat × Nat) =>
    if mapRegs.any (fun r => e.1 / 4294967296 == r.ctorIdx) then some (e.1 % 4294967296) else none)).eraseDups

/-- The checks that the device makes before it applies the shadow. -/
def State.mapOk (s : State) : Bool :=
  let used := s.mapTouched.filter (fun i => s.mapNext .FAM_MAP_UNITS_UNITS i != 0)
  used.all (fun i =>
    let kind := s.mapNext .FAM_MAP_DEST_KIND i
    (kind == 1 || kind == 2) && s.mapNext .FAM_MAP_PORTS_PORTS i != 0
      && (kind == 1 || (s.mapNext .FAM_MAP_UNITS_UNITS i == 1 && s.mapNext .FAM_MAP_TGT_TGT_BASE i == 0)))
    && disjoint (used.map (fun i => (s.mapNext .FAM_MAP_FA_FA_BASE i, s.mapNext .FAM_MAP_UNITS_UNITS i)))

/-- Swap the shadow map in. -/
def State.mapSwap (s : State) : State :=
  let s := s.mapTouched.foldl (fun s i => mapRegs.foldl (fun s r => s.setReg r (s.mapNext r i) i) s) s
  let mine (k : Nat) : Bool := mapRegs.any (fun r => k / 4294967296 == r.ctorIdx)
  let s := { s with shadow := s.shadow.filter (fun k _ => !mine k) }
  let s := s.setCommon pgFam { s.common pgFam with shadowPend := false, hold := false }
  (s.bump .FAM_MAP_GEN_COUNT).setIntBit pgFam 12

/-- The row FAM_MAP_COMMIT: FAM_CTRL.COMMIT written 1. -/
def execFamMapCommit (s : State) : Host.Outcome State Fault Refusal :=
  let s := s.touch
  .next (if !s.live then s else if s.mapOk then s.mapSwap.leaveWaiting else s.recErr pgFam 0x0010)

/-- The row DEAD_MARK_CLEAR: FAM_DEAD_STAT.CLEAR written 1 clears the mark of the id in FAM_DEAD_SEL. -/
def execDeadMarkClear (s : State) : Host.Outcome State Fault Refusal :=
  let d := s.reg .FAM_DEAD_SEL_DEVICE
  let s := s.touch
  .next (if s.live ∧ s.fam.dead.contains d = true then
    let s := { s with fam := { s.fam with dead := s.fam.dead.filter (· != d) } }
    s.setReg .FAM_DEAD_COUNT_COUNT s.fam.dead.length
  else s)

end Sys2Proof.Machine
end

