-- ==== Sys2Proof/Machine/Migrate.lean ====
section
/-!
DEFINITION. Leases and the movement of sessions between devices: validations, MIGRATE_OUT, MIGRATE_IN, RECLAIM, and the rows
that bring the words of the homes (R130, R132, R394 to R402).
-/
namespace Sys2Proof.Machine

/-! ## A session leaves the device (R81, R160, R396, R398) -/

/-- A started move of residency ends without commit, and its command completes with a status. -/
def State.stopMove (s : State) (slot : Nat) (st : Status) (detail : Nat) : State :=
  match s.stm.moves.find? (fun _ m => m.slot == slot && !m.writebackOnly && m.job.isNone && m.ctx.isSome) with
  | none => s
  | some (n, m) => (s.completeMove m.cmd slot st detail).failMove n m false

/-- Moves that have not started, and writebacks, of a session that goes. -/
def State.forgetMoves (s : State) (slot : Nat) (st : Status) (detail : Nat) : State :=
  let s := s.stopWriteback slot
  (s.stm.moves.entries.filter (fun e => e.2.slot == slot && e.2.job.isNone)).foldl (fun s e =>
    (s.eraseMove e.1).completeMove e.2.cmd slot st detail) s

/-- The session leaves the running and the composed step without commit. -/
def State.leaveSteps (s : State) (slot : Nat) : State :=
  let s := match s.rowOf slot with
    | some row => (s.abortRow row).leaveStep slot false
    | none => s
  match s.gaf.composed with
  | none => s
  | some r =>
    match r.rows.find? (fun w => w.slot == slot) with
    | none => s
    | some row =>
      let s := s.abortRow row
      let rows := r.rows.filter (fun w => w.slot != slot)
      if rows.isEmpty then { s.unpinAll r.pins with gaf := { (s.unpinAll r.pins).gaf with composed := none } }
      else { s with gaf := { s.gaf with composed := some { r with rows := rows } } }

/-- The session goes AWAY: what it waits for ends, its pages are decremented and its local state is released; its slot
stays, with the owner's device id and the lease epoch. -/
def State.goAway (s : State) (slot owner epoch : Nat) : State :=
  let s := s.leaveSteps slot
  let s := s.stopMove slot .notOwner 1
  let s := s.forgetMoves slot .notOwner 1
  let s := s.endWait slot .ok 3
  let s := s.endAllSteps slot .notOwner 1
  match s.session? slot with
  | none => s
  | some x0 =>
    let frames := x0.frames
    let s := if x0.counted then s.dropUsers frames else s
    let s := if x0.residency = Residency.moving then s.leaveMoving slot x0.moveSrc else s
    let s := s.releaseRecord slot
    let s := s.dropProvisional slot
    let s := s.setCaneNode slot none
    let s := (frames.filter s.hasCopy).foldl State.decRef s
    let s := frames.foldl (fun s n => s.dropIdleHbm n) s
    s.onSession slot (fun x => { x with
      residency := .away, owner := owner, leased := true, leaseEpoch := epoch, table := [], waitHeld := false,
      resumeTick := 0, compact := none, verWait := none, allotFail := none, leaseWait := false, leaseFresh := false,
      leaseTick := none, leaseIssued := none, bad := false, reheat := none,
      runState := if x.runState = .deadEnd ∨ x.runState = .lost ∨ x.runState = .closed then x.runState else .idle })

/-- A word with a reserved STATE was read (R394). -/
def State.noteWord (s : State) (w : Nat) : State := if 3 < leaseStateOf w then s.recErr pgFam 0x0004 else s

/-- The lease is lost (R396): AWAY, with the owner of the word, or 0 for FREE. -/
def State.loseLease (s : State) (slot w : Nat) : State :=
  let s := s.noteWord w
  let owner := if leaseStateOf w = 0 then 0 else leaseOwnerOf w
  let s := s.goAway slot owner (leaseEpochOf w)
  (s.bump .FAM_LEASE_LOSSES_COUNT).setIntBit pgFam 10

/-! ## Validations (R396) -/

/-- Commands that wait for a validation of the session. -/
def State.leaseWaiters (s : State) (slot : Nat) : List Nat :=
  (s.cmds.entries.filter (fun e => e.2.phase == .waiting && e.2.slot == some slot && e.2.aux == 2)).map (·.1)

/-- The home did not answer: the update is refused, and the session keeps its last committed state and residency. -/
def State.homeFailed (s : State) (slot : Nat) : State :=
  let s := match s.rowOf slot with
    | some row => (s.abortRow row).leaveStep slot false
    | none => s
  let s := s.stopMove slot .notOwner 2
  let s := s.endAllSteps slot .notOwner 2
  let s := (s.leaseWaiters slot).foldl (fun s id => s.complete id .notOwner 2) s
  let s := s.onSession slot (fun x => { x with leaseFresh := false, leaseTick := none, leaseIssued := none, leaseWait := false })
  s.bump .FAM_HOME_FAILS_COUNT

/-- The session is valid: the tick at which the read was issued is recorded. -/
def State.leaseValid (s : State) (slot : Nat) : State :=
  s.onSession slot (fun x => { x with leaseTick := some (x.leaseIssued.getD s.tick), leaseIssued := none, leaseFresh := true })

/-- A validation has read a word. -/
def State.validated (s : State) (slot : Nat) (x : Session) (w : Nat) : State :=
  if w = owned x.leaseEpoch s.self then s.leaseValid slot
  else if w = offered x.leaseEpoch s.self (leaseOffereeOf w) then
    if (s.fam.cas.getD x.leaseAddr []).isEmpty then
      s.casIssue x.leaseAddr slot x.leaseEpoch (.withdraw (leaseOffereeOf w))
    else s
  else
    let waiters := s.leaseWaiters slot
    let s := waiters.foldl (fun s id => s.complete id .notOwner 1) s
    s.loseLease slot w

/-- No MIGRATE_OUT of the session runs here. -/
def State.notMigrating (s : State) (slot : Nat) : Bool :=
  s.migrations.values.all (fun m => m.slot != slot) && s.jobs.values.all (fun j => j.slot != slot || j.kind == .exportTo)

/-- A word as the home answers: none where it cannot be reached. -/
def State.heard (s : State) (addr : Nat) (word : Option DWord) : Option Nat :=
  if s.homeReachable addr then word.map (·.toNat) else none

/-- The row LEASE_VALIDATION_RESULT: a validation read of the session's lease word ends, with no word where no answer came. -/
def execLeaseValidationResult (slot : Nat) (word : Option DWord) (s : State) : Host.Outcome State Fault Refusal :=
  .next (match s.session? slot with
    | none => s
    | some x =>
      if x.leased = true ∧ x.residency ≠ .away ∧ x.runState ≠ .lost ∧ s.notMigrating slot = true then
        let s := (s.countLease x.leaseAddr).bump .FAM_VALIDATIONS_COUNT
        match s.heard x.leaseAddr word with
        | some w => s.validated slot x w
        | none => s.homeFailed slot
      else s)

/-! ## MIGRATE_OUT (R397, R398) -/

/-- MIGRATE_OUT takes effect. -/
def opMigrateOut (s : State) (id : Nat) (c : Cmd) (slot : Nat) : State :=
  match s.session? slot with
  | none => s.complete id .staleHandle
  | some x =>
    let bound := capsuleBound (s.layoutOf x) x.table.length (x.table.filter (·.isSealed)).length
    if !s.enabled pgStm || !s.enabled pgFam then s.complete id .internal
    else match s.currentTtk x.tenant with
      | none => s.refuse id .security 0x05
      | some key =>
        if c.desc.specF 51 44 < bound then s.complete id .noSpace 4
        else match s.lockOrStall slot with
          | (none, t) => if c.aux = 3 then s.waitCmd id else (t.waitCmd id).onCmd id (fun c => { c with aux := 3 })
          | (some s, _) =>
            let s := s.forgetMoves slot .ok 1
            let s := s.startExport id slot x .migrateOut 2 (c.desc.specF 43 36) (c.desc.optBit 8) key
            s.enterMoving slot x.residency .away

/-- The session of a MIGRATE_OUT returns to its tier, and the command completes. -/
def State.returnTier (s : State) (id slot : Nat) (st : Status) (detail result : Nat) : State :=
  let s := { s with migrations := s.migrations.erase id }
  let s := match s.session? slot with
    | some x => if x.residency = Residency.moving then s.leaveMoving slot x.moveSrc else s
    | none => s
  s.complete id st detail result

/-- T has accepted: the migration commits. -/
def State.migratedOut (s : State) (id : Nat) (m : Migration) (epoch : Nat) : State :=
  let st : Status := ((s.session? m.slot).map Session.okStatus).getD .ok
  let s := s.goAway m.slot m.peer epoch
  { s with migrations := s.migrations.erase id }.complete id st 0 m.len

/-- The lease turned out to be lost while the offer was made or watched. -/
def State.migrationLost (s : State) (id : Nat) (m : Migration) (w : Nat) : State :=
  let s := { s with migrations := s.migrations.erase id }
  (s.loseLease m.slot w).complete id .notOwner 1

/-- The capsule is written: the offer is made, or cannot be (R398). -/
def State.makeOffer (s : State) (id : Nat) (c : Cmd) (slot len : Nat) : State :=
  match s.session? slot with
  | none => s.complete id .internal
  | some x =>
    let t := c.desc.specF 53 52
    let addr := if x.leased then x.leaseAddr else c.desc.specF 63 56
    if !s.homeReachable addr then (s.countLease addr).returnTier id slot .notOwner 2 0
    else
      let m : Migration := { slot := slot, kind := .migrateOut, addr := addr, peer := t, len := len }
      let s := { s with migrations := s.migrations.set id m }
      s.casIssue addr slot x.leaseEpoch (if x.leased then .offer t else .create t)

/-- The end of the tiles of a staging capsule. -/
def State.stagingEnd (s : State) (n : Nat) (j : CapsuleJob) (writeFail : Bool) : State :=
  let bytes := (s.modelOfFp j.content.record.modelFp).capsuleBytes j.content j.compress j.key j.header
  let len := bytes.length
  let fail := writeFail || !s.inPoolEntry j.addr len || !s.fabricOk j.addr len ((s.session? j.slot).map (·.tenant))
  let s := (s.eraseJob n j).unpinAll j.pins
  if j.failed then s.returnTier j.cmd j.slot .internal 0 0
  else if fail then (s.recErr pgStm 0x0003).returnTier j.cmd j.slot .internal 0 0
  else
    let s := s.writeDst 2 j.addr bytes
    match s.cmd? j.cmd with
    | some c => s.makeOffer j.cmd c j.slot len
    | none => s

/-- The row CAPSULE_EXPORT_DONE; `writeFail` says that a write to the destination failed (R130, R398). -/
def execCapsuleExportDone (writeFail : Bool) (s : State) : Host.Outcome State Fault Refusal :=
  .next (match s.jobDone (fun k => k == .exportTo || k == .migrateOut) with
    | none => s
    | some (n, j) => if j.kind = .exportTo then s.exportEnd n j writeFail else s.stagingEnd n j writeFail)

/-- The PARTIAL completion of an offer, into a slot that no final completion has reserved (R48). -/
def State.offerPartial (s : State) (id : Nat) (m : Migration) : State :=
  match s.cmd? id with
  | none => s
  | some c =>
    if (s.ring c.ring).freeSlots = 0 then { s with migrations := s.migrations.set id { m with partialDue := true } }
    else
      ({ s with migrations := s.migrations.set id { m with partialDue := false } }).writeCompletion c.ring c.desc .part 0
        c.desc.handle m.len

/-- The row PARTIAL_SLOT_FREE (R48): an intermediate completion that waited is written. -/
def execPartialSlotFree (slot : Nat) (s : State) : Host.Outcome State Fault Refusal :=
  .next (match s.migrations.find? (fun _ m => m.slot == slot && m.partialDue) with
    | some (id, m) => s.offerPartial id m
    | none => s.partialFree slot)

/-- The offer stands (R395, R398). -/
def State.offerMade (s : State) (id : Nat) (m : Migration) : State :=
  let home := (s.targetOf m.addr).getD 0
  let s := s.onSession m.slot (fun x => { x with leased := true, home := home, leaseAddr := m.addr })
  let m := { m with offeredAt := some s.tick, polledAt := s.tick }
  ({ s with migrations := s.migrations.set id m }.bump .FAM_OFFERS_COUNT).offerPartial id m

/-- What a watched lease word means (R398). -/
def State.watch (s : State) (id : Nat) (m : Migration) (word : Option Nat) : State :=
  let e := ((s.session? m.slot).map (·.leaseEpoch)).getD 0
  match word with
  | none => s.returnTier id m.slot .notOwner 2 0
  | some w =>
    if w = owned (nextEpoch e) m.peer then s.migratedOut id m (nextEpoch e)
    else if w = offered e s.self m.peer then { s with migrations := s.migrations.set id { m with polledAt := s.tick } }
    else s.migrationLost id m w

/-- A migration whose offer is being watched: no CAS is outstanding on its word. -/
def State.watched (s : State) (m : Migration) : Bool :=
  m.kind == .migrateOut && m.offeredAt.isSome && (s.fam.cas.getD m.addr []).isEmpty

/-- The row LEASE_POLL: FAM_LEASE_POLL.US µs after the last read, the word of a watched migration is read again. -/
def execLeasePoll (cmd : Nat) (word : Option DWord) (s : State) : Host.Outcome State Fault Refusal :=
  .next (match s.migrations.get? cmd with
    | none => s
    | some m =>
      if s.watched m = true ∧ m.polledAt + max 10 (s.reg .FAM_LEASE_POLL_US) * 1000 ≤ s.tick then
        (s.countLease m.addr).watch cmd m (s.heard m.addr word)
      else s)

/-- The row LEASE_NOTE: a peer's note for a lease word arrives, and the word of the migration that waits for it is read at
once. -/
def execLeaseNote (m : PeerMsg) (word : Option DWord) (s : State) : Host.Outcome State Fault Refusal :=
  .next (match s.takeMsg m with
    | none => s
    | some s =>
      if m.kind ≠ .leaseNote then s
      else match s.migrations.find? (fun _ g => g.addr == m.row && s.watched g) with
        | none => s
        | some (id, g) => (s.countLease g.addr).watch id g (s.heard g.addr word))

/-- Ticks of the offer timeout. -/
def State.offerTicks (s : State) : Nat := max 1 (s.reg .FAM_LEASE_CFG_OFFER_MS) * 1000000

/-- The row OFFER_TIMEOUT: no acceptance came within OFFER_MS of the offer, and the device withdraws it. -/
def execOfferTimeout (cmd : Nat) (s : State) : Host.Outcome State Fault Refusal :=
  .next (match s.migrations.get? cmd with
    | none => s
    | some m =>
      if s.watched m = true ∧ (m.offeredAt.map (fun t => decide (t + s.offerTicks ≤ s.tick))).getD false = true then
        let e := ((s.session? m.slot).map (·.leaseEpoch)).getD 0
        if s.homeReachable m.addr then s.casIssue m.addr m.slot e (.withdraw m.peer)
        else (s.countLease m.addr).watch cmd m none
      else s)

/-! ## What arrives (R399 to R401) -/

/-- Heap bytes that a capsule takes in an AWAY slot. -/
def State.returnBytes (s : State) (tenant : Nat) (l : Layout) : Nat := l.recordBytes (s.nverOf tenant)

/-- Store a capsule for an AWAY slot: its pages and its record's space. The slot stays AWAY until the commit. -/
def State.returning (s : State) (id slot tenant model : Nat) (kind : JobKind) (space addr : Nat) (h : List Byte)
    (content : Capsule) (word : Nat) : State :=
  let l := (s.model model).layout
  if !s.heapRoom tenant (s.returnBytes tenant l + importBytes l content.table.length) false then s.complete id .noSpace 3
  else match allotImport s tenant model l (content.table.zip content.pages) [] with
    | none => s.complete id .noSpace 3
    | some (entries, s) =>
      let s := s.heapTake tenant (s.returnBytes tenant l)
      let c := { content with record := { content.record with
        params := { content.record.params with model := model }, modelFp := (s.model model).fp } }
      s.startImport id slot kind space addr h c l entries word

/-- Release what a capsule for an AWAY slot took. -/
def State.undoReturn (s : State) (j : CapsuleJob) : State :=
  match s.session? j.slot with
  | none => s
  | some x =>
    let s := s.heapGive x.tenant (s.returnBytes x.tenant (s.model j.content.record.params.model).layout)
    (j.entries.map (·.frame)).foldl State.decRef s

/-- The arrival is a new session, not a return into an AWAY slot. -/
def State.isNew (s : State) (slot : Nat) : Bool :=
  ((s.session? slot).map (fun x => x.residency == .moving)).getD false

/-- Nothing remains of an arrival that failed (R399). -/
def State.undoJob (s : State) (j : CapsuleJob) : State := if s.isNew j.slot then s.undoArrival j.slot else s.undoReturn j

/-- The run state of a capsule that arrives by migration or reclaim (R400). -/
def arrivalState (h : List Byte) : RunState := if leAt h 13 1 = RunState.deadEnd.code then .deadEnd else .idle

/-- An AWAY slot takes the state that arrived: WARM, with its handle and counters kept (R400, R401). -/
def State.takeBack (s : State) (j : CapsuleJob) : State :=
  match s.session? j.slot with
  | none => s
  | some x =>
    let nver := s.nverOf x.tenant
    let s := s.setSession j.slot { x with
      residency := .warm, runState := arrivalState j.header, nr := bitAt (leAt j.header 14 2) 0, table := j.entries,
      positions := j.content.record.held, cls := j.content.record.params.cls, vers := [j.content.record],
      srCur := 0, srNver := nver, readers := List.replicate (nver + 1) 0, owner := 0, deadline := 0, resumeTick := 0,
      srAddr := s.freeAddr, ptRoot := (Config.freeWord (s.free + 1)).toNat / 65536 * 65536, lastCmd := s.tick }
    let s := s.useFree 2
    let s := s.addUsers (j.entries.map (·.frame))
    (j.entries.filter (·.isSealed)).foldl (fun s e => s.seal e.frame) s

/-- The arrival is complete: entry, lease and completion. -/
def State.settleArrival (s : State) (j : CapsuleJob) (addr epoch : Nat) : State :=
  let s := if s.isNew j.slot then
      (s.arrived j.slot).onSession j.slot (fun x => { x with runState := arrivalState j.header })
    else s.takeBack j
  let home := (s.targetOf addr).getD 0
  let s := s.onSession j.slot (fun x => { x with
    leased := true, home := home, leaseEpoch := epoch, leaseAddr := addr, leaseTick := some s.tick, leaseIssued := none,
    leaseFresh := false })
  match s.session? j.slot with
  | none => s.complete j.cmd .internal
  | some x => s.completeH j.cmd .ok 0 (x.positions + x.table.length * 2 ^ 32) (x.handle j.slot)

/-! ## MIGRATE_IN (R399, R400) -/

/-- Check 2: the AWAY slot that a payload handle names, if it may return there. -/
def State.returnSlot (s : State) (c : Cmd) : Option Nat :=
  let h := leNat (s.payload c.desc)
  let slot := handleSlot h
  match s.session? slot with
  | none => none
  | some x =>
    if x.generation = handleGen h ∧ handleCheck h = h % 256 ∧ handleTenant h = c.tenant ∧ x.tenant = c.tenant
        ∧ x.residency = .away ∧ x.leaseAddr = c.desc.specF 63 56 ∧ x.runState ≠ .closed then some slot
    else none

/-- Checks 5 to 6 of MIGRATE_IN once the capsule has passed, and the start of its transfer. -/
def State.migrateInStart (s : State) (id : Nat) (c : Cmd) (h : List Byte) (content : Capsule) (model : Nat) : State :=
  let addr := c.desc.specF 63 56
  let e := leAt h 84 4
  let src := c.desc.specF 53 52
  let s := s.countLease addr
  match (if s.homeReachable addr then s.fam.words.get? id else none) with
  | none => s.complete id .notOwner 2
  | some w =>
    let s := s.noteWord w
    if w ≠ offered e src s.self ∧ w ≠ owned (nextEpoch e) s.self then s.complete id .notOwner 1
    else if c.desc.payLen = 8 then
      match s.returnSlot c with
      | none => s.refuse id .invalid 0x62
      | some slot => s.returning id slot c.tenant model .migrateIn 2 (c.desc.specF 43 36) h content w
    else
      let l := (s.model model).layout
      let (d, s) := s.importRoom c.tenant l content.table.length
      if d ≠ 0 then s.complete id .noSpace d
      else match s.arriving c.tenant model (bitAt (leAt h 14 2) 0) content with
        | none => s.complete id .noSpace 3
        | some (slot, s) =>
          s.startImport id slot .migrateIn 2 (c.desc.specF 43 36) h content l
            (((s.session? slot).map (·.table)).getD []) w

/-- MIGRATE_IN takes effect. -/
def opMigrateIn (s : State) (id : Nat) (c : Cmd) : State :=
  let addr := c.desc.specF 43 36
  let len := c.desc.specF 51 44
  match s.sources.get? id with
  | none => s.refuse id .invalid 0x20
  | some content =>
    if !s.enabled pgStm || !s.enabled pgSdir || !s.enabled pgCane || !s.enabled pgFam then s.complete id .internal
    else if !s.inPoolEntry addr len || !s.inPoolEntry (c.desc.specF 63 56) 8 then s.refuse id .invalid 0x60
    else if c.desc.payLen = 8 ∧ (s.returnSlot c).isNone = true then s.refuse id .invalid 0x62
    else
      let h := s.readSrc 2 addr 256
      match s.importChecks c.tenant len (s.srcAt 2 addr) content with
      | .refuse st reason => s.refuse id st reason
      | .pass model =>
        if leAt h 50 2 ≠ c.desc.specF 53 52 then s.refuse id .invalid 0x61
        else s.migrateInStart id c h content model

/-- The state is accepted: the entry is written, the source's device gets a note (R400). -/
def State.migratedIn (s : State) (j : CapsuleJob) (c : Cmd) : State :=
  let addr := c.desc.specF 63 56
  let e := nextEpoch (leAt j.header 84 4)
  let s := s.settleArrival j addr e
  let src := c.desc.specF 53 52
  if s.fam.dead.contains src then s else (s.sendPeer src .leaseNote e 0 0 addr []).2

/-- The tiles of a MIGRATE_IN are stored: checks 7 and 8. -/
def State.migrateInEnd (s : State) (n : Nat) (j : CapsuleJob) : State :=
  let s := s.eraseJob n j
  if j.failed then (s.undoJob j).refuse j.cmd .security 0x04
  else if !tableOk j.content (leAt j.header 72 4) then (s.undoJob j).refuse j.cmd .invalid 0x23
  else match s.cmd? j.cmd with
    | none => s.undoJob j
    | some c =>
      let addr := c.desc.specF 63 56
      let e := leAt j.header 84 4
      if j.word = owned (nextEpoch e) s.self then s.migratedIn j c
      else if !s.homeReachable addr then ((s.countLease addr).undoJob j).complete j.cmd .notOwner 2
      else
        let m : Migration := { slot := j.slot, kind := .migrateIn, addr := addr, peer := c.desc.specF 53 52,
                               epoch := nextEpoch e, job := some j }
        ({ s with migrations := s.migrations.set j.cmd m }).casIssue addr j.slot e (.accept (c.desc.specF 53 52))

/-! ## RECLAIM (R401) -/

/-- What the word read leads to: a completion, or the start with or without a CAS. -/
inductive ReclaimWay
  | stop (st : Status) (detail : Nat)
  | go (cas : Bool)

def State.reclaimWay (s : State) (w : Nat) (force : Bool) : ReclaimWay :=
  let owner := leaseOwnerOf w
  match leaseStateOf w with
  | 0 => .stop .notOwner 3
  | 1 => if owner = s.self then .go false else if force then .go true else .stop .notOwner 1
  | 2 => if leaseOffereeOf w = s.self ∧ owner ≠ s.self then .stop .locked 1
         else if force then .go true else .stop .notOwner 1
  | 3 => .go true
  | _ => if force then .go true else .stop .notOwner 1

/-- RECLAIM takes effect on a session that is AWAY. -/
def opReclaim (s : State) (id : Nat) (c : Cmd) (slot : Nat) : State :=
  match s.session? slot, s.sources.get? id with
  | some x, some content =>
    if !s.enabled pgStm || !s.enabled pgCane || !s.enabled pgFam then s.complete id .internal
    else
      let s := s.countLease x.leaseAddr
      match (if s.homeReachable x.leaseAddr then s.fam.words.get? id else none) with
      | none => s.complete id .notOwner 2
      | some w =>
        let s := s.noteWord w
        match s.reclaimWay w (c.desc.optBit 10) with
        | .stop st d => s.complete id st d
        | .go _ =>
          let h := s.readSrc (c.desc.opt 8 2) (c.desc.specF 43 36) 256
          match s.importChecks x.tenant (c.desc.specF 51 44) (s.srcAt (c.desc.opt 8 2) (c.desc.specF 43 36)) content with
          | .refuse st reason => s.refuse id st reason
          | .pass model =>
            s.returning id slot x.tenant model .reclaim (c.desc.opt 8 2) (c.desc.specF 43 36) h content w
  | _, _ => s.complete id .staleHandle

/-- The reclaim commits (R401). -/
def State.reclaimed (s : State) (j : CapsuleJob) (addr epoch : Nat) : State :=
  let force := ((s.cmd? j.cmd).map (fun c => c.desc.optBit 10)).getD false
  let s := if force then s.bump .FAM_FORCED_COUNT else s
  s.settleArrival j addr epoch

/-- The tiles of a RECLAIM are stored: the CAS is made, where the word asks for one. -/
def State.reclaimEnd (s : State) (n : Nat) (j : CapsuleJob) : State :=
  let s := s.eraseJob n j
  if j.failed then (s.undoReturn j).refuse j.cmd .security 0x04
  else if !tableOk j.content (leAt j.header 72 4) then (s.undoReturn j).refuse j.cmd .invalid 0x23
  else match s.session? j.slot with
    | none => s.complete j.cmd .staleHandle
    | some x =>
      match s.reclaimWay j.word true with
      | .go true =>
        if !s.homeReachable x.leaseAddr then ((s.countLease x.leaseAddr).undoReturn j).complete j.cmd .notOwner 2
        else
          let m : Migration := { slot := j.slot, kind := .reclaim, addr := x.leaseAddr, peer := 0,
                                 epoch := nextEpoch (leaseEpochOf j.word), job := some j }
          ({ s with migrations := s.migrations.set j.cmd m }).casIssue x.leaseAddr j.slot (leaseEpochOf j.word) (.reclaim j.word)
      | _ => s.reclaimed j x.leaseAddr (leaseEpochOf j.word)

/-- The row CAPSULE_IMPORT_DONE (R132, R399, R401). -/
def execCapsuleImportDone (s : State) : Host.Outcome State Fault Refusal :=
  .next (match s.jobDone (fun k => k == .importFrom || k == .migrateIn || k == .reclaim) with
    | none => s
    | some (n, j) =>
      match j.kind with
      | .migrateIn => s.migrateInEnd n j
      | .reclaim => s.reclaimEnd n j
      | _ => s.importEnd n j)

/-! ## The end of a CAS (R395, R398 to R401) -/

/-- What a CAS has led to: it succeeded, it failed and the word is known, or the home does not answer. -/
inductive CasEnd
  | won
  | lost (word : Nat)
  | silent

/-- The end of a CAS from what it returned, or from the read after an unknown outcome. -/
def CasOp.end' (o : CasOp) (found reread : Option Nat) : CasEnd :=
  match found, reread with
  | some w, _ => if w = o.expect then .won else .lost w
  | none, some w => if w = o.word then .won else .lost w
  | none, none => .silent

/-- The migration that a CAS belongs to. -/
def State.migrationOf (s : State) (o : CasOp) : Option (Nat × Migration) :=
  s.migrations.find? (fun _ m => m.slot == o.slot && (match o.op, m.kind with
    | .create _, .migrateOut => true
    | .offer _, .migrateOut => true
    | .withdraw _, .migrateOut => true
    | .accept _, .migrateIn => true
    | .reclaim _, .reclaim => true
    | _, _ => false))

/-- A withdrawal ends (R396, R398). -/
def State.withdrawEnd (s : State) (o : CasOp) (r : CasEnd) : State :=
  match r with
  | .won =>
    let e := leaseEpochOf o.word
    let s := s.onSession o.slot (fun x => { x with leaseEpoch := e })
    let s := (s.bump .FAM_WITHDRAWS_COUNT).setIntBit pgFam 11
    match s.migrationOf o with
    | some (id, m) =>
      let st : Status := .ok
      s.returnTier id m.slot st 1 0
    | none => s.leaseValid o.slot
  | .lost w =>
    match s.migrationOf o with
    | some (id, m) => s.watch id m (some w)
    | none => s
  | .silent =>
    match s.migrationOf o with
    | some (id, m) => s.watch id m none
    | none => s.homeFailed o.slot

/-- A create or offer ends (R398). -/
def State.offerEnd (s : State) (o : CasOp) (r : CasEnd) (create : Bool) : State :=
  match s.migrationOf o with
  | none => s
  | some (id, m) =>
    match r with
    | .won => s.offerMade id m
    | .lost w => if create then (s.noteWord w).returnTier id m.slot .locked 0 0 else s.migrationLost id m w
    | .silent =>
      -- the word may have changed: the session commits nothing until a validation settles it
      let home := (s.targetOf m.addr).getD 0
      let s := s.onSession m.slot (fun x => { x with leased := true, home := home, leaseAddr := m.addr, leaseTick := none })
      s.returnTier id m.slot .notOwner 2 0

/-- An accept or reclaim ends (R399, R401). -/
def State.takeEnd (s : State) (o : CasOp) (r : CasEnd) : State :=
  match s.migrationOf o with
  | none => s
  | some (id, m) =>
    let s := { s with migrations := s.migrations.erase id }
    match m.job with
    | none => s
    | some j =>
      let undo (d : Nat) : State := (s.undoJob j).complete id .notOwner d
      match r with
      | .won =>
        if m.kind = .migrateIn then
          match s.cmd? id with
          | some c => (s.bump .FAM_ACCEPTS_COUNT).migratedIn j c
          | none => s.undoJob j
        else s.reclaimed j m.addr m.epoch
      | .lost _ => undo 1
      | .silent => undo 2

/-- A CAS has ended. -/
def State.casEnd (s : State) (o : CasOp) (r : CasEnd) : State :=
  match o.op with
  | .create _ => s.offerEnd o r true
  | .offer _ => s.offerEnd o r false
  | .withdraw _ => s.withdrawEnd o r
  | .accept _ => s.takeEnd o r
  | .reclaim _ => s.takeEnd o r
  | .markLost => s
  | .release => s

/-- The first CAS on a word ends; the next one issues. -/
def State.casAnswer (s : State) (addr : Nat) (found reread : Option Nat) : State :=
  match s.fam.cas.getD addr [] with
  | [] => s
  | o :: rest =>
    let r := o.end' found reread
    let cas := if rest.isEmpty then s.fam.cas.erase addr else s.fam.cas.set addr rest
    let s := { s with fam := { s.fam with cas := cas } }
    let s := match r with
      | .won => { s with fabric := s.fabric.writeN addr (leBytes o.word 8) }
      | _ => s
    let s := s.casEnd o r
    if rest.isEmpty then s else s.countLease addr

/-- The row LEASE_CAS_RESULT: the CAS outstanding on a lease word ends. `found` is the word that it met, if its answer came;
`reread` is what the read after an unknown outcome found (R390, R395). -/
def execLeaseCasResult (addr : Nat) (found reread : Option DWord) (s : State) : Host.Outcome State Fault Refusal :=
  .next (s.casAnswer addr (s.heard addr found) (s.heard addr reread))

end Sys2Proof.Machine
end

