-- ==== Sys2Proof/Machine/Embed.lean ====
section
/-!
DEFINITION. Embedding tables: lookups, updates, replication, batches and their boundaries, hot rows, deterministic epochs, and
what a home does for its peers (R317 to R342).
-/
namespace Sys2Proof.Machine

/-! ## Tables (R317, R340, R341) -/

/-- Key of a row (R321). -/
def rowKey (table row : Nat) : Nat := table * 2 ^ 32 + row

/-- The table is VALID and not being retired. -/
def State.tblUsable (s : State) (t : Nat) : Bool := s.regBit .EMB_TBL_CFG_VALID t && !s.emb.retiring.any (fun e => e.1 == t)

/-- The table is usable by a command: VALID, and any write of 0 to VALID came after its acceptance (R341). -/
def State.tblOpen (s : State) (id t : Nat) : Bool :=
  s.regBit .EMB_TBL_CFG_VALID t && !s.emb.retiring.any (fun e => e.1 == t && decide (e.2 ≤ id))

def State.tblRemote (s : State) (t : Nat) : Bool := s.regBit .EMB_TBL_CFG_REMOTE t
def State.tblPool (s : State) (t : Nat) : Bool := s.regBit .EMB_TBL_CFG_POOL t
def State.tblShared (s : State) (t : Nat) : Bool := s.regBit .EMB_TBL_CFG_SHARED t
def State.tblDet (s : State) (t : Nat) : Bool := s.regBit .EMB_TBL_CFG_DET_EN t
def State.tblFormat (s : State) (t : Nat) : Nat := s.reg .EMB_TBL_CFG_FORMAT t
def State.tblWidth (s : State) (t : Nat) : Nat := s.reg .EMB_TBL_WIDTH_BYTES t
def State.tblRows (s : State) (t : Nat) : Nat := s.reg .EMB_TBL_ROWS_ROWS_M1 t + 1
def State.tblBase (s : State) (t : Nat) : Nat := s.reg .EMB_TBL_BASE_ADDR t * 64

/-- Bytes of an element of a table format. -/
def embElem (f : Nat) : Nat := if f = 1 then 4 else if f = 2 ∨ f = 3 then 2 else 1

/-- Elements per row. -/
def State.tblD (s : State) (t : Nat) : Nat := s.tblWidth t / embElem (s.tblFormat t)

/-- Address of a row. -/
def State.rowAddr (s : State) (t row : Nat) : Nat := s.tblBase t + row * s.tblWidth t

/-- The elements that bytes of a row hold, converted exactly to binary32. -/
def rowOfBytes (f : Nat) (bs : List Byte) : List Word :=
  (chunks (embElem f) bs.length bs).map (fun b => toF32 (elemValue f (leNat b)))

/-- The bytes of a row of a table held here: its primary. -/
def State.rowBytes (s : State) (t row : Nat) : List Byte :=
  let n := s.tblWidth t
  if s.tblPool t then s.fabric.readN (s.rowAddr t row) n else s.hbm.readN (s.rowAddr t row) n

/-- A row of a table held here. -/
def State.readRow (s : State) (t row : Nat) : List Word := rowOfBytes (s.tblFormat t) (s.rowBytes t row)

/-- Store a row of a table held here, converted to its FORMAT. -/
def State.writeRow (s : State) (t row : Nat) (vs : List Word) : State :=
  let f := s.tblFormat t
  let bs := vs.flatMap (fun v => leBytes (convert f (f32 v)).code (embElem f))
  if s.tblPool t then { s with fabric := s.fabric.writeN (s.rowAddr t row) bs }
  else { s with hbm := s.hbm.writeN (s.rowAddr t row) bs }

/-- A pool table's target can be reached (R391). -/
def State.tblReachable (s : State) (t : Nat) : Bool :=
  !s.tblPool t || ((s.targetOf (s.tblBase t)).map s.mayReach).getD false

/-- A home or a target did not answer (R342). -/
def State.homeDown (s : State) : State := (s.recErr pgEmb 0x0004).setIntBit pgEmb 11

/-! ## Payloads (R325, R334) -/

/-- A bag: its table and its (row, weight) entries. -/
structure Bag where
  table : Nat
  entries : List (Nat × Word)
  deriving DecidableEq, Repr

/-- The entries of a bag. -/
def parseEntries : Nat → List Byte → List (Nat × Word)
  | 0, _ => []
  | n + 1, bs => (leAt bs 0 4, BitVec.ofNat 32 (leAt bs 4 4)) :: parseEntries n (bs.drop 8)

/-- Exactly `n` bags that end with the payload: none otherwise (check 1 of R326). -/
def parseBags : Nat → List Byte → Option (List Bag)
  | 0, bs => if bs.isEmpty then some [] else none
  | n + 1, bs =>
    let k := leAt bs 0 4
    if bs.length < 8 + 8 * k ∨ 65536 < k then none
    else (parseBags n (bs.drop (8 + 8 * k))).map
      (fun l => { table := leAt bs 4 1, entries := parseEntries k (bs.drop 8) } :: l)

/-- A record of an EMB_UPDATE. -/
structure URec where
  table : Nat
  row : Nat
  kind : Nat
  values : List Word
  deriving DecidableEq, Repr

/-- `n` binary32 values. -/
def parseWords : Nat → List Byte → List Word
  | 0, _ => []
  | n + 1, bs => BitVec.ofNat 32 (leAt bs 0 4) :: parseWords n (bs.drop 4)

/-- Exactly `n` records, each as long as its table's D says. -/
def State.parseRecords (s : State) : Nat → List Byte → Option (List URec)
  | 0, bs => if bs.isEmpty then some [] else none
  | n + 1, bs =>
    let t := leAt bs 4 1
    let d := s.tblD t
    if bs.length < 8 + 4 * d then none
    else (State.parseRecords s n (bs.drop (8 + 4 * d))).map
      (fun l => { table := t, row := leAt bs 0 4, kind := leAt bs 5 1, values := parseWords d (bs.drop 8) } :: l)

def State.bagsOf (s : State) (d : Desc) : List Bag := (parseBags (d.specF 39 36) (s.payload d)).getD []
def State.recordsOf (s : State) (d : Desc) : List URec := (s.parseRecords (d.specF 39 36) (s.payload d)).getD []

/-- Indices or records of a command. -/
def State.keysOf (s : State) (d : Desc) : Nat :=
  if d.opcode = 0x30 then ((s.bagsOf d).map (fun b => b.entries.length)).sum else d.specF 39 36

/-! ## EMB_LOOKUP and EMB_UPDATE take their place in a batch (R319, R326, R334) -/

/-- Bytes of one vector of the output area. -/
def State.vecBytes (s : State) (d : Desc) (t : Nat) : Nat := s.tblD t * if d.optBit 11 then 2 else 4
def roundup64e (n : Nat) : Nat := roundUp n 64

/-- OUT_LEN covers every vector, and a window range lies in the allotment (check 5). -/
def State.outOk (s : State) (c : Cmd) (bags : List Bag) : Bool :=
  let d := c.desc
  (bags.zip (List.range bags.length)).all (fun e =>
    decide (e.2 * roundup64e (s.vecBytes d e.1.table) + s.vecBytes d e.1.table ≤ d.specF 51 48))
    && (!d.optBit 12 || (s.ring c.ring).inAllotment (d.specF 47 40) (d.specF 51 48))

/-- Positions fit a session under R298 without truncation. -/
def State.positionsFit (s : State) (x : Session) (n : Nat) : Bool :=
  match s.fit x true (List.replicate n 0) none with
  | .fits _ _ => true
  | .refused => false

/-- Room for vectors in the input queue (R297). -/
def State.vecRoom (s : State) (x : Session) (n d : Nat) : Bool := s.heapRoom x.tenant (n * 4 * max 1 d) false

/-- The checks of R326 on tables and rows for a command: a refusal as status and reason. -/
def State.tableChecks (s : State) (id tenant : Nat) (keys : List (Nat × Nat)) : Option (Status × Nat) :=
  if keys.any (fun k => !s.tblOpen id k.1) then some (.invalid, 0x51)
  else if keys.any (fun k => s.reg .EMB_TBL_CFG_TENANT k.1 != tenant) then some (.security, 0x07)
  else if keys.any (fun k => decide (s.tblRows k.1 ≤ k.2)) then some (.invalid, 0x52)
  else none

/-- A command joins those that wait for a batch. -/
def State.joinEmb (s : State) (id : Nat) : State :=
  let s := { s with emb := { s.emb with waiting := s.emb.waiting ++ [id] } }
  s.runCmd id true

/-- EMB_LOOKUP (R326): its checks, in order, and its place in a batch. -/
def opEmbLookup (s : State) (id : Nat) (c : Cmd) : State :=
  if !s.enabled pgEmb then s.complete id .internal
  else
    let d := c.desc
    match parseBags (d.specF 39 36) (s.payload d) with
    | none => s.refuse id .invalid 0x50
    | some bags =>
      match s.tableChecks id c.tenant (bags.flatMap (fun b => (b.table, 0) :: b.entries.map (fun e => (b.table, e.1)))) with
      | some (st, r) => s.refuse id st r
      | none =>
        if d.opt 8 2 = 1 then
          match (c.slot.bind s.session?) with
          | none => s.complete id .staleHandle
          | some x =>
            let obs := (s.layoutOf x).dObs
            if obs = 0 ∨ bags.any (fun b => s.tblD b.table != obs) = true then s.refuse id .invalid 0x53
            else if !s.positionsFit x bags.length then s.complete id .noSpace 12
            else if !s.vecRoom x bags.length obs then s.complete id .noSpace 13
            else s.joinEmb id
        else if !s.outOk c bags then s.refuse id .invalid 0x53
        else s.joinEmb id

/-- EMB_UPDATE (R334). -/
def opEmbUpdate (s : State) (id : Nat) (c : Cmd) : State :=
  if !s.enabled pgEmb then s.complete id .internal
  else
    match s.parseRecords (c.desc.specF 39 36) (s.payload c.desc) with
    | none => s.refuse id .invalid 0x50
    | some l =>
      match s.tableChecks id c.tenant (l.map (fun r => (r.table, r.row))) with
      | some (st, r) => s.refuse id st r
      | none =>
        if l.any (fun r => decide (1 < r.kind) || (r.kind == 0 && s.tblFormat r.table != 1)) then s.refuse id .invalid 0x54
        else s.joinEmb id

/-! ## Hot rows (R329 to R333) -/

/-- Stack of a device address (R548). -/
def stackOf (addr : Nat) : Nat := addr / 65536 % 12

/-- Mask of the primary alone: none of the stacks for a table in a pool. -/
def State.primaryMask (s : State) (t row : Nat) : Nat := if s.tblPool t then 0 else 2 ^ stackOf (s.rowAddr t row)

/-- The entry of a row. -/
def State.hotOf (s : State) (t row : Nat) : Option (Nat × HotRow) :=
  s.emb.hot.find? (fun _ h => h.table == t && h.row == row)

def State.setHot (s : State) (i : Nat) (h : HotRow) : State :=
  { s with emb := { s.emb with hot := s.emb.hot.set i h } }

/-- Whether an entry has copies beyond its primary. -/
def State.hasCopies (s : State) (h : HotRow) : Bool := h.mask != s.primaryMask h.table h.row

/-- Bytes of the replica area of a stack in use: copies that stand, those that a switch that waits leads to, and removed ones
until the boundary that frees them (R330). -/
def State.replUsed (s : State) (stack : Nat) : Nat :=
  (s.emb.hot.values.map (fun h =>
    if (bitAt h.mask stack || bitAt (h.pend.getD 0) stack) && !bitAt (s.primaryMask h.table h.row) stack then
      s.tblWidth h.table else 0)).sum
    + ((s.emb.freeing.filter (fun e => e.1 == stack)).map (·.2)).sum

/-- The replica area of a stack has room for a row of `w` bytes. -/
def State.replRoom (s : State) (stack w : Nat) : Bool :=
  decide (s.replUsed stack + w ≤ s.reg .EMB_REPL_SIZE_MIB stack * 2 ^ 20)

/-- Order in which a row's stacks are filled: from the one after its primary (log entry 39). -/
def State.replOrder (s : State) (t row : Nat) : List Nat :=
  let p := if s.tblPool t then 11 else stackOf (s.rowAddr t row)
  (List.range 12).map (fun i => (p + 1 + i) % 12)

/-- The mask that gives an entry `n` copies, its primary included; none where the areas lack room. -/
def State.maskFor (s : State) (h : HotRow) (n : Nat) : Option Nat :=
  let w := s.tblWidth h.table
  let prim := s.primaryMask h.table h.row
  let keep := (s.replOrder h.table h.row).filter (fun k => !bitAt prim k)
  let have' := keep.filter (fun k => bitAt h.mask k)
  let more := keep.filter (fun k => !bitAt h.mask k && s.replRoom k w)
  let l := (have' ++ more).take (n - 1)
  if l.length = n - 1 then some (prim + (l.map (fun k => 2 ^ k)).sum) else none

/-- The entry of lowest count without copies. -/
def lowestCold (s : State) : List (Nat × HotRow) → Option (Nat × HotRow)
  | [] => none
  | e :: l =>
    match lowestCold s l with
    | none => if s.hasCopies e.2 || e.2.pend.isSome || e.2.inflight != 0 then none else some e
    | some f =>
      if s.hasCopies e.2 || e.2.pend.isSome || e.2.inflight != 0 then some f
      else if f.2.count < e.2.count then some f else some e

/-- An offered row takes an entry: a free one, or that of lowest count without copies if its count is lower (R330). -/
def State.offerRow (s : State) (t row count : Nat) : Option Nat × State :=
  match s.hotOf t row with
  | some (i, _) => (some i, s)
  | none =>
    let h : HotRow := { table := t, row := row, mask := s.primaryMask t row, count := count }
    match s.emb.hot.freeFrom 0 (s.emb.hot.size + 1) with
    | some i =>
      if i < 32768 then (some i, s.setHot i h)
      else match lowestCold s s.emb.hot.entries with
        | some (j, g) => if g.count < count then (some j, s.setHot j h)
          else (none, (s.bump .EMB_HOT_FULL_COUNT).setIntBit pgEmb 10)
        | none => (none, (s.bump .EMB_HOT_FULL_COUNT).setIntBit pgEmb 10)
    | none => (none, s)

def State.decayShiftEmb (s : State) : Nat := min 16 (max 1 (s.reg .EMB_HOT_DECAY_SHIFT))
def State.hotCopies (s : State) : Nat := min 12 (max 2 (s.reg .EMB_HOT_COPIES))

/-- Detection at a boundary: counts decay, the batch's counts are added, rows over MIN_COUNT are offered. -/
def State.detect (s : State) : State :=
  let counts := s.emb.counts
  let k := s.decayShiftEmb
  let s := { s with emb := { s.emb with
    counts := Map.empty
    hot := s.emb.hot.map (fun _ h => { h with
      count := min (2 ^ 32 - 1) (h.count - h.count / 2 ^ k + counts.getD (rowKey h.table h.row) 0) }) } }
  if s.regBit .EMB_CFG_HOT_EN then
    (counts.entries.filter (fun e => decide (s.reg .EMB_HOT_MIN_COUNT ≤ e.2))).foldl
      (fun s e => (s.offerRow (e.1 / 2 ^ 32) (e.1 % 2 ^ 32) e.2).2) s
  else s

/-- Automatic copies at a boundary. -/
def State.autoCopies (s : State) : State :=
  if s.regBit .EMB_CFG_AUTO_REPL then
    s.emb.hot.entries.foldl (fun s e =>
      match s.emb.hot.get? e.1 with
      | none => s
      | some h =>
        if !s.hasCopies h && h.pend.isNone && decide (s.reg .EMB_HOT_REPL_AT ≤ h.count) then
          match s.maskFor h s.hotCopies with
          | some m => s.setHot e.1 { h with pend := some m }
          | none => s
        else if s.hasCopies h && h.pend.isNone && decide (h.count < s.reg .EMB_HOT_DROP_AT) then
          s.setHot e.1 { h with pend := some (s.primaryMask h.table h.row) }
        else s) s
  else s

/-- Stacks of a mask in ascending order. -/
def stacksOf (mask : Nat) : List Nat := (List.range 12).filter (fun k => bitAt mask k)

/-- An entry after the switch to a mask: its copies are written from the primary with its ROW_SEQ. -/
def State.switched (s : State) (h : HotRow) (m : Nat) : HotRow :=
  let prim := s.primaryMask h.table h.row
  let c : RowCopy := { seq := h.seq, bytes := s.rowBytes h.table h.row }
  { h with mask := m, pend := none,
           copies := ((stacksOf m).filter (fun k => !bitAt prim k)).foldl (fun l k => l.set k c) ⟨[]⟩ }

/-- Pending switches at a boundary: made where INFLIGHT is 0, deferred else. The space of a removed copy is freed at the next
boundary. -/
def State.makeSwitches (s : State) : State :=
  s.emb.hot.entries.foldl (fun s e =>
    match e.2.pend with
    | none => s
    | some m =>
      if e.2.inflight = 0 then
        let gone := (stacksOf e.2.mask).filter (fun k => !bitAt m k && !bitAt (s.primaryMask e.2.table e.2.row) k)
        let s := (s.setHot e.1 (s.switched e.2 m)).bump .EMB_SWITCHES_COUNT
        { s with emb := { s.emb with freeing := s.emb.freeing ++ gone.map (fun k => (k, s.tblWidth e.2.table)) } }
      else s.bump .EMB_SWITCH_DEFERS_COUNT) s

/-- A switch of an entry to a mask is asked for, where it changes the copy set. -/
def HotRow.ask (h : HotRow) (m : Nat) : HotRow := { h with pend := if m = h.mask then none else some m }

/-- Entries of an EMB_REPLICATE payload as (table, row). -/
def parseRepl : Nat → List Byte → List (Nat × Nat)
  | 0, _ => []
  | n + 1, bs => (leAt bs 4 1, leAt bs 0 4) :: parseRepl n (bs.drop 8)

/-- Candidates of a tenant in descending count (ACTION 2). -/
def State.candidateRows (s : State) (tenant : Nat) : List (Nat × Nat) :=
  (sortBy (fun (a b : Nat × HotRow) => decide (b.2.count < a.2.count) || (a.2.count == b.2.count && decide (a.1 < b.1)))
    (s.emb.hot.entries.filter (fun e => s.tblUsable e.2.table && s.reg .EMB_TBL_CFG_TENANT e.2.table == tenant
      && !s.hasCopies e.2))).map (fun e => (e.2.table, e.2.row))

/-- Ask for the switches of a list of rows: the entries asked, and false where one could not be had. -/
def askSwitches (copies : Option Nat) : List (Nat × Nat) → State → List Nat → Bool × List Nat × State
  | [], s, acc => (true, acc, s)
  | (t, r) :: l, s, acc =>
    match s.offerRow t r 0 with
    | (none, s) => (false, acc, s)
    | (some i, s) =>
      match s.emb.hot.get? i with
      | none => (false, acc, s)
      | some h =>
        match copies with
        | none => askSwitches copies l (s.setHot i (h.ask (s.primaryMask t r))) (acc ++ [i])
        | some n =>
          match s.maskFor h n with
          | none => (false, acc, s)
          | some m => askSwitches copies l (s.setHot i (h.ask m)) (acc ++ [i])

/-- EMB_REPLICATE (R332). -/
def opEmbReplicate (s : State) (id : Nat) (c : Cmd) : State :=
  let d := c.desc
  if !s.enabled pgEmb then s.complete id .internal
  else if s.emb.repl.isSome then s.waitCmd id
  else
    let rows := if d.opt 8 2 = 2 then s.candidateRows c.tenant else parseRepl (d.payLen / 8) (s.payload d)
    if rows.any (fun k => !s.tblOpen id k.1 || s.tblRemote k.1) then s.refuse id .invalid 0x51
    else match s.tableChecks id c.tenant rows with
      | some (st, r) => s.refuse id st r
      | none =>
        let s := s.beginLong pgEmb
        match askSwitches (if d.opt 8 2 = 1 then none else some (d.opt 10 4)) rows s [] with
        | (false, _, s) => (s.abortLong pgEmb).complete id .noSpace 16
        | (true, l, s) => ({ s with emb := { s.emb with repl := some { cmd := id, entries := l } } }).runCmd id true

/-- The end of an EMB_REPLICATE at a boundary (R333). -/
def State.replDone (s : State) : State :=
  match s.emb.repl with
  | none => s
  | some j =>
    let pend := (j.entries.filter (fun i => ((s.emb.hot.get? i).map (fun h => h.pend.isSome)).getD false)).length
    let s := { s with emb := { s.emb with repl := none } }
    let s := (s.progress pgEmb (j.entries.length - pend) 99).endLong pgEmb
    s.complete j.cmd .ok 0 (j.entries.length - pend + pend * 2 ^ 32)

/-! ## Applying changes (R331, R335 to R338) -/

/-- The taint bit of a row is set. -/
def State.setTaint (s : State) (key : Nat) : State :=
  if s.emb.taint.contains key then s
  else ({ s with emb := { s.emb with taint := key :: s.emb.taint } }).setIntBit pgEmb 8

def State.clearTaint (s : State) (key : Nat) : State :=
  { s with emb := { s.emb with taint := s.emb.taint.filter (· != key), badRows := s.emb.badRows.filter (· != key) } }

/-- Add a row of values to another, element by element. -/
def addRows (a b : List Word) : List Word := (a.zip b).map (fun (x, y) => fadd x y)

/-- An application reaches every copy of a hot row, and ROW_SEQ and INFLIGHT move (R331). -/
def State.hotApplied (s : State) (t row : Nat) (held : Bool) : State :=
  match s.hotOf t row with
  | some (i, h) => s.setHot i { h with
      seq := h.seq + 1, inflight := if held then h.inflight - 1 else h.inflight,
      copies := h.copies.map (fun _ _ => { seq := h.seq + 1, bytes := s.rowBytes t row }) }
  | none => s

/-- A change of a row that is no longer held and was not applied. -/
def State.hotDropped (s : State) (t row : Nat) : State :=
  match s.hotOf t row with
  | some (i, h) => s.setHot i { h with inflight := h.inflight - 1 }
  | none => s

/-- INFLIGHT counts a change that has arrived or is held. -/
def State.hotHeld (s : State) (t row : Nat) : State :=
  match s.hotOf t row with
  | some (i, h) => s.setHot i { h with inflight := min 65535 (h.inflight + 1) }
  | none => s

/-- Apply a change to its row and every copy, in one application; a STORE clears the taint bit. -/
def State.applyChange (s : State) (c : Change) (held : Bool) : State :=
  let key := rowKey c.table c.row
  let s := match c.base with
    | some v => (s.writeRow c.table c.row v).clearTaint key
    | none => s
  let s := match c.delta with
    | some v => s.writeRow c.table c.row (addRows (s.readRow c.table c.row) v)
    | none => s
  (s.bump .EMB_TBL_SEQ_COUNT c.table).hotApplied c.table c.row held

/-- The change adds to a row whose primary cannot be read (R342). -/
def State.addsToBad (s : State) (c : Change) : Bool := c.base.isNone && s.emb.badRows.contains (rowKey c.table c.row)

/-- A change that adds to an unreadable row ends its commands here; a sender elsewhere gets no answer (log entry 129). -/
def State.failHeld (s : State) (c : Change) : State :=
  c.cmds.foldl (fun s id => s.complete id .internal) (s.hotDropped c.table c.row)

/-- A change is applied at last: its commands here complete, or its sender is told (R335, R386). -/
def State.reportApplied (s : State) (c : Change) : State :=
  let s := c.cmds.foldl (fun s id => s.complete id .ok) s
  if c.source = s.reg .FAM_SELF_DEVICE then s
  else (s.sendPeer c.source .applied c.seq 0 c.table c.row [] (some (s.reg .EMB_TBL_CFG_TENANT c.table))).2

/-- Apply an inbox change in arrival order: a SHARED table without DET_EN gains a taint bit by an add (R336). -/
def State.applyInbox (s : State) (c : Change) : State :=
  if s.addsToBad c then s.failHeld c
  else
    let s := s.applyChange c true
    let s := if s.tblShared c.table && !s.tblDet c.table && c.delta.isSome then s.setTaint (rowKey c.table c.row) else s
    s.reportApplied c

/-- Apply a late change (R338). -/
def State.applyLate (s : State) (c : Change) : State :=
  if s.addsToBad c then s.failHeld c
  else
    let s := (s.applyChange c true).setTaint (rowKey c.table c.row)
    ((s.bump .EMB_LATE_COUNT).setIntBit pgEmb 9).reportApplied c

/-- Apply a change of an epoch (R337). -/
def State.applyHeld (s : State) (c : Change) : State :=
  if s.addsToBad c then s.failHeld c else (s.applyChange c true).reportApplied c

/-- Changes of a closed epoch in the order of R337; those of one source and sequence keep their order. -/
def epochOrder (l : List Change) : List Change :=
  sortBy (fun (a b : Change) => decide (a.row < b.row) || (a.row == b.row && (decide (a.source < b.source)
    || (a.source == b.source && decide (a.seq ≤ b.seq))))) l

/-- The window of an epoch has closed. -/
def State.epochClosed (s : State) (e : Epoch) : Bool := e.closed || decide (e.closeTick ≤ s.tick)

/-- Apply every closed epoch, in the order of closing. -/
def State.applyEpochs (s : State) : State :=
  let closed := sortBy (fun (a b : Epoch) => decide (a.closeTick ≤ b.closeTick)) (s.emb.epochs.filter s.epochClosed)
  let s := { s with emb := { s.emb with
    epochs := s.emb.epochs.filter (fun e => !s.epochClosed e)
    applied := s.emb.applied ++ closed.map (fun e => (e.table, e.epoch)) } }
  closed.foldl (fun s e => (epochOrder e.changes).foldl State.applyHeld s) s

/-- A change to a table in deterministic mode enters its epoch, or is late (R337, R338). -/
def State.enterEpoch (s : State) (c : Change) : State :=
  let s := s.hotHeld c.table c.row
  if s.emb.applied.contains (c.table, c.epoch) then { s with emb := { s.emb with late := s.emb.late ++ [c] } }
  else if s.emb.epochs.any (fun e => e.table == c.table && e.epoch == c.epoch) then
    { s with emb := { s.emb with epochs := s.emb.epochs.map (fun e =>
        if e.table == c.table && e.epoch == c.epoch then { e with changes := e.changes ++ [c] } else e) } }
  else
    let w := max 1 (s.reg .EMB_TBL_DET_WINDOW_US c.table) * 1000
    { s with emb := { s.emb with epochs := s.emb.epochs ++
        [{ table := c.table, epoch := c.epoch, closeTick := s.tick + w, changes := [c] }] } }

/-- The row DET_EPOCH_CLOSE: the window of an epoch closes. -/
def execDetEpochClose (table epoch : Nat) (s : State) : Host.Outcome State Fault Refusal :=
  .next { s with emb := { s.emb with epochs := s.emb.epochs.map (fun e =>
    if e.table = table ∧ e.epoch = epoch ∧ e.closeTick ≤ s.tick then { e with closed := true } else e) } }

/-- Merge the records of one row of a batch in input order (R335). -/
def mergeRow (l : List URec) : Option (List Word) × Option (List Word) :=
  let rec go : List URec → Option (List Word) → Option (List Word) → Option (List Word) × Option (List Word)
    | [], b, d => (b, d)
    | r :: rest, b, d =>
      if r.kind = 1 then go rest (some r.values) none
      else go rest b (some (match d with
        | none => r.values
        | some v => addRows v r.values))
  go l none none

/-- A record with its command and the epoch that separates its merge: EPOCH for a table in deterministic mode or held by
another device, 0 else (log entry 40). -/
structure URecOf where
  cmd : Nat
  epoch : Nat
  r : URec
  deriving DecidableEq, Repr

/-- The merged changes of a batch in ascending key. -/
def State.mergeBatch (s : State) (cmds : List (Nat × Desc)) : List Change :=
  let recs := cmds.flatMap (fun (id, d) => (s.recordsOf d).map (fun r =>
    ({ cmd := id, epoch := if s.tblRemote r.table || s.tblDet r.table then d.specF 43 40 else 0, r := r } : URecOf)))
  let keyOf (u : URecOf) : Nat := rowKey u.r.table u.r.row * 2 ^ 32 + u.epoch
  let keys := ((sortKeys (recs.map keyOf)).map (·.1)).eraseDups
  keys.map (fun k =>
    let l := recs.filter (fun u => keyOf u == k)
    let (b, d) := mergeRow (l.map (·.r))
    { table := k / 2 ^ 64, row := k / 2 ^ 32 % 2 ^ 32, base := b, delta := d, source := s.reg .FAM_SELF_DEVICE,
      seq := s.emb.seq, epoch := k % 2 ^ 32, cmds := (l.map (·.cmd)).eraseDups })

/-- Send a merged change to the home of a REMOTE table: the store, then the add. False where the home cannot be reached. -/
def State.sendChange (s : State) (c : Change) : Bool × State :=
  let home := s.reg .EMB_TBL_HOME_DEVICE c.table
  let ht := s.reg .EMB_TBL_HOME_TABLE c.table
  let note (s : State) : State :=
    ({ s with emb := { s.emb with sent := s.emb.sent ++ c.cmds.map (fun id => (id, home, c.seq, c.row)) } }).bump
      .EMB_REMOTE_SENT_COUNT
  let (ok, s) := match c.base with
    | none => (true, s)
    | some v =>
      let (ok, s) := s.sendPeer home .rowStore c.seq c.epoch ht c.row v (some (s.reg .EMB_TBL_CFG_TENANT c.table))
      (ok, if ok then note s else s)
  if !ok then (false, s)
  else match c.delta with
    | none => (true, s)
    | some v =>
      let (ok, s) := s.sendPeer home .fp32Add c.seq c.epoch ht c.row v (some (s.reg .EMB_TBL_CFG_TENANT c.table))
      (ok, if ok then note s else s)

/-- A command of the engine fails for a home (R342). -/
def State.failSent (s : State) (ids : List Nat) : State :=
  let s := { s with emb := { s.emb with sent := s.emb.sent.filter (fun e => !ids.contains e.1) } }
  ids.foldl (fun s id => s.complete id .internal) s

/-- One merged change at the commit of its batch. -/
def State.commitChange (s : State) (c : Change) : State :=
  if s.tblRemote c.table then
    let (ok, s) := s.sendChange c
    if ok then s else s.homeDown.failSent c.cmds
  else if !s.tblReachable c.table then s.homeDown.failSent c.cmds
  else if s.tblDet c.table then s.enterEpoch c
  else if s.addsToBad c then s.failSent c.cmds
  else s.applyChange { c with cmds := [] } false

/-- A home did not answer: its lookups and updates fail (R342, R391). -/
def State.embTargetLost (s : State) (device : Nat) : State :=
  let homed (key : Nat) : Bool :=
    let t := key / 2 ^ 32
    s.tblRemote t && s.reg .EMB_TBL_HOME_DEVICE t == device
  let ids := ((s.emb.sent.filter (fun e => e.2.1 == device)).map (·.1)).eraseDups
  let hit := (s.emb.batch.map (fun b => b.waiting.any homed)).getD false
  let s := if hit || !ids.isEmpty then s.homeDown else s
  let cut (b : EmbBatch) : EmbBatch :=
    { b with waiting := b.waiting.filter (fun k => !homed k), unread := b.unread ++ b.waiting.filter homed }
  let s := { s with emb := { s.emb with batch := s.emb.batch.map cut } }
  s.failSent ids

/-! ## Batches (R319 to R324) -/

/-- An urgent lookup (R268). -/
def State.urgentCmd (s : State) (c : Cmd) : Bool := s.urgentClass c.desc.cls

def State.batchIdx (s : State) : Nat := min 1048576 (max 1 (s.reg .EMB_BATCH_IDX))

/-- The commands of the next batch, in order: while its indices stay within IDX, and up to a lookup whose session has an
earlier update in it (R322); a command that is larger forms a batch alone. -/
def takeBatch (s : State) (idx : Nat) : List Nat → List Nat → Nat → List Nat
  | [], acc, _ => acc
  | id :: l, acc, n =>
    match s.cmd? id with
    | none => takeBatch s idx l acc n
    | some c =>
      let k := s.keysOf c.desc
      let clash := c.desc.opcode == 0x30 && c.desc.handle != 0 &&
        acc.any (fun j => ((s.cmd? j).map (fun e => e.desc.opcode == 0x31 && e.desc.handle == c.desc.handle)).getD false)
      if clash || (!acc.isEmpty && decide (idx < n + k)) then acc
      else takeBatch s idx l (acc ++ [id]) (n + k)

/-- Urgent commands of an opcode among those that wait for an engine; one whose session has an earlier waiting command of
another opcode stays behind it (R322, R350). -/
def State.urgentOf (s : State) (waiting : List Nat) (op : Nat) : List Nat :=
  waiting.filter (fun id => ((s.cmd? id).map (fun c => c.desc.opcode == op && s.urgentCmd c && (c.desc.handle == 0
    || !(waiting.takeWhile (· != id)).any (fun j =>
      ((s.cmd? j).map (fun e => e.desc.opcode != op && e.desc.handle == c.desc.handle)).getD false)))).getD false)

/-- The commands that may form the next batch: urgent lookups ahead of any others (R323). -/
def State.batchPool (s : State) : List Nat :=
  let u := s.urgentOf s.emb.waiting 0x30
  if u.isEmpty then s.emb.waiting else u

/-- Tick at which the first of some commands came to its engine (R319, R350). -/
def State.firstTick (s : State) (l : List Nat) : Nat := ((l.head?.bind s.cmd?).map (·.startTick)).getD s.tick

/-- The tiles of a batch may have the cores now: it is urgent and urgent tiles may pre-empt a step, or no step runs (R323,
R351). -/
def State.coresFor (s : State) (urgent : Bool) : Bool :=
  s.gaf.running.isNone || (urgent && s.reg .GAF_URGENT_PCT != 0)

/-- A batch closes now (R319). -/
def State.embDue (s : State) : Bool :=
  let pool := s.batchPool
  let n := (pool.map (fun id => ((s.cmd? id).map (fun c => s.keysOf c.desc)).getD 0)).sum
  let served := !s.emb.requests.isEmpty
  (!pool.isEmpty && (decide (s.batchIdx ≤ n) || decide (s.firstTick pool + s.reg .EMB_GATHER_US * 1000 ≤ s.tick)))
    || (pool.isEmpty && served)

/-- What a fetch by cluster `k` reads of a hot row: the copy of position `k mod m`, counted from the lowest stack with a primary
in a pool last; true where its ROW_SEQ differs, and the primary is read instead (R329). -/
def State.fetchCopy (s : State) (h : HotRow) (k : Nat) : List Byte × Bool :=
  let l := stacksOf h.mask
  match (l[k % (l.length + b2n (s.tblPool h.table))]?).bind h.copies.get? with
  | none => (s.rowBytes h.table h.row, false)
  | some c => if c.seq = h.seq then (c.bytes, false) else (s.rowBytes h.table h.row, true)

/-- Read a row for a batch. Which cluster fetches is a free value: no result depends on it. -/
def State.fetchLocal (s : State) (t row : Nat) : List Word × State :=
  match s.hotOf t row with
  | none => (s.readRow t row, s)
  | some (_, h) =>
    let (bs, miss) := s.fetchCopy h ((Config.freeWord s.free).toNat % 8)
    (rowOfBytes (s.tblFormat t) bs, if miss then s.useFree.bump .EMB_REPL_MISMATCH_COUNT else s.useFree)

/-- Take one unique row into the snapshot of a batch. The taint of a row of this device is its own bit; the taint of a row of
a REMOTE table arrives with its ROW_DATA as a free value, since R386 gives the message no field for it (DESIGN CHOICE, log
entry 126). -/
def State.fetchRow (s : State) (b : EmbBatch) (key : Nat) : EmbBatch × State :=
  let t := key / 2 ^ 32
  let row := key % 2 ^ 32
  let s := (s.bump .EMB_UNIQUE_COUNT).bump .EMB_FETCH_BYTES_COUNT 0 (s.tblWidth t)
  let b := if s.emb.taint.contains key then { b with tainted := key :: b.tainted } else b
  if s.tblRemote t then
    match s.sendPeer (s.reg .EMB_TBL_HOME_DEVICE t) .rowReq s.emb.seq 0 (s.reg .EMB_TBL_HOME_TABLE t) row []
        (some (s.reg .EMB_TBL_CFG_TENANT t)) with
    | (true, s) => ({ b with waiting := b.waiting ++ [key] }, s.bump .EMB_REMOTE_SENT_COUNT)
    | (false, s) => ({ b with unread := key :: b.unread }, s.homeDown)
  else if s.emb.badRows.contains key then ({ b with unread := key :: b.unread }, s)
  else if !s.tblReachable t then ({ b with unread := key :: b.unread }, s.homeDown)
  else
    let (v, s) := s.fetchLocal t row
    ({ b with rows := b.rows.set key v }, s)

/-- Keys of a lookup's entries. -/
def bagKeys (bags : List Bag) : List Nat := bags.flatMap (fun b => b.entries.map (fun e => rowKey b.table e.1))

/-- Serve the row requests that wait: with the values before the batch's own updates (R340). A row that cannot be read gets no
answer, and its requester's lookup ends at the response timeout (R342, log entry 129). -/
def State.serveRequests (s : State) : State :=
  let l := s.emb.requests.filter (fun (_, _, t, row) => !s.emb.badRows.contains (rowKey t row) && s.tblReachable t)
  l.foldl (fun s (src, q, t, row) => (s.sendPeer src .rowData q 0 t row (s.readRow t row)
      (some (s.reg .EMB_TBL_CFG_TENANT t))).2)
    { s with emb := { s.emb with requests := [] } }

/-- Close a batch: snapshot, sort and fetch. -/
def State.embClose (s : State) : State :=
  let cmds := takeBatch s s.batchIdx s.batchPool [] 0
  let e := s.emb
  let rest := e.waiting.filter (fun i => !cmds.contains i)
  let urgent := !(s.urgentOf e.waiting 0x30).isEmpty
  let s := { s with emb := { e with waiting := rest, seq := e.seq + 1 } }
  let s := s.serveRequests
  let keys := cmds.flatMap (fun id => ((s.cmd? id).map (fun c =>
    if c.desc.opcode = 0x30 then bagKeys (s.bagsOf c.desc) else [])).getD [])
  let s := s.bump .EMB_INDICES_COUNT 0 keys.length
  let uniq := ((sortKeys keys).map (·.1)).eraseDups
  let (b, s) := uniq.foldl (fun (b, s) k => State.fetchRow s b k) (({ cmds := cmds, tiles := s.coresFor urgent } : EmbBatch), s)
  let counts := keys.foldl (fun m k => if s.tblRemote (k / 2 ^ 32) then m else m.set k (m.getD k 0 + 1)) s.emb.counts
  { s with emb := { s.emb with batch := some b, counts := counts } }

/-- The row EMB_BATCH_CLOSE. -/
def execEmbBatchClose (s : State) : Host.Outcome State Fault Refusal :=
  .next (if s.enabled pgEmb && s.rowsOn && s.hbmOn && s.freeze == 0 && s.emb.batch.isNone && s.embDue then s.embClose else s)

/-- Pool one bag from a snapshot (R324). -/
def poolBag (rows : Map (List Word)) (mean bf16 : Bool) (d : Nat) (b : Bag) : List Word :=
  let n := b.entries.length
  (List.range d).map (fun c =>
    let acc := b.entries.foldl (fun acc e =>
      let v := (((rows.get? (rowKey b.table e.1)).getD [])[c]?).getD f32zero
      fadd acc (if mean then v else fmul e.2 v)) f32zero
    let acc := if mean ∧ 0 < n then fmul acc (frecip (f32OfInt (n : Int))) else acc
    if bf16 then BitVec.ofNat 32 (convert 0x03 (f32 acc)).code else acc)

/-- Write the vectors of a lookup with DELIVER 0. -/
def writeVectors (inWin : Bool) (addr es : Nat) : Nat → List (List Word) → State → State
  | _, [], s => s
  | b, v :: l, s =>
    let bs := v.flatMap (fun w => leBytes w.toNat es)
    writeVectors inWin addr es (b + 1) l (s.writeMem inWin (addr + b * roundup64e (v.length * es)) bs)

/-- Deliver a lookup to its session (R327), or the DETAIL of NO_SPACE. -/
def State.deliver (s : State) (slot : Nat) (vecs : List (List Word)) (nr : Bool) : Nat × State :=
  match s.session? slot with
  | none => (0, s)
  | some x =>
    if !s.positionsFit x vecs.length then (12, s)
    else if !s.vecRoom x vecs.length ((vecs.head?.map List.length).getD 0) then (13, s)
    else
      let s := if nr then s.onSession slot (fun y => { y with nr := true }) else s
      (0, (s.promoting slot).enterInput slot (vecs.map (fun v => { token := none, vec := v })))

/-- One lookup of a batch is pooled, delivered and completed (R324, R327, R328). -/
def State.finishLookup (s : State) (b : EmbBatch) (id : Nat) (c : Cmd) : State :=
  let d := c.desc
  let bags := s.bagsOf d
  let keys := (bagKeys bags).eraseDups
  if keys.any b.unread.contains then s.complete id .internal
  else
    let nr := keys.any b.tainted.contains
    let toSession := d.opt 8 2 == 1
    let vecs := bags.map (fun g => poolBag b.rows (d.optBit 10) (d.optBit 11 && !toSession) (s.tblD g.table) g)
    let s := s.bump .EMB_BAGS_COUNT 0 bags.length
    let st : Status := if nr then .notReproducible else .ok
    let count (s : State) : State := if nr then s.bump .EMB_TAINT_READS_COUNT else s
    let result := bags.length + keys.length * 2 ^ 32
    if toSession then
      match c.slot.bind s.session? with
      | none => s.complete id .staleHandle
      | some x =>
        if x.runState = .lost then s.complete id .lost
        else match s.deliver (c.slot.getD 0) vecs nr with
          | (0, s) => (count s).complete id st 0 result
          | (n, s) => s.complete id .noSpace n
    else
      let s := writeVectors (d.optBit 12) (d.specF 47 40) (if d.optBit 11 then 2 else 4) 0 vecs s
      (count s).complete id st 0 result

/-- An update of a batch that waits for nothing more completes. -/
def State.finishUpdate (s : State) (id : Nat) : State :=
  let held := s.emb.sent.any (fun e => e.1 == id)
    || s.emb.epochs.any (fun e => e.changes.any (fun c => c.cmds.contains id))
    || s.emb.late.any (fun c => c.cmds.contains id)
  if held then s else s.complete id .ok

/-- Tables whose VALID was written 0 go at the boundary (R341). -/
def State.retireTables (s : State) : State :=
  let l := s.emb.retiring.map (·.1)
  let s := l.foldl (fun s t => s.setReg .EMB_TBL_CFG_VALID 0 t) s
  { s with emb := { s.emb with retiring := [], hot := s.emb.hot.filter (fun _ h => !l.contains h.table) } }

/-- VALID of a table is written 0: it goes at the next boundary, at once where the engine is not ENABLED (R341). -/
def State.retireTable (s : State) (t : Nat) : State :=
  let s := { s with emb := { s.emb with retiring := s.emb.retiring ++ [(t, s.nextCmd)] } }
  if s.enabled pgEmb then s else s.retireTables

/-- What every boundary does after the batch's own changes: inbox, epochs, late changes, then the hot rows (R330, R336 to
R338). -/
def State.embBoundary (s : State) : State :=
  let inbox := s.emb.inbox
  let s := inbox.foldl State.applyInbox { s with emb := { s.emb with inbox := [], freeing := [] } }
  let s := s.applyEpochs
  let late := s.emb.late
  let s := late.foldl State.applyLate { s with emb := { s.emb with late := [] } }
  s.detect.autoCopies.makeSwitches.replDone.retireTables.safePoint pgEmb

/-- Commit a batch whose rows have all arrived (R320). -/
def State.embCommit (s : State) (b : EmbBatch) : State :=
  let cs := b.cmds.filterMap (fun id => (s.cmd? id).map (fun c => (id, c)))
  let ups := cs.filter (fun e => e.2.desc.opcode == 0x31)
  let changes := s.mergeBatch (ups.map (fun e => (e.1, e.2.desc)))
  let s := (cs.filter (fun e => e.2.desc.opcode == 0x30)).foldl (fun s e => s.finishLookup b e.1 e.2) s
  let s := s.bump .EMB_RECORDS_COUNT 0 ((ups.map (fun e => e.2.desc.specF 39 36)).sum)
  let s := { s with emb := { s.emb with batch := none } }
  let s := changes.foldl State.commitChange s
  let s := (s.embBoundary).bump .EMB_BATCHES_COUNT
  ups.foldl (fun s e => s.finishUpdate e.1) s

/-- The row EMB_BATCH_COMMIT: the batch's boundary; with no batch, the boundary of an engine that has nothing to run. -/
def execEmbBatchCommit (s : State) : Host.Outcome State Fault Refusal :=
  .next (if !s.enabled pgEmb || s.freeze == 2 then s
    else match s.emb.batch with
      | some b => if b.waiting.isEmpty && (b.tiles || s.coresFor false) then s.embCommit b else s
      | none => if s.emb.waiting.isEmpty && s.freeze == 0 then s.embBoundary else s)

/-! ## What peers send (R335, R336, R340, R386) -/

/-- A change arrives at this device as the table's home. -/
def State.arrive (s : State) (m : PeerMsg) (c : Change) : State :=
  if s.enabled pgEmb ∧ s.tblUsable m.table = true ∧ s.tblShared m.table = true ∧ s.tblRemote m.table = false
      ∧ m.row < s.tblRows m.table then
    let s := s.bump .EMB_REMOTE_RECV_COUNT
    if s.tblDet m.table then s.enterEpoch c
    else (({ s with emb := { s.emb with inbox := s.emb.inbox ++ [c] } }).hotHeld m.table m.row)
  else s

/-- The row FP32_ADD; a change whose epoch was applied is late (R338). -/
def execFp32Add (m : PeerMsg) (s : State) : Host.Outcome State Fault Refusal :=
  .next (match s.takeMsg m with
    | none => s
    | some s => s.arrive m { table := m.table, row := m.row, delta := some m.values, source := m.source, seq := m.seq,
                             epoch := m.epoch })

/-- The row ROW_STORE. -/
def execRowStore (m : PeerMsg) (s : State) : Host.Outcome State Fault Refusal :=
  .next (match s.takeMsg m with
    | none => s
    | some s => s.arrive m { table := m.table, row := m.row, base := some m.values, source := m.source, seq := m.seq,
                             epoch := m.epoch })

/-- The row ROW_REQ: served in the next batch's fetch. -/
def execRowReq (m : PeerMsg) (s : State) : Host.Outcome State Fault Refusal :=
  .next (match s.takeMsg m with
    | none => s
    | some s =>
      if s.enabled pgEmb ∧ s.tblUsable m.table = true ∧ s.tblShared m.table = true ∧ s.tblRemote m.table = false
          ∧ m.row < s.tblRows m.table then
        ({ s with emb := { s.emb with requests := s.emb.requests ++ [(m.source, m.seq, m.table, m.row)] } }).bump
          .EMB_REMOTE_RECV_COUNT
      else s)

/-- The row ROW_DATA: a row that the running batch waits for. -/
def execRowData (m : PeerMsg) (s : State) : Host.Outcome State Fault Refusal :=
  .next (match s.takeMsg m with
    | none => s
    | some s =>
      match s.emb.batch with
      | none => s
      | some b =>
        let mine := b.waiting.filter (fun k =>
          let t := k / 2 ^ 32
          k % 2 ^ 32 == m.row && s.reg .EMB_TBL_HOME_DEVICE t == m.source && s.reg .EMB_TBL_HOME_TABLE t == m.table)
        if m.seq = s.emb.seq then
          { s.useFree with emb := { s.emb with batch := some { b with
              waiting := b.waiting.filter (fun k => !mine.contains k)
              rows := mine.foldl (fun r k => r.set k m.values) b.rows
              tainted := if Config.homeTainted s.free then mine ++ b.tainted else b.tainted } } }
        else s)

/-- Remove the first occurrence of each of some elements. -/
def eraseFirst (p : Nat × Nat × Nat × Nat → Bool) (done : List Nat) :
    List (Nat × Nat × Nat × Nat) → List (Nat × Nat × Nat × Nat)
  | [] => []
  | e :: l => if p e && !done.contains e.1 then eraseFirst p (e.1 :: done) l else e :: eraseFirst p done l

/-- The row APPLIED: a sent change has been applied; the updates whose changes all are complete. -/
def execApplied (m : PeerMsg) (s : State) : Host.Outcome State Fault Refusal :=
  .next (match s.takeMsg m with
    | none => s
    | some s =>
      let p (e : Nat × Nat × Nat × Nat) : Bool := e.2.1 == m.source && e.2.2.1 == m.seq && e.2.2.2 == m.row
      let ids := ((s.emb.sent.filter p).map (·.1)).eraseDups
      let s := { s with emb := { s.emb with sent := eraseFirst p [] s.emb.sent } }
      ids.foldl State.finishUpdate s)

/-! ## EMB_ROW_UE and the enables (R341, R342) -/

/-- The row EMB_ROW_UE: an uncorrectable error in the copy of a row on a stack; `primary` says that it is the primary. -/
def execEmbRowUe (table row stack : Nat) (primary : Bool) (s : State) : Host.Outcome State Fault Refusal :=
  .next (if !s.enabled pgEmb || !s.tblUsable table || s.tblRemote table then s
    else if primary then
      ({ s with emb := { s.emb with badRows := if s.emb.badRows.contains (rowKey table row) then s.emb.badRows
                                              else rowKey table row :: s.emb.badRows } }).recErr pgEmb 0x0001
    else match s.hotOf table row with
      | some (i, h) =>
        if bitAt h.mask stack && !bitAt (s.primaryMask table row) stack then
          (s.setHot i { h with mask := h.mask - 2 ^ stack, copies := h.copies.erase stack }).recErr pgEmb 0x0001
        else s
      | none => s)

/-- The regions that R341 and R342 name, as base and length. -/
def State.deviceRegions (s : State) : List (Nat × Nat) :=
  [(s.sdirBase, 2 ^ 30), (s.sdirFree, 2 ^ 26), (s.heapBase, s.heapSize)] ++ s.caneTables
    ++ [(s.modelBase, s.modelSize), (s.storeBase, s.storeSize)]

/-- The ranges of the replica areas. -/
def State.replRanges (s : State) : List (Nat × Nat) :=
  (List.range 12).map (fun k => (s.reg .EMB_REPL_BASE_ADDR k * 2 ^ 20, 12 * s.reg .EMB_REPL_SIZE_MIB k * 2 ^ 20))

/-- A range overlaps none of a list. -/
def clearOf (base len : Nat) (l : List (Nat × Nat)) : Bool := l.all (fun r => !overlaps base len r.1 r.2)

/-- Bytes of the rows and of the taint bitmap of a table. -/
def State.tblBytes (s : State) (t : Nat) : Nat := s.tblRows t * s.tblWidth t
def State.taintBase (s : State) (t : Nat) : Nat := s.reg .EMB_TBL_TAINT_BASE_ADDR t * 4096
def State.taintBytes (s : State) (t : Nat) : Nat := ceilDiv (s.tblRows t) 8

/-- The HBM ranges of a VALID table. -/
def State.tblRanges (s : State) (t : Nat) : List (Nat × Nat) :=
  (if s.tblPool t || s.tblRemote t then [] else [(s.tblBase t, s.tblBytes t)])
    ++ (if s.tblShared t then [(s.taintBase t, s.taintBytes t)] else [])

/-- VALID tables. -/
def State.validTables (s : State) : List Nat := (s.copies .EMB_TBL_CFG_VALID).map (·.1)

/-- The checks of TBL_CFG.VALID (R341). -/
def State.tblOk (s : State) (t : Nat) : Bool :=
  let f := s.tblFormat t
  let w := s.tblWidth t
  let avoid := s.deviceRegions ++ s.replRanges
  decide (1 ≤ f) && decide (f ≤ 4) && w % 64 == 0 && decide (64 ≤ w) && decide (w ≤ 1024)
    && (s.tblRemote t
        || (if s.tblPool t then (s.mapOf (s.tblBase t) (s.tblBytes t)).isSome
            else inHbmRange (s.tblBase t) (s.tblBytes t) && clearOf (s.tblBase t) (s.tblBytes t) avoid))
    && (!s.tblShared t
        || (inHbmRange (s.taintBase t) (s.taintBytes t) && s.taintBase t != 0
            && clearOf (s.taintBase t) (s.taintBytes t) avoid))

/-- The row TBL_VALID_WRITE: TBL_CFG.VALID of the selected table. -/
def execTblValidWrite (v : Bool) (s : State) : Host.Outcome State Fault Refusal :=
  let t := s.reg .EMB_TBL_SEL_TABLE
  let s := s.touch
  .next (if !s.live then s
    else if v then
      if s.regBit .EMB_TBL_CFG_VALID t then s
      else if s.tblOk t then s.setReg .EMB_TBL_CFG_VALID 1 t else s.recErr pgEmb 0x0003
    else if s.tblUsable t then s.retireTable t
    else s)

/-- The row EMB_ENABLE, with the value written. -/
def execEmbEnable (en : Bool) (s : State) : Host.Outcome State Fault Refusal :=
  let s := s.touch
  .next (if !s.live then s
    else if en then
      if s.pageState pgEmb ≠ 0 then s
      else if s.replRanges.all (fun r => r.2 == 0 || (inHbmRange r.1 r.2 && clearOf r.1 r.2 s.deviceRegions)) then
        s.enableBlock pgEmb
      else s.recErr pgEmb 0x0003
    else if s.pageState pgEmb ≠ 1 then s
    else if s.validTables.isEmpty then s.disableBlock pgEmb else s.recErr pgEmb 0x0005)

end Sys2Proof.Machine
end

