-- ==== Sys2Proof/Machine/Search.lean ====
section
/-!
DEFINITION. Agent memory: collections, the graph walk, searches, inserts, deletes, compaction, and the enables (R343 to R369).
-/
namespace Sys2Proof.Machine

/-! ## Collections (R343 to R349) -/

def State.coll (s : State) (k : Nat) : Coll := (s.srch.colls.get? k).getD {}
def State.setColl (s : State) (k : Nat) (c : Coll) : State := { s with srch := { s.srch with colls := s.srch.colls.set k c } }

/-- The collection is VALID and not being retired. -/
def State.collUsable (s : State) (k : Nat) : Bool :=
  s.regBit .SRCH_COLL_CFG_VALID k && !s.srch.retiring.any (fun e => e.1 == k)

/-- The collection is usable by a command: VALID, and any write of 0 to VALID came after its acceptance (R368). -/
def State.collOpen (s : State) (id k : Nat) : Bool :=
  s.regBit .SRCH_COLL_CFG_VALID k && !s.srch.retiring.any (fun e => e.1 == k && decide (e.2 ≤ id))

/-- Code bytes CY of a collection. -/
def State.collCy (s : State) (k : Nat) : Nat := 32 * 2 ^ s.reg .SRCH_COLL_CFG_CODE k

def State.partsMax (s : State) (k : Nat) : Nat := min 1048576 (max 1 (s.reg .SRCH_COLL_PARTS_MAX_COUNT k))

/-- Bytes of a group on the flash tier (R345). -/
def State.groupBytes (s : State) (k : Nat) : Nat := 128 * s.collCy k + 4096

/-- Groups of a collection. -/
def Coll.groups (c : Coll) : Nat := (c.nodes.values.map (fun n => n.groups.length)).sum

/-- Records of a collection, visible or not. -/
def Coll.records (c : Coll) : Nat := (c.nodes.values.map (fun n => (n.groups.map List.length).sum)).sum

/-- List pages of a collection: 511 groups each (R346). -/
def Coll.pages (c : Coll) : Nat := (c.nodes.values.map (fun n => ceilDiv n.groups.length 511)).sum

/-- Flash bytes that all collections use, and the space they have (R344). -/
def State.collFlash (s : State) : Nat := (s.srch.colls.entries.map (fun e => e.2.groups * s.groupBytes e.1)).sum
def State.collSpace (s : State) : Nat := (16384 - s.reg .STM_FLASH_QUOTA_GIB) * 2 ^ 30

/-- Pages of a collection's list area. -/
def State.listPages (s : State) (k : Nat) : Nat := s.reg .SRCH_COLL_LIST_SIZE_MIB k * 256

/-- Number of 1 bits among the low `n`. -/
def popcount (v : Nat) : Nat → Nat
  | 0 => 0
  | n + 1 => b2n (bitAt v n) + popcount v n

/-- Hamming distance over codes of `cy` bytes (R352). -/
def hammingOf (cy a b : Nat) : Nat := popcount (Nat.xor a b) (8 * cy)

/-- Tombstone sequences of an item. -/
def State.tombSeqs (s : State) (k id : Nat) : List Nat :=
  ((s.srch.tombs.find? (fun t => t.coll == k && t.id == id)).map (·.seqs)).getD []

/-- A record is visible at a snapshot (R348). -/
def State.visible (s : State) (k snap : Nat) (r : SRecord) : Bool :=
  decide (r.seq ≤ snap) && r.seq != 0 && (s.tombSeqs k r.id).all (fun t => !(decide (r.seq < t) && decide (t ≤ snap)))

/-! ## The graph walk (R352, R353) -/

/-- Rank of partitions: (distance, partition). -/
def partBefore (a b : Nat × Nat) : Bool := decide (a.1 < b.1) || (a.1 == b.1 && decide (a.2 < b.2))

/-- What a walk leaves: the best partitions in rank order, the nodes it visited, whether it stopped on MAX_VISIT. -/
structure Walk where
  best : List (Nat × Nat) := []
  visited : List Nat := []
  capped : Bool := false
  deriving DecidableEq, Repr

/-- The loop of the walk: `cand` and `best` in rank order. -/
def walkLoop (nodes : Map SNode) (cy q snap beam maxVisit : Nat) :
    Nat → List (Nat × Nat) → Walk → Walk
  | 0, _, w => w
  | _ + 1, [], w => w
  | fuel + 1, x :: cand, w =>
    if maxVisit ≤ w.visited.length then { w with capped := true }
    else if beam ≤ w.best.length ∧ (w.best.getLast?.map (fun l => partBefore l x)).getD false = true then w
    else
      let best := (insertBy partBefore x w.best).take beam
      let edges := ((nodes.get? x.2).map (fun n => n.edges.filterMap id)).getD []
      let new := ((edges.filter (fun e => decide (e.2 ≤ snap) && e.2 != 0
        && ((nodes.get? e.1).map (fun n => decide (n.seq ≤ snap) && n.seq != 0)).getD false
        && !w.visited.contains e.1)).map (·.1)).eraseDups
      let cand := new.foldl (fun c y => insertBy partBefore
        (hammingOf cy q (((nodes.get? y).map (·.repCode)).getD 0), y) c) cand
      walkLoop nodes cy q snap beam maxVisit fuel cand { w with best := best, visited := w.visited ++ new }

/-- The walk of a code. -/
def graphWalk (nodes : Map SNode) (cy q snap beam maxVisit : Nat) : Walk :=
  match nodes.find? (fun _ n => decide (n.seq ≤ snap) && n.seq != 0) with
  | none => {}
  | some (p, n) =>
    walkLoop nodes cy q snap beam maxVisit (nodes.size + 1) [(hammingOf cy q n.repCode, p)] { visited := [p] }

def State.maxVisit (s : State) : Nat := max 1 (s.reg .SRCH_WALK_MAX_VISIT)
def State.insertBeam (s : State) : Nat := max 32 (s.reg .SRCH_WALK_INSERT_BEAM)

/-- Count a walk. -/
def State.countWalk (s : State) (w : Walk) : State :=
  let s := s.bump .SRCH_VISITS_COUNT 0 w.visited.length
  if w.capped then (s.bump .SRCH_WALK_CAPPED_COUNT).setIntBit pgSrch 10 else s

/-! ## Checks and the place in a batch (R350, R354, R355, R359, R362) -/

/-- COLLECTION of a command, and its count of queries or records. -/
def Desc.collection (d : Desc) : Nat := d.specF 36 36
def Desc.items (d : Desc) : Nat := d.specF 39 38

/-- Bytes of one query's results. -/
def resultBytes (k : Nat) : Nat := roundUp (16 + 24 * k) 64

/-- The checks of R355, then FAILED collections (R369). -/
def State.srchRefusal (s : State) (id : Nat) (c : Cmd) : Option (Status × Nat) :=
  let d := c.desc
  let k := d.collection
  let per := if d.opcode = 0x38 then 16 + s.collCy k else if d.opcode = 0x39 then 8 else s.collCy k
  if !s.collOpen id k then some (.invalid, 0x58FF)
  else if s.reg .SRCH_COLL_CFG_TENANT k ≠ c.tenant then some (.security, 0x08FF)
  else if d.opcode ≠ 0x3B ∧ d.payLen ≠ d.items * per then some (.invalid, 0x59FF)
  else if d.opcode = 0x3A ∧ (d.specF 59 56 < d.items * resultBytes (d.specF 41 40)
      ∨ (d.optBit 8 = true ∧ (s.ring c.ring).inAllotment (d.specF 55 48) (d.specF 59 56) = false)) then
    some (.invalid, 0x5AFF)
  else if (s.coll k).failed then some (.internal, 0)
  else none

/-- A search, insert or delete is checked and joins those that wait for a batch. -/
def opMem (s : State) (id : Nat) (c : Cmd) : State :=
  if !s.enabled pgSrch then s.complete id .internal
  else match s.srchRefusal id c with
    | some (st, d) => s.complete id st d
    | none =>
      let s := { s with srch := { s.srch with waiting := s.srch.waiting ++ [id] } }
      s.runCmd id true

def opMemInsert (s : State) (id : Nat) (c : Cmd) : State := opMem s id c
def opMemDelete (s : State) (id : Nat) (c : Cmd) : State := opMem s id c
def opMemSearch (s : State) (id : Nat) (c : Cmd) : State := opMem s id c

/-! ## Batches (R350, R351) -/

def State.batchQueries (s : State) : Nat := min 256 (max 1 (s.reg .SRCH_BATCH_QUERIES))

/-- Queries of a command. -/
def queriesOf (d : Desc) : Nat := if d.opcode = 0x3A then d.items else 0

/-- The commands of the next batch, in order. -/
def takeSearch (s : State) (mx : Nat) : List Nat → List Nat → Nat → List Nat
  | [], acc, _ => acc
  | id :: l, acc, n =>
    match s.cmd? id with
    | none => takeSearch s mx l acc n
    | some c =>
      let k := queriesOf c.desc
      let clash := c.desc.opcode == 0x3A && c.desc.handle != 0 &&
        acc.any (fun j => ((s.cmd? j).map (fun e => e.desc.opcode != 0x3A && e.desc.handle == c.desc.handle)).getD false)
      if clash || (!acc.isEmpty && decide (mx < n + k)) then acc
      else takeSearch s mx l (acc ++ [id]) (n + k)

/-- Urgent searches form a batch ahead of the others. -/
def State.searchPool (s : State) : List Nat :=
  let u := s.urgentOf s.srch.waiting 0x3A
  if u.isEmpty then s.srch.waiting else u

/-- A batch closes now. -/
def State.srchDue (s : State) : Bool :=
  let pool := s.searchPool
  let n := (pool.map (fun id => ((s.cmd? id).map (fun c => queriesOf c.desc)).getD 0)).sum
  !pool.isEmpty && (decide (s.batchQueries ≤ n) || decide (s.firstTick pool + s.reg .SRCH_GATHER_US * 1000 ≤ s.tick))

/-- The queries of one search with their walks. -/
def State.walkQueries (s : State) (id : Nat) (d : Desc) (snap : Nat) : Nat → State × List SQuery
  | 0 => (s, [])
  | n + 1 =>
    let (s, l) := State.walkQueries s id d snap n
    let k := d.collection
    let cy := s.collCy k
    let q := leNat (slice (s.payload d) (n * cy) cy)
    let w := graphWalk (s.coll k).nodes cy q snap (d.specF 45 44) s.maxVisit
    (s.countWalk w, l ++ [{ cmd := id, index := n, coll := k, code := q, probes := (w.best.take (d.specF 43 42)).map (·.2) }])

/-- Snapshot of a collection in a batch. -/
def snapOf (l : List (Nat × Nat)) (k : Nat) : Nat := (lookupIn k l).getD 0

/-- Close a batch: snapshots and walks. -/
def State.srchClose (s : State) : State :=
  let cmds := takeSearch s s.batchQueries s.searchPool [] 0
  let rest := s.srch.waiting.filter (fun i => !cmds.contains i)
  let urgent := !(s.urgentOf s.srch.waiting 0x3A).isEmpty
  let s := { s with srch := { s.srch with waiting := rest } }
  let cs := cmds.filterMap (fun id => (s.cmd? id).map (fun c => (id, c.desc)))
  let colls := (cs.map (fun e => e.2.collection)).eraseDups
  let snaps := colls.map (fun k => (k, (s.coll k).seq))
  let (s, qs) := (cs.filter (fun e => e.2.opcode == 0x3A)).foldl (fun (s, l) e =>
    let (s, m) := State.walkQueries s e.1 e.2 (snapOf snaps e.2.collection) e.2.items
    (s, l ++ m)) (s, [])
  { s with srch := { s.srch with batch := some {
      cmds := cmds, snaps := snaps, queries := qs, scanned := qs.isEmpty, tiles := s.coresFor urgent } } }

/-- The row SRCH_BATCH_CLOSE. -/
def execSrchBatchClose (s : State) : Host.Outcome State Fault Refusal :=
  .next (if s.enabled pgSrch && s.rowsOn && s.hbmOn && s.freeze == 0 && s.srch.batch.isNone && s.srchDue then s.srchClose else s)

/-! ## Scans (R356 to R358) -/

/-- A record found: distance, item id, partition, group, slot, record. -/
structure Hit where
  dist : Nat
  part : Nat
  group : Nat
  slot : Nat
  r : SRecord
  deriving DecidableEq, Repr

/-- Rank of records (R352). -/
def hitBefore (a b : Hit) : Bool :=
  let ka := [a.dist, a.r.id, a.part, a.group, a.slot]
  let kb := [b.dist, b.r.id, b.part, b.group, b.slot]
  let rec lt : List Nat → List Nat → Bool
    | x :: xs, y :: ys => decide (x < y) || (x == y && lt xs ys)
    | _, _ => false
  lt ka kb

/-- Pair each element of a list with its position. -/
def numbered {α : Type} (l : List α) : List (Nat × α) := (List.range l.length).zip l

/-- The visible records of the probed partitions of a query. -/
def State.hits (s : State) (q : SQuery) (snap : Nat) : List Hit :=
  let cy := s.collCy q.coll
  q.probes.flatMap (fun p =>
    match (s.coll q.coll).nodes.get? p with
    | none => []
    | some n => (numbered n.groups).flatMap (fun (g, rs) => (numbered rs).filterMap (fun (i, r) =>
        if s.visible q.coll snap r then
          some { dist := hammingOf cy q.code r.code, part := p, group := g, slot := i, r := r } else none)))

/-- The result record of a query (R358). -/
def State.queryBytes (s : State) (q : SQuery) (snap k : Nat) : List Byte :=
  let top := (sortBy hitBefore (s.hits q snap)).take k
  let body := leBytes top.length 4 ++ leBytes q.probes.length 2 ++ [0, 0] ++ leBytes snap 6 ++ [0, 0]
    ++ top.flatMap (fun h => leBytes h.r.id 8 ++ leBytes h.r.payload 8 ++ leBytes h.dist 2 ++ [0, 0] ++ leBytes h.part 4)
  body ++ List.replicate (resultBytes k - body.length) 0

/-- The groups (collection, partition, number of groups) whose code parts some queries read. -/
def State.groupsRead (s : State) (qs : List SQuery) : Nat :=
  (((qs.flatMap (fun q => q.probes.map (fun p => (q.coll, p)))).eraseDups).map (fun e =>
    (((s.coll e.1).nodes.get? e.2).map (fun n => n.groups.length)).getD 0)).sum

/-- The channels have finished: every query's result is merged. How many ID units were read depends on the order of the scans
and is open up to the number of groups (log entry 1). -/
def State.scanDone (s : State) (b : SBatch) : State :=
  let searches := (b.queries.map (·.cmd)).eraseDups
  let results := searches.map (fun id =>
    let qs := b.queries.filter (fun q => q.cmd == id)
    let k := ((s.cmd? id).map (fun c => c.desc.specF 41 40)).getD 0
    (id, s.groupsRead qs, qs.flatMap (fun q => s.queryBytes q (snapOf b.snaps q.coll) k)))
  let groups := s.groupsRead b.queries
  let ids := (Config.freeWord s.free).toNat % (groups + 1)
  let codeBytes := (((b.queries.flatMap (fun q => q.probes.map (fun p => (q.coll, p)))).eraseDups).map (fun e =>
    (((s.coll e.1).nodes.get? e.2).map (fun n => n.groups.length)).getD 0 * 128 * s.collCy e.1)).sum
  let s := ((s.useFree 1).bump .SRCH_GROUPS_READ_COUNT 0 groups).bump .SRCH_ID_READS_COUNT 0 ids
  let s := s.bump .SRCH_SCAN_BYTES_COUNT 0 (codeBytes + 4096 * ids)
  { s with srch := { s.srch with batch := some { b with scanned := true, results := results } } }

/-- The row CHANNEL_SCAN_DONE. -/
def execChannelScanDone (s : State) : Host.Outcome State Fault Refusal :=
  .next (match s.srch.batch with
    | none => s
    | some b => if !b.scanned && (b.tiles || s.coresFor false) then s.scanDone b else s)

/-! ## Inserts (R359 to R361) -/

/-- Put an edge into the lowest free slot of a node; none free leaves the node as it is. -/
def addEdge (l : List (Option (Nat × Nat))) (e : Nat × Nat) : List (Option (Nat × Nat)) :=
  match l with
  | [] => []
  | none :: rest => some e :: rest
  | some x :: rest => some x :: addEdge rest e

/-- Edge slots of a new node. -/
def edgesOf (l : List (Nat × Nat)) : List (Option (Nat × Nat)) :=
  (l.take 32).map some ++ List.replicate (32 - (l.take 32).length) none

/-- What an insert builds on: the nodes as they stand, and the groups each partition had when the batch opened. -/
structure Build where
  nodes : Map SNode
  base : Map Nat
  deriving DecidableEq, Repr

/-- A partition takes a further record: GROUPS is below 8,192, or its last group is one the batch opened and has not filled. -/
def Build.room (b : Build) (p : Nat) : Bool :=
  match b.nodes.get? p with
  | none => false
  | some n =>
    decide (n.groups.length < 8192)
      || (decide (b.base.getD p 0 < n.groups.length) && decide (((n.groups.getLast?).map List.length).getD 128 < 128))

/-- Place a record in a partition. -/
def Build.place (b : Build) (p : Nat) (r : SRecord) : Build :=
  match b.nodes.get? p with
  | none => b
  | some n =>
    let open' := decide (b.base.getD p 0 < n.groups.length) && decide (((n.groups.getLast?).map List.length).getD 128 < 128)
    let gs := if open' then n.groups.dropLast ++ [((n.groups.getLast?).getD []) ++ [r]] else n.groups ++ [[r]]
    { b with nodes := b.nodes.set p { n with groups := gs } }

/-- Found a partition for a record (SEED). -/
def Build.found (b : Build) (p seq : Nat) (near : List Nat) (r : SRecord) : Build :=
  let node : SNode := { repItem := r.id, repCode := r.code, seq := seq, edges := edgesOf ((near.take 32).map (fun q => (q, seq))),
                        groups := [[r]] }
  let nodes := (near.take 32).foldl (fun m q => m.modify q (fun n => { n with edges := addEdge n.edges (p, seq) })) b.nodes
  { nodes := nodes.set p node, base := b.base.set p 0 }

/-- The records of an insert's payload, with its sequence. -/
def parseInserts (cy seq : Nat) : Nat → List Byte → List SRecord
  | 0, _ => []
  | n + 1, bs => { id := leAt bs 0 8, payload := leAt bs 8 8, seq := seq, code := leNat (slice bs 16 cy) }
      :: parseInserts cy seq n (bs.drop (16 + cy))

/-- The lowest free partition number. -/
def freePart (nodes : Map SNode) (mx : Nat) : Option Nat :=
  match nodes.freeFrom 0 (nodes.size + 1) with
  | some p => if p < mx then some p else none
  | none => none

/-- What the records of an insert are placed by: the graph at the batch's snapshot. -/
structure InsertCtx where
  snapNodes : Map SNode
  snap : Nat
  cy : Nat
  beam : Nat
  maxVisit : Nat
  partsMax : Nat
  seed : Bool
  seq : Nat

/-- Place records one by one: none where one finds no place; with the walks made. `all0` sends every record to partition 0. -/
def placeAll (x : InsertCtx) (all0 : Bool) : List SRecord → Build → List Walk → Option (Build × List Walk)
  | [], b, ws => some (b, ws)
  | r :: l, b, ws =>
    if all0 then (if b.room 0 then placeAll x all0 l (b.place 0 r) ws else none)
    else
      let w := graphWalk x.snapNodes x.cy r.code x.snap x.beam x.maxVisit
      if x.seed then
        match freePart b.nodes x.partsMax with
        | none => none
        | some p => placeAll x all0 l (b.found p x.seq (w.best.map (·.2)) r) (w :: ws)
      else if w.best.isEmpty && b.nodes.entries.isEmpty then
        placeAll x true l (b.found 0 x.seq [] r) (w :: ws)
      else
        match (w.best.map (·.2)).find? b.room with
        | none => none
        | some p => placeAll x all0 l (b.place p r) (w :: ws)

/-- One insert at the commit: the builds of the batch so far, by collection. -/
def State.commitInsert (s : State) (id : Nat) (d : Desc) (snap : Nat) (base : Map Nat) (snapNodes : Map SNode) : State :=
  let k := d.collection
  let c := s.coll k
  let seq := c.seq + 1
  let x : InsertCtx := { snapNodes := snapNodes, snap := snap, cy := s.collCy k, beam := s.insertBeam, maxVisit := s.maxVisit,
                         partsMax := s.partsMax k, seed := d.optBit 8, seq := seq }
  let recs := parseInserts (s.collCy k) seq d.items (s.payload d)
  match placeAll x false recs { nodes := c.nodes, base := base } [] with
  | none => s.complete id .noSpace 18
  | some (b, ws) =>
    let c' : Coll := { c with nodes := b.nodes, seq := seq }
    let s' := s.setColl k c'
    if s'.collSpace < s'.collFlash ∨ s'.listPages k < c'.pages then
      (s.setIntBit pgSrch 9).complete id .noSpace 19
    else
      let s := ws.foldl State.countWalk s'
      (s.bump .SRCH_INSERTED_COUNT 0 recs.length).complete id .ok 0 seq

/-- Account the groups that a batch wrote to a collection. -/
def State.countGroups (s : State) (k : Nat) (base : Map Nat) : State :=
  let new := (s.coll k).nodes.entries.flatMap (fun e => e.2.groups.drop (base.getD e.1 0))
  let bytes := new.length * s.groupBytes k
  let s := s.bump .SRCH_PARTIAL_GROUPS_COUNT 0 ((new.filter (fun g => decide (g.length < 128))).length)
  let s := s.bump .SRCH_WRITE_BYTES_COUNT 0 bytes
  if bytes = 0 then s else s.chargeFlash bytes

/-! ## Deletes (R349, R362) -/

/-- Item ids of a delete. -/
def parseIds : Nat → List Byte → List Nat
  | 0, _ => []
  | n + 1, bs => leAt bs 0 8 :: parseIds n (bs.drop 8)

/-- Add a sequence to the tombstone entry of an item. -/
def addTomb (k id seq : Nat) (l : List Tomb) : List Tomb :=
  if l.any (fun t => t.coll == k && t.id == id) then
    l.map (fun t => if t.coll == k && t.id == id then { t with seqs := t.seqs ++ [seq] } else t)
  else l ++ [{ coll := k, id := id, seqs := [seq] }]

/-- Entries of the tombstone table. -/
def State.tombMax (s : State) : Nat := s.reg .SRCH_TOMB_COUNT_COUNT

/-- One delete at the commit. -/
def State.commitDelete (s : State) (id : Nat) (d : Desc) : State :=
  let k := d.collection
  let c := s.coll k
  let ids := (parseIds d.items (s.payload d)).eraseDups
  if ids.any (fun i => decide (4 ≤ (s.tombSeqs k i).length)) then s.complete id .locked
  else
    let fresh := (ids.filter (fun i => (s.tombSeqs k i).isEmpty)).length
    if s.tombMax < s.srch.tombs.length + fresh then (s.setIntBit pgSrch 8).complete id .noSpace 17
    else
      let seq := c.seq + 1
      let s := { s with srch := { s.srch with tombs := ids.foldl (fun l i => addTomb k i seq l) s.srch.tombs } }
      let s := s.setColl k { c with seq := seq }
      (s.bump .SRCH_TOMBSTONED_COUNT 0 ids.length).complete id .ok 0 seq

/-! ## SRCH_BATCH_COMMIT (R350, R358, R361, R362) -/

/-- A search of the batch completes (R358). -/
def State.finishSearch (s : State) (b : SBatch) (id : Nat) (c : Cmd) : State :=
  let d := c.desc
  if (s.coll d.collection).failed then s.complete id .internal
  else
    let (groups, bytes) := ((b.results.find? (fun r => r.1 == id)).map (·.2)).getD (0, [])
    let s := s.writeMem (d.optBit 8) (d.specF 55 48) bytes
    let s := (s.bump .SRCH_SEARCHES_COUNT).bump .SRCH_QUERIES_DONE_COUNT 0 d.items
    let nr := ((c.slot.bind s.session?).map (·.nr)).getD false
    s.complete id (if nr then .notReproducible else .ok) 0 (d.items + groups * 2 ^ 32)

/-- Collections whose VALID was written 0 go at the boundary: their flash space and tombstones are freed (R368). -/
def State.retireColls (s : State) : State :=
  let l := s.srch.retiring.map (·.1)
  let s := l.foldl (fun s k => s.setReg .SRCH_COLL_CFG_VALID 0 k) s
  { s with srch := { s.srch with
      retiring := []
      colls := s.srch.colls.filter (fun k _ => !l.contains k)
      tombs := s.srch.tombs.filter (fun t => !l.contains t.coll) } }

/-- VALID of a collection is written 0: it goes at the next boundary, at once where the engine is not ENABLED (R368). -/
def State.retireColl (s : State) (k : Nat) : State :=
  let s := { s with srch := { s.srch with retiring := s.srch.retiring ++ [(k, s.nextCmd)] } }
  if s.enabled pgSrch then s else s.retireColls

/-- The commit of a batch. -/
def State.srchCommit (s : State) (b : SBatch) : State :=
  let cs := b.cmds.filterMap (fun id => (s.cmd? id).map (fun c => (id, c)))
  let old := s.srch.colls
  let base (k : Nat) : Map Nat := (((old.get? k).getD {}).nodes).map' (fun n => n.groups.length)
  let nodes (k : Nat) : Map SNode := ((old.get? k).getD {}).nodes
  let s := (cs.filter (fun e => e.2.desc.opcode == 0x3A)).foldl (fun s e => s.finishSearch b e.1 e.2) s
  let s := (cs.filter (fun e => e.2.desc.opcode != 0x3A)).foldl (fun s e =>
    let k := e.2.desc.collection
    if (s.coll k).failed then s.complete e.1 .internal
    else if e.2.desc.opcode = 0x38 then s.commitInsert e.1 e.2.desc (snapOf b.snaps k) (base k) (nodes k)
    else s.commitDelete e.1 e.2.desc) s
  let s := ((b.snaps.map (·.1))).foldl (fun s k => s.countGroups k (base k)) s
  (({ s with srch := { s.srch with batch := none } }).retireColls).safePoint pgSrch

/-- The row SRCH_BATCH_COMMIT; with no batch, the boundary of an engine that has nothing to run. -/
def execSrchBatchCommit (s : State) : Host.Outcome State Fault Refusal :=
  .next (if !s.enabled pgSrch || s.freeze == 2 then s
    else match s.srch.batch with
      | some b => if b.scanned then s.srchCommit b else s
      | none => if s.srch.waiting.isEmpty && s.freeze == 0 then s.retireColls.safePoint pgSrch else s)

/-! ## Compaction (R364 to R366) -/

/-- MEM_COMPACT: it starts at a boundary, and the block runs one compaction at a time. -/
def opMemCompact (s : State) (id : Nat) (c : Cmd) : State :=
  if !s.enabled pgSrch then s.complete id .internal
  else match s.srchRefusal id c with
    | some (st, d) => s.complete id st d
    | none =>
      if s.srch.compact.isSome ∨ s.srch.batch.isSome = true then s.waitCmd id
      else
        let k := c.desc.collection
        let s := s.beginLong pgSrch
        let s := s.setColl k { s.coll k with compacting := true }
        let job : SCompact := { cmd := id, coll := k, snap := (s.coll k).seq }
        ({ s with srch := { s.srch with compact := some job } }).runCmd id false

/-- Records of a partition in group and slot order. -/
def SNode.records (n : SNode) : List SRecord := n.groups.flatMap (fun g => g)

/-- Full groups of 128 in order. -/
def groupsOf (l : List SRecord) : List (List SRecord) := chunks 128 l.length l

/-- The first of some records in rank by a distance; those of one distance and item id keep their order. -/
def nearest (cy code : Nat) (l : List SRecord) : Option SRecord :=
  (sortBy (fun (a b : SRecord) =>
    let da := hammingOf cy code a.code
    let db := hammingOf cy code b.code
    decide (da < db) || (da == db && decide (a.id ≤ b.id))) l).head?

/-- The farthest record, the lowest item id among equals. -/
def farthest (cy code : Nat) (l : List SRecord) : Option SRecord :=
  (sortBy (fun (a b : SRecord) =>
    let da := hammingOf cy code a.code
    let db := hammingOf cy code b.code
    decide (db < da) || (da == db && decide (a.id ≤ b.id))) l).head?

/-- An edge in the lowest free slot, or in place of the edge to the farthest target. -/
def forceEdge (nodes : Map SNode) (cy rep : Nat) (l : List (Option (Nat × Nat))) (e : Nat × Nat) : List (Option (Nat × Nat)) :=
  if l.any Option.isNone then addEdge l e
  else
    let dist (x : Option (Nat × Nat)) : Nat :=
      (x.map (fun y => hammingOf cy rep (((nodes.get? y.1).map (·.repCode)).getD 0))).getD 0
    let worst := (l.map dist).foldl max 0
    let i := (l.findIdx (fun x => dist x == worst))
    l.set i (some e)

/-- Rewrite one partition of the snapshot (steps 1 to 4): the nodes so far, partitions removed, records dropped. Its records
above the snapshot keep the partition; they are placed at the switch (R365). -/
def State.rewritePart (s : State) (k snap newSeq : Nat) (split : Bool) (p : Nat) (n : SNode)
    (acc : Map SNode × List Nat × Nat) : Map SNode × List Nat × Nat :=
  let cy := s.collCy k
  let (nodes, gone, dropped) := acc
  let early := n.records.filter (fun r => decide (r.seq ≤ snap))
  let keep := early.filter (s.visible k snap)
  let vis := keep
  let dropped := dropped + (early.length - keep.length)
  let n := if vis.any (fun r => r.id == n.repItem) then n
    else match nearest cy n.repCode vis with
      | some r => { n with repItem := r.id, repCode := r.code }
      | none => n
  if n.records.all (fun r => !s.visible k snap r && decide (r.seq ≤ snap)) ∧ p ≠ 0 then (nodes.erase p, p :: gone, dropped)
  else if split ∧ s.reg .SRCH_SPLIT_AT < vis.length then
    match freePart nodes (s.partsMax k), farthest cy n.repCode vis with
    | some q, some f =>
      let far := keep.filter (fun r => decide (hammingOf cy f.code r.code < hammingOf cy n.repCode r.code))
      let near := keep.filter (fun r => !decide (hammingOf cy f.code r.code < hammingOf cy n.repCode r.code))
      let q' : SNode := { repItem := f.id, repCode := f.code, seq := newSeq,
                          edges := forceEdge nodes cy f.code n.edges (p, newSeq), groups := groupsOf far }
      let p' : SNode := { n with edges := forceEdge nodes cy n.repCode n.edges (q, newSeq), groups := groupsOf near }
      ((nodes.set p p').set q q', gone, dropped)
    | _, _ => (nodes.set p { n with groups := groupsOf keep }, gone, dropped)
  else (nodes.set p { n with groups := groupsOf keep }, gone, dropped)

/-- Drop the edges to removed partitions, whose numbers a split may have taken with the sequence of the switch; the others keep
their order in the lowest slots. -/
def dropEdges (gone : List Nat) (newSeq : Nat) (n : SNode) : SNode :=
  { n with edges := edgesOf ((n.edges.filterMap id).filter (fun e => e.2 == newSeq || !gone.contains e.1)) }

/-- Place the records committed after the snapshot into the new partitions by the rule of R360. -/
def placeLater (cy seq beam maxVisit : Nat) (graph : Map SNode) : List SRecord → Build → Option Build
  | [], b => some b
  | r :: l, b =>
    let w := graphWalk graph cy r.code seq beam maxVisit
    match (w.best.map (·.2)).find? b.room with
    | none => none
    | some p => placeLater cy seq beam maxVisit graph l (b.place p r)

/-- The new state of a collection at the switch: the partitions of the snapshot rewritten, those that inserts founded after it
as they stand, and the later records of the former placed (R364, R365, log entry 17). -/
def State.compacted (s : State) (j : SCompact) (split : Bool) : Option (Map SNode × Nat × Nat) :=
  let k := j.coll
  let c := s.coll k
  let cy := s.collCy k
  let newSeq := c.seq + 1
  let olds := c.nodes.entries.filter (fun e => decide (e.2.seq ≤ j.snap))
  let later := (olds.map (·.2)).flatMap (fun n => n.records.filter (fun r => decide (j.snap < r.seq)))
  let (nodes, gone, dropped) := olds.foldl (fun acc e =>
    s.rewritePart k j.snap newSeq split e.1 e.2 acc) (c.nodes, [], 0)
  let nodes := nodes.map (fun _ n => dropEdges gone newSeq n)
  if later.isEmpty then some (nodes, olds.length, dropped)
  else match placeLater cy newSeq s.insertBeam s.maxVisit nodes later { nodes := nodes, base := nodes.map' (fun n => n.groups.length) } with
    | some b => some (b.nodes, olds.length, dropped)
    | none => none

/-- The switch, or the end of a compaction that finds no room. -/
def State.compactSwitch (s : State) (j : SCompact) : State :=
  let k := j.coll
  let c := s.coll k
  let split := ((s.cmd? j.cmd).map (fun c => c.desc.optBit 8)).getD false
  let s := { s with srch := { s.srch with compact := none } }
  if !s.collUsable k || c.failed then
    ((s.setColl k { c with compacting := false }).abortLong pgSrch).complete j.cmd .internal
  else match s.compacted j split with
    | none => (((s.setColl k { c with compacting := false }).setIntBit pgSrch 9).abortLong pgSrch).complete j.cmd .noSpace 20
    | some (nodes, rewritten, dropped) =>
      let c' : Coll := { c with nodes := nodes, seq := c.seq + 1, half := !c.half, compacting := false }
      let bytes := c'.groups * s.groupBytes k
      if s.collSpace < s.collFlash + bytes ∨ s.listPages k < c.pages + c'.pages then
        (((s.setColl k { c with compacting := false }).setIntBit pgSrch 9).abortLong pgSrch).complete j.cmd .noSpace 20
      else
        let tombs := (s.srch.tombs.map (fun t =>
          if t.coll = k then { t with seqs := t.seqs.filter (fun q => decide (j.snap < q)) } else t)).filter
            (fun t => !t.seqs.isEmpty)
        let s := { s with srch := { s.srch with tombs := tombs } }
        let s := (s.setColl k c').bump .SRCH_COMPACTIONS_COUNT
        let s := (s.bump .SRCH_WRITE_BYTES_COUNT 0 bytes).chargeFlash bytes
        let s := (s.progress pgSrch rewritten 99).endLong pgSrch
        s.complete j.cmd .ok 0 (rewritten + dropped * 2 ^ 32)

/-- The row MEM_COMPACT_SWITCH. -/
def execMemCompactSwitch (s : State) : Host.Outcome State Fault Refusal :=
  .next (match s.srch.compact with
    | none => s
    | some j => if s.srch.batch.isNone && s.freeze == 0 then s.compactSwitch j else s)

/-! ## Failures and enables (R368, R369) -/

/-- The row GROUP_FAIL: a group of a collection fails its tag or read, or with `graph` a node or list page is
uncorrectable. -/
def execGroupFail (coll : Nat) (graph : Bool) (s : State) : Host.Outcome State Fault Refusal :=
  .next (if s.enabled pgSrch && s.regBit .SRCH_COLL_CFG_VALID coll then
    let s := s.setColl coll { s.coll coll with failed := true }
    if graph then s.recErr pgSrch 0x0002 else (s.recErr pgSrch 0x0001).setIntBit pgSrch 11
  else s)

/-- The tombstone table. -/
def State.tombRange (s : State) : Nat × Nat := (s.reg .SRCH_TOMB_BASE_ADDR * 4096, s.tombMax * 64)

/-- The HBM areas of a collection: graph halves and list area. -/
def State.collRanges (s : State) (k : Nat) : List (Nat × Nat) :=
  [(s.reg .SRCH_COLL_GRAPH_ADDR k * 4096, 2 * s.partsMax k * 1024),
   (s.reg .SRCH_COLL_LIST_ADDR k * 4096, s.reg .SRCH_COLL_LIST_SIZE_MIB k * 2 ^ 20)]

/-- VALID collections. -/
def State.validColls (s : State) : List Nat := (s.copies .SRCH_COLL_CFG_VALID).map (·.1)

/-- Regions that the areas of SRCH must not overlap, but for its own. -/
def State.srchAvoid (s : State) : List (Nat × Nat) :=
  s.deviceRegions ++ s.replRanges ++ s.validTables.flatMap s.tblRanges

/-- The checks of COLL_CFG.VALID (R368). -/
def State.collOk (s : State) (k : Nat) : Bool :=
  let avoid := s.srchAvoid ++ [s.tombRange] ++ (s.validColls.filter (· != k)).flatMap s.collRanges
  s.reg .SRCH_COLL_CFG_CODE k != 3 && (s.collRanges k).all (fun r => inHbmRange r.1 r.2 && clearOf r.1 r.2 avoid)

/-- The row COLL_VALID_WRITE: COLL_CFG.VALID of the selected collection. -/
def execCollValidWrite (v : Bool) (s : State) : Host.Outcome State Fault Refusal :=
  let k := s.reg .SRCH_COLL_SEL_COLLECTION
  let s := s.touch
  .next (if !s.live then s
    else if v then
      if s.regBit .SRCH_COLL_CFG_VALID k then s
      else if s.collOk k then (s.setReg .SRCH_COLL_CFG_VALID 1 k).setColl k {} else s.recErr pgSrch 0x0003
    else if s.collUsable k then s.retireColl k
    else s)

/-- The checks of SRCH_CTRL.EN. -/
def State.srchOk (s : State) : Bool :=
  let (b, n) := s.tombRange
  inHbmRange b n && clearOf b n (s.srchAvoid ++ s.validColls.flatMap s.collRanges)
    && decide (65536 ≤ s.tombMax) && decide (s.tombMax ≤ 16777216)

/-- The row SRCH_ENABLE, with the value written. -/
def execSrchEnable (en : Bool) (s : State) : Host.Outcome State Fault Refusal :=
  let s := s.touch
  .next (if !s.live then s
    else if en then
      if s.pageState pgSrch ≠ 0 then s
      else if s.srchOk then
        let s := s.enableBlock pgSrch
        { s with srch := { s.srch with tombs := [] } }
      else s.recErr pgSrch 0x0003
    else if s.pageState pgSrch ≠ 1 then s
    else if s.validColls.isEmpty then s.disableBlock pgSrch else s.recErr pgSrch 0x0005)

end Sys2Proof.Machine
end

