-- ==== Sys2Proof/Machine/Ckpt.lean ====
section
/-!
DEFINITION. Checkpoints: triggers, quiescing, the cut, the freeze, the manifest, failures and CKP_CTRL.EN (R408 to R421,
R430 to R432). The restore is in Machine/Restore.lean.
-/
namespace Sys2Proof.Machine

/-! ## What is recorded (R408, R409) -/

/-- Pages whose register state a checkpoint holds. -/
def ckptPage (p : Nat) : Bool :=
  [16, 17, 18, 19, 20, 24, 25, 26, 27, 28, 29, 40].contains p || (decide (256 ≤ p) && decide (p < 384))

/-- Fields of FAM that a checkpoint does not hold: FAM_SELF and the map. -/
def ckptNot : List Reg := [.FAM_SELF_DEVICE, .FAM_SELF_PID] ++ mapRegs

/-- The fields that a checkpoint holds, by their numbers. -/
def ckptRegs : List Nat :=
  (Reg.all.filter (fun r => ckptPage r.desc.page && (r.desc.acc == .rw || r.desc.acc == .rws || r.desc.acc == .rwl)
    && !ckptNot.contains r)).map Reg.ctorIdx

/-- A key of the table of fields belongs to the register state of checkpoints. -/
def ckptKey (k : Nat) : Bool := ckptRegs.contains (k / 4294967296)

/-- Commands accepted on tenant rings that have no final completion (R409). -/
def State.tenantCmds (s : State) : Map Cmd := s.cmds.filter (fun _ c => !c.admin)

/-- The KEY_REF of the transport key of every tenant that has one. -/
def State.ttkRefs (s : State) : Map Nat :=
  ⟨s.tenants.entries.filterMap (fun e => e.2.ttks.head?.map (fun k => (e.1, k)))⟩

/-- Sessions, pages and so on of the tenants that checkpoints hold (R449, R458). -/
def State.snapshot (s : State) : Snapshot where
  inStep := s.gaf.running.isSome
  tick := s.tick
  epoch := s.bootEpoch
  source := s.self
  keyRef := s.sec.ckk.getD 0
  ttks := s.ttkRefs
  regs := s.regs.filter (fun k _ => ckptKey k)
  commons := s.commons.filter (fun p _ => ckptPage p && p != pgCkp)
  sdir := s.sdir
  cane := s.cane
  cmds := s.tenantCmds
  adm := s.adm
  gaf := s.gaf
  emb := s.emb
  srch := s.srch
  hbm := s.hbm
  objects := s.objects
  cores := if s.gaf.running.isSome then s.cores else ⟨[]⟩
  windows := if s.gaf.running.isSome then s.windows else ⟨[]⟩
  fps := (List.range 8).map (fun i => if (s.model (i + 1)).loaded then (s.model (i + 1)).fp else 0)
  digests := (List.range 8).map (fun i => ((s.vocabs.get? (i + 1)).map (fun v => if v.loaded then v.digest else 0)).getD 0)

/-! ## Sizes (R417, R419) -/

/-- Keys under which two tables differ. -/
def changedKeys {α : Type} [DecidableEq α] (old new : Map α) : List Nat :=
  (old.keys ++ new.keys).eraseDups.filter (fun k => old.get? k != new.get? k)

/-- 4 KiB units that hold the changed entries of a table of `w`-byte entries. -/
def unitsOf (w : Nat) (l : List Nat) : Nat := ((l.map (fun k => k * w / 4096)).eraseDups).length

/-- Bytes of HBM units, tables, queues and changed sessions that a freeze copies, and of SRAM inside a step. -/
def State.stageBytes (s : State) (old : Option Snapshot) (new : Snapshot) : Nat :=
  let oldSess := (old.map (fun o => o.sdir.sess)).getD ⟨[]⟩
  let changed := changedKeys oldSess new.sdir.sess
  let inHbm := changed.filterMap (fun k => new.sdir.sess.get? k)
  let recs := changedKeys ((old.map (fun o => o.cane.recs)).getD ⟨[]⟩) new.cane.recs
  let nodes := changedKeys ((old.map (fun o => o.cane.nodes)).getD ⟨[]⟩) new.cane.nodes
  let objs := changedKeys ((old.map (fun o => o.objects)).getD ⟨[]⟩) new.objects
  let cells := changedKeys (Map.mk ((old.map (fun o => o.hbm.cells)).getD [])) (Map.mk new.hbm.cells)
  let colls := changedKeys ((old.map (fun o => o.srch.colls)).getD ⟨[]⟩) new.srch.colls
  4096 * (unitsOf 64 changed + unitsOf 16 changed + unitsOf 64 recs + unitsOf 68 nodes + unitsOf 768 nodes + unitsOf 1 cells)
    + (inHbm.map (fun x => (if x.inHbm then (s.layoutOf x).srTiles * 65536 + 65536 else 0) + inputBytes x.input)).sum
    + (objs.map (fun k => ((new.objects.get? k).map (·.bytes)).getD 0)).sum
    + (colls.map (fun k => ((new.srch.colls.get? k).map (fun c => c.nodes.size * 1024)).getD 0)).sum
    + 64 * new.cmds.size + (if new.inStep then 2176 * 2 ^ 20 else 0)

/-- Stored bytes of a state tile in the store: header and content, compressed as CKP_CFG.COMPRESS says (R119, R413). -/
def State.ckptTile (s : State) (format raw : Nat) (text : List Byte) : Nat :=
  32 + (storedForm (s.regBit .CKP_CFG_COMPRESS) (lz4Coded format text) raw).1

/-- Stored bytes of a page. -/
def State.ckptPageBytes (s : State) (p : PageRec) : Nat :=
  let m := s.model p.model
  ((List.range (p.tilesM1 + 1)).map (fun i =>
    s.ckptTile m.layout.kvFormat 65536 (slice (m.pageImage p.slots) (65536 * i) 65536))).sum
    + (if p.isSealed then s.ckptTile 0 p.metaLen (m.metaTile p.slots) else 0)

/-- Stored bytes of the step record and page table of a session on flash or in the pool. -/
def State.ckptRecBytes (s : State) (x : Session) : Nat :=
  let l := s.layoutOf x
  ((List.range l.srTiles).map (fun i => s.ckptTile 0 65536 (slice (x.rec'.bytes l) (65536 * i) 65536))).sum
    + s.ckptTile 0 65536 (tableBytes x.table)

/-- Index records of a checkpoint (R413): one for each object that it references. -/
def Snapshot.objectCount (c : Snapshot) : Nat :=
  unitsOf 64 c.sdir.sess.keys + unitsOf 64 c.cane.recs.keys + unitsOf 68 c.cane.nodes.keys
    + unitsOf 1 (c.hbm.cells.map (·.1)) + 2 * c.sdir.sess.size + c.cane.recs.size + c.cmds.size
    + (c.srch.colls.values.map (fun k => (k.nodes.values.map (fun n => n.groups.length)).sum)).sum + 13
    + (if c.inStep then 136 else 0)

/-- Bytes that a checkpoint writes beside its staging area (R418, R419), from the one it builds on. -/
def State.objectBytes (s : State) (old : Option Snapshot) (new : Snapshot) : Nat :=
  let oldRecs := (old.map (fun o => o.cane.recs)).getD ⟨[]⟩
  let pages := new.cane.recs.entries.filter (fun e => match oldRecs.get? e.1 with
    | some p => if e.2.isSealed then p.uid != e.2.uid || !p.isSealed else p.slots != e.2.slots
    | none => true)
  let oldSess := (old.map (fun o => o.sdir.sess)).getD ⟨[]⟩
  let away := new.sdir.sess.entries.filter (fun e => (e.2.residency == .parked || e.2.residency == .pooled)
    && oldSess.get? e.1 != some e.2)
  (pages.map (fun e => s.ckptPageBytes e.2)).sum + (away.map (fun e => s.ckptRecBytes e.2)).sum + 32 * new.objectCount

/-! ## The store (R410 to R412) -/

/-- First fabric address and length of the store. -/
def State.ckptStore (s : State) : Nat := s.reg .CKP_STORE_BASE_ADDR * 2 ^ 21
def State.ckptStoreLen (s : State) : Nat := s.reg .CKP_STORE_SIZE_GIB * 2 ^ 30

def manifestMagic : Nat := 0x54504B434757

/-- The bytes at a manifest slot. -/
def State.manifestBytes (s : State) (slot : Nat) : List Byte := s.fabric.readN (s.ckptStore + 4096 * slot) 4096

/-- CRC of a manifest (R412). -/
def manifestCrc (bs : List Byte) : Nat := crc64 (bs.take 4088)

/-- A manifest is valid. -/
def manifestValid (bs : List Byte) : Bool :=
  leAt bs 0 8 == manifestMagic && leAt bs 8 2 == 1 && leAt bs 4088 8 == manifestCrc bs

/-- SEQ of the valid manifest in a slot, or 0. -/
def State.slotSeq (s : State) (slot : Nat) : Nat :=
  let bs := s.manifestBytes slot
  if manifestValid bs then leAt bs 16 8 else 0

/-- The image behind the valid manifest of a slot. -/
def State.imageOf (s : State) (slot : Nat) : Option StoreImage :=
  let q := s.slotSeq slot
  match s.ckp.store.get? slot with
  | some m => if q ≠ 0 ∧ m.seq = q then some m else none
  | none => none

/-- The slot of the newest valid manifest. -/
def State.newestSlot (s : State) : Option Nat :=
  let a := s.reg .CKP_SLOT_A_SEQ_SEQ
  let b := s.reg .CKP_SLOT_B_SEQ_SEQ
  if a = 0 ∧ b = 0 then none else if b < a then some 0 else some 1

/-- The highest valid SEQ. -/
def State.lastSeq (s : State) : Nat := max (s.reg .CKP_SLOT_A_SEQ_SEQ) (s.reg .CKP_SLOT_B_SEQ_SEQ)

/-- Bytes of the store that the valid manifests hold (R420): what the newer one wrote beside all that the older one
references. -/
def State.ckptUsed (s : State) : Nat :=
  match s.newestSlot with
  | none => 0
  | some n =>
    ((s.ckp.store.get? n).map (·.dataBytes)).getD 0
      + (if s.reg .CKP_SLOT_A_SEQ_SEQ = 0 ∨ s.reg .CKP_SLOT_B_SEQ_SEQ = 0 then
          ((s.ckp.store.get? n).map (fun m => m.storeBytes - m.dataBytes)).getD 0
         else ((s.ckp.store.get? (1 - n)).map (·.storeBytes)).getD 0)

/-- A manifest of 4,096 bytes (R411). -/
def State.manifest (s : State) (r : CkptRun) (c : Snapshot) (data store : Nat) : List Byte :=
  let head := leBytes manifestMagic 8 ++ leBytes 1 2 ++ [0xA1] ++ leBytes (b2n c.inStep) 1 ++ leBytes c.source 2 ++ [0, 0]
    ++ leBytes r.seq 8 ++ leBytes r.base 8 ++ leBytes c.tick 8 ++ leBytes c.epoch 4 ++ [0, 0, 0, 0]
    ++ leBytes (2 ^ 21 + s.ckptUsed) 8 ++ leBytes (32 * c.objectCount) 8 ++ freeBytes s.free 16 ++ r.nonce
    ++ [0, 0, 0, 0] ++ leBytes c.keyRef 16 ++ leBytes data 8 ++ leBytes store 8
    ++ c.fps.flatMap (fun f => leBytes f 32) ++ c.digests.flatMap (fun f => leBytes f 32)
    ++ (List.range 512).map (fun i => BitVec.ofNat 8 (((List.range 8).map (fun j =>
        b2n (c.ttks.has (8 * i + j)) * 2 ^ j)).sum))
    ++ List.replicate 2936 0
  head ++ leBytes (manifestCrc head) 8

/-! ## Starting and ending (R414, R415, R417, R421) -/

/-- Page reclamation no longer holds back records for a checkpoint (R418). -/
def State.dropHolds (s : State) : State :=
  s.cane.recs.keys.foldl (fun s n => s.releaseHeld n)
    { s with cane := { s.cane with recs := s.cane.recs.map (fun _ p => { p with ckptReads := 0 }) } }

/-- Work resumes at the end of a freeze: a composed step that was held starts (R417). -/
def State.thaw (s : State) : State :=
  let s := { s with freeze := 0 }
  match s.gaf.running, s.gaf.composed with
  | none, some r => if s.stepsHeld then s else s.startStep r
  | _, _ => s

/-- The checkpoint ends without a manifest: its CKPT_TAKE completes with a status (R421). -/
def State.ckptFail (s : State) (st : Status) (detail : Nat) : State :=
  match s.ckp.run with
  | none => s
  | some r =>
    let s := ({ s with ckp := { s.ckp with run := none } }).safePoint pgCkp
    let s := (s.dropHolds.bump .CKP_ABORTED_COUNT).setIntBit pgCkp 8
    let s := if r.copied then s else s.thaw
    let s := s.abortLong pgCkp
    match r.cmd with
    | some id => s.complete id st detail
    | none => s

/-- Whether the next checkpoint is full (R415, R425). -/
def State.nextFull (s : State) (asked : Bool) : Bool :=
  let n := s.lastSeq + 1
  let every := s.reg .CKP_CFG_FULL_EVERY
  asked || (every != 0 && n % every == 0) || !s.ckp.mapValid || s.newestSlot.isNone

/-- The snapshot on which an incremental checkpoint builds. -/
def State.baseSnap (s : State) (full : Bool) : Option Snapshot :=
  if full then none else (s.newestSlot.bind (fun n => s.ckp.store.get? n)).map (·.snap)

/-- A checkpoint starts: it quiesces the device, unless its freeze would not fit the staging area (R416, R417), or there is
no checkpoint key to hold it under. -/
def State.ckptStart (s : State) (cmd : Option Nat) (asked : Bool) : State :=
  let full := s.nextFull asked
  let n := s.lastSeq + 1
  let nonce := freeBytes s.free 12
  let run : CkptRun := { cmd := cmd, full := full, seq := n, base := (if full then 0 else s.lastSeq), start := s.tick,
                         nonce := nonce, indexKey := ckptIndexKey s.sec.ckkKey nonce,
                         tenantKeys := ⟨s.tenants.entries.filterMap (fun e =>
                          if e.2.ttks.isEmpty then none else some (e.1, ckptTenantKey e.2.currentKey nonce e.1))⟩ }
  let large := decide (s.reg .CKP_STAGE_SIZE_GIB * 2 ^ 30 < s.stageBytes (s.baseSnap full) s.snapshot)
  let s := (s.useFree 12).beginLong pgCkp
  let s := { s with freeze := 1, ckp := { s.ckp with run := some run, timerFrom := s.tick,
                                                     stepsFrom := s.reg .GAF_STEP_SEQ_COUNT } }
  let s := match cmd with
    | some id => s.runCmd id false
    | none => s
  if s.sec.ckk.isNone then s.ckptFail .internal 0
  else if large then s.ckptFail .noSpace 22
  else s

/-- CKPT_TAKE takes effect: it waits for a checkpoint, restore or fining pass that runs (R35, R414, R466). -/
def opCkptTake (s : State) (id : Nat) (c : Cmd) : State :=
  if s.pageState pgCkp ≠ 1 then s.complete id .internal
  else if s.ckp.run.isSome ∨ s.ckp.restore.isSome ∨ s.sec.pass.isSome then s.waitCmd id
  else s.ckptStart (some id) (c.desc.optBit 8)

/-- A trigger while a checkpoint runs is dropped (R414). -/
def State.ckptTrigger (s : State) : State :=
  if s.ckp.run.isSome ∨ s.ckp.restore.isSome then
    let s := { s with ckp := { s.ckp with timerFrom := s.tick, stepsFrom := s.reg .GAF_STEP_SEQ_COUNT } }
    (s.bump .CKP_SKIPPED_COUNT).setIntBit pgCkp 9
  else s.ckptStart none false

/-- Ticks of the timer: 1 to 3,600 s. -/
def State.ckptTimer (s : State) : Nat := min 3600 (max 1 (s.reg .CKP_TIMER_S)) * 1000000000

/-- The row CKPT_TIMER. -/
def execCkptTimer (s : State) : Host.Outcome State Fault Refusal :=
  .next (if s.pageState pgCkp = 1 ∧ s.regBit .CKP_CFG_TIMER_EN = true ∧ s.ckp.timerFrom + s.ckptTimer ≤ s.tick then
    s.ckptTrigger else s)

/-- The row CKPT_STEP_COUNT. -/
def execCkptStepCount (s : State) : Host.Outcome State Fault Refusal :=
  .next (if s.pageState pgCkp = 1 ∧ s.regBit .CKP_CFG_STEPS_EN = true
      ∧ s.ckp.stepsFrom + max 1 (s.reg .CKP_STEPS_COUNT) ≤ s.reg .GAF_STEP_SEQ_COUNT then
    s.ckptTrigger else s)

/-! ## The cut and the freeze (R416 to R418) -/

/-- A model or vocabulary load or unload runs. -/
def State.loadRuns (s : State) : Bool :=
  s.models.values.any (fun m => m.cmd.isSome) || s.loadingVocab.isSome

/-- Quiescence is complete: no core runs a tile, or with AT_BOUNDARY no step runs; no batch runs; and nothing that the cut
waits for is under way. -/
def State.quiet (s : State) : Bool :=
  (if s.regBit .CKP_CFG_AT_BOUNDARY then s.gaf.running.isNone else s.cores.values.all (fun c => c.tileKind == 0))
    && s.emb.batch.isNone && s.srch.batch.isNone && s.sec.pass.isNone && !s.loadRuns && s.ckp.restore.isNone

/-- The directory cache writes its dirty entries back. -/
def State.cleanCache (s : State) : State :=
  { s with sdir := { s.sdir with writeBuf := [], cache := s.sdir.cache.map (fun _ ws => ws.map (fun w => { w with dirty := false })) } }

/-- The cut. -/
def State.takeCut (s : State) (r : CkptRun) : State :=
  let s := s.cleanCache
  let c := s.snapshot
  let s := { s with cane := { s.cane with recs := s.cane.recs.map (fun _ p => { p with ckptReads := 1 }) } }
  { s with freeze := 2, ckp := { s.ckp with run := some { r with cut := some c }, timerFrom := s.tick,
                                            stepsFrom := s.reg .GAF_STEP_SEQ_COUNT } }

/-- The row CKPT_CUT. -/
def execCkptCut (s : State) : Host.Outcome State Fault Refusal :=
  .next (match s.ckp.run with
    | none => s
    | some r => if r.cut.isNone ∧ s.freeze = 1 ∧ s.quiet = true then s.takeCut r else s)

/-- Sessions of the cut whose state the checkpoint can no longer read are recorded as LOST, and it continues (R421). -/
def State.cutLoses (s : State) (p : Session → Bool) : Bool × State :=
  match s.ckp.run.bind (fun r => r.cut.map (fun c => (r, c))) with
  | none => (false, s)
  | some (r, c) =>
    let l := (c.sdir.sess.entries.filter (fun e => p e.2 && !c.lost.contains e.1)).map (·.1)
    (!l.isEmpty, { s with ckp := { s.ckp with run := some { r with cut := some { c with lost := c.lost ++ l } } } })

/-- An uncorrectable error in a page record that the checkpoint reads as a source (R421, R432). -/
def State.sourceUe (s : State) (n : Nat) : State :=
  let (some', s) := s.cutLoses (fun x => x.frames.contains n)
  if some' then s.recErr pgCkp 0x0004 else s

/-- The row PAGE_RECORD_UE (R188): in page record `n`, or with `node` in node or token entry `n`. -/
def execPageRecordUe (node : Bool) (n : Nat) (s : State) : Host.Outcome State Fault Refusal :=
  .next (if !s.enabled pgCane then s
    else if node then
      if (s.node? n).isSome then (s.onNode n (fun x => { x with bad := true })).recErr pgCane 0x0004 else s
    else match s.page? n with
      | some p =>
        let s := (s.onPage n (fun p => { p with bad := true })).recErr pgCane 0x0001
        if p.ckptReads = 0 then s else s.sourceUe n
      | none => s)

/-- The watchdog does not count `dt` ticks in which a checkpoint held a command (R64). -/
def Cmd.later (dt : Nat) (c : Cmd) : Cmd := { c with progressTick := max c.progressTick c.startTick + dt }

/-- The row CKPT_FREEZE_END. -/
def execCkptFreezeEnd (s : State) : Host.Outcome State Fault Refusal :=
  .next (match s.ckp.run with
    | none => s
    | some r =>
      if r.cut.isSome ∧ r.copied = false then
        let dt := s.tick - r.start
        let s := { s with ckp := { s.ckp with run := some { r with copied := true } }, cmds := s.cmds.map (fun _ c => c.later dt) }
        ((s.setReg .CKP_LAST_FREEZE_TICKS (min dt (2 ^ 32 - 1))).raiseReg .CKP_MAX_FREEZE_TICKS dt).thaw
      else s)

/-! ## The manifest, and failures (R419 to R421) -/

/-- Bytes that the checkpoint writes, and those that it references in all. -/
def State.ckptBytes (s : State) (r : CkptRun) (c : Snapshot) : Nat × Nat :=
  let old := s.baseSnap r.full
  (s.stageBytes old c + s.objectBytes old c, s.stageBytes none c + s.objectBytes none c)

/-- The store has room for the objects of the checkpoint that runs. -/
def State.storeFits (s : State) (data : Nat) : Bool := decide (2 ^ 21 + roundUp s.ckptUsed 65536 + data ≤ s.ckptStoreLen)

/-- The store's target can be written. -/
def State.storeReachable (s : State) : Bool := s.fabricOk s.ckptStore s.ckptStoreLen

/-- The checkpoint is complete. -/
def State.ckptDone (s : State) (r : CkptRun) (c : Snapshot) : State :=
  let (data, all) := s.ckptBytes r c
  let slot := (r.seq + 1) % 2
  let bs := s.manifest r c data all
  let s := { s.useFree 16 with fabric := s.fabric.writeN (s.ckptStore + 4096 * slot) bs }
  let img : StoreImage := { seq := r.seq, snap := c, dataBytes := data, storeBytes := all }
  let s := { s with ckp := { s.ckp with run := none, store := s.ckp.store.set slot img, mapValid := true } }
  let s := s.setReg (if slot = 0 then .CKP_SLOT_A_SEQ_SEQ else .CKP_SLOT_B_SEQ_SEQ) r.seq
  let s := ((s.setReg .CKP_LAST_SEQ_SEQ r.seq).setReg .CKP_LAST_TICK_TICK c.tick).setReg .CKP_LAST_BYTES_BYTES data
  let s := s.setReg .CKP_STORE_USED_MIB (min (ceilDiv s.ckptUsed (2 ^ 20)) (2 ^ 32 - 1))
  let s := (s.dropHolds.bump .CKP_TAKEN_COUNT).progress pgCkp (data / 2 ^ 20) 99
  let s := (s.endLong pgCkp).safePoint pgCkp
  match r.cmd with
  | some id => s.complete id .ok (min (data / 2 ^ 20) (2 ^ 32 - 1)) r.seq
  | none => s

/-- The row CKPT_MANIFEST_DONE: the second fence after the manifest passes. -/
def execCkptManifestDone (s : State) : Host.Outcome State Fault Refusal :=
  .next (match s.ckp.run with
    | none => s
    | some r =>
      match r.cut with
      | none => s
      | some c => if r.copied ∧ s.storeReachable = true ∧ s.storeFits (s.ckptBytes r c).1 = true then s.ckptDone r c else s)

/-- The row CKPT_ABORT: a store write fails, or the store is full before the index is written. -/
def execCkptAbort (writeFail : Bool) (s : State) : Host.Outcome State Fault Refusal :=
  .next (match s.ckp.run with
    | none => s
    | some r =>
      match r.cut with
      | none => s
      | some c =>
        if writeFail ∨ s.storeReachable = false then (s.recErr pgCkp 0x0002).ckptFail .internal 0
        else if s.storeFits (s.ckptBytes r c).1 then s
        else (s.ckptFail .noSpace 21).setIntBit pgCkp 10)

/-! ## CKP_CTRL.EN (R421, R431) -/

/-- The regions that R407 names, but for the lease pointer table. -/
def State.allRegions (s : State) : List (Nat × Nat) :=
  s.srchAvoid ++ [s.tombRange] ++ s.validColls.flatMap s.collRanges

/-- The lease pointer table (R395). -/
def State.leaseTable (s : State) : Nat × Nat := (s.reg .FAM_LEASE_BASE_ADDR * 4096, 16 * s.reg .SDIR_SLOTS_COUNT)

/-- The staging area and the page map. -/
def State.stageRange (s : State) : Nat × Nat := (s.reg .CKP_STAGE_BASE_ADDR * 2 ^ 30, s.reg .CKP_STAGE_SIZE_GIB * 2 ^ 30)
def State.mapRange (s : State) : Nat × Nat := (s.reg .CKP_MAP_BASE_ADDR * 4096, 8 * s.reg .CANE_REC_COUNT_COUNT)

/-- The checks of CKP_CTRL.EN. -/
def State.ckpOk (s : State) : Bool :=
  let avoid := s.allRegions ++ [s.leaseTable]
  s.inPoolEntry s.ckptStore s.ckptStoreLen && decide (2 ^ 21 < s.ckptStoreLen)
    && inHbmRange s.stageRange.1 s.stageRange.2 && inHbmRange s.mapRange.1 s.mapRange.2
    && clearOf s.stageRange.1 s.stageRange.2 avoid && clearOf s.mapRange.1 s.mapRange.2 avoid

/-- The row CKP_ENABLE, with the value written. -/
def execCkpEnable (en : Bool) (s : State) : Host.Outcome State Fault Refusal :=
  let s := s.touch
  .next (if !s.live then s
    else if en then
      if s.pageState pgCkp ≠ 0 then s
      else if s.ckpOk then
        let s := ((s.clearCounters pgCkp).setEn pgCkp true).setPageState pgCkp 2
        { s with ckp := { s.ckp with mapValid := false } }
      else s.recErr pgCkp 0x0003
    else if s.pageState pgCkp = 0 ∨ s.failed pgCkp = true then s
    else if s.ckp.run.isSome ∨ s.ckp.restore.isSome then s.recErr pgCkp 0x0005
    else s.disableBlock pgCkp)

/-- The row CKP_INIT_DONE: both manifest slots have been read. -/
def execCkpInitDone (s : State) : Host.Outcome State Fault Refusal :=
  .next (if s.pageState pgCkp = 2 then
    let s := (s.setReg .CKP_SLOT_A_SEQ_SEQ (s.slotSeq 0)).setReg .CKP_SLOT_B_SEQ_SEQ (s.slotSeq 1)
    let s := s.setReg .CKP_STORE_USED_MIB (min (ceilDiv s.ckptUsed (2 ^ 20)) (2 ^ 32 - 1))
    let s := s.setPageState pgCkp 1
    { s with ckp := { s.ckp with timerFrom := s.tick, stepsFrom := s.reg .GAF_STEP_SEQ_COUNT } }
  else s)

end Sys2Proof.Machine
end

