-- ==== Sys2Proof/Machine/Restore.lean ====
section
/-!
DEFINITION. CKPT_RESTORE and its end: the checks, what is written, the ticks and numbers that change, the leases, and the
outstanding commands (R422 to R429).
-/
namespace Sys2Proof.Machine

/-! ## Ticks and command numbers (R425, R427) -/

/-- How a restore changes what was recorded: the ticks by a difference, the numbers of commands by a sum; and whether the
outstanding commands return. -/
structure Shift where
  dt : Int
  ids : Nat
  cmds : Bool

/-- A tick that is 0 means none; others move, within 64 bits. -/
def Shift.tick (f : Shift) (t : Nat) : Nat :=
  if t = 0 then 0 else min (2 ^ 64 - 1) ((t : Int) + f.dt).toNat

/-- A tick of the device's own record keeping. -/
def Shift.at' (f : Shift) (t : Nat) : Nat := min (2 ^ 64 - 1) ((t : Int) + f.dt).toNat

def Shift.id (f : Shift) (i : Nat) : Nat := i + f.ids

/-- Numbers of commands in a list, where the commands return. -/
def Shift.idList (f : Shift) (l : List Nat) : List Nat := if f.cmds then l.map f.id else []

/-- Something that belongs to a command, where the commands return. -/
def Shift.kept {α : Type} (f : Shift) (o : Option α) (g : α → α) : Option α := if f.cmds then o.map g else none

def Shift.reheat (f : Shift) (h : Reheat) : Reheat :=
  { h with resumeTick := f.tick h.resumeTick, f1 := h.f1.map f.tick, f2 := h.f2.map f.tick }

/-- Commands that start again: those whose move or capsule does not run any more (R426, R427). -/
def startsAgain (opcode : Nat) : Bool := [0x1D, 0x20, 0x21, 0x22, 0x23, 0x24].contains opcode

/-- A command as it returns. -/
def Shift.cmd (f : Shift) (c : Cmd) : Cmd :=
  let again := startsAgain c.desc.opcode && c.phase == .running
  { c with
    acceptTick := f.tick c.acceptTick, startTick := f.at' c.startTick, progressTick := f.at' c.progressTick,
    desc := { c.desc with deadline := f.tick c.desc.deadline },
    phase := if again then .started else c.phase,
    moved := if again then 0 else c.moved, referenced := if again then 0 else c.referenced,
    pages := if again then [] else c.pages, aux := if again then 0 else c.aux }

/-- A session as it returns: in its source tier if it was MOVING, with no move running (R424 to R427). -/
def Shift.session (f : Shift) (x : Session) : Session :=
  let gen := if f.cmds then x.genReq else false
  { x with
    residency := if x.residency = .moving then x.moveSrc else x.residency,
    moveSrc := .free, moveDst := .free, cancel := false,
    genReq := gen, waitHeld := f.cmds && x.waitHeld,
    runState := if x.runState = .runnable ∧ x.inputPend = false ∧ gen = false then .idle else x.runState,
    deadline := f.tick x.deadline, resumeTick := f.tick x.resumeTick,
    readers := x.readers.map (fun _ => 0), provisional := none, provTier := .free, provBytes := 0,
    stepReq := f.kept x.stepReq (fun q => { q with cmd := f.id q.cmd }),
    ended := f.kept x.ended (fun e => ({ e.1 with cmd := f.id e.1.cmd }, e.2)),
    wait := f.kept x.wait (fun w => { w with cmd := f.id w.cmd, start := f.at' w.start }),
    reheat := x.reheat.map f.reheat,
    compact := match x.compact with
      | some w => if w.cmd.isSome ∧ f.cmds = false then none
                  else some { since := f.at' w.since, cmd := w.cmd.map f.id }
      | none => none,
    lastCmd := f.at' x.lastCmd, lastStep := f.at' x.lastStep, runnableAt := f.at' x.runnableAt,
    allotFail := x.allotFail.map f.at', heldBack := f.cmds && x.heldBack, verWait := none,
    closing := if f.cmds then x.closing.map f.id else none,
    leaseTick := none, leaseIssued := none, leaseFresh := false, leaseWait := false, promoteWait := none }

/-- The sessions that return: one that was arriving from outside at the cut has no source tier and does not exist. -/
def Snapshot.sessions (c : Snapshot) (f : Shift) : Map Session :=
  (c.sdir.sess.filter (fun _ x => !(x.residency == .moving && x.moveSrc == .free))).map (fun _ x => f.session x)

/-! ## Pages (R424) -/

/-- Page records with the tier flags of the copies that the restore writes: one in each tier in which a session that holds the
page needs it. -/
def restoredPages (recs : Map PageRec) (sess : Map Session) (pins : List Nat) : Map PageRec :=
  let xs := sess.values
  let inHbm := (xs.filter Session.inHbm).flatMap Session.frames
  let parked := (xs.filter (fun x => x.residency == .parked)).flatMap Session.frames
  let pooled := (xs.filter (fun x => x.residency == .pooled)).flatMap Session.frames
  recs.map (fun n p =>
    let h := inHbm.contains n
    let k := parked.contains n
    let q := pooled.contains n
    { p with
      inHbm := h || (p.inHbm && !k && !q), onFlash := k || (p.onFlash && !h && !p.inHbm && !q),
      inPool := q || (p.inPool && !h && !k && !p.inHbm && !p.onFlash),
      users := (inHbm.filter (· == n)).length, pins := (pins.filter (· == n)).length, ckptReads := 0 })

/-- Heap bytes that an owner holds after a restore. -/
def State.heapSums (s : State) : Map Nat :=
  let add (m : Map Nat) (t n : Nat) : Map Nat := if n = 0 then m else m.set t (m.getD t 0 + n)
  let m := s.cane.recs.values.foldl (fun m p => if p.inHbm then add m p.tenant p.hbmBytes else m) ⟨[]⟩
  s.sdir.sess.values.foldl (fun m x =>
    add (add m x.tenant (inputBytes x.input)) x.tenant (if x.inHbm then s.recordBytesOf x else 0)) m

/-- Space on flash and in the pool after a restore. -/
def State.flashSum (s : State) : Nat :=
  (s.cane.recs.values.map (fun p => if p.onFlash then (if p.flashBytes = 0 then p.poolBytes else p.flashBytes) else 0)).sum
    + (s.sdir.sess.values.map (fun x => if x.residency = .parked then x.recStored else 0)).sum
def State.poolSum (s : State) : Nat :=
  (s.cane.recs.values.map (fun p => if p.inPool then p.poolBytes else 0)).sum
    + (s.sdir.sess.values.map (fun x => if x.residency = .pooled then x.recStored else 0)).sum

/-- The count of sealed pages resumes above the largest restored UID of this device. -/
def State.resumeSealed (s : State) : Nat :=
  (s.cane.recs.values.map (fun p => if p.isSealed ∧ p.uid / 2 ^ 48 = s.self then p.uid % 2 ^ 48 + 1 else 0)).foldl max
    s.cane.sealedCount

/-- The addresses of a restored session are the device's own. -/
def State.newAddresses (s : State) : State :=
  s.sdir.sess.keys.foldl (fun s slot =>
    let bytes := ((s.session? slot).map (·.recStored)).getD 0
    let pooled := ((s.session? slot).map (·.residency)) == some .pooled
    let extent := s.poolAddr (s.free + 1) bytes
    let s := (s.onSession slot (fun x =>
      if x.residency = .away then x
      else { x with srAddr := s.freeAddr,
                    ptRoot := if pooled then extent else (Config.freeWord (s.free + 1)).toNat / 4096 * 4096 })).useFree 2
    if pooled then s.allotPool extent bytes else s) s

/-! ## Queues and engines -/

/-- A queue of the shaper as it returns, with the commands that this device had in it already. -/
def Shift.queue (f : Shift) (keep : Nat → Bool) (a : AdmQueue) (live : AdmQueue) : AdmQueue :=
  { a with cmds := f.idList (a.cmds.filter keep) ++ live.cmds, filledAt := f.at' a.filledAt,
           active := live.active || (f.cmds && !a.cmds.isEmpty) }

/-- Admission as it returns. -/
def State.restoredAdm (s : State) (f : Shift) (c : Snapshot) : Adm :=
  let keep (i : Nat) : Bool := c.cmds.has i
  let old := c.adm.queues.entries.map (fun e => (e.1, f.queue keep e.2 (s.admQ e.1)))
  let queues := old.foldl (fun m e => m.set e.1 e.2) s.adm.queues
  { s.adm with queues := queues, held := f.idList (c.adm.held.filter keep) ++ s.adm.held,
               vtUrgent := c.adm.vtUrgent, vtNormal := c.adm.vtNormal }

/-- The embedding engine as it returns. -/
def Shift.emb (f : Shift) (e : Emb) : Emb :=
  let change (x : Change) : Change := { x with cmds := f.idList x.cmds }
  { e with
    waiting := f.idList e.waiting, batch := none, inbox := e.inbox.map change,
    epochs := e.epochs.map (fun p => { p with closeTick := f.at' p.closeTick, changes := p.changes.map change }),
    late := e.late.map change,
    sent := if f.cmds then e.sent.map (fun q => (f.id q.1, q.2)) else [],
    repl := f.kept e.repl (fun j => { j with cmd := f.id j.cmd }) }

/-- The search engine as it returns; a compaction whose command is discarded does not run on. -/
def Shift.srch (f : Shift) (e : Srch) : Srch :=
  { e with
    waiting := f.idList e.waiting, batch := none,
    compact := f.kept e.compact (fun j => { j with cmd := f.id j.cmd }),
    colls := if f.cmds then e.colls else e.colls.map (fun _ k => { k with compacting := false }) }

/-- A step as it returns. -/
def Shift.stepRun (f : Shift) (r : StepRun) : StepRun := { r with start := f.at' r.start }

/-- The step scheduler as it returns. -/
def Shift.gaf (f : Shift) (g : Gaf) : Gaf :=
  { g with running := g.running.map f.stepRun, composed := g.composed.map f.stepRun, gather := g.gather.map f.at',
           urgentEnd := f.at' g.urgentEnd }

/-! ## The restore -/

/-- The recorded register fields take the place of the present ones; counters read 0 (R409, R424). -/
def State.restoreRegs (s : State) (c : Snapshot) : State :=
  let regs := s.regs.filter (fun k _ => !ckptKey k)
  let s := { s with
    regs := c.regs.entries.foldl (fun m e => m.set e.1 e.2) regs
    shadow := s.shadow.filter (fun k _ => !ckptKey k) }
  let s : State := c.commons.entries.foldl (fun (s : State) (e : Nat × Common) => s.setCommon e.1 { s.common e.1 with
    en := e.2.en, hold := e.2.hold, intEn := e.2.intEn,
    state := if e.2.state = 0xFF ∨ (s.common e.1).state = 0xFF ∨ 256 ≤ e.1 then (s.common e.1).state else e.2.state }) s
  { s with regs := s.regs.filter (fun k _ => !((Reg.all[k / 4294967296]?).map (fun (r : Reg) => r.desc.counter)).getD false) }

/-- Everything but registers and commands, as it stood at the cut. -/
def State.restoreState (s : State) (c : Snapshot) (f : Shift) : State :=
  let sess := c.sessions f
  let gaf := f.gaf c.gaf
  let pins := ((gaf.running.map (·.pins)).getD []) ++ ((gaf.composed.map (·.pins)).getD [])
  let s := { s with
    sdir := { c.sdir with sess := sess, cache := ⟨[]⟩, writeBuf := [], disabledSets := s.sdir.disabledSets, missing := [],
                          init := false },
    cane := { c.cane with recs := restoredPages c.cane.recs sess pins, sealedCount := s.cane.sealedCount },
    adm := s.restoredAdm f c, gaf := gaf, emb := f.emb c.emb, srch := f.srch c.srch, hbm := c.hbm, objects := c.objects,
    cores := if c.inStep then c.cores else s.cores, windows := if c.inStep then c.windows else s.windows }
  let s := { s with cane := { s.cane with sealedCount := s.resumeSealed } }
  let s := { s with stm := { s.stm with moves := ⟨[]⟩, heap := s.heapSums, flashUsed := s.flashSum, poolUsed := s.poolSum } }
  let s := s.newAddresses
  let running := s.sdir.sess.entries.filter (fun e => e.2.runState == .running)
  running.foldl (fun s e => (s.lockEntry e.1).getD s) s

/-- The recorded commands return to their rings (R427). -/
def State.restoreCmds (s : State) (c : Snapshot) (f : Shift) : State :=
  if f.cmds then
    let l := c.cmds.entries.map (fun e => (f.id e.1, f.cmd e.2))
    let s := { s with cmds := l.foldl (fun m e => m.set e.1 e.2) s.cmds,
                      nextCmd := (l.map (fun e => e.1 + 1)).foldl max s.nextCmd }
    l.foldl (fun s e => s.setRing e.2.ring { s.ring e.2.ring with outstanding := (s.ring e.2.ring).outstanding + 1 }) s
  else s

/-- A tenant's objects can be read: the checkpoint holds them under a transport key that is bound (R449). -/
def State.usable (s : State) (c : Snapshot) (t : Nat) : Bool :=
  match c.ttks.get? t with
  | some k => (s.tenant t).ttks.contains k
  | none => false

/-- A session of a tenant without a usable key is not restored: its slot keeps its generation (R424). -/
def State.skipSession (s : State) (slot : Nat) : State :=
  let s := s.setCaneNode slot none
  let d := s.sdir
  { s with sdir := { d with sess := d.sess.erase slot,
                            freed := if d.badSlots.contains slot then d.freed else d.freed ++ [slot] } }

/-- Take the rows of sessions that are gone out of a step. -/
def State.trimStep (s : State) (r : StepRun) : Option StepRun :=
  let rows := r.rows.filter (fun w => (s.session? w.slot).isSome)
  if rows.isEmpty then none else some { r with rows := rows }

/-- Sessions, pages, tables and collections of tenants without a usable key are left out; the number of sessions. -/
def State.skipTenants (s : State) (c : Snapshot) : Nat × State :=
  let gone := (s.sdir.sess.entries.filter (fun e => !s.usable c e.2.tenant)).map (·.1)
  let s := gone.foldl State.skipSession s
  let s := { s with gaf := { s.gaf with running := s.gaf.running.bind s.trimStep, composed := s.gaf.composed.bind s.trimStep } }
  let recs := (s.cane.recs.entries.filter (fun e => !s.usable c e.2.tenant)).map (·.1)
  let s := recs.foldl (fun s n => freeRecordOp s n false) s
  let s := { s with objects := s.objects.filter (fun k _ => s.usable c (k / 2 ^ 19)) }
  let tables := s.validTables.filter (fun t => !s.usable c (s.reg .EMB_TBL_CFG_TENANT t))
  let s := tables.foldl (fun s t => s.setReg .EMB_TBL_CFG_VALID 0 t) s
  let colls := s.validColls.filter (fun k => !s.usable c (s.reg .SRCH_COLL_CFG_TENANT k))
  let s := colls.foldl (fun s k => s.setReg .SRCH_COLL_CFG_VALID 0 k) s
  (gone.length, s.clearCounters pgCane)

/-- The CAS at the lease word of a restored session (R426); `words` are the answers by address. -/
def State.restoreLease (s : State) (source : Nat) (words : List (Nat × DWord)) (slot : Nat) : State :=
  match s.session? slot with
  | none => s
  | some x =>
    if !x.leased || x.residency == .away || x.runState == .lost || x.runState == .closed then s
    else
      let s := s.countLease x.leaseAddr
      match s.heard x.leaseAddr ((words.find? (fun e => e.1 == x.leaseAddr)).map (·.2)) with
      | none => s.setLost slot
      | some w =>
        if w = owned x.leaseEpoch source ∨ w = offered x.leaseEpoch source (leaseOffereeOf w) then
          let e := nextEpoch x.leaseEpoch
          let s := { s with fabric := s.fabric.writeN x.leaseAddr (leBytes (owned e s.self) 8) }
          s.onSession slot (fun y => { y with leaseEpoch := e })
        else s.loseLease slot w

/-- The restore commits. -/
def State.restoreCommit (s : State) (r : RestoreRun) (m : StoreImage) (words : List (Nat × DWord)) : State :=
  let c := m.snap
  let f : Shift := { dt := (s.tick : Int) - (c.tick : Int), ids := s.nextCmd, cmds := r.cmds }
  let s := s.restoreRegs c
  let s := s.restoreState c f
  let s := s.restoreCmds c f
  let (skipped, s) := s.skipTenants c
  let s := s.sdir.sess.keys.foldl (fun s slot => s.restoreLease c.source words slot) s
  let s := c.lost.foldl State.setLost s
  let s := { s with ckp := { s.ckp with restore := none, mapValid := true } }
  let s := (s.bump .CKP_RESTORES_COUNT).progress pgCkp (m.storeBytes / 2 ^ 20) 99
  (s.endLong pgCkp).complete r.cmd .ok 0 (m.seq % 2 ^ 48 + min skipped 65535 * 2 ^ 48)

/-- The restore clears what it has written (R429). -/
def State.restoreFail (s : State) (r : RestoreRun) (st : Status) (detail : Nat) : State :=
  let s := { s with
    sdir := {},
    cane := { ({} : Cane) with sealedCount := s.cane.sealedCount },
    ckp := { s.ckp with restore := none } }
  (s.abortLong pgCkp).complete r.cmd st detail

/-! ## CKPT_RESTORE (R422, R423) -/

/-- The fields that check 4 compares: RWL bases and sizes. -/
def fixedRegs : List Nat :=
  ([.SDIR_BASE_ADDR, .SDIR_FREELIST_ADDR, .SDIR_SLOTS_COUNT, .STM_HEAP_BASE_ADDR, .STM_HEAP_SIZE_GIB, .STM_FLASH_QUOTA_GIB,
    .STM_POOL_BASE_ADDR, .STM_POOL_SIZE_GIB, .CANE_NODE_BASE_ADDR, .CANE_NODES_COUNT, .CANE_TOKEN_BASE_ADDR,
    .CANE_BUCKET_BASE_ADDR, .CANE_BUCKETS_LOG2, .CANE_REC_BASE_ADDR, .CANE_REC_COUNT_COUNT, .CRU_SRAM_RES_MIB,
    .CRU_SRAM_URGENT_MIB, .CRU_CLU_SR_MIB, .CRU_CLU_WIN_MIB, .CRU_MODEL_BASE_ADDR, .CRU_MODEL_SIZE_GIB, .JCK_STORE_BASE_ADDR,
    .JCK_STORE_SIZE_GIB, .EMB_REPL_BASE_ADDR, .EMB_REPL_SIZE_MIB, .EMB_TBL_WIDTH_BYTES, .EMB_TBL_ROWS_ROWS_M1,
    .EMB_TBL_BASE_ADDR, .EMB_TBL_TAINT_BASE_ADDR, .SRCH_TOMB_BASE_ADDR, .SRCH_TOMB_COUNT_COUNT, .SRCH_COLL_PARTS_MAX_COUNT,
    .SRCH_COLL_GRAPH_ADDR, .SRCH_COLL_LIST_ADDR, .SRCH_COLL_LIST_SIZE_MIB, .FAM_LEASE_BASE_ADDR, .CKP_STORE_BASE_ADDR,
    .CKP_STORE_SIZE_GIB, .CKP_STAGE_BASE_ADDR, .CKP_STAGE_SIZE_GIB, .CKP_MAP_BASE_ADDR] : List Reg).map Reg.ctorIdx

/-- Check 4. -/
def State.fixedEqual (s : State) (c : Snapshot) : Bool :=
  let pick (m : Map Nat) : Map Nat := m.filter (fun k _ => fixedRegs.contains (k / 4294967296))
  decide (pick s.regs = pick c.regs)

/-- Check 3: the device holds nothing that a restore would overwrite. -/
def State.restoreClear (s : State) : Bool :=
  s.sdir.sess.size == 0 && s.cane.recs.size == 0 && s.validTables.isEmpty && s.validColls.isEmpty && s.gaf.running.isNone

/-- Check 5. -/
def State.modelsEqual (s : State) (c : Snapshot) : Bool :=
  let m := s.snapshot
  (c.fps.zip m.fps).all (fun p => p.1 == 0 || p.1 == p.2) && (c.digests.zip m.digests).all (fun p => p.1 == 0 || p.1 == p.2)

/-- Check 7. -/
def State.ringsFit (s : State) (c : Snapshot) : Bool :=
  c.cmds.values.all (fun k =>
    let r := s.ring k.ring
    r.bound && !r.admin && r.tenant == k.tenant && r.state == .enabled
      && decide ((c.cmds.values.filter (fun q => q.ring == k.ring)).length ≤ 2 ^ r.cqLog2))

/-- The slot of the manifest sought. -/
def State.soughtSlot (s : State) (d : Desc) : Option Nat :=
  let a := s.slotSeq 0
  let b := s.slotSeq 1
  if d.optBit 9 then
    let w := d.specF 43 36
    if w = 0 then none else if a = w then some 0 else if b = w then some 1 else none
  else if a = 0 ∧ b = 0 then none else if b < a then some 0 else some 1

/-- CKPT_RESTORE takes effect: checks 1 to 7. -/
def opCkptRestore (s : State) (id : Nat) (c : Cmd) : State :=
  if s.pageState pgCkp ≠ 1 then s.complete id .internal
  else if s.ckp.run.isSome ∨ s.ckp.restore.isSome ∨ s.sec.pass.isSome then s.waitCmd id
  else match s.soughtSlot c.desc with
    | none => s.refuse id .invalid 0x70
    | some slot =>
      if !s.fabricOk s.ckptStore s.ckptStoreLen then s.refuse id .invalid 0x70
      else if leAt (s.manifestBytes slot) 10 1 ≠ 0xA1 then s.refuse id .invalid 0x71
      else if !s.restoreClear then s.complete id .locked
      else match s.imageOf slot with
        | none => s.refuse id .security 0x09
        | some m =>
          if !s.fixedEqual m.snap then s.refuse id .invalid 0x73
          else if !s.modelsEqual m.snap then s.refuse id .invalid 0x74
          else if s.sec.ckk ≠ some m.snap.keyRef then s.refuse id .security 0x09
          else if c.desc.optBit 8 ∧ s.ringsFit m.snap = false then s.refuse id .invalid 0x75
          else
            let s := s.beginLong pgCkp
            { s with ckp := { s.ckp with restore := some { cmd := id, slot := slot, cmds := c.desc.optBit 8 } } }.runCmd id false

/-- The row RESTORE_DONE: every object has been read and written, with the words that the lease homes gave; or an object failed
(`failed` some true for its tag or decompression, some false for its read). -/
def execRestoreDone (words : List (Nat × DWord)) (failed : Option Bool) (s : State) : Host.Outcome State Fault Refusal :=
  .next (match s.ckp.restore with
    | none => s
    | some r =>
      match failed, s.imageOf r.slot with
      | some true, _ => s.restoreFail r .security (0xFF + 256 * 0x0A)
      | none, some m => if s.storeReachable then s.restoreCommit r m words else s.restoreFail r .internal 0
      | _, _ => s.restoreFail r .internal 0)

end Sys2Proof.Machine
end

