-- ==== Sys2Proof/Machine/Power.lean ====
section
/-!
DEFINITION. Power domains, the current governor, core clocks and the reference clock (R472 to R484, R488, R489, R501, R502,
R535).
-/
namespace Sys2Proof.Machine

/-! ## Clocks of the cores (R479) -/

def State.onPlat (s : State) (f : Plat → Plat) : State := { s with plat := f s.plat }

/-- The PLL output after the governor, in MHz (R473, R502). -/
def State.pllMhz (s : State) : Nat := s.reg .CLK_PLL_EFF_MHZ
/-- CLK_PLL.MHZ as it is taken: the next lower step of 25 from 600 to 1,800. -/
def State.pllNominal (s : State) : Nat := max 600 (min 1800 (s.reg .CLK_PLL_MHZ / 25 * 25))
def State.pllLocked (s : State) : Bool := s.regBit .CLK_PLL_EFF_LOCKED

/-- A core changes its clock. -/
def State.clockSwitch (s : State) (n : Nat) (pll : Bool) : State :=
  let c := s.core n
  if c.onPll = pll then s.setCore n { c with swTo := none }
  else (s.setCore n { c with onPll := pll, swTo := none }).bump .CLK_SWITCHES_COUNT

/-- A clock switch is asked for: it takes effect at the core's next tile boundary, at once where no tile is in progress. -/
def State.askSwitch (s : State) (n : Nat) (pll : Bool) : State :=
  if (s.core n).tileKind = 0 then s.clockSwitch n pll else s.setCore n { s.core n with swTo := some pll }

/-- Cores whose domain is ON. -/
def State.onCores (s : State) : List Nat := (List.range 128).filter s.domOn

/-- Cores that CLK_CORE_SEL selects, with ALL every core that is ON (R502). -/
def State.selectedCores (s : State) : List Nat :=
  if s.regBit .CLK_CORE_SEL_ALL then s.onCores
  else s.onCores.filter (· == s.reg .CLK_CORE_SEL_CORE)

/-- The row CORE_SW_TO_PLL: CLK_CORE_SW.TO_PLL written 1. An unlocked PLL takes no core (R482, R505). -/
def execCoreSwToPll (s : State) : Host.Outcome State Fault Refusal :=
  let s := s.touch
  .next (if s.live && s.pllLocked then s.selectedCores.foldl (fun s n => s.askSwitch n true) s else s)

/-- The row CORE_SW_TO_START. -/
def execCoreSwToStart (s : State) : Host.Outcome State Fault Refusal :=
  let s := s.touch
  .next (if s.live then s.selectedCores.foldl (fun s n => s.askSwitch n false) s else s)

/-! ## The reference clock and the PLL (R482, R483) -/

/-- Time passes where nothing is commanded (R7, R483): with REFCLK qualified one tick; without it the 250 ticks of one cycle
of the always-on oscillator, which CLK_HOLDOVER_TICKS counts; without power none. -/
def State.passTick (s : State) : State :=
  if s.plat.phase ≠ .on then s
  else if s.regBit .CLK_STATUS_REF_REF_OK then { s with tick := (s.tick + 1) % 2 ^ 64 }
  else { s.bump .CLK_HOLDOVER_TICKS_COUNT 0 250 with tick := (s.tick + 250) % 2 ^ 64 }

/-- What passes when nothing is commanded: time, and one entry of the directory's write buffer drains (R77). -/
def idleTick (s : State) : State := s.drainWriteBuf.passTick

/-- The row REFCLK_LOST. -/
def execRefclkLost (s : State) : Host.Outcome State Fault Refusal :=
  .next (if s.plat.phase = .on ∧ s.regBit .CLK_STATUS_REF_REF_OK = true then
    let s := ((s.setReg .CLK_STATUS_REF_REF_OK 0).setReg .CLK_STATUS_REF_REF_LOST 1).setReg .CLK_PLL_EFF_LOCKED 0
    let s := (s.bump .CLK_REF_LOSSES_COUNT).setIntBit pgClk 8
    let moved := s.onCores.filter (fun n => (s.core n).onPll || (s.core n).swTo == some true)
    let s := moved.foldl (fun s n => s.askSwitch n false) s
    let s := s.onPlat (fun p => { p with lostCores := moved })
    (List.range 8).foldl (fun s n =>
      let st := s.pageState (fabPage n)
      if st = 3 ∨ st = 4 then s.linkDown n else if st = 2 then s.setPageState (fabPage n) 5 else s) s
  else s)

/-- The row REFCLK_QUALIFIED, with the measured frequency: the PLL relocks, the cores return if AUTO_RETURN is 1, and the
ports train again. -/
def execRefclkQualified (khz : Nat) (s : State) : Host.Outcome State Fault Refusal :=
  .next (if s.plat.phase = .on ∧ s.regBit .CLK_STATUS_REF_REF_OK = false ∧ 99200 ≤ khz ∧ khz ≤ 100200 then
    let s := ((s.setReg .CLK_STATUS_REF_REF_OK 1).setReg .CLK_STATUS_REF_REF_KHZ khz).setIntBit pgClk 9
    if s.pageState pgGlb = 0 ∨ s.pageState pgGlb = 3 then s
    else
      let s := s.setReg .CLK_PLL_EFF_LOCKED 1
      let s := if s.regBit .CLK_CFG_AUTO_RETURN then
          (s.plat.lostCores.filter s.domOn).foldl (fun s n => s.askSwitch n true) s
        else s
      let s := s.onPlat (fun p => { p with lostCores := [] })
      (List.range 8).foldl (fun s n =>
        if s.pageState (fabPage n) = 5 then s.setPort n { training := true, since := s.tick } else s) s
  else s)

/-- The row PLL_LOCK_FAIL: the PLL did not lock within 50 µs with REFCLK qualified; cores stay on the start oscillator. -/
def execPllLockFail (s : State) : Host.Outcome State Fault Refusal :=
  .next (if s.plat.phase = .on ∧ s.regBit .CLK_STATUS_REF_REF_OK = true then
    let s := (s.setReg .CLK_PLL_EFF_LOCKED 0).recErr pgClk 0x0001
    s.onCores.foldl (fun s n => s.askSwitch n false) s
  else s)

/-- The row PLL_UNLOCK: the PLL lost lock with REFCLK present. -/
def execPllUnlock (s : State) : Host.Outcome State Fault Refusal :=
  .next (if s.plat.phase = .on ∧ s.regBit .CLK_STATUS_REF_REF_OK = true ∧ s.pllLocked = true then
    (s.setReg .CLK_PLL_EFF_LOCKED 0).setIntBit pgClk 10
  else s)

/-- Nothing works or waits to: no command is outstanding, no step runs, nothing moves. -/
def State.noWork (s : State) : Bool := s.cmds.size == 0 && s.gaf.running.isNone && s.stm.moves.size == 0

/-- The row AON_CLOCK_GATE: PWR_AON_IDLE.US µs passed without work. -/
def execAonClockGate (s : State) : Host.Outcome State Fault Refusal :=
  .next (if s.plat.phase = .on && s.noWork then s.onPlat (fun p => { p with aonGated := true }) else s)

/-! ## The governor (R473, R474, R535) -/

/-- The limits in effect: at most 32 A and 2,100 W, the power halved while a stage is faulted. -/
def State.currentLimit (s : State) : Nat := min 32000 (s.reg .PWR_ILIMIT_MA)
def State.powerLimit (s : State) : Nat :=
  let w := min 2100 (s.reg .PWR_PLIMIT_W)
  if s.plat.halfLimit then w / 2 else w
def State.throttleC (s : State) : Nat := min 115 (max 70 (s.reg .PWR_THROTTLE_C))

/-- The averages over 10 µs and the hottest sensor. -/
def State.measured (s : State) (ma w c : Nat) : State :=
  ((s.setReg .PWR_IIN_MA (min ma 65535)).setReg .PWR_PIN_W (min w 4095)).setReg .PWR_TEMP_MAX_C (min c 255)

/-- Whole intervals of 10 µs that the governor has held the clock below CLK_PLL.MHZ and that PWR_LIMITED_10US does not count yet
(R474). -/
def State.limitedNow (s : State) : Nat :=
  if s.pllMhz < s.pllNominal then (s.tick - s.plat.limitedAt) / 10000 else 0

/-- PWR_LIMITED_10US takes them up; where the clock is not held, the next interval begins now. -/
def State.countLimited (s : State) : State :=
  let at' := if s.pllMhz < s.pllNominal then s.plat.limitedAt + 10000 * s.limitedNow else s.tick
  (s.bump .PWR_LIMITED_10US_COUNT 0 s.limitedNow).onPlat (fun p => { p with limitedAt := at' })

/-- The row GOVERNOR_STEP_DOWN, with the averages and the hottest sensor: one step of 25 MHz down to 600 MHz, and then half
of the matrix issue. -/
def execGovernorStepDown (ma w c : Nat) (s : State) : Host.Outcome State Fault Refusal :=
  .next (if s.plat.phase = .on ∧ (s.currentLimit < ma ∨ s.powerLimit < w ∨ s.throttleC ≤ c) then
    let s := s.countLimited.measured ma w c
    let s := if s.throttleC ≤ c then s.setIntBit pgPwr 11 else s
    if s.pllMhz ≤ 600 then s.onPlat (fun p => { p with issueGated := true })
    else (s.setReg .CLK_PLL_EFF_MHZ (max 600 (s.pllMhz - 25))).setIntBit pgPwr 10
  else s)

/-- The row GOVERNOR_STEP_UP: both averages below 97 % of their limits for 1 ms, and the sensor below the throttle. -/
def execGovernorStepUp (ma w c : Nat) (s : State) : Host.Outcome State Fault Refusal :=
  .next (if s.plat.phase = .on ∧ ma * 100 < 97 * s.currentLimit ∧ w * 100 < 97 * s.powerLimit ∧ c < s.throttleC then
    let s := (s.countLimited.measured ma w c).onPlat (fun p => { p with issueGated := false })
    if s.pllMhz < s.pllNominal then s.setReg .CLK_PLL_EFF_MHZ (min s.pllNominal (s.pllMhz + 25)) else s
  else s)

/-- A power stage is faulted: half of PLIMIT from then on; code 0x0002 is reported under R66 and the page goes on. -/
def State.stageFault (s : State) : State := (s.recErr pgPwr 0x0002).onPlat (fun p => { p with halfLimit := true })

/-- The row POWER_STAGE_FAULT. -/
def execPowerStageFault (s : State) : Host.Outcome State Fault Refusal :=
  .next (if s.plat.phase = .on then s.stageFault else s)

/-- The row TAB_FAULT: one tab is absent or below 55.0 V while the other stays within range. -/
def execTabFault (s : State) : Host.Outcome State Fault Refusal :=
  .next (if s.plat.phase = .on then s.stageFault else s)

/-- The row VIN_UV_WARN, with the input voltage in mV. -/
def execVinUvWarn (mv : Nat) (s : State) : Host.Outcome State Fault Refusal :=
  .next (if s.plat.phase = .on ∧ mv < min 80000 (max 55000 (s.reg .PWR_UV_WARN_MV)) then
    (s.setReg .PWR_VIN_MV mv).setIntBit pgPwr 8
  else s)

/-- The row VIN_OV_WARN. -/
def execVinOvWarn (mv : Nat) (s : State) : Host.Outcome State Fault Refusal :=
  .next (if s.plat.phase = .on ∧ min 85000 (max 60000 (s.reg .PWR_OV_WARN_MV)) < mv then
    (s.setReg .PWR_VIN_MV mv).setIntBit pgPwr 9
  else s)

/-- ALERT_N is asserted: a PWR event that is not masked, a lost REFCLK, or a failed page that TEL0 reports (R482, R501,
R522). -/
def State.alert (s : State) : Bool :=
  ((s.common pgPwr).int.toNat / 256 % 256 &&& (255 - s.reg .PWR_ALERT_MASK_MASK)) != 0
    || s.regBit .CLK_STATUS_REF_REF_LOST
    || (s.regBit .TEL0_CFG_ALERT_FAILED && s.commons.values.any (fun c => c.state == 0xFF))

/-! ## Foreground and background (R488, R489) -/

/-- Foreground work waits. -/
def State.foreground (s : State) : Bool := !s.noWork

/-- The row CALIBRATION_DUE: foreground work has deferred a calibration for CAL_MS; it pauses its unit now. -/
def execCalibrationDue (s : State) : Host.Outcome State Fault Refusal :=
  .next (if s.pageState pgGlb = 1 && s.foreground then s.bump .PWR_CAL_DEFERS_COUNT else s)

/-! ## Power domains (R475 to R478, R480) -/

/-- The state of a domain: 0 ON, 1 RETENTION, 2 OFF. -/
def State.domState (s : State) (d : Nat) : Nat := s.reg .PWR_DOM_STAT_STATE d

/-- The cores of a cluster. -/
def clusterCores (k : Nat) : List Nat := (List.range 16).map (fun i => 16 * k + i)

/-- A range of device addresses contains a 64 KiB unit of a stack (R548). -/
def touchesStack (base len stack : Nat) : Bool :=
  len != 0 && (List.range 12).any (fun i =>
    let u := base / 65536 + i
    decide (u * 65536 < base + len) && u % 12 == stack)

/-- The regions that base registers of enabled blocks set (R475). -/
def State.enabledRegions (s : State) : List (Nat × Nat) :=
  (if s.enabled pgSdir then [(s.sdirBase, 2 ^ 30), (s.sdirFree, 2 ^ 26)] else [])
    ++ (if s.enabled pgStm then [(s.heapBase, s.heapSize)] else [])
    ++ (if s.enabled pgCane then s.caneTables else [])
    ++ (if s.enabled pgCru then [(s.modelBase, s.modelSize)] else [])
    ++ (if s.enabled pgJck then [(s.storeBase, s.storeSize)] else [])
    ++ (if s.enabled pgEmb then s.replRanges ++ s.validTables.flatMap s.tblRanges else [])
    ++ (if s.enabled pgSrch then s.tombRange :: s.validColls.flatMap s.collRanges else [])
    ++ (if s.enabled pgFam then [s.leaseTable] else [])
    ++ (if s.enabled pgCkp then [s.stageRange, s.mapRange] else [])
    ++ (if s.enabled pgSec then
          (s.reg .SEC2_OWNER_BASE_ADDR * 65536, 37748736)
            :: (s.reg .SEC2_POOLGEN_BASE_ADDR * 4096, s.reg .STM_POOL_SIZE_GIB * 65536)
            :: (List.range 12).map (fun k => (s.reg .SEC0_PAD_BASE_ADDR k * 65536, 65536))
        else [])

/-- A request for a domain is refused (R475). -/
def State.domRefused (s : State) (d target : Nat) : Bool :=
  if decide (128 ≤ d) && decide (d < 136) then
    (target == 1 && (clusterCores (d - 128)).any (fun n => s.domState n == 0))
      || (target == 2 && (clusterCores (d - 128)).any (fun n => s.domState n != 2))
  else if decide (136 ≤ d) && decide (d < 148) then
    target == 2 && (s.heapUsed != 0 || s.models.size != 0
      || s.enabledRegions.any (fun r => touchesStack r.1 r.2 (d - 136)))
  else if d = 164 then target == 2 && s.vocabs.values.any (·.loaded)
  else if d = 165 then target == 2 && (!s.validTables.isEmpty || !s.validColls.isEmpty)
  else false

/-- Least ticks of a transition to ON (R475); for a fabric port the training follows it. -/
def wakeTicks (d src : Nat) : Nat :=
  if src = 1 then
    (if d < 136 then 1000 else if d < 148 then 2000 else if d < 156 then 20000 else if d < 164 then 0 else 30000)
  else
    (if d < 128 then 110000 else if d < 136 then 200000 else if d < 156 then 30000000 else if d < 164 then 0 else 500000)

/-- Work needs the domain (R477). -/
def State.domWork (s : State) (d : Nat) : Bool :=
  let cmdOf (l : List Nat) : Bool := s.cmds.values.any (fun c => c.phase != .queued && c.phase != .unadmitted
    && l.contains c.desc.opcode)
  if d < 136 then s.gaf.running.isSome
  else if d < 156 then !s.noWork
  else if d = 164 then s.gaf.running.isSome || cmdOf [0x18, 0x19, 0x1A, 0x42, 0x43]
  else if d = 165 then s.emb.batch.isSome || s.srch.batch.isSome || !s.emb.waiting.isEmpty || !s.srch.waiting.isEmpty
    || s.srch.compact.isSome
  else false

/-- Start a transition. -/
def State.startTransition (s : State) (d target : Nat) : State :=
  let due := if target = 0 then s.tick + wakeTicks d (s.domState d) else s.tick
  (s.setReg .PWR_DOM_STAT_MOVING 1 d).onPlat (fun p => { p with moving := p.moving.set d (target, due) })

/-- A valid request takes its course: refused, held behind a transition of the same domain, or started. A request for the
state that the domain has ends at once. -/
def State.applyRequest (s : State) (d target : Nat) : State :=
  if s.plat.moving.has d then s.onPlat (fun p => { p with held := p.held.set d target })
  else if s.domRefused d target then s.recErr pgPwr 0x0011
  else if s.domState d = target then (s.setReg .PWR_DOM_STAT_AUTO 0 d).setIntBit pgPwr 12
  else s.startTransition d target

/-- A write to PWR_DOM_REQ (R463, R475, R476). -/
def State.domReq (s : State) (value : Nat) : State :=
  let d := s.reg .PWR_DOM_SEL_DOMAIN
  let target := Reg.taken .PWR_DOM_REQ_STATE d (value % 4)
  if d = 166 ∨ d = 167 then s.recErr pgPwr 0x0012
  else if 167 < d then s
  else
    let s := s.setReg .PWR_DOM_REQ_STATE target d
    match s.sec.pass with
    | some p => { s with sec := { s.sec with pass := some { p with requests := p.requests ++ [(d, target)] } } }
    | none => s.applyRequest d target

/-- The row DOM_REQ, with the value written. -/
def execDomReq (value : BitVec 2) (s : State) : Host.Outcome State Fault Refusal :=
  let s := s.touch
  .next (if s.live then s.domReq value.toNat else s)

/-- Registers and counters of a page return to their reset values. -/
def State.resetPage (s : State) (page idx : Nat) : State :=
  let s := { s with commons := s.commons.erase (page + idx) }
  Reg.all.foldl (fun s r =>
    if r.desc.page = page then
      (if r.desc.pages = 1 then { s with regs := s.regs.filter (fun k _ => k / 4294967296 != r.ctorIdx) }
       else { s with regs := s.regs.erase (r.key idx) })
    else s) s

/-- A fabric port leaves ON: OFF, its requests reissued; CTRL.EN stays as it is (R374, R475). -/
def State.portPowerOff (s : State) (n : Nat) : State :=
  let en := (s.common (fabPage n)).en
  let failed := s.failed (fabPage n)
  let s := s.portOff n
  if failed then (s.setPageState (fabPage n) 0xFF).setEn (fabPage n) en else s.setEn (fabPage n) en

/-- A fabric port starts to train (R374). -/
def State.portTrain (s : State) (n : Nat) : State :=
  if s.failed (fabPage n) then s
  else (s.setPageState (fabPage n) 2).setPort n { training := true, since := s.tick }

/-- What a domain loses or releases as it leaves ON for `target`. -/
def State.leaveOn (s : State) (d target : Nat) : State :=
  if d < 128 then s.setCore d { s.core d with tileKind := 0, waits := none, onPll := false, swTo := none,
                                               out := if target = 2 then [] else (s.core d).out }
  else if d < 136 then s.clearCluster (d - 128)
  else if d < 156 then s
  else if d < 164 then
    let s := s.portPowerOff (d - 156)
    if target = 2 then s.resetPage pgFab (d - 156) else s
  else s

/-- What a domain that goes OFF loses besides. -/
def State.domainOff (s : State) (d : Nat) : State :=
  if d < 128 then { s with cores := s.cores.erase d }
  else if d = 164 then { (s.resetPage pgMrv 0).resetPage pgJck 0 with objects := ⟨[]⟩ }
  else if d = 165 then { s with emb := { s.emb with hot := ⟨[]⟩, counts := ⟨[]⟩ } }
  else s

/-- A core that is ON again gets its slice of the resident model back from HBM (R222). -/
def State.rebuildSlice (s : State) (n : Nat) : State :=
  match s.models.find? (fun _ m => m.loaded && m.resident) with
  | some (mid, _) => s.setCore n { s.core n with slice := mid }
  | none => s

/-- A domain reaches its new state. -/
def State.settleDomain (s : State) (d target : Nat) : State :=
  let old := s.domState d
  let s := if old = 0 ∧ target ≠ 0 then s.leaveOn d target else s
  let s := if target = 2 then s.domainOff d else s
  let s := (s.setReg .PWR_DOM_STAT_STATE target d).setReg .PWR_DOM_STAT_MOVING 0 d
  let s := s.onPlat (fun p => { p with moving := p.moving.erase d })
  if target = 0 then
    if decide (156 ≤ d) && decide (d < 164) && (s.common (fabPage (d - 156))).en then s.portTrain (d - 156)
    else if d < 128 then
      let s := if s.regBit .CLK_CFG_WAKE_PLL && s.pllLocked then s.clockSwitch d true else s
      s.rebuildSlice d
    else s
  else s

/-- A transition may end: a core leaves ON at a step boundary and with no tile, a cluster between steps, and its time has
passed. A core's cluster is ON before the core. -/
def State.mayEnd (s : State) (d target due : Nat) : Bool :=
  decide (due ≤ s.tick)
    && !(decide (d < 136) && target != 0 && s.domState d == 0 && (s.gaf.running.isSome || (s.core d).tileKind != 0))
    && !(decide (d < 128) && target == 0 && s.domState (128 + d / 16) != 0)

/-- A core that is brought ON wakes its cluster first (R480). -/
def State.wakeCluster (s : State) (d target : Nat) : State :=
  let k := 128 + d / 16
  if d < 128 ∧ target = 0 ∧ s.domState k ≠ 0 ∧ s.plat.moving.has k = false then s.startTransition k 0 else s

/-- The row DOMAIN_TRANSITION_DONE: a transition ends and a held request is applied. -/
def execDomainTransitionDone (domain : Nat) (s : State) : Host.Outcome State Fault Refusal :=
  .next (match s.plat.moving.get? domain with
    | none => s
    | some (target, due) =>
      if s.mayEnd domain target due then
        let s := s.settleDomain domain target
        let s := if s.regBit .PWR_DOM_STAT_AUTO domain then s else s.setIntBit pgPwr 12
        match s.plat.held.get? domain with
        | none => s
        | some t => (s.onPlat (fun p => { p with held := p.held.erase domain })).applyRequest domain t
      else s.wakeCluster domain target)

/-- A domain that wakes by itself, from the state it is in (R475, R477). -/
def wakesAlone (d st : Nat) : Bool :=
  (st == 1 && ((decide (136 ≤ d) && decide (d < 156)) || d == 164 || d == 165))
    || (st == 2 && decide (148 ≤ d) && decide (d < 156))

/-- The row AUTO_WAKE: work needs an automatic domain. -/
def execAutoWake (domain : Nat) (s : State) : Host.Outcome State Fault Refusal :=
  .next (if wakesAlone domain (s.domState domain) ∧ s.plat.moving.has domain = false ∧ s.domWork domain = true then
    let s := (s.startTransition domain 0).setReg .PWR_DOM_STAT_AUTO 1 domain
    (s.bump .PWR_AUTO_WAKES_COUNT).onPlat (fun p => { p with wokenAt := p.wokenAt.set domain s.tick })
  else s)

/-- The row AUTO_IDLE_RETURN: PWR_AUTO_IDLE.US µs without work, and PWR_DOM_REQ still asks for RETENTION. -/
def execAutoIdleReturn (domain : Nat) (s : State) : Host.Outcome State Fault Refusal :=
  .next (if s.regBit .PWR_DOM_STAT_AUTO domain = true ∧ s.domOn domain = true ∧ s.reg .PWR_DOM_REQ_STATE domain = 1
      ∧ s.domWork domain = false
      ∧ (s.plat.wokenAt.get? domain).getD 0 + s.reg .PWR_AUTO_IDLE_US * 1000 ≤ s.tick then
    let s := (s.setReg .PWR_DOM_STAT_AUTO 0 domain).settleDomain domain 1
    s.onPlat (fun p => { p with wokenAt := p.wokenAt.erase domain })
  else s)

/-- Every domain that the fining pass needs is ON (R463). -/
def State.wakeAll (s : State) : List Nat × State :=
  let l := ((List.range 148).filter (fun d => s.domState d == 1))
  (l, l.foldl (fun s d => if s.plat.moving.has d then s else s.startTransition d 0) s)

end Sys2Proof.Machine
end

