-- ==== Sys2Proof/Machine/Security.lean ====
section
/-!
DEFINITION. The security island: SPDM, keys coming in, streams, tenants and the fining pass (R433 to R471), and the life
cycle (R490, R491).
-/
namespace Sys2Proof.Machine

def State.onSec (s : State) (f : Sec → Sec) : State := { s with sec := f s.sec }
def State.setTenant (s : State) (t : Nat) (x : Tenant) : State := { s with tenants := s.tenants.set t x }
def State.send (s : State) (m : OutMsg) : State := { s with out := m :: s.out }

/-- Page numbers of the SEC pages. -/
def pgSec1 : Nat := 9
def pgSec2 : Nat := 10
def pgSec3 : Nat := 11

/-! ## Staged keys (R439 to R441, R451, R468, R469) -/

/-- A KEY_REF is staged or bound. -/
def State.refUsed (s : State) (ref : Nat) : Bool :=
  s.sec.staged.values.any (fun k => k.ref == ref) || s.sec.setKeys.values.any (fun k => k.ref == ref)
    || s.tenants.values.any (fun t => t.ttks.contains ref) || s.sec.ckk == some ref

/-- A tenant is CLOSING or FINING. -/
def State.tenantLeaving (s : State) (t : Nat) : Bool :=
  (s.tenant t).state == .closing || (s.tenant t).state == .fining

/-- Hold a key as a staged key; a SET key also takes a set-key slot (R451). -/
def State.stage (s : State) (k : StagedKey) : State :=
  match s.sec.staged.freeFrom 0 256 with
  | none => s
  | some i =>
    let s := s.onSec (fun e => { e with staged := e.staged.set i k, revoked := e.revoked.filter (· != k.ref) })
    if k.kind = 4 then
      match s.sec.setKeys.freeFrom 0 4 with
      | some j => s.onSec (fun e => { e with setKeys := e.setKeys.set j k })
      | none => s
    else s

/-- The store, or for a SET key its four slots, is full. -/
def State.storeFull (s : State) (kind : Nat) : Bool :=
  decide (256 ≤ s.sec.staged.size) || (kind == 4 && decide (4 ≤ s.sec.setKeys.size))

/-- A KEY_DELIVER payload (R440) is well-formed. -/
def deliverOk (p : List Byte) : Bool :=
  let kind := leAt p 20 1
  let owner := leAt p 22 2
  p.length == 64 && leAt p 0 1 == 1 && leAt p 1 1 == 1 && leAt p 2 2 == 0 && leAt p 21 1 == 0
    && decide (1 ≤ kind) && decide (kind ≤ 4)
    && (if kind = 1 then decide (owner < 4096) else if kind = 4 then decide (owner < 1024) else owner == 0)

/-- RESULT of a KEY_DELIVER: the order of the refusals is the model's (log entry 42). -/
def State.deliverResult (s : State) (p : List Byte) (unwraps : Bool) : Nat :=
  let kind := leAt p 20 1
  if !deliverOk p then 1
  else if s.refUsed (leAt p 4 16) then 5
  else if kind = 1 ∧ s.tenantLeaving (leAt p 22 2) = true then 7
  else if s.storeFull kind then 4
  else if !unwraps || s.failed pgSec then 3
  else 0

/-- The island answers: the device is powered and booted, and not SHUT (R475, R492). -/
def State.islandUp (s : State) : Bool :=
  s.plat.phase == .on && s.pageState pgGlb != 0 && s.pageState pgGlb != 3

/-- A request that reaches the island as a message: in the SHUT state it receives Busy (R475). -/
def State.atIsland (s : State) (f : State → State) : State :=
  if s.islandUp then f s
  else if s.plat.phase = .on ∧ s.pageState pgGlb = 3 then s.send (.spdmError .busy)
  else s

/-- An open secure session. -/
def State.secure (s : State) (session : Option Nat) : Bool :=
  match session with
  | some i => ((s.sec.spdm.get? i).map (·.isOpen)).getD false
  | none => false

/-- The row KEY_DELIVER, with the session it comes in, its payload and whether the key unwraps. -/
def execKeyDeliver (session : Option Nat) (payload : List Byte) (unwraps : Bool) (s : State) :
    Host.Outcome State Fault Refusal :=
  .next (s.atIsland (fun s =>
    if !s.secure session then s.send (.spdmError .unexpectedRequest)
    else
      let r := s.deliverResult payload unwraps
      let s := if r = 0 then
          s.stage { kind := leAt payload 20 1, ref := leAt payload 4 16, owner := leAt payload 22 2
                    key := Config.unwrapKey (deliverKey (s.exportSecret (session.getD 0))) (slice payload 24 40) }
        else s
      s.send (.vendor (leBytes 0x81 1 ++ leBytes r 1 ++ leBytes 0 2))))

/-- The model key of a mailbox record, unwrapped with the set key that the record names (R441). -/
def State.mailboxKey (s : State) (r : List Byte) : Option (List Byte) :=
  unwrapKey (((s.sec.setKeys.find? (fun _ k => k.ref == leAt r 16 16)).map (fun e => e.2.key)).getD []) (slice r 32 40)

/-- RESULT of the key mailbox (R468); bytes past the record are 0. -/
def State.keyinResult (s : State) (r : List Byte) : Nat :=
  let set := leAt r 16 16
  if !allZero (r.drop 72) then 1
  else if s.sec.revoked.contains set then 6
  else if !s.sec.setKeys.values.any (fun k => k.ref == set) then 2
  else if s.refUsed (leAt r 0 16) then 5
  else if s.storeFull 3 then 4
  else if s.failed pgSec || (s.mailboxKey r).isNone then 3
  else 0

/-- The row KEYIN_GO, with the word written to SEC1_KEYIN_GO: GO is bit 0. -/
def execKeyinGo (value : Word) (s : State) : Host.Outcome State Fault Refusal :=
  let s := s.touch
  .next (if s.live ∧ bitAt value.toNat 0 = true then
    let r := leBytes (s.reg .SEC1_KEYIN_RECORD) 128
    let code := s.keyinResult r
    let s := s.setReg .SEC1_KEYIN_STAT_RESULT code
    if code = 0 then s.stage { kind := 3, ref := leAt r 0 16, key := (s.mailboxKey r).getD [] } else s
  else s)

/-- The row KEY_DISCARD: the selected staged key is zeroised; a SET key leaves its slot too. -/
def execKeyDiscard (s : State) : Host.Outcome State Fault Refusal :=
  let s := s.touch
  let i := s.reg .SEC1_KEY_SEL_INDEX
  .next (if s.live then
    match s.sec.staged.get? i with
    | none => s
    | some k => s.onSec (fun e => { e with
        staged := e.staged.erase i, setKeys := e.setKeys.filter (fun _ x => !(k.kind == 4 && x.ref == k.ref)) })
  else s)

/-- The row TEN_BIND_GO, with the word written to SEC2_TEN_BIND: a staged TRANSPORT key of the selected tenant, which is OPEN,
becomes its current TTK; the oldest of four is dropped; LOCAL_ONLY ends (R458). -/
def execTenBindGo (value : Word) (s : State) : Host.Outcome State Fault Refusal :=
  let s := s.touch
  let i := value.toNat % 256
  let t := s.reg .SEC2_TEN_SEL_TENANT
  .next (if s.live then
    let s := s.setReg .SEC2_TEN_BIND_STAGED i
    if bitAt value.toNat 31 then
      match s.sec.staged.get? i with
      | some k =>
        if k.kind = 1 ∧ k.owner = t ∧ s.tenantOpen t = true then
          let x := s.tenant t
          (s.setTenant t { x with ttks := (k.ref :: x.ttks).take 4, ttkKeys := (k.key :: x.ttkKeys).take 4
                                  localOnly := false }).onSec
            (fun e => { e with staged := e.staged.erase i })
        else s.recErr pgSec2 0x0010
      | none => s.recErr pgSec2 0x0010
    else s
  else s)

/-- The row CKPT_BIND_GO: a staged CKK is bound and used from the next checkpoint; the one before is gone (R443, R469). -/
def execCkptBindGo (value : Word) (s : State) : Host.Outcome State Fault Refusal :=
  let s := s.touch
  let i := value.toNat % 256
  .next (if s.live then
    let s := s.setReg .SEC2_CKPT_BIND_STAGED i
    if bitAt value.toNat 31 then
      match s.sec.staged.get? i with
      | some k =>
        if k.kind = 2 then s.onSec (fun e => { e with
          ckk := some k.ref, ckkKey := k.key, staged := e.staged.erase i })
        else s.recErr pgSec2 0x0010
      | none => s.recErr pgSec2 0x0010
    else s
  else s)

/-- The row SET_REVOKE: the selected set key is zeroised, and records that name it are refused from then on. -/
def execSetRevoke (s : State) : Host.Outcome State Fault Refusal :=
  let s := s.touch
  let j := s.reg .SEC2_SET_SEL_SET
  .next (if s.live then
    match s.sec.setKeys.get? j with
    | none => s
    | some k => s.onSec (fun e => { e with
        setKeys := e.setKeys.erase j, revoked := k.ref :: e.revoked,
        staged := e.staged.filter (fun _ x => !(x.kind == 4 && x.ref == k.ref)) })
  else s)

/-! ## IDE streams (R452, R454, R470) -/

def State.stream (s : State) (n : Nat) : IdeStream := (s.sec.streams.get? n).getD {}
def State.setStream (s : State) (n : Nat) (x : IdeStream) : State :=
  s.onSec (fun e => { e with streams := e.streams.set n x })

/-- A stream with the next generation of its keys (R452). -/
def IdeStream.next (x : IdeStream) (n : Nat) (toggle : Bool) : IdeStream :=
  let gen := (x.gen + 1) % 2 ^ 32
  { x with active := true, failed := false, gen := gen, keySet := if toggle then !x.keySet else x.keySet
           keys := ideKeys x.secret n gen }

/-- The next key generation of a stream, with K_SET_GO. -/
def State.streamGo (s : State) (n : Nat) (toggle : Bool) : State :=
  let x := (s.stream n).next n toggle
  (s.setStream n x).send (.keySetGo n x.gen)

/-- A stream takes the secure session over which its keys are derived. -/
def State.streamOver (s : State) (n session : Nat) : State :=
  s.setStream n { s.stream n with partner := session, secret := s.exportSecret session }

/-- The row STREAM_START. -/
def execStreamStart (s : State) : Host.Outcome State Fault Refusal :=
  let s := s.touch
  let n := s.reg .SEC3_STREAM_SEL_STREAM
  .next (if s.live ∧ n ≠ 0 then
    let session := s.reg .SEC3_STREAM_SESS_SESSION n
    if s.secure (some session) then (s.streamOver n session).streamGo n false else s.recErr pgSec3 0x0004
  else s)

/-- K_SET_STOP, and the keys of the stream are zeroised. -/
def State.streamStop (s : State) (n : Nat) : State :=
  if (s.stream n).active then
    (s.setStream n { s.stream n with active := false, secret := [], keys := [] }).send (.keySetStop n)
  else s

/-- The row STREAM_STOP. -/
def execStreamStop (s : State) : Host.Outcome State Fault Refusal :=
  let s := s.touch
  .next (if s.live then s.streamStop (s.reg .SEC3_STREAM_SEL_STREAM) else s)

/-- The row STREAM_REKEY: the next generation, and the key sets alternate. -/
def execStreamRekey (s : State) : Host.Outcome State Fault Refusal :=
  let s := s.touch
  let n := s.reg .SEC3_STREAM_SEL_STREAM
  .next (if s.live && (s.stream n).active then s.streamGo n true else s)

/-- The row STREAM_AUTO_REKEY: a counter of stream `n` nears its end. -/
def execStreamAutoRekey (n : Nat) (s : State) : Host.Outcome State Fault Refusal :=
  .next (if (s.stream n).active then s.streamGo n true else s)

/-! ## SPDM (R436 to R438) and the life cycle (R490, R491) -/

/-- SESSIONS counts the open secure sessions. -/
def State.countSessions (s : State) : State :=
  s.setReg .SEC0_SESSIONS_COUNT ((s.sec.spdm.values.filter (·.isOpen)).length)

def State.setSpdm (s : State) (m : Map SpdmSession) : State := (s.onSec (fun e => { e with spdm := m })).countSessions

/-- What a request does to the sessions, and its answer. An island that holds no identity, after entry to RMA (R490), answers
Busy as in the SHUT state (R475; log entry 90). -/
def State.spdm (s : State) (r : SpdmReq) : State :=
  match r with
  | .unsupported => s.send (.spdmError .unsupportedRequest)
  | .keyExchange hb p =>
    match s.sec.spdm.freeFrom 0 16 with
    | none => s.send (.spdmError .sessionLimit)
    | some i =>
      let x : SpdmSession := { hbeat := hb, period := p * 1000000000, last := s.tick, opened := s.tick }
      (s.setSpdm (s.sec.spdm.set i x)).send (.spdm r)
  | .getDigests => match s.sec.identity with
    | some i => s.send (.digests i.digest)
    | none => s.send (.spdmError .busy)
  | .getCertificate => match s.sec.identity with
    | some i => s.send (.certificates i.chain)
    | none => s.send (.spdmError .busy)
  | .finish i =>
    match s.sec.spdm.get? i with
    | some x => (s.setSpdm (s.sec.spdm.set i { x with isOpen := true, last := s.tick })).send (.spdm r)
    | none => s.send (.spdmError .unexpectedRequest)
  | .heartbeat i =>
    if s.secure (some i) then (s.setSpdm (s.sec.spdm.modify i (fun x => { x with last := s.tick }))).send (.spdm r)
    else s.send (.spdmError .unexpectedRequest)
  | .keyUpdate i =>
    if s.secure (some i) then
      (s.setSpdm (s.sec.spdm.modify i (fun x => { x with keyGen := x.keyGen + 1 }))).send (.spdm r)
    else s.send (.spdmError .unexpectedRequest)
  | .endSession i =>
    if s.secure (some i) then (s.setSpdm (s.sec.spdm.erase i)).send (.spdm r)
    else s.send (.spdmError .unexpectedRequest)
  | _ => s.send (.spdm r)

/-- The row SPDM_REQUEST. -/
def execSpdmRequest (req : SpdmReq) (s : State) : Host.Outcome State Fault Refusal :=
  .next (s.atIsland (fun s => s.spdm req))

/-- The row SPDM_HEARTBEAT_TIMEOUT: a session with HBEAT received none within its period. -/
def execSpdmHeartbeatTimeout (session : Nat) (s : State) : Host.Outcome State Fault Refusal :=
  .next (match s.sec.spdm.get? session with
    | none => s
    | some x =>
      if x.isOpen ∧ x.hbeat = true ∧ x.last + x.period < s.tick then s.setSpdm (s.sec.spdm.erase session) else s)

/-- JTAG beyond boundary scan is open (R490). -/
def State.debugOpen (s : State) : Bool := s.plat.lifecycle == 0 || s.plat.lifecycle == 3

/-- Content of a measurement block (R438): none for an index that is not in the table. -/
def State.measurement (s : State) (i : Nat) : Option Nat :=
  if 1 ≤ i ∧ i ≤ 3 then some (s.plat.firmware.getD (i - 1) 0)
  else if i = 4 then some (Config.fuseDigest s.plat.lifecycle s.plat.fuseSeed).toNat
  else if i = 5 then some (s.reg .BIST_CONFIG_ID_DIGEST)
  else if i = 6 then some (Config.debugDigest s.debugOpen).toNat
  else if 0x10 ≤ i ∧ i ≤ 0x17 then some (if (s.model (i - 15)).loaded then (s.model (i - 15)).fp else 0)
  else if 0x18 ≤ i ∧ i ≤ 0x1F then
    some (match s.vocabs.get? (i - 23) with
      | some v => if v.loaded then v.digest else 0
      | none => 0)
  else none

/-- Indices of all blocks. -/
def measureIndices : List Nat := [1, 2, 3, 4, 5, 6] ++ (List.range 16).map (· + 16)

/-- `n` free 64-bit values from number `k`. -/
def freeWords (k n : Nat) : List DWord := (List.range n).map (fun i => Config.freeWord (k + i))

/-- The row GET_MEASUREMENTS: index 0xFF asks for all blocks. The signature is 96 bytes, whose value no rule fixes. -/
def execGetMeasurements (index : Nat) (s : State) : Host.Outcome State Fault Refusal :=
  .next (s.atIsland (fun s =>
    let l := if index = 0xFF then measureIndices else [index]
    let blocks := l.filterMap (fun i => (s.measurement i).map (measureBlock i))
    if blocks.isEmpty then s.send (.spdmError .unsupportedRequest)
    else (s.send (.measurements blocks (freeWords s.free 12))).useFree 12))

/-- Every key in the island is gone (R443): staged and bound ones, SPDM sessions, stream keys. -/
def State.zeroise (s : State) : State :=
  let s := { s with tenants := s.tenants.map (fun _ t => { t with ttks := [], ttkKeys := [], keys := false, drawn := [] }) }
  (s.onSec (fun e => { e with
    staged := ⟨[]⟩, setKeys := ⟨[]⟩, ckk := none, ckkKey := [], spdm := ⟨[]⟩, memKey := false,
    streams := e.streams.map (fun _ x => { x with active := false, secret := [], keys := [] }) })).countSessions

/-- RESULT of a LIFECYCLE_ADVANCE (R491). -/
def State.advanceResult (s : State) (p : List Byte) (y : Crypto) : Nat :=
  let target := leAt p 2 1
  if !(leAt p 0 1 == 2 && leAt p 1 1 == 1 && leAt p 3 1 == 0
      && ((target == 2 && p.length == 4) || (target == 3 && p.length == 148))) then 1
  else if !((target == 2 && s.plat.lifecycle == 1) || (target == 3 && (s.plat.lifecycle == 1 || s.plat.lifecycle == 2))) then 2
  else if target == 3 && !y.hashOk then 3
  else if target == 3 && !y.sigOk then 4
  else if !y.fuseOk then 5
  else 0

/-- The row LIFECYCLE_ADVANCE, with whether it comes in a secure session over MCTP, its payload, and what the checks and the
fuses yield. -/
def execLifecycleAdvance (session : Option Nat) (mctp : Bool) (payload : List Byte) (y : Crypto) (s : State) :
    Host.Outcome State Fault Refusal :=
  .next (s.atIsland (fun s =>
    if !(s.secure session && mctp) then s.send (.spdmError .unexpectedRequest)
    else
      let r := s.advanceResult payload y
      let target := leAt payload 2 1
      let s := if r ≠ 0 then s
        else
          let s := s.onPlat (fun p => { p with lifecycle := target })
          if target = 3 then
            (s.zeroise.onPlat (fun p => { p with fuseSeed := p.fuseSeed + 1 })).onSec (fun e => { e with identity := none })
          else s
      s.send (.vendor (leBytes 0x82 1 ++ leBytes r 1 ++ leBytes 0 2))))

/-! ## Errors of the island (R435, R471) -/

/-- The row RNG_HEALTH_FAIL. -/
def execRngHealthFail (s : State) : Host.Outcome State Fault Refusal :=
  .next (if s.islandUp then ((s.setReg .SEC0_ISLAND_RNG_OK 0).recErr pgSec 0x0001).setIntBit pgSec 8 else s)

/-- The row KEY_MEMORY_UE. -/
def execKeyMemoryUe (s : State) : Host.Outcome State Fault Refusal :=
  .next (if s.islandUp then s.failPage pgSec 0x0002 else s)

/-! ## SEC0_CTRL.EN (R471) -/

/-- The owner map, the generation table and the pads. -/
def State.ownerMap (s : State) : Nat × Nat := (s.reg .SEC2_OWNER_BASE_ADDR * 65536, 37748736)
def State.poolGen (s : State) : Nat × Nat := (s.reg .SEC2_POOLGEN_BASE_ADDR * 4096, s.reg .STM_POOL_SIZE_GIB * 65536)
def State.pad (s : State) (k : Nat) : Nat × Nat := (s.reg .SEC0_PAD_BASE_ADDR k * 65536, 65536)

/-- The checks at enable. -/
def State.secOk (s : State) : Bool :=
  let l := s.ownerMap :: s.poolGen :: (List.range 12).map s.pad
  l.all (fun r => inHbmRange r.1 r.2 && clearOf r.1 r.2 (s.allRegions ++ [s.leaseTable, s.stageRange]))
    && (List.range 12).all (fun k => s.reg .SEC0_PAD_BASE_ADDR k % 12 == k)

/-- The row SEC_ENABLE, with the value of SEC0_CTRL.EN written. -/
def execSecEnable (en : Bool) (s : State) : Host.Outcome State Fault Refusal :=
  let s := s.touch
  .next (if !s.live then s
    else if en then
      if s.pageState pgSec ≠ 0 then s
      else if s.secOk then ((s.clearCounters pgSec).setEn pgSec true).setPageState pgSec 2
      else s.recErr pgSec 0x0003
    else if s.pageState pgSec = 0 ∨ s.failed pgSec = true then s
    else if s.tenants.values.any (fun t => t.state != .closed) then s.recErr pgSec 0x0005
    else s.disableBlock pgSec)

/-- The row SEC_INIT_DONE: the owner map is rebuilt from the device's allotments, so that units of tenants that are CLOSED are
free (R466), and the generation table is cleared. -/
def execSecInitDone (s : State) : Host.Outcome State Fault Refusal :=
  .next (if s.pageState pgSec = 2 then
    let s := { s with stm := { s.stm with finePend := s.stm.finePend.filter (fun t _ => s.tenantLeaving t) } }
    { s with stm := { s.stm with poolGen := ⟨[]⟩ } }.setPageState pgSec 1
  else s)

/-! ## Tenants (R455 to R458) -/

/-- The register banks that belong to tenants (R455, R464). -/
def tenantBank (b : Bank) (t idx : Nat) : Bool :=
  match b with
  | .sdirTenant | .stmTenant | .evicTenant | .admTenant | .mrvTenant | .jckTenant | .secTenant => idx == t
  | .admQueue | .telQueue => idx / 8 == t
  | _ => false

/-- Registers that tenants have. -/
def tenantRegs : List (Nat × Bank) :=
  (Reg.all.filter (fun r => [Bank.sdirTenant, .stmTenant, .evicTenant, .admTenant, .mrvTenant, .jckTenant, .secTenant,
    .admQueue, .telQueue].contains r.desc.bank)).map (fun r => (r.ctorIdx, r.desc.bank))

/-- The per-tenant registers and queues of a tenant return to their reset values (R464). -/
def State.clearTenant (s : State) (t : Nat) : State :=
  let gone (k : Nat) : Bool := tenantRegs.any (fun e => e.1 == k / 4294967296 && tenantBank e.2 t (k % 4294967296))
  { s with
    regs := s.regs.filter (fun k _ => !gone k)
    shadow := s.shadow.filter (fun k _ => !gone k)
    adm := { s.adm with queues := s.adm.queues.filter (fun q _ => q / 8 != t) } }

/-- TENANT_OPEN takes effect (R456, R490). -/
def opTenantOpen (s : State) (id : Nat) (c : Cmd) : State :=
  let t := c.desc.specF 37 36
  let ref := c.desc.specF 55 40
  let isLocal := c.desc.optBit 8
  if s.plat.lifecycle ≠ 2 then s.refuse id .security 0x0C
  else if !s.enabled pgSec then s.complete id .internal
  else
    match (s.tenant t).state with
    | .opened => s.refuse id .invalid 0x81
    | .closing | .fining => s.complete id .locked 1
    | .closed =>
      let key := s.sec.staged.find? (fun _ k => k.kind == 1 && k.ref == ref && k.owner == t)
      if !isLocal && key.isNone then s.refuse id .security 0x05
      else if !s.regBit .SEC0_ISLAND_RNG_OK then s.refuse id .security 0x0B
      else
        let s := (s.clearTenant t).setTenant t { state := .opened, localOnly := isLocal, keys := true,
                                                 drawn := freeBytes s.free 192,
                                                 ttks := if isLocal then [] else [ref]
                                                 ttkKeys := if isLocal then []
                                                   else [(key.map (fun e => e.2.key)).getD []] }
        let s := s.useFree 192
        let s := if isLocal then s
          else match key with
            | some (i, _) => s.onSec (fun e => { e with staged := e.staged.erase i })
            | none => s
        s.complete id .ok

/-! ## Closing a tenant (R459) -/

/-- Tenant rings bound to a tenant. -/
def State.ringsOf (s : State) (t : Nat) : List Nat :=
  (s.rings.entries.filter (fun e => e.2.bound && !e.2.admin && e.2.tenant == t)).map (·.1)

/-- Step 1, for a ring (R43). -/
def State.closeRing (s : State) (n : Nat) : State :=
  let r := s.ring n
  match r.state with
  | .disabled => s.setRing n r.unbind
  | .enabled => s.setRing n { r with en := false, state := .draining, unbindAtDrain := true }
  | .draining => s.setRing n { r with unbindAtDrain := true }
  | .halted => s.setRing n { r with state := .draining, discard := true, unbindAtDrain := true }

/-- Step 1, for the accepted commands that have not started. -/
def State.endQueued (s : State) (rings : List Nat) : State :=
  let l := s.cmds.entries.filter (fun e => rings.contains e.2.ring && e.2.undequeued)
  let ids := l.map (·.1)
  let s := l.foldl (fun s e => s.unqueue e.1 e.2) s
  let s := { s with adm := { s.adm with held := s.adm.held.filter (fun i => !ids.contains i) } }
  ids.foldl (fun s i => s.refuse i .invalid 0x09) s

/-- A session of a closing tenant that can be closed now: its moves and steps have ended (R95). -/
def State.closable (s : State) (slot : Nat) (x : Session) : Bool :=
  x.runState != .closed && x.runState != .running && x.residency != .moving && x.compact.isNone && !s.exportReads slot
    && !s.migrations.values.any (fun m => m.slot == slot) && !s.jobs.values.any (fun j => j.slot == slot)

/-- Step 2: close what can be closed. -/
def State.closeSessions (s : State) (t : Nat) : State :=
  (s.sdir.sess.entries.filter (fun e => e.2.tenant == t && s.closable e.1 e.2)).foldl (fun s e =>
    let s := ((s.forgetMoves e.1 .staleHandle 0).closeSession e.1).1
    s.onSec (fun q => { q with prep := q.prep.modify t (fun p => { p with closed := p.closed + 1 }) })) s

/-- Step 3: tables, collections, constraint objects and private models of the tenant. -/
def State.releaseObjects (s : State) (t : Nat) : State :=
  let tables := s.validTables.filter (fun n => s.reg .EMB_TBL_CFG_TENANT n == t && s.tblUsable n)
  let colls := s.validColls.filter (fun n => s.reg .SRCH_COLL_CFG_TENANT n == t && s.collUsable n)
  let s := colls.foldl State.retireColl (tables.foldl State.retireTable s)
  let s := if s.emb.batch.isNone then s.retireTables else s
  let s := if s.srch.batch.isNone then s.retireColls else s
  let s := { s with objects := s.objects.filter (fun k _ => k / 65536 / 8 != t) }
  (s.models.entries.filter (fun e => e.2.loaded && e.2.isPrivate && e.2.tenant == t)).foldl
    (fun s e => s.releaseModel e.1) s

/-- Step 5: nothing of the tenant is left, and no checkpoint or restore runs. -/
def State.prepared (s : State) (t : Nat) : Bool :=
  (s.ringsOf t).isEmpty && !s.sdir.sess.values.any (fun x => x.tenant == t) && !s.cane.recs.values.any (fun p => p.tenant == t)
    && s.ckp.run.isNone && s.ckp.restore.isNone
    && !s.validTables.any (fun n => s.reg .EMB_TBL_CFG_TENANT n == t)
    && !s.validColls.any (fun n => s.reg .SRCH_COLL_CFG_TENANT n == t)
    && !s.models.values.any (fun m => m.isPrivate && m.tenant == t)

/-- Sessions close; then, once none is left, the objects go. -/
def State.prepStep (s : State) (t : Nat) : State :=
  let s := s.closeSessions t
  if s.sdir.sess.values.any (fun x => x.tenant == t && x.runState != .closed) then s else s.releaseObjects t

/-- TENANT_CLOSE takes effect (R459). -/
def opTenantClose (s : State) (id : Nat) (c : Cmd) : State :=
  let t := c.desc.specF 37 36
  match (s.tenant t).state with
  | .closed => s.refuse id .invalid 0x82
  | .closing | .fining => s.complete id .locked 1
  | .opened =>
    let s := s.setTenant t { s.tenant t with state := .closing }
    let s := s.onSec (fun e => { e with prep := e.prep.set t { cmd := id } })
    let s := s.onCmd id (fun c => { c with phase := .running, exempt := true })
    let s := if s.sec.pass.isNone then s.setReg .SEC0_FINE_PHASE 1 else s
    let rings := s.ringsOf t
    ((rings.foldl State.closeRing s).endQueued rings).prepStep t

/-- Steps 6 and 7: K_SET_STOP on the tenant's streams, QUIET_NOTEs to every PEER device, and domains woken (R388, R463). -/
def State.noteAll (s : State) (t : Nat) : State :=
  let quiet := s.regBit .SEC0_CFG_QUIET
  let streams := s.sec.streams.keys.filter (fun n => s.regBit .SEC3_STREAM_CFG_BOUND n
    && s.reg .SEC3_STREAM_CFG_TENANT n == t)
  let s := streams.foldl State.streamStop s
  let peers := ((s.mapEntries.filter (fun i => s.reg .FAM_MAP_DEST_KIND i == 2)).map
    (fun i => s.reg .FAM_MAP_DEST_DEVICE i)).eraseDups
  let s := peers.foldl (fun s d => (s.sendPeer d .quietNote (if quiet then 1602000 else 2000) 0 0 0 []).2) s
  let (woken, s) := s.wakeAll
  s.onSec (fun e => { e with prep := e.prep.modify t (fun p => { p with noted := some s.tick, woken := woken, quiet := quiet }) })

/-- A QUIET_NOTE has not completed or failed. -/
def State.notesOut (s : State) : Bool :=
  s.fam.reqs.values.any (fun r => r.msg.kind == .quietNote)
    || s.fam.outbox.values.any (fun l => l.any (fun m => m.kind == .quietNote))

/-- The pass starts: the quiet window opens (R460). -/
def State.startPass (s : State) (t : Nat) (p : ClosePrep) : State :=
  let s := (s.setTenant t { s.tenant t with state := .fining }).onSec (fun e => { e with
    prep := e.prep.erase t
    pass := some { tenant := t, cmd := p.cmd, closed := p.closed, start := s.tick, quiet := p.quiet, woken := p.woken } })
  (((s.setReg .SEC0_FINE_TENANT t).setReg .SEC0_FINE_PHASE 2).setReg .SEC0_FINE_ACTIVE 1).beginLong pgSec

/-- The row FINING_PREP_DONE for a tenant: what of the preparation can go on goes on; steps 6 and 7 follow step 5; and when the
notes have completed, or 10 ms have passed, and the domains are ON, the pass starts, unless another runs (R455, R466). -/
def execFiningPrepDone (t : Nat) (s : State) : Host.Outcome State Fault Refusal :=
  .next (match s.sec.prep.get? t with
    | none => s
    | some _ =>
      let s := s.prepStep t
      if s.prepared t = false ∨ s.sec.pass.isSome = true then s
      else
        let s := match (s.sec.prep.get? t).bind (·.noted) with
          | some _ => s
          | none => s.noteAll t
        match s.sec.prep.get? t with
        | none => s
        | some p =>
          let waited := decide (p.noted.getD 0 + 10000000 ≤ s.tick)
          if (s.notesOut && !waited) || p.woken.any (fun d => !s.domOn d) then s else s.startPass t p)

/-! ## The fining pass (R460 to R466) -/

/-- Messages held through the device's own quiet window go out. -/
def State.openWindow (s : State) : State := s.fam.outbox.keys.foldl State.drainPeer s

def State.onPass (s : State) (f : FinePass → FinePass) : State := s.onSec (fun e => { e with pass := e.pass.map f })

/-- PROGRESS of the pass: milliseconds elapsed. -/
def State.passProgress (s : State) (p : FinePass) : State :=
  let ms := (s.tick - p.start) / 1000000
  s.progress pgSec ms (ms * 100 / 1602)

/-- The keys of the tenant are zeroised: HBM, flash and pool keys, every bound TTK, and the keys of its streams. -/
def State.destroyKeys (s : State) (p : FinePass) : State :=
  let x := s.tenant p.tenant
  let streams := s.sec.streams.keys.filter (fun n => s.regBit .SEC3_STREAM_CFG_BOUND n
    && s.reg .SEC3_STREAM_CFG_TENANT n == p.tenant)
  let n := (if x.keys then 3 else 0) + x.ttks.length + streams.length
  (s.setTenant p.tenant { x with ttks := [], ttkKeys := [], keys := false, drawn := [] }).bump .SEC0_KEYS_DESTROYED_COUNT 0 n

/-- The row QUIET_WINDOW_CLOSE: 2 ms into the pass. -/
def execQuietWindowClose (s : State) : Host.Outcome State Fault Refusal :=
  .next (match s.sec.pass with
    | none => s
    | some p =>
      if p.destroyed = false ∧ p.start + 2000000 ≤ s.tick then
        let s := ((s.destroyKeys p).onPass (fun q => { q with destroyed := true, windowShut := !p.quiet })).setReg
          .SEC0_FINE_PHASE 3
        let s := s.passProgress p
        if p.quiet then s else s.openWindow
      else s)

/-- Units of a stack, and the ticks between two visits (R461). -/
def stackUnits : Nat := 1572864
def visitTicks : Nat := 1017

/-- The row SCRUB_UNIT_VISIT: the next unit of every stack. Which units the tenant had is the owner map's; the model frees them
with the last visit (log entry 43). -/
def execScrubUnitVisit (s : State) : Host.Outcome State Fault Refusal :=
  .next (match s.sec.pass with
    | none => s
    | some p =>
      if p.destroyed ∧ p.visited < stackUnits ∧ p.start + 2000000 + p.visited * visitTicks ≤ s.tick then
        let s := (s.onPass (fun q => { q with visited := q.visited + 1 })).passProgress p
        if p.visited + 1 = stackUnits then
          { s with stm := { s.stm with heap := s.stm.heap.erase p.tenant, finePend := s.stm.finePend.erase p.tenant } }
        else s
      else s)

/-- The row FINING_SRAM_ZERO, while no step runs; a step boundary does the same (R462). -/
def execFiningSramZero (s : State) : Host.Outcome State Fault Refusal :=
  .next (if s.gaf.running.isNone then s.sramZero else s)

/-- A domain that the pass woke returns to the state that PWR_DOM_REQ asks for. -/
def State.returnDomain (s : State) (d : Nat) : State :=
  let target := s.reg .PWR_DOM_REQ_STATE d
  if s.domState d = target ∨ s.plat.moving.has d = true then s else s.applyRequest d target

/-- The row FINING_PASS_END: 1,602 ms into the pass. -/
def execFiningPassEnd (s : State) : Host.Outcome State Fault Refusal :=
  .next (match s.sec.pass with
    | none => s
    | some p =>
      if p.destroyed ∧ p.start + 1602000000 ≤ s.tick then
        let t := p.tenant
        let s := s.clearTenant t
        let s := { s with tenants := s.tenants.erase t,
                          stm := { s.stm with heap := s.stm.heap.erase t, finePend := s.stm.finePend.erase t } }
        let s := s.onSec (fun e => { e with pass := none })
        let s := (s.setReg .SEC0_FINE_ACTIVE 0).setReg .SEC0_FINE_PHASE (if s.sec.prep.size = 0 then 0 else 1)
        let s := ((s.setCommon pgSec { s.common pgSec with position := 1602 }).bump .SEC0_FINES_COUNT).endLong pgSec
        let s := s.openWindow
        let s := p.woken.foldl State.returnDomain s
        let s := p.requests.foldl (fun s r => s.applyRequest r.1 r.2) s
        s.complete p.cmd .ok 0 p.closed
      else s)

end Sys2Proof.Machine
end

