-- ==== Sys2Proof/Machine/Boot.lean ====
section
/-!
DEFINITION. Power-on and loss of power, resets, the boot, the shutdown with its self-test and the result store, and what the
TAP and the sideband do (R472, R475, R484 to R487, R492 to R500, R503 to R505).
-/
namespace Sys2Proof.Machine

/-! ## Resets (R485) -/

/-- Everything at its reset value but what lies outside the device and what no reset clears: host and fabric memory with the
checkpoints in it, the result store and the fuses. What the model itself keeps, its queue, its counter of free values and the
record of what was sent, stays. -/
def State.fresh (s : State) (p : Plat) : State :=
  { State.reset with
    pending := s.pending
    free := s.free
    host := s.host
    fabric := s.fabric
    sent := s.sent
    out := s.out
    ckp := { store := s.ckp.store }
    plat := { p with
      bankA := s.plat.bankA, bankB := s.plat.bankB, writesA := s.plat.writesA, writesB := s.plat.writesB,
      lifecycle := s.plat.lifecycle, fuseSeed := s.plat.fuseSeed, tap := s.plat.tap } }

/-- Power-on (R7, R472): tick 0. -/
def State.powerOn (s : State) (mv : Nat) : State := (s.fresh {}).setReg .PWR_VIN_MV mv

/-- A loss of power (R472): every volatile store is lost, PGOOD is low. -/
def State.powerLost (s : State) (phase : PowerPhase) (mv : Nat) : State :=
  (s.fresh { phase := phase, pgood := false }).setReg .PWR_VIN_MV mv

/-- The registers of RST_CAUSE. -/
def causeRegs : List Reg :=
  [.RST_CAUSE_POWER_ON, .RST_CAUSE_RESET_N, .RST_CAUSE_WATCHDOG, .RST_CAUSE_SOFTWARE, .RST_CAUSE_JTAG]

/-- A cold reset with its cause: the tick counter, the result store, the sealed-page count and RST_CAUSE are spared; so are the
count of boots since power-on, the qualification of REFCLK and the input voltage, which are no state of a domain that is reset
(log entry 44). -/
def State.coldReset (s : State) (cause : Reg) (resetLow : Bool) : State :=
  let f := s.fresh { phase := s.plat.phase, pgood := s.plat.pgood, resetLow := resetLow, boots := s.plat.boots }
  let f := { f with tick := s.tick, bootEpoch := s.bootEpoch, cane := { f.cane with sealedCount := s.cane.sealedCount } }
  let f := [Reg.CLK_STATUS_REF_REF_OK, .CLK_STATUS_REF_REF_KHZ, .PWR_VIN_MV].foldl (fun f r => f.setReg r (s.reg r)) f
  causeRegs.foldl (fun f r => f.setReg r (b2n (r == cause))) f

/-- The row VIN_RISE: both tabs rise through 58.0 V. -/
def execVinRise (mv : Nat) (s : State) : Host.Outcome State Fault Refusal :=
  .next (if 58000 ≤ mv ∧ (s.plat.phase = .off ∨ s.plat.phase = .overVolt) then s.powerOn mv else s)

/-- The row VIN_UV_FAULT: below 55.0 V; it ends a thermal trip too (R485). -/
def execVinUvFault (mv : Nat) (s : State) : Host.Outcome State Fault Refusal :=
  .next (if mv < 55000 then s.powerLost .off mv else s)

/-- The row VIN_OV_FAULT: above 85.0 V. -/
def execVinOvFault (mv : Nat) (s : State) : Host.Outcome State Fault Refusal :=
  .next (if 85000 < mv ∧ s.plat.phase = .on then s.powerLost .overVolt mv else s)

/-- The row VIN_OV_RECOVERY: within 58.0 to 80.0 V for 10 ms. -/
def execVinOvRecovery (mv : Nat) (s : State) : Host.Outcome State Fault Refusal :=
  .next (if 58000 ≤ mv ∧ mv ≤ 80000 ∧ s.plat.phase = .overVolt then s.powerOn mv else s)

/-- The row THERMAL_TRIP: a sensor at or above 125 °C switches off every rail and drives THERMTRIP_N low. -/
def execThermalTrip (c : Nat) (s : State) : Host.Outcome State Fault Refusal :=
  .next (if 125 ≤ c ∧ s.plat.phase = .on then
    let s := s.powerLost .tripped (s.reg .PWR_VIN_MV)
    s.onPlat (fun p => { p with thermtrip := true })
  else s)

/-- The row RESET_N_ASSERT: low for at least 1 µs. -/
def execResetNAssert (s : State) : Host.Outcome State Fault Refusal :=
  .next (if s.plat.phase = .on ∧ s.plat.resetLow = false then s.coldReset .RST_CAUSE_RESET_N true else s)

/-- The row BENCH_WATCHDOG. -/
def execBenchWatchdog (s : State) : Host.Outcome State Fault Refusal :=
  .next (if s.islandUp then s.coldReset .RST_CAUSE_WATCHDOG s.plat.resetLow else s)

/-- The row RST_DEVICE_COLD, with the word written to RST_DEVICE: COLD acts only with KEY 0xC0DE in the same write. -/
def execRstDeviceCold (value : Word) (s : State) : Host.Outcome State Fault Refusal :=
  let s := s.touch
  .next (if !s.live then s
    else if bitsOf value.toNat 16 16 ≠ 0xC0DE then s.recErr pgRst 0x0010
    else if bitAt value.toNat 0 then s.coldReset .RST_CAUSE_SOFTWARE s.plat.resetLow
    else s)

/-- The row FLR of a CXL.io function: its MSI-X table is reset, and rings behind it go HALTED (R43, R485). -/
def execFlr (function : BitVec 4) (s : State) : Host.Outcome State Fault Refusal :=
  let f := function.toNat
  .next (if s.live then
    let rings := (s.rings.entries.filter (fun e => e.2.function == f && e.2.state == .enabled)).map (·.1)
    let s := rings.foldl (fun s n => haltRing s n 0x0006) s
    let s := { s with unmasked := s.unmasked.filter (fun v => v / 2048 != f),
                      msixTable := s.msixTable.filter (fun v _ => v / 2048 != f),
                      msixPending := s.msixPending.filter (fun v => v / 2048 != f) }
    (s.bump .RST_FLRS_COUNT).setIntBit pgRst 8
  else s)

/-! ## The result store (R498 to R500) -/

/-- Bytes 0 to 65,527 of a bank (R498). -/
def StoreBank.body (b : StoreBank) : List Byte :=
  zeroFill 65528 (leBytes 0x53544757 4 ++ leBytes 1 2 ++ leBytes 0 2 ++ leBytes b.seq 8 ++ leBytes b.bootCount 4
    ++ leBytes b.result 1 ++ leBytes b.kind 1 ++ leBytes (b2n b.consumed) 1 ++ leBytes b.lifecycle 1 ++ leBytes b.segsRun 2
    ++ leBytes b.segsFailed 2 ++ leBytes b.vcore 2 ++ leBytes b.clk 2 ++ leBytes b.failMap 32 ++ leBytes 0 64
    ++ leBytes b.configId 48 ++ zeroFill 256 (b.config.take 256))

/-- The bank with its CRC, the CRC-64 of R412. -/
def StoreBank.image (b : StoreBank) : List Byte :=
  let l := b.body
  l ++ leBytes (crc64 l) 8

/-- The current bank: the valid one of higher SEQ; bank B is numbered 1. -/
def Plat.current (p : Plat) : Option (Nat × StoreBank) :=
  match p.bankA.valid, p.bankB.valid with
  | false, false => none
  | true, false => some (0, p.bankA)
  | false, true => some (1, p.bankB)
  | true, true => if p.bankA.seq < p.bankB.seq then some (1, p.bankB) else some (0, p.bankA)

/-- Write a record: it goes to the other bank, with the next SEQ. -/
def Plat.writeStore (p : Plat) (b : StoreBank) : Plat :=
  let cur := p.current
  let b := { b with valid := true, seq := ((cur.map (fun e => e.2.seq)).getD 0) + 1 }
  if (cur.map (·.1)) = some 0 then { p with bankB := b, writesB := p.writesB + 1 }
  else { p with bankA := b, writesA := p.writesA + 1 }

/-- The result fields of a self-test (R495, R498). -/
def BistRun.record (r : BistRun) (b : StoreBank) (kind : Nat) : StoreBank :=
  { b with
    result := if r.broken then 3 else if r.failed.isEmpty then 1 else 2
    kind := kind
    segsRun := r.segs
    segsFailed := r.failed.length
    vcore := r.vcore
    clk := r.clk
    failMap := (r.failed.eraseDups.map (fun n => 2 ^ n)).sum }

/-- Write the store, or report that both banks failed (R505). -/
def State.storeRecord (s : State) (b : StoreBank) (fails : Bool) : State :=
  if fails then s.recErr pgBist 0x0003 else s.onPlat (fun p => p.writeStore b)

/-! ## The boot (R486, R497) -/

/-- The pages of the block that a self-test segment covers (R496). -/
def segmentPages (n : Nat) : List Nat :=
  if n < 128 then [pgCru + n]
  else if n < 136 then (clusterCores (n - 128)).map (fun c => pgCru + c)
  else if n = 136 then [pgSdir]
  else if n = 137 then [pgCane, pgGaf]
  else if n = 138 then [pgMrv, pgJck]
  else if n = 139 then [pgEmb, pgSrch]
  else if n < 148 then [pgFab + (n - 140)]
  else if n < 160 then [pgHbm + (n - 148)]
  else if n < 168 then [pgFcd + (n - 160)]
  else [pgGlb]

/-- Put a segment's unit in STATE 0xFF FAILED; cores and clusters record the codes of R225. -/
def State.failSegment (s : State) (n : Nat) : State :=
  (segmentPages n).foldl (fun s p => s.failPage p (if n < 128 then 0x0002 else if n < 136 then 0x0003 else 0)) s

/-- The short self-test runs unless the current bank holds an unconsumed full PASS of the same configuration (R497). -/
def shortRuns (cur : Option (Nat × StoreBank)) (configId : Nat) : Bool :=
  match cur with
  | none => true
  | some (_, b) => !(b.result == 1 && b.kind == 1 && !b.consumed && b.configId == configId)

/-- The LAST_ registers copy the current bank (R504). -/
def State.lastRegs (s : State) (b : StoreBank) : State :=
  [(Reg.BIST_LAST_RESULT, b.result), (.BIST_LAST_KIND, b.kind), (.BIST_LAST_CONSUMED, b2n b.consumed),
   (.BIST_LAST_SEGS_FAILED, min b.segsFailed 255), (.BIST_LAST_SEQ_SEQ, b.seq), (.BIST_LAST_COND_VCORE_MV, b.vcore),
   (.BIST_LAST_COND_CLK_MHZ, b.clk), (.BIST_FAIL_MAP_MAP, b.failMap)].foldl (fun s e => s.setReg e.1 e.2) s

/-- Ticks of the boot, and of the short self-test in it. -/
def bootTicks (short : Bool) : Nat := 36000000 + if short then 400000000 else 0

/-- The boot sequence. -/
def State.boot (s : State) (b : BootInput) : State :=
  let cur := s.plat.current
  let old := (cur.map (·.2)).getD {}
  let configId := sha384 b.config
  let short := shortRuns cur configId
  let count := old.bootCount + if s.regBit .RST_CAUSE_POWER_ON then 1 else 0
  let start := s.tick
  let kept : StoreBank := { old with
    bootCount := count, consumed := true, lifecycle := s.plat.lifecycle, configId := configId, config := b.config }
  let record := if short then b.bist.record kept 2 else kept
  let failed := (if short then b.bist.failed else [])
    ++ (List.range 169).filter (fun n => cur.isSome && bitAt old.failMap n)
  -- the tables, the boot's inputs and the store
  let s := s.onPlat (fun p => { p with resetLow := false, firmware := b.firmware, boots := p.boots + 1 })
  let s := { s with bootEpoch := count % 2 ^ 32, tick := (start + bootTicks short) % 2 ^ 64 }
  let s := s.onSec (fun e => { e with memKey := true, identity := some (deriveIdentity s.plat.fuseSeed b.firmware) })
  let s := (s.setReg .RST_SLOT_SLOT_ID b.slotId).setReg .RST_BOOT_TIME_TICKS (bootTicks short)
  let s := ((s.setReg .CLK_START_MHZ_MHZ b.startMhz).setReg .CLK_PLL_EFF_LOCKED
    (b2n (s.regBit .CLK_STATUS_REF_REF_OK))).setReg .BIST_CONFIG_ID_DIGEST configId
  let s := if short then ((s.beginLong pgBist).progress pgBist b.bist.segs 99).endLong pgBist else s
  let s := if short ∧ b.bist.failed ≠ [] then s.setIntBit pgBist 8 else s
  let s := s.lastRegs old
  let s := (s.setReg .BIST_BOOT_RAN (b2n short)).setReg .BIST_BOOT_RESULT (if short then record.result else 0)
  let s := s.storeRecord record b.writeFails
  -- the pages that run from the boot on, the ports, and the failed units
  let s := [pgGlb, pgPwr, pgClk, pgRst, pgBist].foldl (fun s p => s.setPageState p 1) s
  let s := (List.range 8).foldl (fun s n =>
    ((s.setEn (fabPage n) true).setPageState (fabPage n) 2).setPort n { training := true, since := start + 3000000 }) s
  failed.eraseDups.foldl State.failSegment s

/-- The row BOOT: reset is released, and the boot runs to GLB ENABLED. -/
def execBoot (b : BootInput) (s : State) : Host.Outcome State Fault Refusal :=
  .next (if s.plat.phase = .on ∧ s.plat.pgood = true ∧ s.pageState pgGlb = 0 then s.boot b else s)

/-! ## The shutdown (R493 to R495) -/

/-- Ticks from the effect of a SHUTDOWN to the SHUT state (R494). -/
def shutTicks (test : Bool) : Nat := if test then 6051100000 else 51052000

/-- The device stops: what runs ends, the islands keys are zeroised, the ports are OFF, and every domain but the always-on one
goes OFF. Pages that have failed and the pages of the always-on domain keep their registers. -/
def State.stop (s : State) : State :=
  let s := (List.range 8).foldl (fun s n => if s.failed (fabPage n) then s else s.portOff n) s
  let s := s.zeroise
  let s := { s with
    cmds := ⟨[]⟩, adm := {}, sdir := {}, cane := { sealedCount := s.cane.sealedCount }, stm := {}, jobs := ⟨[]⟩,
    sources := ⟨[]⟩, models := ⟨[]⟩, vocabs := ⟨[]⟩, objects := ⟨[]⟩, cores := ⟨[]⟩, windows := ⟨[]⟩, gaf := {}, freeze := 0,
    hbm := ⟨[]⟩, sec := { s.sec with identity := none }, emb := {}, srch := {}, fam := {}, ckp := { store := s.ckp.store }, migrations := ⟨[]⟩, tel := {}, window := ⟨[]⟩ }
  let s := { s with commons := s.commons.map (fun p c =>
    if p < 5 ∨ c.state = 0xFF then c else { c with en := false, state := 0, busy := false }) }
  (List.range 167).foldl (fun s d => s.setReg .PWR_DOM_STAT_STATE 2 d) s

/-- The rings at a shutdown: the issuing ring goes DISABLED, every other one DRAINING. -/
def State.stopRings (s : State) (own : Nat) : State :=
  { s with rings := s.rings.map (fun n r =>
    if n = own then r.drained
    else match r.state with
      | .enabled => { r with en := false, state := .draining }
      | _ => r) }

/-- SHUTDOWN takes effect. -/
def opShutdown (s : State) (id : Nat) (c : Cmd) (bist : BistRun) (fails : Bool) : State :=
  if s.ckp.run.isSome ∨ s.ckp.restore.isSome ∨ s.sec.pass.isSome then s.waitCmd id
  else if s.tenants.values.any (fun t => t.state != .closed) then s.complete id .locked 2
  else
    let mode := c.desc.opt 8 2
    let test := mode == 1 || (mode == 0 && s.regBit .BIST_CFG_AT_SHUTDOWN)
    let s := s.setPageState pgGlb 2
    let s := s.complete id .ok 0 (if test then 6000 else 0)
    let s := (s.stopRings c.ring).stop
    let s := { s with tick := (s.tick + shutTicks test) % 2 ^ 64 }
    let s := if test then
        let old := (s.plat.current.map (·.2)).getD {}
        let record := bist.record { old with consumed := false, lifecycle := s.plat.lifecycle } 1
        (((s.beginLong pgBist).progress pgBist bist.segs 99).endLong pgBist).storeRecord record fails
      else s
    (s.onPlat (fun p => { p with islandOff := true })).setPageState pgGlb 3

/-! ## The TAP and the sideband (R475, R486, R487, R492) -/

/-- The row JTAG_INSTRUCTION: boundary-scan instructions always work; any other only in MANUFACTURING and RMA, where the island
is zeroised and every domain but the TAP gets a cold reset. -/
def execJtagInstruction (i : TapInstr) (s : State) : Host.Outcome State Fault Refusal :=
  .next (if s.plat.phase ≠ .on then s
    else if i ≠ .other then s.onPlat (fun p => { p with tap := i })
    else if s.debugOpen then
      ((s.zeroise.onPlat (fun p => { p with tap := .other }))).coldReset .RST_CAUSE_JTAG s.plat.resetLow
    else s)

/-- The row ENTDAA: the controller assigns a dynamic address; the provisional ID carries SLOT_ID. -/
def execEntdaa (addr : BitVec 7) (s : State) : Host.Outcome State Fault Refusal :=
  .next (if s.plat.phase = .on then
    (s.onPlat (fun p => { p with i3c := some addr.toNat })).send (.provisionalId (s.reg .RST_SLOT_SLOT_ID))
  else s)

/-- The row MCTP_CONTROL_MESSAGE, answered from the always-on domain. -/
def execMctpControlMessage (s : State) : Host.Outcome State Fault Refusal :=
  .next (if s.plat.phase = .on then s.send .mctpControl else s)

/-- The row CONFIG_REQUEST at a CXL.io function: Configuration Request Retry Status until the boot has ended; no answer while
the ports are OFF. -/
def execConfigRequest (function : BitVec 4) (s : State) : Host.Outcome State Fault Refusal :=
  .next (if s.plat.phase ≠ .on ∨ s.pageState pgGlb = 3 then s
    else if s.pageState pgGlb = 0 then s.send (.configRetry function.toNat)
    else s.send (.configDone function.toNat))

end Sys2Proof.Machine
end

