-- ==== Sys2Proof/Machine/Reclaim.lean ====
section
/-!
DEFINITION. Page reclamation as the Cullet runs it, and the slots of closed sessions that it lets go (R70, R80, R165, R166).
-/
namespace Sys2Proof.Machine

/-- A CLOSED session no longer waits for a record; with the last one its slot is freed. -/
def State.letGo (s : State) (n slot : Nat) : State :=
  (s.onSession slot (fun x => { x with leftover := x.leftover.filter (· != n) })).freeClosed slot

/-- Slots of CLOSED sessions that wait for a record. -/
def State.waitersFor (s : State) (n : Nat) : List Nat :=
  (s.sdir.sess.entries.filter (fun e => e.2.leftover.contains n)).map (·.1)

/-- The record handed over first is freed, unless a checkpoint still reads it (R138, R418). -/
def State.reclaimFirst (s : State) : State :=
  match s.cane.reclaim with
  | [] => s
  | n :: _ =>
    match s.page? n with
    | none => { s with cane := { s.cane with reclaim := s.cane.reclaim.drop 1 } }
    | some p =>
      if p.ckptReads ≠ 0 ∨ p.refs ≠ 0 ∨ p.pins ≠ 0 then s
      else
        let slots := s.waitersFor n
        slots.foldl (fun s k => s.letGo n k) (freeRecordOp s n (s.poolDead p))

/-- The row PAGE_FREE. -/
def execPageFree (s : State) : Host.Outcome State Fault Refusal :=
  .next (if s.failed pgCane then s else s.reclaimFirst)

end Sys2Proof.Machine
end

