-- ==== Sys2Proof/Machine/Targets.lean ====
section
/-!
DEFINITION. How requests to map targets end, targets marked dead, and what fails with them (R374, R379, R387, R389 to R393,
R405, R407, R454, R549, R550); the command watchdog (R64).
-/
namespace Sys2Proof.Machine

/-! ## FAM_CTRL.EN and FABn_CTRL.EN -/

/-- The checks of FAM_CTRL.EN (R407). -/
def State.famOk (s : State) : Bool :=
  s.self != 0 && s.self != 0xFFFF && inHbmRange s.leaseTable.1 s.leaseTable.2
    && clearOf s.leaseTable.1 s.leaseTable.2 s.allRegions

/-- The row FAM_ENABLE, with the value written. -/
def execFamEnable (en : Bool) (s : State) : Host.Outcome State Fault Refusal :=
  let s := s.touch
  .next (if !s.live then s
    else if en then
      if s.pageState pgFam ≠ 0 then s
      else if s.famOk then s.enableBlock pgFam
      else s.recErr pgFam 0x0003
    else if s.pageState pgFam = 0 ∨ s.failed pgFam = true then s
    else if s.sdir.sess.values.any (fun x => x.leased || x.residency == .away) then s.recErr pgFam 0x0005
    else s.disableBlock pgFam)

/-- The row FAB_ENABLE of port `n`, with the value written (R374). -/
def execFabEnable (n : BitVec 3) (en : Bool) (s : State) : Host.Outcome State Fault Refusal :=
  let s := s.touch
  let p := fabPage n.toNat
  .next (if !s.live || s.failed p then s
    else if en then
      if s.pageState p = 0 ∧ s.domOn (156 + n.toNat) = true then ((s.clearCounters p).setEn p true).portTrain n.toNat else s
    else if s.pageState p = 0 then s.setEn p false
    else s.portOff n.toNat)

/-! ## Sources that cannot be read (R550) -/

/-- The command that reads a source fails with INTERNAL, and nothing of it remains. -/
def State.sourceFail (s : State) (id : Nat) : State :=
  match s.models.find? (fun _ m => !m.loaded && m.cmd == some id) with
  | some (mid, m) => ((s.dropLoad mid m).recErr pgCru 0x0012).complete id .internal
  | none =>
    match s.jobs.find? (fun _ j => j.cmd == id && j.kind != .exportTo && j.kind != .migrateOut) with
    | some (n, j) =>
      let s := { (s.eraseJob n j) with migrations := s.migrations.erase id }
      let s := s.undoJob j
      ((if j.kind = .importFrom then s.abortLong pgStm else s).recErr pgStm 0x0007).complete id .internal
    | none =>
      if ((s.cmd? id).map (fun c => c.desc.opcode == 0x43 && c.phase == .running)).getD false then
        (s.recErr pgMrv 0x0002).complete id .internal
      else s

/-! ## Output payloads that cannot be written (R549) -/

/-- Opcodes that write a payload (R89, R257, R318, R361). -/
def writesPayload (op : Nat) : Bool := [0x13, 0x1A, 0x30, 0x3A].contains op

/-- The session whose outstanding STEP a command is. -/
def State.stepSlot (s : State) (id : Nat) : Option Nat :=
  (s.sdir.sess.find? (fun _ x => (x.stepReq.map (·.cmd)) == some id)).map (·.1)

/-- The session whose STEP a command is, where the STEP has met its end and waits for its last token. -/
def State.endedSlot (s : State) (id : Nat) : Option Nat :=
  (s.sdir.sess.find? (fun _ x => (x.ended.map (·.1.cmd)) == some id)).map (·.1)

/-- Host memory under the payload of a failed write holds undefined content; which of its bytes the write touched is open, so
all of them are free (log entry 1). Window memory is the device's own. -/
def State.spoilPayload (s : State) (d : Desc) : State :=
  if d.inWindow then s else (s.writeMem false d.payAddr (freeBytes s.free d.payLen)).useFree d.payLen

/-- The row PAYLOAD_WRITE_FAIL: a STEP ends at once, with the DETAIL of R263. -/
def execPayloadWriteFail (cmd : Nat) (s : State) : Host.Outcome State Fault Refusal :=
  .next (match s.cmd? cmd with
    | none => s
    | some c =>
      if writesPayload c.desc.opcode ∧ (c.phase = .started ∨ c.phase = .running) then
        let s := (s.ringErr c.ring 0x0009).spoilPayload c.desc
        match s.stepSlot cmd, s.endedSlot cmd with
        | some slot, _ => s.endStep slot .internal 0x0C
        | none, some slot => (s.onSession slot (fun x => { x with ended := none })).complete cmd .internal 0x0C
        | none, none => s.complete cmd .internal
      else s)

/-! ## The watchdog (R64) -/

/-- The page of the block that runs an opcode. -/
def blockPage (op : Nat) : Nat :=
  if op < 0x18 then pgSdir
  else if op < 0x1A then pgMrv
  else if op = 0x1A then pgGaf
  else if op < 0x30 then pgStm
  else if op < 0x38 then pgEmb
  else if op < 0x40 then pgSrch
  else if op < 0x42 then pgGlb
  else if op = 0x42 then pgJck
  else if op = 0x43 then pgMrv
  else if op < 0x50 then pgCkp
  else if op < 0x58 then pgSec
  else pgBist

/-- The time of a started command counts toward the watchdog: not a wait by its definition, not the length of a TOOL_WAIT, not
the freeze of a checkpoint or a restore; a STEP's counts while its session is in the running step (R64). -/
def State.watchdogCounts (s : State) (id : Nat) (c : Cmd) : Bool :=
  (c.phase == .running || c.phase == .started) && c.desc.opcode != 0x1B && s.freeze == 0 && s.ckp.restore.isNone
    && (if c.desc.opcode = 0x1A then
          ((((s.stepSlot id).or (s.endedSlot id)).bind s.session?).map (fun x => x.runState == .running)).getD (!c.exempt)
        else !c.exempt)

/-- The row COMMAND_WATCHDOG: the command completes with INTERNAL; the block records a code that no rule gives. -/
def execCommandWatchdog (cmd : Nat) (s : State) : Host.Outcome State Fault Refusal :=
  .next (match s.cmd? cmd with
    | none => s
    | some c =>
      let ms := s.reg .GLB_WATCHDOG_MS
      if ms ≠ 0 ∧ s.watchdogCounts cmd c = true ∧ max c.progressTick c.startTick + ms * 1000000 ≤ s.tick then
        let s := (s.recErr (blockPage c.desc.opcode) ((Config.freeWord s.free).toNat % 65535 + 1)).useFree
        match s.stepSlot cmd, s.endedSlot cmd with
        | some slot, _ => s.endStep slot .internal 0
        | none, some slot => (s.onSession slot (fun x => { x with ended := none })).complete cmd .internal
        | none, none =>
          let s := s.sourceFail cmd
          s.complete cmd .internal
      else s)

/-! ## Requests that end (R379, R387, R390) -/

/-- A peer message's write fails without a dead mark: its block records its error. -/
def State.failReq (s : State) (n : Nat) (r : Req) : State :=
  let s := s.endReq n r
  match r.msg.kind with
  | .fp32Add | .rowStore =>
    let p (e : Nat × Nat × Nat × Nat) : Bool := e.2.1 == r.device && e.2.2.1 == r.msg.seq && e.2.2.2 == r.msg.row
    s.homeDown.failSent (((s.emb.sent.filter p).map (·.1)).eraseDups)
  | .rowReq =>
    let mine (key : Nat) : Bool :=
      let t := key / 2 ^ 32
      s.tblRemote t && s.reg .EMB_TBL_HOME_DEVICE t == r.device && s.reg .EMB_TBL_HOME_TABLE t == r.msg.table
        && key % 2 ^ 32 == r.msg.row
    let cut (b : EmbBatch) : EmbBatch :=
      { b with waiting := b.waiting.filter (fun k => !mine k), unread := b.unread ++ b.waiting.filter mine }
    { s.homeDown with emb := { s.homeDown.emb with batch := s.homeDown.emb.batch.map cut } }
  | .rowData | .applied => s.homeDown
  | .leaseNote | .quietNote => s

/-- The row FABRIC_COMPLETION of a request. -/
def execFabricCompletion (req : Nat) (result : FabResult) (s : State) : Host.Outcome State Fault Refusal :=
  .next (if s.fam.late.contains req then
      ({ s with fam := { s.fam with late := s.fam.late.filter (· != req) } }).bump .FAM_LATE_RESPONSES_COUNT
    else match s.fam.reqs.get? req with
      | none => s
      | some r =>
        match result with
        | .normal => s.endReq req r
        | .aborted =>
          { s.bump .FAM_MSG_BUSY_COUNT with fam := { s.fam with
              reqs := s.fam.reqs.set req { r with resendAt := some (s.tick + 100000), since := s.tick } } }
        | .unsupported | .poisoned => s.failReq req r)

/-- The row IDE_INTEGRITY_FAIL of a stream, on port `n`: the stream stops, and its requests fail (R390, R405, R454). -/
def execIdeIntegrityFail (stream : Nat) (n : BitVec 3) (s : State) : Host.Outcome State Fault Refusal :=
  .next (if (s.stream stream).active then
    let p := fabPage n.toNat
    let s := (s.setStream stream { s.stream stream with active := false, failed := true, secret := [], keys := [] }).bump .SEC3_STREAM_FAILS_COUNT
    let s := ((s.recErr p 0x0002).setIntBit p 11).bump .FAB_IDE_FAILS_COUNT n.toNat
    let l := s.fam.reqs.entries.filter (fun e =>
      ((s.peerEntry e.2.device).map (fun i => s.reg .FAM_MAP_PORTS_IDE_STREAM i)) == some stream)
    l.foldl (fun s e => s.failReq e.1 e.2) s
  else s)

/-! ## Dead targets (R389, R391, R392) -/

/-- State of the session lies in the pool at the device. -/
def State.lostWith (s : State) (x : Session) (device : Nat) : Bool :=
  (x.residency == .pooled || (x.residency == .moving && x.moveSrc == .pooled)) && s.atDevice x.ptRoot 1 device

/-- Mark LOST what lies at the device. -/
def State.markLost (s : State) (device : Nat) : State :=
  (s.sdir.sess.entries.filter (fun e => s.lostWith e.2 device && e.2.runState != .lost && e.2.runState != .closed)).foldl
    (fun s e => ((s.stopMove e.1 .lost 0).setLost e.1).bump .FAM_LOST_MARKED_COUNT) s

/-- The state mover's pool extent has bytes at the device. -/
def State.poolAt (s : State) (device : Nat) : Bool :=
  let base := s.reg .STM_POOL_BASE_ADDR * 4096
  let lim := base + s.reg .STM_POOL_SIZE_GIB * 2 ^ 30
  s.mapEntries.any (fun i => s.reg .FAM_MAP_DEST_DEVICE i == device && decide (max base (s.mapBase i) < min lim (s.mapBase i + s.mapBytes i)))

/-- Downward moves and writebacks into the pool at the device end without commit. -/
def State.endPoolMoves (s : State) (device : Nat) : State :=
  if !s.poolAt device then s
  else (s.stm.moves.entries.filter (fun e => e.2.dst == .pooled && e.2.ctx.isSome && e.2.job.isNone)).foldl (fun s e =>
    if e.2.writebackOnly then s.endWriteback e.1 e.2 false else s.failMove e.1 e.2 false) s

/-- The walk has passed every page record: IN_POOL is cleared where the pool copy lies at the device (R392). A record freed before
that is found with its copy at a dead target, and the copy is abandoned (R166). -/
def State.clearPool (s : State) (device : Nat) : State :=
  (s.cane.recs.entries.filter (fun e => e.2.inPool && s.atDevice e.2.pool 1 device)).foldl (fun s e => s.dropPool e.1) s

/-- Every CAS that is outstanding or waits on a word at the device fails, and sessions whose validation it would answer find
their home unreachable. -/
def State.failLeases (s : State) (device : Nat) : State :=
  let words := s.fam.cas.keys.filter (fun a => s.atDevice a 8 device)
  let s := words.foldl (fun s a =>
    (List.range (s.fam.cas.getD a []).length).foldl (fun s _ => s.casAnswer a none none) s) s
  let waits := s.sdir.sess.entries.filter (fun e => e.2.leaseWait && s.atDevice e.2.leaseAddr 8 device)
  let s := waits.foldl (fun s e => s.homeFailed e.1) s
  (s.migrations.entries.filter (fun e => s.watched e.2 && s.atDevice e.2.addr 8 device)).foldl
    (fun s e => s.watch e.1 e.2 none) s

/-- Commands that read their source from the device. -/
def State.readersFrom (s : State) (device : Nat) : List Nat :=
  let cmdAt (c : Cmd) : Bool := c.desc.opt 8 2 == 2 && s.atDevice (c.desc.specF 47 40) 1 device
  ((s.models.values.filterMap (fun m => if m.loaded then none else m.cmd)).filter (fun id => (s.cmd? id).any cmdAt))
    ++ (s.cmds.entries.filter (fun e => e.2.desc.opcode == 0x43 && e.2.phase == .running && cmdAt e.2)).map (·.1)
    ++ (s.jobs.values.filter (fun j => j.space == 2 && j.kind != .exportTo && j.kind != .migrateOut
        && s.atDevice j.addr 1 device)).map (·.cmd)

/-- A checkpoint or restore whose store lies at the device ends. -/
def State.failStore (s : State) (device : Nat) : State :=
  if s.atDevice s.ckptStore s.ckptStoreLen device then
    let s := if s.ckp.run.isSome then (s.recErr pgCkp 0x0002).ckptFail .internal 0 else s
    match s.ckp.restore with
    | some r => s.restoreFail r .internal 0
    | none => s
  else s

/-- A target is marked dead. -/
def State.markDead (s : State) (device : Nat) : State :=
  let l := (s.fam.reqs.entries.filter (fun e => e.2.device == device)).map (·.1)
  let s := { s with fam := { s.fam with
    dead := device :: s.fam.dead
    walking := device :: s.fam.walking
    reqs := s.fam.reqs.filter (fun _ r => r.device != device)
    outbox := s.fam.outbox.erase device
    late := s.fam.late ++ l } }
  let s := ((s.setReg .FAM_DEAD_LAST_DEVICE device).setReg .FAM_DEAD_LAST_VALID 1).setReg .FAM_DEAD_COUNT_COUNT
    s.fam.dead.length
  let s := (s.bump .FAM_TIMEOUTS_COUNT).setIntBit pgFam 8
  let s := (s.embTargetLost device).endPoolMoves device
  let s := ((s.markLost device).cutLoses (fun x => s.lostWith x device)).2.failLeases device
  ((s.readersFrom device).foldl State.sourceFail s).failStore device

/-- The row FABRIC_TIMEOUT: a request to a target of the map has no completion within FAM_TIMEOUT.US. Peer messages are timed by
the model; every other request is its engine's, and the event says that it is overdue. -/
def execFabricTimeout (device : Nat) (s : State) : Host.Outcome State Fault Refusal :=
  let l := s.fam.reqs.values.filter (fun r => r.device == device)
  .next (if s.enabled pgFam ∧ s.mapEntries.any (fun i => s.reg .FAM_MAP_DEST_DEVICE i == device)
      ∧ s.fam.dead.contains device = false ∧ s.isQuiet device = false
      ∧ (l.isEmpty ∨ l.any (fun r => r.resendAt.isNone && decide (r.since + s.timeoutTicks ≤ s.tick))) then
    s.markDead device
  else s)

/-- The row DEAD_WALK_DONE. -/
def execDeadWalkDone (device : Nat) (s : State) : Host.Outcome State Fault Refusal :=
  .next (if s.fam.walking.contains device then
    let s := s.clearPool device
    ({ s with fam := { s.fam with walking := s.fam.walking.filter (· != device) } }).setIntBit pgFam 9
  else s)

end Sys2Proof.Machine
end

