-- ==== Sys2Proof/Machine/Tiles.lean ====
section
/-!
DEFINITION. Tiles of the cores: what a tile computes and counts, the tile that a core takes next, the urgent share, the weight
window, and uncorrectable errors of the SRAM (R203, R206 to R208, R221, R223, R225, R268 to R270, R479, R506 to R508, R518,
R519).
-/
namespace Sys2Proof.Machine

/-! ## Tags (R518) -/

/-- What a core's register starts from. -/
def State.tagStart (s : State) (n : Nat) : Nat :=
  let v := Nat.xor (s.reg .TEL3_TAG_SEED_SEED) n % 2 ^ 32
  if v = 0 then 1 else v

/-- One advance of the shift register of polynomial x^32 + x^22 + x^2 + x + 1. -/
def lfsrNext (v : Nat) : Nat :=
  let bit (i : Nat) : Nat := (v / 2 ^ i) % 2
  let fb := (bit 31 + bit 21 + bit 1 + bit 0) % 2
  (v * 2 + fb) % 2 ^ 32

/-- LOG2N as it is taken. -/
def State.tagLog (s : State) : Nat := min 24 (s.reg .TEL3_TAG_LOG2N)

/-- A tile starts on a core: the register advances, and the tile is tagged or not. -/
def State.startTag (s : State) (n : Nat) : Bool × State :=
  let v := lfsrNext (s.tel.lfsr.getD n (s.tagStart n))
  let s := { s with tel := { s.tel with lfsr := s.tel.lfsr.set n v } }
  let k := s.tagLog
  let on := k != 0 && s.enabled (pgTel + 3) && v % 2 ^ k == 0
  (on, if on then s.bump .TEL3_TAGGED_COUNT else s)

/-! ## Starting a tile -/

/-- A core shows the tile that it starts. -/
def State.startTile (s : State) (n : Nat) (t : NextTile) : State :=
  let (on, s) := s.startTag n
  s.setCore n { s.core n with tileKind := t.kind, tileModel := t.model, tileUrgent := t.urgent, waits := none, tagged := on }

/-- GAF reads PREEMPTED while urgent tiles hold a core during a step (R280). -/
def State.showHeld (s : State) : State :=
  if s.gaf.running.isSome && s.enabled pgGaf then s.setPageState pgGaf (if s.urgentHeld then 3 else 2) else s

/-! ## The urgent share (R270) -/

/-- Length of the window in ticks, and the share in percent, as they are taken. -/
def State.urgentTicks (s : State) : Nat := max 10 (min 10000 (s.reg .GAF_URGENT_WINDOW_US)) * 1000
def State.urgentPct (s : State) : Nat := min 100 (s.reg .GAF_URGENT_PCT)

/-- Clock of a core in MHz: cycles in a microsecond. -/
def State.coreMhz (s : State) (n : Nat) : Nat :=
  if (s.core n).onPll then s.pllMhz else s.reg .CRU_CLOCK_MHZ n

/-- Core cycles of the device in a window. -/
def State.windowCycles (s : State) : Nat := ((s.onCores.map s.coreMhz).sum) * (s.urgentTicks / 1000)

/-- An urgent tile may start now. -/
def State.urgentMay (s : State) : Bool :=
  s.gaf.running.isNone || decide (s.gaf.urgentCycles * 100 < s.urgentPct * s.windowCycles)

/-- The share is reached: counted once for a window. -/
def State.urgentCap (s : State) : State :=
  if s.gaf.urgentCapped then s
  else ({ s with gaf := { s.gaf with urgentCapped := true } }.bump .GAF_URGENT_CAPPED_COUNT).setIntBit pgGaf 10

/-- The row URGENT_WINDOW_END. -/
def execUrgentWindowEnd (s : State) : Host.Outcome State Fault Refusal :=
  .next (if s.gaf.urgentEnd ≤ s.tick then
    { s with gaf := { s.gaf with urgentCycles := 0, urgentCapped := false,
                                 urgentEnd := (s.tick / s.urgentTicks + 1) * s.urgentTicks } }
  else s)

/-- Urgent tiles take a core at a tile boundary: the step that runs is pre-empted (R223, R269). -/
def State.preempt (s : State) (n : Nat) : State :=
  match s.gaf.running with
  | none => s
  | some r =>
    let s := s.bump .CRU_PREEMPTS_COUNT n
    if r.preempted then s
    else
      let s := ({ s with gaf := { s.gaf with running := some { r with preempted := true } } }).bump .GAF_PREEMPTS_COUNT
      r.tenants.eraseDups.foldl (fun s t => s.bump .ADM_TEN_PREEMPTED_COUNT t) s

/-! ## The tile that a core takes next (R208, R221, R269) -/

/-- A core may take another tile: its domain is ON, its page is ENABLED, and no checkpoint has stopped the cores (R416). -/
def State.takesTiles (s : State) (n : Nat) : Bool :=
  s.reg .PWR_DOM_STAT_STATE n == 0 && s.enabled (pgCru + n)
    && (s.freeze == 0 || (s.freeze == 1 && s.regBit .CKP_CFG_AT_BOUNDARY && s.gaf.running.isSome))

/-- The urgent reserve of a core and its working region, in MiB (R192): 0 is taken as 1, above 4 as 4. -/
def State.urgentMib (s : State) (n : Nat) : Nat := max 1 (min 4 (s.reg .CRU_SRAM_URGENT_MIB n))
def State.workingMib (s : State) (n : Nat) : Nat := 16 - s.resMib n - s.urgentMib n

/-- The shared region of a cluster's SRAM, in MiB (R192). -/
def State.sharedMib (s : State) (k : Nat) : Nat := 32 - s.reg .CRU_CLU_SR_MIB k - s.reg .CRU_CLU_WIN_MIB k

/-- The half of the weight window that a tile needs does not hold its slab yet (R221). A resident model uses no window (R222). -/
def State.lacksHalf (s : State) (n : Nat) (t : NextTile) : Bool :=
  match t.needs with
  | none => false
  | some (half, slab) =>
    !(s.model t.model).resident && ((s.windows.get? (n / 16 * 2 + b2n half)).map (·.slab)) != some slab

/-- A core takes its next tile, or waits for a half of the weight window. -/
def State.takeTile (s : State) (n : Nat) (t : NextTile) : State :=
  if t.urgent && !decide (t.reserve ≤ s.urgentMib n * 1048576) then (s.complete t.job .internal).recErr pgGaf 0x0002
  else if t.urgent && !s.urgentMay then s.urgentCap
  else
    let s := if t.urgent then s.preempt n else s
    if s.lacksHalf n t then s.setCore n { s.core n with waits := some t } else s.startTile n t

/-! ## Accounts of a tile (R506 to R508, R519) -/

/-- Shares of `n` slots by weights: each its floor, the remainder to the first. -/
def shareOut (n : Nat) (ws : List Nat) : List Nat :=
  let total := max 1 ws.sum
  let l := ws.map (fun w => n * w / total)
  match l with
  | [] => []
  | a :: r => (a + (n - l.sum)) :: r

/-- Tenant and class, as tenant × 8 + class, of a session or of a command. -/
def State.keyOfSlot (s : State) (k : Nat) : Nat := ((s.session? k).map (fun x => x.tenant * 8 + x.cls % 8)).getD 0
def State.keyOfCmd (s : State) (id : Nat) : Nat := ((s.cmd? id).map (fun c => c.tenant * 8 + c.desc.cls)).getD 0

/-- Shares of a tile as (owner, tenant × 8 + class, slots). -/
def State.tileShares (s : State) (ran : TileRan) (n : Nat) : List (Nat × Nat × Nat) :=
  if ran.jobs.isEmpty then
    (ran.rows.zip (shareOut n (ran.rows.map (fun _ => 1)))).map (fun (k, w) => (k, s.keyOfSlot k, w))
  else (ran.jobs.zip (shareOut n (ran.jobs.map (·.2)))).map (fun ((id, _), w) => (id, s.keyOfCmd id, w))

/-- The record of a tagged tile but for T_DONE and the outcome (R519); the ticks never decrease. -/
def State.tagBytes (s : State) (n kind model : Nat) (urgent : Bool) (ran : TileRan) (first : Option Nat) : List Byte :=
  let start := min ran.start s.tick
  let ready := min ran.ready start
  let queued := min ran.queued ready
  let isJob := !ran.jobs.isEmpty
  let key := first.getD 0
  leBytes kind 1 ++ leBytes (b2n urgent + 4 * b2n ran.windowWait + 8 * b2n ran.preempted) 1 ++ leBytes n 2
    ++ leBytes model 1 ++ leBytes (key % 8) 1 ++ leBytes (key / 8) 2
    ++ leBytes (if isJob then 0 else s.reg .GAF_STEP_SEQ_COUNT) 8
    ++ leBytes (if isJob then ran.jobs.length else ran.rows.length) 4
    ++ leBytes (if isJob then 0xFFFF else ran.layer) 2 ++ leBytes 0 2
    ++ leBytes queued 8 ++ leBytes ready 8 ++ leBytes start 8 ++ leBytes s.tick 8

/-- Starved slots count as they pass (R506). -/
def State.countStarved (s : State) (n : Nat) (ran : TileRan) : State :=
  if s.enabled (pgTel + 1) = false then s
  else
    let s := (s.bump .TEL1_CORE_FRONT_COUNT n ran.front).bump .TEL1_DEV_FRONT_COUNT 0 ran.front
    let s := (s.bump .TEL1_CORE_BACK_COUNT n ran.back).bump .TEL1_DEV_BACK_COUNT 0 ran.back
    (s.tileShares ran ran.back).foldl (fun s e => s.bump .TEL1_TEN_BACK_COUNT e.2.1 e.2.2) s

/-- Keep the account of a tile until its outcome is settled; a tile of a step that has already ended without commit, or of a
job that has completed, is settled at once. -/
def State.openAcct (s : State) (n : Nat) (ran : TileRan) (tag : Option (List Byte)) : State :=
  let isJob := !ran.jobs.isEmpty
  let sh := s.tileShares ran ran.cycles
  let idx := sh.zip (List.range sh.length)
  let out := if isJob then [] else (idx.filter (fun e => ran.exits.contains e.2)).map (fun e => (e.1.2.1, e.1.2.2))
  let keep := if isJob then sh else (idx.filter (fun e => !ran.exits.contains e.2)).map (·.1)
  let a : TileAcct := { core := n, isJob := isJob, shares := keep, exits := out, tag := tag }
  if sh.isEmpty then (s.countSlots n none false ran.cycles).settleAcct a (fun _ => false)
  else if isJob then
    if keep.any (fun e => s.cmds.has e.1) then { s with tel := { s.tel with accts := s.tel.accts ++ [a] } }
    else s.settleAcct a (fun _ => false)
  else if s.gaf.running.isSome then { s with tel := { s.tel with accts := s.tel.accts ++ [a] } }
  else s.settleAcct a (fun _ => true)

/-! ## The end of a tile (R207, R208, R223) -/

/-- Counters of a tile that has ended. -/
def State.countTile (s : State) (n : Nat) (out : TileOut) (ran : TileRan) : State :=
  let s := (s.bump .CRU_TILES_COUNT n).bump .CRU_BUSY_CYCLES_COUNT n ran.cycles
  let s := ((s.bump .CRU_SATURATIONS_COUNT n out.sats).bump .CRU_NAN_ZEROED_COUNT n out.zeros).bump .CRU_ZERO_SKIPS_COUNT n
    out.skips
  let s := if out.sparse then s.bump .CRU_SPARSE_TILES_COUNT n else s
  let s := (s.bump .CRU_ECC_CORRECTED_COUNT n ran.corrected).raiseReg .CRU_MAX_TILE_CYCLES ran.cycles n
  if 7200 < ran.cycles then
    ((s.bump .CRU_OVERRUNS_COUNT n).setIntBit (pgCru + n) 8).recErr (pgCru + n) 0x0001
  else s

/-- Urgent cycles of the window, and urgent jobs whose tiles ran (R270, R280). -/
def State.countUrgent (s : State) (ran : TileRan) : State :=
  let s := if s.gaf.running.isSome then { s with gaf := { s.gaf with urgentCycles := s.gaf.urgentCycles + ran.cycles } }
    else s
  let fresh := (ran.jobs.map (·.1)).eraseDups.filter (fun id => !s.gaf.urgentJobs.contains id)
  let kept := s.gaf.urgentJobs.filter (fun id => s.cmds.has id)
  ({ s with gaf := { s.gaf with urgentJobs := fresh ++ kept } }).bump .GAF_URGENT_JOBS_COUNT 0 fresh.length

/-- The tile that has ended is no longer shown, and a clock switch that waited for the boundary takes place (R479). -/
def State.clearTile (s : State) (n : Nat) (words : List Nat) : State :=
  let c := { s.core n with tileKind := 0, tileModel := 0, tileUrgent := false, tagged := false, out := words }
  let s := s.setCore n c
  let s := match c.swTo with
    | some p => s.clockSwitch n p
    | none => s
  s.safePoint (pgCru + n)

/-- What a tile is shown as where none was seen to start: the core was idle, and the tile starts and ends here. -/
def State.retroTile (s : State) (kind : Nat) (ran : TileRan) : NextTile :=
  { kind := kind
    model := if ran.jobs.isEmpty then (s.gaf.running.map (·.model)).getD 0 else 0
    urgent := ran.jobs.any (fun j => ((s.cmd? j.1).map s.urgentCmd).getD false) }

/-! ## What a tile computes (R206) -/

/-- The parameters that a model's layer program gives a layer. -/
def State.layerOf (s : State) (model layer : Nat) : Option LayerProg := (s.model model).program[layer]?

/-- A matrix tile (R201 to R204, R209): B's rows come from the model's weights, with its tensor and channel scales (R200), or are
binary codes. -/
def State.runMatrix (s : State) (model layer : Nat) (skip : Bool) (w : MatWork) : TileOut :=
  let m := s.model model
  let split := ((s.layerOf model layer).map (·.split)).getD 0
  let rows (k : Nat) : List MRow := w.a.map (MRow.ofBytes w.fa k false)
  let run (k fb : Nat) (bs : List MRow) (tsB : Word) (chans : List Word) (sparse : Bool) : TileOut :=
    let as := rows k
    let out := TileOut.join ((as.zip (List.range as.length)).map (fun (a, i) =>
      matrixRow w.fa fb a bs split (w.tensorA.getD i f32one) tsB chans w.out w.dot))
    { out with skips := if skip then zeroTiles w.fa (as.map (·.elems)) else 0, sparse := sparse }
  match w.b with
  | .codes k bs => run k 0x11 (bs.map (MRow.ofBytes 0x11 k false)) f32one [] false
  | .tensor i first n =>
    match m.tensors[i]? with
    | none => {}
    | some t =>
      let js := (List.range n).map (· + first)
      run t.k t.format (js.map (t.row m.weights)) t.scale (js.map (t.channel m.weights)) t.sparse

/-- The page of a session that a tile works on. -/
def State.viewOf (s : State) (slot page : Nat) : Option PageView :=
  (s.session? slot).bind (fun x => (s.pageViews x)[page]?)

/-- An attention tile: the partials of its page, row by row and head by head (R231, R235). -/
def State.runAttention (s : State) (model layer : Nat) (w : AttnWork) : TileOut :=
  match s.layerOf model layer, s.viewOf w.slot w.page with
  | some a, some v =>
    { words := w.rows.flatMap (fun (t, qs) => (qs.zip (List.range qs.length)).flatMap (fun (q, h) =>
        match (s.model model).partialOf layer a t h q v with
        | some (p, _) => p.m.toNat :: p.l.toNat :: p.o.map (·.toNat)
        | none => [])) }
  | _, _ => {}

/-- The summary bound of a page for a row (R237). -/
def State.runBound (s : State) (model layer slot page : Nat) (qs : List (List Word)) : TileOut :=
  match s.layerOf model layer, s.viewOf slot page with
  | some a, some v => outWords [(s.model model).boundOf layer a qs v]
  | _, _ => {}

/-- What a tile of a model and layer computes; `skip` is CRU_CFG.ZERO_SKIP_EN. -/
def State.runTile (s : State) (model layer : Nat) (skip : Bool) : TileWork → TileOut
  | .matrix w => s.runMatrix model layer skip w
  | .attention w => s.runAttention model layer w
  | .vector (.bound slot page qs) => s.runBound model layer slot page qs
  | .vector w => w.run
  | .dma bs => { words := bs.map (·.toNat) }
  | .sortUnique ks ps fl => sortOut ks ps fl

/-- A matrix tile has formats that pair, a readout that its class has, and a weight operand within 256 KiB (R201, R206). -/
def State.matrixOk (s : State) (model : Nat) (w : MatWork) : Bool :=
  match w.b with
  | .codes _ _ => w.fa == 0x11 && w.out == 0x0F
  | .tensor i first n =>
    match (s.model model).tensors[i]? with
    | none => false
    | some t =>
      pairOk w.fa t.format && decide (first + n ≤ t.rows) && decide (n * t.rowBytes ≤ 262144)
        && (if matClass w.fa = 3 then w.out == 0x0F
            else if matClass w.fa ≠ 1 ∧ matClass t.format ≠ 1 then w.out == 0x0F || w.out == 0x01
            else decide (1 ≤ w.out) && decide (w.out ≤ 0x12))

/-- The engines accept the tile's work (R194, R206, R235): an engine never receives what the table of R194 does not give it. -/
def State.workOk (s : State) (model : Nat) : TileWork → Bool
  | .matrix w => s.matrixOk model w
  | .attention w => decide (w.rows.length ≤ 64)
  | .vector (.quantize f _) => decide (1 ≤ f) && decide (f ≤ 0x12)
  | .vector _ => true
  | .dma _ => true
  | .sortUnique ks _ _ => decide (ks.length ≤ 65536) && ks.all (fun k => decide (k < 2 ^ 48))

/-- A tile ends on a core. -/
def State.tileEnd (s : State) (n : Nat) (work : TileWork) (ran : TileRan) (next : Option NextTile) : State :=
  let s := if (s.core n).tileKind = 0 then s.startTile n (s.retroTile work.kind ran) else s
  let c := s.core n
  let out := s.runTile c.tileModel ran.layer (s.regBit .CRU_CFG_ZERO_SKIP_EN n) work
  let s := s.countTile n out ran
  let s := s.countStarved n ran
  let s := (ran.jobs.map (·.1)).foldl State.progressCmd (ran.rows.foldl State.progressStep s)
  let key := ((s.tileShares ran ran.cycles).head?).map (·.2.1)
  let s := s.openAcct n ran (if c.tagged then some (s.tagBytes n work.kind c.tileModel c.tileUrgent ran key) else none)
  let s := if c.tileUrgent then s.countUrgent ran else s
  let s := s.clearTile n out.words
  let s := match next with
    | some t => if s.takesTiles n then s.takeTile n t else s
    | none => s
  s.showHeld

/-- The core runs a tile of that kind, or may have started it: it is ON, not FAILED, and waits for no half of the window. -/
def State.tileMayEnd (s : State) (n kind : Nat) : Bool :=
  s.reg .PWR_DOM_STAT_STATE n == 0 && !s.failed (pgCru + n) && (s.core n).waits.isNone
    && (if (s.core n).tileKind = 0 then s.enabled (pgCru + n) else (s.core n).tileKind == kind)

/-- The model of the tile that ends on a core. -/
def State.tileModelOf (s : State) (n kind : Nat) (ran : TileRan) : Nat :=
  if (s.core n).tileKind = 0 then (s.retroTile kind ran).model else (s.core n).tileModel

/-- The row TILE_END. -/
def execTileEnd (core : BitVec 7) (work : TileWork) (ran : TileRan) (next : Option NextTile) (s : State) :
    Host.Outcome State Fault Refusal :=
  .next (if s.tileMayEnd core.toNat work.kind && s.workOk (s.tileModelOf core.toNat work.kind ran) work then
    s.tileEnd core.toNat work ran next else s)

/-! ## The weight window (R221, R223) -/

/-- The model whose weights a window streams: that of the running step. -/
def State.streamModel (s : State) : Nat := (s.gaf.running.map (·.model)).getD 0

/-- Bytes of a half of a cluster's window. -/
def State.halfBytes (s : State) (k : Nat) : Nat := s.reg .CRU_CLU_WIN_MIB k * 2 ^ 20 / 2

/-- The streamer has filled a half with a slab, of at most the half's bytes. -/
def State.fillHalf (s : State) (k : Nat) (half : Bool) (slab bytes : Nat) : State :=
  { s with windows := s.windows.set (k * 2 + b2n half)
             { slab := slab, bytes := min bytes (s.halfBytes k), model := s.streamModel } }

/-- A core that waited starts its tile once the half holds the slab that it needs. -/
def State.wakeCore (s : State) (n : Nat) : State :=
  match (s.core n).waits with
  | some t => if s.lacksHalf n t then s else s.startTile n t
  | none => s

/-- The row WINDOW_HALF_FILLED: the half and the slab in it, bytes filled, and cycles that cores of the cluster spent waiting for the
half. -/
def execWindowHalfFilled (filled : WindowSlab) (bytes stalls : Nat) (s : State) : Host.Outcome State Fault Refusal :=
  let k := filled.cluster.toNat
  let s := (s.bump .CRU_CLU_WIN_BYTES_COUNT k (min bytes (s.halfBytes k))).bump .CRU_CLU_WIN_STALLS_COUNT k stalls
  .next ((clusterCores k).foldl State.wakeCore (s.fillHalf k filled.half filled.slab bytes)).showHeld

/-! ## Uncorrectable errors of the SRAM (R225) -/

/-- A core goes FAILED and takes no further tile. -/
def State.failCore (s : State) (n code : Nat) : State :=
  let s := s.setCore n { s.core n with tileKind := 0, tileModel := 0, tileUrgent := false, tagged := false, waits := none }
  (s.setIntBit (pgCru + n) 9).failPage (pgCru + n) code

/-- The row CORE_SRAM_UE. -/
def execCoreSramUe (core : BitVec 7) (s : State) : Host.Outcome State Fault Refusal :=
  let n := core.toNat
  .next (if s.domState n = 2 ∨ s.failed (pgCru + n) = true then s
    else (s.failCore n 0x0002).abortStep.showHeld)

/-- The row CLUSTER_SRAM_UE: as for the cores' SRAM on every core of the cluster, its seats are released and the halves of its
window discarded. -/
def execClusterSramUe (cluster : BitVec 3) (s : State) : Host.Outcome State Fault Refusal :=
  let k := cluster.toNat
  .next (if s.domState (128 + k) = 2 then s
    else
      let s := (clusterCores k).foldl (fun s n => if s.failed (pgCru + n) then s else s.failCore n 0x0003) s
      (s.abortStep.clearCluster k).showHeld)

end Sys2Proof.Machine
end

