-- ==== Sys2Proof/Machine/Readout.lean ====
section
/-!
DEFINITION. What the registers of BAR 0 read as (R10, R11, R28, R36): the fields that show the state of their block, and a
32-bit register of a page assembled from the fields in it.
-/
namespace Sys2Proof.Machine

/-! ## Fields that show the state of their block -/

/-- L_c of R221: the most bytes that a layer of the model streams into a cluster when every expert is routed, spread evenly over the
clusters (log entry 45). -/
def Model.layerShare (m : Model) : Nat :=
  ceilDiv (((List.range m.layout.layers).map (fun l =>
    ((m.tensors.filter (fun t => t.layer == l)).map Tensor.bytes).sum)).foldl max 0) 8

/-- W of R221 of a model at the current CLU_WIN; 0 when striped or resident. -/
def State.windowLayers (s : State) (m : Model) : Nat :=
  if m.resident || !m.loaded || m.layerShare == 0 then 0 else s.halfBytes 0 / m.layerShare

/-- Free 64 KiB units of a cluster's step-record region. -/
def State.seatsFree (s : State) (k : Nat) : Nat := s.seatUnits k - ((s.seatsTaken k).map (·.2)).sum

/-- Sessions with a residency code. -/
def State.withResidency (s : State) (code : Nat) : Nat :=
  (s.sdir.sess.values.filter (fun x => x.residency.code == code)).length

/-- HBM units of 64 KiB that are tagged to a tenant: those it holds, and those that it has released in its closing. -/
def State.unitsTagged (s : State) (t : Nat) : Nat := ceilDiv (s.heapOf t) 16 + s.stm.finePend.getD t 0

/-- A selective stream that is active leaves on a port (R404). -/
def State.portIde (s : State) (n : Nat) : Bool :=
  s.mapEntries.any (fun i => bitAt (s.reg .FAM_MAP_PORTS_PORTS i) n
    && ((s.sec.streams.get? (s.reg .FAM_MAP_PORTS_IDE_STREAM i)).map (·.active)).getD false)

/-- Numbers of the block pages that a test holds of, as a bit map (R522). -/
def State.pageMap (s : State) (p : Common → Bool) : Nat :=
  ((s.commons.entries.filter (fun e => decide (e.1 < 384) && p e.2)).map (fun e => 2 ^ e.1)).sum

def State.errMap (s : State) : Nat := s.pageMap (·.err)
def State.failedMap (s : State) : Nat := s.pageMap (fun c => c.state == 0xFF)

/-- Groups of a collection on flash, in MiB, rounded down. -/
def State.collMib (s : State) (k : Nat) : Nat := (s.coll k).groups * s.groupBytes k / 2 ^ 20

def State.modelField (s : State) (i : Nat) : Reg → Nat
  | .CRU_MODEL_STAT_LOADED => b2n (s.model i).loaded
  | .CRU_MODEL_STAT_RESIDENT => b2n ((s.model i).loaded && (s.model i).resident)
  | .CRU_MODEL_STAT_PRIVATE => b2n ((s.model i).loaded && (s.model i).isPrivate)
  | .CRU_MODEL_STAT_TENANT => if (s.model i).loaded && (s.model i).isPrivate then (s.model i).tenant else 0
  | .CRU_MODEL_STAT_W => s.windowLayers (s.model i)
  | .CRU_MODEL_BYTES_COUNT => (s.model i).bytes
  | .CRU_MODEL_SESSIONS_COUNT => s.modelUsers i
  | .CRU_MODEL_FREE_GIB => (s.modelSize - s.modelUsed) / 2 ^ 30
  | .CRU_MODEL_FP_FP => if (s.model i).loaded then (s.model i).fp else 0
  | r => s.reg r i

def State.vocabField (s : State) (i : Nat) : Reg → Nat
  | .MRV_VOCAB_STAT_LOADED => b2n (s.vocab? i).isSome
  | .MRV_VOCAB_STAT_PRESPLIT => b2n (((s.vocab? i).map (·.presplit)).getD false)
  | .MRV_VOCAB_STAT_MAX_LEN => ((s.vocab? i).map (·.maxLen)).getD 0
  | .MRV_VOCAB_TOKENS_COUNT => ((s.vocab? i).map (·.tokens.length)).getD 0
  | .MRV_VOCAB_MERGES_COUNT => ((s.vocab? i).map (·.merges.length)).getD 0
  | .MRV_VOCAB_EOS_TOKEN => ((s.vocab? i).map (·.eos)).getD 0
  | .MRV_VOCAB_ELIDE_TOKEN => ((s.vocab? i).map (·.elide)).getD 0
  | .MRV_VOCAB_DIGEST_DIGEST => ((s.vocab? i).map (·.digest)).getD 0
  | .MRV_FREE_TOKENS_COUNT => s.freeTokens
  | .MRV_FREE_MERGES_COUNT => s.freeMerges
  | .MRV_FREE_BYTES_COUNT => s.freeTokenBytes
  | r => s.reg r i

def State.constraintField (s : State) (i : Nat) : Reg → Nat
  | .JCK_STORE_FREE_MIB => (s.storeSize - s.storeUsed) / 2 ^ 20
  | .JCK_OBJ_STAT_LOADED => b2n (s.objects.has i)
  | .JCK_OBJ_STAT_MODEL => ((s.objects.get? i).map (·.model)).getD 0
  | .JCK_OBJ_BYTES_COUNT => ((s.objects.get? i).map (·.bytes)).getD 0
  | .JCK_OBJ_USERS_COUNT => s.objectUsers (i / 65536 / 8) (i / 65536 % 8) (i % 65536)
  | r => s.reg r i

def State.rowField (s : State) (i : Nat) : Reg → Nat
  | .EMB_TBL_TAINTED_COUNT => (s.emb.taint.filter (fun k => k / 2 ^ 32 == i)).length
  | .EMB_MODEL_OBS_D_OBS => if (s.model (i + 1)).loaded then (s.model (i + 1)).layout.dObs else 0
  | .EMB_HOT_ROW_ROW => ((s.emb.hot.get? i).map (·.row)).getD 0
  | .EMB_HOT_ROW_TABLE => ((s.emb.hot.get? i).map (·.table)).getD 0
  | .EMB_HOT_ROW_VALID => b2n (s.emb.hot.has i)
  | .EMB_HOT_ROW_SWITCH_PEND => b2n (((s.emb.hot.get? i).map (·.pend.isSome)).getD false)
  | .EMB_HOT_STAT_COPY_MASK => ((s.emb.hot.get? i).map (·.mask)).getD 0
  | .EMB_HOT_STAT_INFLIGHT => min 65535 (((s.emb.hot.get? i).map (·.inflight)).getD 0)
  | .EMB_HOT_COUNT_COUNT => ((s.emb.hot.get? i).map (·.count)).getD 0
  | .EMB_HOT_SEQ_ROW_SEQ => ((s.emb.hot.get? i).map (·.seq)).getD 0
  | .SRCH_TOMB_USED_COUNT => s.srch.tombs.length
  | .SRCH_FLASH_FREE_GIB => (s.collSpace - s.collFlash) / 2 ^ 30
  | .SRCH_COLL_SEQ_SEQ => (s.coll i).seq
  | .SRCH_COLL_STAT_HALF => b2n (s.coll i).half
  | .SRCH_COLL_STAT_COMPACTING => b2n (s.coll i).compacting
  | .SRCH_COLL_STAT_FAILED => b2n (s.coll i).failed
  | .SRCH_COLL_PARTS_COUNT => (s.coll i).nodes.size
  | .SRCH_COLL_RECORDS_COUNT => (s.coll i).records
  | .SRCH_COLL_FLASH_MIB => s.collMib i
  | r => s.reg r i

def State.secField (s : State) (i : Nat) : Reg → Nat
  | .SEC0_ISLAND_LIFECYCLE => s.plat.lifecycle
  | .SEC0_ISLAND_DEBUG_OPEN => b2n s.debugOpen
  | .SEC1_STAGED_COUNT => s.sec.staged.size
  | .SEC1_KEY_INFO_KIND => ((s.sec.staged.get? i).map (·.kind)).getD 0
  | .SEC1_KEY_INFO_OWNER => ((s.sec.staged.get? i).map (·.owner)).getD 0
  | .SEC1_KEY_INFO_VALID => b2n (s.sec.staged.has i)
  | .SEC1_KEY_REF_REF => ((s.sec.staged.get? i).map (·.ref)).getD 0
  | .SEC2_TEN_STATE_STATE =>
    match (s.tenant i).state with
    | .closed => 0
    | .opened => 1
    | .closing => 2
    | .fining => 3
  | .SEC2_TEN_STATE_LOCAL_ONLY => b2n (s.tenant i).localOnly
  | .SEC2_TEN_STATE_TTKS => (s.tenant i).ttks.length
  | .SEC2_TEN_TTK_REF_REF => (s.tenant i).ttks.headD 0
  | .SEC2_TEN_UNITS_COUNT => s.unitsTagged i
  | .SEC2_CKPT_REF_REF => s.sec.ckk.getD 0
  | .SEC2_SET_INFO_MEMBER => ((s.sec.setKeys.get? i).map (·.owner)).getD 0
  | .SEC2_SET_INFO_VALID => b2n (s.sec.setKeys.has i)
  | .SEC2_SET_REF_REF => ((s.sec.setKeys.get? i).map (·.ref)).getD 0
  | .SEC3_STREAM_STAT_ACTIVE => b2n (s.stream i).active
  | .SEC3_STREAM_STAT_FAILED => b2n (s.stream i).failed
  | .SEC3_STREAM_STAT_KEY_SET => b2n (s.stream i).keySet
  | .SEC3_STREAM_GEN_GEN => (s.stream i).gen
  | r => s.reg r i

def State.platField (s : State) (i : Nat) : Reg → Nat
  | .RST_BOOTS_COUNT => s.plat.boots
  | .BIST_STORE_CURRENT => ((s.plat.current).map (·.1)).getD 0
  | .BIST_STORE_A_VALID => b2n s.plat.bankA.valid
  | .BIST_STORE_B_VALID => b2n s.plat.bankB.valid
  | .BIST_A_WRITES_COUNT => s.plat.writesA
  | .BIST_B_WRITES_COUNT => s.plat.writesB
  | .TEL0_ERR_MAP_MAP => s.errMap
  | .TEL0_FAILED_MAP_MAP => s.failedMap
  | r => s.reg r i

def State.sessionField (s : State) (i : Nat) : Reg → Nat
  | .GLB_TICK_TICK => s.tick
  | .GLB_BOOT_EPOCH_EPOCH => s.bootEpoch
  | .SDIR_QUOTA_USED_USED => s.quotaUsed i
  | .SDIR_ALLOCATED_COUNT => s.sdir.sess.size
  | .SDIR_RETIRED_COUNT => s.sdir.retired.length
  | .SDIR_RES_COUNT_COUNT => s.withResidency (i + 1)
  | .STM_WEAR_LEVEL_BYTES => (s.wear % (2 ^ 64 : Int)).toNat
  | .STM_FLASH_FREE_GIB => if s.pageState pgStm = 0 then 0 else s.flashFree / 2 ^ 30
  | .STM_HEAP_FREE_GIB => s.heapFree / 16384
  | .CANE_NODES_USED_COUNT => s.cane.nodes.size
  | .CANE_RECORDS_USED_COUNT => s.cane.recs.size
  | .CANE_FREE_PENDING_COUNT => s.cane.reclaim.length
  | .CRU_CLOCK_PLL => b2n (s.core i).onPll
  | .CRU_CLOCK_MHZ => s.coreMhz i
  | .CRU_TILE_KIND => (s.core i).tileKind
  | .CRU_TILE_MODEL => (s.core i).tileModel
  | .CRU_TILE_URGENT => b2n (s.core i).tileUrgent
  | .CRU_CLU_SEATS_FREE_UNITS => s.seatsFree i
  | .ADM_VT_URGENT_VT => s.adm.vtUrgent
  | .ADM_VT_NORMAL_VT => s.adm.vtNormal
  | .ADM_Q_DEPTH_CMDS_COUNT => ((s.adm.queues.get? i).map (·.cmds.length)).getD 0
  | .ADM_Q_DEPTH_BYTES_BYTES => min (2 ^ 32 - 1) (((s.adm.queues.get? i).map s.depthBytes).getD 0)
  | .FAB_LINK_IDE => b2n (s.portIde i)
  | .FAM_OUTSTANDING_COUNT => s.outstanding
  | .FAM_DEAD_STAT_DEAD => b2n (s.fam.dead.contains i)
  | .FAM_DEAD_STAT_WALKING => b2n (s.fam.walking.contains i)
  | r => s.reg r i

/-- The value that a read of copy `i` of a field returns (R10): 0 for W1S and WO fields, the shadow for RWS fields. -/
def State.readField (s : State) (r : Reg) (i : Nat) : Nat :=
  match r.desc.acc with
  | .w1s | .wo => 0
  | .rws => (s.shadow.get? (r.key i)).getD (s.reg r i)
  | _ =>
    let p := r.desc.page
    (if p = pgCru ∧ 0x300 ≤ r.desc.off then s.modelField i r
    else if p = pgMrv then s.vocabField i r
    else if p = pgJck then s.constraintField i r
    else if p = pgEmb ∨ p = pgSrch then s.rowField i r
    else if 8 ≤ p ∧ p ≤ 11 then s.secField i r
    else if p = pgRst ∨ p = pgBist ∨ p = pgTel then s.platField i r
    else if r = .PWR_LIMITED_10US_COUNT then min (2 ^ 64 - 1) (s.reg r + s.limitedNow)
    else s.sessionField i r) % 2 ^ r.desc.width

/-! ## Registers of 32 bits -/

/-- Work of the block is in progress (STATUS.BUSY): a long operation, an initialisation, or what its engine has begun and not
ended; an operation that a command does at one stroke never shows (log entry 109). -/
def State.busy (s : State) (p : Nat) : Bool :=
  (s.common p).busy
    || (if p = pgGaf then s.gaf.running.isSome
        else if p = pgSdir then s.sdir.init || !s.sdir.missing.isEmpty
        else if p = pgStm then s.stm.moves.values.any (fun m => m.ctx.isSome)
        else if p = pgCane then !s.cane.reclaim.isEmpty
        else if p = pgEvic then s.sdir.sess.values.any (fun x => x.compact.isSome)
        else if p = pgSec then s.sec.pass.isSome || s.pageState p == 2
        else if p = pgFam then !s.fam.reqs.entries.isEmpty || !s.fam.walking.isEmpty
        else if pgFab ≤ p ∧ p < pgFab + 8 then ((s.fam.ports.get? (p - pgFab)).map (·.training)).getD false
        else if p = pgTel then s.tel.dump.isSome
        else if p = pgEmb then s.emb.batch.isSome
        else if p = pgSrch then s.srch.batch.isSome || s.srch.compact.isSome
        else if p = pgCkp then s.ckp.run.isSome || s.ckp.restore.isSome || s.pageState p == 2
        else if pgCru ≤ p ∧ p < pgCru + 128 then (s.core (p - pgCru)).tileKind != 0
        else false)

/-- The common registers of a page (R28). -/
def State.commonReg (s : State) (p off : Nat) : Nat :=
  let c := s.common p
  match blockOf p with
  | none => 0
  | some (first, _, _) =>
    if off = 0x000 then (first + 0x100) * 65536 + (p - first)
    else if off = 0x004 then 0x010000A1
    else if off = 0x008 then b2n c.en + 8 * b2n c.hold
    else if off = 0x00C then
      b2n (s.busy p) + 2 * b2n c.err + 4 * b2n c.lockErr + 8 * b2n c.shadowPend + 256 * c.state
    else if off = 0x010 then c.int.toNat
    else if off = 0x014 then c.intEn.toNat
    else if off = 0x01C then c.code
    else if off = 0x020 then c.position + 2 ^ 24 * c.percent + 2 ^ 31 * b2n c.valid
    else 0

/-- Copy of a field that a page and an offset name: none where the page has no such field. -/
def State.copyAt (s : State) (r : Reg) (p off : Nat) : Option Nat :=
  let d := r.desc
  if p < d.page ∨ d.pageStep = 0 then none
  else
    let k := (p - d.page) / d.pageStep
    if d.pages ≤ k ∨ (p - d.page) % d.pageStep ≠ 0 then none
    else if d.pages ≠ 1 then some k
    else if d.count ≠ 1 then
      if off < d.off ∨ d.stride = 0 then none
      else if (off - d.off) / d.stride < d.count then some ((off - d.off) / d.stride) else none
    else some (s.bankIndex d.bank)

/-- Byte offset of the register of a copy in its page. -/
def Reg.offOf (r : Reg) (i : Nat) : Nat := if r.desc.count = 1 then r.desc.off else r.desc.off + i * r.desc.stride

/-- The bits of a field in the 32-bit register at an offset. -/
def State.fieldBits (s : State) (p off : Nat) (r : Reg) : Nat :=
  match s.copyAt r p off with
  | none => 0
  | some i =>
    let base := r.offOf i
    if off < base then 0 else bitsOf (s.readField r i * 2 ^ r.desc.lo) (8 * (off - base)) 32

/-- STATUS.STATE of a ring page. -/
def RingState.code : RingState → Nat
  | .disabled => 0
  | .enabled => 1
  | .draining => 2
  | .halted => 3

/-- The 64-bit value of a base register of a ring. -/
def baseReg (inWindow : Bool) (base : Nat) : Nat := base + b2n inWindow

/-- The 32-bit register at an offset of the page of ring `n` (R37); doorbells and PUSH read 0. BUSY shows while descriptors are
outstanding and while the ring drains (log entry 109). -/
def State.ringReg (s : State) (n off : Nat) : Nat :=
  let r := s.ring n
  if off = 0x008 then b2n r.en
  else if off = 0x00C then
    b2n (r.outstanding != 0 || r.state == .draining) + 2 * b2n r.err + 4 * b2n r.lockErr + 256 * r.state.code
  else if off = 0x010 then r.int.toNat
  else if off = 0x014 then r.intEn.toNat
  else if off = 0x01C then r.code
  else if off = 0x040 then 0x0300 * 65536 + n
  else if off = 0x044 then 0x010000A1
  else if off = 0x048 then r.tenant + 4096 * b2n r.admin + 8192 * b2n r.bound
  else if off = 0x04C then r.winBase + 65536 * r.winUnits
  else if off = 0x050 then baseReg r.sqInWindow r.sqBase % 2 ^ 32
  else if off = 0x054 then baseReg r.sqInWindow r.sqBase / 2 ^ 32
  else if off = 0x058 then baseReg r.cqInWindow r.cqBase % 2 ^ 32
  else if off = 0x05C then baseReg r.cqInWindow r.cqBase / 2 ^ 32
  else if off = 0x060 then r.sqLog2 + 256 * r.cqLog2
  else if off = 0x064 then r.vector
  else if off = 0x068 then r.coalCount + 65536 * r.coalTime
  else if off = 0x070 then r.sqHead.toNat
  else if off = 0x074 then r.cqTail.toNat
  else if off = 0x078 then r.outstanding
  else if off = 0x07C then r.dropped
  else 0

/-- The 32-bit register at an offset of a block page or ring page; a page that no block has reads 0 (R27). -/
def State.read32 (s : State) (p off : Nat) : Nat :=
  if 512 ≤ p ∧ p < 768 then s.ringReg (p - 512) off
  else if off < 0x40 then s.commonReg p off else (Reg.all.map (s.fieldBits p off)).sum

/-- What a read of `n` bytes at an offset in BAR 0 returns: 32 bits, or two registers with the lower address in bits [31:0]; a
read of another width or alignment returns all ones (R11). -/
def State.readBar0 (s : State) (off n : Nat) : Nat :=
  let word (o : Nat) : Nat := s.read32 (o / 4096) (o % 4096)
  if n = 4 ∧ off % 4 = 0 then word off
  else if n = 8 ∧ off % 8 = 0 then word off + 2 ^ 32 * word (off + 4)
  else 0xFFFFFFFF

/-- `n` registers from an offset of a page, as bytes. -/
def State.readPage (s : State) (p off n : Nat) : List Byte :=
  (List.range n).flatMap (fun k => leBytes (s.read32 p (off + 4 * k)) 4)

end Sys2Proof.Machine
end

