-- ==== Sys2Proof/Machine/Tel.lean ====
section
/-!
DEFINITION. The TEL pages: bandwidth windows, snapshots and the dumps that carry them, tag records, TEL_READ, and the enables
(R509 to R528).
-/
namespace Sys2Proof.Machine

/-! ## The records of a dump (R515 to R517) -/

/-- The pages that a dump carries, in ascending base address. -/
def dumpPages : List Nat :=
  [0, 1, 2, 3, 4, 8, 16, 17, 18, 19, 20, 24, 25, 26, 27, 28, 29] ++ (List.range 8).map (fun n => 32 + n) ++ [40]
    ++ (List.range 12).map (fun n => 48 + n) ++ (List.range 8).map (fun n => 64 + n) ++ (List.range 128).map (fun n => 256 + n)

/-- One record of each section. -/
def State.coreRecord (s : State) (n : Nat) : List Byte :=
  leBytes (s.reg .TEL1_CORE_RETIRED_COUNT n) 8 ++ leBytes (s.reg .TEL1_CORE_WASTED_COUNT n) 8
    ++ leBytes (s.reg .TEL1_CORE_FRONT_COUNT n) 8 ++ leBytes (s.reg .TEL1_CORE_BACK_COUNT n) 8

def State.portRecord (s : State) (n : Nat) : List Byte :=
  leBytes (s.reg .TEL2_PORT_RD_BYTES n) 8 ++ leBytes (s.reg .TEL2_PORT_WR_BYTES n) 8
    ++ leBytes (s.reg .TEL2_PORT_BG_BYTES n) 8 ++ leBytes (s.reg .TEL2_PORT_MAX_BYTES n) 8

def State.tenantRecord (s : State) (t : Nat) : List Byte :=
  leBytes t 2 ++ leBytes 0 6
    ++ (List.range 8).flatMap (fun c =>
      leBytes (s.reg .TEL1_TEN_RETIRED_COUNT (t * 8 + c)) 8 ++ leBytes (s.reg .TEL1_TEN_WASTED_COUNT (t * 8 + c)) 8
        ++ leBytes (s.reg .TEL1_TEN_BACK_COUNT (t * 8 + c)) 8)
    ++ leBytes (s.reg .ADM_TEN_SUBMITTED_COUNT t) 8 ++ leBytes (s.reg .ADM_TEN_COMPLETED_COUNT t) 8
    ++ leBytes (s.reg .ADM_TEN_PREEMPTED_COUNT t) 8 ++ leBytes (s.reg .ADM_TEN_MISSED_COUNT t) 8
    ++ leBytes (s.reg .ADM_TEN_DROPPED_COUNT t) 8 ++ leBytes 0 16

/-- Tenants that are OPEN, ascending. -/
def State.openTenants (s : State) : List Nat := s.tenants.keys.filter s.tenantOpen

/-- Whole records that fit in `room` bytes, how many they are, and whether all did. -/
def takeRecords : List (List Byte) → Nat → List (List Byte) × Bool
  | [], _ => ([], true)
  | r :: l, room =>
    if r.length ≤ room then
      let (t, all) := takeRecords l (room - r.length)
      (r :: t, all)
    else ([], false)

/-- Sections in order, each cut to whole records; after one that is cut, every later section is omitted. -/
def takeSections : List (List (List Byte)) → Nat → List (List (List Byte)) × Bool
  | [], _ => ([], true)
  | x :: l, room =>
    let (t, all) := takeRecords x room
    if all then
      let (u, ok) := takeSections l (room - (t.map List.length).sum)
      (t :: u, ok)
    else (t :: l.map (fun _ => []), false)

/-- A queue record of a tenant that is OPEN (R517). -/
def State.keptRecord (s : State) (r : List Byte) : Bool := s.tenantOpen (leAt r 0 4 / 8)

/-- The snapshot of the window that ended at `t`, as the bytes of its dump and whether it is truncated. -/
def State.snapshotBytes (s : State) (t us w : Nat) : List Byte × Bool :=
  let room := s.reg .TEL0_DUMP_SLOT_SIZE_KIB * 1024 - 64
  let q := s.tel.qrecs.filter s.keptRecord
  let (secs, all) := takeSections
    [dumpPages.map (fun p => s.readPage p 0 256), (List.range 128).map s.coreRecord, (List.range 84).map s.portRecord,
     s.openTenants.map s.tenantRecord, q] room
  let body := (secs.flatMap id).flatMap id
  let header := leBytes 0x504D444C45544757 8 ++ leBytes 1 2 ++ leBytes 64 2
    ++ leBytes (b2n (!all) + 2 * b2n s.tel.qlost + 4 * b2n s.tel.cleared) 4 ++ leBytes (s.tel.snapshots + 1) 8 ++ leBytes t 8
    ++ leBytes s.bootEpoch 4 ++ leBytes (64 + body.length) 4 ++ leBytes 174 2 ++ leBytes ((secs.getD 3 []).length) 2
    ++ leBytes ((secs.getD 4 []).length) 4 ++ leBytes 84 2 ++ leBytes 128 2 ++ leBytes us 4 ++ leBytes w 8
  (header ++ body, !all)

/-! ## Snapshots and dumps (R511 to R513) -/

def State.dumpSlots (s : State) : Nat := max 1 (s.reg .TEL0_DUMP_SLOTS_COUNT)
def State.onTel (s : State) (f : Tel → Tel) : State := { s with tel := f s.tel }

/-- A dump is dropped. -/
def State.dropDump (s : State) : State := (s.bump .TEL0_DUMP_DROPS_COUNT).setIntBit pgTel 9

/-- Take the snapshot of the window that ended at `t`. An earlier dump whose writes have not completed is dropped; the new one
is dropped where the ring is full. -/
def State.takeSnapshot (s : State) (t us w : Nat) : State :=
  let s := if s.tel.dump.isSome then s.dropDump.onTel (fun x => { x with dump := none }) else s
  let used := (s.reg .TEL0_DUMPS_WRITTEN_COUNT + 2 ^ 32 - s.reg .TEL0_DUMP_HEAD_COUNT) % 2 ^ 32
  let s := if !s.regBit .TEL0_CFG_DUMP_EN then s
    else if used = s.dumpSlots then s.dropDump
    else
      let (bytes, trunc) := s.snapshotBytes t us w
      s.onTel (fun x => { x with dump := some { seq := x.snapshots + 1, bytes := bytes, trunc := trunc } })
  s.onTel (fun x => { x with snapshots := x.snapshots + 1, windows := 0, qrecs := [], qlost := false, cleared := false })

/-! ## Bandwidth windows (R509, R510) -/

/-- The counts of a window move to the last-window registers of a port; the fabric ports count the payload bytes of R404. -/
def State.portWindow (s : State) (n : Nat) (c : Nat × Nat × Nat) : State :=
  let s := if s.enabled (pgTel + 2) then
      ((((s.setReg .TEL2_PORT_RD_BYTES c.1 n).setReg .TEL2_PORT_WR_BYTES c.2.1 n).setReg .TEL2_PORT_BG_BYTES c.2.2 n).raiseReg
        .TEL2_PORT_MAX_BYTES (c.1 + c.2.1) n)
    else s
  if 76 ≤ n ∧ s.pageState (fabPage (n - 76)) ≠ 0 then
    (s.bump .FAB_RX_BYTES_COUNT (n - 76) c.1).bump .FAB_TX_BYTES_COUNT (n - 76) c.2.1
  else s

/-- Length of a window in µs, as it is taken. -/
def State.bwUs (s : State) : Nat := max 10 (s.reg .TEL0_BW_WINDOW_US)

/-- The window now running ends with the counts of the ports (log entry 46). -/
def State.bwEnd (s : State) (counts : List (Nat × Nat × Nat)) : State :=
  let us := s.bwUs
  let t := s.tel.windowEnd
  let w := t / (us * 1000) - 1
  let s := (List.range 84).foldl (fun s n => s.portWindow n (counts.getD n (0, 0, 0))) s
  let s := if s.enabled (pgTel + 2) then (s.setReg .TEL2_WINDOW_SEQ_COUNT w).setReg .TEL2_WINDOW_TICK_TICK t else s
  let s := if s.enabled pgTel then
      let s := s.onTel (fun x => { x with windows := x.windows + 1 })
      if max 1 (s.reg .TEL0_DUMP_WINDOWS) ≤ s.tel.windows then s.takeSnapshot t us w else s
    else s
  let s := (((s.safePoint pgTel).safePoint (pgTel + 1)).safePoint (pgTel + 2)).safePoint (pgTel + 3)
  let len := s.bwUs * 1000
  s.onTel (fun x => { x with windowEnd := (t / len + 1) * len })

/-- The row BW_WINDOW_END, with the bytes read, written and of the background at each of the 84 ports in the window. -/
def execBwWindowEnd (counts : List (Nat × Nat × Nat)) (s : State) : Host.Outcome State Fault Refusal :=
  .next (if s.tel.windowEnd ≤ s.tick then s.bwEnd counts else s)

/-! ## Writes of the rings (R512, R514, R520, R528) -/

/-- The row DUMP_WRITE_DONE: sections and header are written. -/
def execDumpWriteDone (s : State) : Host.Outcome State Fault Refusal :=
  .next (match s.tel.dump with
    | none => s
    | some d =>
      let n := s.reg .TEL0_DUMPS_WRITTEN_COUNT
      let addr := s.reg .TEL0_DUMP_BASE_ADDR * 4096 + n % s.dumpSlots * (s.reg .TEL0_DUMP_SLOT_SIZE_KIB * 1024)
      let s := s.writeMem (s.regBit .TEL0_DUMP_BASE_IN_WINDOW) addr d.bytes
      let s := ((s.setReg .TEL0_DUMPS_WRITTEN_COUNT (n + 1)).setReg .TEL0_DUMP_SEQ_SEQ d.seq).onTel
        (fun x => { x with dump := none })
      let s := if d.trunc then (s.bump .TEL0_TRUNCS_COUNT).setIntBit pgTel 11 else s
      s.setIntBit pgTel 8)

/-- The row TAG_WRITE_DONE: the oldest waiting tag record is written. -/
def execTagWriteDone (s : State) : Host.Outcome State Fault Refusal :=
  .next (match s.tel.tags with
    | [] => s
    | r :: l =>
      let m := s.reg .TEL3_TAG_TAIL_COUNT
      let addr := s.reg .TEL3_TAG_BASE_ADDR * 4096 + m % s.tagSlots * 64
      let s := s.writeMem (s.regBit .TEL3_TAG_BASE_IN_WINDOW) addr r
      (s.setReg .TEL3_TAG_TAIL_COUNT (m + 1)).onTel (fun x => { x with tags := l }))

/-- The row TEL_RING_WRITE_FAIL: the dump, or with `tag` the oldest waiting tag record, is dropped. -/
def execTelRingWriteFail (tag : Bool) (s : State) : Host.Outcome State Fault Refusal :=
  .next (if tag then
      match s.tel.tags with
      | [] => s
      | _ :: l => ((s.onTel (fun x => { x with tags := l })).recErr (pgTel + 3) 0x0001).setIntBit (pgTel + 3) 8
    else
      match s.tel.dump with
      | none => s
      | some _ => ((s.onTel (fun x => { x with dump := none })).recErr pgTel 0x0001).setIntBit pgTel 9)

/-! ## CTRL.EN of the TEL pages (R528) -/

/-- A ring in the window lies inside BAR 2 and in the allotment of no ring. -/
def State.telRingOk (s : State) (inWindow : Bool) (base bytes : Nat) : Bool :=
  !inWindow || (decide (base + bytes ≤ 4096 * 65536)
    && s.rings.values.all (fun r => !r.bound || decide (base + bytes ≤ r.winBase * 65536)
      || decide ((r.winBase + r.winUnits) * 65536 ≤ base)))

/-- The ring that an enable checks. -/
def State.telCheck (s : State) (which : Nat) : Bool :=
  if which = 0 then
    s.telRingOk (s.regBit .TEL0_DUMP_BASE_IN_WINDOW) (s.reg .TEL0_DUMP_BASE_ADDR * 4096)
      (s.reg .TEL0_DUMP_SLOTS_COUNT * (s.reg .TEL0_DUMP_SLOT_SIZE_KIB * 1024))
  else if which = 3 then
    s.telRingOk (s.regBit .TEL3_TAG_BASE_IN_WINDOW) (s.reg .TEL3_TAG_BASE_ADDR * 4096) (64 * s.tagSlots)
  else true

/-- The counts of TEL1 and TEL2 that an enable of the page clears. -/
def telCounts (which : Nat) : List Reg :=
  if which = 1 then
    [.TEL1_CORE_RETIRED_COUNT, .TEL1_CORE_WASTED_COUNT, .TEL1_CORE_FRONT_COUNT, .TEL1_CORE_BACK_COUNT,
     .TEL1_TEN_RETIRED_COUNT, .TEL1_TEN_WASTED_COUNT, .TEL1_TEN_BACK_COUNT, .TEL1_DEV_RETIRED_COUNT,
     .TEL1_DEV_WASTED_COUNT, .TEL1_DEV_FRONT_COUNT, .TEL1_DEV_BACK_COUNT]
  else if which = 2 then
    [.TEL2_PORT_RD_BYTES, .TEL2_PORT_WR_BYTES, .TEL2_PORT_BG_BYTES, .TEL2_PORT_MAX_BYTES, .TEL2_WINDOW_SEQ_COUNT,
     .TEL2_WINDOW_TICK_TICK]
  else []

/-- Every copy of a field returns to its reset value. -/
def State.clearReg (s : State) (r : Reg) : State :=
  { s with regs := s.regs.filter (fun k _ => k / 4294967296 != r.ctorIdx) }

/-- The page goes ENABLED with its counters at 0. -/
def State.telOpen (s : State) (which : Nat) : State :=
  let s := (telCounts which).foldl State.clearReg (s.enableBlock (pgTel + which))
  let s := s.onTel (fun x => { x with cleared := true })
  if which = 0 then
    ((s.setReg .TEL0_DUMPS_WRITTEN_COUNT 0).setReg .TEL0_DUMP_SEQ_SEQ 0).onTel
      (fun x => { x with windows := 0, snapshots := 0, dump := none })
  else s

/-- The row TEL_ENABLE: CTRL.EN of TEL0 to TEL3 is written. -/
def execTelEnable (which : BitVec 2) (en : Bool) (s : State) : Host.Outcome State Fault Refusal :=
  let s := s.touch
  let p := pgTel + which.toNat
  .next (if !s.live then s
    else if en then
      if s.pageState p ≠ 0 then s
      else if s.telCheck which.toNat then s.telOpen which.toNat
      else s.recErr p 0x0003
    else if s.pageState p = 1 then s.disableBlock p
    else s)

/-! ## TEL_READ (R522, R523) -/

/-- Pages that a TEL_READ may read. -/
def State.telPermits (s : State) (p : Nat) : Bool := p == pgTel || p == pgBist || bitAt s.failedMap p

/-- The response to a TEL_READ whose request bytes after the vendor id are given. -/
def State.telAnswer (s : State) (req : List Byte) : List Byte :=
  let p := leAt req 2 2
  let off := leAt req 4 2
  let n := leAt req 6 2
  let ok := decide (req.length = 8) && leAt req 1 1 == 0 && decide (p < 512) && off % 4 == 0 && decide (off ≤ 0x3FC)
    && decide (1 ≤ n) && decide (n ≤ 64) && decide (off + 4 * n ≤ 0x400)
  let res := if !ok then 2 else if s.telPermits p then 0 else 1
  leBytes 0x90 1 ++ leBytes res 1 ++ slice req 2 6 ++ (if res = 0 then s.readPage p off n else [])

/-- The row TEL_READ: a vendor-defined message with OP 0x10 over MCTP, answered while the security island is ON. -/
def execTelRead (payload : List Byte) (s : State) : Host.Outcome State Fault Refusal :=
  .next (if s.plat.phase = .on ∧ leAt payload 0 1 = 0x10 then s.ungate.send (.telRead (s.telAnswer payload)) else s)

end Sys2Proof.Machine
end

