-- ==== Sys2Proof/Machine/Registers.lean ====
section
/-!
DEFINITION. Writes to the registers of BAR 0 (R10, R11, R27 to R34, R37, R46, R54, R224, R282, R313, R315, R340, R367, R470,
R502, R547, R551).
-/
namespace Sys2Proof.Machine

/-! ## Pages -/

/-- First page of the command rings. -/
def pgRing : Nat := 512

/-- The command ring of a page, if it is one. -/
def ringOf (p : Nat) : Option Nat := if pgRing ≤ p ∧ p < pgRing + 256 then some (p - pgRing) else none

/-- A block page that the map assigns (R26, R27). -/
def isBlockPage (p : Nat) : Bool := (blockOf p).isSome

/-- GLB, PWR, CLK, RST and BIST run from boot: their EN is a field that holds no more than its value (log entry 47). -/
def isPlatform (p : Nat) : Bool := decide (p ≤ 4)

/-- Bits of INT_STATUS that exist. -/
def intMask : Word := 0xFFFFFF07
def ringIntMask : Word := 7

/-! ## BAD_REGISTER_ACCESS (R11, R547) -/

/-- An access of wrong width or alignment is recorded. -/
def State.badAccess (s : State) (off : Nat) : State := (s.recErr pgGlb 0x0001).setReg .GLB_ACCESS_ERR_OFFSET off

/-- The row BAD_REGISTER_ACCESS at an offset in BAR 0: a write is discarded, a read returns all ones. -/
def execBadRegisterAccess (access : RegAccess) (s : State) : Host.Outcome State Fault Refusal :=
  let s := s.touch
  .next (if s.live then
    let s := s.badAccess access.off.toNat
    if access.read then { s with out := .regRead 0xFFFFFFFF :: s.out } else s
  else s)

/-! ## The fields that a write names -/

/-- One word of a write: its offset in the page and its 32 bits. -/
def writeWords (off : Nat) (value : DWord) (wide : Bool) : List (Nat × Nat) :=
  if wide then [(off, value.toNat % 2 ^ 32), (off + 4, value.toNat / 2 ^ 32)] else [(off, value.toNat % 2 ^ 32)]

/-- The copy of a field that has bits in the register at an offset. -/
def State.hitAt (s : State) (p off : Nat) (r : Reg) : Option Nat :=
  match s.copyAt r p off with
  | none => none
  | some i =>
    let base := r.offOf i
    if base ≤ off ∧ 8 * (off - base) < r.desc.lo + r.desc.width ∧ r.desc.lo < 8 * (off - base) + 32 then some i else none

/-- A field after 32 bits of its register were written. -/
def Reg.merged (r : Reg) (i off word old : Nat) : Nat :=
  bitsOf (putBits (old * 2 ^ r.desc.lo) (8 * (off - r.offOf i)) 32 word) r.desc.lo r.desc.width

/-- A field as a write finds it: the shadow of an RWS field, else the value in effect. -/
def State.before (s : State) (r : Reg) (i : Nat) : Nat :=
  match r.desc.acc with
  | .rws => (s.shadow.get? (r.key i)).getD (s.reg r i)
  | _ => s.reg r i

/-- The fields that a word names, with the values written, on top of those of an earlier word. -/
def State.mergeWord (s : State) (p : Nat) (acc : List (Reg × Nat × Nat)) (w : Nat × Nat) : List (Reg × Nat × Nat) :=
  let hits := Reg.all.filterMap (fun r => (s.hitAt p w.1 r).map (fun i => (r, i)))
  hits.foldl (fun acc e =>
    match acc.find? (fun a => a.1 == e.1 && a.2.1 == e.2) with
    | some a => acc.map (fun b => if b == a then (a.1, a.2.1, a.1.merged a.2.1 w.1 w.2 a.2.2) else b)
    | none => acc ++ [(e.1, e.2, e.1.merged e.2 w.1 w.2 (s.before e.1 e.2))]) acc

def State.writtenFields (s : State) (p off : Nat) (value : DWord) (wide : Bool) : List (Reg × Nat × Nat) :=
  (writeWords off value wide).foldl (s.mergeWord p) []

/-- Fields whose writes have rows of their own: VALID of a table or collection, DOM_REQ, RST_DEVICE. -/
def ownRow (r : Reg) : Bool :=
  r == .EMB_TBL_CFG_VALID || r == .SRCH_COLL_CFG_VALID || r == .PWR_DOM_REQ_STATE || r == .RST_DEVICE_KEY

/-- A trigger bit is written 1: the write is that trigger's. -/
def triggers (l : List (Reg × Nat × Nat)) : Bool := l.any (fun e => e.1.desc.acc == .w1s && e.2.2 != 0)

/-! ## Locks (R33, R224, R340, R367, R470) -/

/-- What stands for the block's enable is 1 for a copy of a field. -/
def State.locked (s : State) (p : Nat) (r : Reg) (i : Nat) : Bool :=
  match r.desc.lock with
  | .page => (s.common (if 8 ≤ p ∧ p ≤ 11 then pgSec else p)).en
  | .cluster => (List.range 16).any (fun k => (s.common (p + k)).en)
  | .noModel => s.models.values.any (·.loaded)
  | .table => s.regBit .EMB_TBL_CFG_VALID i
  | .collection => s.regBit .SRCH_COLL_CFG_VALID i
  | .stream => (s.stream i).active

/-! ## One write -/

/-- Put one written field where its access code says (R10, R31, R33). -/
def State.putField (s : State) (p : Nat) (e : Reg × Nat × Nat) : State :=
  let r := e.1
  let i := e.2.1
  let v := r.taken i e.2.2
  if ownRow r then s
  else match r.desc.acc with
    | .rw | .wo => s.setReg r v i
    | .rwl => if s.locked p r i then s.lockErr p else s.setReg r v i
    | .rws => ({ s with shadow := s.shadow.set (r.key i) v }).setCommon p { s.common p with shadowPend := true }
    | .ro | .w1c | .w1s => s

/-- The buckets of a queue allow what its rates and sizes say (R282). -/
def State.policerOk (s : State) (q : Nat) : Bool :=
  !s.regBit .ADM_Q_MODE_POLICED q
    || (decide (s.reg .ADM_Q_CIR_KBPS q ≤ s.reg .ADM_Q_PIR_KBPS q)
      && decide (s.reg .ADM_Q_CBS_BYTES q ≤ s.reg .ADM_Q_PBS_BYTES q))

/-- Truncation values of a tenant (R313). -/
def State.truncOk (s : State) (t : Nat) : Bool :=
  !(s.regBit .MRV_TEN_TRUNC_EN t && s.reg .MRV_TEN_TRUNC_MAX_COUNT t != 0
    && decide (s.reg .MRV_TEN_TRUNC_MAX_COUNT t < s.reg .MRV_TEN_TRUNC_H_COUNT t + 1 + s.reg .MRV_TEN_TRUNC_T_COUNT t))

/-- Sampler values of a tenant (R315): TEMP finite and not negative, TOP_P above 0 and at most 1.0. -/
def State.samplerOk (s : State) (t : Nat) : Bool :=
  let temp := s.reg .JCK_TEN_TEMP_TEMP t
  let topP := s.reg .JCK_TEN_TOP_P_TOP_P t
  decide (temp < 0x7F800000 ∨ temp = 0x80000000) && decide (0 < topP) && decide (topP ≤ 0x3F800000)

/-- The values that would stand after a write, in state `t`, are not refused; `s` is the state before. -/
def State.writeOk (t s : State) (p : Nat) (l : List (Reg × Nat × Nat)) : Bool :=
  let has (rs : List Reg) : Bool := l.any (fun e => rs.contains e.1)
  if p = pgAdm then
    !has [.ADM_Q_MODE_POLICED, .ADM_Q_CIR_KBPS, .ADM_Q_PIR_KBPS, .ADM_Q_CBS_BYTES, .ADM_Q_PBS_BYTES]
      || t.policerOk (s.bankIndex .admQueue)
  else if p = pgMrv then
    !has [.MRV_TEN_TRUNC_EN, .MRV_TEN_TRUNC_H_COUNT, .MRV_TEN_TRUNC_T_COUNT, .MRV_TEN_TRUNC_MAX_COUNT]
      || t.truncOk (s.bankIndex .mrvTenant)
  else if p = pgJck then
    !has [.JCK_TEN_TEMP_TEMP, .JCK_TEN_TOP_P_TOP_P] || t.samplerOk (s.bankIndex .jckTenant)
  else if pgCru ≤ p then
    let k := (p - pgCru) / 16
    !has [.CRU_CLU_SR_MIB, .CRU_CLU_WIN_MIB] || decide (t.reg .CRU_CLU_SR_MIB k + t.reg .CRU_CLU_WIN_MIB k ≤ 32)
  else true

/-- Buckets after a write to a queue's parameters: full when POLICED is written 1, else clipped to their new sizes (R273,
R282). `a` is the queue with its buckets filled up to the write. -/
def State.settleBuckets (t : State) (q : Nat) (a : AdmQueue) (policed : Bool) : State :=
  let cbs := t.reg .ADM_Q_CBS_BYTES q * 65536
  let pbs := t.reg .ADM_Q_PBS_BYTES q * 65536
  t.setAdmQ q (if policed then { a with tc := cbs, tp := pbs, remC := 0, remP := 0, filledAt := t.tick }
    else { a with tc := min a.tc cbs, tp := min a.tp pbs })

/-- CLK_PLL.MHZ is written: PLL_EFF follows it unless the governor holds it lower; the intervals held until now are counted. -/
def State.pllFollow (t s : State) : State :=
  let u := s.countLimited
  let mhz := if s.pllMhz = s.pllNominal then t.pllNominal else min s.pllMhz t.pllNominal
  ({ t with plat := u.plat }.setReg .PWR_LIMITED_10US_COUNT (u.reg .PWR_LIMITED_10US_COUNT)).setReg .CLK_PLL_EFF_MHZ mhz

/-- What a write changes besides the fields. -/
def State.afterWrite (t s : State) (p : Nat) (l : List (Reg × Nat × Nat)) : State :=
  let has (r : Reg) : Bool := l.any (fun e => e.1 == r)
  if p = pgAdm ∧ (has .ADM_Q_MODE_POLICED || has .ADM_Q_CIR_KBPS || has .ADM_Q_PIR_KBPS || has .ADM_Q_CBS_BYTES
      || has .ADM_Q_PBS_BYTES) = true then
    let q := s.bankIndex .admQueue
    t.settleBuckets q (s.fillQueue q (s.admQ q)) (has .ADM_Q_MODE_POLICED && t.regBit .ADM_Q_MODE_POLICED q)
  else if p = pgClk ∧ has .CLK_PLL_MHZ = true then t.pllFollow s
  else t

/-- Fields of GLB_RING_BIND: with a trigger bit written 1 they are stored, or discarded, by the bind or unbind (R41). -/
def bindField (r : Reg) : Bool := r == .GLB_RING_BIND_RING || r == .GLB_RING_BIND_TENANT || r == .GLB_RING_BIND_ADMIN

/-- A write to block-specific registers of a page (R10, R31 to R34). A trigger bit that is written 1 acts by its own row. -/
def State.writeFields (s : State) (p : Nat) (written : List (Reg × Nat × Nat)) : State :=
    let l := if triggers written then written.filter (fun e => !bindField e.1) else written
    let t := l.foldl (fun t e => t.putField p e) s
    if t.writeOk s p l then
      let t := t.afterWrite s p l
      let c := t.common p
      if hasSafePoint p && !c.en && !c.hold && l.any (fun e => e.1.desc.acc == .rws) then t.applyShadow p else t
    else s.recErr p 0x0010

/-! ## Writes to a command-ring page (R37, R43, R46) -/

/-- A set-up field of a ring can be written while CTRL.EN is 0 (R33): a ring that drains after a write of EN 0 takes it too. -/
def State.ringSetup (s : State) (n : Nat) (f : Ring → Ring) : State :=
  let r := s.ring n
  if r.en then (s.setRing n { r with lockErr := true }).ringInt n 4 else s.setRing n (f r)

/-- A 32-bit half, or both halves, of a base register: IN_WINDOW and the address. -/
def baseWord (inWindow : Bool) (base off : Nat) (value : DWord) (wide : Bool) : Nat :=
  let old := base + b2n inWindow
  if wide then value.toNat else putBits old (8 * off) 32 value.toNat

/-- COALESCE of a ring: a COUNT that the completions written since the last signal already reach makes a signal due (R54). -/
def State.setCoalesce (s : State) (n count time : Nat) : State :=
  let r := s.ring n
  let s := s.setRing n { r with coalCount := count, coalTime := time }
  if r.unsignalled ≠ 0 ∧ count ≤ r.unsignalled then s.signal n else s

/-- One 32-bit set-up register of a ring. -/
def State.ringWord (s : State) (n off v : Nat) : State :=
  if off = 0x060 then s.ringSetup n (fun r => { r with sqLog2 := bitsOf v 0 5, cqLog2 := bitsOf v 8 5 })
  else if off = 0x064 then s.ringSetup n (fun r => { r with vector := bitsOf v 0 11 })
  else if off = 0x068 then s.setCoalesce n (max 1 (bitsOf v 0 16)) (bitsOf v 16 16)
  else s

/-- A write to a ring page whose register has no row of its own. -/
def State.ringWrite (s : State) (n off : Nat) (value : DWord) (wide : Bool) : State :=
  let r := s.ring n
  if off = 0x050 ∨ off = 0x054 then
    let w := baseWord r.sqInWindow r.sqBase (off - 0x050) value wide
    s.ringSetup n (fun r => { r with sqInWindow := bitAt w 0, sqBase := w / 4096 % 2 ^ 52 * 4096 })
  else if off = 0x058 ∨ off = 0x05C then
    let w := baseWord r.cqInWindow r.cqBase (off - 0x058) value wide
    s.ringSetup n (fun r => { r with cqInWindow := bitAt w 0, cqBase := w / 4096 % 2 ^ 52 * 4096 })
  else if 0x100 ≤ off ∧ off < 0x138 ∧ wide = true then
    match r.state with
    | .enabled => if r.pushed.isSome then s.ringErr n 0x0008
      else s.setRing n { r with stage := r.stage.set ((off - 0x100) / 8) value.toNat }
    | .disabled => s
    | _ => s.ringErr n 0x0008
  else (writeWords off value wide).foldl (fun s w => s.ringWord n w.1 w.2) s

/-! ## The row REGISTER_WRITE -/

/-- A write of 32 bits, or with `wide` of 64, at an offset in BAR 0 (R10, R11, R27). -/
def State.registerWrite (s : State) (off : Nat) (value : DWord) (wide : Bool) : State :=
  let p := off / 4096
  let o := off % 4096
  if off % (if wide then 8 else 4) ≠ 0 then s.badAccess off
  else match ringOf p with
    | some n => s.ringWrite n o value wide
    | none =>
      if !isBlockPage p then s
      else if o = 0x008 then s.setCommon p { s.common p with hold := bitAt value.toNat 3 }
      else if o < 0x040 then s
      else s.writeFields p (s.writtenFields p o value wide)

def execRegisterWrite (off : BitVec 26) (value : DWord) (wide : Bool) (s : State) : Host.Outcome State Fault Refusal :=
  let s := s.touch
  .next (if s.live then s.registerWrite off.toNat value wide else s)

/-! ## CTRL.EN, CTRL.SOFT_RST and CTRL.COMMIT -/

/-- Pages whose CTRL.EN has no row of its own: the platform pages, SEC1 to SEC3, EVIC, HBM, FCD and CRU. -/
def plainEnable (p : Nat) : Bool :=
  isPlatform p || p == pgEvic || (decide (pgSec < p) && decide (p < pgSec + 4)) || (decide (pgHbm ≤ p) && decide (p < pgHbm + 12)) || (decide (pgFcd ≤ p) && decide (p < pgFcd + 8))
    || (decide (pgCru ≤ p) && decide (p < pgCru + 128))

/-- CTRL.EN of such a block is written. -/
def State.blockEnable (s : State) (p : Nat) (en : Bool) : State :=
  if !plainEnable p || s.failed p then s
  else if isPlatform p then s.setEn p en
  else if en then (if s.pageState p = 0 then s.enableBlock p else s)
  else if s.pageState p = 0 then s else s.disableBlock p

/-- The row BLOCK_ENABLE. -/
def execBlockEnable (page : BitVec 10) (en : Bool) (s : State) : Host.Outcome State Fault Refusal :=
  let s := s.touch
  .next (if s.live then s.blockEnable page.toNat en else s)

/-- CTRL.SOFT_RST of a block page: its pending values, its PROGRESS and its counters go (R28, R36, R515; log entry 48). -/
def State.softRst (s : State) (p : Nat) : State :=
  let s := (s.dropShadow p).clearCounters p
  let s := s.setCommon p { s.common p with position := 0, percent := 0, valid := false, commitPend := false }
  s.onTel (fun x => { x with cleared := true })

/-- The row SOFT_RST. -/
def execSoftRst (page : BitVec 10) (s : State) : Host.Outcome State Fault Refusal :=
  let s := s.touch
  .next (if s.live && isBlockPage page.toNat then s.softRst page.toNat else s)

/-- CTRL.COMMIT of a page: at once where the block is disabled, not busy or without a safe point, else at the next one (R32). -/
def State.commitPage (s : State) (p : Nat) : State :=
  if !hasSafePoint p || !(s.common p).en || !s.busy p then
    let s := s.applyShadow p
    s.setCommon p { s.common p with hold := false, commitPend := false }
  else s.setCommon p { s.common p with commitPend := true }

/-- The row COMMIT; FAM_CTRL.COMMIT has a row of its own. -/
def execCommit (page : BitVec 10) (s : State) : Host.Outcome State Fault Refusal :=
  let s := s.touch
  .next (if s.live && isBlockPage page.toNat && page.toNat != pgFam then s.commitPage page.toNat else s)

/-- The block of a page is at its safe point (R26). -/
def State.atSafePoint (s : State) (p : Nat) : Bool :=
  hasSafePoint p
    && (if p = pgGaf ∨ p = pgJck then s.gaf.running.isNone
        else if p = pgEmb then s.emb.batch.isNone
        else if p = pgSrch then s.srch.batch.isNone
        else if p = pgCkp then s.ckp.run.isNone && s.ckp.restore.isNone
        else if pgTel ≤ p ∧ p < pgTel + 4 then decide (s.tel.windowEnd ≤ s.tick)
        else if pgCru ≤ p then (s.core (p - pgCru)).tileKind == 0
        else true)

/-- The row SHADOW_APPLY. -/
def execShadowApply (page : BitVec 10) (s : State) : Host.Outcome State Fault Refusal :=
  .next (if s.atSafePoint page.toNat then s.safePoint page.toNat else s)

/-! ## INT_STATUS, INT_SET and INT_ENABLE (R29, R30, R54, R551) -/

/-- What else a cleared bit of INT_STATUS clears: BAD_SLOT.VALID with SDIR's ERR, REF_LOST with CLK's (R79, R482). -/
def State.clearedWith (s : State) (p : Nat) (bits : Word) : State :=
  if p = pgSdir ∧ bits &&& 2 ≠ 0 then s.setReg .SDIR_BAD_SLOT_VALID 0
  else if p = pgClk ∧ bits &&& 256 ≠ 0 then s.setReg .CLK_STATUS_REF_REF_LOST 0
  else s

/-- Bits of a block's INT_STATUS are written 1. -/
def State.intClear (s : State) (p : Nat) (bits : Word) : State :=
  let c := s.common p
  let c := { c with int := c.int &&& ~~~ bits }
  let c := if bits &&& 2 ≠ 0 then { c with err := false, code := 0 } else c
  let c := if bits &&& 4 ≠ 0 then { c with lockErr := false } else c
  let s := (s.setCommon p c).clearedWith p bits
  if c.int &&& c.intEn ≠ 0 then s.routeMsg p else s

/-- Bits of a ring's INT_STATUS are written 1. -/
def State.ringIntClear (s : State) (n : Nat) (bits : Word) : State :=
  let r := s.ring n
  let r := { r with int := r.int &&& ~~~ bits }
  let r := if bits &&& 2 ≠ 0 then { r with err := false, code := 0 } else r
  let r := if bits &&& 4 ≠ 0 then { r with lockErr := false } else r
  let s := s.setRing n r
  if r.int &&& r.intEn ≠ 0 then s.sendMsi r.vector r.function else s

/-- The row INT_STATUS_CLEAR. -/
def execIntStatusClear (page : BitVec 10) (bits : Word) (s : State) : Host.Outcome State Fault Refusal :=
  let s := s.touch
  .next (if !s.live then s
    else match ringOf page.toNat with
      | some n => s.ringIntClear n bits
      | none => if isBlockPage page.toNat then s.intClear page.toNat bits else s)

/-- The row INT_SET. -/
def execIntSet (page : BitVec 10) (bits : Word) (s : State) : Host.Outcome State Fault Refusal :=
  let s := s.touch
  .next (if !s.live then s
    else match ringOf page.toNat with
      | some n => s.ringInt n (bits &&& ringIntMask)
      | none => if isBlockPage page.toNat then s.setInt page.toNat (bits &&& intMask) else s)

/-- INT_ENABLE of a block is written. -/
def State.intEnable (s : State) (p : Nat) (bits : Word) : State :=
  let c := s.common p
  let s := s.setCommon p { c with intEn := bits &&& intMask }
  if c.int &&& c.intEn = 0 ∧ c.int &&& (bits &&& intMask) ≠ 0 then s.routeMsg p else s

/-- INT_ENABLE of a ring is written: the message goes out too when CQ is enabled while INT_STATUS.CQ is 1 (R54). -/
def State.ringIntEnable (s : State) (n : Nat) (bits : Word) : State :=
  let r := s.ring n
  let en := bits &&& ringIntMask
  let s := s.setRing n { r with intEn := en }
  if (r.int &&& r.intEn = 0 ∧ r.int &&& en ≠ 0) ∨ (r.intEn &&& 1 = 0 ∧ r.int &&& en &&& 1 ≠ 0) then s.sendMsi r.vector r.function
  else s

/-- The row INT_ENABLE_WRITE. -/
def execIntEnableWrite (page : BitVec 10) (bits : Word) (s : State) : Host.Outcome State Fault Refusal :=
  let s := s.touch
  .next (if !s.live then s
    else match ringOf page.toNat with
      | some n => s.ringIntEnable n bits
      | none => if isBlockPage page.toNat then s.intEnable page.toNat bits else s)

end Sys2Proof.Machine
end

