-- ==== Sys2Proof/Machine/Commands.lean ====
section
/-!
DEFINITION. The commands of a ring take effect: resolution of the handle (R75), the order of a session's commands (R60), the
table of run states (R76), the waits that come before an effect (R64, R78, R129, R141, R183, R396, R477), and one row per opcode
of R42. A command that waits takes effect by the row WAITING_COMMAND_EFFECT.
-/
namespace Sys2Proof.Machine

/-! ## Resolution and order (R60, R75) -/

/-- The first check of R75 that fails. -/
def State.resolve (s : State) (d : Desc) : Option Status :=
  let slot := handleSlot d.handle
  match s.session? slot with
  | none => some .staleHandle
  | some x =>
    if s.reg .SDIR_SLOTS_COUNT ≤ slot ∨ x.generation ≠ handleGen d.handle ∨ x.tenant ≠ handleTenant d.handle then
      some .staleHandle
    else if x.runState = .closed ∧ d.opcode ≠ 0x13 then some .staleHandle
    else if x.runState = .lost ∧ d.opcode ≠ 0x13 ∧ d.opcode ≠ 0x11 then some .lost
    else if x.residency = .away ∧ d.opcode ≠ 0x13 ∧ d.opcode ≠ 0x11 ∧ d.opcode ≠ 0x24 then some .notOwner
    else if s.sdir.badSlots.contains slot then some .internal
    else none

/-- A command of the same session accepted before has been dequeued and has not taken effect (R60). -/
def State.heldByEarlier (s : State) (id : Nat) (d : Desc) : Bool :=
  s.cmds.entries.any (fun e => decide (e.1 < id) && e.2.desc.handle == d.handle
    && (e.2.phase == .started || e.2.phase == .waiting) && e.2.desc.opcode != 0x13)

/-- A command waits, with what it waits for in `aux` where its engine asks. -/
def State.waitFor (s : State) (id aux : Nat) : State := (s.waitCmd id).onCmd id (fun c => { c with aux := aux })

/-! ## What a command needs -/

/-- The carry that an append leaves (R293). -/
def State.carryAfter (s : State) (x : Session) (d : Desc) : List Byte :=
  if d.opcode = 0x18 then
    let bytes := x.rec'.carry ++ s.payload d
    if d.optBit 8 then [] else (decodeUtf8 bytes.length bytes).2
  else []

/-- The compaction point of a command commits something (R22, R182). -/
def Session.compacts (x : Session) (d : Desc) : Bool :=
  x.compactable x.rec'.params.budget &&
    (if d.opcode = 0x1A then d.optBit 8
     else if d.opcode = 0x1B then !d.optBit 11
     else d.opcode == 0x1D && !d.optBit 10 && !d.optBit 11)

/-- The effect of a command commits a step-record version or a page table outside a step (R396, R552). -/
def State.commits (s : State) (x : Session) (c : Cmd) : Bool :=
  let d := c.desc
  if d.opcode = 0x18 ∨ d.opcode = 0x19 then d.optBit 9 || s.carryAfter x d != x.rec'.carry
  else if d.opcode = 0x1A then c.aux != 1 && !x.genReq && (!x.rec'.carry.isEmpty || (x.compacts d && x.runState != .running))
  else (d.opcode == 0x1B || d.opcode == 0x1D) && c.aux != 1 && x.compacts d

/-- A command needs page records (R187). -/
def Session.needsPages (x : Session) (d : Desc) : Bool :=
  d.opcode == 0x1A || x.compacts d
    || ([0x11, 0x12, 0x1D, 0x20, 0x22].contains d.opcode && !x.table.isEmpty)

/-- Commands of the tokenizer and constraint engine (R475). -/
def usesText (op : Nat) : Bool := [0x18, 0x19, 0x1A, 0x42, 0x43].contains op

/-- Commands that need a key of the island (R66, R448). -/
def usesKey (op : Nat) : Bool := [0x20, 0x21, 0x22, 0x23, 0x24, 0x40, 0x48, 0x49, 0x50, 0x51].contains op

/-- Commands that need HBM: all but NOP, FENCE and SHUTDOWN; and those that need the flash tier's controllers besides: the
commands of the search engine (R66, R343). -/
def usesHbm (op : Nat) : Bool := decide (0x10 ≤ op) && op != 0x58
def usesFlash (op : Nat) : Bool := decide (0x38 ≤ op) && decide (op ≤ 0x3B)

/-- A block that a command needs is in STATE 0xFF FAILED (R66). -/
def State.blockFailed (s : State) (op : Nat) : Bool :=
  (usesKey op && s.failed pgSec)
    || (usesHbm op && (List.range 12).any (fun i => s.failed (pgHbm + i)))
    || (usesFlash op && (List.range 8).any (fun i => s.failed (pgFcd + i)))

/-- The ranges of fabric addresses of a descriptor: of what is written, the first byte, since its end is known at its end. -/
def fabricRanges (d : Desc) (leased : Bool) : List (Nat × Nat) :=
  let far := d.opt 8 2 == 2
  let src := (d.specF 43 36, d.specF 51 44)
  match d.opcode with
  | 0x20 => if far && !d.optBit 11 then [(src.1, 1)] else []
  | 0x21 => if far then [src] else []
  | 0x24 => if far then [src] else []
  | 0x22 => (src.1, 1) :: (if leased then [] else [(d.specF 63 56, 8)])
  | 0x23 => [src, (d.specF 63 56, 8)]
  | 0x40 => if far then [(d.specF 47 40, d.specF 55 48)] else []
  | 0x43 => if far then [(d.specF 47 40, d.specF 55 48)] else []
  | _ => []

/-- The effect of an opcode on a command that nothing holds back. -/
abbrev Effect := State → Nat → Cmd → Nat → State

/-! ## Sources that cannot be read (R550) -/

/-- The page and the code of a command that is at the first read of its source: what comes before the read (R132, R218, R399,
R401, R457) has passed, and nothing is allotted yet. -/
def State.readsSource (s : State) (c : Cmd) : Option (Nat × Nat) :=
  if c.desc.opcode = 0x40 then
    if (c.desc.optBit 11 && !s.tenantOpen (bitsOf (c.desc.specF 38 37) 0 12)) || s.longBusy pgGlb || !s.modelRegionOk then none
    else some (pgCru, 0x0012)
  else if !s.enabled pgStm || !s.enabled pgCane then none
  else if c.desc.opcode = 0x21 then if !s.enabled pgSdir || s.longBusy pgStm then none else some (pgStm, 0x0007)
  else if !s.enabled pgFam then none
  else if c.desc.opcode = 0x23 then
    if !s.enabled pgSdir || !s.inPoolEntry (c.desc.specF 43 36) (c.desc.specF 51 44) || !s.inPoolEntry (c.desc.specF 63 56) 8
      || (c.desc.payLen == 8 && (s.returnSlot c).isNone) then none
    else some (pgStm, 0x0007)
  else if c.desc.opcode = 0x24 ∧ (c.slot.bind s.session?).isSome then some (pgStm, 0x0007)
  else none

/-- The source of a command lies at a target that is marked dead (R391, R550). -/
def State.sourceDead (s : State) (d : Desc) : Bool :=
  let at' (a : Nat) : Bool := s.fam.dead.any (fun dev => s.atDevice a 1 dev)
  match d.opcode with
  | 0x21 | 0x24 => d.opt 8 2 == 2 && at' (d.specF 43 36)
  | 0x23 => at' (d.specF 43 36)
  | 0x40 | 0x43 => d.opt 8 2 == 2 && at' (d.specF 47 40)
  | _ => false

/-- The effect of a command whose source is dead: at the first read of the source it fails, and nothing has been allotted. -/
def State.deadSource (s : State) (id : Nat) (c : Cmd) (slot : Nat) (eff : Effect) : State :=
  match s.readsSource c with
  | some (p, code) => (s.recErr p code).complete id .internal
  | none => (eff s id c slot).sourceFail id

/-! ## The attempt -/

/-- What every command needs besides its session: blocks that have not failed, the text domain, the fabric. Then its effect. -/
def State.attemptPlain (s : State) (id : Nat) (c : Cmd) (leased : Bool) (slot : Nat) (eff : Effect) : State :=
  let r := fabricRanges c.desc leased
  if s.blockFailed c.desc.opcode then s.complete id .internal
  else if [0x10, 0x12, 0x21, 0x23].contains c.desc.opcode && s.freeListBad then
    (s.failPage pgSdir 0x0004).complete id .internal
  else if usesText c.desc.opcode && !s.textOn then s.waitFor id c.aux
  else if !r.isEmpty && !s.enabled pgFam then s.complete id .internal
  else if r.any (fun e => !s.mapped e.1 e.2) then (s.bump .FAM_MAP_MISSES_COUNT).refuse id .invalid 0x60
  else if s.sourceDead c.desc then s.deadSource id c slot eff
  else eff s id c slot

/-- What the table of R76 says of a command whose session is `x`. -/
inductive Turn
  | now | waits | refused | atStepEnd | held
  deriving DecidableEq, Repr

/-- The table of R76. -/
def turnOf (x : Session) (d : Desc) : Turn :=
  match x.runState with
  | .runnable => if d.opcode = 0x1B then .held else .now
  | .running =>
    if d.opcode = 0x1B then .held
    else if d.opcode = 0x11 then .atStepEnd
    else if waitsForNoStep d.opcode = true then .waits
    else .now
  | .toolWait => if d.opcode = 0x1A then .refused else .now
  | .deadEnd => if d.opcode = 0x1B ∨ d.opcode = 0x1C then .refused else .now
  | _ => .now

/-- The session is PARKED or POOLED. -/
def Session.below (x : Session) : Bool := x.residency == .parked || x.residency == .pooled

/-- A command needs a move of its session: an append or a RESUME of one below WARM, a TOOL_WAIT whose tier is another than the
present, a compaction or another commit of one below WARM (R135, R158, R182). STEP, PARK and SESS_FORK see to themselves. -/
def State.needsMove (s : State) (x : Session) (c : Cmd) : Bool :=
  let op := c.desc.opcode
  (x.below && (op == 0x18 || op == 0x19 || (op == 0x1C && x.runState == .toolWait) || s.commits x c))
    || (op == 0x1B && (s.chooseTier x (c.desc.specF 43 36) (c.desc.opt 8 3) false).1 != x.residency)

/-- An export of the session that has not finished its first reads holds a later command back, but for SIZE_ONLY (R128, R129). -/
def State.heldByExport (s : State) (slot : Nat) (d : Desc) : Bool :=
  s.exportReads slot && !(d.opcode == 0x20 && d.optBit 11)

/-- The commit that a command makes finds its session in HBM, with a version that no reader holds; otherwise the command waits for
a promotion, or for a version (R116, R149, R552). -/
def State.awaitVersion (s : State) (id : Nat) (c : Cmd) (slot : Nat) (x : Session) : Option State :=
  if !s.commits x c then none
  else if x.below then some ((s.askPromote slot s.tick false false).waitFor id c.aux)
  else if s.verReady x then none
  else some ((s.beginVerWait slot).waitFor id c.aux)

/-- The waits of a session's own, then the lease, then the rest. -/
def State.attemptState (s : State) (id : Nat) (c : Cmd) (slot : Nat) (x : Session) (eff : Effect) : State :=
  let d := c.desc
  let s := if promotes d.opcode then s.cancelDown slot else s
  if x.residency = .moving ∧ d.opcode ≠ 0x1C then s.waitFor id c.aux
  else if x.compact.isSome = true ∨ s.heldByExport slot d = true then s.waitFor id c.aux
  else if x.bad = true ∧ d.opcode ≠ 0x11 ∧ x.residency ≠ .away then s.complete id .internal
  else if x.rec'.scoresOk = false ∧ d.opcode ≠ 0x11 ∧ x.residency ≠ .away then (s.recErr pgEvic 0x0001).complete id .internal
  else if x.needsPages d && !s.enabled pgCane then s.complete id .internal
  else if s.needsMove x c && !s.enabled pgStm then s.complete id .internal
  else if s.commits x c && !s.leaseOk x then (s.awaitLease slot).waitFor id 2
  else match s.awaitVersion id c slot x with
    | some t => t
    | none => (if s.commits x c then s.useLease slot else s).attemptPlain id c x.leased slot eff

/-- A command that names a session. -/
def State.attemptSession (s : State) (id : Nat) (c : Cmd) (eff : Effect) : State :=
  let slot := handleSlot c.desc.handle
  if !s.enabled pgSdir then s.complete id .internal
  else if s.sdir.missing.contains slot then s
  else match s.resolve c.desc, s.session? slot with
    | some st, _ => s.complete id st
    | none, none => s.complete id .staleHandle
    | none, some x =>
      let s := s.onCmd id (fun c => { c with slot := some slot })
      let c := { c with slot := some slot }
      if s.holdsBad x then s.complete id .internal
      else if c.desc.opcode = 0x13 then eff s id c slot
      else if s.heldByEarlier id c.desc then s.waitFor id c.aux
      else if 0x30 ≤ c.desc.opcode then
        if x.compact.isSome = true ∨ (x.residency = .moving ∧ c.desc.opcode = 0x30 ∧ c.desc.opt 8 2 = 1) then
          s.waitFor id c.aux
        else s.attemptPlain id c x.leased slot eff
      else match turnOf x c.desc with
        | .refused => s.refuse id .invalid 0x0C
        | .waits => s.waitFor id c.aux
        | .held => (s.setSession slot { x with waitHeld := true }).waitFor id c.aux
        | .atStepEnd => (s.setSession slot { x with closing := some id }).waitFor id c.aux
        | .now => s.attemptState id c slot x eff

/-- A started or waiting command takes effect, completes, or waits. -/
def State.attempt (s : State) (id : Nat) (c : Cmd) (eff : Effect) : State :=
  if s.failed pgGlb then s.complete id .internal
  else if c.desc.handle = 0 then s.attemptPlain id c false 0 eff
  else s.attemptSession id c eff

/-- Commands take effect: the device is powered, no freeze of a checkpoint holds its state and no restore runs
(R416, R417, R423). -/
def State.commandsRun (s : State) : Bool :=
  s.live && s.freeze != 2 && s.ckp.restore.isNone && s.pageState pgGlb != 2

/-- What a command's source yielded is needed no longer once the command has taken effect or ended. -/
def State.dropSource (s : State) (id : Nat) : State :=
  let t := { s with sources := s.sources.erase id, fam := { s.fam with words := s.fam.words.erase id } }
  match s.cmd? id with
  | some c => if c.phase = .started ∨ c.phase = .waiting then s else t
  | none => t

/-- After an attempt of a command from state `s`: its source is dropped, WAIT_HELD holds what R72 says, and the entry that it has
changed is dirty in the cache (R77). -/
def State.settled (t s : State) (id : Nat) (c : Cmd) : State :=
  let k := handleSlot c.desc.handle
  let t := (t.dropSource id).settleHeld id c
  if c.desc.handle ≠ 0 ∧ t.session? k ≠ s.session? k then t.dirtyEntry k else t

/-- The row of an opcode: the started command `id` of that opcode is attempted. -/
def State.commandRow (s : State) (id op : Nat) (eff : Effect) : State :=
  match s.cmd? id with
  | none => s
  | some c =>
    if c.phase = .started ∧ c.desc.opcode = op ∧ s.commandsRun = true then (s.attempt id c eff).settled s id c else s

/-- What an import reads beside its header: the decrypted content, and the lease word as its home answers. -/
def State.withSource (s : State) (id : Nat) (content : Capsule) (word : Option DWord) : State :=
  match s.cmd? id with
  | none => s
  | some c =>
    if c.phase = .started then
      let s := { s with sources := s.sources.set id content }
      match word with
      | some w => { s with fam := { s.fam with words := s.fam.words.set id w.toNat } }
      | none => { s with fam := { s.fam with words := s.fam.words.erase id } }
    else s

/-! ## The effect of each opcode (R42) -/

/-- NOP (R51). -/
def effNop : Effect := fun s id _ _ => s.complete id .ok

/-- FENCE (R63): it starts once the commands it waits for have written their final completions. -/
def effFence : Effect := fun s id _ _ => s.complete id .ok

/-- SESS_CREATE (R85). -/
def effSessCreate : Effect := fun s id c _ => opSessCreate s id c

/-- SESS_CLOSE (R95). -/
def effSessClose : Effect := fun s id _ slot => opSessClose s id slot

/-- SESS_FORK (R87). -/
def effSessFork : Effect := opSessFork

/-- SESS_QUERY (R89). -/
def effSessQuery : Effect := opSessQuery

/-- APPEND_TEXT (R290). -/
def effAppendText : Effect := opAppendText

/-- APPEND_TOKENS (R300). -/
def effAppendTokens : Effect := opAppendTokens

/-- STEP (R261). -/
def effStep : Effect := opStep

/-- TOOL_WAIT (R91). -/
def effToolWait : Effect := opToolWait

/-- RESUME (R94). -/
def effResume : Effect := opResume

/-- PARK (R151). -/
def effPark : Effect := opPark

/-- EXPORT_CAPSULE (R129). -/
def effExportCapsule : Effect := opExportCapsule

/-- IMPORT_CAPSULE (R131). -/
def effImportCapsule : Effect := fun s id c _ => opImportCapsule s id c

/-- MIGRATE_OUT (R398). -/
def effMigrateOut : Effect := opMigrateOut

/-- MIGRATE_IN (R399). -/
def effMigrateIn : Effect := fun s id c _ => opMigrateIn s id c

/-- RECLAIM (R401); of a session that is not AWAY no rule gives the status (log entry 49). -/
def effReclaim : Effect := fun s id c slot =>
  if ((s.session? slot).map (·.residency)) = some .away then opReclaim s id c slot else s.refuse id .invalid 0x62

/-- EMB_LOOKUP (R325). -/
def effEmbLookup : Effect := fun s id c _ => opEmbLookup s id c

/-- EMB_UPDATE (R334). -/
def effEmbUpdate : Effect := fun s id c _ => opEmbUpdate s id c

/-- EMB_REPLICATE (R332). -/
def effEmbReplicate : Effect := fun s id c _ => opEmbReplicate s id c

/-- MEM_INSERT (R360). -/
def effMemInsert : Effect := fun s id c _ => opMemInsert s id c

/-- MEM_DELETE (R362). -/
def effMemDelete : Effect := fun s id c _ => opMemDelete s id c

/-- MEM_SEARCH (R354). -/
def effMemSearch : Effect := fun s id c _ => opMemSearch s id c

/-- MEM_COMPACT (R364). -/
def effMemCompact : Effect := fun s id c _ => opMemCompact s id c

/-- MODEL_LOAD (R218). -/
def effModelLoad : Effect := fun s id c _ => opModelLoad s id c

/-- MODEL_UNLOAD (R220). -/
def effModelUnload : Effect := fun s id c _ => opModelUnload s id c

/-- CONSTRAINT_LOAD (R306). -/
def effConstraintLoad : Effect := fun s id c _ => opConstraintLoad s id c

/-- VOCAB_LOAD (R287). -/
def effVocabLoad : Effect := fun s id _ _ => opVocabLoad s id

/-- CKPT_TAKE (R415). -/
def effCkptTake : Effect := fun s id c _ => opCkptTake s id c

/-- CKPT_RESTORE (R423). -/
def effCkptRestore : Effect := fun s id c _ => opCkptRestore s id c

/-- TENANT_OPEN (R456). -/
def effTenantOpen : Effect := fun s id c _ => opTenantOpen s id c

/-- TENANT_CLOSE (R459). -/
def effTenantClose : Effect := fun s id c _ => opTenantClose s id c

/-- The effect of an opcode; SHUTDOWN has a row of its own with the result of its self-test. -/
def effectOf (op : Nat) : Effect :=
  match op with
  | 0x01 => effNop
  | 0x02 => effFence
  | 0x10 => effSessCreate
  | 0x11 => effSessClose
  | 0x12 => effSessFork
  | 0x13 => effSessQuery
  | 0x18 => effAppendText
  | 0x19 => effAppendTokens
  | 0x1A => effStep
  | 0x1B => effToolWait
  | 0x1C => effResume
  | 0x1D => effPark
  | 0x20 => effExportCapsule
  | 0x21 => effImportCapsule
  | 0x22 => effMigrateOut
  | 0x23 => effMigrateIn
  | 0x24 => effReclaim
  | 0x30 => effEmbLookup
  | 0x31 => effEmbUpdate
  | 0x32 => effEmbReplicate
  | 0x38 => effMemInsert
  | 0x39 => effMemDelete
  | 0x3A => effMemSearch
  | 0x3B => effMemCompact
  | 0x40 => effModelLoad
  | 0x41 => effModelUnload
  | 0x42 => effConstraintLoad
  | 0x43 => effVocabLoad
  | 0x48 => effCkptTake
  | 0x49 => effCkptRestore
  | 0x50 => effTenantOpen
  | 0x51 => effTenantClose
  | _ => fun s _ _ _ => s

/-! ## The rows -/

/-- The row NOP. -/
def execNop (cmd : Nat) (s : State) : Host.Outcome State Fault Refusal :=
  .next (s.commandRow cmd 0x01 effNop)

/-- The row FENCE. -/
def execFence (cmd : Nat) (s : State) : Host.Outcome State Fault Refusal :=
  .next (s.commandRow cmd 0x02 effFence)

/-- The row SESS_CREATE. -/
def execSessCreate (cmd : Nat) (s : State) : Host.Outcome State Fault Refusal :=
  .next (s.commandRow cmd 0x10 effSessCreate)

/-- The row SESS_CLOSE. -/
def execSessClose (cmd : Nat) (s : State) : Host.Outcome State Fault Refusal :=
  .next (s.commandRow cmd 0x11 effSessClose)

/-- The row SESS_FORK. -/
def execSessFork (cmd : Nat) (s : State) : Host.Outcome State Fault Refusal :=
  .next (s.commandRow cmd 0x12 effSessFork)

/-- The row SESS_QUERY. -/
def execSessQuery (cmd : Nat) (s : State) : Host.Outcome State Fault Refusal :=
  .next (s.commandRow cmd 0x13 effSessQuery)

/-- The row APPEND_TEXT. -/
def execAppendText (cmd : Nat) (s : State) : Host.Outcome State Fault Refusal :=
  .next (s.commandRow cmd 0x18 effAppendText)

/-- The row APPEND_TOKENS. -/
def execAppendTokens (cmd : Nat) (s : State) : Host.Outcome State Fault Refusal :=
  .next (s.commandRow cmd 0x19 effAppendTokens)

/-- The row STEP. -/
def execStep (cmd : Nat) (s : State) : Host.Outcome State Fault Refusal :=
  .next (s.commandRow cmd 0x1A effStep)

/-- The row TOOL_WAIT. -/
def execToolWait (cmd : Nat) (s : State) : Host.Outcome State Fault Refusal :=
  .next (s.commandRow cmd 0x1B effToolWait)

/-- The row RESUME. -/
def execResume (cmd : Nat) (s : State) : Host.Outcome State Fault Refusal :=
  .next (s.commandRow cmd 0x1C effResume)

/-- The row PARK. -/
def execPark (cmd : Nat) (s : State) : Host.Outcome State Fault Refusal :=
  .next (s.commandRow cmd 0x1D effPark)

/-- The row EXPORT_CAPSULE. -/
def execExportCapsule (cmd : Nat) (s : State) : Host.Outcome State Fault Refusal :=
  .next (s.commandRow cmd 0x20 effExportCapsule)

/-- The row IMPORT_CAPSULE. -/
def execImportCapsule (cmd : Nat) (content : Capsule) (s : State) : Host.Outcome State Fault Refusal :=
  .next ((s.withSource cmd content none).commandRow cmd 0x21 effImportCapsule)

/-- The row MIGRATE_OUT. -/
def execMigrateOut (cmd : Nat) (s : State) : Host.Outcome State Fault Refusal :=
  .next (s.commandRow cmd 0x22 effMigrateOut)

/-- The row MIGRATE_IN. -/
def execMigrateIn (cmd : Nat) (content : Capsule) (word : Option DWord) (s : State) : Host.Outcome State Fault Refusal :=
  .next ((s.withSource cmd content word).commandRow cmd 0x23 effMigrateIn)

/-- The row RECLAIM. -/
def execReclaim (cmd : Nat) (content : Capsule) (word : Option DWord) (s : State) : Host.Outcome State Fault Refusal :=
  .next ((s.withSource cmd content word).commandRow cmd 0x24 effReclaim)

/-- The row EMB_LOOKUP. -/
def execEmbLookup (cmd : Nat) (s : State) : Host.Outcome State Fault Refusal :=
  .next (s.commandRow cmd 0x30 effEmbLookup)

/-- The row EMB_UPDATE. -/
def execEmbUpdate (cmd : Nat) (s : State) : Host.Outcome State Fault Refusal :=
  .next (s.commandRow cmd 0x31 effEmbUpdate)

/-- The row EMB_REPLICATE. -/
def execEmbReplicate (cmd : Nat) (s : State) : Host.Outcome State Fault Refusal :=
  .next (s.commandRow cmd 0x32 effEmbReplicate)

/-- The row MEM_INSERT. -/
def execMemInsert (cmd : Nat) (s : State) : Host.Outcome State Fault Refusal :=
  .next (s.commandRow cmd 0x38 effMemInsert)

/-- The row MEM_DELETE. -/
def execMemDelete (cmd : Nat) (s : State) : Host.Outcome State Fault Refusal :=
  .next (s.commandRow cmd 0x39 effMemDelete)

/-- The row MEM_SEARCH. -/
def execMemSearch (cmd : Nat) (s : State) : Host.Outcome State Fault Refusal :=
  .next (s.commandRow cmd 0x3A effMemSearch)

/-- The row MEM_COMPACT. -/
def execMemCompact (cmd : Nat) (s : State) : Host.Outcome State Fault Refusal :=
  .next (s.commandRow cmd 0x3B effMemCompact)

/-- The row MODEL_LOAD. -/
def execModelLoad (cmd : Nat) (s : State) : Host.Outcome State Fault Refusal :=
  .next (s.commandRow cmd 0x40 effModelLoad)

/-- The row MODEL_UNLOAD. -/
def execModelUnload (cmd : Nat) (s : State) : Host.Outcome State Fault Refusal :=
  .next (s.commandRow cmd 0x41 effModelUnload)

/-- The row CONSTRAINT_LOAD. -/
def execConstraintLoad (cmd : Nat) (s : State) : Host.Outcome State Fault Refusal :=
  .next (s.commandRow cmd 0x42 effConstraintLoad)

/-- The row VOCAB_LOAD. -/
def execVocabLoad (cmd : Nat) (s : State) : Host.Outcome State Fault Refusal :=
  .next (s.commandRow cmd 0x43 effVocabLoad)

/-- The row CKPT_TAKE. -/
def execCkptTake (cmd : Nat) (s : State) : Host.Outcome State Fault Refusal :=
  .next (s.commandRow cmd 0x48 effCkptTake)

/-- The row CKPT_RESTORE. -/
def execCkptRestore (cmd : Nat) (s : State) : Host.Outcome State Fault Refusal :=
  .next (s.commandRow cmd 0x49 effCkptRestore)

/-- The row TENANT_OPEN. -/
def execTenantOpen (cmd : Nat) (s : State) : Host.Outcome State Fault Refusal :=
  .next (s.commandRow cmd 0x50 effTenantOpen)

/-- The row TENANT_CLOSE. -/
def execTenantClose (cmd : Nat) (s : State) : Host.Outcome State Fault Refusal :=
  .next (s.commandRow cmd 0x51 effTenantClose)

/-- The row SHUTDOWN, with what the self-test found where one runs, and whether its record cannot be written. -/
def execShutdown (cmd : Nat) (bist : BistRun) (writeFails : Bool) (s : State) : Host.Outcome State Fault Refusal :=
  .next (match s.cmd? cmd with
    | none => s
    | some c =>
      if (c.phase = .started ∨ c.phase = .waiting) ∧ c.desc.opcode = 0x58 ∧ s.commandsRun = true then
        s.attempt cmd c (fun s id c _ => opShutdown s id c bist writeFails)
      else s)

/-- Attempt the waiting commands in acceptance order until one waits no longer. -/
def attemptWaiting : List Nat → State → State
  | [], s => s
  | id :: l, s =>
    match s.cmd? id with
    | none => attemptWaiting l s
    | some c =>
      if c.phase = .waiting ∧ c.desc.opcode ≠ 0x58 then
        let t := (s.attempt id c (effectOf c.desc.opcode)).settled s id c
        if ((t.cmd? id).map (·.phase)) = some .waiting then attemptWaiting l t else t
      else attemptWaiting l s

/-- The row WAITING_COMMAND_EFFECT: the first command that waited and can take effect now does (R76). -/
def execWaitingCommandEffect (s : State) : Host.Outcome State Fault Refusal :=
  .next (if s.commandsRun then attemptWaiting s.cmds.keys s else s)

/-! ## SOURCE_READ_FAIL (R550) -/

/-- The first read of a source fails: nothing has been allotted. -/
def State.sourceUnread (s : State) (id : Nat) : State :=
  match s.cmd? id with
  | none => s
  | some c =>
    if (c.phase = .started ∨ c.phase = .waiting) ∧ s.commandsRun = true ∧ s.failed pgGlb = false then
      match s.readsSource c with
      | some (p, code) => ((s.recErr p code).complete id .internal).dropSource id
      | none => s
    else s

/-- The command has begun to store what it reads: a load of a model that is not loaded yet. -/
def State.loadsModel (s : State) (id : Nat) : Bool := (s.models.find? (fun _ m => !m.loaded && m.cmd == some id)).isSome

/-- The row SOURCE_READ_FAIL: at the first read of the source, or at a later one. -/
def execSourceReadFail (cmd : Nat) (s : State) : Host.Outcome State Fault Refusal :=
  .next (if ((s.cmd? cmd).map (·.phase)) = some .running ∨ s.loadsModel cmd = true then s.sourceFail cmd else s.sourceUnread cmd)

end Sys2Proof.Machine
end

