-- ==== Sys2Proof/Machine/Dispatch.lean ====
section
/-!
DEFINITION. The effect of each command: one arm per row of the table, each a call of its meaning.
-/
namespace Sys2Proof.Machine

/-- The effect of a command on everything but the queue. -/
def exec (i : Instr) (s : State) : Host.Outcome State Fault Refusal :=
  match i with
  | .nop cmd => Sys2Proof.Machine.execNop cmd s
  | .fence cmd => Sys2Proof.Machine.execFence cmd s
  | .sessCreate cmd => Sys2Proof.Machine.execSessCreate cmd s
  | .sessClose cmd => Sys2Proof.Machine.execSessClose cmd s
  | .sessFork cmd => Sys2Proof.Machine.execSessFork cmd s
  | .sessQuery cmd => Sys2Proof.Machine.execSessQuery cmd s
  | .appendText cmd => Sys2Proof.Machine.execAppendText cmd s
  | .appendTokens cmd => Sys2Proof.Machine.execAppendTokens cmd s
  | .step cmd => Sys2Proof.Machine.execStep cmd s
  | .toolWait cmd => Sys2Proof.Machine.execToolWait cmd s
  | .resume cmd => Sys2Proof.Machine.execResume cmd s
  | .park cmd => Sys2Proof.Machine.execPark cmd s
  | .exportCapsule cmd => Sys2Proof.Machine.execExportCapsule cmd s
  | .importCapsule cmd content => Sys2Proof.Machine.execImportCapsule cmd content s
  | .migrateOut cmd => Sys2Proof.Machine.execMigrateOut cmd s
  | .migrateIn cmd content word => Sys2Proof.Machine.execMigrateIn cmd content word s
  | .reclaim cmd content word => Sys2Proof.Machine.execReclaim cmd content word s
  | .embLookup cmd => Sys2Proof.Machine.execEmbLookup cmd s
  | .embUpdate cmd => Sys2Proof.Machine.execEmbUpdate cmd s
  | .embReplicate cmd => Sys2Proof.Machine.execEmbReplicate cmd s
  | .memInsert cmd => Sys2Proof.Machine.execMemInsert cmd s
  | .memDelete cmd => Sys2Proof.Machine.execMemDelete cmd s
  | .memSearch cmd => Sys2Proof.Machine.execMemSearch cmd s
  | .memCompact cmd => Sys2Proof.Machine.execMemCompact cmd s
  | .modelLoad cmd => Sys2Proof.Machine.execModelLoad cmd s
  | .modelUnload cmd => Sys2Proof.Machine.execModelUnload cmd s
  | .constraintLoad cmd => Sys2Proof.Machine.execConstraintLoad cmd s
  | .vocabLoad cmd => Sys2Proof.Machine.execVocabLoad cmd s
  | .ckptTake cmd => Sys2Proof.Machine.execCkptTake cmd s
  | .ckptRestore cmd => Sys2Proof.Machine.execCkptRestore cmd s
  | .tenantOpen cmd => Sys2Proof.Machine.execTenantOpen cmd s
  | .tenantClose cmd => Sys2Proof.Machine.execTenantClose cmd s
  | .shutdown cmd bist writeFails => Sys2Proof.Machine.execShutdown cmd bist writeFails s
  | .waitingCommandEffect => Sys2Proof.Machine.execWaitingCommandEffect s
  | .descriptorFetch ring readable => Sys2Proof.Machine.execDescriptorFetch ring readable s
  | .commandDequeue => Sys2Proof.Machine.execCommandDequeue s
  | .lateDrop => Sys2Proof.Machine.execLateDrop s
  | .admSampleWindowEnd => Sys2Proof.Machine.execAdmSampleWindowEnd s
  | .commandWatchdog cmd => Sys2Proof.Machine.execCommandWatchdog cmd s
  | .sqDoorbell ring tail stores => Sys2Proof.Machine.execSqDoorbell ring tail stores s
  | .cqDoorbell ring head => Sys2Proof.Machine.execCqDoorbell ring head s
  | .push ring q7 stores => Sys2Proof.Machine.execPush ring q7 stores s
  | .ringEnable ring function => Sys2Proof.Machine.execRingEnable ring function s
  | .ringDisable ring => Sys2Proof.Machine.execRingDisable ring s
  | .ringSoftRst ring => Sys2Proof.Machine.execRingSoftRst ring s
  | .ringDrained ring => Sys2Proof.Machine.execRingDrained ring s
  | .descriptorReadFail ring => Sys2Proof.Machine.execDescriptorReadFail ring s
  | .completionWriteFail ring => Sys2Proof.Machine.execCompletionWriteFail ring s
  | .payloadWriteFail cmd => Sys2Proof.Machine.execPayloadWriteFail cmd s
  | .sourceReadFail cmd => Sys2Proof.Machine.execSourceReadFail cmd s
  | .coalesceTimer ring => Sys2Proof.Machine.execCoalesceTimer ring s
  | .ringBind value => Sys2Proof.Machine.execRingBind value s
  | .ringUnbind value => Sys2Proof.Machine.execRingUnbind value s
  | .badRegisterAccess access => Sys2Proof.Machine.execBadRegisterAccess access s
  | .registerWrite off value wide => Sys2Proof.Machine.execRegisterWrite off value wide s
  | .blockEnable page en => Sys2Proof.Machine.execBlockEnable page en s
  | .softRst page => Sys2Proof.Machine.execSoftRst page s
  | .commit page => Sys2Proof.Machine.execCommit page s
  | .shadowApply page => Sys2Proof.Machine.execShadowApply page s
  | .intStatusClear page bits => Sys2Proof.Machine.execIntStatusClear page bits s
  | .intSet page bits => Sys2Proof.Machine.execIntSet page bits s
  | .intEnableWrite page bits => Sys2Proof.Machine.execIntEnableWrite page bits s
  | .sdirEnable en => Sys2Proof.Machine.execSdirEnable en s
  | .sdirInitDone => Sys2Proof.Machine.execSdirInitDone s
  | .stmEnable en => Sys2Proof.Machine.execStmEnable en s
  | .caneEnable en => Sys2Proof.Machine.execCaneEnable en s
  | .gafEnable en => Sys2Proof.Machine.execGafEnable en s
  | .admEnable en => Sys2Proof.Machine.execAdmEnable en s
  | .mrvEnable en => Sys2Proof.Machine.execMrvEnable en s
  | .jckEnable en => Sys2Proof.Machine.execJckEnable en s
  | .embEnable en => Sys2Proof.Machine.execEmbEnable en s
  | .srchEnable en => Sys2Proof.Machine.execSrchEnable en s
  | .famEnable en => Sys2Proof.Machine.execFamEnable en s
  | .ckpEnable en => Sys2Proof.Machine.execCkpEnable en s
  | .ckpInitDone => Sys2Proof.Machine.execCkpInitDone s
  | .secEnable en => Sys2Proof.Machine.execSecEnable en s
  | .secInitDone => Sys2Proof.Machine.execSecInitDone s
  | .telEnable which en => Sys2Proof.Machine.execTelEnable which en s
  | .fabEnable n en => Sys2Proof.Machine.execFabEnable n en s
  | .famMapCommit => Sys2Proof.Machine.execFamMapCommit s
  | .deadMarkClear => Sys2Proof.Machine.execDeadMarkClear s
  | .tblValidWrite v => Sys2Proof.Machine.execTblValidWrite v s
  | .collValidWrite v => Sys2Proof.Machine.execCollValidWrite v s
  | .keyinGo value => Sys2Proof.Machine.execKeyinGo value s
  | .keyDiscard => Sys2Proof.Machine.execKeyDiscard s
  | .tenBindGo value => Sys2Proof.Machine.execTenBindGo value s
  | .ckptBindGo value => Sys2Proof.Machine.execCkptBindGo value s
  | .setRevoke => Sys2Proof.Machine.execSetRevoke s
  | .streamStart => Sys2Proof.Machine.execStreamStart s
  | .streamStop => Sys2Proof.Machine.execStreamStop s
  | .streamRekey => Sys2Proof.Machine.execStreamRekey s
  | .streamAutoRekey n => Sys2Proof.Machine.execStreamAutoRekey n s
  | .domReq value => Sys2Proof.Machine.execDomReq value s
  | .domainTransitionDone domain => Sys2Proof.Machine.execDomainTransitionDone domain s
  | .autoWake domain => Sys2Proof.Machine.execAutoWake domain s
  | .autoIdleReturn domain => Sys2Proof.Machine.execAutoIdleReturn domain s
  | .aonClockGate => Sys2Proof.Machine.execAonClockGate s
  | .coreSwToPll => Sys2Proof.Machine.execCoreSwToPll s
  | .coreSwToStart => Sys2Proof.Machine.execCoreSwToStart s
  | .rstDeviceCold value => Sys2Proof.Machine.execRstDeviceCold value s
  | .getMeasurements index => Sys2Proof.Machine.execGetMeasurements index s
  | .spdmRequest req => Sys2Proof.Machine.execSpdmRequest req s
  | .keyDeliver session payload unwraps => Sys2Proof.Machine.execKeyDeliver session payload unwraps s
  | .lifecycleAdvance session mctp payload y => Sys2Proof.Machine.execLifecycleAdvance session mctp payload y s
  | .telRead payload => Sys2Proof.Machine.execTelRead payload s
  | .entdaa addr => Sys2Proof.Machine.execEntdaa addr s
  | .fp32Add m => Sys2Proof.Machine.execFp32Add m s
  | .rowStore m => Sys2Proof.Machine.execRowStore m s
  | .rowReq m => Sys2Proof.Machine.execRowReq m s
  | .rowData m => Sys2Proof.Machine.execRowData m s
  | .applied m => Sys2Proof.Machine.execApplied m s
  | .leaseNote m word => Sys2Proof.Machine.execLeaseNote m word s
  | .quietNote m => Sys2Proof.Machine.execQuietNote m s
  | .quietSpanEnd device => Sys2Proof.Machine.execQuietSpanEnd device s
  | .peerSlotTimeout source => Sys2Proof.Machine.execPeerSlotTimeout source s
  | .peerResend req => Sys2Proof.Machine.execPeerResend req s
  | .apertureBadAccess source => Sys2Proof.Machine.execApertureBadAccess source s
  | .vinRise mv => Sys2Proof.Machine.execVinRise mv s
  | .vinUvWarn mv => Sys2Proof.Machine.execVinUvWarn mv s
  | .vinUvFault mv => Sys2Proof.Machine.execVinUvFault mv s
  | .vinOvWarn mv => Sys2Proof.Machine.execVinOvWarn mv s
  | .vinOvFault mv => Sys2Proof.Machine.execVinOvFault mv s
  | .vinOvRecovery mv => Sys2Proof.Machine.execVinOvRecovery mv s
  | .tabFault => Sys2Proof.Machine.execTabFault s
  | .governorStepDown ma w c => Sys2Proof.Machine.execGovernorStepDown ma w c s
  | .governorStepUp ma w c => Sys2Proof.Machine.execGovernorStepUp ma w c s
  | .thermalTrip c => Sys2Proof.Machine.execThermalTrip c s
  | .resetNAssert => Sys2Proof.Machine.execResetNAssert s
  | .boot b => Sys2Proof.Machine.execBoot b s
  | .benchWatchdog => Sys2Proof.Machine.execBenchWatchdog s
  | .flr function => Sys2Proof.Machine.execFlr function s
  | .refclkLost => Sys2Proof.Machine.execRefclkLost s
  | .refclkQualified khz => Sys2Proof.Machine.execRefclkQualified khz s
  | .pllLockFail => Sys2Proof.Machine.execPllLockFail s
  | .jtagInstruction instr => Sys2Proof.Machine.execJtagInstruction instr s
  | .rngHealthFail => Sys2Proof.Machine.execRngHealthFail s
  | .keyMemoryUe => Sys2Proof.Machine.execKeyMemoryUe s
  | .linkL0 n rate width => Sys2Proof.Machine.execLinkL0 n rate width s
  | .linkTrainTimeout n => Sys2Proof.Machine.execLinkTrainTimeout n s
  | .linkRetrain n => Sys2Proof.Machine.execLinkRetrain n s
  | .linkDown n => Sys2Proof.Machine.execLinkDown n s
  | .ideIntegrityFail stream n => Sys2Proof.Machine.execIdeIntegrityFail stream n s
  | .fabricCompletion req result => Sys2Proof.Machine.execFabricCompletion req result s
  | .fabricTimeout device => Sys2Proof.Machine.execFabricTimeout device s
  | .deadWalkDone device => Sys2Proof.Machine.execDeadWalkDone device s
  | .leaseCasResult addr found reread => Sys2Proof.Machine.execLeaseCasResult addr found reread s
  | .leaseValidationResult slot word => Sys2Proof.Machine.execLeaseValidationResult slot word s
  | .leasePoll cmd word => Sys2Proof.Machine.execLeasePoll cmd word s
  | .offerTimeout cmd => Sys2Proof.Machine.execOfferTimeout cmd s
  | .stepCompose => Sys2Proof.Machine.execStepCompose s
  | .gatherTimeout => Sys2Proof.Machine.execGatherTimeout s
  | .tailAllotGiveUp slot => Sys2Proof.Machine.execTailAllotGiveUp slot s
  | .tileEnd core work ran next => Sys2Proof.Machine.execTileEnd core work ran next s
  | .urgentWindowEnd => Sys2Proof.Machine.execUrgentWindowEnd s
  | .stepCommit slot => Sys2Proof.Machine.execStepCommit slot s
  | .versionWaitTimeout slot => Sys2Proof.Machine.execVersionWaitTimeout slot s
  | .compactionSpaceReady turn => Sys2Proof.Machine.execCompactionSpaceReady turn s
  | .compactionAbandon slot => Sys2Proof.Machine.execCompactionAbandon slot s
  | .partialSlotFree slot => Sys2Proof.Machine.execPartialSlotFree slot s
  | .coreSramUe core => Sys2Proof.Machine.execCoreSramUe core s
  | .clusterSramUe cluster => Sys2Proof.Machine.execClusterSramUe cluster s
  | .dirMissFill slot ue => Sys2Proof.Machine.execDirMissFill slot ue s
  | .dirTagParity set => Sys2Proof.Machine.execDirTagParity set s
  | .overstay slot => Sys2Proof.Machine.execOverstay slot s
  | .reheatF1 slot => Sys2Proof.Machine.execReheatF1 slot s
  | .reheatF2 slot => Sys2Proof.Machine.execReheatF2 slot s
  | .hotIdleDemote slot => Sys2Proof.Machine.execHotIdleDemote slot s
  | .ageDemote slot => Sys2Proof.Machine.execAgeDemote slot s
  | .pressureDemotion => Sys2Proof.Machine.execPressureDemotion s
  | .moveStart => Sys2Proof.Machine.execMoveStart s
  | .tileTransfer outcome => Sys2Proof.Machine.execTileTransfer outcome s
  | .creditWindowEnd => Sys2Proof.Machine.execCreditWindowEnd s
  | .moveCommit => Sys2Proof.Machine.execMoveCommit s
  | .promotionSpaceTimeout => Sys2Proof.Machine.execPromotionSpaceTimeout s
  | .pageFree => Sys2Proof.Machine.execPageFree s
  | .pageRecordUe node n => Sys2Proof.Machine.execPageRecordUe node n s
  | .embBatchClose => Sys2Proof.Machine.execEmbBatchClose s
  | .embBatchCommit => Sys2Proof.Machine.execEmbBatchCommit s
  | .detEpochClose table epoch => Sys2Proof.Machine.execDetEpochClose table epoch s
  | .embRowUe table row stack primary => Sys2Proof.Machine.execEmbRowUe table row stack primary s
  | .srchBatchClose => Sys2Proof.Machine.execSrchBatchClose s
  | .channelScanDone => Sys2Proof.Machine.execChannelScanDone s
  | .srchBatchCommit => Sys2Proof.Machine.execSrchBatchCommit s
  | .memCompactSwitch => Sys2Proof.Machine.execMemCompactSwitch s
  | .groupFail coll graph => Sys2Proof.Machine.execGroupFail coll graph s
  | .ckptTimer => Sys2Proof.Machine.execCkptTimer s
  | .ckptStepCount => Sys2Proof.Machine.execCkptStepCount s
  | .ckptCut => Sys2Proof.Machine.execCkptCut s
  | .ckptFreezeEnd => Sys2Proof.Machine.execCkptFreezeEnd s
  | .ckptManifestDone => Sys2Proof.Machine.execCkptManifestDone s
  | .ckptAbort writeFail => Sys2Proof.Machine.execCkptAbort writeFail s
  | .restoreDone words failed => Sys2Proof.Machine.execRestoreDone words failed s
  | .modelLoadDone program => Sys2Proof.Machine.execModelLoadDone program s
  | .capsuleExportDone writeFail => Sys2Proof.Machine.execCapsuleExportDone writeFail s
  | .capsuleImportDone => Sys2Proof.Machine.execCapsuleImportDone s
  | .finingPrepDone t => Sys2Proof.Machine.execFiningPrepDone t s
  | .quietWindowClose => Sys2Proof.Machine.execQuietWindowClose s
  | .scrubUnitVisit => Sys2Proof.Machine.execScrubUnitVisit s
  | .finingSramZero => Sys2Proof.Machine.execFiningSramZero s
  | .finingPassEnd => Sys2Proof.Machine.execFiningPassEnd s
  | .calibrationDue => Sys2Proof.Machine.execCalibrationDue s
  | .bwWindowEnd counts => Sys2Proof.Machine.execBwWindowEnd counts s
  | .dumpWriteDone => Sys2Proof.Machine.execDumpWriteDone s
  | .tagWriteDone => Sys2Proof.Machine.execTagWriteDone s
  | .telRingWriteFail tag => Sys2Proof.Machine.execTelRingWriteFail tag s
  | .windowHalfFilled filled bytes stalls => Sys2Proof.Machine.execWindowHalfFilled filled bytes stalls s
  | .vocabLoadDone => Sys2Proof.Machine.execVocabLoadDone s
  | .pllUnlock => Sys2Proof.Machine.execPllUnlock s
  | .powerStageFault => Sys2Proof.Machine.execPowerStageFault s
  | .mctpControlMessage => Sys2Proof.Machine.execMctpControlMessage s
  | .configRequest function => Sys2Proof.Machine.execConfigRequest function s
  | .msixVectorUnmask function entry => Sys2Proof.Machine.execMsixVectorUnmask function entry s
  | .l0pWidthChange n width => Sys2Proof.Machine.execL0pWidthChange n width s
  | .spdmHeartbeatTimeout session => Sys2Proof.Machine.execSpdmHeartbeatTimeout session s

end Sys2Proof.Machine
end

