-- ==== Sys2Proof/WellFormed.lean ====
section
/-!
DEFINITION. Well-formed commands: an operand that names a slot, port, domain, tenant, table, stream or device lies in the range that
the spec gives it. Operands whose type is as wide as their field, and numbers of the device's own records, need no check.
-/
namespace Sys2Proof.Machine

/-- Link widths x16, x8 and x4 (R373). -/
def linkWidth (w : Nat) : Bool := w == 16 || w == 8 || w == 4

/-- A device id: 0x0000 and 0xFFFF mean no device (R376). -/
def deviceId (d : Nat) : Bool := decide (0 < d) && decide (d < 65535)

/-- A peer message: its source is a device, its fields fit their places, and its body fits a slot (R384, R386). -/
def PeerMsg.wf (m : PeerMsg) : Bool :=
  deviceId m.source && decide (m.msgSeq < 2 ^ 32) && decide (m.table < 256) && decide (m.row < 2 ^ 64)
    && decide (m.epoch < 2 ^ 32)

/-- A tile's rows are session slots, and its times ascend (R519). -/
def TileRan.wf (r : TileRan) : Bool :=
  r.rows.all (fun k => decide (k < 2 ^ 24)) && decide (r.queued ≤ r.ready) && decide (r.ready ≤ r.start)

end Sys2Proof.Machine

namespace Sys2Proof

open Sys2Proof.Machine

/-- Well-formed commands. -/
def Instr.wf (i : Instr) : Bool :=
  match i with
  | .nop _ => true
  | .fence _ => true
  | .sessCreate _ => true
  | .sessClose _ => true
  | .sessFork _ => true
  | .sessQuery _ => true
  | .appendText _ => true
  | .appendTokens _ => true
  | .step _ => true
  | .toolWait _ => true
  | .resume _ => true
  | .park _ => true
  | .exportCapsule _ => true
  | .importCapsule _ _ => true
  | .migrateOut _ => true
  | .migrateIn _ _ _ => true
  | .reclaim _ _ _ => true
  | .embLookup _ => true
  | .embUpdate _ => true
  | .embReplicate _ => true
  | .memInsert _ => true
  | .memDelete _ => true
  | .memSearch _ => true
  | .memCompact _ => true
  | .modelLoad _ => true
  | .modelUnload _ => true
  | .constraintLoad _ => true
  | .vocabLoad _ => true
  | .ckptTake _ => true
  | .ckptRestore _ => true
  | .tenantOpen _ => true
  | .tenantClose _ => true
  | .shutdown _ _ _ => true
  | .waitingCommandEffect => true
  | .descriptorFetch _ _ => true
  | .commandDequeue => true
  | .lateDrop => true
  | .admSampleWindowEnd => true
  | .commandWatchdog _ => true
  | .sqDoorbell _ _ _ => true
  | .cqDoorbell _ _ => true
  | .push _ _ _ => true
  | .ringEnable _ _ => true
  | .ringDisable _ => true
  | .ringSoftRst _ => true
  | .ringDrained _ => true
  | .descriptorReadFail _ => true
  | .completionWriteFail _ => true
  | .payloadWriteFail _ => true
  | .sourceReadFail _ => true
  | .coalesceTimer _ => true
  | .ringBind _ => true
  | .ringUnbind _ => true
  | .badRegisterAccess _ => true
  | .registerWrite _ _ _ => true
  | .blockEnable _ _ => true
  | .softRst _ => true
  | .commit _ => true
  | .shadowApply _ => true
  | .intStatusClear _ _ => true
  | .intSet _ _ => true
  | .intEnableWrite _ _ => true
  | .sdirEnable _ => true
  | .sdirInitDone => true
  | .stmEnable _ => true
  | .caneEnable _ => true
  | .gafEnable _ => true
  | .admEnable _ => true
  | .mrvEnable _ => true
  | .jckEnable _ => true
  | .embEnable _ => true
  | .srchEnable _ => true
  | .famEnable _ => true
  | .ckpEnable _ => true
  | .ckpInitDone => true
  | .secEnable _ => true
  | .secInitDone => true
  | .telEnable _ _ => true
  | .fabEnable _ _ => true
  | .famMapCommit => true
  | .deadMarkClear => true
  | .tblValidWrite _ => true
  | .collValidWrite _ => true
  | .keyinGo _ => true
  | .keyDiscard => true
  | .tenBindGo _ => true
  | .ckptBindGo _ => true
  | .setRevoke => true
  | .streamStart => true
  | .streamStop => true
  | .streamRekey => true
  | .streamAutoRekey n => decide (1 ≤ n) && decide (n < 256)
  | .domReq _ => true
  | .domainTransitionDone domain => decide (domain < 168)
  | .autoWake domain => decide (domain < 168)
  | .autoIdleReturn domain => decide (domain < 168)
  | .aonClockGate => true
  | .coreSwToPll => true
  | .coreSwToStart => true
  | .rstDeviceCold _ => true
  | .getMeasurements index => decide (index < 256)
  | .spdmRequest _ => true
  | .keyDeliver _ _ _ => true
  | .lifecycleAdvance _ _ _ _ => true
  | .telRead payload => decide (payload.length ≤ 4096)
  | .entdaa _ => true
  | .fp32Add m => m.wf
  | .rowStore m => m.wf
  | .rowReq m => m.wf
  | .rowData m => m.wf
  | .applied m => m.wf
  | .leaseNote m _ => m.wf
  | .quietNote m => m.wf
  | .quietSpanEnd device => deviceId device
  | .peerSlotTimeout source => deviceId source
  | .peerResend _ => true
  | .apertureBadAccess source => deviceId source
  | .vinRise _ => true
  | .vinUvWarn _ => true
  | .vinUvFault _ => true
  | .vinOvWarn _ => true
  | .vinOvFault _ => true
  | .vinOvRecovery _ => true
  | .tabFault => true
  | .governorStepDown _ _ _ => true
  | .governorStepUp _ _ _ => true
  | .thermalTrip _ => true
  | .resetNAssert => true
  | .boot b => decide (b.slotId < 256)
  | .benchWatchdog => true
  | .flr _ => true
  | .refclkLost => true
  | .refclkQualified _ => true
  | .pllLockFail => true
  | .jtagInstruction _ => true
  | .rngHealthFail => true
  | .keyMemoryUe => true
  | .linkL0 n rate width => decide (n < 8) && decide (rate < 3) && linkWidth width
  | .linkTrainTimeout n => decide (n < 8)
  | .linkRetrain n => decide (n < 8)
  | .linkDown n => decide (n < 8)
  | .ideIntegrityFail stream _ => decide (1 ≤ stream) && decide (stream < 256)
  | .fabricCompletion _ _ => true
  | .fabricTimeout device => deviceId device
  | .deadWalkDone device => deviceId device
  | .leaseCasResult addr _ _ => decide (addr % 8 = 0)
  | .leaseValidationResult slot _ => decide (slot < 2 ^ 24)
  | .leasePoll _ _ => true
  | .offerTimeout _ => true
  | .stepCompose => true
  | .gatherTimeout => true
  | .tailAllotGiveUp slot => decide (slot < 2 ^ 24)
  | .tileEnd _ _ ran _ => ran.wf
  | .urgentWindowEnd => true
  | .stepCommit slot => decide (slot < 2 ^ 24)
  | .versionWaitTimeout slot => decide (slot < 2 ^ 24)
  | .compactionSpaceReady turn => decide (turn.slot < 2 ^ 24)
  | .compactionAbandon slot => decide (slot < 2 ^ 24)
  | .partialSlotFree slot => decide (slot < 2 ^ 24)
  | .coreSramUe _ => true
  | .clusterSramUe _ => true
  | .dirMissFill slot _ => decide (slot < 2 ^ 24)
  | .dirTagParity _ => true
  | .overstay slot => decide (slot < 2 ^ 24)
  | .reheatF1 slot => decide (slot < 2 ^ 24)
  | .reheatF2 slot => decide (slot < 2 ^ 24)
  | .hotIdleDemote slot => decide (slot < 2 ^ 24)
  | .ageDemote slot => decide (slot < 2 ^ 24)
  | .pressureDemotion => true
  | .moveStart => true
  | .tileTransfer _ => true
  | .creditWindowEnd => true
  | .moveCommit => true
  | .promotionSpaceTimeout => true
  | .pageFree => true
  | .pageRecordUe _ _ => true
  | .embBatchClose => true
  | .embBatchCommit => true
  | .detEpochClose table epoch => decide (table < 256) && decide (epoch < 2 ^ 64)
  | .embRowUe table row stack _ => decide (table < 256) && decide (row < 2 ^ 32) && decide (stack < 12)
  | .srchBatchClose => true
  | .channelScanDone => true
  | .srchBatchCommit => true
  | .memCompactSwitch => true
  | .groupFail coll _ => decide (coll < 256)
  | .ckptTimer => true
  | .ckptStepCount => true
  | .ckptCut => true
  | .ckptFreezeEnd => true
  | .ckptManifestDone => true
  | .ckptAbort _ => true
  | .restoreDone words _ => words.all (fun e => e.1 % 8 == 0)
  | .modelLoadDone _ => true
  | .capsuleExportDone _ => true
  | .capsuleImportDone => true
  | .finingPrepDone t => decide (t < 4096)
  | .quietWindowClose => true
  | .scrubUnitVisit => true
  | .finingSramZero => true
  | .finingPassEnd => true
  | .calibrationDue => true
  | .bwWindowEnd _ => true
  | .dumpWriteDone => true
  | .tagWriteDone => true
  | .telRingWriteFail _ => true
  | .windowHalfFilled _ _ _ => true
  | .vocabLoadDone => true
  | .pllUnlock => true
  | .powerStageFault => true
  | .mctpControlMessage => true
  | .configRequest _ => true
  | .msixVectorUnmask _ _ => true
  | .l0pWidthChange n width => decide (n < 8) && linkWidth width
  | .spdmHeartbeatTimeout _ => true

end Sys2Proof
end

