-- ==== Sys2Proof/Safety.lean ====
section
/-!
DEFINITION. What the claims call safe: a step that goes on, and the invariants that they state of every step.
-/
namespace Sys2Proof.Machine

/-- The memories of the state are in their canonical form: the BAR 2 window, host memory, the fabric targets' memory, and
the HBM that holds embedding tables. -/
def State.memOk (s : State) : Prop :=
  s.window.wf = true ∧ s.host.wf = true ∧ s.fabric.wf = true ∧ s.hbm.wf = true

/-- A CLOSED tenant holds no key (R443, R464). -/
def State.closedKeyless (s : State) : Prop :=
  ∀ t x, s.tenants.get? t = some x → x.state = .closed → x.keys = false ∧ x.ttks = [] ∧ x.ttkKeys = []

/-- The life-cycle state is one of those of R490. -/
def State.lifecycleOk (s : State) : Prop := s.plat.lifecycle ≤ 3

/-- Every command that waits is well-formed. -/
def State.pendingWf (s : State) : Prop := ∀ c, c ∈ s.pending → c.wf = true

/-- A state from which the step goes on. -/
def Safe (s : State) : Prop := ∃ t, step s = .next t

/-! ## A command with nothing in its way -/

/-- The command `id` has been dequeued and is to take effect, and the device runs commands (R66, R416, R423). -/
def State.started (s : State) (id op : Nat) (c : Cmd) : Prop :=
  s.cmd? id = some c ∧ c.phase = .started ∧ c.desc.opcode = op ∧ s.commandsRun = true ∧ s.failed pgGlb = false

/-- What a command needs besides its session is there: blocks that have not failed, a sound list of free slots, the text domain,
the map entries of its fabric ranges, and a source that can be read. -/
def State.served (s : State) (c : Cmd) (leased : Bool) : Prop :=
  s.blockFailed c.desc.opcode = false ∧ ([0x10, 0x12, 0x21, 0x23].contains c.desc.opcode && s.freeListBad) = false ∧
  (usesText c.desc.opcode && !s.textOn) = false ∧
  (fabricRanges c.desc leased = [] ∨
    s.enabled pgFam = true ∧ (fabricRanges c.desc leased).any (fun e => !s.mapped e.1 e.2) = false) ∧
  s.sourceDead c.desc = false

/-- A started command that names no session and that nothing holds back. -/
def State.readyPlain (s : State) (id op : Nat) (c : Cmd) : Prop :=
  s.started id op c ∧ c.desc.handle = 0 ∧ s.served c false

/-- The command's handle resolves to the session `x` (R75), none of whose pages is in a bad record (R188). -/
def State.names (s : State) (c : Cmd) (x : Session) : Prop :=
  c.desc.handle ≠ 0 ∧ s.enabled pgSdir = true ∧ s.sdir.missing.contains (handleSlot c.desc.handle) = false ∧
  s.resolve c.desc = none ∧ s.session? (handleSlot c.desc.handle) = some x ∧ s.holdsBad x = false

/-- The command as it takes effect: it keeps the slot that its handle names. -/
def Cmd.resolved (c : Cmd) : Cmd := { c with slot := some (handleSlot c.desc.handle) }

/-- The state once the command has been resolved. -/
def State.reaches (s : State) (id : Nat) (c : Cmd) : State :=
  s.onCmd id (fun e => { e with slot := some (handleSlot c.desc.handle) })

/-- The state in which a session's own waits are looked at: a promoting command has ended a demotion (R81). -/
def State.turns (s : State) (id : Nat) (c : Cmd) : State :=
  if promotes c.desc.opcode then (s.reaches id c).cancelDown (handleSlot c.desc.handle) else s.reaches id c

/-- The state in which the effect begins: a commit has used its lease validation (R396). -/
def State.atEffect (s : State) (id : Nat) (c : Cmd) (x : Session) : State :=
  if (s.turns id c).commits x c.resolved then (s.turns id c).useLease (handleSlot c.desc.handle) else s.turns id c

/-- Nothing holds a command of the session `x` back: no earlier command of the session, no wait of R76, no move, compaction or
export, no missing lease validation, version, page index, state mover, key, domain or map entry. -/
def State.clear (s : State) (id op : Nat) (c : Cmd) (x : Session) : Prop :=
  s.names c x ∧ op ≠ 0x13 ∧ op < 0x30 ∧ (s.reaches id c).heldByEarlier id c.desc = false ∧
  turnOf x c.desc = .now ∧ (x.residency = .moving → op = 0x1C) ∧ x.compact = none ∧
  (s.turns id c).heldByExport (handleSlot c.desc.handle) c.desc = false ∧ (x.bad = true → op = 0x11 ∨ x.residency = .away) ∧
  (x.rec'.scoresOk = false → op = 0x11 ∨ x.residency = .away) ∧
  ((s.turns id c).needsMove x c.resolved && !(s.turns id c).enabled pgStm) = false ∧
  (s.turns id c).awaitVersion id c.resolved (handleSlot c.desc.handle) x = none ∧
  (x.needsPages c.desc && !(s.turns id c).enabled pgCane) = false ∧
  ((s.turns id c).commits x c.resolved = true → (s.turns id c).leaseOk x = true) ∧ (s.atEffect id c x).served c x.leased

/-- A started command of the session `x` that nothing holds back. -/
def State.readyOn (s : State) (id op : Nat) (c : Cmd) (x : Session) : Prop := s.started id op c ∧ s.clear id op c x

/-- A command of the session `x` that waited, and that nothing holds back any longer (R76). -/
def State.waitedOn (s : State) (id op : Nat) (c : Cmd) (x : Session) : Prop :=
  s.cmd? id = some c ∧ c.phase = .waiting ∧ c.desc.opcode = op ∧ s.commandsRun = true ∧ s.failed pgGlb = false ∧
  s.clear id op c x

/-- A started command of the embedding or search engine that names the session `x` and that nothing holds back. -/
def State.readyRows (s : State) (id op : Nat) (c : Cmd) (x : Session) : Prop :=
  s.started id op c ∧ s.names c x ∧ 0x30 ≤ op ∧ (s.reaches id c).heldByEarlier id c.desc = false ∧ x.compact = none ∧
  ¬(x.residency = .moving ∧ op = 0x30 ∧ c.desc.opt 8 2 = 1) ∧ (s.reaches id c).served c x.leased

/-! ## The invariants and the frames of the whole machine -/

/-- What holds of every state that a step leads to: no CLOSED tenant holds a key, and the life cycle is one of R490's. -/
def State.inv (s : State) : Prop := s.closedKeyless ∧ s.lifecycleOk

/-- Every memory is in its canonical form, those of checkpoints that are under way or stored too. -/
def State.canonical (s : State) : Prop :=
  s.memOk ∧ (∀ k m, s.ckp.store.get? k = some m → m.snap.hbm.wf = true) ∧
  (∀ r c, s.ckp.run = some r → r.cut = some c → c.hbm.wf = true)

end Sys2Proof.Machine

/-! ## Commands by what they may change -/

/-- Power comes or goes, a reset, or SHUTDOWN: the commands that take volatile state away (R472, R485, R494). -/
def Sys2Proof.Instr.resets (i : Sys2Proof.Instr) : Bool :=
  match i with
  | .rstDeviceCold _ | .vinRise _ | .vinUvFault _ | .vinOvFault _ | .vinOvRecovery _ | .thermalTrip _ |
  .resetNAssert | .benchWatchdog | .jtagInstruction _ | .shutdown _ _ _ => true
  | _ => false

/-- The commands, these aside, that set the tick and the count of boots (R486, R503). -/
def Sys2Proof.Instr.boots (i : Sys2Proof.Instr) : Bool :=
  match i with
  | .boot _ => true
  | _ => false

/-- Those that mask or unmask vectors (R29, R485). -/
def Sys2Proof.Instr.masks (i : Sys2Proof.Instr) : Bool :=
  match i with
  | .flr _ | .msixVectorUnmask _ _ => true
  | _ => false

/-- Those that accept commands (R37, R427). -/
def Sys2Proof.Instr.accepts (i : Sys2Proof.Instr) : Bool :=
  match i with
  | .descriptorFetch _ _ | .restoreDone _ _ => true
  | _ => false

/-- Those that begin or end the quiescing of a checkpoint (R416, R417, R421). -/
def Sys2Proof.Instr.freezes (i : Sys2Proof.Instr) : Bool :=
  match i with
  | .ckptTake _ | .waitingCommandEffect | .fabricTimeout _ | .ckptTimer | .ckptStepCount | .ckptCut | .ckptFreezeEnd
  | .ckptAbort _ => true
  | _ => false

/-- Those that change a tenant or its keys (R442, R456, R459, R460, R491). -/
def Sys2Proof.Instr.changesTenants (i : Sys2Proof.Instr) : Bool :=
  match i with
  | .tenantOpen _ | .tenantClose _ | .waitingCommandEffect | .tenBindGo _ | .lifecycleAdvance _ _ _ _ |
  .finingPrepDone _ | .quietWindowClose | .finingPassEnd => true
  | _ => false

/-- Those that change the table of models (R218, R220, R459), or whose source may fail with a load (R550). -/
def Sys2Proof.Instr.changesModels (i : Sys2Proof.Instr) : Bool :=
  match i with
  | .modelLoad _ | .modelUnload _ | .tenantClose _ | .waitingCommandEffect | .commandWatchdog _ | .sourceReadFail _
  | .fabricTimeout _ | .modelLoadDone _ | .finingPrepDone _ | .importCapsule _ _ | .migrateIn _ _ _ | .reclaim _ _ _ |
  .vocabLoad _ => true
  | _ => false

/-- Those that change the vocabularies (R287, R288). -/
def Sys2Proof.Instr.changesVocabs (i : Sys2Proof.Instr) : Bool :=
  match i with
  | .modelUnload _ | .tenantClose _ | .waitingCommandEffect | .finingPrepDone _ | .vocabLoadDone => true
  | _ => false

/-- Those that change the constraint objects (R302, R306, R428, R475). -/
def Sys2Proof.Instr.changesObjects (i : Sys2Proof.Instr) : Bool :=
  match i with
  | .constraintLoad _ | .tenantClose _ | .waitingCommandEffect | .domainTransitionDone _ | .autoIdleReturn _ |
  .restoreDone _ _ | .finingPrepDone _ => true
  | _ => false

/-- Those that change the migrations in progress (R397 to R401), or whose source may fail with one (R550). -/
def Sys2Proof.Instr.migrates (i : Sys2Proof.Instr) : Bool :=
  match i with
  | .commandWatchdog _ | .sourceReadFail _ | .leaseNote _ _ | .fabricTimeout _ | .leaseCasResult _ _ _ |
  .leasePoll _ _ | .offerTimeout _ | .partialSlotFree _ | .capsuleExportDone _ | .capsuleImportDone |
  .importCapsule _ _ | .migrateIn _ _ _ | .reclaim _ _ _ | .modelLoad _ | .vocabLoad _ | .waitingCommandEffect => true
  | _ => false

/-- Those that store to fabric memory (R130, R318, R395, R419). -/
def Sys2Proof.Instr.storesFabric (i : Sys2Proof.Instr) : Bool :=
  match i with
  | .fabricTimeout _ | .leaseCasResult _ _ _ | .embBatchCommit | .ckptManifestDone | .restoreDone _ _ |
  .capsuleExportDone _ => true
  | _ => false

/-- Those that store to the HBM of embedding tables (R320, R428). -/
def Sys2Proof.Instr.storesHbm (i : Sys2Proof.Instr) : Bool :=
  match i with
  | .embBatchCommit | .restoreDone _ _ => true
  | _ => false
end

