-- ==== Sys2Proof/Certificates/Slice0/Obligations.lean ====
section
/-!
DEFINITION. The statements for the provers: what the commands of the device do, by the numbered rules of the spec, and what every
step keeps. Numbers R<n> are rules of the spec; a log entry is a row of notes/assumptions.
-/
open Sys2Proof Sys2Proof.Machine

/-! ## Command rings (R37 to R54) -/

/-- SQ_DOORBELL on an ENABLED ring, after the stores of host software that precede it (R43 to R45): TAIL takes the count, and
nothing else of the device changes but the clock gate of R481; a count that would make more than 2^SQ_LOG2 descriptors wait is
discarded with 0x0004. CQ_DOORBELL on a ring that is not DISABLED: HEAD takes the count; one that would consume completions
not yet written is discarded with 0x0005. An SQ_DOORBELL or a push of a ring that is DRAINING or HALTED is discarded and
records 0x0008, and on a DISABLED ring it is discarded and records nothing (the model's choice: log entry 9); the stores of
host software that precede it stand. A CQ_DOORBELL of a DISABLED ring is discarded (log entry 9). -/
def Obligations.RingDoorbells : Prop :=
  (∀ (n : BitVec 8) (s : State), s.live = true →
    ((s.ring n.toNat).state = .enabled → ∀ (tail : Word) (stores : List HostStore),
      ((tail - (s.ring n.toNat).sqHead).toNat ≤ 2 ^ (s.ring n.toNat).sqLog2 →
        exec (.sqDoorbell n tail stores) s
          = .next ((s.hostStores stores).ungate.setRing n.toNat { s.ring n.toNat with sqTail := tail })) ∧
      (2 ^ (s.ring n.toNat).sqLog2 < (tail - (s.ring n.toNat).sqHead).toNat →
        exec (.sqDoorbell n tail stores) s = .next ((s.hostStores stores).ungate.ringErr n.toNat 0x0004))) ∧
    ((s.ring n.toNat).state ≠ .disabled → ∀ head : Word,
      ((head - (s.ring n.toNat).cqHead).toNat ≤ (s.ring n.toNat).unread →
        exec (.cqDoorbell n head) s = .next (s.ungate.setRing n.toNat { s.ring n.toNat with cqHead := head })) ∧
      ((s.ring n.toNat).unread < (head - (s.ring n.toNat).cqHead).toNat →
        exec (.cqDoorbell n head) s = .next (s.ungate.ringErr n.toNat 0x0005)))) ∧
  (∀ (n : BitVec 8) (stores : List HostStore) (s : State), s.live = true →
    let u := (s.hostStores stores).ungate
    ((s.ring n.toNat).state = .draining ∨ (s.ring n.toNat).state = .halted →
      (∀ tail, exec (.sqDoorbell n tail stores) s = .next (u.ringErr n.toNat 0x0008)) ∧
      (∀ q7, exec (.push n q7 stores) s = .next (u.ringErr n.toNat 0x0008))) ∧
    ((s.ring n.toNat).state = .disabled →
      (∀ tail, exec (.sqDoorbell n tail stores) s = .next u) ∧ (∀ q7, exec (.push n q7 stores) s = .next u) ∧
      (∀ head, exec (.cqDoorbell n head) s = .next s.ungate)))

/-- A push of a whole descriptor is taken as the next descriptor of the ring, TAIL advances by one (R46), and when SQ_HEAD
reaches its number the fetch reads exactly the eight quadwords that were written. A push with a quadword missing, or while an
earlier push has not been fetched, is discarded with 0x0008, and one that finds the ring full with 0x0004 (R43, R46). -/
def Obligations.PushIsFetched : Prop :=
  ∀ (n : BitVec 8) (q7 : DWord) (stores : List HostStore) (s : State), s.live = true →
    (s.ring n.toNat).state = .enabled →
    let u := (s.hostStores stores).ungate
    let whole := [0, 1, 2, 3, 4, 5, 6].all (fun i => (s.ring n.toNat).stage.has i)
    (whole = true → (s.ring n.toNat).pushed = none → (s.ring n.toNat).waiting < 2 ^ (s.ring n.toNat).sqLog2 →
      ∃ t, exec (.push n q7 stores) s = .next t ∧ t = u.setRing n.toNat (t.ring n.toNat) ∧
        (t.ring n.toNat).sqTail = (s.ring n.toNat).sqTail + 1 ∧ (t.ring n.toNat).stage = ⟨[]⟩ ∧
        t.nextDescriptor { t.ring n.toNat with sqHead := (s.ring n.toNat).sqTail } = pushBytes (s.ring n.toNat).stage q7) ∧
    (whole = false ∨ (s.ring n.toNat).pushed ≠ none → exec (.push n q7 stores) s = .next (u.ringErr n.toNat 0x0008)) ∧
    (whole = true → (s.ring n.toNat).pushed = none → 2 ^ (s.ring n.toNat).sqLog2 ≤ (s.ring n.toNat).waiting →
      exec (.push n q7 stores) s = .next (u.ringErr n.toNat 0x0004))

/-- A descriptor that fails validation is fetched and completes at once with the status and DETAIL of the first check that
fails (R37, R47, R56); one that passes becomes a command of its ring with the next acceptance number (R59). -/
def Obligations.DescriptorFetched : Prop :=
  ∀ (n : BitVec 8) (readable : Bool) (s : State), s.live = true → (s.ring n.toNat).mayFetch = true →
    let r := s.ring n.toNat
    let d := Desc.ofBytes (s.nextDescriptor r)
    let u := s.ungate.setRing n.toNat r.fetched
    let c : Cmd := { ring := n.toNat, seq := r.sqHead.toNat, desc := d, tenant := r.tenant, admin := r.admin,
                     acceptTick := s.tick }
    (∀ st detail, s.validate r d readable = some (st, detail) →
      exec (.descriptorFetch n readable) s
        = .next ((u.writeCompletion n.toNat d st detail d.handle 0).release n.toNat)) ∧
    (s.validate r d readable = none →
      exec (.descriptorFetch n readable) s
        = .next ((({ u with cmds := u.cmds.set s.nextCmd c, nextCmd := s.nextCmd + 1 }).bump .ADM_TEN_SUBMITTED_COUNT
            r.tenant).takeIn s.nextCmd c))

/-- CTRL.EN of a DISABLED ring opens it with its counts at 0 where the set-up check passes, and records the check's code where
it does not; CTRL.EN written 0 drains an ENABLED ring; CTRL.SOFT_RST drains a ring that is not DISABLED, whose completions are
then discarded; a DRAINING ring with nothing outstanding goes DISABLED, and one with commands outstanding does not (R43).
CTRL.SOFT_RST of a DISABLED ring clears its counts and its error, and every set-up field keeps its value (R43). -/
def Obligations.RingStates : Prop :=
  (∀ (n : BitVec 8) (s : State), s.live = true →
    (∀ f : BitVec 4, (s.ring n.toNat).state = .disabled → (s.ring n.toNat).enableCode = 0 →
      exec (.ringEnable n f) s
        = .next (s.ungate.setRing n.toNat ({ s.ring n.toNat with function := f.toNat } : Ring).opened)) ∧
    (∀ f : BitVec 4, (s.ring n.toNat).state = .disabled → (s.ring n.toNat).enableCode ≠ 0 →
      exec (.ringEnable n f) s = .next (s.ungate.ringErr n.toNat (s.ring n.toNat).enableCode)) ∧
    ((s.ring n.toNat).state = .enabled →
      exec (.ringDisable n) s = .next (s.ungate.setRing n.toNat { s.ring n.toNat with en := false, state := .draining })) ∧
    ((s.ring n.toNat).state ≠ .disabled →
      exec (.ringSoftRst n) s = .next (s.ungate.setRing n.toNat { s.ring n.toNat with state := .draining, discard := true })) ∧
    ((s.ring n.toNat).state = .draining → (s.ring n.toNat).outstanding = 0 →
      exec (.ringDrained n) s = .next (s.setRing n.toNat (s.ring n.toNat).drained) ∧
      (s.ring n.toNat).drained.state = .disabled ∧ (s.ring n.toNat).drained.en = false) ∧
    ((s.ring n.toNat).outstanding ≠ 0 → exec (.ringDrained n) s = .next s)) ∧
  (∀ (n : BitVec 8) (s : State), s.live = true → (s.ring n.toNat).state = .disabled →
    ∃ t, exec (.ringSoftRst n) s = .next t ∧
      (t.ring n.toNat).state = .disabled ∧ (t.ring n.toNat).err = false ∧ (t.ring n.toNat).code = 0 ∧
      (t.ring n.toNat).sqTail = 0 ∧ (t.ring n.toNat).cqHead = 0 ∧ (t.ring n.toNat).sqHead = 0 ∧
      (t.ring n.toNat).cqTail = 0 ∧ (t.ring n.toNat).dropped = 0 ∧
      (t.ring n.toNat).sqBase = (s.ring n.toNat).sqBase ∧ (t.ring n.toNat).cqBase = (s.ring n.toNat).cqBase ∧
      (t.ring n.toNat).sqInWindow = (s.ring n.toNat).sqInWindow ∧ (t.ring n.toNat).cqInWindow = (s.ring n.toNat).cqInWindow ∧
      (t.ring n.toNat).sqLog2 = (s.ring n.toNat).sqLog2 ∧ (t.ring n.toNat).cqLog2 = (s.ring n.toNat).cqLog2 ∧
      (t.ring n.toNat).vector = (s.ring n.toNat).vector ∧ (t.ring n.toNat).bound = (s.ring n.toNat).bound ∧
      (t.ring n.toNat).tenant = (s.ring n.toNat).tenant ∧
      (∀ k, k ≠ n.toNat → t.ring k = s.ring k))

/-- A descriptor read of an ENABLED ring that fails halts the ring with 0x0006; the write of a ring's newest completion, not
read yet, that fails records 0x0007 and halts the ring if it is ENABLED (R43). That completion is taken back and counted in
DROPPED, and no other ring changes. What the failed write leaves in a slot of host memory is 32 free values (log entry 1); a
slot in the window holds what it held before. -/
def Obligations.RingFailures : Prop :=
  ∀ (n : BitVec 8) (s : State),
    let r := s.ring n.toNat
    let slot := r.cqSlot (r.cqTail - 1)
    (r.state = .enabled → r.waiting ≠ 0 →
      exec (.descriptorReadFail n) s = .next ((s.setRing n.toNat { r with state := .halted }).ringErr n.toNat 0x0006)) ∧
    (∀ u : CqUndo, r.state ≠ .disabled → r.lastCq = some u → r.unread ≠ 0 →
      ∃ t, exec (.completionWriteFail n) s = .next t ∧
        (t.ring n.toNat).state = (if r.state = .enabled then .halted else r.state) ∧
        (t.ring n.toNat).cqTail = r.cqTail - 1 ∧ (t.ring n.toNat).dropped = satAdd 32 r.dropped 1 ∧
        (t.ring n.toNat).err = true ∧ (t.ring n.toNat).code = (if r.code = 0 then 7 else r.code) ∧
        (∀ k, k ≠ n.toNat → t.ring k = s.ring k) ∧
        (r.cqInWindow = true → t.window = s.window.writeN slot u.old ∧ t.host = s.host ∧ t.free = s.free) ∧
        (r.cqInWindow = false →
          t.window = s.window ∧ t.host = s.host.writeN slot (freeBytes s.free 32) ∧ t.free = s.free + 32))

/-- A bind of a DISABLED ring to an OPEN tenant, or as administrative, with an allotment inside the window gives the ring that
tenant and that allotment; a bind that fails a check is discarded and records the check's code at GLB; an unbind of a DISABLED
ring takes the binding and the allotment away, and one of a ring that is not DISABLED is discarded with 0x0010 (R41). -/
def Obligations.RingBinding : Prop :=
  ∀ (v : Word) (s : State), s.live = true →
    (bitAt v.toNat 31 = true → bindCode s v = 0 →
      ∃ t, exec (.ringBind v) s = .next t ∧
        (t.ring (bitsOf v.toNat 0 8)).bound = true ∧
        (t.ring (bitsOf v.toNat 0 8)).tenant = bitsOf v.toNat 8 12 ∧
        (t.ring (bitsOf v.toNat 0 8)).admin = bitAt v.toNat 20 ∧
        (t.ring (bitsOf v.toNat 0 8)).winBase = s.reg .GLB_RING_WIN_WIN_BASE ∧
        (t.ring (bitsOf v.toNat 0 8)).winUnits = s.reg .GLB_RING_WIN_WIN_UNITS ∧
        (∀ k, k ≠ bitsOf v.toNat 0 8 → t.ring k = s.ring k)) ∧
    (bitAt v.toNat 31 = true → bindCode s v ≠ 0 → exec (.ringBind v) s = .next (s.ungate.recErr pgGlb (bindCode s v))) ∧
    (bitAt v.toNat 30 = true → bitAt v.toNat 31 = false → (s.ring (bitsOf v.toNat 0 8)).state = .disabled →
      ∃ t, exec (.ringUnbind v) s = .next t ∧
        t.ring (bitsOf v.toNat 0 8) = (s.ring (bitsOf v.toNat 0 8)).unbind ∧
        (∀ k, k ≠ bitsOf v.toNat 0 8 → t.ring k = s.ring k)) ∧
    (bitAt v.toNat 30 = true → bitAt v.toNat 31 = false → (s.ring (bitsOf v.toNat 0 8)).state ≠ .disabled →
      exec (.ringUnbind v) s = .next (s.ungate.recErr pgGlb 0x0010))

/-- A final completion of an accepted command whose ring does not discard completions (R37, R47, R52, R53): its 32 bytes stand
in the slot of the completion ring that CQ_TAIL named, with the phase of R53; CQ_TAIL goes up by one, OUTSTANDING goes down by
one, and the device holds the command no longer. A ring that drains after CTRL.SOFT_RST discards the completion: no byte of
memory changes, and DROPPED counts it (R43). -/
def Obligations.CompletionWritten : Prop :=
  (∀ (s : State) (id detail result handle : Nat) (st : Status) (c : Cmd), s.cmd? id = some c →
    (s.ring c.ring).discard = false →
    let r := s.ring c.ring
    let t := s.completeH id st detail result handle
    let l := lateStatus c s.tick st detail
    t.readMem r.cqInWindow (r.cqSlot r.cqTail) 32
        = completionBytes c.desc.opcode (phaseBit r.cqLog2 r.cqTail) l.1.code c.desc.tag l.2 handle s.tick result ∧
      (t.ring c.ring).cqTail = r.cqTail + 1 ∧ (t.ring c.ring).outstanding = r.outstanding - 1 ∧ t.cmd? id = none ∧
      (∀ k, k ≠ c.ring → t.ring k = s.ring k) ∧ (∀ k, k ≠ id → t.cmd? k = s.cmd? k)) ∧
  (∀ (s : State) (id detail result handle : Nat) (st : Status) (c : Cmd), s.cmd? id = some c →
    (s.ring c.ring).discard = true →
    let t := s.completeH id st detail result handle
    t.window = s.window ∧ t.host = s.host ∧ t.fabric = s.fabric ∧ t.cmd? id = none ∧
      (t.ring c.ring).dropped = satAdd 32 (s.ring c.ring).dropped 1 ∧ (t.ring c.ring).cqTail = (s.ring c.ring).cqTail ∧
      (t.ring c.ring).outstanding = (s.ring c.ring).outstanding - 1)

/-- INT_SET, INT_STATUS and INT_ENABLE of a block page (R28, R29): the message of the page is due when the enabled set stops
being empty, and again after a write to INT_STATUS that leaves it non-empty; the rest of the page is as it was. On a ring page
they act on the ring's registers, and its message goes out on MSIX.VECTOR; enabling CQ while INT_STATUS.CQ is 1 sends it too
(R54). A message whose vector is masked is held as a pending bit, and the write of its table entry that unmasks the vector
sends it with the entry's address and data (R29). When COALESCE.TIME has passed since the first unsignalled completion,
INT_STATUS.CQ is set and every completion written so far counts as signalled; if INT_ENABLE.CQ is 1 the MSI-X message goes out
on MSIX.VECTOR, with the address and data of the vector's table entry, and a masked vector holds it as a pending bit (R29,
R54). -/
def Obligations.InterruptRegisters : Prop :=
  (∀ (p : BitVec 10) (bits : Word) (s : State), s.live = true → (isBlockPage p.toNat = true →
    let c := s.common p.toNat
    (exec (.intSet p bits) s = .next (
      let t := s.ungate.setCommon p.toNat { c with int := c.int ||| (bits &&& intMask) }
      if c.int &&& c.intEn = 0 ∧ (c.int ||| (bits &&& intMask)) &&& c.intEn ≠ 0 then t.routeMsg p.toNat else t)) ∧
    (exec (.intEnableWrite p bits) s = .next (
      let t := s.ungate.setCommon p.toNat { c with intEn := bits &&& intMask }
      if c.int &&& c.intEn = 0 ∧ c.int &&& (bits &&& intMask) ≠ 0 then t.routeMsg p.toNat else t)) ∧
    (bits &&& 6 = 0 → p.toNat ≠ pgClk → exec (.intStatusClear p bits) s = .next (
      let t := s.ungate.setCommon p.toNat { c with int := c.int &&& ~~~ bits }
      if (c.int &&& ~~~ bits) &&& c.intEn ≠ 0 then t.routeMsg p.toNat else t))) ∧
    (∀ n : Nat, n < 256 → p.toNat = 512 + n →
      let r := s.ring n
      let send (t : State) : State := t.sendMsi r.vector r.function
      (exec (.intSet p bits) s = .next (
        let t := s.ungate.setRing n { r with int := r.int ||| (bits &&& 7) }
        if r.int &&& r.intEn = 0 ∧ (r.int ||| (bits &&& 7)) &&& r.intEn ≠ 0 then send t else t)) ∧
      (exec (.intEnableWrite p bits) s = .next (
        let t := s.ungate.setRing n { r with intEn := bits &&& 7 }
        if (r.int &&& r.intEn = 0 ∧ r.int &&& (bits &&& 7) ≠ 0) ∨ (r.intEn &&& 1 = 0 ∧ r.int &&& (bits &&& 7) &&& 1 ≠ 0) then
          send t else t)) ∧
      (bits &&& 6 = 0 → exec (.intStatusClear p bits) s = .next (
        let t := s.ungate.setRing n { r with int := r.int &&& ~~~ bits }
        if (r.int &&& ~~~ bits) &&& r.intEn ≠ 0 then send t else t)) ∧
      (bits &&& 2 ≠ 0 → ∃ t, exec (.intStatusClear p bits) s = .next t ∧ (t.ring n).code = 0 ∧ (t.ring n).err = false ∧
        (t.ring n).int = r.int &&& ~~~ bits))) ∧
  (∀ (f : BitVec 4) (v : BitVec 11) (address : DWord) (data : Word) (s : State),
    let k := f.toNat * 2048 + v.toNat
    let e : MsixEntry := { address := address, data := data }
    s.unmasked.contains k = false →
    (s.sendMsi v.toNat f.toNat).sent = s.sent ∧ (s.sendMsi v.toNat f.toNat).msixPending.contains k = true ∧
    ∃ t, exec (.msixVectorUnmask f ⟨v, address, data⟩) (s.sendMsi v.toNat f.toNat) = .next t ∧
      t.sent = (k, e) :: s.sent ∧ t.msixEntry k = e ∧ t.unmasked.contains k = true ∧ t.msixPending.contains k = false ∧
      t.regs = s.regs ∧ t.commons = s.commons ∧ t.rings = s.rings) ∧
  (∀ (n : BitVec 8) (s : State), (s.ring n.toNat).unsignalled ≠ 0 → (s.ring n.toNat).coalTime ≠ 0 →
    (s.ring n.toNat).unsignalledSince + (s.ring n.toNat).coalTime * 1000 ≤ s.tick →
    ∃ t, exec (.coalesceTimer n) s = .next t ∧
      t.ring n.toNat = { s.ring n.toNat with int := (s.ring n.toNat).int ||| 1, unsignalled := 0 } ∧
      ((s.ring n.toNat).intEn &&& 1 = 0 → t.sent = s.sent ∧ t.msixPending = s.msixPending) ∧
      ((s.ring n.toNat).intEn &&& 1 = 1 →
        s.unmasked.contains ((s.ring n.toNat).function * 2048 + (s.ring n.toNat).vector) = true →
        t.sent = ((s.ring n.toNat).function * 2048 + (s.ring n.toNat).vector,
          s.msixEntry ((s.ring n.toNat).function * 2048 + (s.ring n.toNat).vector)) :: s.sent) ∧
      ((s.ring n.toNat).intEn &&& 1 = 1 →
        s.unmasked.contains ((s.ring n.toNat).function * 2048 + (s.ring n.toNat).vector) = false →
        t.sent = s.sent ∧ t.msixPending.contains ((s.ring n.toNat).function * 2048 + (s.ring n.toNat).vector) = true) ∧
      t.cmds = s.cmds ∧ t.window = s.window ∧ t.host = s.host)

/-! ## Registers (R10, R11, R27 to R34, R547, R551) -/

/-- ERR_CODE keeps the first error recorded since its last clear (R30), of a block page and of a ring page alike: an error
that is recorded while ERR_CODE is 0 sets it; a later one leaves it; and a write to INT_STATUS clears it exactly where its bit
ERR is 1. -/
def Obligations.FirstErrorKept : Prop :=
  ∀ (s : State) (p : BitVec 10) (code : Nat), code ≠ 0 →
    ((s.common p.toNat).code = 0 → ((s.recErr p.toNat code).common p.toNat).code = code) ∧
    ((s.common p.toNat).code ≠ 0 →
      ((s.recErr p.toNat code).common p.toNat).code = (s.common p.toNat).code) ∧
    ((s.recErr p.toNat code).common p.toNat).err = true ∧
    (∀ bits : Word, s.live = true → isBlockPage p.toNat = true →
      ∃ t, exec (.intStatusClear p bits) s = .next t ∧
        (t.common p.toNat).code = (if bits &&& 2 = 0 then (s.common p.toNat).code else 0) ∧
        (t.common p.toNat).err = ((s.common p.toNat).err && decide (bits &&& 2 = 0))) ∧
    (∀ n : Nat, ringOf p.toNat = some n →
      ((s.ringErr n code).ring n).code = (if (s.ring n).code = 0 then code else (s.ring n).code) ∧
      ((s.ringErr n code).ring n).err = true ∧
      ∀ bits : Word, s.live = true → ∃ t, exec (.intStatusClear p bits) s = .next t ∧
        (t.ring n).code = (if bits &&& 2 = 0 then (s.ring n).code else 0) ∧
        (t.ring n).err = ((s.ring n).err && decide (bits &&& 2 = 0)))

/-- A page of BAR 0 that the map does not assign, and that is no ring's (R27): every register of it reads as 0, and a write to
it by any row is discarded, with the error bits of every page and ring as they were. -/
def Obligations.UnassignedPages : Prop :=
  ∀ (s : State) (p : BitVec 10), isBlockPage p.toNat = false → ringOf p.toNat = none →
    (∀ off : Nat, s.read32 p.toNat off = 0) ∧
    (s.live = true →
      (∀ (off : BitVec 26) (v : DWord) (wide : Bool), off.toNat / 4096 = p.toNat →
        off.toNat % (if wide then 8 else 4) = 0 → exec (.registerWrite off v wide) s = .next s.ungate) ∧
      (∀ bits : Word, exec (.intSet p bits) s = .next s.ungate ∧ exec (.intEnableWrite p bits) s = .next s.ungate ∧
        exec (.intStatusClear p bits) s = .next s.ungate) ∧
      (∀ en : Bool, exec (.blockEnable p en) s = .next s.ungate) ∧
      exec (.softRst p) s = .next s.ungate ∧ exec (.commit p) s = .next s.ungate) ∧
    (∀ q, s.ungate.common q = s.common q) ∧ (∀ n, s.ungate.ring n = s.ring n)

/-- An access to BAR 0 (R10, R11, R27, R31 to R34): one that is not aligned records 0x0001 at GLB with its offset, and as a
read returns 0xFFFF_FFFF; a write to a block-specific register of an assigned page writes the fields it names, and one to CTRL
its HOLD bit; one to a page that is not assigned, and that is no ring, does nothing; SIZES of a ring takes its two fields
while EN is 0, and sets LOCK_ERR while EN is 1. -/
def Obligations.RegisterWrites : Prop :=
  ∀ (off : BitVec 26) (v : DWord) (wide : Bool) (s : State), s.live = true →
    exec (.badRegisterAccess ⟨off, false⟩) s
        = .next ((s.ungate.recErr pgGlb 0x0001).setReg .GLB_ACCESS_ERR_OFFSET off.toNat) ∧
    (∃ t, exec (.badRegisterAccess ⟨off, false⟩) s = .next t ∧
      exec (.badRegisterAccess ⟨off, true⟩) s = .next { t with out := OutMsg.regRead 0xFFFFFFFF :: t.out }) ∧
    (off.toNat % (if wide then 8 else 4) ≠ 0 →
      exec (.registerWrite off v wide) s
        = .next ((s.ungate.recErr pgGlb 0x0001).setReg .GLB_ACCESS_ERR_OFFSET off.toNat)) ∧
    (off.toNat % (if wide then 8 else 4) = 0 → ringOf (off.toNat / 4096) = none → isBlockPage (off.toNat / 4096) = true →
      0x040 ≤ off.toNat % 4096 →
      exec (.registerWrite off v wide) s = .next (s.ungate.writeFields (off.toNat / 4096)
        (s.writtenFields (off.toNat / 4096) (off.toNat % 4096) v wide))) ∧
    (off.toNat % (if wide then 8 else 4) = 0 → ringOf (off.toNat / 4096) = none → isBlockPage (off.toNat / 4096) = false →
      exec (.registerWrite off v wide) s = .next s.ungate) ∧
    (off.toNat % (if wide then 8 else 4) = 0 → ringOf (off.toNat / 4096) = none → isBlockPage (off.toNat / 4096) = true →
      off.toNat % 4096 = 0x008 →
      exec (.registerWrite off v wide) s = .next (s.ungate.setCommon (off.toNat / 4096)
        { s.common (off.toNat / 4096) with hold := bitAt v.toNat 3 })) ∧
    (∀ n : Nat, n < 256 → off.toNat = 4096 * (512 + n) + 0x060 → wide = false →
      ((s.ring n).en = false → exec (.registerWrite off v wide) s = .next (s.ungate.setRing n
        { s.ring n with sqLog2 := bitsOf (v.toNat % 2 ^ 32) 0 5, cqLog2 := bitsOf (v.toNat % 2 ^ 32) 8 5 })) ∧
      ((s.ring n).en = true → ∃ t, exec (.registerWrite off v wide) s = .next t ∧ t.ring n =
        { s.ring n with lockErr := true, int := (s.ring n).int ||| 4 } ∧ (∀ k, k ≠ n → t.ring k = s.ring k)))

/-- CTRL.EN, CTRL.SOFT_RST and CTRL.COMMIT of a block page, and its safe point (R26, R28, R32). A block without a row of its
own for EN goes ENABLED, with its counters at 0, and back to DISABLED; one that runs keeps running where EN is written 1
again. A soft reset clears PROGRESS, the pending values and a waiting commit of the page, and leaves EN, STATE, ERR and the
queued commands as they are. Where the block is not enabled, not busy, or has no safe point, a commit applies every pending
value at once and clears HOLD; where it runs and is busy, the commit waits for the safe point, which then applies them. -/
def Obligations.BlockControl : Prop :=
  ∀ (p : BitVec 10) (s : State), s.live = true → isBlockPage p.toNat = true →
    (∀ en, isPlatform p.toNat = true → s.failed p.toNat = false →
      exec (.blockEnable p en) s = .next (s.ungate.setEn p.toNat en)) ∧
    (plainEnable p.toNat = true → isPlatform p.toNat = false → s.pageState p.toNat = 0 →
      exec (.blockEnable p true) s = .next (s.ungate.enableBlock p.toNat)) ∧
    (plainEnable p.toNat = true → isPlatform p.toNat = false → s.pageState p.toNat ≠ 0 → s.failed p.toNat = false →
      exec (.blockEnable p true) s = .next s.ungate ∧ exec (.blockEnable p false) s = .next (s.ungate.disableBlock p.toNat)) ∧
    (∃ t, exec (.softRst p) s = .next t ∧ (t.common p.toNat).position = 0 ∧ (t.common p.toNat).percent = 0 ∧
      (t.common p.toNat).valid = false ∧ (t.common p.toNat).commitPend = false ∧ (t.common p.toNat).shadowPend = false ∧
      (t.common p.toNat).en = (s.common p.toNat).en ∧ t.pageState p.toNat = s.pageState p.toNat ∧
      (t.common p.toNat).err = (s.common p.toNat).err ∧ (∀ q, q ≠ p.toNat → t.common q = s.common q) ∧
      t.cmds = s.cmds ∧ t.rings = s.rings ∧ t.sdir = s.sdir) ∧
    (p.toNat ≠ pgFam → hasSafePoint p.toNat = false ∨ (s.common p.toNat).en = false ∨ s.ungate.busy p.toNat = false →
      exec (.commit p) s = .next ((s.ungate.applyShadow p.toNat).setCommon p.toNat
        { (s.ungate.applyShadow p.toNat).common p.toNat with hold := false, commitPend := false })) ∧
    (p.toNat ≠ pgFam → hasSafePoint p.toNat = true → (s.common p.toNat).en = true → s.ungate.busy p.toNat = true →
      exec (.commit p) s = .next (s.ungate.setCommon p.toNat { s.common p.toNat with commitPend := true })) ∧
    (s.atSafePoint p.toNat = true → (s.common p.toNat).commitPend = true →
      exec (.shadowApply p) s = .next ((s.applyShadow p.toNat).setCommon p.toNat
        { (s.applyShadow p.toNat).common p.toNat with hold := false, commitPend := false }))

/-! ## Session commands (R51, R63, R75 to R95, R150, R151, R257 to R300) -/

/-- NOP, and a FENCE whose order is met, complete with OK and a RESULT of 0 and do nothing else (R51, R63). -/
def Obligations.NopAndFence : Prop :=
  ∀ (s : State) (id : Nat) (c : Cmd),
    (s.readyPlain id 0x01 c → exec (.nop id) s = .next ((s.complete id .ok 0 0).settled s id c)) ∧
    (s.readyPlain id 0x02 c → exec (.fence id) s = .next ((s.complete id .ok 0 0).settled s id c))

/-- SESS_CREATE with a parameter block that passes its checks, quota, a free slot and room (R84, R85): the session of the
command's tenant is in the slot, WARM and IDLE, with the generation after the slot's last one, no positions and its
parameters, and the completion is OK with the new handle. SESS_FORK of a session in HBM, whose checks of R86 and R88 pass,
into the free slot `k`: the child of R87 and R177 stands there, WARM, of the parent's tenant and NR, with the inherited
positions, the shared pages first in its table, the inherited input and the parameters asked for; its record starts at
STEP_SEQ 0; it is RUNNABLE if it has input, else IDLE. Where the cut falls on a page boundary it has the shared pages alone,
and each of them has one more reference. No other session changes, and the completion carries the child's handle, with the
inherited positions and shared pages as RESULT. -/
def Obligations.SessionsCreatedAndForked : Prop :=
  (∀ (s : State) (id k : Nat) (c : Cmd) (p : Params), s.readyPlain id 0x10 c → s.enabled pgSdir = true →
    createParams (s.payload c.desc) = some p → (p.namesAny && !s.enabled pgJck) = false → s.paramsOk c.tenant p = true →
    s.roomForSession c.tenant (s.model p.model).layout = (0, s) → s.nextSlot = some k →
    let t := (s.placeSession (s.newSession c.tenant p)).2
    exec (.sessCreate id) s = .next ((t.completeH id .ok 0 0 (mkHandle c.tenant k (s.nextGen k))).settled s id c) ∧
    ∃ y, t.session? k = some y ∧ y.tenant = c.tenant ∧ y.generation = s.nextGen k ∧ y.residency = .warm ∧
      y.runState = .idle ∧ y.positions = 0 ∧ y.table = [] ∧ y.input = [] ∧ y.cls = p.cls ∧ y.rec'.params = p) ∧
  (∀ (s : State) (id k : Nat) (c : Cmd) (x y : Session) (p : Params), s.readyOn id 0x12 c x →
    let u := s.atEffect id c x
    let f := forkCut y (c.desc.specF 39 36)
    let l := u.layoutOf y
    u.session? (handleSlot c.desc.handle) = some y → u.enabled pgCane = true → y.inHbm = true →
    c.desc.specF 39 36 ≤ y.positions + y.input.length → forkParams y c.desc (u.payload c.desc) = some p →
    p.model = y.rec'.params.model → (p.namesAny && !u.enabled pgJck) = false → u.paramsOk y.tenant p = true →
    u.roomForSession y.tenant l = (0, u) → u.nextSlot = some k →
    (f.rest = 0 ∨ u.freeRecord.isNone = false ∧ u.heapRoom y.tenant (l.recordBytes (u.nverOf y.tenant) + l.pageBytes) false = true) →
    u.heapRoom y.tenant (l.recordBytes (u.nverOf y.tenant) + (if f.rest = 0 then 0 else l.pageBytes) + inputBytes f.input)
      false = true →
    ∃ (t : State) (z : Session) (extra : List PtEntry),
      exec (.sessFork id) s = .next ((t.completeH id y.okStatus 0 (f.held + f.whole * 2 ^ 32)
        (mkHandle y.tenant k (u.nextGen k))).settled s id c) ∧
      t.session? k = some z ∧ z.tenant = y.tenant ∧ z.generation = u.nextGen k ∧ z.residency = .warm ∧ z.nr = y.nr ∧
      z.cls = (if c.desc.payLen = 0 then y.cls else p.cls) ∧ z.positions = f.held ∧ z.table = y.table.take f.whole ++ extra ∧
      z.input = f.input ∧ z.runState = (if f.input.isEmpty then .idle else .runnable) ∧ z.genReq = false ∧
      z.rec'.params = p ∧ z.rec'.stepSeq = 0 ∧ z.rec'.held = f.held ∧
      (f.rest = 0 → extra = [] ∧ ∀ n q, u.page? n = some q → q.refs ≠ 0 →
        (t.page? n).map (·.refs) = some (q.refs + ((y.table.take f.whole).map (·.frame)).count n)) ∧
      (∀ j, j ≠ k → t.session? j = u.session? j) ∧ t.window = u.window ∧ t.host = u.host ∧ t.cmds = u.cmds)

/-- SESS_QUERY writes the 64-byte query record where a payload of 64 bytes is given, completes with OK and the entry's RESULT,
and does nothing else (R89). SESS_CLOSE closes the session (R95): what its slot still holds, if anything, is CLOSED. -/
def Obligations.SessionsQueriedAndClosed : Prop :=
  (∀ (s : State) (id : Nat) (c : Cmd) (x : Session), s.started id 0x13 c → s.names c x →
    let u := s.reaches id c
    exec (.sessQuery id) s = .next (
      (if c.desc.payLen = 64 then
        ((u.writeMem c.desc.inWindow c.desc.payAddr x.queryRecord).complete id .ok 0 x.queryResult).settled s id c
      else (u.complete id .ok 0 x.queryResult).settled s id c))) ∧
  (∀ (s : State) (id : Nat) (c : Cmd) (x : Session), s.readyOn id 0x11 c x →
    let k := handleSlot c.desc.handle
    let w := (s.atEffect id c x).closeSession k
    ∃ t, exec (.sessClose id) s = .next t ∧ t = (w.1.complete id .ok w.2.1 w.2.2).settled s id c ∧
      (∀ y, t.session? k = some y → y.runState = .closed))

/-- APPEND_TEXT and APPEND_TOKENS with room for their tokens (R290, R293, R299, R300): the tokens enter the session's input,
the carry of the text stands in the step record, and the completion is OK with the counts of R299. -/
def Obligations.InputAppended : Prop :=
  ∀ (s : State) (id : Nat) (c : Cmd) (x y : Session) (v : Vocab) (l : List Nat) (elided : Nat),
    let k := handleSlot c.desc.handle
    let u := s.atEffect id c x
    u.session? k = some y →
    let w (taken : Nat) (units : List TextUnit) (carry : List Byte) : State :=
      let t := ((u.countInvalid units).bump .MRV_BYTES_IN_COUNT 0 taken).bump .MRV_TOKENS_IN_COUNT 0 l.length
      let t := if elided = 0 then t
        else ((t.bump .MRV_TRUNCATIONS_COUNT).bump .MRV_ELIDED_COUNT 0 elided).setIntBit pgMrv 9
      let t := ((t.promoting k).changeRecord k y carry (c.desc.optBit 9)).enterInput k (tokenInput l)
      (t.complete id .ok elided (appendResult l.length (badTotal units) (elided != 0) carry.length)).settled s id c
    (s.readyOn id 0x18 c x → u.enabled pgMrv = true → u.vocab? y.rec'.params.model = some v → v.failed = false →
      let bytes := y.rec'.carry ++ u.payload c.desc
      let d := decodeUtf8 bytes.length bytes
      let units := if c.desc.optBit 8 then d.1 ++ endUnits d.2 else d.1
      u.fit y (c.desc.optBit 10) (v.tokenize y.rec'.params.utf8Replace units) (some v) = .fits l elided →
      u.heapRoom y.tenant (inputBytes (tokenInput l)) false = true →
      exec (.appendText id) s = .next (w (u.payload c.desc).length units (if c.desc.optBit 8 then [] else d.2))) ∧
    (s.readyOn id 0x19 c x →
      let toks := (entriesOf (u.payload c.desc) 4 ((u.payload c.desc).length / 4)).map leNat
      let vc := u.vocab? y.rec'.params.model
      let units := endUnits y.rec'.carry
      toks.any (fun t => decide ((u.layoutOf y).vocab ≤ t)) = false →
      u.fit y (c.desc.optBit 10) ((vc.map (fun v => v.tokenize y.rec'.params.utf8Replace units)).getD [] ++ toks) vc
        = .fits l elided →
      ((vc.map (·.failed)).getD false && (!y.rec'.carry.isEmpty || elided != 0)) = false →
      u.heapRoom y.tenant (inputBytes (tokenInput l)) false = true →
      exec (.appendTokens id) s = .next (w 0 units []))

/-- STEP of a session that generates nothing now, whose units are there (R257, R258, R261): after its compaction point, which
in a RUNNING session is due at the end of its step, and the flush of the carry, GEN_REQ is 1, DEADLINE is the descriptor's,
the request is the descriptor's, and the command goes on running. With no token to generate and no input it completes with OK
and DETAIL 6. -/
def Obligations.StepBegun : Prop :=
  ∀ (s v : State) (id : Nat) (c : Cmd) (x y z : Session), s.readyOn id 0x1A c x →
    let k := handleSlot c.desc.handle
    let u := s.atEffect id c x
    let p := y.rec'.params
    u.session? k = some y → y.genReq = false → (c.desc.optBit 10 = true → u.enabled pgMrv = true) →
    (p.namesAny = true → u.enabled pgJck = true) →
    [(1, p.banSet), (2, p.schema), (3, p.escape), (4, p.exitProfile)].any (fun o =>
      o.2 != 0 && ((u.object? y.tenant o.1 o.2).map (·.failed)).getD false) = false →
    ((u.vocab? p.model).map (·.failed)).getD false = false → (u.enabled pgStm = true ∨ y.residency = .hot) →
    (c.desc.optBit 10 = true → (u.vocab? p.model).isSome = true) →
    let running := y.runState == .running
    u.point id c.resolved k (!c.desc.optBit 8 || running) = .passed v →
    let q := (if c.desc.optBit 8 && running then v.onSession k (fun e => { e with compactDue := some id }) else v).flushCarry k
    q.session? k = some z →
    (c.desc.specF 39 36 = 0 → z.input = [] →
      exec (.step id) s = .next ((q.complete id .ok 6).settled s id c)) ∧
    (c.desc.specF 39 36 ≠ 0 ∨ z.input ≠ [] →
      ∃ t w, exec (.step id) s = .next t ∧ t = (q.beginStep id c.resolved k).settled s id c ∧
        t.session? k = some w ∧ w.genReq = true ∧ w.deadline = c.desc.deadline ∧
        w.stepReq = some (stepReqOf id c.desc z) ∧ w.table = z.table ∧ w.positions = z.positions)

/-- TOOL_WAIT after its compaction point (R90, R91, R152): a wait that is outstanding ends, and the session is in TOOL_WAIT
with the resume tick that the descriptor's wait gives; the command goes on running until the wait ends. RESUME ends the wait
of a session in TOOL_WAIT (R94): without input it becomes IDLE, with input RUNNABLE, and RESUME completes with OK; of a
session that is in no wait it completes with OK and DETAIL 1. -/
def Obligations.WaitsBeginAndEnd : Prop :=
  (∀ (s v : State) (id : Nat) (c : Cmd) (x y : Session), s.readyOn id 0x1B c x →
    let k := handleSlot c.desc.handle
    (s.atEffect id c x).point id c.resolved k (c.desc.optBit 11) = .passed v → v.session? k = some y →
    ∃ t w, exec (.toolWait id) s = .next t ∧ t = (v.beginWait id c.resolved k).settled s id c ∧ t.session? k = some w ∧
      w.runState = .toolWait ∧ w.waitHeld = false ∧
      w.resumeTick = (if c.desc.specF 43 36 = 0 then 0 else min (c.effectTick v.tick + c.desc.specF 43 36) (2 ^ 64 - 1)) ∧
      w.wait.map (·.cmd) = some id) ∧
  (∀ (s : State) (id : Nat) (c : Cmd) (x y : Session), s.readyOn id 0x1C c x →
    let k := handleSlot c.desc.handle
    let u := s.atEffect id c x
    let v := if c.desc.deadline = 0 then u else u.onSession k (fun e => { e with deadline := c.desc.deadline })
    v.session? k = some y →
    (y.runState = .toolWait →
      exec (.resume id) s = .next (
        let t := (v.promoting k).endWait k .ok 0
        let t := if y.inputPend then t.becomeRunnable k else t.onSession k (fun e => { e with runState := .idle })
        (t.complete id .ok).settled s id c)) ∧
    (y.runState ≠ .toolWait → exec (.resume id) s = .next ((v.complete id .ok 1).settled s id c)))

/-- PARK after its compaction point (R147, R150, R151, R156): of a session that is not in HBM it completes with OK and DETAIL
1; where no tier takes the session it completes with NO_SPACE and the DETAIL of the refusal; where one does, a writeback of it
ends, and the demotion is asked for in the place of one already asked for, or, for WRITEBACK_ONLY, the copies of the sealed
pages that the tier lacks; the command goes on running. With no such page a WRITEBACK_ONLY completes at once. -/
def Obligations.ParkMoves : Prop :=
  ∀ (s v : State) (id : Nat) (c : Cmd) (x y : Session), s.readyOn id 0x1D c x →
    let k := handleSlot c.desc.handle
    let u := s.atEffect id c x
    u.enabled pgStm = true → (c.desc.opt 8 2 == 2 && u.regBit .STM_CFG_POOL_EN && !u.enabled pgFam) = false →
    u.point id c.resolved k (c.desc.optBit 10 || c.desc.optBit 11) = .passed v → v.session? k = some y →
    let g := v.parkTarget y (c.desc.opt 8 2)
    let n := v.countRefusal (v.parkWorn y (c.desc.opt 8 2))
    let w := n.stopWriteback k
    let lack := (w.pagesLacking y g.1).filter (fun p => ((w.page? p).map (·.isSealed)).getD false)
    let m : Move := { slot := k, cls := .writeback, src := y.residency, dst := g.1, need := w.tick, cmd := some id,
                      writebackOnly := true }
    (y.inHbm = false → exec (.park id) s
      = .next ((v.complete id .ok 1 (parkResult ((v.cmd? id).getD c.resolved) y.residency.code)).settled s id c)) ∧
    (y.inHbm = true → g.2 ≠ 0 → exec (.park id) s = .next ((n.complete id .noSpace g.2).settled s id c)) ∧
    (y.inHbm = true → g.2 = 0 → c.desc.optBit 11 = false →
      (w.moveOf k .demote = none →
        exec (.park id) s = .next (((w.askDemote k g.1 (some id)).runCmd id false).settled s id c)) ∧
      (∀ m, w.moveOf k .demote = some m →
        exec (.park id) s = .next ((((w.eraseMove m.1).askDemote k g.1 (some id)).runCmd id false).settled s id c))) ∧
    (y.inHbm = true → g.2 = 0 → c.desc.optBit 11 = true →
      (lack = [] → exec (.park id) s
        = .next ((w.complete id .ok 0 (parkResult ((w.cmd? id).getD c.resolved) y.residency.code)).settled s id c)) ∧
      (lack ≠ [] → exec (.park id) s = .next (((w.addMove m).runCmd id false).settled s id c)))

/-! ## The directory, the mover, the page index and the waits of sessions -/

/-- SDIR_CTRL.EN with a directory set-up that passes the checks clears the directory and goes to INIT; SDIR_INIT_DONE makes it
ENABLED; SDIR_CTRL.EN written 0 is refused with 0x0005 while sessions exist (R97, R98). STM_CTRL.EN and CANE_CTRL.EN written 1
enable the block where its set-up passes the checks, and record 0x0005 or 0x0003 where it does not; written 0 while a session
moves, or while page records are in use, they record 0x0006 or 0x0005 (R158, R187). MRV_CTRL.EN, JCK_CTRL.EN and GAF_CTRL.EN
(R280, R281, R314, R316): JCK is not enabled over a store that overlaps another table (0x0003), and not disabled while it
holds objects (0x0005); GAF keeps running to the end of its step. ADM_CTRL.EN written 1 on a disabled shaper marks and queues
what waited; ADM_CTRL.EN written 0 disables it (R283). -/
def Obligations.ServingEnables : Prop :=
  (∀ s : State,
    (s.live = true → s.pageState pgSdir = 0 → s.ungate.sdirOk = true →
      ∃ t, exec (.sdirEnable true) s = .next t ∧ t.pageState pgSdir = 2 ∧ (t.common pgSdir).en = true ∧
        t.sdir = { init := true }) ∧
    (s.live = true → s.pageState pgSdir = 0 → s.ungate.sdirOk = false →
      exec (.sdirEnable true) s = .next (s.ungate.recErr pgSdir 0x0003)) ∧
    (s.live = true → s.pageState pgSdir = 1 → s.sdir.sess.size ≠ 0 →
      exec (.sdirEnable false) s = .next (s.ungate.recErr pgSdir 0x0005)) ∧
    (s.live = true → s.pageState pgSdir = 1 → s.sdir.sess.size = 0 →
      exec (.sdirEnable false) s = .next (s.ungate.disableBlock pgSdir)) ∧
    (s.pageState pgSdir = 2 →
      exec .sdirInitDone s = .next { s.setPageState pgSdir 1 with sdir := { s.sdir with init := false } })) ∧
  (∀ s : State, s.live = true →
    (s.pageState pgStm = 0 → s.ungate.stmOk = true →
      exec (.stmEnable true) s = .next (
        let t := s.ungate.enableBlock pgStm
        ({ t with stm := { t.stm with
            wearLevel := (t.wearDepth : Int), wearAt := t.tick, credits := [{}, {}, {}, {}, {}] } }).renewCredits)) ∧
    (s.pageState pgStm = 0 → s.ungate.stmOk = false →
      exec (.stmEnable true) s = .next (s.ungate.recErr pgStm 0x0005)) ∧
    (s.pageState pgStm = 1 → s.sdir.sess.values.any (fun x => x.residency == .moving) = true →
      exec (.stmEnable false) s = .next (s.ungate.recErr pgStm 0x0006)) ∧
    (s.pageState pgStm = 1 → s.sdir.sess.values.any (fun x => x.residency == .moving) = false →
      exec (.stmEnable false) s = .next (s.ungate.disableBlock pgStm)) ∧
    (s.pageState pgCane = 0 → s.ungate.caneOk = false →
      exec (.caneEnable true) s = .next (s.ungate.recErr pgCane 0x0003)) ∧
    (s.pageState pgCane = 0 → s.ungate.caneOk = true →
      exec (.caneEnable true) s
        = .next { s.ungate.enableBlock pgCane with cane := { ({} : Cane) with sealedCount := s.cane.sealedCount } }) ∧
    (s.pageState pgCane = 1 → s.cane.recs.size ≠ 0 →
      exec (.caneEnable false) s = .next (s.ungate.recErr pgCane 0x0005)) ∧
    (s.pageState pgCane = 1 → s.cane.recs.size = 0 →
      exec (.caneEnable false) s = .next (s.ungate.disableBlock pgCane))) ∧
  (∀ s : State, s.live = true →
    (s.pageState pgMrv = 0 → exec (.mrvEnable true) s = .next (s.ungate.enableBlock pgMrv)) ∧
    (s.pageState pgMrv = 1 → exec (.mrvEnable false) s = .next (s.ungate.disableBlock pgMrv)) ∧
    (s.pageState pgJck = 0 → s.ungate.jckOk = true → exec (.jckEnable true) s = .next (s.ungate.enableBlock pgJck)) ∧
    (s.pageState pgJck = 0 → s.ungate.jckOk = false → exec (.jckEnable true) s = .next (s.ungate.recErr pgJck 0x0003)) ∧
    (s.pageState pgJck = 1 → s.objects.size ≠ 0 → exec (.jckEnable false) s = .next (s.ungate.recErr pgJck 0x0005)) ∧
    (s.pageState pgJck = 1 → s.objects.size = 0 → exec (.jckEnable false) s = .next (s.ungate.disableBlock pgJck)) ∧
    (s.pageState pgGaf = 0 → exec (.gafEnable true) s = .next (s.ungate.enableBlock pgGaf)) ∧
    (s.enabled pgGaf = true → s.gaf.running.isSome = true →
      exec (.gafEnable false) s = .next (s.ungate.setEn pgGaf false)) ∧
    (s.enabled pgGaf = true → s.gaf.running = none → exec (.gafEnable false) s = .next (s.ungate.disableBlock pgGaf))) ∧
  (∀ s : State, s.live = true →
    (s.pageState pgAdm = 0 → exec (.admEnable true) s = .next (s.ungate.enableBlock pgAdm).admitHeld) ∧
    (s.pageState pgAdm = 1 → exec (.admEnable false) s = .next (s.ungate.disableBlock pgAdm)))

/-- The first waiting command that can take effect does, and then the row has done its work (R76): those before it in
acceptance order do not wait, and nothing is attempted after it. So a SESS_CLOSE that waited for its session's step, move or
compaction closes the session once nothing of R76 holds it back, and completes. A compaction that waits for space proceeds
once it can, and its command, or the step that it came due in, takes effect without a second one; while there is no room it
goes on waiting; one whose copies meet an uncorrectable error of HBM ends with 0x0002 at EVIC and INTERNAL (R183, R190). One
that has waited 10 ms with its command is given up: the command, a STEP in progress too, completes with NO_SPACE and DETAIL 8.
A promotion into HBM that has waited 10 ms for space is given up: the commands of its session that wait for it, its STEP among
them, complete with NO_SPACE and DETAIL 5, and the stall is counted (R141). -/
def Obligations.WaitersServed : Prop :=
  (∀ (s : State) (id : Nat) (c : Cmd) (pre post : List Nat), s.commandsRun = true → s.cmds.keys = pre ++ id :: post →
    (∀ i, i ∈ pre → ∀ d, s.cmd? i = some d → d.phase ≠ .waiting) →
    (∀ x, s.waitedOn id 0x11 c x →
      let w := (s.atEffect id c x).closeSession (handleSlot c.desc.handle)
      exec .waitingCommandEffect s = .next ((w.1.complete id .ok w.2.1 w.2.2).settled s id c)) ∧
    (s.cmd? id = some c → c.phase = .waiting → c.desc.opcode ≠ 0x58 →
      let t := (s.attempt id c (effectOf c.desc.opcode)).settled s id c
      (t.cmd? id).map (·.phase) ≠ some .waiting → exec .waitingCommandEffect s = .next t)) ∧
  (∀ (s : State) (k id : Nat) (x : Session) (w : CompactWait), s.session? k = some x → x.compact = some w →
    (s.compact k x.rec'.params.budget w.since = none → ∀ ue, exec (.compactionSpaceReady ⟨k, ue⟩) s = .next s) ∧
    (∀ t, s.compact k x.rec'.params.budget w.since = some t → w.cmd = some id →
      ((x.stepReq.map (·.cmd)) ≠ some id →
        exec (.compactionSpaceReady ⟨k, false⟩) s
          = .next ((t.onSession k (fun y => { y with compact := none })).onCmd id (fun c => { c with aux := 1, startTick := w.since })) ∧
        exec (.compactionSpaceReady ⟨k, true⟩) s
          = .next (((s.setSession k { x with compact := none, waitHeld := false }).recErr pgEvic 0x0002).complete id .internal)) ∧
      ((x.stepReq.map (·.cmd)) = some id →
        exec (.compactionSpaceReady ⟨k, false⟩) s = .next (t.onSession k (fun y => { y with compact := none })) ∧
        exec (.compactionSpaceReady ⟨k, true⟩) s
          = .next (((s.setSession k { x with compact := none, waitHeld := false }).recErr pgEvic 0x0002).endStep k .internal 0))) ∧
    (w.cmd = some id → w.since + 10000000 ≤ s.tick →
      ((x.stepReq.map (·.cmd)) ≠ some id → exec (.compactionAbandon k) s
        = .next ((s.setSession k { x with compact := none, waitHeld := false }).complete id .noSpace 8)) ∧
      ((x.stepReq.map (·.cmd)) = some id → exec (.compactionAbandon k) s
        = .next ((s.setSession k { x with compact := none, waitHeld := false }).endStep k .noSpace 8))) ∧
    (s.tick < w.since + 10000000 → exec (.compactionAbandon k) s = .next s)) ∧
  (∀ (s : State) (n : Nat) (m : Move) (l : List (Nat × Move)),
    s.waitingMoves.filter (fun e => s.lacksSpace e.2 && decide (e.2.need + 10000000 ≤ s.tick)) = (n, m) :: l →
    exec .promotionSpaceTimeout s
      = .next ((((((s.eraseMove n).failWaiting m.slot .noSpace 5).giveUpStep m.slot .noSpace 5).bump
          .STM_SPACE_STALLS_COUNT)).setIntBit pgStm 8))

/-- A session in TOOL_WAIT that has passed its resume tick by the overstay limit counts one overstay, once, and its state is
handed to the state mover again (R93). The two reheats of a waiting session (R153): at F1 a session below WARM is promoted by
its resume tick; at F2 one that is WARM goes on to HOT; each happens once for its calendar entry. A HOT session outside steps
that no step has held for HOT_IDLE is asked down to WARM; a WARM session that is IDLE or DEAD_END and has had no command for
AGE is handed to the choice of a lower tier; under pressure, which INT_STATUS of STM shows when it begins, the next victim is
demoted (R135, R139). -/
def Obligations.SessionTimers : Prop :=
  (∀ (s : State) (k : Nat) (x : Session) (w : WaitInfo), s.session? k = some x → x.wait = some w → x.runState = .toolWait →
    x.resumeTick ≠ 0 → w.overstayUs ≠ 0 →
    (w.overstayed = false → x.resumeTick + w.overstayUs * 1000 ≤ s.tick →
      exec (.overstay k) s = .next ((((s.setSession k { x with wait := some { w with overstayed := true } }).bump
        .SDIR_OVERSTAYS_COUNT).setIntBit pgSdir 11).tierChoice k w.wait w.tierLimit false)) ∧
    (w.overstayed = true → exec (.overstay k) s = .next s)) ∧
  (∀ (s : State) (k f : Nat) (x : Session) (h : Reheat), s.session? k = some x → x.reheatDue = some h →
    s.enabled pgStm = true → s.regBit .STM_CFG_REHEAT_EN = true →
    (h.f1 = some f → f ≤ s.tick → x.residency = .parked ∨ x.residency = .pooled →
      exec (.reheatF1 k) s = .next ((s.ungate.setSession k { x with reheat := some { h with f1 := none } }).askPromote k
        h.resumeTick false true)) ∧
    (h.f2 = some f → f ≤ s.tick → x.residency = .warm →
      exec (.reheatF2 k) s = .next ((s.ungate.setSession k { x with reheat := some { h with f2 := none } }).askPromote k
        h.resumeTick true true))) ∧
  (∀ (s : State) (k : Nat) (x : Session), s.enabled pgStm = true →
    (s.session? k = some x → x.residency = .hot → x.outsideSteps = true →
      x.lastStep + s.reg .STM_HOT_IDLE_US * 1000 ≤ s.tick → s.moveOf k .demote = none →
      exec (.hotIdleDemote k) s = .next (s.addMove { slot := k, cls := .demote, src := .hot, dst := .warm, need := s.tick })) ∧
    (s.session? k = some x → s.regBit .STM_CFG_AGE_EN = true → x.residency = .warm →
      x.runState = .idle ∨ x.runState = .deadEnd → x.lastCmd + s.reg .STM_AGE_S * 1000000000 ≤ s.tick →
      exec (.ageDemote k) s = .next (s.tierChoice k s.parkAbove 0 false)) ∧
    (s.pressureNow = true → s.stm.pressure = true →
      exec .pressureDemotion s = .next ({ s with stm := { s.stm with pressure := true } }).pressureStep) ∧
    (s.pressureNow = true → s.stm.pressure = false →
      exec .pressureDemotion s
        = .next ({ s.setIntBit pgStm 13 with stm := { s.stm with pressure := true } }).pressureStep) ∧
    (s.pressureNow = false → exec .pressureDemotion s = .next { s with stm := { s.stm with pressure := false } }))

/-- A miss that comes back with an uncorrectable error takes the slot out of use and records 0x0001, and BAD_SLOT holds the
first such slot; a tag parity error disables the set, whose slots are then served from HBM, and records 0x0002 (R77, R79,
R98). An uncorrectable error in a page record records 0x0001 at CANE and marks the record, and the commands of every session
that holds the page complete with INTERNAL, a SESS_CLOSE too; one in a node records 0x0004, and the node is never matched
again (R188). The page record handed over first is freed once nothing refers to it, pins it or reads it for a checkpoint
(R138, R163, R165, R418); while something does, nothing is freed. An uncorrectable error in the primary of a row marks the
row, which a store makes good again; one in another copy takes that copy out of use (R342); both record 0x0001. A group of a
collection that fails marks the collection failed and records 0x0001, and a node or a list page 0x0002 (R369). -/
def Obligations.TableErrors : Prop :=
  (∀ (s : State) (slot : Nat) (set : BitVec 15),
    (s.sdir.missing.contains slot = true →
      ∃ t, exec (.dirMissFill slot true) s = .next t ∧ t.sdir.badSlots.contains slot = true ∧
        t.sdir.missing.contains slot = false ∧ t.sdir.freed.contains slot = false ∧ t.sdir.sess = s.sdir.sess ∧
        (t.common pgSdir).err = true ∧ ((s.common pgSdir).code = 0 → (t.common pgSdir).code = 1) ∧
        t.regBit .SDIR_BAD_SLOT_VALID = true ∧
        t.reg .SDIR_BAD_SLOT_SLOT = (if s.regBit .SDIR_BAD_SLOT_VALID then s.reg .SDIR_BAD_SLOT_SLOT else slot % 2 ^ 24)) ∧
    (s.sdir.missing.contains slot = true → (s.cacheWays (cacheSet slot)).any (fun w => w.tag == cacheTag slot) = true →
      exec (.dirMissFill slot false) s
        = .next { s with sdir := { s.sdir with missing := s.sdir.missing.filter (· != slot) } }) ∧
    (s.pageState pgSdir = 1 →
      ∃ t, exec (.dirTagParity set) s = .next t ∧ t.sdir.disabledSets.contains set.toNat = true ∧
        t.cacheWays set.toNat = [] ∧ (t.common pgSdir).err = true ∧
        ((s.common pgSdir).code = 0 → (t.common pgSdir).code = 2) ∧ t.sdir.sess = s.sdir.sess)) ∧
  (∀ (s : State) (n : Nat) (p : PageRec) (d : Node), s.enabled pgCane = true →
    (s.page? n = some p →
      ∃ t, exec (.pageRecordUe false n) s = .next t ∧ (t.page? n).map (·.bad) = some true ∧
        (t.common pgCane).err = true ∧ ((s.common pgCane).code = 0 → (t.common pgCane).code = 1) ∧ t.sdir = s.sdir ∧
        ∀ k x, s.session? k = some x → x.frames.contains n = true → t.session? k = some x ∧ t.holdsBad x = true) ∧
    (∀ (id : Nat) (c : Cmd) (x : Session), s.started id 0x11 c → c.desc.handle ≠ 0 → s.enabled pgSdir = true →
      s.sdir.missing.contains (handleSlot c.desc.handle) = false → s.resolve c.desc = none →
      s.session? (handleSlot c.desc.handle) = some x → s.holdsBad x = true →
      exec (.sessClose id) s = .next (((s.reaches id c).complete id .internal).settled s id c)) ∧
    (s.node? n = some d →
      ∃ t, exec (.pageRecordUe true n) s = .next t ∧ (t.node? n).map (·.bad) = some true ∧ (t.common pgCane).err = true ∧
        ((s.common pgCane).code = 0 → (t.common pgCane).code = 4) ∧ t.sdir = s.sdir)) ∧
  (∀ (s : State) (n : Nat) (l : List Nat) (p : PageRec), s.failed pgCane = false → s.cane.reclaim = n :: l →
    s.page? n = some p →
    (p.refs = 0 → p.pins = 0 → p.ckptReads = 0 →
      ∃ t, exec .pageFree s = .next t ∧ t.page? n = none ∧ t.cane.reclaim.contains n = false ∧ t.window = s.window ∧
        t.host = s.host ∧ t.fabric = s.fabric) ∧
    (p.refs ≠ 0 ∨ p.pins ≠ 0 ∨ p.ckptReads ≠ 0 → exec .pageFree s = .next s)) ∧
  (∀ s : State,
    (∀ table row stack : Nat, s.enabled pgEmb = true → s.tblUsable table = true → s.tblRemote table = false →
      (∃ t, exec (.embRowUe table row stack true) s = .next t ∧ t.emb.badRows.contains (rowKey table row) = true ∧
        (t.common pgEmb).err = true ∧ t.hbm = s.hbm ∧ t.emb.hot = s.emb.hot) ∧
      (∀ i h, s.hotOf table row = some (i, h) → bitAt h.mask stack = true →
        bitAt (s.primaryMask table row) stack = false →
        exec (.embRowUe table row stack false) s
          = .next ((s.setHot i { h with mask := h.mask - 2 ^ stack, copies := h.copies.erase stack }).recErr pgEmb 0x0001)) ∧
      (s.hotOf table row = none → exec (.embRowUe table row stack false) s = .next s)) ∧
    (∀ (k : Nat) (graph : Bool), s.enabled pgSrch = true → s.regBit .SRCH_COLL_CFG_VALID k = true →
      ∃ t, exec (.groupFail k graph) s = .next t ∧ (t.coll k).failed = true ∧ (t.coll k).nodes = (s.coll k).nodes ∧
        (∀ n, n ≠ k → t.coll n = s.coll n) ∧ (t.common pgSrch).err = true ∧
        ((s.common pgSrch).code = 0 → (t.common pgSrch).code = if graph then 2 else 1)))

/-! ## The state mover, capsules and sessions between devices (R121 to R159, R394 to R402) -/

/-- MOVE_START starts the first waiting move, in the order of R134, that obtains what it needs, and a leased session's
validation is read (R396); where none does, nothing starts. A HOT session whose move to WARM is asked for, and that no step
holds, is WARM at once and its seat is free (R134, R135). The next tile of a move that both its ports grant is moved (R134,
R143): the ports are charged, the page that the move reads is pinned (R162), and the tile is done. A tile that is read and
fails its tag ends the move with INTERNAL, its session stays whole in its source tier, and the error is recorded as 0x0001
(R120); a cancelled move ends at this tile boundary (R81). A tile of a capsule that is read authenticates and decompresses as
its record says (R125, R131): its ports are charged and it is done, and where its tag or its compression is wrong, the job is
marked as failed and the error recorded, 0x0001 or 0x0002 (R120). A promotion to HOT whose tiles are all written commits: the
session is HOT in the seat that was kept for it, and the move is gone (R135, R146). A demotion that was cancelled ends in its
source tier; one of a leased session without a valid lease waits (R81, R396). At the end of a credit window every port starts
a new one, which ends at the next multiple of the window length after now; nothing else of the device changes (R142, R143). -/
def Obligations.MovesRun : Prop :=
  (∀ (s : State), s.enabled pgStm = true → s.freeze = 0 → s.waitingMoves.filter (fun e => s.staleMove e.2) = [] →
    (∀ t, s.waitingMoves.findSome? (fun e => (s.tryStart e.1 e.2).map (fun t => t.issueRead e.2.slot)) = some t →
      exec .moveStart s = .next t) ∧
    (s.waitingMoves.findSome? (fun e => (s.tryStart e.1 e.2).map (fun t => t.issueRead e.2.slot)) = none →
      exec .moveStart s = .next s.lockStall) ∧
    (∀ (n k ctx : Nat) (m : Move) (x : Session) (l : List (Nat × Move)), s.waitingMoves = (n, m) :: l → m.slot = k →
      s.session? k = some x → m.cls = .demote → m.dst = .warm → m.src = .hot → m.job = none → m.writebackOnly = false →
      s.freeCtx .demote = some ctx → x.residency = .hot → x.compact = none → x.compactDue = none → x.runState ≠ .running →
      x.leased = false →
      ∃ t y, exec .moveStart s = .next t ∧ t.session? k = some y ∧ y.residency = .warm ∧ y.seat = none ∧
        y.table = x.table ∧ y.runState = x.runState ∧ t.stm.moves.get? n = none)) ∧
  (∀ (s : State) (n : Nat) (m : Move) (t : MTile) (rest : List MTile), s.nextTransfer = some (n, m) → s.freeze = 0 →
    m.tiles = t :: rest → m.job = none → m.writebackOnly = false →
    let u := ((s.tilePorts m t).foldl (fun s q => s.charge q.1 m.cls.code q.2) s).readPool m t
    let k := if m.pinsFor t then { m with pinned := some t.page } else m
    let v := if m.pinsFor t then ((u.releasePage m).pin t.page).setMove n k else u
    (((s.session? m.slot).map (·.cancel)).getD false = false →
      exec (.tileTransfer .done) s = .next (v.tileDone n k t rest)) ∧
    (((s.session? m.slot).map (·.cancel)).getD false = false → m.src = .parked →
      exec (.tileTransfer .tagFail) s = .next (((v.failMove n k true).recErr pgStm 0x0001).setIntBit pgStm 11)) ∧
    (((s.session? m.slot).map (·.cancel)).getD false = true →
      ∀ o, exec (.tileTransfer o) s = .next (s.cancelMove n m))) ∧
  (∀ (s : State) (n i : Nat) (m : Move) (t : MTile) (rest : List MTile) (j : CapsuleJob) (o : TileOutcome), s.nextTransfer = some (n, m) →
    s.freeze = 0 → m.tiles = t :: rest → m.job = some i → s.readingJob m = some j →
    let u := ((s.tilePorts m t).foldl (fun s q => s.charge q.1 m.cls.code q.2) s).readPool m t
    let r := s.readRecord j (s.moveModel m) t
    (r = .done → exec (.tileTransfer o) s = .next ((u.jobProgress m).tileDone n m t rest)) ∧
    (r ≠ .done → exec (.tileTransfer o) s = .next (((u.jobTileFailed i r).jobProgress m).tileDone n m t rest) ∧
      ((u.jobTileFailed i r).jobs.get? i).map (·.failed) = some true)) ∧
  (∀ (s : State) (n : Nat) (m : Move) (x : Session), s.finishedMove = some (n, m) → s.freeze = 0 →
    s.session? m.slot = some x → m.writebackOnly = false →
    (x.cancel = false → x.leased = false → m.cls = .promote → m.dst = .hot →
      ∃ t y, exec .moveCommit s = .next t ∧ t.session? m.slot = some y ∧ y.residency = .hot ∧ y.seat = m.seat ∧
        y.cancel = false ∧ y.table = x.table ∧ t.stm.moves.get? n = none) ∧
    (x.cancel = false → x.leased = false → m.cls = .promote → m.dst = .warm →
      exec .moveCommit s = .next ((s.useLease m.slot).commitPromote n m x)) ∧
    (x.cancel = false → x.leased = false → m.cls = .demote →
      exec .moveCommit s = .next ((s.useLease m.slot).commitDemote n m x)) ∧
    (x.cancel = true → exec .moveCommit s = .next (s.cancelMove n m)) ∧
    (x.cancel = false → s.leaseOk x = false → exec .moveCommit s = .next (s.awaitLease m.slot))) ∧
  (∀ s : State, s.enabled pgStm = true → s.stm.windowEnd ≤ s.tick →
    ∃ t, exec .creditWindowEnd s = .next t ∧
      t = { s with stm := { s.stm with credits := t.stm.credits, windowEnd := t.stm.windowEnd } } ∧
      t.stm.credits.length = 5 ∧ s.tick < t.stm.windowEnd ∧ t.stm.windowEnd ≤ s.tick + s.windowTicks ∧
      t.stm.windowEnd % s.windowTicks = 0)

/-- EXPORT_CAPSULE with its option ESTIMATE completes at once with the bound of the capsule's size; without it, and with room
at the destination, the export starts: a long operation of STM, and the command goes on running. With less room than the bound
it completes with NO_SPACE and DETAIL 4 (R129). When the tiles of an export to host memory have all been read, the capsule's
bytes stand at its destination, the long operation ends, and the command completes with OK or NOT_REPRODUCIBLE and the
capsule's size (R130). IMPORT_CAPSULE of a capsule that passes its checks, with room for it, allots a slot that is MOVING to
WARM and starts the transfer; what a check refuses completes with that status and reason (R131, R132). When the tiles of an
with its handle, its positions and its pages (R132). -/
def Obligations.CapsulesMoved : Prop :=
  (∀ (s : State) (id key : Nat) (c : Cmd) (x y : Session), s.readyOn id 0x20 c x →
    let k := handleSlot c.desc.handle
    let u := s.atEffect id c x
    let bound := capsuleBound (u.layoutOf y) y.table.length (y.table.filter (·.isSealed)).length
    u.session? k = some y → u.enabled pgStm = true → u.currentTtk y.tenant = some key →
    (c.desc.optBit 11 = true →
      exec (.exportCapsule id) s = .next ((u.complete id y.okStatus 0 bound).settled s id c)) ∧
    (c.desc.optBit 11 = false → bound ≤ c.desc.specF 51 44 → u.longBusy pgStm = false →
      exec (.exportCapsule id) s = .next (((u.beginLong pgStm).startExport id k y .exportTo (c.desc.opt 8 2)
        (c.desc.specF 43 36) (c.desc.optBit 10) key).settled s id c)) ∧
    (c.desc.optBit 11 = false → c.desc.specF 51 44 < bound →
      exec (.exportCapsule id) s = .next ((u.complete id .noSpace 4).settled s id c))) ∧
  (∀ (s : State) (n : Nat) (j : CapsuleJob), s.jobDone (fun k => k == .exportTo || k == .migrateOut) = some (n, j) →
    j.kind = .exportTo → j.failed = false → j.space ≠ 2 →
    let bytes := (s.modelOfFp j.content.record.modelFp).capsuleBytes j.content j.compress j.key j.header
    let u := (s.eraseJob n j).unpinAll j.pins
    exec (.capsuleExportDone false) s = .next (((u.writeDst j.space j.addr bytes).endLong pgStm).complete j.cmd (if bitAt (leAt j.header 14 2) 0 then .notReproducible else .ok) 0 bytes.length)) ∧
  (∀ (s t : State) (id k model : Nat) (c : Cmd) (content : Capsule),
    let u := s.withSource id content none
    let h := u.readSrc (c.desc.opt 8 2) (c.desc.specF 43 36) 256
    let l := (u.model model).layout
    u.readyPlain id 0x21 c → u.sources.get? id = some content → u.enabled pgStm = true → u.enabled pgSdir = true →
    u.enabled pgCane = true → u.longBusy pgStm = false →
    (u.importChecks c.tenant (c.desc.specF 51 44) (u.srcAt (c.desc.opt 8 2) (c.desc.specF 43 36)) content = .pass model →
      u.importRoom c.tenant l content.table.length = (0, u) →
      u.arriving c.tenant model (bitAt (leAt h 14 2) 0) content = some (k, t) →
      exec (.importCapsule id content) s = .next (((t.beginLong pgStm).startImport id k .importFrom (c.desc.opt 8 2)
        (c.desc.specF 43 36) h content l (((t.session? k).map (·.table)).getD []) 0).settled u id c)) ∧
    (∀ st reason, u.importChecks c.tenant (c.desc.specF 51 44) (u.srcAt (c.desc.opt 8 2) (c.desc.specF 43 36)) content = .refuse st reason →
      exec (.importCapsule id content) s = .next ((u.refuse id st reason).settled u id c))) ∧
  (∀ (s : State) (n : Nat) (j : CapsuleJob) (x : Session),
    s.jobDone (fun k => k == .importFrom || k == .migrateIn || k == .reclaim) = some (n, j) → j.kind = .importFrom →
    j.failed = false → tableOk j.content (leAt j.header 72 4) = true → s.session? j.slot = some x →
    ∃ u y, u = (((s.eraseJob n j).arrived j.slot).endLong pgStm) ∧ u.session? j.slot = some y ∧ y.residency = .warm ∧
      y.runState = .idle ∧ y.leased = false ∧ y.positions = x.positions ∧ y.table = x.table ∧
      exec .capsuleImportDone s
        = .next (u.completeH j.cmd .ok 0 (y.positions + y.table.length * 2 ^ 32) (y.handle j.slot)))

/-- MIGRATE_OUT takes effect on its session (R398, R448): a tenant without a transport key completes it with SECURITY and
reason 5, and less room than the bound of R128 with NO_SPACE and DETAIL 4. With room, and the session's entry locked, the
session is MOVING from its tier to AWAY, its capsule is being written to the staging extent in fabric memory, and the command
goes on running; while the entry cannot be locked, the command waits (R78). MIGRATE_IN (R399, with `e` the capsule's lease
epoch): an address outside the POOL entries completes it with INVALID and reason 0x60, a payload handle that names no such
AWAY slot with 0x62, a capsule that fails a check of R131 as that check says, a source other than DEST with 0x61, a lease word
that does not offer the session to this device with NOT_OWNER and DETAIL 1, and a home that does not answer with DETAIL 2.
What passes goes on running: a new session is MOVING from nowhere to WARM and its capsule is being read; a return's capsule is
being read for the slot that the payload names, which stays AWAY until the commit. RECLAIM of a session that is AWAY, by the
lease word that its home answers (R401): no answer completes it with NOT_OWNER and DETAIL 2, FREE with DETAIL 3, a word that
offers the session to this device with LOCKED and DETAIL 1, and a word that another device holds without FORCE with NOT_OWNER
and DETAIL 1. A word that lets it proceed brings the checks of R131; a capsule that passes them is being read for the slot,
which stays AWAY until the commit, and the command goes on running. -/
def Obligations.SessionsMigrate : Prop :=
  (∀ (s : State) (id : Nat) (c : Cmd) (x y : Session), s.readyOn id 0x22 c x →
    let k := handleSlot c.desc.handle
    let u := s.atEffect id c x
    let bound := capsuleBound (u.layoutOf y) y.table.length (y.table.filter (·.isSealed)).length
    u.session? k = some y → u.enabled pgStm = true → u.enabled pgFam = true →
    (u.currentTtk y.tenant = none → exec (.migrateOut id) s = .next ((u.refuse id .security 0x05).settled s id c)) ∧
    (∀ key, u.currentTtk y.tenant = some key →
      (c.desc.specF 51 44 < bound → exec (.migrateOut id) s = .next ((u.complete id .noSpace 4).settled s id c)) ∧
      (bound ≤ c.desc.specF 51 44 → u.lockEntry k = none → c.aux ≠ 3 →
        ∃ (t : State) (e : Cmd), exec (.migrateOut id) s = .next (t.settled s id c) ∧ t.session? k = some y ∧ t.cmd? id = some e ∧
          e.phase = .waiting ∧ t.jobs = u.jobs) ∧
      (∀ v, bound ≤ c.desc.specF 51 44 → u.lockEntry k = some v →
        (∀ n m, u.stm.moves.get? n = some m → m.slot = k → m.cmd ≠ some id) →
        ∃ (t : State) (z : Session) (j : CapsuleJob) (e : Cmd), exec (.migrateOut id) s = .next (t.settled s id c) ∧
          t = ((v.forgetMoves k .ok 1).startExport id k y .migrateOut 2 (c.desc.specF 43 36) (c.desc.optBit 8)
            key).enterMoving k y.residency .away ∧
          t.session? k = some z ∧ z.residency = .moving ∧ z.moveSrc = y.residency ∧ z.moveDst = .away ∧ z.table = y.table ∧
          z.runState = y.runState ∧ z.leaseEpoch = y.leaseEpoch ∧
          t.jobs.get? u.nextJob = some j ∧ j.kind = .migrateOut ∧ j.cmd = id ∧ j.slot = k ∧ j.space = 2 ∧
          j.addr = c.desc.specF 43 36 ∧ j.compress = c.desc.optBit 8 ∧ j.failed = false ∧
          t.cmd? id = some e ∧ e.phase = .running))) ∧
  (∀ (s : State) (id : Nat) (c : Cmd) (content : Capsule) (word : Option DWord),
    let u := s.withSource id content word
    let h := u.readSrc 2 (c.desc.specF 43 36) 256
    let e := leAt h 84 4
    let addr := c.desc.specF 63 56
    let checks := u.importChecks c.tenant (c.desc.specF 51 44) (u.srcAt 2 (c.desc.specF 43 36)) content
    u.readyPlain id 0x23 c → u.sources.get? id = some content → u.enabled pgStm = true → u.enabled pgSdir = true →
    u.enabled pgCane = true → u.enabled pgFam = true →
    (u.inPoolEntry (c.desc.specF 43 36) (c.desc.specF 51 44) = false ∨ u.inPoolEntry addr 8 = false →
      exec (.migrateIn id content word) s = .next ((u.refuse id .invalid 0x60).settled u id c)) ∧
    (u.inPoolEntry (c.desc.specF 43 36) (c.desc.specF 51 44) = true → u.inPoolEntry addr 8 = true →
      (c.desc.payLen = 8 → u.returnSlot c = none →
        exec (.migrateIn id content word) s = .next ((u.refuse id .invalid 0x62).settled u id c)) ∧
      ((c.desc.payLen = 8 → (u.returnSlot c).isSome = true) →
        (∀ st reason, checks = .refuse st reason →
          exec (.migrateIn id content word) s = .next ((u.refuse id st reason).settled u id c)) ∧
        (∀ model, checks = .pass model →
          (leAt h 50 2 ≠ c.desc.specF 53 52 →
            exec (.migrateIn id content word) s = .next ((u.refuse id .invalid 0x61).settled u id c)) ∧
          (leAt h 50 2 = c.desc.specF 53 52 →
            let r := u.countLease addr
            (r.homeReachable addr = false ∨ r.fam.words.get? id = none →
              exec (.migrateIn id content word) s = .next ((r.complete id .notOwner 2).settled u id c)) ∧
            (∀ w, r.homeReachable addr = true → r.fam.words.get? id = some w →
              let v := r.noteWord w
              let l := (v.model model).layout
              (w ≠ offered e (c.desc.specF 53 52) v.self → w ≠ owned (nextEpoch e) v.self →
                exec (.migrateIn id content word) s = .next ((v.complete id .notOwner 1).settled u id c)) ∧
              (w = offered e (c.desc.specF 53 52) v.self ∨ w = owned (nextEpoch e) v.self →
                (∀ k, c.desc.payLen = 0 → v.importRoom c.tenant l content.table.length = (0, v) → v.nextSlot = some k →
                  (allotImport v c.tenant model l (content.table.zip content.pages) []).isSome = true →
                  ∃ (t : State) (z : Session) (j : CapsuleJob) (f : Cmd),
                    exec (.migrateIn id content word) s = .next (t.settled u id c) ∧ t.session? k = some z ∧
                    z.tenant = c.tenant ∧ z.generation = v.nextGen k ∧ z.residency = .moving ∧ z.moveSrc = .free ∧
                    z.moveDst = .warm ∧ z.nr = bitAt (leAt h 14 2) 0 ∧ z.positions = content.record.held ∧
                    t.jobs.get? v.nextJob = some j ∧ j.kind = .migrateIn ∧ j.cmd = id ∧ j.slot = k ∧ j.space = 2 ∧
                    j.addr = c.desc.specF 43 36 ∧ j.header = h ∧ j.word = w ∧ j.failed = false ∧
                    t.cmd? id = some f ∧ f.phase = .running) ∧
                (∀ k, c.desc.payLen = 8 → v.returnSlot c = some k →
                  v.heapRoom c.tenant (l.recordBytes (v.nverOf c.tenant) + importBytes l content.table.length) false = true →
                  (allotImport v c.tenant model l (content.table.zip content.pages) []).isSome = true →
                  ∃ (t : State) (j : CapsuleJob) (f : Cmd),
                    exec (.migrateIn id content word) s = .next (t.settled u id c) ∧ t.session? k = v.session? k ∧
                    t.jobs.get? v.nextJob = some j ∧ j.kind = .migrateIn ∧ j.cmd = id ∧ j.slot = k ∧ j.space = 2 ∧
                    j.addr = c.desc.specF 43 36 ∧ j.header = h ∧ j.word = w ∧ j.failed = false ∧
                    t.cmd? id = some f ∧ f.phase = .running)))))))) ∧
  (∀ (s : State) (id : Nat) (c : Cmd) (content : Capsule) (word : Option DWord) (x y : Session),
    let u0 := s.withSource id content word
    let k := handleSlot c.desc.handle
    let u := u0.atEffect id c x
    let r := u.countLease y.leaseAddr
    let force := c.desc.optBit 10
    u0.readyOn id 0x24 c x → u.session? k = some y → y.residency = .away → u.sources.get? id = some content →
    u.enabled pgStm = true → u.enabled pgCane = true → u.enabled pgFam = true →
    (r.homeReachable y.leaseAddr = false ∨ r.fam.words.get? id = none →
      exec (.reclaim id content word) s = .next ((r.complete id .notOwner 2).settled u0 id c)) ∧
    (∀ w, r.homeReachable y.leaseAddr = true → r.fam.words.get? id = some w →
      let v := r.noteWord w
      let toSelf := leaseStateOf w = 2 ∧ leaseOffereeOf w = v.self ∧ leaseOwnerOf w ≠ v.self
      let proceeds := leaseStateOf w = 3 ∨ (leaseStateOf w = 1 ∧ leaseOwnerOf w = v.self) ∨
        (leaseStateOf w ≠ 0 ∧ ¬toSelf ∧ force = true)
      (leaseStateOf w = 0 →
        exec (.reclaim id content word) s = .next ((v.complete id .notOwner 3).settled u0 id c)) ∧
      (toSelf → exec (.reclaim id content word) s = .next ((v.complete id .locked 1).settled u0 id c)) ∧
      (leaseStateOf w ≠ 0 → ¬toSelf → ¬proceeds →
        exec (.reclaim id content word) s = .next ((v.complete id .notOwner 1).settled u0 id c)) ∧
      (proceeds →
        let h := v.readSrc (c.desc.opt 8 2) (c.desc.specF 43 36) 256
        let checks := v.importChecks y.tenant (c.desc.specF 51 44) (v.srcAt (c.desc.opt 8 2) (c.desc.specF 43 36)) content
        (∀ st reason, checks = .refuse st reason →
          exec (.reclaim id content word) s = .next ((v.refuse id st reason).settled u0 id c)) ∧
        (∀ model, checks = .pass model →
          let l := (v.model model).layout
          v.heapRoom y.tenant (l.recordBytes (v.nverOf y.tenant) + importBytes l content.table.length) false = true →
          (allotImport v y.tenant model l (content.table.zip content.pages) []).isSome = true →
          ∃ (t : State) (j : CapsuleJob) (f : Cmd), exec (.reclaim id content word) s = .next (t.settled u0 id c) ∧ t.session? k = some y ∧
            t.jobs.get? v.nextJob = some j ∧ j.kind = .reclaim ∧ j.cmd = id ∧ j.slot = k ∧ j.space = c.desc.opt 8 2 ∧
            j.addr = c.desc.specF 43 36 ∧ j.header = h ∧ j.word = w ∧ j.failed = false ∧
            t.cmd? id = some f ∧ f.phase = .running))))

/-- The CAS outstanding on a lease word ends (R395): where it met the word that it expected, the word that it writes stands in
the memory of the word's home, and the operation's own effect follows; the next CAS on the word issues. A validation read that
finds this device OWNED at the session's epoch makes the session valid from this tick (R396); one without an answer refuses
the session's updates; the word of an offer that is watched is read again after the poll time, and when the peer's note
arrives; an offer that nobody accepts in time is withdrawn (R398). -/
def Obligations.LeasesKept : Prop :=
  (∀ (s : State) (addr : Nat) (o : CasOp) (rest : List CasOp), s.fam.cas.getD addr [] = o :: rest →
    s.homeReachable addr = true →
    let u : State := { s with fam := { s.fam with
      cas := if rest.isEmpty then s.fam.cas.erase addr else s.fam.cas.set addr rest } }
    (∀ found : DWord, found.toNat = o.expect →
      exec (.leaseCasResult addr (some found) none) s = .next (
        let t := { u with fabric := u.fabric.writeN addr (leBytes o.word 8) }.casEnd o .won
        if rest.isEmpty then t else t.countLease addr)) ∧
    (∀ found : DWord, found.toNat ≠ o.expect →
      exec (.leaseCasResult addr (some found) none) s = .next (
        let t := u.casEnd o (.lost found.toNat)
        if rest.isEmpty then t else t.countLease addr)) ∧
    (exec (.leaseCasResult addr none none) s = .next (
        let t := u.casEnd o .silent
        if rest.isEmpty then t else t.countLease addr))) ∧
  (∀ (s : State),
    (∀ (k : Nat) (x : Session) (w : DWord), s.session? k = some x → x.leased = true → x.residency ≠ .away →
      x.runState ≠ .lost → s.notMigrating k = true → s.homeReachable x.leaseAddr = true →
      w.toNat = owned x.leaseEpoch s.self →
      ∃ t y, exec (.leaseValidationResult k (some w)) s = .next t ∧ t.session? k = some y ∧
        y = { x with leaseTick := some (x.leaseIssued.getD s.tick), leaseIssued := none, leaseFresh := true }) ∧
    (∀ (k : Nat) (x : Session), s.session? k = some x → x.leased = true → x.residency ≠ .away → x.runState ≠ .lost →
      s.notMigrating k = true →
      exec (.leaseValidationResult k none) s
        = .next (((s.countLease x.leaseAddr).bump .FAM_VALIDATIONS_COUNT).homeFailed k)) ∧
    (∀ (id : Nat) (m : Migration) (w : Option DWord), s.migrations.get? id = some m → s.watched m = true →
      m.polledAt + max 10 (s.reg .FAM_LEASE_POLL_US) * 1000 ≤ s.tick →
      exec (.leasePoll id w) s = .next ((s.countLease m.addr).watch id m (s.heard m.addr w))) ∧
    (∀ (p : PeerMsg) (t : State) (id : Nat) (g : Migration) (w : Option DWord), p.kind = .leaseNote →
      s.takeMsg p = some t → t.migrations.find? (fun _ g => g.addr == p.row && t.watched g) = some (id, g) →
      exec (.leaseNote p w) s = .next ((t.countLease g.addr).watch id g (t.heard g.addr w))) ∧
    (∀ (id t0 : Nat) (m : Migration), s.migrations.get? id = some m → s.watched m = true → m.offeredAt = some t0 →
      t0 + s.offerTicks ≤ s.tick → s.homeReachable m.addr = true →
      exec (.offerTimeout id) s = .next (s.casIssue m.addr m.slot (((s.session? m.slot).map (·.leaseEpoch)).getD 0)
        (.withdraw m.peer))))

/-! ## Admission (R271 to R283), models, text and steps -/

/-- One dequeue decision (R275, R276): the head of the administrative queue starts if it is eligible; otherwise the eligible
head of lowest finish tag of the urgent group, and of the normal group only where the urgent group has none. Nothing starts
while a checkpoint quiesces the device. A queued command of a DROP_LATE class whose deadline has passed is dropped: it
completes with DEADLINE_MISSED and DETAIL 0x0A, and ADM counts it and sets its interrupt (R277). The session that it names
counts the miss. At the end of a sojourn window the figures of every queue are latched and the running ones start at 0; the
queues' commands stay as they are, and the next window ends at the next multiple of its length (R278). -/
def Obligations.DequeueOrder : Prop :=
  (∀ s : State,
    (s.freeze = 0 → s.ckp.restore = none → s.pageState pgGlb = 1 →
      (∀ id l, s.adm.adminQ = id :: l → s.eligible id = true →
        exec .commandDequeue s = .next (({ s with adm := { s.adm with adminQ := l } }).startCmd id)) ∧
      (∀ q id f, (∀ i l, s.adm.adminQ = i :: l → s.eligible i = false) → bestHead (s.heads true) = some (q, id, f) →
        exec .commandDequeue s = .next (s.dequeue true q id f)) ∧
      (∀ q id f, (∀ i l, s.adm.adminQ = i :: l → s.eligible i = false) → s.heads true = [] →
        bestHead (s.heads false) = some (q, id, f) →
        exec .commandDequeue s = .next (s.dequeue false q id f))) ∧
    (s.freeze ≠ 0 → exec .commandDequeue s = .next s)) ∧
  (∀ (s : State) (id : Nat) (c : Cmd), s.lateCmd = some (id, c) →
    (s.named c.desc = none →
      exec .lateDrop s = .next (((((s.unqueue id c).complete id .deadlineMissed 0x0A).settleHeld id c).bump
        .ADM_DROPPED_COUNT).setIntBit pgAdm 10)) ∧
    (∀ k, s.named c.desc = some k →
      exec .lateDrop s = .next ((((((s.unqueue id c).onSession k (fun x => { x with misses := satAdd 16 x.misses 1 })).complete id
        .deadlineMissed 0x0A).settleHeld id c).bump .ADM_DROPPED_COUNT).setIntBit pgAdm 10))) ∧
  (∀ s : State, s.adm.windowEnd ≤ s.tick →
    ∃ t, exec .admSampleWindowEnd s = .next t ∧ s.tick < t.adm.windowEnd ∧
      (∀ q a, s.adm.queues.get? q = some a → ∃ b, t.adm.queues.get? q = some b ∧ b.cmds = a.cmds ∧
        b.lastFinish = a.lastFinish ∧ b.tc = a.tc ∧ b.tp = a.tp ∧ b.curMax = 0 ∧ b.curSum = 0 ∧ b.curCount = 0) ∧
      t.cmds = s.cmds ∧ t.rings = s.rings ∧ t.host = s.host ∧ t.window = s.window)

/-- The finish tag of every head that the order of R275 could take is not before that of the one it takes, as long as the tags
of the heads lie within half of their number space of each other. -/
def Obligations.LowestFinishFirst : Prop :=
  ∀ (l : List (Nat × Nat × Nat)) (b : Nat × Nat × Nat) (base : Nat), bestHead l = some b →
    (∀ e, e ∈ l → base ≤ e.2.2 ∧ e.2.2 < base + 2 ^ 63) → b ∈ l ∧ ∀ e, e ∈ l → b.2.2 ≤ e.2.2

/-- A command that no engine made progress on for GLB_WATCHDOG.MS completes with INTERNAL (R64); which code its block records
is a free value (log entry 1). A command in a wait that does not count, a TOOL_WAIT, and any command while a checkpoint or a
restore holds the device is left alone. A payload or a source that cannot be written or read (R549, R550): the ring records
0x0009, what the write touched holds bytes that no rule gives, and the command completes with INTERNAL, a STEP with DETAIL
0x0C. A source that fails while it is read releases what its command has allotted, and the command completes with INTERNAL: a
MODEL_LOAD records 0x0012, what reads a capsule 0x0007, and a VOCAB_LOAD 0x0002. -/
def Obligations.CommandFailures : Prop :=
  (∀ (s : State) (id : Nat) (c : Cmd), s.cmd? id = some c → s.reg .GLB_WATCHDOG_MS ≠ 0 →
    (s.watchdogCounts id c = true →
      max c.progressTick c.startTick + s.reg .GLB_WATCHDOG_MS * 1000000 ≤ s.tick →
      ∃ t, exec (.commandWatchdog id) s = .next t ∧ t.free = s.free + 1 ∧
        t = (let u := (s.recErr (blockPage c.desc.opcode) ((Config.freeWord s.free).toNat % 65535 + 1)).useFree
             match u.stepSlot id, u.endedSlot id with
             | some k, _ => u.endStep k .internal 0
             | none, some k => (u.onSession k (fun x => { x with ended := none })).complete id .internal
             | none, none => (u.sourceFail id).complete id .internal)) ∧
    (c.desc.opcode = 0x1B ∨ s.freeze ≠ 0 ∨ s.ckp.restore ≠ none ∨ (c.exempt = true ∧ c.desc.opcode ≠ 0x1A) ∨
        (c.phase ≠ .running ∧ c.phase ≠ .started) →
      exec (.commandWatchdog id) s = .next s)) ∧
  (∀ (s : State) (id : Nat) (c : Cmd),
    (s.cmd? id = some c → writesPayload c.desc.opcode = true → c.phase = .started ∨ c.phase = .running →
      let t := (s.ringErr c.ring 0x0009).spoilPayload c.desc
      (t.stepSlot id = none → t.endedSlot id = none → exec (.payloadWriteFail id) s = .next (t.complete id .internal)) ∧
      (∀ k, t.stepSlot id = none → t.endedSlot id = some k →
        exec (.payloadWriteFail id) s
          = .next ((t.onSession k (fun x => { x with ended := none })).complete id .internal 0x0C)) ∧
      (∀ k, t.stepSlot id = some k → exec (.payloadWriteFail id) s = .next (t.endStep k .internal 0x0C))) ∧
    (∀ mid m, s.models.find? (fun _ m => !m.loaded && m.cmd == some id) = some (mid, m) →
      exec (.sourceReadFail id) s = .next (((s.dropLoad mid m).recErr pgCru 0x0012).complete id .internal)) ∧
    (∀ n j, s.cmd? id = some c → c.phase = .running → s.models.find? (fun _ m => !m.loaded && m.cmd == some id) = none →
      s.jobs.find? (fun _ j => j.cmd == id && j.kind != .exportTo && j.kind != .migrateOut) = some (n, j) →
      let t := ({ (s.eraseJob n j) with migrations := s.migrations.erase id }).undoJob j
      exec (.sourceReadFail id) s
        = .next (((if j.kind = .importFrom then t.abortLong pgStm else t).recErr pgStm 0x0007).complete id .internal)) ∧
    (s.cmd? id = some c → c.phase = .running → c.desc.opcode = 0x43 →
      s.models.find? (fun _ m => !m.loaded && m.cmd == some id) = none →
      s.jobs.find? (fun _ j => j.cmd == id && j.kind != .exportTo && j.kind != .migrateOut) = none →
      exec (.sourceReadFail id) s = .next ((s.recErr pgMrv 0x0002).complete id .internal)))

/-- MODEL_LOAD whose header and place pass checks 1 to 6 takes its allotment and starts the long operation of GLB (R35, R218);
what a check refuses completes with that status, and the model table is as it was. A load whose package, decrypted from its
source under the keys of R450, passes checks 7 to 9 makes the model usable with the package's layout, destroys the model key,
and completes with OK and the bytes of the allotment; one whose tables, program or tag fail is dropped with 0x32, 0x34 or
SECURITY 0x06 (R218, R219, R450). MODEL_UNLOAD of a loaded model that no session here names releases it with its vocabulary
and completes with OK and the bytes released; while n sessions name it, it completes with LOCKED and that count, and the model
stays (R220, R288). -/
def Obligations.ModelsLoaded : Prop :=
  (∀ (s : State) (id : Nat) (c : Cmd), s.readyPlain id 0x40 c →
    let d := c.desc
    let h := s.readSrc (d.opt 8 2) (d.specF 47 40) 256
    (d.optBit 11 = true → s.tenantOpen (bitsOf (d.specF 38 37) 0 12) = true) → s.longBusy pgGlb = false →
    s.modelRegionOk = true →
    (∀ base, s.loadChecks (d.specF 36 36) (d.specF 55 48) (d.optBit 10) h = .pass base →
      ∃ t m, exec (.modelLoad id) s = .next t ∧ t.models.get? (d.specF 36 36) = some m ∧ m.loaded = false ∧
        m.cmd = some id ∧ m.base = base ∧ m.bytes = pkgAllotment h ∧ m.isPrivate = d.optBit 11 ∧
        (t.common pgGlb).busy = true ∧ (t.cmd? id).map (·.phase) = some .running ∧
        (∀ k, k ≠ d.specF 36 36 → t.models.get? k = s.models.get? k)) ∧
    (∀ st r, s.loadChecks (d.specF 36 36) (d.specF 55 48) (d.optBit 10) h = .refuse st r →
      exec (.modelLoad id) s = .next ((s.refuse id st r).settled s id c)) ∧
    (∀ k, s.loadChecks (d.specF 36 36) (d.specF 55 48) (d.optBit 10) h = .noSpace k →
      exec (.modelLoad id) s = .next (((s.destroyModelKey (leAt h 48 16)).complete id .noSpace k).settled s id c))) ∧
  (∀ (s : State) (id mid : Nat) (m : Model) (p : LayerProgram), s.loadingModel = some (mid, m) → m.cmd = some id →
    let pkg := s.openPackage id m p
    (pkg.tablesOk m.weightBytes = true → pkg.programOk = true → pkg.authentic m.fp m.weightBytes = true →
      ∃ t u : State, exec (.modelLoadDone p) s = .next t ∧ t = u.complete id .ok 0 m.bytes ∧
        (∃ n : Model, u.models.get? mid = some n ∧ n.loaded = true ∧ n.layout = pkg.desc ∧ n.weights = pkg.weights ∧ n.base = m.base ∧ n.fp = m.fp) ∧
        u.hasStaged 3 m.keyRef = false ∧ (u.common pgGlb).busy = false ∧ (u.common pgGlb).percent = 100) ∧
    (pkg.tablesOk m.weightBytes = false →
      exec (.modelLoadDone p) s = .next ((s.dropLoad mid m).refuse id .invalid 0x32)) ∧
    (pkg.tablesOk m.weightBytes = true → pkg.programOk = false →
      exec (.modelLoadDone p) s = .next ((s.dropLoad mid m).refuse id .invalid 0x34)) ∧
    (pkg.tablesOk m.weightBytes = true → pkg.programOk = true → pkg.authentic m.fp m.weightBytes = false →
      exec (.modelLoadDone p) s = .next ((s.dropLoad mid m).refuse id .security 0x06))) ∧
  (∀ (s : State) (id : Nat) (c : Cmd), s.readyPlain id 0x41 c → s.longBusy pgGlb = false →
    (s.model (c.desc.specF 36 36)).loaded = true →
    (s.modelUsers (c.desc.specF 36 36) = 0 →
      exec (.modelUnload id) s = .next ((((((s.releaseModel (c.desc.specF 36 36)).beginLong pgGlb).endLong
        pgGlb).complete id .ok 0 (s.model (c.desc.specF 36 36)).bytes)).settled s id c)) ∧
    (s.modelUsers (c.desc.specF 36 36) ≠ 0 →
      exec (.modelUnload id) s
        = .next ((s.complete id .locked (min (s.modelUsers (c.desc.specF 36 36)) 0xFFFFFFFF)).settled s id c)))

/-- VOCAB_LOAD reads its package while MRV is ENABLED; when the package has been read and passes its checks, the vocabulary is
the model's and the command completes with OK and the numbers of its tokens and merges (R284 to R287). CONSTRAINT_LOAD of an
object that passes its checks, with room in the store, puts it under its tenant, kind and id and completes with OK and the
bytes it takes (their number is a free value: log entry 1); with the option UNLOAD, an object that no session names is taken
out (R302, R306). -/
def Obligations.VocabulariesAndObjects : Prop :=
  (∀ (s : State) (id : Nat) (c : Cmd),
    (s.readyPlain id 0x43 c → s.enabled pgMrv = true →
      exec (.vocabLoad id) s = .next ((s.runCmd id false).settled s id c)) ∧
    (∀ v : Vocab, s.loadingVocab = some (id, c) →
      let d := c.desc
      vocabHeaderOk (s.readSrc (d.opt 8 2) (d.specF 47 40) 64) (d.specF 55 48) = true →
      s.vocabChecks (d.specF 36 36) (d.specF 55 48) (s.readSrc (d.opt 8 2) (d.specF 47 40) (d.specF 55 48)) = .pass v →
      exec .vocabLoadDone s = .next (({ s with vocabs := s.vocabs.set (d.specF 36 36) v }).complete id .ok 0
        (v.tokens.length + v.merges.length * 2 ^ 32)))) ∧
  (∀ (s : State) (id : Nat) (c : Cmd), s.readyPlain id 0x42 c → s.enabled pgJck = true →
    let kind := c.desc.opt 9 3
    let oid := c.desc.specF 37 36
    let mid := c.desc.specF 38 38
    let bytes := Config.storeBytes kind c.desc.payLen
    (∀ b, c.desc.optBit 8 = false → s.object? c.tenant kind oid = none → s.modelFor c.tenant mid = true →
      parseBody kind (s.payload c.desc) = some b →
      ({ model := mid, body := b, bytes := bytes } : CObject).profileFits (s.model mid) = true →
      (bodyTokens kind (s.payload c.desc) b).any (fun k => decide ((s.model mid).layout.vocab ≤ k)) = false → s.storeUsed + bytes ≤ s.storeSize →
      exec (.constraintLoad id) s = .next ((({ s with
        objects := s.objects.set (objKey c.tenant kind oid) { model := mid, body := b, bytes := bytes } }).complete id .ok 0
          bytes).settled s id c)) ∧
    (∀ o, c.desc.optBit 8 = true → s.object? c.tenant kind oid = some o → s.objectUsers c.tenant kind oid = 0 →
      exec (.constraintLoad id) s = .next ((({ s with
        objects := s.objects.erase (objKey c.tenant kind oid) }).complete id .ok 0 o.bytes).settled s id c)))

/-- STEP_COMPOSE composes at once where the rows that wait fill the budget or no gather delay is set, and while a step runs
the composed step waits for its end; with fewer rows the gather delay starts, and at its end the composition is made (R253,
R256). At the end of its step a session with a free version, and no lease that wants a validation, commits its rows; without a
free version it waits from this tick, and after 50 µs it commits over its oldest version (R149, R258, R396); a leased session
without a validation that lasts waits for one. A session whose tail allotments have failed for 10 ms ends its STEP with
NO_SPACE and DETAIL 11 (R255). A PARTIAL completion that waited for a slot of its completion ring is written when one is free,
for the offer of a migration with its size, and for a STEP with its counts, after which the session takes part in steps again
(R48). -/
def Obligations.StepsComposeAndCommit : Prop :=
  (∀ s : State, s.mayCompose = true → s.gaf.composed = none →
    (s.gaf.running.isSome = true → exec .stepCompose s = .next s.composeNow) ∧
    (s.gaf.running = none → s.candidates ≠ [] → s.reg .GAF_GATHER_US = 0 ∨ s.budget ≤ s.rowsWaiting →
      exec .stepCompose s = .next s.composeNow) ∧
    (s.gaf.running = none → s.candidates ≠ [] → s.reg .GAF_GATHER_US ≠ 0 → s.rowsWaiting < s.budget → s.gaf.gather = none →
      exec .stepCompose s = .next { s with gaf := { s.gaf with gather := some s.tick } }) ∧
    (∀ t, s.gaf.running = none → s.gaf.gather = some t → t + s.reg .GAF_GATHER_US * 1000 ≤ s.tick →
      exec .gatherTimeout s = .next ({ s with gaf := { s.gaf with gather := none } }).composeNow)) ∧
  (∀ (s : State) (k : Nat) (row : StepRow) (x : Session), s.session? k = some x →
    (∀ v, s.rowOf k = some row → row.slot = k → s.freeze ≠ 2 → s.leaseOk x = true → x.freeVersion = some v → x.verWait = none →
      exec (.stepCommit k) s = .next (s.commitRow row { x with verWait := none } false)) ∧
    (s.rowOf k = some row → row.slot = k → s.freeze ≠ 2 → s.leaseOk x = true → x.freeVersion = none → x.verWait = none →
      exec (.stepCommit k) s
        = .next ((s.setSession k { x with verWait := some s.tick }).bump .STM_VER_STALLS_COUNT)) ∧
    (s.rowOf k = some row → row.slot = k → s.freeze ≠ 2 → s.leaseOk x = false →
      exec (.stepCommit k) s = .next (s.awaitLease k)) ∧
    (∀ t, s.rowOf k = some row → x.verWait = some t → t + 50000 ≤ s.tick →
      exec (.versionWaitTimeout k) s
        = .next (((s.setSession k { x with verWait := none }).raiseReg .STM_VER_STALL_MAX_TICKS (min 50000 (s.tick - t))).commitRow
            row { x with verWait := none } true)) ∧
    (∀ t q, x.allotFail = some t → x.stepReq = some q → t + 10000000 ≤ s.tick →
      exec (.tailAllotGiveUp k) s
        = .next (((((s.endStep k .noSpace 11).onSession k (fun y => { y with allotFail := none })).bump
            .GAF_ALLOT_FAILS_COUNT)).setIntBit pgGaf 9))) ∧
  (∀ (s : State) (k : Nat),
    (∀ id m c, s.migrations.find? (fun _ m => m.slot == k && m.partialDue) = some (id, m) → s.cmd? id = some c →
      (s.ring c.ring).freeSlots ≠ 0 →
      exec (.partialSlotFree k) s
        = .next (({ s with migrations := s.migrations.set id { m with partialDue := false } }).writeCompletion c.ring c.desc
            .part 0 c.desc.handle m.len)) ∧
    (∀ x q c, s.migrations.find? (fun _ m => m.slot == k && m.partialDue) = none → s.session? k = some x →
      x.heldBack = true → x.stepReq = some q → s.cmd? q.cmd = some c → (s.ring c.ring).freeSlots ≠ 0 →
      exec (.partialSlotFree k) s
        = .next (((s.setSession k { x with heldBack := false }).writeCompletion c.ring c.desc .part 0 c.desc.handle
            q.result).onSession k (fun y => { y with stepReq := some { q with sincePartial := 0 } }))) ∧
    (∀ x q d c, s.migrations.find? (fun _ m => m.slot == k && m.partialDue) = none → s.session? k = some x →
      x.heldBack = true → x.stepReq = none → x.ended = some (q, d) → s.cmd? q.cmd = some c →
      (s.ring c.ring).freeSlots ≠ 0 →
      exec (.partialSlotFree k) s
        = .next (((s.setSession k { x with heldBack := false }).writeCompletion c.ring c.desc .part 0 c.desc.handle
            q.result).onSession k (fun y => { y with ended := some ({ q with sincePartial := 0 }, d) }))))

/-- A tile that ends on a core counts, and its accounts are opened, as R207 and R506 say; at the end of a window of the urgent
share its cycles start at 0 (R270). A half of a cluster's weight window that is filled counts its bytes, at most the half's,
and its stalls; it holds its slab, and every core of the cluster that waited for that slab starts its tile (R221). An
uncorrectable error in the SRAM of a core that is not OFF fails the core, ends the running step without commit, and sets the
core's interrupt; the same on a cluster fails its cores, releases its seats and discards the halves of its window (R225). -/
def Obligations.CoresWork : Prop :=
  (∀ s : State,
    (∀ (n : BitVec 7) (work : TileWork) (ran : TileRan),
      let c := s.core n.toNat
      let out := s.runTile c.tileModel ran.layer (s.regBit .CRU_CFG_ZERO_SKIP_EN n.toNat) work
      let t := (s.countTile n.toNat out ran).countStarved n.toNat ran
      let t := (ran.jobs.map (·.1)).foldl State.progressCmd (ran.rows.foldl State.progressStep t)
      s.tileMayEnd n.toNat work.kind = true → s.workOk c.tileModel work = true →
      c.tileKind ≠ 0 → c.tagged = false → c.tileUrgent = false →
      exec (.tileEnd n work ran none) s = .next (((t.openAcct n.toNat ran none).clearTile n.toNat out.words).showHeld)) ∧
    (s.gaf.urgentEnd ≤ s.tick →
      exec .urgentWindowEnd s = .next { s with gaf := { s.gaf with
        urgentCycles := 0, urgentCapped := false, urgentEnd := (s.tick / s.urgentTicks + 1) * s.urgentTicks } })) ∧
  (∀ (k : BitVec 3) (half : Bool) (slab bytes stalls : Nat) (s : State),
    let n := min bytes (s.halfBytes k.toNat)
    let t := ((s.bump .CRU_CLU_WIN_BYTES_COUNT k.toNat n).bump .CRU_CLU_WIN_STALLS_COUNT k.toNat stalls).fillHalf k.toNat half slab bytes
    exec (.windowHalfFilled ⟨k, half, slab⟩ bytes stalls) s = .next ((clusterCores k.toNat).foldl State.wakeCore t).showHeld ∧
    t.windows.get? (k.toNat * 2 + b2n half) = some { slab := slab, bytes := n, model := s.streamModel }) ∧
  (∀ s : State,
    (∀ n : BitVec 7, s.domState n.toNat ≠ 2 → s.failed (pgCru + n.toNat) = false →
      exec (.coreSramUe n) s = .next ((s.failCore n.toNat 0x0002).abortStep.showHeld) ∧
      (s.failCore n.toNat 0x0002).failed (pgCru + n.toNat) = true ∧
      ((s.failCore n.toNat 0x0002).core n.toNat).tileKind = 0) ∧
    (∀ k : BitVec 3, s.domState (128 + k.toNat) ≠ 2 →
      exec (.clusterSramUe k) s = .next (
        (((((((clusterCores k.toNat).foldl (fun s n => if s.failed (pgCru + n) then s else s.failCore n 0x0003) s).abortStep
          ).dropSeatMoves k.toNat).unseatCluster k.toNat).unseatMoving k.toNat).dropHalves k.toNat).showHeld)))

/-! ## Embedding tables, search and the fabric (R317 to R407) -/

/-- EMB_LOOKUP and EMB_UPDATE whose payload, tables, rows and output pass the checks of R326 and R334 join the commands that
wait for a batch (R319) and go on running; what a check refuses completes with its status and reason. EMB_REPLICATE asks for
its switches and runs until the boundary (R332). A lookup or an update takes effect alike where it names a session (`v` is
then the state in which the command has been resolved). -/
def Obligations.EmbeddingCommands : Prop :=
  ∀ (s v : State) (id : Nat) (c : Cmd) (bags : List Bag) (recs : List URec), s.enabled pgEmb = true → v.enabled pgEmb = true →
    let keys := bags.flatMap (fun b => (b.table, 0) :: b.entries.map (fun e => (b.table, e.1)))
    let taken (op : Nat) : Prop := (s.readyPlain id op c ∧ v = s) ∨ ∃ x, s.readyRows id op c x ∧ v = s.reaches id c
    (taken 0x30 → parseBags (c.desc.specF 39 36) (v.payload c.desc) = some bags → c.desc.opt 8 2 ≠ 1 →
      (v.tableChecks id c.tenant keys = none → v.outOk c bags = true →
        ∃ t e, exec (.embLookup id) s = .next t ∧ t = (v.joinEmb id).settled s id c ∧ t.emb.waiting = s.emb.waiting ++ [id] ∧
          t.cmd? id = some e ∧ e.phase = .running) ∧
      (∀ st r, v.tableChecks id c.tenant keys = some (st, r) →
        exec (.embLookup id) s = .next ((v.refuse id st r).settled s id c))) ∧
    (∀ x y, s.readyRows id 0x30 c x → c.desc.opt 8 2 = 1 →
      let u := s.reaches id c
      u.session? (handleSlot c.desc.handle) = some y → parseBags (c.desc.specF 39 36) (u.payload c.desc) = some bags →
      u.tableChecks id c.tenant keys = none → (u.layoutOf y).dObs ≠ 0 →
      bags.any (fun b => u.tblD b.table != (u.layoutOf y).dObs) = false → u.positionsFit y bags.length = true →
      u.vecRoom y bags.length (u.layoutOf y).dObs = true →
      exec (.embLookup id) s = .next ((u.joinEmb id).settled s id c)) ∧
    (taken 0x31 → v.parseRecords (c.desc.specF 39 36) (v.payload c.desc) = some recs →
      (v.tableChecks id c.tenant (recs.map (fun r => (r.table, r.row))) = none →
        recs.any (fun r => decide (1 < r.kind) || (r.kind == 0 && v.tblFormat r.table != 1)) = false →
        exec (.embUpdate id) s = .next ((v.joinEmb id).settled s id c)) ∧
      (∀ st r, v.tableChecks id c.tenant (recs.map (fun r => (r.table, r.row))) = some (st, r) →
        exec (.embUpdate id) s = .next ((v.refuse id st r).settled s id c))) ∧
    (∀ l t, s.readyPlain id 0x32 c → s.emb.repl = none →
      let rows := if c.desc.opt 8 2 = 2 then s.candidateRows c.tenant else parseRepl (c.desc.payLen / 8) (s.payload c.desc)
      rows.any (fun k => !s.tblOpen id k.1 || s.tblRemote k.1) = false → s.tableChecks id c.tenant rows = none →
      askSwitches (if c.desc.opt 8 2 = 1 then none else some (c.desc.opt 10 4)) rows (s.beginLong pgEmb) [] = (true, l, t) →
      exec (.embReplicate id) s = .next ((({ t with emb := { t.emb with repl := some { cmd := id, entries := l } } }).runCmd
        id true).settled s id c))

/-- A batch that is due closes over the commands that R319 and R322 give it, which wait no longer, and the sequence of batches
goes up by one; a batch whose rows have all arrived commits once its tiles may have the cores, and without one the boundary is
made at once (R320). An epoch whose window has passed is closed, and nothing else of the device changes (R337). -/
def Obligations.EmbeddingBatches : Prop :=
  ∀ s : State,
    (s.enabled pgEmb = true → s.rowsOn = true → s.hbmOn = true → s.freeze = 0 → s.emb.batch = none → s.embDue = true →
      ∃ t b, exec .embBatchClose s = .next t ∧ t = s.embClose ∧ t.emb.batch = some b ∧
        b.cmds = takeBatch s s.batchIdx s.batchPool [] 0 ∧
        t.emb.waiting = s.emb.waiting.filter (fun i => !b.cmds.contains i) ∧ t.emb.seq = s.emb.seq + 1 ∧
        t.emb.requests = [] ∧ t.hbm = s.hbm ∧ t.cmds = s.cmds ∧ t.rings = s.rings) ∧
    (s.enabled pgEmb = true → s.freeze ≠ 2 →
      (∀ b, s.emb.batch = some b → b.waiting = [] → b.tiles = true ∨ s.gaf.running = none → exec .embBatchCommit s = .next (s.embCommit b)) ∧
      (s.emb.batch = none → s.emb.waiting = [] → s.freeze = 0 → exec .embBatchCommit s = .next s.embBoundary)) ∧
    (∀ table epoch : Nat, ∃ t, exec (.detEpochClose table epoch) s = .next t ∧
      t = { s with emb := { s.emb with epochs := t.emb.epochs } } ∧ t.emb.epochs.length = s.emb.epochs.length ∧
      (∀ e, e ∈ s.emb.epochs → e.table = table → e.epoch = epoch → e.closeTick ≤ s.tick →
        { e with closed := true } ∈ t.emb.epochs) ∧
      (∀ e, e ∈ s.emb.epochs → e.table ≠ table ∨ e.epoch ≠ epoch ∨ s.tick < e.closeTick → e ∈ t.emb.epochs))

/-- What a peer sends is taken only as the next message of its sender while FAM is ENABLED, and counts as received (R384,
R386); a message out of turn changes nothing. A change to a SHARED table held here waits for the boundary (R336), or enters
its epoch where the table is in deterministic mode (R337); a row request waits for the next fetch (R340); the row that the
running batch waits for arrives in it (R320); an APPLIED releases the changes it names (R335). -/
def Obligations.PeerMessages : Prop :=
  ∀ (s : State) (m : PeerMsg),
    (s.enabled pgFam = false ∨ s.fam.recvSeq.getD m.source 0 ≠ m.msgSeq →
      exec (.fp32Add m) s = .next s ∧ exec (.rowStore m) s = .next s ∧ exec (.rowReq m) s = .next s ∧
      exec (.rowData m) s = .next s ∧ exec (.applied m) s = .next s ∧ exec (.quietNote m) s = .next s ∧
      ∀ w, exec (.leaseNote m w) s = .next s) ∧
    (s.enabled pgFam = true → s.fam.recvSeq.getD m.source 0 = m.msgSeq →
      ∃ u, s.takeMsg m = some u ∧ u.fam.recvSeq.getD m.source 0 = (m.msgSeq + 1) % 2 ^ 32 ∧ u.emb = s.emb ∧
        (u.enabled pgEmb = true → u.tblUsable m.table = true → u.tblShared m.table = true → u.tblRemote m.table = false →
          m.row < u.tblRows m.table →
          let c : Change := { table := m.table, row := m.row, source := m.source, seq := m.seq, epoch := m.epoch }
          let v := u.bump .EMB_REMOTE_RECV_COUNT
          let held (d : Change) : State :=
            ({ v with emb := { v.emb with inbox := v.emb.inbox ++ [d] } }).hotHeld m.table m.row
          (v.tblDet m.table = false → exec (.fp32Add m) s = .next (held { c with delta := some m.values }) ∧
            exec (.rowStore m) s = .next (held { c with base := some m.values })) ∧
          (v.tblDet m.table = true → exec (.fp32Add m) s = .next (v.enterEpoch { c with delta := some m.values }) ∧
            exec (.rowStore m) s = .next (v.enterEpoch { c with base := some m.values })) ∧
          ∃ t, exec (.rowReq m) s = .next t ∧
            t.emb.requests = s.emb.requests ++ [(m.source, m.seq, m.table, m.row)]) ∧
        (∀ b key, u.emb.batch = some b → m.seq = u.emb.seq → key ∈ b.waiting → key % 2 ^ 32 = m.row →
          u.reg .EMB_TBL_HOME_DEVICE (key / 2 ^ 32) = m.source → u.reg .EMB_TBL_HOME_TABLE (key / 2 ^ 32) = m.table →
          ∃ t b', exec (.rowData m) s = .next t ∧ t.emb.batch = some b' ∧ b'.waiting.contains key = false ∧
            b'.rows.get? key = some m.values ∧ b'.cmds = b.cmds) ∧
        (u.emb.sent.any (fun e => e.2.1 == m.source && e.2.2.1 == m.seq && e.2.2.2 == m.row) = false →
          exec (.applied m) s = .next u) ∧
        (∀ id, u.emb.sent = [(id, m.source, m.seq, m.row)] →
          exec (.applied m) s = .next (({ u with emb := { u.emb with sent := [] } }).finishUpdate id)) ∧
        (m.kind = .quietNote →
          exec (.quietNote m) s = .next { u with fam := { u.fam with
            quiet := u.fam.quiet.set m.source (s.tick + m.seq * 1000 + 1000000) } }))

/-- MEM_INSERT, MEM_DELETE and MEM_SEARCH that pass their checks join the commands that wait for a batch; what a check refuses
completes with its status and DETAIL. MEM_COMPACT starts where no compaction and no batch runs (R350, R364). A batch that is
due closes with the snapshot of every collection it names; its scans end, once its tiles may have the cores; a scanned batch
commits (R350, R356, R358); and a compaction switches between batches (R365). A command takes effect alike where it names a
session (`v` is then the state in which the command has been resolved). -/
def Obligations.SearchCommands : Prop :=
  ∀ (s v : State) (id : Nat) (c : Cmd),
    (v.enabled pgSrch = true →
      let taken (op : Nat) : Prop := (s.readyPlain id op c ∧ v = s) ∨ ∃ x, s.readyRows id op c x ∧ v = s.reaches id c
      let join : State := (({ v with srch := { v.srch with waiting := v.srch.waiting ++ [id] } }).runCmd id true).settled s id c
      (v.srchRefusal id c = none →
        (taken 0x38 → exec (.memInsert id) s = .next join) ∧
        (taken 0x39 → exec (.memDelete id) s = .next join) ∧
        (taken 0x3A → exec (.memSearch id) s = .next join) ∧
        (taken 0x3B → s.srch.compact = none → s.srch.batch = none →
          ∃ t, exec (.memCompact id) s = .next t ∧ (t.coll c.desc.collection).compacting = true ∧
            t.srch.compact = some { cmd := id, coll := c.desc.collection, snap := (s.coll c.desc.collection).seq } ∧
            (t.coll c.desc.collection).nodes = (s.coll c.desc.collection).nodes ∧
            (t.common pgSrch).busy = true ∧ (t.cmd? id).map (·.phase) = some .running)) ∧
      (∀ st d, v.srchRefusal id c = some (st, d) →
        (taken 0x38 → exec (.memInsert id) s = .next ((v.complete id st d).settled s id c)) ∧
        (taken 0x39 → exec (.memDelete id) s = .next ((v.complete id st d).settled s id c)) ∧
        (taken 0x3A → exec (.memSearch id) s = .next ((v.complete id st d).settled s id c)) ∧
        (taken 0x3B → exec (.memCompact id) s = .next ((v.complete id st d).settled s id c)))) ∧
    (s.enabled pgSrch = true → s.rowsOn = true → s.hbmOn = true → s.freeze = 0 → s.srch.batch = none → s.srchDue = true →
      ∃ t b, exec .srchBatchClose s = .next t ∧ t.srch.batch = some b ∧
        b.cmds = takeSearch s s.batchQueries s.searchPool [] 0 ∧ (∀ k q, (k, q) ∈ b.snaps → q = (s.coll k).seq) ∧
        t.srch.colls = s.srch.colls ∧ t.cmds = s.cmds) ∧
    (∀ b, s.srch.batch = some b → b.scanned = false → b.tiles = true ∨ s.gaf.running = none →
      ∃ t b', exec .channelScanDone s = .next t ∧ t = s.scanDone b ∧ t.srch.batch = some b' ∧ b'.scanned = true ∧
        b'.cmds = b.cmds ∧ b'.snaps = b.snaps) ∧
    (s.enabled pgSrch = true → s.freeze ≠ 2 →
      (∀ b, s.srch.batch = some b → b.scanned = true → exec .srchBatchCommit s = .next (s.srchCommit b)) ∧
      (s.srch.batch = none → s.srch.waiting = [] → s.freeze = 0 →
        exec .srchBatchCommit s = .next (s.retireColls.safePoint pgSrch))) ∧
    (∀ j, s.srch.compact = some j → s.srch.batch = none → s.freeze = 0 →
      exec .memCompactSwitch s = .next (s.compactSwitch j))

/-- The distance of two codes of cy bytes is the number of their bits that differ, from 0 to 8 cy; partitions rank by
(distance, partition) and records by (distance, ITEM_ID, partition, group, slot), lowest first; each ranking is a total order
of its keys; and what is sorted by the ranking of records stands in its order, with nothing lost and nothing added (R352). -/
def Obligations.SearchRanks : Prop :=
  (∀ cy a b : Nat,
    hammingOf cy a b = ((List.range (8 * cy)).filter (fun i => Nat.testBit a i != Nat.testBit b i)).length ∧
    hammingOf cy a b ≤ 8 * cy) ∧
  (∀ a b : Nat × Nat, partBefore a b = true ↔ (a.1 < b.1 ∨ a.1 = b.1 ∧ a.2 < b.2)) ∧
  (∀ a b c : Nat × Nat, partBefore a a = false ∧ (partBefore a b = true ∨ a = b ∨ partBefore b a = true) ∧
    (partBefore a b = true → partBefore b c = true → partBefore a c = true)) ∧
  (let key (h : Hit) : Nat × Nat × Nat × Nat × Nat := (h.dist, h.r.id, h.part, h.group, h.slot)
   (∀ a b : Hit, hitBefore a b = true ↔
      (a.dist < b.dist ∨ a.dist = b.dist ∧ (a.r.id < b.r.id ∨ a.r.id = b.r.id ∧ (a.part < b.part ∨ a.part = b.part ∧
        (a.group < b.group ∨ a.group = b.group ∧ a.slot < b.slot))))) ∧
   (∀ a b c : Hit, hitBefore a a = false ∧ (hitBefore a b = true ∨ key a = key b ∨ hitBefore b a = true) ∧
      (hitBefore a b = true → hitBefore b c = true → hitBefore a c = true))) ∧
  (∀ l : List Hit, (sortBy hitBefore l).Perm l ∧ (sortBy hitBefore l).Pairwise (fun a b => hitBefore b a = false))

/-- A fabric port (R374, R404): CTRL.EN written 1 on a port that is OFF, in a domain that is ON, starts its training; a port
that trains goes UP at its full rate and width and DEGRADED below them; 100 ms without L0 put it DOWN and count a failure, the
sixteenth of which fails the page; a second later it trains again; a port that leaves L0 goes DOWN; L0p changes its width and
not its state. -/
def Obligations.LinkStates : Prop :=
  ∀ (s : State) (n : BitVec 3),
    let p := fabPage n.toNat
    let k := s.reg .FAB_TRAIN_FAILS_COUNT n.toNat + 1
    (s.live = true → s.pageState p = 0 → s.ungate.domOn (156 + n.toNat) = true →
      exec (.fabEnable n true) s = .next (((s.ungate.clearCounters p).setEn p true).portTrain n.toNat)) ∧
    (s.live = true → s.pageState p ≠ 0 → s.failed p = false →
      exec (.fabEnable n false) s = .next (s.ungate.portOff n.toNat)) ∧
    (∀ rate width : Nat, s.pageState p = 2 ∨ s.pageState p = 5 → (s.port n.toNat).training = true → widthOk width = true →
      rate < 3 → s.maxRate n.toNat ≤ rate →
      ∃ t, exec (.linkL0 n.toNat rate width) s = .next t ∧ (t.port n.toNat).training = false ∧
        t.pageState p = (if width = 16 ∧ rate = s.maxRate n.toNat then 3 else 4)) ∧
    (s.pageState p = 2 ∨ s.pageState p = 5 → (s.port n.toNat).training = true →
      (s.port n.toNat).since + 100000000 ≤ s.tick →
      ∃ t, exec (.linkTrainTimeout n.toNat) s = .next t ∧ (t.port n.toNat).training = false ∧
        (t.port n.toNat).since = s.tick ∧
        t.pageState p = (if 16 ≤ k then 0xFF else 5) ∧ (k < 32 → t.reg .FAB_TRAIN_FAILS_COUNT n.toNat = k)) ∧
    (s.pageState p = 5 → (s.port n.toNat).training = false → (s.port n.toNat).since + 1000000000 ≤ s.tick →
      exec (.linkRetrain n.toNat) s = .next (s.setPort n.toNat { training := true, since := s.tick })) ∧
    (s.pageState p = 3 ∨ s.pageState p = 4 →
      exec (.linkDown n.toNat) s = .next (s.linkDown n.toNat) ∧
      (∀ width : Nat, s.regBit .FAB_CFG_L0P_EN n.toNat = true → widthOk width = true →
        exec (.l0pWidthChange n.toNat width) s = .next
          ((s.setReg .FAB_LINK_WIDTH width n.toNat).setReg .FAB_LINK_L0P (b2n (width != 16)) n.toNat)))

/-- How requests to peers end (R379, R385, R387 to R390): a normal completion ends its request, and any other but a Completer
Abort fails it; after a Completer Abort the write is sent again 100 µs later, on a usable port of its entry, or waits for one;
a completion that arrives after its target was marked dead is counted and discarded; a target from which no completion came in
time is marked dead, once, and not in a quiet window that it announced; the walk of a mark ends; a mark is cleared for the
selected device alone (R393); a stream whose integrity fails stops, its link records it, and the requests on it fail; requests
held for a quiet window issue at its end. An offered message that finds no slot is answered with a Completer Abort, and a bad
access to the aperture with Unsupported Request. A map that passes the checks is swapped in, and one that does not leaves the
map as it was and records 0x0010 (R377). -/
def Obligations.FabricRequests : Prop :=
  ∀ s : State,
    (∀ (q : Nat) (r : Req), s.fam.late.contains q = false → s.fam.reqs.get? q = some r →
      exec (.fabricCompletion q .normal) s = .next (s.endReq q r) ∧
      exec (.fabricCompletion q .aborted) s = .next { s.bump .FAM_MSG_BUSY_COUNT with fam := { s.fam with
        reqs := s.fam.reqs.set q { r with resendAt := some (s.tick + 100000), since := s.tick } } } ∧
      exec (.fabricCompletion q .unsupported) s = .next (s.failReq q r) ∧
      exec (.fabricCompletion q .poisoned) s = .next (s.failReq q r)) ∧
    (∀ (q : Nat) (o : FabResult), s.fam.late.contains q = false → s.fam.reqs.get? q = none →
      exec (.fabricCompletion q o) s = .next s) ∧
    (∀ (q : Nat) (o : FabResult), s.fam.late.contains q = true →
      ∃ t, exec (.fabricCompletion q o) s = .next t ∧ t.fam.late.contains q = false ∧ t.fam.reqs = s.fam.reqs ∧
        t.reg .FAM_LATE_RESPONSES_COUNT = satAdd 64 (s.reg .FAM_LATE_RESPONSES_COUNT) 1) ∧
    (∀ (q t0 : Nat) (r : Req), s.fam.reqs.get? q = some r → r.resendAt = some t0 → t0 ≤ s.tick → s.isQuiet r.device = false →
      ∃ t r', exec (.peerResend q) s = .next t ∧ t.fam.reqs.get? q = some r' ∧ r'.resendAt = none ∧ r'.since = s.tick ∧
        r'.msg = r.msg ∧ r'.port = s.peerPort r.device ∧
        ((s.peerPort r.device).isSome = true → t.out = OutMsg.peer r.device r.msg :: s.out) ∧
        (s.peerPort r.device = none → t.out = s.out)) ∧
    (∀ (q t0 : Nat) (r : Req), s.fam.reqs.get? q = some r → r.resendAt = some t0 → s.tick < t0 ∨ s.isQuiet r.device = true →
      exec (.peerResend q) s = .next s) ∧
    (∀ d : Nat, s.enabled pgFam = true → s.mapEntries.any (fun i => s.reg .FAM_MAP_DEST_DEVICE i == d) = true →
      let l := s.fam.reqs.values.filter (fun r => r.device == d)
      (s.isQuiet d = false → l = [] ∨ (∃ r, r ∈ l ∧ r.resendAt = none ∧ r.since + s.timeoutTicks ≤ s.tick) →
        s.fam.dead.contains d = false → exec (.fabricTimeout d) s = .next (s.markDead d)) ∧
      (s.isQuiet d = true ∨ s.fam.dead.contains d = true ∨
          (l ≠ [] ∧ ∀ r, r ∈ l → r.resendAt ≠ none ∨ s.tick < r.since + s.timeoutTicks) →
        exec (.fabricTimeout d) s = .next s)) ∧
    (∀ d : Nat, s.fam.walking.contains d = true →
      ∃ t, exec (.deadWalkDone d) s = .next t ∧ t.fam.walking.contains d = false ∧ t.fam.dead = s.fam.dead) ∧
    (s.live = true → s.fam.dead.contains (s.reg .FAM_DEAD_SEL_DEVICE) = true →
      ∃ t, exec .deadMarkClear s = .next t ∧ t.fam.dead.contains (s.reg .FAM_DEAD_SEL_DEVICE) = false ∧
        (∀ d, d ≠ s.reg .FAM_DEAD_SEL_DEVICE → t.fam.dead.contains d = s.fam.dead.contains d)) ∧
    (s.live = true → s.fam.dead.contains (s.reg .FAM_DEAD_SEL_DEVICE) = false → exec .deadMarkClear s = .next s.ungate) ∧
    (∀ (st : Nat) (n : BitVec 3),
      ((s.stream st).active = true → ∃ u : State, (u.stream st).active = false ∧ (u.stream st).failed = true ∧
        (u.stream st).keys = [] ∧ (u.common (fabPage n.toNat)).err = true ∧ u.fam = s.fam ∧
        exec (.ideIntegrityFail st n) s = .next ((u.fam.reqs.entries.filter (fun e =>
          ((u.peerEntry e.2.device).map (fun i => u.reg .FAM_MAP_PORTS_IDE_STREAM i)) == some st)).foldl
            (fun w e => w.failReq e.1 e.2) u)) ∧
      ((s.stream st).active = false → exec (.ideIntegrityFail st n) s = .next s)) ∧
    (∀ d t0 : Nat, s.fam.quiet.get? d = some t0 → t0 ≤ s.tick →
      exec (.quietSpanEnd d) s = .next (({ s with fam := { s.fam with
        quiet := s.fam.quiet.erase d,
        reqs := s.fam.reqs.map (fun _ r => if r.device = d then { r with since := s.tick } else r) } }).drainPeer d)) ∧
    (∀ d t0 : Nat, s.fam.quiet.get? d = some t0 → s.tick < t0 → exec (.quietSpanEnd d) s = .next s) ∧
    (∀ d : Nat, (s.enabled pgFam = true →
        exec (.peerSlotTimeout d) s = .next { s with out := OutMsg.completerAbort d :: s.out }) ∧
      (s.enabled pgFam = false → exec (.peerSlotTimeout d) s = .next s)) ∧
    (∀ d : Nat, exec (.apertureBadAccess d) s = .next { s with out := OutMsg.unsupportedRequest d :: s.out }) ∧
    (s.live = true → (s.ungate.mapOk = true → exec .famMapCommit s = .next s.ungate.mapSwap.leaveWaiting) ∧
      (s.ungate.mapOk = false → exec .famMapCommit s = .next (s.ungate.recErr pgFam 0x0010)))

/-- Writing an id to FAM_DEAD_SEL and 1 to FAM_DEAD_STAT.CLEAR clears the dead mark of that device (R393): the device then
issues to the id again, no other mark changes, and no session and no page changes. -/
def Obligations.DeadMarkCleared : Prop :=
  ∀ (s : State) (d : Nat), s.live = true → s.enabled pgFam = true → s.reg .FAM_DEAD_SEL_DEVICE = d →
    s.fam.dead.contains d = true →
    ∃ t, exec .deadMarkClear s = .next t ∧ t.mayReach d = true ∧
      (∀ e, e ≠ d → t.mayReach e = s.mayReach e) ∧ t.fam.walking = s.fam.walking ∧ t.sdir = s.sdir ∧ t.cane = s.cane ∧
      t.cmds = s.cmds ∧ t.migrations = s.migrations

/-! ## Checkpoints and telemetry (R408 to R432, R506 to R528) -/

/-- CTRL.EN of EMB, SRCH, FAM, CKP, SEC0 and TEL0 to TEL3, and VALID of a table and of a collection (R341, R368, R407, R421,
R471, R528): where the set-up passes its checks the block runs, or goes to INIT until its initialisation is done; where it
does not, the block stays as it is and records 0x0003. A block that is in use is not disabled and records 0x0005. -/
def Obligations.UnitEnables : Prop :=
  ∀ s : State,
    (s.live = true →
      let u := s.ungate
      (s.pageState pgEmb = 1 →
        (u.validTables = [] → exec (.embEnable false) s = .next (u.disableBlock pgEmb)) ∧
        (u.validTables ≠ [] → exec (.embEnable false) s = .next (u.recErr pgEmb 0x0005))) ∧
      (s.pageState pgEmb = 0 →
        u.replRanges.all (fun r => r.2 == 0 || (inHbmRange r.1 r.2 && clearOf r.1 r.2 u.deviceRegions)) = true →
        exec (.embEnable true) s = .next (u.enableBlock pgEmb)) ∧
      (s.pageState pgSrch = 0 →
        (u.srchOk = true → exec (.srchEnable true) s
          = .next { u.enableBlock pgSrch with srch := { (u.enableBlock pgSrch).srch with tombs := [] } }) ∧
        (u.srchOk = false → exec (.srchEnable true) s = .next (u.recErr pgSrch 0x0003))) ∧
      (s.pageState pgFam = 0 →
        (u.famOk = true → exec (.famEnable true) s = .next (u.enableBlock pgFam)) ∧
        (u.famOk = false → exec (.famEnable true) s = .next (u.recErr pgFam 0x0003))) ∧
      (s.pageState pgFam = 1 → s.sdir.sess.values.any (fun x => x.leased || x.residency == .away) = true →
        exec (.famEnable false) s = .next (u.recErr pgFam 0x0005)) ∧
      (s.pageState pgCkp = 0 →
        (u.ckpOk = true → ∃ t, exec (.ckpEnable true) s = .next t ∧ t.pageState pgCkp = 2 ∧ t.ckp.mapValid = false) ∧
        (u.ckpOk = false → exec (.ckpEnable true) s = .next (u.recErr pgCkp 0x0003))) ∧
      (s.pageState pgCkp = 1 → s.ckp.run.isSome = true ∨ s.ckp.restore.isSome = true →
        exec (.ckpEnable false) s = .next (u.recErr pgCkp 0x0005)) ∧
      (s.pageState pgSec = 0 →
        (u.secOk = true → ∃ t, exec (.secEnable true) s = .next t ∧ t.pageState pgSec = 2 ∧ t.tenants = s.tenants) ∧
        (u.secOk = false → exec (.secEnable true) s = .next (u.recErr pgSec 0x0003))) ∧
      (s.pageState pgSec = 1 → s.tenants.values.any (fun t => t.state != .closed) = true →
        exec (.secEnable false) s = .next (u.recErr pgSec 0x0005)) ∧
      (∀ w : BitVec 2, s.pageState (pgTel + w.toNat) = 0 →
        (u.telCheck w.toNat = true → exec (.telEnable w true) s = .next (u.telOpen w.toNat)) ∧
        (u.telCheck w.toNat = false → exec (.telEnable w true) s = .next (u.recErr (pgTel + w.toNat) 0x0003))) ∧
      (let t := s.reg .EMB_TBL_SEL_TABLE
       (s.regBit .EMB_TBL_CFG_VALID t = false → u.tblOk t = true →
          exec (.tblValidWrite true) s = .next (u.setReg .EMB_TBL_CFG_VALID 1 t)) ∧
       (s.tblUsable t = true →
          exec (.tblValidWrite false) s = .next (u.retireTable t) ∧
          (s.enabled pgEmb = true →
            u.retireTable t = { u with emb := { u.emb with retiring := u.emb.retiring ++ [(t, u.nextCmd)] } }))) ∧
      (let k := s.reg .SRCH_COLL_SEL_COLLECTION
       (s.regBit .SRCH_COLL_CFG_VALID k = false → u.collOk k = true →
          exec (.collValidWrite true) s = .next ((u.setReg .SRCH_COLL_CFG_VALID 1 k).setColl k {})) ∧
       (s.collUsable k = true →
          exec (.collValidWrite false) s = .next (u.retireColl k) ∧
          (s.enabled pgSrch = true →
            u.retireColl k = { u with srch := { u.srch with retiring := u.srch.retiring ++ [(k, u.nextCmd)] } })))) ∧
    (s.pageState pgCkp = 2 →
      ∃ t, exec .ckpInitDone s = .next t ∧ t.pageState pgCkp = 1 ∧ t.ckp.timerFrom = s.tick ∧ t.ckp.store = s.ckp.store ∧
        t.fabric = s.fabric) ∧
    (s.pageState pgSec = 2 →
      ∃ t, exec .secInitDone s = .next t ∧ t.pageState pgSec = 1 ∧ t.tenants = s.tenants ∧ t.sec = s.sec)

/-- A checkpoint (R414 to R421). CKPT_TAKE, the timer and the step count start one, numbered after the last: from then on the
device is being quiesced. CKPT_TAKE waits while a checkpoint, a restore or a fining pass runs, and completes with INTERNAL
while CKP is not ENABLED (R431) or no checkpoint key is bound, and with NO_SPACE and DETAIL 22 where the freeze does not fit
the staging area; a trigger while a checkpoint or restore runs is dropped and counted. The cut is taken once the device is
quiet, and holds its state at that tick; the freeze ends; and the manifest, at its slot of the store, makes it the newest
valid checkpoint, and its CKPT_TAKE completes with OK and its number. A failed checkpoint leaves every valid one as it was: a
failed write completes CKPT_TAKE with INTERNAL, a full store with NO_SPACE and DETAIL 21. CKPT_RESTORE makes the checks of
R423 in their order: no manifest of the number sought completes it with reason 0x70, another stepping with 0x71, a device that
is not clear with LOCKED, an image that does not check or whose key is not usable with SECURITY 0x09, other bases and sizes
with 0x73, other models or vocabularies with 0x74, and, with CMDS, rings that do not fit with 0x75; while CKP is not ENABLED
it completes with INTERNAL (R431), and it waits while a checkpoint, a restore or a fining pass runs. What passes runs. When
every object has been read and written the restore commits and completes with OK; one whose object fails, or whose store is
out of reach, leaves the directory and the page records clear and completes with SECURITY 0x0A or INTERNAL (R422 to R430). -/
def Obligations.CheckpointsAndRestores : Prop :=
  (∀ s : State,
    let fits (full : Bool) : Prop := s.stageBytes (s.baseSnap full) s.snapshot ≤ s.reg .CKP_STAGE_SIZE_GIB * 2 ^ 30
    let begun (t : State) (cmd : Option Nat) (full : Bool) : Prop := ∃ r, t.ckp.run = some r ∧ r.cmd = cmd ∧ r.full = full ∧
      r.seq = s.lastSeq + 1 ∧ r.start = s.tick ∧ r.cut = none ∧ r.copied = false ∧ t.freeze = 1 ∧
      t.ckp.store = s.ckp.store ∧ t.sdir = s.sdir ∧ (t.common pgCkp).busy = true
    let ends (u t : State) (r : CkptRun) (st : Status) (detail result : Nat) : Prop :=
      t = match r.cmd with
        | some id => u.complete id st detail result
        | none => u
    (∀ (id : Nat) (c : Cmd), s.readyPlain id 0x48 c →
      (s.pageState pgCkp ≠ 1 → exec (.ckptTake id) s = .next ((s.complete id .internal).settled s id c)) ∧
      (s.pageState pgCkp = 1 →
        (s.ckp.run ≠ none ∨ s.ckp.restore ≠ none ∨ s.sec.pass ≠ none →
          exec (.ckptTake id) s = .next ((s.waitCmd id).settled s id c)) ∧
        (s.ckp.run = none → s.ckp.restore = none → s.sec.pass = none →
          let full := s.nextFull (c.desc.optBit 8)
          (s.sec.ckk ≠ none → fits full →
            ∃ t, exec (.ckptTake id) s = .next t ∧ begun t (some id) full ∧ (t.cmd? id).map (·.phase) = some .running) ∧
          (s.sec.ckk = none → ∃ u : State, exec (.ckptTake id) s = .next ((u.complete id .internal).settled s id c) ∧
            u.ckp.run = none ∧ u.freeze = 0 ∧ u.ckp.store = s.ckp.store) ∧
          (s.sec.ckk ≠ none → ¬fits full →
            ∃ u : State, exec (.ckptTake id) s = .next ((u.complete id .noSpace 22).settled s id c) ∧
              u.ckp.run = none ∧ u.freeze = 0 ∧ u.ckp.store = s.ckp.store)))) ∧
    (let timerDue := s.regBit .CKP_CFG_TIMER_EN = true ∧ s.ckp.timerFrom + s.ckptTimer ≤ s.tick
     let stepsDue := s.regBit .CKP_CFG_STEPS_EN = true ∧
       s.ckp.stepsFrom + max 1 (s.reg .CKP_STEPS_COUNT) ≤ s.reg .GAF_STEP_SEQ_COUNT
     let dropped (t : State) : Prop := t.ckp.run = s.ckp.run ∧ t.ckp.restore = s.ckp.restore ∧ t.freeze = s.freeze ∧
       t.ckp.timerFrom = s.tick ∧ t.ckp.stepsFrom = s.reg .GAF_STEP_SEQ_COUNT ∧ t.cmds = s.cmds ∧
       t.reg .CKP_SKIPPED_COUNT = satAdd Reg.CKP_SKIPPED_COUNT.desc.width (s.reg .CKP_SKIPPED_COUNT) 1
     (s.pageState pgCkp = 1 → s.ckp.run = none → s.ckp.restore = none → s.sec.ckk ≠ none → fits (s.nextFull false) →
       (timerDue → ∃ t, exec .ckptTimer s = .next t ∧ begun t none (s.nextFull false) ∧ t.cmds = s.cmds) ∧
       (stepsDue → ∃ t, exec .ckptStepCount s = .next t ∧ begun t none (s.nextFull false) ∧ t.cmds = s.cmds)) ∧
     (s.pageState pgCkp = 1 → s.ckp.run ≠ none ∨ s.ckp.restore ≠ none →
       (timerDue → ∃ t, exec .ckptTimer s = .next t ∧ dropped t) ∧
       (stepsDue → ∃ t, exec .ckptStepCount s = .next t ∧ dropped t)) ∧
     (s.pageState pgCkp ≠ 1 ∨ ¬timerDue → exec .ckptTimer s = .next s) ∧
     (s.pageState pgCkp ≠ 1 ∨ ¬stepsDue → exec .ckptStepCount s = .next s)) ∧
    (∀ r, s.ckp.run = some r → r.cut = none →
      (s.freeze = 1 → s.quiet = true →
        ∃ t c, exec .ckptCut s = .next t ∧ t.freeze = 2 ∧ t.ckp.run = some { r with cut := some c } ∧ c.tick = s.tick ∧
          c.sdir.sess = s.sdir.sess ∧ c.cmds = s.tenantCmds ∧ c.hbm = s.hbm ∧ c.objects = s.objects ∧
          t.sdir.sess = s.sdir.sess ∧ t.cmds = s.cmds) ∧
      (s.freeze ≠ 1 ∨ s.quiet = false → exec .ckptCut s = .next s)) ∧
    (∀ r c, s.ckp.run = some r → r.cut = some c → r.copied = false →
      ∃ t, exec .ckptFreezeEnd s = .next t ∧ t.freeze = 0 ∧ t.ckp.run = some { r with copied := true } ∧
        t.ckp.store = s.ckp.store) ∧
    (∀ r c, s.ckp.run = some r → r.cut = some c →
      let slot := (r.seq + 1) % 2
      let n := s.ckptBytes r c
      (r.copied = true → s.storeReachable = true → s.storeFits n.1 = true →
        ∃ u t m, exec .ckptManifestDone s = .next t ∧ ends u t r .ok (min (n.1 / 2 ^ 20) (2 ^ 32 - 1)) r.seq ∧
          u.ckp.run = none ∧ u.ckp.store.get? slot = some m ∧ m.seq = r.seq ∧ m.snap = c ∧
          u.ckp.store.get? (1 - slot) = s.ckp.store.get? (1 - slot) ∧
          u.fabric = s.fabric.writeN (s.ckptStore + 4096 * slot) (s.manifest r c n.1 n.2)) ∧
      (r.copied = false ∨ s.storeReachable = false ∨ s.storeFits n.1 = false → exec .ckptManifestDone s = .next s) ∧
      (∃ u t, exec (.ckptAbort true) s = .next t ∧ ends u t r .internal 0 0 ∧ u.ckp.run = none ∧
        u.ckp.store = s.ckp.store ∧ (r.copied = false → u.freeze = 0) ∧ (u.common pgCkp).err = true) ∧
      (s.storeReachable = true → s.storeFits n.1 = false →
        ∃ u t, exec (.ckptAbort false) s = .next (t.setIntBit pgCkp 10) ∧ ends u t r .noSpace 21 0 ∧ u.ckp.run = none ∧
          u.ckp.store = s.ckp.store ∧ (r.copied = false → u.freeze = 0)) ∧
      (s.storeReachable = true → s.storeFits n.1 = true → exec (.ckptAbort false) s = .next s))) ∧
  (∀ (s : State) (id : Nat) (c : Cmd),
    (s.readyPlain id 0x49 c →
      let done (t : State) : Prop := exec (.ckptRestore id) s = .next (t.settled s id c)
      (s.pageState pgCkp ≠ 1 → done (s.complete id .internal)) ∧
      (s.pageState pgCkp = 1 → s.ckp.run ≠ none ∨ s.ckp.restore ≠ none ∨ s.sec.pass ≠ none → done (s.waitCmd id)) ∧
      (s.pageState pgCkp = 1 → s.ckp.run = none → s.ckp.restore = none → s.sec.pass = none →
        (s.soughtSlot c.desc = none ∨ s.fabricOk s.ckptStore s.ckptStoreLen = false → done (s.refuse id .invalid 0x70)) ∧
        (∀ slot, s.soughtSlot c.desc = some slot → s.fabricOk s.ckptStore s.ckptStoreLen = true →
          (leAt (s.manifestBytes slot) 10 1 ≠ 0xA1 → done (s.refuse id .invalid 0x71)) ∧
          (leAt (s.manifestBytes slot) 10 1 = 0xA1 →
            (s.restoreClear = false → done (s.complete id .locked)) ∧
            (s.restoreClear = true →
              (s.imageOf slot = none → done (s.refuse id .security 0x09)) ∧
              (∀ m, s.imageOf slot = some m →
                (s.fixedEqual m.snap = false → done (s.refuse id .invalid 0x73)) ∧
                (s.fixedEqual m.snap = true → s.modelsEqual m.snap = false → done (s.refuse id .invalid 0x74)) ∧
                (s.fixedEqual m.snap = true → s.modelsEqual m.snap = true →
                  (s.sec.ckk ≠ some m.snap.keyRef → done (s.refuse id .security 0x09)) ∧
                  (s.sec.ckk = some m.snap.keyRef →
                    (c.desc.optBit 8 = true → s.ringsFit m.snap = false → done (s.refuse id .invalid 0x75)) ∧
                    (c.desc.optBit 8 = false ∨ s.ringsFit m.snap = true →
                      ∃ t, exec (.ckptRestore id) s = .next t ∧
                        t.ckp.restore = some { cmd := id, slot := slot, cmds := c.desc.optBit 8 } ∧ t.sdir = s.sdir ∧
                        t.cane = s.cane ∧ (t.common pgCkp).busy = true ∧
                        (t.cmd? id).map (·.phase) = some .running))))))))) ∧
    (∀ r words, s.ckp.restore = some r →
      (∀ m, s.imageOf r.slot = some m → s.storeReachable = true →
        exec (.restoreDone words none) s = .next (s.restoreCommit r m words) ∧
        ∃ (u : State) (n : Nat), s.restoreCommit r m words = u.complete r.cmd .ok 0 (m.seq % 2 ^ 48 + min n 65535 * 2 ^ 48) ∧
          u.ckp.restore = none ∧ u.ckp.mapValid = true ∧ (u.common pgCkp).busy = false) ∧
      (s.imageOf r.slot = none ∨ s.storeReachable = false →
        exec (.restoreDone words none) s = .next (s.restoreFail r .internal 0)) ∧
      exec (.restoreDone words (some true)) s = .next (s.restoreFail r .security (0xFF + 256 * 0x0A)) ∧
      exec (.restoreDone words (some false)) s = .next (s.restoreFail r .internal 0) ∧
      (∀ st detail, ∃ u : State, s.restoreFail r st detail = u.complete r.cmd st detail ∧ u.sdir = {} ∧ u.cane.recs = ⟨[]⟩ ∧
        u.ckp.restore = none ∧ u.ckp.store = s.ckp.store)) ∧
    (∀ words failed, s.ckp.restore = none → exec (.restoreDone words failed) s = .next s))

/-- The end of a bandwidth window moves its counts to the last-window registers (R509); the writes of a dump and of a tag
record put their bytes at the slot that DUMPS_WRITTEN and TAG_TAIL name, and count them (R512, R520); a write that fails drops
the dump or the record and records 0x0001 (R528); TEL_READ answers with the registers of a page that it may read (R522, R523). -/
def Obligations.TelemetryRings : Prop :=
  ∀ s : State,
    (∀ counts, s.tel.windowEnd ≤ s.tick → exec (.bwWindowEnd counts) s = .next (s.bwEnd counts)) ∧
    (∀ counts, s.tick < s.tel.windowEnd → exec (.bwWindowEnd counts) s = .next s) ∧
    (∀ d, s.tel.dump = some d →
      let n := s.reg .TEL0_DUMPS_WRITTEN_COUNT
      let w := s.regBit .TEL0_DUMP_BASE_IN_WINDOW
      let addr := s.reg .TEL0_DUMP_BASE_ADDR * 4096 + n % s.dumpSlots * (s.reg .TEL0_DUMP_SLOT_SIZE_KIB * 1024)
      ∃ t, exec .dumpWriteDone s = .next t ∧ t.tel.dump = none ∧ t.reg .TEL0_DUMPS_WRITTEN_COUNT = (n + 1) % 2 ^ 32 ∧
        t.window = (s.writeMem w addr d.bytes).window ∧ t.host = (s.writeMem w addr d.bytes).host) ∧
    (∀ r l, s.tel.tags = r :: l →
      let m := s.reg .TEL3_TAG_TAIL_COUNT
      let w := s.regBit .TEL3_TAG_BASE_IN_WINDOW
      let addr := s.reg .TEL3_TAG_BASE_ADDR * 4096 + m % s.tagSlots * 64
      ∃ t, exec .tagWriteDone s = .next t ∧ t.tel.tags = l ∧ t.reg .TEL3_TAG_TAIL_COUNT = (m + 1) % 2 ^ 32 ∧
        t.window = (s.writeMem w addr r).window ∧ t.host = (s.writeMem w addr r).host) ∧
    (∀ r l, s.tel.tags = r :: l → ∃ t, exec (.telRingWriteFail true) s = .next t ∧ t.tel.tags = l ∧
      (t.common (pgTel + 3)).err = true ∧ t.host = s.host ∧ t.window = s.window) ∧
    (∀ d, s.tel.dump = some d → ∃ t, exec (.telRingWriteFail false) s = .next t ∧ t.tel.dump = none ∧
      (t.common pgTel).err = true ∧ t.host = s.host ∧ t.window = s.window) ∧
    (∀ payload, s.plat.phase = .on → leAt payload 0 1 = 0x10 →
      exec (.telRead payload) s = .next (s.ungate.send (.telRead (s.telAnswer payload))))

/-! ## Security, tenants, power and boot (R433 to R505) -/

/-- Keys that come in (R440, R441, R468): a key that the mailbox or KEY_DELIVER accepts takes a free entry of the store with
its kind, KEY_REF, owner and key, a SET key also a free set slot, and RESULT is 0; a refusal stages nothing and RESULT says
why. A KEY_DELIVER outside a secure session is answered UnexpectedRequest. KEY_DISCARD takes the selected entry, and a SET
key's slot with it. A GO of TEN_BIND makes a staged transport key of the selected OPEN tenant its current TTK: the oldest of
more than four is dropped, LOCAL_ONLY ends (R458); a GO of CKPT_BIND binds a staged CKK; anything else records 0x0010, and
without GO only STAGED is written (R469). SET_REVOKE takes the selected set key and its staged entry, and revokes its KEY_REF
(R451). A stream starts only on an open secure session, whose export secret it keeps, and is refused with 0x0004 without one
(R454); a start and a rekey of an active stream send K_SET_GO with the next generation, whose keys the secret gives; a rekey
alternates the key sets, by command or on its own (R452); a stop sends K_SET_STOP and takes the keys (R470). On an inactive
stream a rekey or a stop has no effect. -/
def Obligations.KeysAndStreams : Prop :=
  (∀ s : State,
    let u := s.ungate
    let takes (t : State) (k : StagedKey) : Prop :=
      (∃ i, i < 256 ∧ s.sec.staged.get? i = none ∧ t.sec.staged.get? i = some k ∧
        ∀ j, j ≠ i → t.sec.staged.get? j = s.sec.staged.get? j) ∧
      (k.kind = 4 → ∃ i, i < 4 ∧ s.sec.setKeys.get? i = none ∧ t.sec.setKeys.get? i = some k ∧
        ∀ j, j ≠ i → t.sec.setKeys.get? j = s.sec.setKeys.get? j) ∧
      (k.kind ≠ 4 → t.sec.setKeys = s.sec.setKeys) ∧ t.tenants = s.tenants ∧ t.sec.ckk = s.sec.ckk
    let answer (r : Nat) : OutMsg := .vendor (leBytes 0x81 1 ++ leBytes r 1 ++ leBytes 0 2)
    (s.live = true →
      (∀ v : Word,
        let r := leBytes (s.reg .SEC1_KEYIN_RECORD) 128
        (bitAt v.toNat 0 = false → exec (.keyinGo v) s = .next u) ∧
        (bitAt v.toNat 0 = true →
          (u.keyinResult r = 0 → ∃ t k, u.mailboxKey r = some k ∧ exec (.keyinGo v) s = .next t ∧ t.reg .SEC1_KEYIN_STAT_RESULT = 0 ∧
            takes t { kind := 3, ref := leAt r 0 16, key := k }) ∧
          (u.keyinResult r ≠ 0 → exec (.keyinGo v) s = .next (u.setReg .SEC1_KEYIN_STAT_RESULT (u.keyinResult r))))) ∧
      (let i := s.reg .SEC1_KEY_SEL_INDEX
       (s.sec.staged.get? i = none → exec .keyDiscard s = .next u) ∧
       (∀ k, s.sec.staged.get? i = some k →
        ∃ t, exec .keyDiscard s = .next t ∧ t.sec.staged.get? i = none ∧
          (∀ j, j ≠ i → t.sec.staged.get? j = s.sec.staged.get? j) ∧ t.tenants = s.tenants ∧ t.sec.ckk = s.sec.ckk ∧
          (k.kind = 4 → ∀ j x, t.sec.setKeys.get? j = some x → x.ref ≠ k.ref) ∧
          (k.kind ≠ 4 → ∀ j, t.sec.setKeys.get? j = s.sec.setKeys.get? j))) ∧
      (∀ v : Word,
        let i := v.toNat % 256
        let n := s.reg .SEC2_TEN_SEL_TENANT
        let sel := u.setReg .SEC2_TEN_BIND_STAGED i
        let selC := u.setReg .SEC2_CKPT_BIND_STAGED i
        (bitAt v.toNat 31 = false → exec (.tenBindGo v) s = .next sel ∧ exec (.ckptBindGo v) s = .next selC) ∧
        (bitAt v.toNat 31 = true →
          (∀ k, s.sec.staged.get? i = some k → k.kind = 1 → k.owner = n → s.tenantOpen n = true →
            ∃ w, exec (.tenBindGo v) s = .next w ∧ (w.tenant n).ttks = (k.ref :: (s.tenant n).ttks).take 4 ∧
              (w.tenant n).ttkKeys = (k.key :: (s.tenant n).ttkKeys).take 4 ∧ (w.tenant n).localOnly = false ∧
              (w.tenant n).state = .opened ∧ (w.tenant n).keys = (s.tenant n).keys ∧ w.sec.staged.get? i = none ∧
              ∀ m, m ≠ n → w.tenants.get? m = s.tenants.get? m) ∧
          ((∀ k, s.sec.staged.get? i = some k → k.kind ≠ 1 ∨ k.owner ≠ n ∨ s.tenantOpen n = false) →
            exec (.tenBindGo v) s = .next (sel.recErr pgSec2 0x0010)) ∧
          (∀ k, s.sec.staged.get? i = some k → k.kind = 2 →
            ∃ w, exec (.ckptBindGo v) s = .next w ∧ w.sec.ckk = some k.ref ∧ w.sec.ckkKey = k.key ∧
              w.sec.staged.get? i = none ∧ w.tenants = s.tenants) ∧
          ((∀ k, s.sec.staged.get? i = some k → k.kind ≠ 2) →
            exec (.ckptBindGo v) s = .next (selC.recErr pgSec2 0x0010)))) ∧
      (let j := s.reg .SEC2_SET_SEL_SET
       (s.sec.setKeys.get? j = none → exec .setRevoke s = .next u) ∧
       (∀ k, s.sec.setKeys.get? j = some k →
        ∃ t, exec .setRevoke s = .next t ∧ t.sec.setKeys.get? j = none ∧ t.sec.revoked = k.ref :: s.sec.revoked ∧
          (∀ m, m ≠ j → t.sec.setKeys.get? m = s.sec.setKeys.get? m) ∧
          ∀ m x, t.sec.staged.get? m = some x → x.kind = 4 → x.ref ≠ k.ref))) ∧
    (∀ (i : Nat) (p : List Byte) (w : Bool), s.islandUp = true →
      (s.secure (some i) = true → s.deliverResult p w = 0 → ∃ t, exec (.keyDeliver (some i) p w) s = .next t ∧
        t.out = answer 0 :: s.out ∧
        takes t { kind := leAt p 20 1, ref := leAt p 4 16, owner := leAt p 22 2
                  key := Config.unwrapKey (deliverKey (s.exportSecret i)) (slice p 24 40) }) ∧
      (s.secure (some i) = true → s.deliverResult p w ≠ 0 →
        exec (.keyDeliver (some i) p w) s = .next (s.send (answer (s.deliverResult p w)))) ∧
      (s.secure (some i) = false →
        exec (.keyDeliver (some i) p w) s = .next (s.send (.spdmError .unexpectedRequest))) ∧
      exec (.keyDeliver none p w) s = .next (s.send (.spdmError .unexpectedRequest)))) ∧
  (∀ s : State,
    let u := s.ungate
    let n := s.reg .SEC3_STREAM_SEL_STREAM
    let session := s.reg .SEC3_STREAM_SESS_SESSION n
    let keyed (t : State) (m : Nat) (secret : List Byte) (set : Bool) : Prop :=
      (t.stream m).active = true ∧ (t.stream m).failed = false ∧ (t.stream m).gen = ((s.stream m).gen + 1) % 2 ^ 32 ∧
      (t.stream m).keySet = set ∧ (t.stream m).secret = secret ∧ (t.stream m).keys = ideKeys secret m (t.stream m).gen ∧
      t.out = .keySetGo m (t.stream m).gen :: s.out ∧ (∀ k, k ≠ m → t.stream k = s.stream k) ∧
      t.tenants = s.tenants ∧ t.sec.staged = s.sec.staged
    (s.live = true → n ≠ 0 →
      (s.secure (some session) = true →
        ∃ t, exec .streamStart s = .next t ∧ keyed t n (s.exportSecret session) (s.stream n).keySet) ∧
      (s.secure (some session) = false → exec .streamStart s = .next (u.recErr pgSec3 0x0004))) ∧
    (s.live = true →
      ((s.stream n).active = true →
        (∃ t, exec .streamStop s = .next t ∧ (t.stream n).active = false ∧ (t.stream n).keys = [] ∧
          (t.stream n).secret = [] ∧ (t.stream n).gen = (s.stream n).gen ∧ t.out = .keySetStop n :: s.out ∧
          ∀ k, k ≠ n → t.stream k = s.stream k) ∧
        ∃ t, exec .streamRekey s = .next t ∧ keyed t n (s.stream n).secret (!(s.stream n).keySet)) ∧
      ((s.stream n).active = false → exec .streamStop s = .next u ∧ exec .streamRekey s = .next u)) ∧
    (∀ m : Nat,
      ((s.stream m).active = true →
        ∃ t, exec (.streamAutoRekey m) s = .next t ∧ keyed t m (s.stream m).secret (!(s.stream m).keySet)) ∧
      ((s.stream m).active = false → exec (.streamAutoRekey m) s = .next s)))

/-- SPDM, measurements and the life cycle (R436 to R438, R471, R490, R491): KEY_EXCHANGE takes a free session number; FINISH
opens it; END_SESSION and a missed heartbeat end it; the digest and the chain of slot 0 are those of the identity; a
measurement that exists is returned, signed; LIFECYCLE_ADVANCE in a secure session over MCTP, with valid proofs, moves the
life cycle, and the move to RMA destroys every key and the identity; a refused one is answered with its RESULT and changes
nothing; without a secure session over MCTP it is answered UnexpectedRequest. A failed health test and an error of the key
memory are recorded. -/
def Obligations.IslandRequests : Prop :=
  ∀ s : State, s.islandUp = true →
    let answer (r : Nat) : OutMsg := .vendor (leBytes 0x82 1 ++ leBytes r 1 ++ leBytes 0 2)
    (∀ (i p : Nat) (hb : Bool), s.sec.spdm.freeFrom 0 16 = some i →
      ∃ t, exec (.spdmRequest (.keyExchange hb p)) s = .next t ∧
        t.sec.spdm.get? i = some { hbeat := hb, period := p * 1000000000, last := s.tick, opened := s.tick } ∧
        (∀ j, j ≠ i → t.sec.spdm.get? j = s.sec.spdm.get? j)) ∧
    (s.sec.spdm.freeFrom 0 16 = none → ∀ p hb,
      exec (.spdmRequest (.keyExchange hb p)) s = .next (s.send (.spdmError .sessionLimit))) ∧
    (∀ d, s.sec.identity = some d → exec (.spdmRequest .getDigests) s = .next (s.send (.digests d.digest)) ∧
      exec (.spdmRequest .getCertificate) s = .next (s.send (.certificates d.chain))) ∧
    (∀ i x, s.sec.spdm.get? i = some x →
      (∃ t, exec (.spdmRequest (.finish i)) s = .next t ∧ t.secure (some i) = true) ∧
      (x.isOpen = true → ∃ t, exec (.spdmRequest (.endSession i)) s = .next t ∧ t.secure (some i) = false) ∧
      (x.isOpen = true → x.hbeat = true → x.last + x.period < s.tick →
        ∃ t, exec (.spdmHeartbeatTimeout i) s = .next t ∧ t.sec.spdm.get? i = none)) ∧
    (∀ i v, i ≠ 0xFF → s.measurement i = some v →
      exec (.getMeasurements i) s = .next ((s.send (.measurements [measureBlock i v] (freeWords s.free 12))).useFree 12)) ∧
    (∀ (i : Nat) (p : List Byte) (y : Crypto), s.secure (some i) = true →
      (s.advanceResult p y = 0 → ∃ t, exec (.lifecycleAdvance (some i) true p y) s = .next t ∧ t.plat.lifecycle = leAt p 2 1 ∧
        t.out = answer 0 :: s.out ∧
        (leAt p 2 1 = 3 → t.sec.staged = ⟨[]⟩ ∧ t.sec.ckk = none ∧ t.sec.spdm = ⟨[]⟩ ∧ t.sec.identity = none ∧
          ∀ n x, t.tenants.get? n = some x → x.keys = false ∧ x.ttks = [] ∧ x.ttkKeys = []) ∧
        (leAt p 2 1 = 2 → t.tenants = s.tenants ∧ t.sec = s.sec)) ∧
      (s.advanceResult p y ≠ 0 →
        exec (.lifecycleAdvance (some i) true p y) s = .next (s.send (answer (s.advanceResult p y))))) ∧
    (∀ (i : Option Nat) (m : Bool) (p : List Byte) (y : Crypto), (s.secure i && m) = false →
      exec (.lifecycleAdvance i m p y) s = .next (s.send (.spdmError .unexpectedRequest))) ∧
    (exec .rngHealthFail s = .next (((s.setReg .SEC0_ISLAND_RNG_OK 0).recErr pgSec 0x0001).setIntBit pgSec 8)) ∧
    (s.failed pgSec = false → ∃ t, exec .keyMemoryUe s = .next t ∧ t.failed pgSec = true)

/-- TENANT_OPEN (R456, R490): outside DEPLOYED it is refused with SECURITY 0x0C, and without SEC with INTERNAL; of an OPEN
tenant with INVALID 0x81, of one that is leaving with LOCKED and DETAIL 1, without its staged transport key with SECURITY
0x05, with a failed random generator with SECURITY 0x0B; else the tenant is OPEN with keys of its own, its per-tenant
registers are at their reset values (R455), and unless it is LOCAL_ONLY the staged key is its TTK and staged no longer.
TENANT_CLOSE of an OPEN tenant makes it CLOSING and goes on running (R459); of a CLOSED one it is refused with INVALID 0x82,
of one that is leaving with LOCKED. -/
def Obligations.TenantsOpenAndClose : Prop :=
  ∀ (s : State) (id : Nat) (c : Cmd),
    let n := c.desc.specF 37 36
    let x := s.tenant n
    let found := s.sec.staged.find? (fun _ k => k.kind == 1 && k.ref == c.desc.specF 55 40 && k.owner == n)
    let others (t : State) : Prop := ∀ k, k ≠ n → t.tenants.get? k = s.tenants.get? k
    (s.readyPlain id 0x50 c →
      let ends (t : State) : Prop := exec (.tenantOpen id) s = .next (t.settled s id c)
      (s.plat.lifecycle ≠ 2 → ends (s.refuse id .security 0x0C)) ∧
      (s.plat.lifecycle = 2 → s.enabled pgSec = false → ends (s.complete id .internal)) ∧
      (s.plat.lifecycle = 2 → s.enabled pgSec = true →
        (x.state = .opened → ends (s.refuse id .invalid 0x81)) ∧
        (x.state = .closing ∨ x.state = .fining → ends (s.complete id .locked 1)) ∧
        (x.state = .closed → c.desc.optBit 8 = false → found = none → ends (s.refuse id .security 0x05)) ∧
        (x.state = .closed → c.desc.optBit 8 = true ∨ found.isSome = true → s.regBit .SEC0_ISLAND_RNG_OK = false →
          ends (s.refuse id .security 0x0B)) ∧
        (x.state = .closed → c.desc.optBit 8 = true → s.regBit .SEC0_ISLAND_RNG_OK = true →
          ∃ t, exec (.tenantOpen id) s = .next t ∧ others t ∧ t.cmd? id = none ∧ t.sec.staged = s.sec.staged ∧
            t.tenants.get? n = some { state := .opened, localOnly := true, keys := true, drawn := freeBytes s.free 192, ttks := [] }) ∧
        (∀ i k, x.state = .closed → c.desc.optBit 8 = false → found = some (i, k) → s.regBit .SEC0_ISLAND_RNG_OK = true →
          ∃ t, exec (.tenantOpen id) s = .next t ∧ others t ∧ t.cmd? id = none ∧ t.sec.staged.get? i = none ∧
            t.tenants.get? n
              = some { state := .opened, localOnly := false, keys := true, drawn := freeBytes s.free 192, ttks := [c.desc.specF 55 40], ttkKeys := [k.key] }))) ∧
    (∀ (r : Reg) (k : Nat), r ∈ Reg.all → k < 2 ^ 32 → tenantBank r.desc.bank n k = true →
      (s.clearTenant n).reg r k = r.resetOf k) ∧
    (s.readyPlain id 0x51 c →
      (x.state = .opened → ∃ t y, exec (.tenantClose id) s = .next t ∧ t.tenants.get? n = some y ∧ y.state = .closing ∧
        y.keys = x.keys ∧ y.ttks = x.ttks ∧ others t ∧ t.sec.prep.has n = true) ∧
      (x.state = .closed → exec (.tenantClose id) s = .next ((s.refuse id .invalid 0x82).settled s id c)) ∧
      (x.state = .closing ∨ x.state = .fining →
        exec (.tenantClose id) s = .next ((s.complete id .locked 1).settled s id c)))

/-- The fining pass (R459 to R466): while a closing tenant is not prepared, another pass runs, a woken domain is not ON, or a
note is out for less than 10 ms, its preparation only goes on; then the pass starts and the tenant is FINING; 2 ms later its
keys are destroyed; every unit visit counts; outside a step the SRAM regions are zeroed once; and 1,602 ms after its start the
pass ends, the tenant is CLOSED, its registers are at their reset values, and TENANT_CLOSE completes. Before its time, none of
this happens. -/
def Obligations.FiningPass : Prop :=
  ∀ s : State,
    (∀ n q, s.sec.prep.get? n = some q →
      let u := s.prepStep n
      (u.prepared n = false ∨ u.sec.pass.isSome = true → exec (.finingPrepDone n) s = .next u) ∧
      (∀ p t0, u.prepared n = true → u.sec.pass = none → u.sec.prep.get? n = some p → p.noted = some t0 →
        (p.woken.any (fun d => !u.domOn d) = true ∨ u.notesOut = true ∧ u.tick < t0 + 10000000 →
          exec (.finingPrepDone n) s = .next u) ∧
        (p.woken.any (fun d => !u.domOn d) = false → u.notesOut = false ∨ t0 + 10000000 ≤ u.tick →
          ∃ t x f, exec (.finingPrepDone n) s = .next t ∧ t = u.startPass n p ∧ t.tenants.get? n = some x ∧ x.state = .fining ∧
            x.keys = (u.tenant n).keys ∧ t.sec.pass = some f ∧ f.tenant = n ∧ f.start = u.tick ∧ f.destroyed = false ∧
            f.closed = p.closed))) ∧
    (s.sec.pass = none → exec .quietWindowClose s = .next s ∧ exec .scrubUnitVisit s = .next s ∧
      exec .finingSramZero s = .next s ∧ exec .finingPassEnd s = .next s) ∧
    (∀ p, s.sec.pass = some p →
      (p.destroyed = false → p.start + 2000000 ≤ s.tick →
        ∃ t x f, exec .quietWindowClose s = .next t ∧ t.tenants.get? p.tenant = some x ∧ x.keys = false ∧ x.ttks = [] ∧ x.ttkKeys = [] ∧
          t.sec.pass = some f ∧ f.destroyed = true ∧ f.tenant = p.tenant ∧ f.windowShut = !p.quiet ∧
          ∀ k, k ≠ p.tenant → t.tenants.get? k = s.tenants.get? k) ∧
      (s.tick < p.start + 2000000 → exec .quietWindowClose s = .next s) ∧
      (s.tick < p.start + 1602000000 → exec .finingPassEnd s = .next s) ∧
      (p.destroyed = true → p.visited < stackUnits → p.start + 2000000 + p.visited * visitTicks ≤ s.tick →
        ∃ t f, exec .scrubUnitVisit s = .next t ∧ t.sec.pass = some f ∧ f.visited = p.visited + 1 ∧ f.tenant = p.tenant ∧
          t.tenants = s.tenants) ∧
      (s.tick < p.start + 2000000 + p.visited * visitTicks → exec .scrubUnitVisit s = .next s) ∧
      (p.destroyed = true → p.zeroed = false → s.gaf.running = none →
        ∃ t f, exec .finingSramZero s = .next t ∧ t.sec.pass = some f ∧ f.zeroed = true ∧ t.tenants = s.tenants ∧
          (∀ k x, t.cores.get? k = some x → x.out = [])) ∧
      (s.gaf.running ≠ none → exec .finingSramZero s = .next s) ∧
      (p.destroyed = true → p.start + 1602000000 ≤ s.tick →
        ∃ t, exec .finingPassEnd s = .next t ∧ t.tenants.get? p.tenant = none ∧
          (∀ k, k ≠ p.tenant → t.tenants.get? k = s.tenants.get? k) ∧ t.sec.pass = none ∧ t.cmd? p.cmd = none)) ∧
    (∀ (n k : Nat) (r : Reg), r ∈ Reg.all → k < 2 ^ 32 → tenantBank r.desc.bank n k = true →
      (s.clearTenant n).reg r k = r.resetOf k)

/-- Power domains (R475 to R477): a write to PWR_DOM_REQ for the security island or the always-on domain records 0x0012;
during a fining pass it is held (R463), and behind a transition of the domain too; what the domain must refuse records 0x0011;
for the state the domain has it ends at once; else its transition starts, and ends after its time with the domain in that
state, when a held request follows. An automatic domain wakes for work, and returns to RETENTION once it has been idle.
Without work the always-on clock is gated (R481); a deferred calibration is counted (R501). Clocks and the governor (R473,
R474, R479, R482, R501, R502, R505, R535): a selected core that is ON and runs no tile changes its clock at once, one that
runs a tile at the tile's end; an unlocked PLL takes none. A lost REFCLK unlocks the PLL, takes the cores off it and the ports
DOWN; a qualified one locks it again and trains the ports. Above a limit the governor lowers the PLL by 25 MHz, to 600 MHz,
and there gates the matrix issue; below 97 % of them it lifts the gate and raises the PLL; held intervals are counted. A
faulted tab or stage halves the power limit and records 0x0002; a voltage warning is recorded. -/
def Obligations.PowerAndClocks : Prop :=
  (∀ s : State,
    (∀ v : BitVec 2,
      let d := s.reg .PWR_DOM_SEL_DOMAIN
      let target := if v.toNat = 3 then 0 else v.toNat
      let r := s.ungate.setReg .PWR_DOM_REQ_STATE target d
      (s.live = false → exec (.domReq v) s = .next s) ∧
      (s.live = true → d = 166 ∨ d = 167 → exec (.domReq v) s = .next (s.ungate.recErr pgPwr 0x0012)) ∧
      (s.live = true → 167 < d → exec (.domReq v) s = .next s.ungate) ∧
      (∀ p, s.live = true → d < 166 → s.sec.pass = some p → ∃ t, exec (.domReq v) s = .next t ∧ t.plat = s.ungate.plat ∧
        t.reg .PWR_DOM_REQ_STATE d = target ∧ t.domState d = s.domState d ∧
        t.sec.pass = some { p with requests := p.requests ++ [(d, target)] }) ∧
      (s.live = true → d < 166 → s.sec.pass = none →
        (s.plat.moving.has d = true → ∃ t, exec (.domReq v) s = .next t ∧ t.plat.moving = s.plat.moving ∧
          t.plat.held.get? d = some target ∧ t.regs = r.regs) ∧
        (s.plat.moving.has d = false → r.domRefused d target = true →
          exec (.domReq v) s = .next (r.recErr pgPwr 0x0011)) ∧
        (s.plat.moving.has d = false → r.domRefused d target = false → s.domState d = target →
          exec (.domReq v) s = .next ((r.setReg .PWR_DOM_STAT_AUTO 0 d).setIntBit pgPwr 12)) ∧
        (s.plat.moving.has d = false → r.domRefused d target = false → s.domState d ≠ target →
          ∃ t, exec (.domReq v) s = .next t ∧ t.domState d = s.domState d ∧ t.regBit .PWR_DOM_STAT_MOVING d = true ∧
            t.reg .PWR_DOM_REQ_STATE d = target ∧ t.plat.moving.get? d
              = some (target, if target = 0 then s.tick + wakeTicks d (s.domState d) else s.tick)))) ∧
    (∀ d target : Nat,
      (d < 128 ∨ (148 ≤ d ∧ d < 164) → s.domRefused d target = false) ∧
      (128 ≤ d → d < 136 →
        (s.domRefused d 1 = true ↔ ∃ n, n ∈ clusterCores (d - 128) ∧ s.domState n = 0) ∧
        (s.domRefused d 2 = true ↔ ∃ n, n ∈ clusterCores (d - 128) ∧ s.domState n ≠ 2)) ∧
      (128 ≤ d → s.domRefused d 0 = false) ∧ (136 ≤ d → s.domRefused d 1 = false)) ∧
    (∀ d : Nat,
      (s.plat.moving.get? d = none → exec (.domainTransitionDone d) s = .next s) ∧
      (∀ target due, s.plat.moving.get? d = some (target, due) →
        (s.mayEnd d target due = false → exec (.domainTransitionDone d) s = .next (s.wakeCluster d target)) ∧
        (s.tick < due → s.mayEnd d target due = false) ∧
        (s.mayEnd d target due = true → d < 167 → s.plat.held.get? d = none → target < 3 →
          ∃ t, exec (.domainTransitionDone d) s = .next t ∧ t.domState d = target ∧ t.plat.moving.has d = false ∧
            t.regBit .PWR_DOM_STAT_MOVING d = false) ∧
        (∀ next, s.mayEnd d target due = true → s.plat.held.get? d = some next →
          ∃ u : State, exec (.domainTransitionDone d) s = .next (u.applyRequest d next) ∧ u.plat.held.get? d = none ∧
            u.plat.moving.has d = false ∧ (d < 167 → target < 3 → u.domState d = target)))) ∧
    (∀ d : Nat, wakesAlone d (s.domState d) = true → s.plat.moving.has d = false → s.domWork d = true →
      ∃ t, exec (.autoWake d) s = .next t ∧
        t.plat.moving.get? d = some (0, s.tick + wakeTicks d (s.domState d)) ∧ t.regBit .PWR_DOM_STAT_AUTO d = true) ∧
    (∀ d : Nat, wakesAlone d (s.domState d) = false ∨ s.plat.moving.has d = true ∨ s.domWork d = false →
      exec (.autoWake d) s = .next s) ∧
    (∀ d : Nat, s.regBit .PWR_DOM_STAT_AUTO d = true → s.domOn d = true → s.reg .PWR_DOM_REQ_STATE d = 1 →
      (s.domWork d = false → (s.plat.wokenAt.get? d).getD 0 + s.reg .PWR_AUTO_IDLE_US * 1000 ≤ s.tick →
        ∃ t, exec (.autoIdleReturn d) s = .next t ∧ t.domState d = 1 ∧ t.plat.wokenAt.get? d = none) ∧
      (s.domWork d = true ∨ s.tick < (s.plat.wokenAt.get? d).getD 0 + s.reg .PWR_AUTO_IDLE_US * 1000 →
        exec (.autoIdleReturn d) s = .next s)) ∧
    (s.plat.phase = .on → s.noWork = true →
      exec .aonClockGate s = .next { s with plat := { s.plat with aonGated := true } }) ∧
    (s.noWork = false → exec .aonClockGate s = .next s) ∧
    (s.pageState pgGlb = 1 → s.noWork = false → exec .calibrationDue s = .next (s.bump .PWR_CAL_DEFERS_COUNT)) ∧
    (s.noWork = true → exec .calibrationDue s = .next s)) ∧
  (∀ s : State,
    let chosen (n : Nat) : Prop := n < 128 ∧ s.domOn n = true ∧
      (s.regBit .CLK_CORE_SEL_ALL = true ∨ n = s.reg .CLK_CORE_SEL_CORE)
    let switched (t : State) (b : Bool) : Prop := ∀ n,
      (chosen n → (s.core n).tileKind = 0 → (t.core n).onPll = b) ∧
      (chosen n → (s.core n).tileKind ≠ 0 → (t.core n).onPll = (s.core n).onPll ∧ (t.core n).swTo = some b) ∧
      (¬ chosen n → t.core n = s.core n)
    (s.live = true →
      (s.pllLocked = true → ∃ t, exec .coreSwToPll s = .next t ∧ switched t true) ∧
      (s.pllLocked = false → exec .coreSwToPll s = .next s.ungate) ∧
      ∃ t, exec .coreSwToStart s = .next t ∧ switched t false) ∧
    (s.live = false → exec .coreSwToPll s = .next s ∧ exec .coreSwToStart s = .next s) ∧
    (s.plat.phase = .on →
      (s.regBit .CLK_STATUS_REF_REF_OK = true →
        (∃ t, exec .refclkLost s = .next t ∧ t.regBit .CLK_STATUS_REF_REF_OK = false ∧ t.pllLocked = false ∧
          t.regBit .CLK_STATUS_REF_REF_LOST = true ∧ t.tick = s.tick ∧
          (∀ n, n < 128 → s.domOn n = true → (s.core n).tileKind = 0 → (t.core n).onPll = false) ∧
          (∀ n, n < 8 → s.pageState (fabPage n) = 2 ∨ s.pageState (fabPage n) = 3 ∨ s.pageState (fabPage n) = 4 →
            t.pageState (fabPage n) = 5)) ∧
        (∃ t, exec .pllLockFail s = .next t ∧ t.pllLocked = false ∧ (t.common pgClk).err = true ∧
          (∀ n, n < 128 → s.domOn n = true → (s.core n).tileKind = 0 → (t.core n).onPll = false)) ∧
        (s.pllLocked = true →
          exec .pllUnlock s = .next ((s.setReg .CLK_PLL_EFF_LOCKED 0).setIntBit pgClk 10)) ∧
        (∀ khz, exec (.refclkQualified khz) s = .next s)) ∧
      (s.regBit .CLK_STATUS_REF_REF_OK = false →
        (∀ khz : Nat, 99200 ≤ khz → khz ≤ 100200 →
          ∃ t, exec (.refclkQualified khz) s = .next t ∧ t.regBit .CLK_STATUS_REF_REF_OK = true ∧
            t.reg .CLK_STATUS_REF_REF_KHZ = khz ∧ (s.pageState pgGlb = 1 → t.pllLocked = true ∧
              ∀ n, n < 8 → s.pageState (fabPage n) = 5 → (t.port n).training = true ∧ (t.port n).since = s.tick)) ∧
        (∀ khz : Nat, khz < 99200 ∨ 100200 < khz → exec (.refclkQualified khz) s = .next s) ∧
        exec .refclkLost s = .next s ∧ exec .pllLockFail s = .next s ∧ exec .pllUnlock s = .next s) ∧
      (∀ ma w c : Nat,
        (s.currentLimit < ma ∨ s.powerLimit < w ∨ s.throttleC ≤ c →
          ∃ t, exec (.governorStepDown ma w c) s = .next t ∧ t.reg .PWR_IIN_MA = min ma 65535 ∧
            t.reg .PWR_PIN_W = min w 4095 ∧ t.reg .PWR_TEMP_MAX_C = min c 255 ∧
            (600 < s.pllMhz → t.pllMhz = max 600 (s.pllMhz - 25) % 4096 ∧ t.plat.issueGated = s.plat.issueGated) ∧
            (s.pllMhz ≤ 600 → t.pllMhz = s.pllMhz ∧ t.plat.issueGated = true) ∧
            t.reg .PWR_LIMITED_10US_COUNT = (s.bump .PWR_LIMITED_10US_COUNT 0 s.limitedNow).reg .PWR_LIMITED_10US_COUNT) ∧
        (ma ≤ s.currentLimit → w ≤ s.powerLimit → c < s.throttleC → exec (.governorStepDown ma w c) s = .next s) ∧
        (ma * 100 < 97 * s.currentLimit → w * 100 < 97 * s.powerLimit → c < s.throttleC →
          ∃ t, exec (.governorStepUp ma w c) s = .next t ∧ t.plat.issueGated = false ∧
            (s.pllMhz < s.pllNominal → t.pllMhz = min s.pllNominal (s.pllMhz + 25)) ∧
            (s.pllNominal ≤ s.pllMhz → t.pllMhz = s.pllMhz) ∧
            t.reg .PWR_LIMITED_10US_COUNT = (s.bump .PWR_LIMITED_10US_COUNT 0 s.limitedNow).reg .PWR_LIMITED_10US_COUNT) ∧
        (97 * s.currentLimit ≤ ma * 100 ∨ 97 * s.powerLimit ≤ w * 100 ∨ s.throttleC ≤ c →
          exec (.governorStepUp ma w c) s = .next s)) ∧
      (exec .tabFault s = .next { s.recErr pgPwr 0x0002 with plat := { s.plat with halfLimit := true } }) ∧
      (exec .powerStageFault s = .next { s.recErr pgPwr 0x0002 with plat := { s.plat with halfLimit := true } }) ∧
      (∀ mv : Nat,
        let low := min 80000 (max 55000 (s.reg .PWR_UV_WARN_MV))
        let high := min 85000 (max 60000 (s.reg .PWR_OV_WARN_MV))
        (mv < low → exec (.vinUvWarn mv) s = .next ((s.setReg .PWR_VIN_MV mv).setIntBit pgPwr 8)) ∧
        (low ≤ mv → exec (.vinUvWarn mv) s = .next s) ∧
        (high < mv → exec (.vinOvWarn mv) s = .next ((s.setReg .PWR_VIN_MV mv).setIntBit pgPwr 9)) ∧
        (mv ≤ high → exec (.vinOvWarn mv) s = .next s))))

/-- Power and resets (R472, R485, R486): 58.0 V on a device that is off or over voltage powers it on at tick 0; below 55.0 V,
above 85.0 V or at 125 °C every volatile store is lost; a cold reset by RESET_N, by the watchdog, by RST_DEVICE with its key,
or by JTAG keeps the tick and says its cause, and no reset touches host memory, the fabric memory, the fuses or the result
store. RST_DEVICE with a wrong key records 0x0010. FLR of a function masks its vectors and halts the rings behind it. An event
that its threshold or the device's state excludes has no effect. -/
def Obligations.PowerAndResets : Prop :=
  ∀ s : State,
    let lost (t : State) : Prop := t.sdir = {} ∧ t.tenants = ⟨[]⟩ ∧ t.sec = {} ∧ t.models = ⟨[]⟩ ∧ t.rings = ⟨[]⟩ ∧
      t.cmds = ⟨[]⟩ ∧ t.window = ⟨[]⟩ ∧ t.hbm = ⟨[]⟩ ∧ t.host = s.host ∧ t.fabric = s.fabric ∧
      t.ckp.store = s.ckp.store ∧ t.plat.lifecycle = s.plat.lifecycle ∧ t.plat.bankA = s.plat.bankA ∧
      t.plat.bankB = s.plat.bankB
    let cold (t : State) (r : Reg) : Prop := lost t ∧ t.tick = s.tick ∧ t.bootEpoch = s.bootEpoch ∧
      t.cane.sealedCount = s.cane.sealedCount ∧ (∀ q, q ∈ causeRegs → t.regBit q = (q == r)) ∧ t.pageState pgGlb = 0
    (∀ mv : Nat,
      (58000 ≤ mv → s.plat.phase = .off ∨ s.plat.phase = .overVolt →
        ∃ t, exec (.vinRise mv) s = .next t ∧ lost t ∧ t.tick = 0 ∧ t.plat.phase = .on ∧
          t.regBit .RST_CAUSE_POWER_ON = true) ∧
      (mv < 58000 ∨ (s.plat.phase ≠ .off ∧ s.plat.phase ≠ .overVolt) → exec (.vinRise mv) s = .next s) ∧
      (mv < 55000 → ∃ t, exec (.vinUvFault mv) s = .next t ∧ lost t ∧ t.plat.phase = .off) ∧
      (55000 ≤ mv → exec (.vinUvFault mv) s = .next s) ∧
      (85000 < mv → s.plat.phase = .on → ∃ t, exec (.vinOvFault mv) s = .next t ∧ lost t ∧ t.plat.phase = .overVolt) ∧
      (mv ≤ 85000 ∨ s.plat.phase ≠ .on → exec (.vinOvFault mv) s = .next s) ∧
      (58000 ≤ mv → mv ≤ 80000 → s.plat.phase = .overVolt →
        ∃ t, exec (.vinOvRecovery mv) s = .next t ∧ lost t ∧ t.plat.phase = .on ∧ t.tick = 0) ∧
      (mv < 58000 ∨ 80000 < mv ∨ s.plat.phase ≠ .overVolt → exec (.vinOvRecovery mv) s = .next s)) ∧
    (∀ c : Nat,
      (125 ≤ c → s.plat.phase = .on →
        ∃ t, exec (.thermalTrip c) s = .next t ∧ lost t ∧ t.plat.phase = .tripped ∧ t.plat.thermtrip = true) ∧
      (c < 125 → exec (.thermalTrip c) s = .next s)) ∧
    (s.plat.phase = .on → s.plat.resetLow = false →
      ∃ t, exec .resetNAssert s = .next t ∧ cold t .RST_CAUSE_RESET_N ∧ t.plat.resetLow = true) ∧
    (s.plat.phase ≠ .on ∨ s.plat.resetLow = true → exec .resetNAssert s = .next s) ∧
    (s.islandUp = true → ∃ t, exec .benchWatchdog s = .next t ∧ cold t .RST_CAUSE_WATCHDOG) ∧
    (s.islandUp = false → exec .benchWatchdog s = .next s) ∧
    (∀ v : Word, s.live = true →
      (bitsOf v.toNat 16 16 = 0xC0DE → bitAt v.toNat 0 = true →
        ∃ t, exec (.rstDeviceCold v) s = .next t ∧ cold t .RST_CAUSE_SOFTWARE) ∧
      (bitsOf v.toNat 16 16 = 0xC0DE → bitAt v.toNat 0 = false → exec (.rstDeviceCold v) s = .next s.ungate) ∧
      (bitsOf v.toNat 16 16 ≠ 0xC0DE → exec (.rstDeviceCold v) s = .next (s.ungate.recErr pgRst 0x0010))) ∧
    (s.plat.phase = .on →
      (s.debugOpen = true →
        ∃ t, exec (.jtagInstruction .other) s = .next t ∧ cold t .RST_CAUSE_JTAG ∧ t.plat.tap = .other) ∧
      (s.debugOpen = false → exec (.jtagInstruction .other) s = .next s) ∧
      (∀ i, i ≠ .other → exec (.jtagInstruction i) s = .next { s with plat := { s.plat with tap := i } })) ∧
    (∀ f : BitVec 4, s.live = true →
      ∃ t, exec (.flr f) s = .next t ∧ (∀ v, v ∈ t.unmasked ↔ v ∈ s.unmasked ∧ v / 2048 ≠ f.toNat) ∧
        (∀ n r, s.rings.get? n = some r → r.function = f.toNat → r.state = .enabled → (t.ring n).state = .halted) ∧
        ((∀ e ∈ s.rings.entries, e.2.function ≠ f.toNat) → t.rings = s.rings) ∧
        t.host = s.host ∧ t.cmds = s.cmds)

/-- BOOT of a powered device in reset (R434, R486, R497, R498, R503) derives the keys and the identity of the boot, counts a
power-on, takes the time of its phases, and unless the store fails writes the bank that is not current, consumed; with no
failed unit GLB is ENABLED and the fabric ports train. SHUTDOWN waits for a checkpoint, a restore or a pass; with a tenant
that is not CLOSED it completes with LOCKED and DETAIL 2; else it takes the device to SHUT (R493 to R495). What the always-on
domain answers on the sideband and to a configuration request (R487). -/
def Obligations.BootAndShutdown : Prop :=
  ∀ s : State,
    (∀ b : BootInput,
      let cur := s.plat.current
      let old := (cur.map (·.2)).getD {}
      let short := shortRuns cur (sha384 b.config)
      let epoch := old.bootCount + if s.regBit .RST_CAUSE_POWER_ON then 1 else 0
      let written (x : StoreBank) : Prop := x.valid = true ∧ x.seq = old.seq + 1 ∧ x.consumed = true ∧ x.bootCount = epoch ∧
        x.configId = sha384 b.config ∧ x.lifecycle = s.plat.lifecycle
      (s.plat.phase = .on → s.plat.pgood = true → s.pageState pgGlb = 0 →
        ∃ t, exec (.boot b) s = .next t ∧ t.sec.memKey = true ∧
          t.sec.identity = some (deriveIdentity s.plat.fuseSeed b.firmware) ∧ t.bootEpoch = epoch % 2 ^ 32 ∧
          t.tick = (s.tick + bootTicks short) % 2 ^ 64 ∧ t.regBit .BIST_BOOT_RAN = short ∧
          (b.bist.failed = [] → (cur = none ∨ old.failMap = 0) → t.pageState pgGlb = 1 ∧ t.live = true ∧
            ∀ n : BitVec 3, (t.port n.toNat).training = true ∧ t.pageState (fabPage n.toNat) = 2) ∧
          (b.writeFails = false → cur.map (·.1) ≠ some 0 → written t.plat.bankA ∧ t.plat.bankB = s.plat.bankB) ∧
          (b.writeFails = false → cur.map (·.1) = some 0 → written t.plat.bankB ∧ t.plat.bankA = s.plat.bankA) ∧
          (b.writeFails = true → t.plat.bankA = s.plat.bankA ∧ t.plat.bankB = s.plat.bankB ∧ (t.common pgBist).err = true)) ∧
      (s.plat.phase ≠ .on ∨ s.plat.pgood = false ∨ s.pageState pgGlb ≠ 0 → exec (.boot b) s = .next s)) ∧
    (∀ (id : Nat) (c : Cmd) (r : BistRun) (f : Bool), s.readyPlain id 0x58 c →
      (s.ckp.run.isSome = true ∨ s.ckp.restore.isSome = true ∨ s.sec.pass.isSome = true →
        exec (.shutdown id r f) s = .next (s.waitCmd id)) ∧
      (s.ckp.run = none → s.ckp.restore = none → s.sec.pass = none →
        (s.tenants.values.any (fun t => t.state != .closed) = false →
          ∃ t, exec (.shutdown id r f) s = .next t ∧ t.pageState pgGlb = 3 ∧ t.live = false ∧ t.plat.islandOff = true ∧
            t.cmds = ⟨[]⟩ ∧ t.sdir = {} ∧ t.hbm = ⟨[]⟩ ∧ t.sec.staged = ⟨[]⟩ ∧ t.sec.memKey = false ∧
            t.sec.identity = none ∧ t.fabric = s.fabric ∧
            (c.desc.opt 8 2 = 1 → t.tick = (s.tick + shutTicks true) % 2 ^ 64)) ∧
        (s.tenants.values.any (fun t => t.state != .closed) = true →
          exec (.shutdown id r f) s = .next (s.complete id .locked 2)))) ∧
    (∀ a : BitVec 7, s.plat.phase = .on → ∃ t, exec (.entdaa a) s = .next t ∧ t.plat.i3c = some a.toNat ∧
      t.out = OutMsg.provisionalId (s.reg .RST_SLOT_SLOT_ID) :: s.out) ∧
    (s.plat.phase = .on → exec .mctpControlMessage s = .next { s with out := OutMsg.mctpControl :: s.out }) ∧
    (∀ f : BitVec 4, s.plat.phase = .on →
      (s.pageState pgGlb = 0 →
        exec (.configRequest f) s = .next { s with out := OutMsg.configRetry f.toNat :: s.out }) ∧
      (s.pageState pgGlb ≠ 0 → s.pageState pgGlb ≠ 3 →
        exec (.configRequest f) s = .next { s with out := OutMsg.configDone f.toNat :: s.out }) ∧
      (s.pageState pgGlb = 3 → exec (.configRequest f) s = .next s))

/-! ## The whole machine -/

/-- Reset (R7, R28, R29, R40, R43, R455): the tick is 0; every field reads its reset value, and every common register of every
page 0; every ring is DISABLED and unbound; every MSI-X vector is masked and nothing has been sent; no command, session, page
record, model, vocabulary, constraint object or key exists; every tenant is CLOSED; and the model's invariants hold (the queue
is the model's own, and empty; what the spec gives no reset value for reads 0, the model's choice of log entry 3). -/
def Obligations.ResetValues : Prop :=
  State.reset.tick = 0 ∧ State.reset.pending = [] ∧
  (∀ (r : Reg) (i : Nat), State.reset.reg r i = r.resetOf i) ∧
  State.reset.reg .CLK_PLL_MHZ = 1800 ∧ State.reset.regBit .RST_CAUSE_POWER_ON = true ∧
  (∀ p : Nat, State.reset.common p = {} ∧ State.reset.pageState p = 0) ∧
  (∀ n : Nat, (State.reset.ring n).state = .disabled ∧ (State.reset.ring n).bound = false) ∧
  State.reset.unmasked = [] ∧ State.reset.sent = [] ∧
  (∀ k : Nat, State.reset.cmd? k = none ∧ State.reset.session? k = none ∧ State.reset.page? k = none ∧
    (State.reset.model k).loaded = false ∧ State.reset.vocab? k = none ∧ (State.reset.tenant k).state = .closed ∧
    (State.reset.core k).tileKind = 0 ∧ (State.reset.stream k).active = false ∧ State.reset.sec.staged.get? k = none) ∧
  State.reset.inv ∧ State.reset.canonical

/-- A step takes the command at the front of the queue and runs it, once, with the queue's rest; on an empty queue one tick
passes (log entry 6: the model's choice); and no step stops: every state has a next one. -/
def Obligations.StepRunsFront : Prop :=
  (∀ (c : Instr) (rest : List Instr) (s : State), step { s with pending := c :: rest } = exec c { s with pending := rest }) ∧
  (∀ s : State, step { s with pending := [] } = .next (idleTick { s with pending := [] })) ∧
  (∀ s : State, Safe s)

/-- No command touches the queue: whatever a step runs, what waits after it is what waited behind its command. -/
def Obligations.QueueOnlyConsumed : Prop :=
  ∀ s t : State, step s = .next t → t.pending = s.pending.tail

/-- A CLOSED tenant holds no key, and the life-cycle state is one of R490's, in every state that a step can lead to from one
where this holds (R443, R464, R491). -/
def Obligations.KeysInvariantKept : Prop :=
  ∀ s t : State, s.inv → step s = .next t → t.inv

/-- Every memory of the state keeps its canonical form through every step, so that equal memories are equal data: the window,
host memory, fabric memory, the HBM of embedding tables, and the HBM in the snapshots of checkpoints (log entry 2). -/
def Obligations.MemoryFormKept : Prop :=
  ∀ s t : State, s.canonical → step s = .next t → t.canonical

/-- What few commands may change, no other command changes: the tick and the count of boots; the masks of BAR 4; the numbers
of accepted commands; the quiescing of a checkpoint; the tenants with their keys; models, vocabularies and constraint objects;
the migrations; and the bytes of fabric memory and of HBM. Power, resets and SHUTDOWN aside, the commands that may are those
that the rules name. -/
def Obligations.RareStateKept : Prop :=
  ∀ (i : Instr) (s t : State), exec i s = .next t → i.resets = false →
    (i.boots = false → t.bootEpoch = s.bootEpoch ∧ t.tick = s.tick) ∧
    (i.masks = false → t.unmasked = s.unmasked) ∧
    (i.accepts = false → t.nextCmd = s.nextCmd) ∧
    (i.freezes = false → t.freeze = s.freeze) ∧
    (i.changesTenants = false → t.tenants = s.tenants) ∧
    (i.changesModels = false → t.models = s.models) ∧
    (i.changesVocabs = false → t.vocabs = s.vocabs) ∧
    (i.changesObjects = false → t.objects = s.objects) ∧
    (i.migrates = false → t.migrations = s.migrations) ∧
    (i.storesFabric = false → ∀ a, t.fabric.read a = s.fabric.read a) ∧
    (i.storesHbm = false → ∀ a, t.hbm.read a = s.hbm.read a)
end

