-- ==== Sys2Proof/Laws/Commands.lean ====
section
/-!
SUPPORT. What a command row does when nothing holds its command back: it runs its effect, once.
-/
namespace Sys2Proof.Machine

theorem State.attemptPlain_served (s : State) (id : Nat) (c : Cmd) (leased : Bool) (slot : Nat) (eff : Effect)
    (h : s.served c leased) : s.attemptPlain id c leased slot eff = eff s id c slot := by
  obtain ⟨hk, hl, ht, hf, hd⟩ := h
  unfold State.attemptPlain
  simp only [hk, hl, ht, hd, Bool.false_eq_true, if_false]
  rcases hf with hf | ⟨hf, hm⟩
  · simp [hf]
  · simp [hf, hm]

theorem State.commandRow_readyPlain (s : State) (id op : Nat) (c : Cmd) (eff : Effect) (h : s.readyPlain id op c) :
    s.commandRow id op eff = (eff s id c 0).settled s id c := by
  obtain ⟨⟨h1, h2, h3, h4, h5⟩, h6, h7⟩ := h
  unfold State.commandRow
  simp only [h1, h2, h3, h4, and_self, if_true, State.attempt, h5, Bool.false_eq_true, if_false, h6,
    State.attemptPlain_served s id c false 0 eff h7]

theorem State.attempt_names (s : State) (id : Nat) (c : Cmd) (x : Session) (eff : Effect) (h5 : s.failed pgGlb = false)
    (hn : s.names c x) : s.attempt id c eff =
      if c.desc.opcode = 0x13 then eff (s.reaches id c) id c.resolved (handleSlot c.desc.handle)
      else if (s.reaches id c).heldByEarlier id c.desc then (s.reaches id c).waitFor id c.aux
      else if 0x30 ≤ c.desc.opcode then
        if x.compact.isSome = true ∨ (x.residency = .moving ∧ c.desc.opcode = 0x30 ∧ c.desc.opt 8 2 = 1) then
          (s.reaches id c).waitFor id c.aux
        else (s.reaches id c).attemptPlain id c.resolved x.leased (handleSlot c.desc.handle) eff
      else match turnOf x c.desc with
        | .refused => (s.reaches id c).refuse id .invalid 0x0C
        | .waits => (s.reaches id c).waitFor id c.aux
        | .held => ((s.reaches id c).setSession (handleSlot c.desc.handle) { x with waitHeld := true }).waitFor id c.aux
        | .atStepEnd =>
          ((s.reaches id c).setSession (handleSlot c.desc.handle) { x with closing := some id }).waitFor id c.aux
        | .now => (s.reaches id c).attemptState id c.resolved (handleSlot c.desc.handle) x eff := by
  obtain ⟨h6, h7, h8, h9, h10, h11⟩ := hn
  unfold State.attempt
  rw [if_neg (by simp [h5]), if_neg h6]
  unfold State.attemptSession
  simp only [h7, Bool.not_true, Bool.false_eq_true, if_false, h8, h9, h10]
  rw [if_neg (by rw [show (s.onCmd id _).holdsBad x = s.holdsBad x from rfl, h11]; simp)]
  rfl

/-- A command of a session that nothing holds back takes effect at once. -/
theorem State.attempt_clear (s : State) (id op : Nat) (c : Cmd) (x : Session) (eff : Effect) (h3 : c.desc.opcode = op)
    (hf : s.failed pgGlb = false) (h : s.clear id op c x) :
    s.attempt id c eff = eff (s.atEffect id c x) id c.resolved (handleSlot c.desc.handle) := by
  obtain ⟨hn, ho, hlt, hheld, ht, hm, hc, he, hb, hsc, hnm, haw, hp, hl, hv⟩ := h
  rw [State.attempt_names s id c x eff hf hn, if_neg (by rw [h3]; exact ho), hheld, if_neg (by simp),
    if_neg (by rw [h3]; omega), ht]
  simp only
  unfold State.attemptState
  simp only
  rw [if_neg (by rintro ⟨a, b⟩; exact b (by rw [show c.resolved.desc = c.desc from rfl, h3]; exact hm a))]
  have he' : (if promotes c.resolved.desc.opcode = true then (s.reaches id c).cancelDown (handleSlot c.desc.handle)
      else s.reaches id c) = s.turns id c := rfl
  rw [he']
  rw [if_neg (by rw [show c.resolved.desc = c.desc from rfl]; simp [hc, he])]
  rw [if_neg (by
    rintro ⟨a, b, d⟩
    rcases hb a with e | e
    · exact b (by rw [show c.resolved.desc = c.desc from rfl, h3]; exact e)
    · exact d e)]
  rw [if_neg (by
    rintro ⟨a, b, d⟩
    rcases hsc a with e | e
    · exact b (by rw [show c.resolved.desc = c.desc from rfl, h3]; exact e)
    · exact d e)]
  rw [hnm, show c.resolved.desc = c.desc from rfl, hp]
  simp only [Bool.false_eq_true, if_false]
  rw [if_neg (by
    simp only [Bool.and_eq_true, Bool.not_eq_true']
    rintro ⟨a, b⟩
    rw [hl a] at b; exact absurd b (by simp)), haw]
  exact State.attemptPlain_served _ id c.resolved x.leased _ eff hv

theorem State.commandRow_readyOn (s : State) (id op : Nat) (c : Cmd) (x : Session) (eff : Effect)
    (h : s.readyOn id op c x) :
    s.commandRow id op eff
      = (eff (s.atEffect id c x) id c.resolved (handleSlot c.desc.handle)).settled s id c := by
  obtain ⟨⟨h1, h2, h3, h4, h5⟩, hc⟩ := h
  unfold State.commandRow
  simp only [h1, h2, h3, h4, and_self, if_true, State.attempt_clear s id op c x eff h3 h5 hc]

theorem State.commandRow_readyRows (s : State) (id op : Nat) (c : Cmd) (x : Session) (eff : Effect)
    (h : s.readyRows id op c x) :
    s.commandRow id op eff
      = (eff (s.reaches id c) id c.resolved (handleSlot c.desc.handle)).settled s id c := by
  obtain ⟨hs, hn, hge, hheld, hc, hm, hv⟩ := h
  have h1 := hs.1
  have h2 := hs.2.1
  have h3 := hs.2.2.1
  have h4 := hs.2.2.2.1
  unfold State.commandRow
  simp only [h1, h2, h3, h4, and_self, if_true]
  rw [State.attempt_names s id c x eff hs.2.2.2.2 hn, if_neg (by rw [h3]; omega), hheld, if_neg (by simp),
    if_pos (by rw [h3]; exact hge), if_neg (by rw [hc, h3]; simpa using hm),
    State.attemptPlain_served _ id c.resolved x.leased _ eff hv]

theorem State.commandRow_query (s : State) (id : Nat) (c : Cmd) (x : Session) (eff : Effect) (hs : s.started id 0x13 c)
    (hn : s.names c x) :
    s.commandRow id 0x13 eff = (eff (s.reaches id c) id c.resolved (handleSlot c.desc.handle)).settled s id c := by
  unfold State.commandRow
  simp only [hs.1, hs.2.1, hs.2.2.1, hs.2.2.2.1, and_self, if_true]
  rw [State.attempt_names s id c x eff hs.2.2.2.2 hn, if_pos hs.2.2.1]

end Sys2Proof.Machine
end

