-- ==== Sys2Proof/Laws/Map.lean ====
section
/-!
SUPPORT. Laws of the sparse tables and of the byte memories: reads after writes, and that every operation keeps the canonical
form.
-/
namespace Sys2Proof.Machine

/-! ## Reads after writes -/

theorem lookupIn_insertIn_self {α : Type} (k : Nat) (v : α) (l : List (Nat × α)) : lookupIn k (insertIn k v l) = some v := by
  induction l with
  | nil => simp [insertIn, lookupIn]
  | cons e l ih =>
    obtain ⟨a, x⟩ := e
    unfold insertIn
    split
    · next h => simp [lookupIn, Nat.ne_of_lt h, ih]
    · split <;> simp [lookupIn]

theorem lookupIn_insertIn_ne {α : Type} (k j : Nat) (v : α) (l : List (Nat × α)) (h : j ≠ k) :
    lookupIn j (insertIn k v l) = lookupIn j l := by
  induction l with
  | nil => simp [insertIn, lookupIn, Ne.symm h]
  | cons e l ih =>
    obtain ⟨a, x⟩ := e
    unfold insertIn
    split
    · simp [lookupIn, ih]
    · split
      · next h2 => simp [lookupIn, h2, Ne.symm h]
      · simp [lookupIn, Ne.symm h]

theorem lookupIn_eraseIn_self {α : Type} (k : Nat) (l : List (Nat × α)) : lookupIn k (eraseIn k l) = none := by
  induction l with
  | nil => rfl
  | cons e l ih =>
    obtain ⟨a, x⟩ := e
    unfold eraseIn
    split
    · exact ih
    · next h => simp [lookupIn, h, ih]

theorem lookupIn_eraseIn_ne {α : Type} (k j : Nat) (l : List (Nat × α)) (h : j ≠ k) :
    lookupIn j (eraseIn k l) = lookupIn j l := by
  induction l with
  | nil => rfl
  | cons e l ih =>
    obtain ⟨a, x⟩ := e
    unfold eraseIn
    split
    · next h2 => simp [lookupIn, h2, Ne.symm h, ih]
    · simp [lookupIn, ih]

@[simp] theorem Map.get?_empty {α : Type} (k : Nat) : (⟨[]⟩ : Map α).get? k = none := rfl
@[simp] theorem Map.get?_set_self {α : Type} (m : Map α) (k : Nat) (v : α) : (m.set k v).get? k = some v :=
  lookupIn_insertIn_self k v m.entries
theorem Map.get?_set_ne {α : Type} (m : Map α) (k j : Nat) (v : α) (h : j ≠ k) : (m.set k v).get? j = m.get? j :=
  lookupIn_insertIn_ne k j v m.entries h
@[simp] theorem Map.get?_erase_self {α : Type} (m : Map α) (k : Nat) : (m.erase k).get? k = none :=
  lookupIn_eraseIn_self k m.entries
theorem Map.get?_erase_ne {α : Type} (m : Map α) (k j : Nat) (h : j ≠ k) : (m.erase k).get? j = m.get? j :=
  lookupIn_eraseIn_ne k j m.entries h

theorem Map.get?_set {α : Type} (m : Map α) (k j : Nat) (v : α) : (m.set k v).get? j = if j = k then some v else m.get? j := by
  split
  · next h => subst h; simp
  · next h => exact Map.get?_set_ne m k j v h

theorem Map.get?_erase {α : Type} (m : Map α) (k j : Nat) : (m.erase k).get? j = if j = k then none else m.get? j := by
  split
  · next h => subst h; simp
  · next h => exact Map.get?_erase_ne m k j h

@[simp] theorem Map.get?_map {α : Type} (m : Map α) (f : Nat → α → α) (k : Nat) : (m.map f).get? k = (m.get? k).map (f k) := by
  unfold Map.map Map.get?
  simp only
  induction m.entries with
  | nil => rfl
  | cons e l ih =>
    obtain ⟨a, x⟩ := e
    simp only [List.map_cons, lookupIn]
    split
    · next h => subst h; rfl
    · exact ih

/-- A listed key stands among the entries. -/
theorem Map.mem_of_get? {α : Type} (m : Map α) (k : Nat) (v : α) (h : m.get? k = some v) : (k, v) ∈ m.entries := by
  unfold Map.get? at h
  revert h
  induction m.entries with
  | nil => simp [lookupIn]
  | cons e l ih =>
    obtain ⟨a, x⟩ := e
    simp only [lookupIn]
    split
    · next h => intro e; cases e; subst h; simp
    · intro e; exact List.mem_cons_of_mem _ (ih e)

theorem Map.get?_filter_none {α : Type} (m : Map α) (p : Nat → α → Bool) (k : Nat) (h : m.get? k = none) :
    (m.filter p).get? k = none := by
  unfold Map.get? Map.filter at *
  simp only at *
  revert h
  induction m.entries with
  | nil => simp
  | cons e l ih =>
    obtain ⟨a, x⟩ := e
    simp only [lookupIn, List.filter_cons]
    split
    · simp
    · next hne =>
      intro h
      split
      · simp [lookupIn, hne, ih h]
      · exact ih h

/-! ## The canonical form of a table -/

theorem rising_tail {α : Type} {e : Nat × α} {l : List (Nat × α)} (h : rising (e :: l) = true) : rising l = true := by
  cases l with
  | nil => rfl
  | cons f l =>
    obtain ⟨a, x⟩ := e
    obtain ⟨b, y⟩ := f
    simp [rising] at h
    exact h.2

theorem rising_cons {α : Type} (e : Nat × α) (l : List (Nat × α)) :
    rising (e :: l) = true ↔ (∀ f, l.head? = some f → e.1 < f.1) ∧ rising l = true := by
  cases l with
  | nil => simp [rising]
  | cons f l =>
    obtain ⟨a, x⟩ := e
    obtain ⟨b, y⟩ := f
    simp [rising]

theorem rising_insertIn {α : Type} (k : Nat) (v : α) (l : List (Nat × α)) (h : rising l = true) :
    rising (insertIn k v l) = true ∧ (∀ f, (insertIn k v l).head? = some f → f.1 = k ∨ ∃ g, l.head? = some g ∧ f.1 = g.1) := by
  induction l with
  | nil => simp [insertIn, rising]
  | cons e l ih =>
    obtain ⟨a, x⟩ := e
    have ht := rising_tail h
    rw [rising_cons] at h
    unfold insertIn
    split
    · next hlt =>
      refine ⟨?_, by simp⟩
      rw [rising_cons]
      refine ⟨?_, (ih ht).1⟩
      intro f hf
      rcases (ih ht).2 f hf with e1 | ⟨g, hg, e1⟩
      · simp only; omega
      · rw [e1]; exact h.1 g hg
    · split
      · next hlt heq =>
        refine ⟨?_, by simp⟩
        rw [rising_cons]
        exact ⟨fun f hf => by have := h.1 f hf; simp only at *; omega, ht⟩
      · next hlt hne =>
        refine ⟨?_, by simp⟩
        rw [rising_cons]
        refine ⟨fun f hf => ?_, (rising_cons _ _).2 h⟩
        simp only [List.head?_cons, Option.some.injEq] at hf
        subst hf
        simp only
        omega

theorem rising_lt {α : Type} {e : Nat × α} {l : List (Nat × α)} (h : rising (e :: l) = true) : ∀ f, f ∈ l → e.1 < f.1 := by
  induction l generalizing e with
  | nil => simp
  | cons g l ih =>
    intro f hf
    have h2 := (rising_cons _ _).1 h
    have hg := h2.1 g rfl
    rcases List.mem_cons.1 hf with rfl | hm
    · exact hg
    · exact Nat.lt_trans hg (ih h2.2 f hm)

theorem rising_of_lt {α : Type} (e : Nat × α) (l : List (Nat × α)) (h : rising l = true) (hl : ∀ f, f ∈ l → e.1 < f.1) :
    rising (e :: l) = true := by
  rw [rising_cons]
  exact ⟨fun f hf => hl f (List.mem_of_mem_head? hf), h⟩

theorem rising_filter {α : Type} (p : Nat × α → Bool) (l : List (Nat × α)) (h : rising l = true) :
    rising (l.filter p) = true := by
  induction l with
  | nil => rfl
  | cons e l ih =>
    rw [List.filter_cons]
    split
    · exact rising_of_lt e _ (ih (rising_tail h)) (fun f hf => rising_lt h f (List.mem_filter.1 hf).1)
    · exact ih (rising_tail h)

theorem eraseIn_eq {α : Type} (k : Nat) (l : List (Nat × α)) : eraseIn k l = l.filter (fun e => e.1 != k) := by
  induction l with
  | nil => rfl
  | cons e l ih =>
    obtain ⟨a, x⟩ := e
    unfold eraseIn
    rw [List.filter_cons]
    split
    · next h => simp [h, ih]
    · next h => simp [h, ih]

theorem rising_map {α β : Type} (f : Nat × α → β) (l : List (Nat × α)) (h : rising l = true) :
    rising (l.map (fun e => (e.1, f e))) = true := by
  induction l with
  | nil => rfl
  | cons e l ih =>
    rw [List.map_cons]
    refine rising_of_lt _ _ (ih (rising_tail h)) ?_
    intro g hg
    obtain ⟨x, hx, rfl⟩ := List.mem_map.1 hg
    exact rising_lt h x hx

theorem Map.wf_empty {α : Type} : (⟨[]⟩ : Map α).wf = true := rfl
theorem Map.wf_set {α : Type} (m : Map α) (k : Nat) (v : α) (h : m.wf = true) : (m.set k v).wf = true :=
  (rising_insertIn k v m.entries h).1
theorem Map.wf_erase {α : Type} (m : Map α) (k : Nat) (h : m.wf = true) : (m.erase k).wf = true := by
  show rising (eraseIn k m.entries) = true
  rw [eraseIn_eq]
  exact rising_filter _ _ h
theorem Map.wf_filter {α : Type} (m : Map α) (p : Nat → α → Bool) (h : m.wf = true) : (m.filter p).wf = true :=
  rising_filter _ _ h
theorem Map.wf_map {α : Type} (m : Map α) (f : Nat → α → α) (h : m.wf = true) : (m.map f).wf = true :=
  rising_map (fun e => f e.1 e.2) _ h

/-! ## The byte memories -/

@[simp] theorem Memory.read_empty (a : Nat) : (⟨[]⟩ : Memory).read a = 0 := rfl

theorem Memory.read_write (m : Memory) (a b : Nat) (v : Byte) : (m.write a v).read b = if b = a then v else m.read b := by
  unfold Memory.write Memory.read
  split
  · next hv =>
    split
    · next h => subst h; rw [lookupIn_eraseIn_self]; exact hv.symm
    · next h => simp only [lookupIn_eraseIn_ne _ _ _ h]
  · split
    · next h => subst h; simp only [lookupIn_insertIn_self, Option.getD_some]
    · next h => simp only [lookupIn_insertIn_ne _ _ _ _ h]

/-- A write of several bytes leaves every byte outside them. -/
theorem Memory.read_writeN_out (m : Memory) (a b : Nat) (l : List Byte) (h : b < a ∨ a + l.length ≤ b) :
    (m.writeN a l).read b = m.read b := by
  induction l generalizing m a with
  | nil => rfl
  | cons v l ih =>
    simp only [List.length_cons] at h
    rw [Memory.writeN, ih _ _ (by omega), Memory.read_write, if_neg (by omega)]

/-- A read of what was just written gives it. -/
theorem Memory.readN_writeN (m : Memory) (a : Nat) (l : List Byte) : (m.writeN a l).readN a l.length = l := by
  induction l generalizing m a with
  | nil => rfl
  | cons v l ih =>
    show (m.writeN a (v :: l)).read a :: (m.writeN a (v :: l)).readN (a + 1) l.length = v :: l
    rw [Memory.writeN, ih, Memory.read_writeN_out _ _ _ _ (by omega), Memory.read_write, if_pos rfl]

theorem insertIn_all {p : Byte → Bool} (k : Nat) (v : Byte) (l : List (Nat × Byte)) (h : l.all (fun c => p c.2) = true)
    (hv : p v = true) : (insertIn k v l).all (fun c => p c.2) = true := by
  induction l with
  | nil => simp [insertIn, hv]
  | cons e l ih =>
    obtain ⟨a, x⟩ := e
    simp only [List.all_cons, Bool.and_eq_true] at h
    unfold insertIn
    split
    · simp [h.1, ih h.2]
    · split
      · simp only [List.all_cons, hv, h.2, Bool.and_self]
      · simp only [List.all_cons, hv, h.1, h.2, Bool.and_self]

/-- A write keeps the canonical form. -/
theorem Memory.wf_write (m : Memory) (a : Nat) (v : Byte) (h : m.wf = true) : (m.write a v).wf = true := by
  unfold Memory.wf Memory.noDefault at *
  simp only [Bool.and_eq_true] at *
  unfold Memory.write
  split
  · refine ⟨?_, ?_⟩
    · simp only [eraseIn_eq]; exact rising_filter _ _ h.1
    · simp only [eraseIn_eq]
      rw [List.all_eq_true] at *
      intro c hc
      exact h.2 c (List.mem_filter.1 hc).1
  · next hv =>
    exact ⟨(rising_insertIn a v m.cells h.1).1,
      insertIn_all (p := fun b => b != Memory.unlisted) a v m.cells h.2 (by simpa using hv)⟩

theorem Memory.wf_writeN (m : Memory) (a : Nat) (l : List Byte) (h : m.wf = true) : (m.writeN a l).wf = true := by
  induction l generalizing m a with
  | nil => exact h
  | cons v l ih => exact ih _ _ (Memory.wf_write m a v h)

end Sys2Proof.Machine
end

