-- ==== Sys2Proof/Laws/State.lean ====
section
/-!
SUPPORT. What the updates of the state leave alone, one equation for each field that an update does not write, and what a read of
the written field gives.
-/
namespace Sys2Proof.Machine

@[simp] theorem State.setReg_frame (s : State) (r : Reg) (v i : Nat) :
    (s.setReg r v i).pending = s.pending ∧ (s.setReg r v i).tick = s.tick ∧ (s.setReg r v i).bootEpoch = s.bootEpoch ∧
    (s.setReg r v i).free = s.free ∧ (s.setReg r v i).shadow = s.shadow ∧ (s.setReg r v i).commons = s.commons ∧
    (s.setReg r v i).rings = s.rings ∧ (s.setReg r v i).unmasked = s.unmasked ∧ (s.setReg r v i).msixPending =
    s.msixPending ∧ (s.setReg r v i).msixTable = s.msixTable ∧ (s.setReg r v i).sent = s.sent ∧ (s.setReg r v
    i).window = s.window ∧ (s.setReg r v i).host = s.host ∧ (s.setReg r v i).fabric = s.fabric ∧ (s.setReg r v i).cmds
    = s.cmds ∧ (s.setReg r v i).nextCmd = s.nextCmd ∧ (s.setReg r v i).adm = s.adm ∧ (s.setReg r v i).sdir = s.sdir ∧
    (s.setReg r v i).cane = s.cane ∧ (s.setReg r v i).stm = s.stm ∧ (s.setReg r v i).jobs = s.jobs ∧ (s.setReg r v
    i).nextJob = s.nextJob ∧ (s.setReg r v i).sources = s.sources ∧ (s.setReg r v i).models = s.models ∧ (s.setReg r v
    i).vocabs = s.vocabs ∧ (s.setReg r v i).objects = s.objects ∧ (s.setReg r v i).cores = s.cores ∧ (s.setReg r v
    i).windows = s.windows ∧ (s.setReg r v i).gaf = s.gaf ∧ (s.setReg r v i).freeze = s.freeze ∧ (s.setReg r v
    i).tenants = s.tenants ∧ (s.setReg r v i).sec = s.sec ∧ (s.setReg r v i).hbm = s.hbm ∧ (s.setReg r v i).emb =
    s.emb ∧ (s.setReg r v i).srch = s.srch ∧ (s.setReg r v i).fam = s.fam ∧ (s.setReg r v i).ckp = s.ckp ∧ (s.setReg r
    v i).migrations = s.migrations ∧ (s.setReg r v i).tel = s.tel ∧ (s.setReg r v i).plat = s.plat ∧ (s.setReg r v
    i).out = s.out := by
  simp only [State.setReg]
  repeat' split
  all_goals simp

@[simp] theorem State.bump_frame (s : State) (r : Reg) (i k : Nat) :
    (s.bump r i k).pending = s.pending ∧ (s.bump r i k).tick = s.tick ∧ (s.bump r i k).bootEpoch = s.bootEpoch ∧
    (s.bump r i k).free = s.free ∧ (s.bump r i k).shadow = s.shadow ∧ (s.bump r i k).commons = s.commons ∧ (s.bump r i
    k).rings = s.rings ∧ (s.bump r i k).unmasked = s.unmasked ∧ (s.bump r i k).msixPending = s.msixPending ∧ (s.bump r
    i k).msixTable = s.msixTable ∧ (s.bump r i k).sent = s.sent ∧ (s.bump r i k).window = s.window ∧ (s.bump r i
    k).host = s.host ∧ (s.bump r i k).fabric = s.fabric ∧ (s.bump r i k).cmds = s.cmds ∧ (s.bump r i k).nextCmd =
    s.nextCmd ∧ (s.bump r i k).adm = s.adm ∧ (s.bump r i k).sdir = s.sdir ∧ (s.bump r i k).cane = s.cane ∧ (s.bump r i
    k).stm = s.stm ∧ (s.bump r i k).jobs = s.jobs ∧ (s.bump r i k).nextJob = s.nextJob ∧ (s.bump r i k).sources =
    s.sources ∧ (s.bump r i k).models = s.models ∧ (s.bump r i k).vocabs = s.vocabs ∧ (s.bump r i k).objects =
    s.objects ∧ (s.bump r i k).cores = s.cores ∧ (s.bump r i k).windows = s.windows ∧ (s.bump r i k).gaf = s.gaf ∧
    (s.bump r i k).freeze = s.freeze ∧ (s.bump r i k).tenants = s.tenants ∧ (s.bump r i k).sec = s.sec ∧ (s.bump r i
    k).hbm = s.hbm ∧ (s.bump r i k).emb = s.emb ∧ (s.bump r i k).srch = s.srch ∧ (s.bump r i k).fam = s.fam ∧ (s.bump
    r i k).ckp = s.ckp ∧ (s.bump r i k).migrations = s.migrations ∧ (s.bump r i k).tel = s.tel ∧ (s.bump r i k).plat =
    s.plat ∧ (s.bump r i k).out = s.out := by
  simp [State.bump]

@[simp] theorem State.raiseReg_frame (s : State) (r : Reg) (v i : Nat) :
    (s.raiseReg r v i).pending = s.pending ∧ (s.raiseReg r v i).tick = s.tick ∧ (s.raiseReg r v i).bootEpoch =
    s.bootEpoch ∧ (s.raiseReg r v i).free = s.free ∧ (s.raiseReg r v i).shadow = s.shadow ∧ (s.raiseReg r v i).commons
    = s.commons ∧ (s.raiseReg r v i).rings = s.rings ∧ (s.raiseReg r v i).unmasked = s.unmasked ∧ (s.raiseReg r v
    i).msixPending = s.msixPending ∧ (s.raiseReg r v i).msixTable = s.msixTable ∧ (s.raiseReg r v i).sent = s.sent ∧
    (s.raiseReg r v i).window = s.window ∧ (s.raiseReg r v i).host = s.host ∧ (s.raiseReg r v i).fabric = s.fabric ∧
    (s.raiseReg r v i).cmds = s.cmds ∧ (s.raiseReg r v i).nextCmd = s.nextCmd ∧ (s.raiseReg r v i).adm = s.adm ∧
    (s.raiseReg r v i).sdir = s.sdir ∧ (s.raiseReg r v i).cane = s.cane ∧ (s.raiseReg r v i).stm = s.stm ∧ (s.raiseReg
    r v i).jobs = s.jobs ∧ (s.raiseReg r v i).nextJob = s.nextJob ∧ (s.raiseReg r v i).sources = s.sources ∧
    (s.raiseReg r v i).models = s.models ∧ (s.raiseReg r v i).vocabs = s.vocabs ∧ (s.raiseReg r v i).objects =
    s.objects ∧ (s.raiseReg r v i).cores = s.cores ∧ (s.raiseReg r v i).windows = s.windows ∧ (s.raiseReg r v i).gaf =
    s.gaf ∧ (s.raiseReg r v i).freeze = s.freeze ∧ (s.raiseReg r v i).tenants = s.tenants ∧ (s.raiseReg r v i).sec =
    s.sec ∧ (s.raiseReg r v i).hbm = s.hbm ∧ (s.raiseReg r v i).emb = s.emb ∧ (s.raiseReg r v i).srch = s.srch ∧
    (s.raiseReg r v i).fam = s.fam ∧ (s.raiseReg r v i).ckp = s.ckp ∧ (s.raiseReg r v i).migrations = s.migrations ∧
    (s.raiseReg r v i).tel = s.tel ∧ (s.raiseReg r v i).plat = s.plat ∧ (s.raiseReg r v i).out = s.out := by
  simp [State.raiseReg]

@[simp] theorem State.setCommon_frame (s : State) (p : Nat) (c : Common) :
    (s.setCommon p c).pending = s.pending ∧ (s.setCommon p c).tick = s.tick ∧ (s.setCommon p c).bootEpoch =
    s.bootEpoch ∧ (s.setCommon p c).free = s.free ∧ (s.setCommon p c).regs = s.regs ∧ (s.setCommon p c).shadow =
    s.shadow ∧ (s.setCommon p c).rings = s.rings ∧ (s.setCommon p c).unmasked = s.unmasked ∧ (s.setCommon p
    c).msixPending = s.msixPending ∧ (s.setCommon p c).msixTable = s.msixTable ∧ (s.setCommon p c).sent = s.sent ∧
    (s.setCommon p c).window = s.window ∧ (s.setCommon p c).host = s.host ∧ (s.setCommon p c).fabric = s.fabric ∧
    (s.setCommon p c).cmds = s.cmds ∧ (s.setCommon p c).nextCmd = s.nextCmd ∧ (s.setCommon p c).adm = s.adm ∧
    (s.setCommon p c).sdir = s.sdir ∧ (s.setCommon p c).cane = s.cane ∧ (s.setCommon p c).stm = s.stm ∧ (s.setCommon p
    c).jobs = s.jobs ∧ (s.setCommon p c).nextJob = s.nextJob ∧ (s.setCommon p c).sources = s.sources ∧ (s.setCommon p
    c).models = s.models ∧ (s.setCommon p c).vocabs = s.vocabs ∧ (s.setCommon p c).objects = s.objects ∧ (s.setCommon
    p c).cores = s.cores ∧ (s.setCommon p c).windows = s.windows ∧ (s.setCommon p c).gaf = s.gaf ∧ (s.setCommon p
    c).freeze = s.freeze ∧ (s.setCommon p c).tenants = s.tenants ∧ (s.setCommon p c).sec = s.sec ∧ (s.setCommon p
    c).hbm = s.hbm ∧ (s.setCommon p c).emb = s.emb ∧ (s.setCommon p c).srch = s.srch ∧ (s.setCommon p c).fam = s.fam ∧
    (s.setCommon p c).ckp = s.ckp ∧ (s.setCommon p c).migrations = s.migrations ∧ (s.setCommon p c).tel = s.tel ∧
    (s.setCommon p c).plat = s.plat ∧ (s.setCommon p c).out = s.out :=
  ⟨rfl, rfl, rfl, rfl, rfl, rfl, rfl, rfl, rfl, rfl, rfl, rfl, rfl, rfl, rfl, rfl, rfl, rfl, rfl, rfl, rfl, rfl, rfl,
   rfl, rfl, rfl, rfl, rfl, rfl, rfl, rfl, rfl, rfl, rfl, rfl, rfl, rfl, rfl, rfl, rfl, rfl⟩

@[simp] theorem State.setPageState_frame (s : State) (p st : Nat) :
    (s.setPageState p st).pending = s.pending ∧ (s.setPageState p st).tick = s.tick ∧ (s.setPageState p st).bootEpoch
    = s.bootEpoch ∧ (s.setPageState p st).free = s.free ∧ (s.setPageState p st).regs = s.regs ∧ (s.setPageState p
    st).shadow = s.shadow ∧ (s.setPageState p st).rings = s.rings ∧ (s.setPageState p st).unmasked = s.unmasked ∧
    (s.setPageState p st).msixPending = s.msixPending ∧ (s.setPageState p st).msixTable = s.msixTable ∧
    (s.setPageState p st).sent = s.sent ∧ (s.setPageState p st).window = s.window ∧ (s.setPageState p st).host =
    s.host ∧ (s.setPageState p st).fabric = s.fabric ∧ (s.setPageState p st).cmds = s.cmds ∧ (s.setPageState p
    st).nextCmd = s.nextCmd ∧ (s.setPageState p st).adm = s.adm ∧ (s.setPageState p st).sdir = s.sdir ∧
    (s.setPageState p st).cane = s.cane ∧ (s.setPageState p st).stm = s.stm ∧ (s.setPageState p st).jobs = s.jobs ∧
    (s.setPageState p st).nextJob = s.nextJob ∧ (s.setPageState p st).sources = s.sources ∧ (s.setPageState p
    st).models = s.models ∧ (s.setPageState p st).vocabs = s.vocabs ∧ (s.setPageState p st).objects = s.objects ∧
    (s.setPageState p st).cores = s.cores ∧ (s.setPageState p st).windows = s.windows ∧ (s.setPageState p st).gaf =
    s.gaf ∧ (s.setPageState p st).freeze = s.freeze ∧ (s.setPageState p st).tenants = s.tenants ∧ (s.setPageState p
    st).sec = s.sec ∧ (s.setPageState p st).hbm = s.hbm ∧ (s.setPageState p st).emb = s.emb ∧ (s.setPageState p
    st).srch = s.srch ∧ (s.setPageState p st).fam = s.fam ∧ (s.setPageState p st).ckp = s.ckp ∧ (s.setPageState p
    st).migrations = s.migrations ∧ (s.setPageState p st).tel = s.tel ∧ (s.setPageState p st).plat = s.plat ∧
    (s.setPageState p st).out = s.out :=
  ⟨rfl, rfl, rfl, rfl, rfl, rfl, rfl, rfl, rfl, rfl, rfl, rfl, rfl, rfl, rfl, rfl, rfl, rfl, rfl, rfl, rfl, rfl, rfl,
   rfl, rfl, rfl, rfl, rfl, rfl, rfl, rfl, rfl, rfl, rfl, rfl, rfl, rfl, rfl, rfl, rfl, rfl⟩

@[simp] theorem State.beginLong_frame (s : State) (p : Nat) :
    (s.beginLong p).pending = s.pending ∧ (s.beginLong p).tick = s.tick ∧ (s.beginLong p).bootEpoch = s.bootEpoch ∧
    (s.beginLong p).free = s.free ∧ (s.beginLong p).regs = s.regs ∧ (s.beginLong p).shadow = s.shadow ∧ (s.beginLong
    p).rings = s.rings ∧ (s.beginLong p).unmasked = s.unmasked ∧ (s.beginLong p).msixPending = s.msixPending ∧
    (s.beginLong p).msixTable = s.msixTable ∧ (s.beginLong p).sent = s.sent ∧ (s.beginLong p).window = s.window ∧
    (s.beginLong p).host = s.host ∧ (s.beginLong p).fabric = s.fabric ∧ (s.beginLong p).cmds = s.cmds ∧ (s.beginLong
    p).nextCmd = s.nextCmd ∧ (s.beginLong p).adm = s.adm ∧ (s.beginLong p).sdir = s.sdir ∧ (s.beginLong p).cane =
    s.cane ∧ (s.beginLong p).stm = s.stm ∧ (s.beginLong p).jobs = s.jobs ∧ (s.beginLong p).nextJob = s.nextJob ∧
    (s.beginLong p).sources = s.sources ∧ (s.beginLong p).models = s.models ∧ (s.beginLong p).vocabs = s.vocabs ∧
    (s.beginLong p).objects = s.objects ∧ (s.beginLong p).cores = s.cores ∧ (s.beginLong p).windows = s.windows ∧
    (s.beginLong p).gaf = s.gaf ∧ (s.beginLong p).freeze = s.freeze ∧ (s.beginLong p).tenants = s.tenants ∧
    (s.beginLong p).sec = s.sec ∧ (s.beginLong p).hbm = s.hbm ∧ (s.beginLong p).emb = s.emb ∧ (s.beginLong p).srch =
    s.srch ∧ (s.beginLong p).fam = s.fam ∧ (s.beginLong p).ckp = s.ckp ∧ (s.beginLong p).migrations = s.migrations ∧
    (s.beginLong p).tel = s.tel ∧ (s.beginLong p).plat = s.plat ∧ (s.beginLong p).out = s.out :=
  ⟨rfl, rfl, rfl, rfl, rfl, rfl, rfl, rfl, rfl, rfl, rfl, rfl, rfl, rfl, rfl, rfl, rfl, rfl, rfl, rfl, rfl, rfl, rfl,
   rfl, rfl, rfl, rfl, rfl, rfl, rfl, rfl, rfl, rfl, rfl, rfl, rfl, rfl, rfl, rfl, rfl, rfl⟩

@[simp] theorem State.progress_frame (s : State) (p pos pct : Nat) :
    (s.progress p pos pct).pending = s.pending ∧ (s.progress p pos pct).tick = s.tick ∧ (s.progress p pos
    pct).bootEpoch = s.bootEpoch ∧ (s.progress p pos pct).free = s.free ∧ (s.progress p pos pct).regs = s.regs ∧
    (s.progress p pos pct).shadow = s.shadow ∧ (s.progress p pos pct).rings = s.rings ∧ (s.progress p pos
    pct).unmasked = s.unmasked ∧ (s.progress p pos pct).msixPending = s.msixPending ∧ (s.progress p pos pct).msixTable
    = s.msixTable ∧ (s.progress p pos pct).sent = s.sent ∧ (s.progress p pos pct).window = s.window ∧ (s.progress p
    pos pct).host = s.host ∧ (s.progress p pos pct).fabric = s.fabric ∧ (s.progress p pos pct).cmds = s.cmds ∧
    (s.progress p pos pct).nextCmd = s.nextCmd ∧ (s.progress p pos pct).adm = s.adm ∧ (s.progress p pos pct).sdir =
    s.sdir ∧ (s.progress p pos pct).cane = s.cane ∧ (s.progress p pos pct).stm = s.stm ∧ (s.progress p pos pct).jobs =
    s.jobs ∧ (s.progress p pos pct).nextJob = s.nextJob ∧ (s.progress p pos pct).sources = s.sources ∧ (s.progress p
    pos pct).models = s.models ∧ (s.progress p pos pct).vocabs = s.vocabs ∧ (s.progress p pos pct).objects = s.objects
    ∧ (s.progress p pos pct).cores = s.cores ∧ (s.progress p pos pct).windows = s.windows ∧ (s.progress p pos pct).gaf
    = s.gaf ∧ (s.progress p pos pct).freeze = s.freeze ∧ (s.progress p pos pct).tenants = s.tenants ∧ (s.progress p
    pos pct).sec = s.sec ∧ (s.progress p pos pct).hbm = s.hbm ∧ (s.progress p pos pct).emb = s.emb ∧ (s.progress p pos
    pct).srch = s.srch ∧ (s.progress p pos pct).fam = s.fam ∧ (s.progress p pos pct).ckp = s.ckp ∧ (s.progress p pos
    pct).migrations = s.migrations ∧ (s.progress p pos pct).tel = s.tel ∧ (s.progress p pos pct).plat = s.plat ∧
    (s.progress p pos pct).out = s.out :=
  ⟨rfl, rfl, rfl, rfl, rfl, rfl, rfl, rfl, rfl, rfl, rfl, rfl, rfl, rfl, rfl, rfl, rfl, rfl, rfl, rfl, rfl, rfl, rfl,
   rfl, rfl, rfl, rfl, rfl, rfl, rfl, rfl, rfl, rfl, rfl, rfl, rfl, rfl, rfl, rfl, rfl, rfl⟩

@[simp] theorem State.ungate_frame (s : State) :
    (s.ungate).pending = s.pending ∧ (s.ungate).tick = s.tick ∧ (s.ungate).bootEpoch = s.bootEpoch ∧ (s.ungate).free =
    s.free ∧ (s.ungate).regs = s.regs ∧ (s.ungate).shadow = s.shadow ∧ (s.ungate).commons = s.commons ∧
    (s.ungate).rings = s.rings ∧ (s.ungate).unmasked = s.unmasked ∧ (s.ungate).msixPending = s.msixPending ∧
    (s.ungate).msixTable = s.msixTable ∧ (s.ungate).sent = s.sent ∧ (s.ungate).window = s.window ∧ (s.ungate).host =
    s.host ∧ (s.ungate).fabric = s.fabric ∧ (s.ungate).cmds = s.cmds ∧ (s.ungate).nextCmd = s.nextCmd ∧ (s.ungate).adm
    = s.adm ∧ (s.ungate).sdir = s.sdir ∧ (s.ungate).cane = s.cane ∧ (s.ungate).stm = s.stm ∧ (s.ungate).jobs = s.jobs
    ∧ (s.ungate).nextJob = s.nextJob ∧ (s.ungate).sources = s.sources ∧ (s.ungate).models = s.models ∧
    (s.ungate).vocabs = s.vocabs ∧ (s.ungate).objects = s.objects ∧ (s.ungate).cores = s.cores ∧ (s.ungate).windows =
    s.windows ∧ (s.ungate).gaf = s.gaf ∧ (s.ungate).freeze = s.freeze ∧ (s.ungate).tenants = s.tenants ∧
    (s.ungate).sec = s.sec ∧ (s.ungate).hbm = s.hbm ∧ (s.ungate).emb = s.emb ∧ (s.ungate).srch = s.srch ∧
    (s.ungate).fam = s.fam ∧ (s.ungate).ckp = s.ckp ∧ (s.ungate).migrations = s.migrations ∧ (s.ungate).tel = s.tel ∧
    (s.ungate).out = s.out :=
  ⟨rfl, rfl, rfl, rfl, rfl, rfl, rfl, rfl, rfl, rfl, rfl, rfl, rfl, rfl, rfl, rfl, rfl, rfl, rfl, rfl, rfl, rfl, rfl,
   rfl, rfl, rfl, rfl, rfl, rfl, rfl, rfl, rfl, rfl, rfl, rfl, rfl, rfl, rfl, rfl, rfl, rfl⟩

@[simp] theorem State.touch_frame (s : State) :
    (s.touch).pending = s.pending ∧ (s.touch).tick = s.tick ∧ (s.touch).bootEpoch = s.bootEpoch ∧ (s.touch).free =
    s.free ∧ (s.touch).regs = s.regs ∧ (s.touch).shadow = s.shadow ∧ (s.touch).commons = s.commons ∧ (s.touch).rings =
    s.rings ∧ (s.touch).unmasked = s.unmasked ∧ (s.touch).msixPending = s.msixPending ∧ (s.touch).msixTable =
    s.msixTable ∧ (s.touch).sent = s.sent ∧ (s.touch).window = s.window ∧ (s.touch).host = s.host ∧ (s.touch).fabric =
    s.fabric ∧ (s.touch).cmds = s.cmds ∧ (s.touch).nextCmd = s.nextCmd ∧ (s.touch).adm = s.adm ∧ (s.touch).sdir =
    s.sdir ∧ (s.touch).cane = s.cane ∧ (s.touch).stm = s.stm ∧ (s.touch).jobs = s.jobs ∧ (s.touch).nextJob = s.nextJob
    ∧ (s.touch).sources = s.sources ∧ (s.touch).models = s.models ∧ (s.touch).vocabs = s.vocabs ∧ (s.touch).objects =
    s.objects ∧ (s.touch).cores = s.cores ∧ (s.touch).windows = s.windows ∧ (s.touch).gaf = s.gaf ∧ (s.touch).freeze =
    s.freeze ∧ (s.touch).tenants = s.tenants ∧ (s.touch).sec = s.sec ∧ (s.touch).hbm = s.hbm ∧ (s.touch).emb = s.emb ∧
    (s.touch).srch = s.srch ∧ (s.touch).fam = s.fam ∧ (s.touch).ckp = s.ckp ∧ (s.touch).migrations = s.migrations ∧
    (s.touch).tel = s.tel ∧ (s.touch).out = s.out := by
  simp only [State.touch]
  repeat' split
  all_goals simp

@[simp] theorem State.sendMsi_frame (s : State) (v f : Nat) :
    (s.sendMsi v f).pending = s.pending ∧ (s.sendMsi v f).tick = s.tick ∧ (s.sendMsi v f).bootEpoch = s.bootEpoch ∧
    (s.sendMsi v f).free = s.free ∧ (s.sendMsi v f).regs = s.regs ∧ (s.sendMsi v f).shadow = s.shadow ∧ (s.sendMsi v
    f).commons = s.commons ∧ (s.sendMsi v f).rings = s.rings ∧ (s.sendMsi v f).unmasked = s.unmasked ∧ (s.sendMsi v
    f).msixTable = s.msixTable ∧ (s.sendMsi v f).window = s.window ∧ (s.sendMsi v f).host = s.host ∧ (s.sendMsi v
    f).fabric = s.fabric ∧ (s.sendMsi v f).cmds = s.cmds ∧ (s.sendMsi v f).nextCmd = s.nextCmd ∧ (s.sendMsi v f).adm =
    s.adm ∧ (s.sendMsi v f).sdir = s.sdir ∧ (s.sendMsi v f).cane = s.cane ∧ (s.sendMsi v f).stm = s.stm ∧ (s.sendMsi v
    f).jobs = s.jobs ∧ (s.sendMsi v f).nextJob = s.nextJob ∧ (s.sendMsi v f).sources = s.sources ∧ (s.sendMsi v
    f).models = s.models ∧ (s.sendMsi v f).vocabs = s.vocabs ∧ (s.sendMsi v f).objects = s.objects ∧ (s.sendMsi v
    f).cores = s.cores ∧ (s.sendMsi v f).windows = s.windows ∧ (s.sendMsi v f).gaf = s.gaf ∧ (s.sendMsi v f).freeze =
    s.freeze ∧ (s.sendMsi v f).tenants = s.tenants ∧ (s.sendMsi v f).sec = s.sec ∧ (s.sendMsi v f).hbm = s.hbm ∧
    (s.sendMsi v f).emb = s.emb ∧ (s.sendMsi v f).srch = s.srch ∧ (s.sendMsi v f).fam = s.fam ∧ (s.sendMsi v f).ckp =
    s.ckp ∧ (s.sendMsi v f).migrations = s.migrations ∧ (s.sendMsi v f).tel = s.tel ∧ (s.sendMsi v f).plat = s.plat ∧
    (s.sendMsi v f).out = s.out := by
  simp only [State.sendMsi]
  repeat' split
  all_goals simp

@[simp] theorem State.routeMsg_frame (s : State) (p : Nat) :
    (s.routeMsg p).pending = s.pending ∧ (s.routeMsg p).tick = s.tick ∧ (s.routeMsg p).bootEpoch = s.bootEpoch ∧
    (s.routeMsg p).free = s.free ∧ (s.routeMsg p).regs = s.regs ∧ (s.routeMsg p).shadow = s.shadow ∧ (s.routeMsg
    p).commons = s.commons ∧ (s.routeMsg p).rings = s.rings ∧ (s.routeMsg p).unmasked = s.unmasked ∧ (s.routeMsg
    p).msixTable = s.msixTable ∧ (s.routeMsg p).window = s.window ∧ (s.routeMsg p).host = s.host ∧ (s.routeMsg
    p).fabric = s.fabric ∧ (s.routeMsg p).cmds = s.cmds ∧ (s.routeMsg p).nextCmd = s.nextCmd ∧ (s.routeMsg p).adm =
    s.adm ∧ (s.routeMsg p).sdir = s.sdir ∧ (s.routeMsg p).cane = s.cane ∧ (s.routeMsg p).stm = s.stm ∧ (s.routeMsg
    p).jobs = s.jobs ∧ (s.routeMsg p).nextJob = s.nextJob ∧ (s.routeMsg p).sources = s.sources ∧ (s.routeMsg p).models
    = s.models ∧ (s.routeMsg p).vocabs = s.vocabs ∧ (s.routeMsg p).objects = s.objects ∧ (s.routeMsg p).cores =
    s.cores ∧ (s.routeMsg p).windows = s.windows ∧ (s.routeMsg p).gaf = s.gaf ∧ (s.routeMsg p).freeze = s.freeze ∧
    (s.routeMsg p).tenants = s.tenants ∧ (s.routeMsg p).sec = s.sec ∧ (s.routeMsg p).hbm = s.hbm ∧ (s.routeMsg p).emb
    = s.emb ∧ (s.routeMsg p).srch = s.srch ∧ (s.routeMsg p).fam = s.fam ∧ (s.routeMsg p).ckp = s.ckp ∧ (s.routeMsg
    p).migrations = s.migrations ∧ (s.routeMsg p).tel = s.tel ∧ (s.routeMsg p).plat = s.plat ∧ (s.routeMsg p).out =
    s.out := by
  simp only [State.routeMsg]
  repeat' split
  all_goals simp

@[simp] theorem State.setInt_frame (s : State) (p : Nat) (b : Word) :
    (s.setInt p b).pending = s.pending ∧ (s.setInt p b).tick = s.tick ∧ (s.setInt p b).bootEpoch = s.bootEpoch ∧
    (s.setInt p b).free = s.free ∧ (s.setInt p b).regs = s.regs ∧ (s.setInt p b).shadow = s.shadow ∧ (s.setInt p
    b).rings = s.rings ∧ (s.setInt p b).unmasked = s.unmasked ∧ (s.setInt p b).msixTable = s.msixTable ∧ (s.setInt p
    b).window = s.window ∧ (s.setInt p b).host = s.host ∧ (s.setInt p b).fabric = s.fabric ∧ (s.setInt p b).cmds =
    s.cmds ∧ (s.setInt p b).nextCmd = s.nextCmd ∧ (s.setInt p b).adm = s.adm ∧ (s.setInt p b).sdir = s.sdir ∧
    (s.setInt p b).cane = s.cane ∧ (s.setInt p b).stm = s.stm ∧ (s.setInt p b).jobs = s.jobs ∧ (s.setInt p b).nextJob
    = s.nextJob ∧ (s.setInt p b).sources = s.sources ∧ (s.setInt p b).models = s.models ∧ (s.setInt p b).vocabs =
    s.vocabs ∧ (s.setInt p b).objects = s.objects ∧ (s.setInt p b).cores = s.cores ∧ (s.setInt p b).windows =
    s.windows ∧ (s.setInt p b).gaf = s.gaf ∧ (s.setInt p b).freeze = s.freeze ∧ (s.setInt p b).tenants = s.tenants ∧
    (s.setInt p b).sec = s.sec ∧ (s.setInt p b).hbm = s.hbm ∧ (s.setInt p b).emb = s.emb ∧ (s.setInt p b).srch =
    s.srch ∧ (s.setInt p b).fam = s.fam ∧ (s.setInt p b).ckp = s.ckp ∧ (s.setInt p b).migrations = s.migrations ∧
    (s.setInt p b).tel = s.tel ∧ (s.setInt p b).plat = s.plat ∧ (s.setInt p b).out = s.out := by
  simp only [State.setInt]
  repeat' split
  all_goals simp

@[simp] theorem State.setIntBit_frame (s : State) (p i : Nat) :
    (s.setIntBit p i).pending = s.pending ∧ (s.setIntBit p i).tick = s.tick ∧ (s.setIntBit p i).bootEpoch =
    s.bootEpoch ∧ (s.setIntBit p i).free = s.free ∧ (s.setIntBit p i).regs = s.regs ∧ (s.setIntBit p i).shadow =
    s.shadow ∧ (s.setIntBit p i).rings = s.rings ∧ (s.setIntBit p i).unmasked = s.unmasked ∧ (s.setIntBit p
    i).msixTable = s.msixTable ∧ (s.setIntBit p i).window = s.window ∧ (s.setIntBit p i).host = s.host ∧ (s.setIntBit
    p i).fabric = s.fabric ∧ (s.setIntBit p i).cmds = s.cmds ∧ (s.setIntBit p i).nextCmd = s.nextCmd ∧ (s.setIntBit p
    i).adm = s.adm ∧ (s.setIntBit p i).sdir = s.sdir ∧ (s.setIntBit p i).cane = s.cane ∧ (s.setIntBit p i).stm = s.stm
    ∧ (s.setIntBit p i).jobs = s.jobs ∧ (s.setIntBit p i).nextJob = s.nextJob ∧ (s.setIntBit p i).sources = s.sources
    ∧ (s.setIntBit p i).models = s.models ∧ (s.setIntBit p i).vocabs = s.vocabs ∧ (s.setIntBit p i).objects =
    s.objects ∧ (s.setIntBit p i).cores = s.cores ∧ (s.setIntBit p i).windows = s.windows ∧ (s.setIntBit p i).gaf =
    s.gaf ∧ (s.setIntBit p i).freeze = s.freeze ∧ (s.setIntBit p i).tenants = s.tenants ∧ (s.setIntBit p i).sec =
    s.sec ∧ (s.setIntBit p i).hbm = s.hbm ∧ (s.setIntBit p i).emb = s.emb ∧ (s.setIntBit p i).srch = s.srch ∧
    (s.setIntBit p i).fam = s.fam ∧ (s.setIntBit p i).ckp = s.ckp ∧ (s.setIntBit p i).migrations = s.migrations ∧
    (s.setIntBit p i).tel = s.tel ∧ (s.setIntBit p i).plat = s.plat ∧ (s.setIntBit p i).out = s.out := by
  simp [State.setIntBit]

@[simp] theorem State.recErr_frame (s : State) (p code : Nat) :
    (s.recErr p code).pending = s.pending ∧ (s.recErr p code).tick = s.tick ∧ (s.recErr p code).bootEpoch =
    s.bootEpoch ∧ (s.recErr p code).free = s.free ∧ (s.recErr p code).regs = s.regs ∧ (s.recErr p code).shadow =
    s.shadow ∧ (s.recErr p code).rings = s.rings ∧ (s.recErr p code).unmasked = s.unmasked ∧ (s.recErr p
    code).msixTable = s.msixTable ∧ (s.recErr p code).window = s.window ∧ (s.recErr p code).host = s.host ∧ (s.recErr
    p code).fabric = s.fabric ∧ (s.recErr p code).cmds = s.cmds ∧ (s.recErr p code).nextCmd = s.nextCmd ∧ (s.recErr p
    code).adm = s.adm ∧ (s.recErr p code).sdir = s.sdir ∧ (s.recErr p code).cane = s.cane ∧ (s.recErr p code).stm =
    s.stm ∧ (s.recErr p code).jobs = s.jobs ∧ (s.recErr p code).nextJob = s.nextJob ∧ (s.recErr p code).sources =
    s.sources ∧ (s.recErr p code).models = s.models ∧ (s.recErr p code).vocabs = s.vocabs ∧ (s.recErr p code).objects
    = s.objects ∧ (s.recErr p code).cores = s.cores ∧ (s.recErr p code).windows = s.windows ∧ (s.recErr p code).gaf =
    s.gaf ∧ (s.recErr p code).freeze = s.freeze ∧ (s.recErr p code).tenants = s.tenants ∧ (s.recErr p code).sec =
    s.sec ∧ (s.recErr p code).hbm = s.hbm ∧ (s.recErr p code).emb = s.emb ∧ (s.recErr p code).srch = s.srch ∧
    (s.recErr p code).fam = s.fam ∧ (s.recErr p code).ckp = s.ckp ∧ (s.recErr p code).migrations = s.migrations ∧
    (s.recErr p code).tel = s.tel ∧ (s.recErr p code).plat = s.plat ∧ (s.recErr p code).out = s.out := by
  simp only [State.recErr]
  repeat' split
  all_goals simp

@[simp] theorem State.lockErr_frame (s : State) (p : Nat) :
    (s.lockErr p).pending = s.pending ∧ (s.lockErr p).tick = s.tick ∧ (s.lockErr p).bootEpoch = s.bootEpoch ∧
    (s.lockErr p).free = s.free ∧ (s.lockErr p).regs = s.regs ∧ (s.lockErr p).shadow = s.shadow ∧ (s.lockErr p).rings
    = s.rings ∧ (s.lockErr p).unmasked = s.unmasked ∧ (s.lockErr p).msixTable = s.msixTable ∧ (s.lockErr p).window =
    s.window ∧ (s.lockErr p).host = s.host ∧ (s.lockErr p).fabric = s.fabric ∧ (s.lockErr p).cmds = s.cmds ∧
    (s.lockErr p).nextCmd = s.nextCmd ∧ (s.lockErr p).adm = s.adm ∧ (s.lockErr p).sdir = s.sdir ∧ (s.lockErr p).cane =
    s.cane ∧ (s.lockErr p).stm = s.stm ∧ (s.lockErr p).jobs = s.jobs ∧ (s.lockErr p).nextJob = s.nextJob ∧ (s.lockErr
    p).sources = s.sources ∧ (s.lockErr p).models = s.models ∧ (s.lockErr p).vocabs = s.vocabs ∧ (s.lockErr p).objects
    = s.objects ∧ (s.lockErr p).cores = s.cores ∧ (s.lockErr p).windows = s.windows ∧ (s.lockErr p).gaf = s.gaf ∧
    (s.lockErr p).freeze = s.freeze ∧ (s.lockErr p).tenants = s.tenants ∧ (s.lockErr p).sec = s.sec ∧ (s.lockErr
    p).hbm = s.hbm ∧ (s.lockErr p).emb = s.emb ∧ (s.lockErr p).srch = s.srch ∧ (s.lockErr p).fam = s.fam ∧ (s.lockErr
    p).ckp = s.ckp ∧ (s.lockErr p).migrations = s.migrations ∧ (s.lockErr p).tel = s.tel ∧ (s.lockErr p).plat = s.plat
    ∧ (s.lockErr p).out = s.out := by
  simp only [State.lockErr]
  repeat' split
  all_goals simp

@[simp] theorem State.failPage_frame (s : State) (p code : Nat) :
    (s.failPage p code).pending = s.pending ∧ (s.failPage p code).tick = s.tick ∧ (s.failPage p code).bootEpoch =
    s.bootEpoch ∧ (s.failPage p code).free = s.free ∧ (s.failPage p code).regs = s.regs ∧ (s.failPage p code).shadow =
    s.shadow ∧ (s.failPage p code).rings = s.rings ∧ (s.failPage p code).unmasked = s.unmasked ∧ (s.failPage p
    code).msixTable = s.msixTable ∧ (s.failPage p code).window = s.window ∧ (s.failPage p code).host = s.host ∧
    (s.failPage p code).fabric = s.fabric ∧ (s.failPage p code).cmds = s.cmds ∧ (s.failPage p code).nextCmd =
    s.nextCmd ∧ (s.failPage p code).adm = s.adm ∧ (s.failPage p code).sdir = s.sdir ∧ (s.failPage p code).cane =
    s.cane ∧ (s.failPage p code).stm = s.stm ∧ (s.failPage p code).jobs = s.jobs ∧ (s.failPage p code).nextJob =
    s.nextJob ∧ (s.failPage p code).sources = s.sources ∧ (s.failPage p code).models = s.models ∧ (s.failPage p
    code).vocabs = s.vocabs ∧ (s.failPage p code).objects = s.objects ∧ (s.failPage p code).cores = s.cores ∧
    (s.failPage p code).windows = s.windows ∧ (s.failPage p code).gaf = s.gaf ∧ (s.failPage p code).freeze = s.freeze
    ∧ (s.failPage p code).tenants = s.tenants ∧ (s.failPage p code).sec = s.sec ∧ (s.failPage p code).hbm = s.hbm ∧
    (s.failPage p code).emb = s.emb ∧ (s.failPage p code).srch = s.srch ∧ (s.failPage p code).fam = s.fam ∧
    (s.failPage p code).ckp = s.ckp ∧ (s.failPage p code).migrations = s.migrations ∧ (s.failPage p code).tel = s.tel
    ∧ (s.failPage p code).plat = s.plat ∧ (s.failPage p code).out = s.out := by
  simp only [State.failPage]
  repeat' split
  all_goals simp

@[simp] theorem State.endLong_frame (s : State) (p : Nat) :
    (s.endLong p).pending = s.pending ∧ (s.endLong p).tick = s.tick ∧ (s.endLong p).bootEpoch = s.bootEpoch ∧
    (s.endLong p).free = s.free ∧ (s.endLong p).regs = s.regs ∧ (s.endLong p).shadow = s.shadow ∧ (s.endLong p).rings
    = s.rings ∧ (s.endLong p).unmasked = s.unmasked ∧ (s.endLong p).msixTable = s.msixTable ∧ (s.endLong p).window =
    s.window ∧ (s.endLong p).host = s.host ∧ (s.endLong p).fabric = s.fabric ∧ (s.endLong p).cmds = s.cmds ∧
    (s.endLong p).nextCmd = s.nextCmd ∧ (s.endLong p).adm = s.adm ∧ (s.endLong p).sdir = s.sdir ∧ (s.endLong p).cane =
    s.cane ∧ (s.endLong p).stm = s.stm ∧ (s.endLong p).jobs = s.jobs ∧ (s.endLong p).nextJob = s.nextJob ∧ (s.endLong
    p).sources = s.sources ∧ (s.endLong p).models = s.models ∧ (s.endLong p).vocabs = s.vocabs ∧ (s.endLong p).objects
    = s.objects ∧ (s.endLong p).cores = s.cores ∧ (s.endLong p).windows = s.windows ∧ (s.endLong p).gaf = s.gaf ∧
    (s.endLong p).freeze = s.freeze ∧ (s.endLong p).tenants = s.tenants ∧ (s.endLong p).sec = s.sec ∧ (s.endLong
    p).hbm = s.hbm ∧ (s.endLong p).emb = s.emb ∧ (s.endLong p).srch = s.srch ∧ (s.endLong p).fam = s.fam ∧ (s.endLong
    p).ckp = s.ckp ∧ (s.endLong p).migrations = s.migrations ∧ (s.endLong p).tel = s.tel ∧ (s.endLong p).plat = s.plat
    ∧ (s.endLong p).out = s.out := by
  simp only [State.endLong]
  repeat' split
  all_goals simp

@[simp] theorem State.abortLong_frame (s : State) (p : Nat) :
    (s.abortLong p).pending = s.pending ∧ (s.abortLong p).tick = s.tick ∧ (s.abortLong p).bootEpoch = s.bootEpoch ∧
    (s.abortLong p).free = s.free ∧ (s.abortLong p).regs = s.regs ∧ (s.abortLong p).shadow = s.shadow ∧ (s.abortLong
    p).rings = s.rings ∧ (s.abortLong p).unmasked = s.unmasked ∧ (s.abortLong p).msixTable = s.msixTable ∧
    (s.abortLong p).window = s.window ∧ (s.abortLong p).host = s.host ∧ (s.abortLong p).fabric = s.fabric ∧
    (s.abortLong p).cmds = s.cmds ∧ (s.abortLong p).nextCmd = s.nextCmd ∧ (s.abortLong p).adm = s.adm ∧ (s.abortLong
    p).sdir = s.sdir ∧ (s.abortLong p).cane = s.cane ∧ (s.abortLong p).stm = s.stm ∧ (s.abortLong p).jobs = s.jobs ∧
    (s.abortLong p).nextJob = s.nextJob ∧ (s.abortLong p).sources = s.sources ∧ (s.abortLong p).models = s.models ∧
    (s.abortLong p).vocabs = s.vocabs ∧ (s.abortLong p).objects = s.objects ∧ (s.abortLong p).cores = s.cores ∧
    (s.abortLong p).windows = s.windows ∧ (s.abortLong p).gaf = s.gaf ∧ (s.abortLong p).freeze = s.freeze ∧
    (s.abortLong p).tenants = s.tenants ∧ (s.abortLong p).sec = s.sec ∧ (s.abortLong p).hbm = s.hbm ∧ (s.abortLong
    p).emb = s.emb ∧ (s.abortLong p).srch = s.srch ∧ (s.abortLong p).fam = s.fam ∧ (s.abortLong p).ckp = s.ckp ∧
    (s.abortLong p).migrations = s.migrations ∧ (s.abortLong p).tel = s.tel ∧ (s.abortLong p).plat = s.plat ∧
    (s.abortLong p).out = s.out := by
  simp [State.abortLong]

@[simp] theorem State.useFree_frame (s : State) (k : Nat) :
    (s.useFree k).pending = s.pending ∧ (s.useFree k).tick = s.tick ∧ (s.useFree k).bootEpoch = s.bootEpoch ∧
    (s.useFree k).regs = s.regs ∧ (s.useFree k).shadow = s.shadow ∧ (s.useFree k).commons = s.commons ∧ (s.useFree
    k).rings = s.rings ∧ (s.useFree k).unmasked = s.unmasked ∧ (s.useFree k).msixPending = s.msixPending ∧ (s.useFree
    k).msixTable = s.msixTable ∧ (s.useFree k).sent = s.sent ∧ (s.useFree k).window = s.window ∧ (s.useFree k).host =
    s.host ∧ (s.useFree k).fabric = s.fabric ∧ (s.useFree k).cmds = s.cmds ∧ (s.useFree k).nextCmd = s.nextCmd ∧
    (s.useFree k).adm = s.adm ∧ (s.useFree k).sdir = s.sdir ∧ (s.useFree k).cane = s.cane ∧ (s.useFree k).stm = s.stm
    ∧ (s.useFree k).jobs = s.jobs ∧ (s.useFree k).nextJob = s.nextJob ∧ (s.useFree k).sources = s.sources ∧ (s.useFree
    k).models = s.models ∧ (s.useFree k).vocabs = s.vocabs ∧ (s.useFree k).objects = s.objects ∧ (s.useFree k).cores =
    s.cores ∧ (s.useFree k).windows = s.windows ∧ (s.useFree k).gaf = s.gaf ∧ (s.useFree k).freeze = s.freeze ∧
    (s.useFree k).tenants = s.tenants ∧ (s.useFree k).sec = s.sec ∧ (s.useFree k).hbm = s.hbm ∧ (s.useFree k).emb =
    s.emb ∧ (s.useFree k).srch = s.srch ∧ (s.useFree k).fam = s.fam ∧ (s.useFree k).ckp = s.ckp ∧ (s.useFree
    k).migrations = s.migrations ∧ (s.useFree k).tel = s.tel ∧ (s.useFree k).plat = s.plat ∧ (s.useFree k).out = s.out :=
  ⟨rfl, rfl, rfl, rfl, rfl, rfl, rfl, rfl, rfl, rfl, rfl, rfl, rfl, rfl, rfl, rfl, rfl, rfl, rfl, rfl, rfl, rfl, rfl,
   rfl, rfl, rfl, rfl, rfl, rfl, rfl, rfl, rfl, rfl, rfl, rfl, rfl, rfl, rfl, rfl, rfl, rfl⟩

@[simp] theorem State.writeMem_frame (s : State) (w : Bool) (a : Nat) (bs : List Byte) :
    (s.writeMem w a bs).pending = s.pending ∧ (s.writeMem w a bs).tick = s.tick ∧ (s.writeMem w a bs).bootEpoch =
    s.bootEpoch ∧ (s.writeMem w a bs).free = s.free ∧ (s.writeMem w a bs).regs = s.regs ∧ (s.writeMem w a bs).shadow =
    s.shadow ∧ (s.writeMem w a bs).commons = s.commons ∧ (s.writeMem w a bs).rings = s.rings ∧ (s.writeMem w a
    bs).unmasked = s.unmasked ∧ (s.writeMem w a bs).msixPending = s.msixPending ∧ (s.writeMem w a bs).msixTable =
    s.msixTable ∧ (s.writeMem w a bs).sent = s.sent ∧ (s.writeMem w a bs).fabric = s.fabric ∧ (s.writeMem w a bs).cmds
    = s.cmds ∧ (s.writeMem w a bs).nextCmd = s.nextCmd ∧ (s.writeMem w a bs).adm = s.adm ∧ (s.writeMem w a bs).sdir =
    s.sdir ∧ (s.writeMem w a bs).cane = s.cane ∧ (s.writeMem w a bs).stm = s.stm ∧ (s.writeMem w a bs).jobs = s.jobs ∧
    (s.writeMem w a bs).nextJob = s.nextJob ∧ (s.writeMem w a bs).sources = s.sources ∧ (s.writeMem w a bs).models =
    s.models ∧ (s.writeMem w a bs).vocabs = s.vocabs ∧ (s.writeMem w a bs).objects = s.objects ∧ (s.writeMem w a
    bs).cores = s.cores ∧ (s.writeMem w a bs).windows = s.windows ∧ (s.writeMem w a bs).gaf = s.gaf ∧ (s.writeMem w a
    bs).freeze = s.freeze ∧ (s.writeMem w a bs).tenants = s.tenants ∧ (s.writeMem w a bs).sec = s.sec ∧ (s.writeMem w
    a bs).hbm = s.hbm ∧ (s.writeMem w a bs).emb = s.emb ∧ (s.writeMem w a bs).srch = s.srch ∧ (s.writeMem w a bs).fam
    = s.fam ∧ (s.writeMem w a bs).ckp = s.ckp ∧ (s.writeMem w a bs).migrations = s.migrations ∧ (s.writeMem w a
    bs).tel = s.tel ∧ (s.writeMem w a bs).plat = s.plat ∧ (s.writeMem w a bs).out = s.out := by
  simp only [State.writeMem]
  repeat' split
  all_goals simp

@[simp] theorem State.writeDst_frame (s : State) (d a : Nat) (bs : List Byte) :
    (s.writeDst d a bs).pending = s.pending ∧ (s.writeDst d a bs).tick = s.tick ∧ (s.writeDst d a bs).bootEpoch =
    s.bootEpoch ∧ (s.writeDst d a bs).free = s.free ∧ (s.writeDst d a bs).regs = s.regs ∧ (s.writeDst d a bs).shadow =
    s.shadow ∧ (s.writeDst d a bs).commons = s.commons ∧ (s.writeDst d a bs).rings = s.rings ∧ (s.writeDst d a
    bs).unmasked = s.unmasked ∧ (s.writeDst d a bs).msixPending = s.msixPending ∧ (s.writeDst d a bs).msixTable =
    s.msixTable ∧ (s.writeDst d a bs).sent = s.sent ∧ (s.writeDst d a bs).cmds = s.cmds ∧ (s.writeDst d a bs).nextCmd
    = s.nextCmd ∧ (s.writeDst d a bs).adm = s.adm ∧ (s.writeDst d a bs).sdir = s.sdir ∧ (s.writeDst d a bs).cane =
    s.cane ∧ (s.writeDst d a bs).stm = s.stm ∧ (s.writeDst d a bs).jobs = s.jobs ∧ (s.writeDst d a bs).nextJob =
    s.nextJob ∧ (s.writeDst d a bs).sources = s.sources ∧ (s.writeDst d a bs).models = s.models ∧ (s.writeDst d a
    bs).vocabs = s.vocabs ∧ (s.writeDst d a bs).objects = s.objects ∧ (s.writeDst d a bs).cores = s.cores ∧
    (s.writeDst d a bs).windows = s.windows ∧ (s.writeDst d a bs).gaf = s.gaf ∧ (s.writeDst d a bs).freeze = s.freeze
    ∧ (s.writeDst d a bs).tenants = s.tenants ∧ (s.writeDst d a bs).sec = s.sec ∧ (s.writeDst d a bs).hbm = s.hbm ∧
    (s.writeDst d a bs).emb = s.emb ∧ (s.writeDst d a bs).srch = s.srch ∧ (s.writeDst d a bs).fam = s.fam ∧
    (s.writeDst d a bs).ckp = s.ckp ∧ (s.writeDst d a bs).migrations = s.migrations ∧ (s.writeDst d a bs).tel = s.tel
    ∧ (s.writeDst d a bs).plat = s.plat ∧ (s.writeDst d a bs).out = s.out := by
  simp only [State.writeDst]
  repeat' split
  all_goals simp

@[simp] theorem State.setRing_frame (s : State) (n : Nat) (r : Ring) :
    (s.setRing n r).pending = s.pending ∧ (s.setRing n r).tick = s.tick ∧ (s.setRing n r).bootEpoch = s.bootEpoch ∧
    (s.setRing n r).free = s.free ∧ (s.setRing n r).regs = s.regs ∧ (s.setRing n r).shadow = s.shadow ∧ (s.setRing n
    r).commons = s.commons ∧ (s.setRing n r).unmasked = s.unmasked ∧ (s.setRing n r).msixPending = s.msixPending ∧
    (s.setRing n r).msixTable = s.msixTable ∧ (s.setRing n r).sent = s.sent ∧ (s.setRing n r).window = s.window ∧
    (s.setRing n r).host = s.host ∧ (s.setRing n r).fabric = s.fabric ∧ (s.setRing n r).cmds = s.cmds ∧ (s.setRing n
    r).nextCmd = s.nextCmd ∧ (s.setRing n r).adm = s.adm ∧ (s.setRing n r).sdir = s.sdir ∧ (s.setRing n r).cane =
    s.cane ∧ (s.setRing n r).stm = s.stm ∧ (s.setRing n r).jobs = s.jobs ∧ (s.setRing n r).nextJob = s.nextJob ∧
    (s.setRing n r).sources = s.sources ∧ (s.setRing n r).models = s.models ∧ (s.setRing n r).vocabs = s.vocabs ∧
    (s.setRing n r).objects = s.objects ∧ (s.setRing n r).cores = s.cores ∧ (s.setRing n r).windows = s.windows ∧
    (s.setRing n r).gaf = s.gaf ∧ (s.setRing n r).freeze = s.freeze ∧ (s.setRing n r).tenants = s.tenants ∧ (s.setRing
    n r).sec = s.sec ∧ (s.setRing n r).hbm = s.hbm ∧ (s.setRing n r).emb = s.emb ∧ (s.setRing n r).srch = s.srch ∧
    (s.setRing n r).fam = s.fam ∧ (s.setRing n r).ckp = s.ckp ∧ (s.setRing n r).migrations = s.migrations ∧ (s.setRing
    n r).tel = s.tel ∧ (s.setRing n r).plat = s.plat ∧ (s.setRing n r).out = s.out :=
  ⟨rfl, rfl, rfl, rfl, rfl, rfl, rfl, rfl, rfl, rfl, rfl, rfl, rfl, rfl, rfl, rfl, rfl, rfl, rfl, rfl, rfl, rfl, rfl,
   rfl, rfl, rfl, rfl, rfl, rfl, rfl, rfl, rfl, rfl, rfl, rfl, rfl, rfl, rfl, rfl, rfl, rfl⟩

@[simp] theorem State.ringInt_frame (s : State) (n : Nat) (b : Word) :
    (s.ringInt n b).pending = s.pending ∧ (s.ringInt n b).tick = s.tick ∧ (s.ringInt n b).bootEpoch = s.bootEpoch ∧
    (s.ringInt n b).free = s.free ∧ (s.ringInt n b).regs = s.regs ∧ (s.ringInt n b).shadow = s.shadow ∧ (s.ringInt n
    b).commons = s.commons ∧ (s.ringInt n b).unmasked = s.unmasked ∧ (s.ringInt n b).msixTable = s.msixTable ∧
    (s.ringInt n b).window = s.window ∧ (s.ringInt n b).host = s.host ∧ (s.ringInt n b).fabric = s.fabric ∧ (s.ringInt
    n b).cmds = s.cmds ∧ (s.ringInt n b).nextCmd = s.nextCmd ∧ (s.ringInt n b).adm = s.adm ∧ (s.ringInt n b).sdir =
    s.sdir ∧ (s.ringInt n b).cane = s.cane ∧ (s.ringInt n b).stm = s.stm ∧ (s.ringInt n b).jobs = s.jobs ∧ (s.ringInt
    n b).nextJob = s.nextJob ∧ (s.ringInt n b).sources = s.sources ∧ (s.ringInt n b).models = s.models ∧ (s.ringInt n
    b).vocabs = s.vocabs ∧ (s.ringInt n b).objects = s.objects ∧ (s.ringInt n b).cores = s.cores ∧ (s.ringInt n
    b).windows = s.windows ∧ (s.ringInt n b).gaf = s.gaf ∧ (s.ringInt n b).freeze = s.freeze ∧ (s.ringInt n b).tenants
    = s.tenants ∧ (s.ringInt n b).sec = s.sec ∧ (s.ringInt n b).hbm = s.hbm ∧ (s.ringInt n b).emb = s.emb ∧ (s.ringInt
    n b).srch = s.srch ∧ (s.ringInt n b).fam = s.fam ∧ (s.ringInt n b).ckp = s.ckp ∧ (s.ringInt n b).migrations =
    s.migrations ∧ (s.ringInt n b).tel = s.tel ∧ (s.ringInt n b).plat = s.plat ∧ (s.ringInt n b).out = s.out := by
  simp only [State.ringInt]
  repeat' split
  all_goals simp

@[simp] theorem State.ringErr_frame (s : State) (n code : Nat) :
    (s.ringErr n code).pending = s.pending ∧ (s.ringErr n code).tick = s.tick ∧ (s.ringErr n code).bootEpoch =
    s.bootEpoch ∧ (s.ringErr n code).free = s.free ∧ (s.ringErr n code).regs = s.regs ∧ (s.ringErr n code).shadow =
    s.shadow ∧ (s.ringErr n code).commons = s.commons ∧ (s.ringErr n code).unmasked = s.unmasked ∧ (s.ringErr n
    code).msixTable = s.msixTable ∧ (s.ringErr n code).window = s.window ∧ (s.ringErr n code).host = s.host ∧
    (s.ringErr n code).fabric = s.fabric ∧ (s.ringErr n code).cmds = s.cmds ∧ (s.ringErr n code).nextCmd = s.nextCmd ∧
    (s.ringErr n code).adm = s.adm ∧ (s.ringErr n code).sdir = s.sdir ∧ (s.ringErr n code).cane = s.cane ∧ (s.ringErr
    n code).stm = s.stm ∧ (s.ringErr n code).jobs = s.jobs ∧ (s.ringErr n code).nextJob = s.nextJob ∧ (s.ringErr n
    code).sources = s.sources ∧ (s.ringErr n code).models = s.models ∧ (s.ringErr n code).vocabs = s.vocabs ∧
    (s.ringErr n code).objects = s.objects ∧ (s.ringErr n code).cores = s.cores ∧ (s.ringErr n code).windows =
    s.windows ∧ (s.ringErr n code).gaf = s.gaf ∧ (s.ringErr n code).freeze = s.freeze ∧ (s.ringErr n code).tenants =
    s.tenants ∧ (s.ringErr n code).sec = s.sec ∧ (s.ringErr n code).hbm = s.hbm ∧ (s.ringErr n code).emb = s.emb ∧
    (s.ringErr n code).srch = s.srch ∧ (s.ringErr n code).fam = s.fam ∧ (s.ringErr n code).ckp = s.ckp ∧ (s.ringErr n
    code).migrations = s.migrations ∧ (s.ringErr n code).tel = s.tel ∧ (s.ringErr n code).plat = s.plat ∧ (s.ringErr n
    code).out = s.out := by
  simp only [State.ringErr]
  repeat' split
  all_goals simp

@[simp] theorem State.signal_frame (s : State) (n : Nat) :
    (s.signal n).pending = s.pending ∧ (s.signal n).tick = s.tick ∧ (s.signal n).bootEpoch = s.bootEpoch ∧ (s.signal
    n).free = s.free ∧ (s.signal n).regs = s.regs ∧ (s.signal n).shadow = s.shadow ∧ (s.signal n).commons = s.commons
    ∧ (s.signal n).unmasked = s.unmasked ∧ (s.signal n).msixTable = s.msixTable ∧ (s.signal n).window = s.window ∧
    (s.signal n).host = s.host ∧ (s.signal n).fabric = s.fabric ∧ (s.signal n).cmds = s.cmds ∧ (s.signal n).nextCmd =
    s.nextCmd ∧ (s.signal n).adm = s.adm ∧ (s.signal n).sdir = s.sdir ∧ (s.signal n).cane = s.cane ∧ (s.signal n).stm
    = s.stm ∧ (s.signal n).jobs = s.jobs ∧ (s.signal n).nextJob = s.nextJob ∧ (s.signal n).sources = s.sources ∧
    (s.signal n).models = s.models ∧ (s.signal n).vocabs = s.vocabs ∧ (s.signal n).objects = s.objects ∧ (s.signal
    n).cores = s.cores ∧ (s.signal n).windows = s.windows ∧ (s.signal n).gaf = s.gaf ∧ (s.signal n).freeze = s.freeze
    ∧ (s.signal n).tenants = s.tenants ∧ (s.signal n).sec = s.sec ∧ (s.signal n).hbm = s.hbm ∧ (s.signal n).emb =
    s.emb ∧ (s.signal n).srch = s.srch ∧ (s.signal n).fam = s.fam ∧ (s.signal n).ckp = s.ckp ∧ (s.signal n).migrations
    = s.migrations ∧ (s.signal n).tel = s.tel ∧ (s.signal n).plat = s.plat ∧ (s.signal n).out = s.out := by
  simp only [State.signal]
  repeat' split
  all_goals simp

@[simp] theorem State.writeCompletion_frame (s : State) (n : Nat) (d : Desc) (st : Status) (de h r : Nat) :
    (s.writeCompletion n d st de h r).pending = s.pending ∧ (s.writeCompletion n d st de h r).tick = s.tick ∧
    (s.writeCompletion n d st de h r).bootEpoch = s.bootEpoch ∧ (s.writeCompletion n d st de h r).free = s.free ∧
    (s.writeCompletion n d st de h r).regs = s.regs ∧ (s.writeCompletion n d st de h r).shadow = s.shadow ∧
    (s.writeCompletion n d st de h r).commons = s.commons ∧ (s.writeCompletion n d st de h r).unmasked = s.unmasked ∧
    (s.writeCompletion n d st de h r).msixTable = s.msixTable ∧ (s.writeCompletion n d st de h r).fabric = s.fabric ∧
    (s.writeCompletion n d st de h r).cmds = s.cmds ∧ (s.writeCompletion n d st de h r).nextCmd = s.nextCmd ∧
    (s.writeCompletion n d st de h r).adm = s.adm ∧ (s.writeCompletion n d st de h r).sdir = s.sdir ∧
    (s.writeCompletion n d st de h r).cane = s.cane ∧ (s.writeCompletion n d st de h r).stm = s.stm ∧
    (s.writeCompletion n d st de h r).jobs = s.jobs ∧ (s.writeCompletion n d st de h r).nextJob = s.nextJob ∧
    (s.writeCompletion n d st de h r).sources = s.sources ∧ (s.writeCompletion n d st de h r).models = s.models ∧
    (s.writeCompletion n d st de h r).vocabs = s.vocabs ∧ (s.writeCompletion n d st de h r).objects = s.objects ∧
    (s.writeCompletion n d st de h r).cores = s.cores ∧ (s.writeCompletion n d st de h r).windows = s.windows ∧
    (s.writeCompletion n d st de h r).gaf = s.gaf ∧ (s.writeCompletion n d st de h r).freeze = s.freeze ∧
    (s.writeCompletion n d st de h r).tenants = s.tenants ∧ (s.writeCompletion n d st de h r).sec = s.sec ∧
    (s.writeCompletion n d st de h r).hbm = s.hbm ∧ (s.writeCompletion n d st de h r).emb = s.emb ∧ (s.writeCompletion
    n d st de h r).srch = s.srch ∧ (s.writeCompletion n d st de h r).fam = s.fam ∧ (s.writeCompletion n d st de h
    r).ckp = s.ckp ∧ (s.writeCompletion n d st de h r).migrations = s.migrations ∧ (s.writeCompletion n d st de h
    r).tel = s.tel ∧ (s.writeCompletion n d st de h r).plat = s.plat ∧ (s.writeCompletion n d st de h r).out = s.out := by
  simp only [State.writeCompletion]
  repeat' split
  all_goals simp

@[simp] theorem State.release_frame (s : State) (n : Nat) :
    (s.release n).pending = s.pending ∧ (s.release n).tick = s.tick ∧ (s.release n).bootEpoch = s.bootEpoch ∧
    (s.release n).free = s.free ∧ (s.release n).regs = s.regs ∧ (s.release n).shadow = s.shadow ∧ (s.release
    n).commons = s.commons ∧ (s.release n).unmasked = s.unmasked ∧ (s.release n).msixPending = s.msixPending ∧
    (s.release n).msixTable = s.msixTable ∧ (s.release n).sent = s.sent ∧ (s.release n).window = s.window ∧ (s.release
    n).host = s.host ∧ (s.release n).fabric = s.fabric ∧ (s.release n).cmds = s.cmds ∧ (s.release n).nextCmd =
    s.nextCmd ∧ (s.release n).adm = s.adm ∧ (s.release n).sdir = s.sdir ∧ (s.release n).cane = s.cane ∧ (s.release
    n).stm = s.stm ∧ (s.release n).jobs = s.jobs ∧ (s.release n).nextJob = s.nextJob ∧ (s.release n).sources =
    s.sources ∧ (s.release n).models = s.models ∧ (s.release n).vocabs = s.vocabs ∧ (s.release n).objects = s.objects
    ∧ (s.release n).cores = s.cores ∧ (s.release n).windows = s.windows ∧ (s.release n).gaf = s.gaf ∧ (s.release
    n).freeze = s.freeze ∧ (s.release n).tenants = s.tenants ∧ (s.release n).sec = s.sec ∧ (s.release n).hbm = s.hbm ∧
    (s.release n).emb = s.emb ∧ (s.release n).srch = s.srch ∧ (s.release n).fam = s.fam ∧ (s.release n).ckp = s.ckp ∧
    (s.release n).migrations = s.migrations ∧ (s.release n).tel = s.tel ∧ (s.release n).plat = s.plat ∧ (s.release
    n).out = s.out :=
  ⟨rfl, rfl, rfl, rfl, rfl, rfl, rfl, rfl, rfl, rfl, rfl, rfl, rfl, rfl, rfl, rfl, rfl, rfl, rfl, rfl, rfl, rfl, rfl,
   rfl, rfl, rfl, rfl, rfl, rfl, rfl, rfl, rfl, rfl, rfl, rfl, rfl, rfl, rfl, rfl, rfl, rfl⟩

@[simp] theorem State.setSession_frame (s : State) (k : Nat) (x : Session) :
    (s.setSession k x).pending = s.pending ∧ (s.setSession k x).tick = s.tick ∧ (s.setSession k x).bootEpoch =
    s.bootEpoch ∧ (s.setSession k x).free = s.free ∧ (s.setSession k x).regs = s.regs ∧ (s.setSession k x).shadow =
    s.shadow ∧ (s.setSession k x).commons = s.commons ∧ (s.setSession k x).rings = s.rings ∧ (s.setSession k
    x).unmasked = s.unmasked ∧ (s.setSession k x).msixPending = s.msixPending ∧ (s.setSession k x).msixTable =
    s.msixTable ∧ (s.setSession k x).sent = s.sent ∧ (s.setSession k x).window = s.window ∧ (s.setSession k x).host =
    s.host ∧ (s.setSession k x).fabric = s.fabric ∧ (s.setSession k x).cmds = s.cmds ∧ (s.setSession k x).nextCmd =
    s.nextCmd ∧ (s.setSession k x).adm = s.adm ∧ (s.setSession k x).cane = s.cane ∧ (s.setSession k x).stm = s.stm ∧
    (s.setSession k x).jobs = s.jobs ∧ (s.setSession k x).nextJob = s.nextJob ∧ (s.setSession k x).sources = s.sources
    ∧ (s.setSession k x).models = s.models ∧ (s.setSession k x).vocabs = s.vocabs ∧ (s.setSession k x).objects =
    s.objects ∧ (s.setSession k x).cores = s.cores ∧ (s.setSession k x).windows = s.windows ∧ (s.setSession k x).gaf =
    s.gaf ∧ (s.setSession k x).freeze = s.freeze ∧ (s.setSession k x).tenants = s.tenants ∧ (s.setSession k x).sec =
    s.sec ∧ (s.setSession k x).hbm = s.hbm ∧ (s.setSession k x).emb = s.emb ∧ (s.setSession k x).srch = s.srch ∧
    (s.setSession k x).fam = s.fam ∧ (s.setSession k x).ckp = s.ckp ∧ (s.setSession k x).migrations = s.migrations ∧
    (s.setSession k x).tel = s.tel ∧ (s.setSession k x).plat = s.plat ∧ (s.setSession k x).out = s.out :=
  ⟨rfl, rfl, rfl, rfl, rfl, rfl, rfl, rfl, rfl, rfl, rfl, rfl, rfl, rfl, rfl, rfl, rfl, rfl, rfl, rfl, rfl, rfl, rfl,
   rfl, rfl, rfl, rfl, rfl, rfl, rfl, rfl, rfl, rfl, rfl, rfl, rfl, rfl, rfl, rfl, rfl, rfl⟩

@[simp] theorem State.onSession_frame (s : State) (k : Nat) (f : Session → Session) :
    (s.onSession k f).pending = s.pending ∧ (s.onSession k f).tick = s.tick ∧ (s.onSession k f).bootEpoch =
    s.bootEpoch ∧ (s.onSession k f).free = s.free ∧ (s.onSession k f).regs = s.regs ∧ (s.onSession k f).shadow =
    s.shadow ∧ (s.onSession k f).commons = s.commons ∧ (s.onSession k f).rings = s.rings ∧ (s.onSession k f).unmasked
    = s.unmasked ∧ (s.onSession k f).msixPending = s.msixPending ∧ (s.onSession k f).msixTable = s.msixTable ∧
    (s.onSession k f).sent = s.sent ∧ (s.onSession k f).window = s.window ∧ (s.onSession k f).host = s.host ∧
    (s.onSession k f).fabric = s.fabric ∧ (s.onSession k f).cmds = s.cmds ∧ (s.onSession k f).nextCmd = s.nextCmd ∧
    (s.onSession k f).adm = s.adm ∧ (s.onSession k f).cane = s.cane ∧ (s.onSession k f).stm = s.stm ∧ (s.onSession k
    f).jobs = s.jobs ∧ (s.onSession k f).nextJob = s.nextJob ∧ (s.onSession k f).sources = s.sources ∧ (s.onSession k
    f).models = s.models ∧ (s.onSession k f).vocabs = s.vocabs ∧ (s.onSession k f).objects = s.objects ∧ (s.onSession
    k f).cores = s.cores ∧ (s.onSession k f).windows = s.windows ∧ (s.onSession k f).gaf = s.gaf ∧ (s.onSession k
    f).freeze = s.freeze ∧ (s.onSession k f).tenants = s.tenants ∧ (s.onSession k f).sec = s.sec ∧ (s.onSession k
    f).hbm = s.hbm ∧ (s.onSession k f).emb = s.emb ∧ (s.onSession k f).srch = s.srch ∧ (s.onSession k f).fam = s.fam ∧
    (s.onSession k f).ckp = s.ckp ∧ (s.onSession k f).migrations = s.migrations ∧ (s.onSession k f).tel = s.tel ∧
    (s.onSession k f).plat = s.plat ∧ (s.onSession k f).out = s.out := by
  simp only [State.onSession]
  repeat' split
  all_goals simp

@[simp] theorem State.onCmd_frame (s : State) (i : Nat) (f : Cmd → Cmd) :
    (s.onCmd i f).pending = s.pending ∧ (s.onCmd i f).tick = s.tick ∧ (s.onCmd i f).bootEpoch = s.bootEpoch ∧ (s.onCmd
    i f).free = s.free ∧ (s.onCmd i f).regs = s.regs ∧ (s.onCmd i f).shadow = s.shadow ∧ (s.onCmd i f).commons =
    s.commons ∧ (s.onCmd i f).rings = s.rings ∧ (s.onCmd i f).unmasked = s.unmasked ∧ (s.onCmd i f).msixPending =
    s.msixPending ∧ (s.onCmd i f).msixTable = s.msixTable ∧ (s.onCmd i f).sent = s.sent ∧ (s.onCmd i f).window =
    s.window ∧ (s.onCmd i f).host = s.host ∧ (s.onCmd i f).fabric = s.fabric ∧ (s.onCmd i f).nextCmd = s.nextCmd ∧
    (s.onCmd i f).adm = s.adm ∧ (s.onCmd i f).sdir = s.sdir ∧ (s.onCmd i f).cane = s.cane ∧ (s.onCmd i f).stm = s.stm
    ∧ (s.onCmd i f).jobs = s.jobs ∧ (s.onCmd i f).nextJob = s.nextJob ∧ (s.onCmd i f).sources = s.sources ∧ (s.onCmd i
    f).models = s.models ∧ (s.onCmd i f).vocabs = s.vocabs ∧ (s.onCmd i f).objects = s.objects ∧ (s.onCmd i f).cores =
    s.cores ∧ (s.onCmd i f).windows = s.windows ∧ (s.onCmd i f).gaf = s.gaf ∧ (s.onCmd i f).freeze = s.freeze ∧
    (s.onCmd i f).tenants = s.tenants ∧ (s.onCmd i f).sec = s.sec ∧ (s.onCmd i f).hbm = s.hbm ∧ (s.onCmd i f).emb =
    s.emb ∧ (s.onCmd i f).srch = s.srch ∧ (s.onCmd i f).fam = s.fam ∧ (s.onCmd i f).ckp = s.ckp ∧ (s.onCmd i
    f).migrations = s.migrations ∧ (s.onCmd i f).tel = s.tel ∧ (s.onCmd i f).plat = s.plat ∧ (s.onCmd i f).out = s.out :=
  ⟨rfl, rfl, rfl, rfl, rfl, rfl, rfl, rfl, rfl, rfl, rfl, rfl, rfl, rfl, rfl, rfl, rfl, rfl, rfl, rfl, rfl, rfl, rfl,
   rfl, rfl, rfl, rfl, rfl, rfl, rfl, rfl, rfl, rfl, rfl, rfl, rfl, rfl, rfl, rfl, rfl, rfl⟩

@[simp] theorem State.waitCmd_frame (s : State) (i : Nat) :
    (s.waitCmd i).pending = s.pending ∧ (s.waitCmd i).tick = s.tick ∧ (s.waitCmd i).bootEpoch = s.bootEpoch ∧
    (s.waitCmd i).free = s.free ∧ (s.waitCmd i).regs = s.regs ∧ (s.waitCmd i).shadow = s.shadow ∧ (s.waitCmd
    i).commons = s.commons ∧ (s.waitCmd i).rings = s.rings ∧ (s.waitCmd i).unmasked = s.unmasked ∧ (s.waitCmd
    i).msixPending = s.msixPending ∧ (s.waitCmd i).msixTable = s.msixTable ∧ (s.waitCmd i).sent = s.sent ∧ (s.waitCmd
    i).window = s.window ∧ (s.waitCmd i).host = s.host ∧ (s.waitCmd i).fabric = s.fabric ∧ (s.waitCmd i).nextCmd =
    s.nextCmd ∧ (s.waitCmd i).adm = s.adm ∧ (s.waitCmd i).sdir = s.sdir ∧ (s.waitCmd i).cane = s.cane ∧ (s.waitCmd
    i).stm = s.stm ∧ (s.waitCmd i).jobs = s.jobs ∧ (s.waitCmd i).nextJob = s.nextJob ∧ (s.waitCmd i).sources =
    s.sources ∧ (s.waitCmd i).models = s.models ∧ (s.waitCmd i).vocabs = s.vocabs ∧ (s.waitCmd i).objects = s.objects
    ∧ (s.waitCmd i).cores = s.cores ∧ (s.waitCmd i).windows = s.windows ∧ (s.waitCmd i).gaf = s.gaf ∧ (s.waitCmd
    i).freeze = s.freeze ∧ (s.waitCmd i).tenants = s.tenants ∧ (s.waitCmd i).sec = s.sec ∧ (s.waitCmd i).hbm = s.hbm ∧
    (s.waitCmd i).emb = s.emb ∧ (s.waitCmd i).srch = s.srch ∧ (s.waitCmd i).fam = s.fam ∧ (s.waitCmd i).ckp = s.ckp ∧
    (s.waitCmd i).migrations = s.migrations ∧ (s.waitCmd i).tel = s.tel ∧ (s.waitCmd i).plat = s.plat ∧ (s.waitCmd
    i).out = s.out :=
  ⟨rfl, rfl, rfl, rfl, rfl, rfl, rfl, rfl, rfl, rfl, rfl, rfl, rfl, rfl, rfl, rfl, rfl, rfl, rfl, rfl, rfl, rfl, rfl,
   rfl, rfl, rfl, rfl, rfl, rfl, rfl, rfl, rfl, rfl, rfl, rfl, rfl, rfl, rfl, rfl, rfl, rfl⟩

@[simp] theorem State.runCmd_frame (s : State) (i : Nat) (b : Bool) :
    (s.runCmd i b).pending = s.pending ∧ (s.runCmd i b).tick = s.tick ∧ (s.runCmd i b).bootEpoch = s.bootEpoch ∧
    (s.runCmd i b).free = s.free ∧ (s.runCmd i b).regs = s.regs ∧ (s.runCmd i b).shadow = s.shadow ∧ (s.runCmd i
    b).commons = s.commons ∧ (s.runCmd i b).rings = s.rings ∧ (s.runCmd i b).unmasked = s.unmasked ∧ (s.runCmd i
    b).msixPending = s.msixPending ∧ (s.runCmd i b).msixTable = s.msixTable ∧ (s.runCmd i b).sent = s.sent ∧ (s.runCmd
    i b).window = s.window ∧ (s.runCmd i b).host = s.host ∧ (s.runCmd i b).fabric = s.fabric ∧ (s.runCmd i b).nextCmd
    = s.nextCmd ∧ (s.runCmd i b).adm = s.adm ∧ (s.runCmd i b).sdir = s.sdir ∧ (s.runCmd i b).cane = s.cane ∧ (s.runCmd
    i b).stm = s.stm ∧ (s.runCmd i b).jobs = s.jobs ∧ (s.runCmd i b).nextJob = s.nextJob ∧ (s.runCmd i b).sources =
    s.sources ∧ (s.runCmd i b).models = s.models ∧ (s.runCmd i b).vocabs = s.vocabs ∧ (s.runCmd i b).objects =
    s.objects ∧ (s.runCmd i b).cores = s.cores ∧ (s.runCmd i b).windows = s.windows ∧ (s.runCmd i b).gaf = s.gaf ∧
    (s.runCmd i b).freeze = s.freeze ∧ (s.runCmd i b).tenants = s.tenants ∧ (s.runCmd i b).sec = s.sec ∧ (s.runCmd i
    b).hbm = s.hbm ∧ (s.runCmd i b).emb = s.emb ∧ (s.runCmd i b).srch = s.srch ∧ (s.runCmd i b).fam = s.fam ∧
    (s.runCmd i b).ckp = s.ckp ∧ (s.runCmd i b).migrations = s.migrations ∧ (s.runCmd i b).tel = s.tel ∧ (s.runCmd i
    b).plat = s.plat ∧ (s.runCmd i b).out = s.out :=
  ⟨rfl, rfl, rfl, rfl, rfl, rfl, rfl, rfl, rfl, rfl, rfl, rfl, rfl, rfl, rfl, rfl, rfl, rfl, rfl, rfl, rfl, rfl, rfl,
   rfl, rfl, rfl, rfl, rfl, rfl, rfl, rfl, rfl, rfl, rfl, rfl, rfl, rfl, rfl, rfl, rfl, rfl⟩

@[simp] theorem State.setEn_frame (s : State) (p : Nat) (b : Bool) :
    (s.setEn p b).pending = s.pending ∧ (s.setEn p b).tick = s.tick ∧ (s.setEn p b).bootEpoch = s.bootEpoch ∧ (s.setEn
    p b).free = s.free ∧ (s.setEn p b).regs = s.regs ∧ (s.setEn p b).shadow = s.shadow ∧ (s.setEn p b).rings = s.rings
    ∧ (s.setEn p b).unmasked = s.unmasked ∧ (s.setEn p b).msixPending = s.msixPending ∧ (s.setEn p b).msixTable =
    s.msixTable ∧ (s.setEn p b).sent = s.sent ∧ (s.setEn p b).window = s.window ∧ (s.setEn p b).host = s.host ∧
    (s.setEn p b).fabric = s.fabric ∧ (s.setEn p b).cmds = s.cmds ∧ (s.setEn p b).nextCmd = s.nextCmd ∧ (s.setEn p
    b).adm = s.adm ∧ (s.setEn p b).sdir = s.sdir ∧ (s.setEn p b).cane = s.cane ∧ (s.setEn p b).stm = s.stm ∧ (s.setEn
    p b).jobs = s.jobs ∧ (s.setEn p b).nextJob = s.nextJob ∧ (s.setEn p b).sources = s.sources ∧ (s.setEn p b).models
    = s.models ∧ (s.setEn p b).vocabs = s.vocabs ∧ (s.setEn p b).objects = s.objects ∧ (s.setEn p b).cores = s.cores ∧
    (s.setEn p b).windows = s.windows ∧ (s.setEn p b).gaf = s.gaf ∧ (s.setEn p b).freeze = s.freeze ∧ (s.setEn p
    b).tenants = s.tenants ∧ (s.setEn p b).sec = s.sec ∧ (s.setEn p b).hbm = s.hbm ∧ (s.setEn p b).emb = s.emb ∧
    (s.setEn p b).srch = s.srch ∧ (s.setEn p b).fam = s.fam ∧ (s.setEn p b).ckp = s.ckp ∧ (s.setEn p b).migrations =
    s.migrations ∧ (s.setEn p b).tel = s.tel ∧ (s.setEn p b).plat = s.plat ∧ (s.setEn p b).out = s.out :=
  ⟨rfl, rfl, rfl, rfl, rfl, rfl, rfl, rfl, rfl, rfl, rfl, rfl, rfl, rfl, rfl, rfl, rfl, rfl, rfl, rfl, rfl, rfl, rfl,
   rfl, rfl, rfl, rfl, rfl, rfl, rfl, rfl, rfl, rfl, rfl, rfl, rfl, rfl, rfl, rfl, rfl, rfl⟩

@[simp] theorem State.disableBlock_frame (s : State) (p : Nat) :
    (s.disableBlock p).pending = s.pending ∧ (s.disableBlock p).tick = s.tick ∧ (s.disableBlock p).bootEpoch =
    s.bootEpoch ∧ (s.disableBlock p).free = s.free ∧ (s.disableBlock p).regs = s.regs ∧ (s.disableBlock p).shadow =
    s.shadow ∧ (s.disableBlock p).rings = s.rings ∧ (s.disableBlock p).unmasked = s.unmasked ∧ (s.disableBlock
    p).msixPending = s.msixPending ∧ (s.disableBlock p).msixTable = s.msixTable ∧ (s.disableBlock p).sent = s.sent ∧
    (s.disableBlock p).window = s.window ∧ (s.disableBlock p).host = s.host ∧ (s.disableBlock p).fabric = s.fabric ∧
    (s.disableBlock p).cmds = s.cmds ∧ (s.disableBlock p).nextCmd = s.nextCmd ∧ (s.disableBlock p).adm = s.adm ∧
    (s.disableBlock p).sdir = s.sdir ∧ (s.disableBlock p).cane = s.cane ∧ (s.disableBlock p).stm = s.stm ∧
    (s.disableBlock p).jobs = s.jobs ∧ (s.disableBlock p).nextJob = s.nextJob ∧ (s.disableBlock p).sources = s.sources
    ∧ (s.disableBlock p).models = s.models ∧ (s.disableBlock p).vocabs = s.vocabs ∧ (s.disableBlock p).objects =
    s.objects ∧ (s.disableBlock p).cores = s.cores ∧ (s.disableBlock p).windows = s.windows ∧ (s.disableBlock p).gaf =
    s.gaf ∧ (s.disableBlock p).freeze = s.freeze ∧ (s.disableBlock p).tenants = s.tenants ∧ (s.disableBlock p).sec =
    s.sec ∧ (s.disableBlock p).hbm = s.hbm ∧ (s.disableBlock p).emb = s.emb ∧ (s.disableBlock p).srch = s.srch ∧
    (s.disableBlock p).fam = s.fam ∧ (s.disableBlock p).ckp = s.ckp ∧ (s.disableBlock p).migrations = s.migrations ∧
    (s.disableBlock p).tel = s.tel ∧ (s.disableBlock p).plat = s.plat ∧ (s.disableBlock p).out = s.out :=
  ⟨rfl, rfl, rfl, rfl, rfl, rfl, rfl, rfl, rfl, rfl, rfl, rfl, rfl, rfl, rfl, rfl, rfl, rfl, rfl, rfl, rfl, rfl, rfl,
   rfl, rfl, rfl, rfl, rfl, rfl, rfl, rfl, rfl, rfl, rfl, rfl, rfl, rfl, rfl, rfl, rfl, rfl⟩

@[simp] theorem State.setCore_frame (s : State) (n : Nat) (c : Core) :
    (s.setCore n c).pending = s.pending ∧ (s.setCore n c).tick = s.tick ∧ (s.setCore n c).bootEpoch = s.bootEpoch ∧
    (s.setCore n c).free = s.free ∧ (s.setCore n c).regs = s.regs ∧ (s.setCore n c).shadow = s.shadow ∧ (s.setCore n
    c).commons = s.commons ∧ (s.setCore n c).rings = s.rings ∧ (s.setCore n c).unmasked = s.unmasked ∧ (s.setCore n
    c).msixPending = s.msixPending ∧ (s.setCore n c).msixTable = s.msixTable ∧ (s.setCore n c).sent = s.sent ∧
    (s.setCore n c).window = s.window ∧ (s.setCore n c).host = s.host ∧ (s.setCore n c).fabric = s.fabric ∧ (s.setCore
    n c).cmds = s.cmds ∧ (s.setCore n c).nextCmd = s.nextCmd ∧ (s.setCore n c).adm = s.adm ∧ (s.setCore n c).sdir =
    s.sdir ∧ (s.setCore n c).cane = s.cane ∧ (s.setCore n c).stm = s.stm ∧ (s.setCore n c).jobs = s.jobs ∧ (s.setCore
    n c).nextJob = s.nextJob ∧ (s.setCore n c).sources = s.sources ∧ (s.setCore n c).models = s.models ∧ (s.setCore n
    c).vocabs = s.vocabs ∧ (s.setCore n c).objects = s.objects ∧ (s.setCore n c).windows = s.windows ∧ (s.setCore n
    c).gaf = s.gaf ∧ (s.setCore n c).freeze = s.freeze ∧ (s.setCore n c).tenants = s.tenants ∧ (s.setCore n c).sec =
    s.sec ∧ (s.setCore n c).hbm = s.hbm ∧ (s.setCore n c).emb = s.emb ∧ (s.setCore n c).srch = s.srch ∧ (s.setCore n
    c).fam = s.fam ∧ (s.setCore n c).ckp = s.ckp ∧ (s.setCore n c).migrations = s.migrations ∧ (s.setCore n c).tel =
    s.tel ∧ (s.setCore n c).plat = s.plat ∧ (s.setCore n c).out = s.out :=
  ⟨rfl, rfl, rfl, rfl, rfl, rfl, rfl, rfl, rfl, rfl, rfl, rfl, rfl, rfl, rfl, rfl, rfl, rfl, rfl, rfl, rfl, rfl, rfl,
   rfl, rfl, rfl, rfl, rfl, rfl, rfl, rfl, rfl, rfl, rfl, rfl, rfl, rfl, rfl, rfl, rfl, rfl⟩

@[simp] theorem State.onPlat_frame (s : State) (f : Plat → Plat) :
    (s.onPlat f).pending = s.pending ∧ (s.onPlat f).tick = s.tick ∧ (s.onPlat f).bootEpoch = s.bootEpoch ∧ (s.onPlat
    f).free = s.free ∧ (s.onPlat f).regs = s.regs ∧ (s.onPlat f).shadow = s.shadow ∧ (s.onPlat f).commons = s.commons
    ∧ (s.onPlat f).rings = s.rings ∧ (s.onPlat f).unmasked = s.unmasked ∧ (s.onPlat f).msixPending = s.msixPending ∧
    (s.onPlat f).msixTable = s.msixTable ∧ (s.onPlat f).sent = s.sent ∧ (s.onPlat f).window = s.window ∧ (s.onPlat
    f).host = s.host ∧ (s.onPlat f).fabric = s.fabric ∧ (s.onPlat f).cmds = s.cmds ∧ (s.onPlat f).nextCmd = s.nextCmd
    ∧ (s.onPlat f).adm = s.adm ∧ (s.onPlat f).sdir = s.sdir ∧ (s.onPlat f).cane = s.cane ∧ (s.onPlat f).stm = s.stm ∧
    (s.onPlat f).jobs = s.jobs ∧ (s.onPlat f).nextJob = s.nextJob ∧ (s.onPlat f).sources = s.sources ∧ (s.onPlat
    f).models = s.models ∧ (s.onPlat f).vocabs = s.vocabs ∧ (s.onPlat f).objects = s.objects ∧ (s.onPlat f).cores =
    s.cores ∧ (s.onPlat f).windows = s.windows ∧ (s.onPlat f).gaf = s.gaf ∧ (s.onPlat f).freeze = s.freeze ∧ (s.onPlat
    f).tenants = s.tenants ∧ (s.onPlat f).sec = s.sec ∧ (s.onPlat f).hbm = s.hbm ∧ (s.onPlat f).emb = s.emb ∧
    (s.onPlat f).srch = s.srch ∧ (s.onPlat f).fam = s.fam ∧ (s.onPlat f).ckp = s.ckp ∧ (s.onPlat f).migrations =
    s.migrations ∧ (s.onPlat f).tel = s.tel ∧ (s.onPlat f).out = s.out :=
  ⟨rfl, rfl, rfl, rfl, rfl, rfl, rfl, rfl, rfl, rfl, rfl, rfl, rfl, rfl, rfl, rfl, rfl, rfl, rfl, rfl, rfl, rfl, rfl,
   rfl, rfl, rfl, rfl, rfl, rfl, rfl, rfl, rfl, rfl, rfl, rfl, rfl, rfl, rfl, rfl, rfl, rfl⟩

@[simp] theorem State.setPort_frame (s : State) (n : Nat) (p : Port) :
    (s.setPort n p).pending = s.pending ∧ (s.setPort n p).tick = s.tick ∧ (s.setPort n p).bootEpoch = s.bootEpoch ∧
    (s.setPort n p).free = s.free ∧ (s.setPort n p).regs = s.regs ∧ (s.setPort n p).shadow = s.shadow ∧ (s.setPort n
    p).commons = s.commons ∧ (s.setPort n p).rings = s.rings ∧ (s.setPort n p).unmasked = s.unmasked ∧ (s.setPort n
    p).msixPending = s.msixPending ∧ (s.setPort n p).msixTable = s.msixTable ∧ (s.setPort n p).sent = s.sent ∧
    (s.setPort n p).window = s.window ∧ (s.setPort n p).host = s.host ∧ (s.setPort n p).fabric = s.fabric ∧ (s.setPort
    n p).cmds = s.cmds ∧ (s.setPort n p).nextCmd = s.nextCmd ∧ (s.setPort n p).adm = s.adm ∧ (s.setPort n p).sdir =
    s.sdir ∧ (s.setPort n p).cane = s.cane ∧ (s.setPort n p).stm = s.stm ∧ (s.setPort n p).jobs = s.jobs ∧ (s.setPort
    n p).nextJob = s.nextJob ∧ (s.setPort n p).sources = s.sources ∧ (s.setPort n p).models = s.models ∧ (s.setPort n
    p).vocabs = s.vocabs ∧ (s.setPort n p).objects = s.objects ∧ (s.setPort n p).cores = s.cores ∧ (s.setPort n
    p).windows = s.windows ∧ (s.setPort n p).gaf = s.gaf ∧ (s.setPort n p).freeze = s.freeze ∧ (s.setPort n p).tenants
    = s.tenants ∧ (s.setPort n p).sec = s.sec ∧ (s.setPort n p).hbm = s.hbm ∧ (s.setPort n p).emb = s.emb ∧ (s.setPort
    n p).srch = s.srch ∧ (s.setPort n p).ckp = s.ckp ∧ (s.setPort n p).migrations = s.migrations ∧ (s.setPort n p).tel
    = s.tel ∧ (s.setPort n p).plat = s.plat ∧ (s.setPort n p).out = s.out :=
  ⟨rfl, rfl, rfl, rfl, rfl, rfl, rfl, rfl, rfl, rfl, rfl, rfl, rfl, rfl, rfl, rfl, rfl, rfl, rfl, rfl, rfl, rfl, rfl,
   rfl, rfl, rfl, rfl, rfl, rfl, rfl, rfl, rfl, rfl, rfl, rfl, rfl, rfl, rfl, rfl, rfl, rfl⟩

@[simp] theorem State.setColl_frame (s : State) (k : Nat) (c : Coll) :
    (s.setColl k c).pending = s.pending ∧ (s.setColl k c).tick = s.tick ∧ (s.setColl k c).bootEpoch = s.bootEpoch ∧
    (s.setColl k c).free = s.free ∧ (s.setColl k c).regs = s.regs ∧ (s.setColl k c).shadow = s.shadow ∧ (s.setColl k
    c).commons = s.commons ∧ (s.setColl k c).rings = s.rings ∧ (s.setColl k c).unmasked = s.unmasked ∧ (s.setColl k
    c).msixPending = s.msixPending ∧ (s.setColl k c).msixTable = s.msixTable ∧ (s.setColl k c).sent = s.sent ∧
    (s.setColl k c).window = s.window ∧ (s.setColl k c).host = s.host ∧ (s.setColl k c).fabric = s.fabric ∧ (s.setColl
    k c).cmds = s.cmds ∧ (s.setColl k c).nextCmd = s.nextCmd ∧ (s.setColl k c).adm = s.adm ∧ (s.setColl k c).sdir =
    s.sdir ∧ (s.setColl k c).cane = s.cane ∧ (s.setColl k c).stm = s.stm ∧ (s.setColl k c).jobs = s.jobs ∧ (s.setColl
    k c).nextJob = s.nextJob ∧ (s.setColl k c).sources = s.sources ∧ (s.setColl k c).models = s.models ∧ (s.setColl k
    c).vocabs = s.vocabs ∧ (s.setColl k c).objects = s.objects ∧ (s.setColl k c).cores = s.cores ∧ (s.setColl k
    c).windows = s.windows ∧ (s.setColl k c).gaf = s.gaf ∧ (s.setColl k c).freeze = s.freeze ∧ (s.setColl k c).tenants
    = s.tenants ∧ (s.setColl k c).sec = s.sec ∧ (s.setColl k c).hbm = s.hbm ∧ (s.setColl k c).emb = s.emb ∧ (s.setColl
    k c).fam = s.fam ∧ (s.setColl k c).ckp = s.ckp ∧ (s.setColl k c).migrations = s.migrations ∧ (s.setColl k c).tel =
    s.tel ∧ (s.setColl k c).plat = s.plat ∧ (s.setColl k c).out = s.out :=
  ⟨rfl, rfl, rfl, rfl, rfl, rfl, rfl, rfl, rfl, rfl, rfl, rfl, rfl, rfl, rfl, rfl, rfl, rfl, rfl, rfl, rfl, rfl, rfl,
   rfl, rfl, rfl, rfl, rfl, rfl, rfl, rfl, rfl, rfl, rfl, rfl, rfl, rfl, rfl, rfl, rfl, rfl⟩

@[simp] theorem State.setHot_frame (s : State) (i : Nat) (h : HotRow) :
    (s.setHot i h).pending = s.pending ∧ (s.setHot i h).tick = s.tick ∧ (s.setHot i h).bootEpoch = s.bootEpoch ∧
    (s.setHot i h).free = s.free ∧ (s.setHot i h).regs = s.regs ∧ (s.setHot i h).shadow = s.shadow ∧ (s.setHot i
    h).commons = s.commons ∧ (s.setHot i h).rings = s.rings ∧ (s.setHot i h).unmasked = s.unmasked ∧ (s.setHot i
    h).msixPending = s.msixPending ∧ (s.setHot i h).msixTable = s.msixTable ∧ (s.setHot i h).sent = s.sent ∧ (s.setHot
    i h).window = s.window ∧ (s.setHot i h).host = s.host ∧ (s.setHot i h).fabric = s.fabric ∧ (s.setHot i h).cmds =
    s.cmds ∧ (s.setHot i h).nextCmd = s.nextCmd ∧ (s.setHot i h).adm = s.adm ∧ (s.setHot i h).sdir = s.sdir ∧
    (s.setHot i h).cane = s.cane ∧ (s.setHot i h).stm = s.stm ∧ (s.setHot i h).jobs = s.jobs ∧ (s.setHot i h).nextJob
    = s.nextJob ∧ (s.setHot i h).sources = s.sources ∧ (s.setHot i h).models = s.models ∧ (s.setHot i h).vocabs =
    s.vocabs ∧ (s.setHot i h).objects = s.objects ∧ (s.setHot i h).cores = s.cores ∧ (s.setHot i h).windows =
    s.windows ∧ (s.setHot i h).gaf = s.gaf ∧ (s.setHot i h).freeze = s.freeze ∧ (s.setHot i h).tenants = s.tenants ∧
    (s.setHot i h).sec = s.sec ∧ (s.setHot i h).hbm = s.hbm ∧ (s.setHot i h).srch = s.srch ∧ (s.setHot i h).fam =
    s.fam ∧ (s.setHot i h).ckp = s.ckp ∧ (s.setHot i h).migrations = s.migrations ∧ (s.setHot i h).tel = s.tel ∧
    (s.setHot i h).plat = s.plat ∧ (s.setHot i h).out = s.out :=
  ⟨rfl, rfl, rfl, rfl, rfl, rfl, rfl, rfl, rfl, rfl, rfl, rfl, rfl, rfl, rfl, rfl, rfl, rfl, rfl, rfl, rfl, rfl, rfl,
   rfl, rfl, rfl, rfl, rfl, rfl, rfl, rfl, rfl, rfl, rfl, rfl, rfl, rfl, rfl, rfl, rfl, rfl⟩

@[simp] theorem State.onSec_frame (s : State) (f : Sec → Sec) :
    (s.onSec f).pending = s.pending ∧ (s.onSec f).tick = s.tick ∧ (s.onSec f).bootEpoch = s.bootEpoch ∧ (s.onSec
    f).free = s.free ∧ (s.onSec f).regs = s.regs ∧ (s.onSec f).shadow = s.shadow ∧ (s.onSec f).commons = s.commons ∧
    (s.onSec f).rings = s.rings ∧ (s.onSec f).unmasked = s.unmasked ∧ (s.onSec f).msixPending = s.msixPending ∧
    (s.onSec f).msixTable = s.msixTable ∧ (s.onSec f).sent = s.sent ∧ (s.onSec f).window = s.window ∧ (s.onSec f).host
    = s.host ∧ (s.onSec f).fabric = s.fabric ∧ (s.onSec f).cmds = s.cmds ∧ (s.onSec f).nextCmd = s.nextCmd ∧ (s.onSec
    f).adm = s.adm ∧ (s.onSec f).sdir = s.sdir ∧ (s.onSec f).cane = s.cane ∧ (s.onSec f).stm = s.stm ∧ (s.onSec
    f).jobs = s.jobs ∧ (s.onSec f).nextJob = s.nextJob ∧ (s.onSec f).sources = s.sources ∧ (s.onSec f).models =
    s.models ∧ (s.onSec f).vocabs = s.vocabs ∧ (s.onSec f).objects = s.objects ∧ (s.onSec f).cores = s.cores ∧
    (s.onSec f).windows = s.windows ∧ (s.onSec f).gaf = s.gaf ∧ (s.onSec f).freeze = s.freeze ∧ (s.onSec f).tenants =
    s.tenants ∧ (s.onSec f).hbm = s.hbm ∧ (s.onSec f).emb = s.emb ∧ (s.onSec f).srch = s.srch ∧ (s.onSec f).fam =
    s.fam ∧ (s.onSec f).ckp = s.ckp ∧ (s.onSec f).migrations = s.migrations ∧ (s.onSec f).tel = s.tel ∧ (s.onSec
    f).plat = s.plat ∧ (s.onSec f).out = s.out :=
  ⟨rfl, rfl, rfl, rfl, rfl, rfl, rfl, rfl, rfl, rfl, rfl, rfl, rfl, rfl, rfl, rfl, rfl, rfl, rfl, rfl, rfl, rfl, rfl,
   rfl, rfl, rfl, rfl, rfl, rfl, rfl, rfl, rfl, rfl, rfl, rfl, rfl, rfl, rfl, rfl, rfl, rfl⟩

@[simp] theorem State.setTenant_frame (s : State) (t : Nat) (x : Tenant) :
    (s.setTenant t x).pending = s.pending ∧ (s.setTenant t x).tick = s.tick ∧ (s.setTenant t x).bootEpoch =
    s.bootEpoch ∧ (s.setTenant t x).free = s.free ∧ (s.setTenant t x).regs = s.regs ∧ (s.setTenant t x).shadow =
    s.shadow ∧ (s.setTenant t x).commons = s.commons ∧ (s.setTenant t x).rings = s.rings ∧ (s.setTenant t x).unmasked
    = s.unmasked ∧ (s.setTenant t x).msixPending = s.msixPending ∧ (s.setTenant t x).msixTable = s.msixTable ∧
    (s.setTenant t x).sent = s.sent ∧ (s.setTenant t x).window = s.window ∧ (s.setTenant t x).host = s.host ∧
    (s.setTenant t x).fabric = s.fabric ∧ (s.setTenant t x).cmds = s.cmds ∧ (s.setTenant t x).nextCmd = s.nextCmd ∧
    (s.setTenant t x).adm = s.adm ∧ (s.setTenant t x).sdir = s.sdir ∧ (s.setTenant t x).cane = s.cane ∧ (s.setTenant t
    x).stm = s.stm ∧ (s.setTenant t x).jobs = s.jobs ∧ (s.setTenant t x).nextJob = s.nextJob ∧ (s.setTenant t
    x).sources = s.sources ∧ (s.setTenant t x).models = s.models ∧ (s.setTenant t x).vocabs = s.vocabs ∧ (s.setTenant
    t x).objects = s.objects ∧ (s.setTenant t x).cores = s.cores ∧ (s.setTenant t x).windows = s.windows ∧
    (s.setTenant t x).gaf = s.gaf ∧ (s.setTenant t x).freeze = s.freeze ∧ (s.setTenant t x).sec = s.sec ∧ (s.setTenant
    t x).hbm = s.hbm ∧ (s.setTenant t x).emb = s.emb ∧ (s.setTenant t x).srch = s.srch ∧ (s.setTenant t x).fam = s.fam
    ∧ (s.setTenant t x).ckp = s.ckp ∧ (s.setTenant t x).migrations = s.migrations ∧ (s.setTenant t x).tel = s.tel ∧
    (s.setTenant t x).plat = s.plat ∧ (s.setTenant t x).out = s.out :=
  ⟨rfl, rfl, rfl, rfl, rfl, rfl, rfl, rfl, rfl, rfl, rfl, rfl, rfl, rfl, rfl, rfl, rfl, rfl, rfl, rfl, rfl, rfl, rfl,
   rfl, rfl, rfl, rfl, rfl, rfl, rfl, rfl, rfl, rfl, rfl, rfl, rfl, rfl, rfl, rfl, rfl, rfl⟩

@[simp] theorem State.send_frame (s : State) (m : OutMsg) :
    (s.send m).pending = s.pending ∧ (s.send m).tick = s.tick ∧ (s.send m).bootEpoch = s.bootEpoch ∧ (s.send m).free =
    s.free ∧ (s.send m).regs = s.regs ∧ (s.send m).shadow = s.shadow ∧ (s.send m).commons = s.commons ∧ (s.send
    m).rings = s.rings ∧ (s.send m).unmasked = s.unmasked ∧ (s.send m).msixPending = s.msixPending ∧ (s.send
    m).msixTable = s.msixTable ∧ (s.send m).sent = s.sent ∧ (s.send m).window = s.window ∧ (s.send m).host = s.host ∧
    (s.send m).fabric = s.fabric ∧ (s.send m).cmds = s.cmds ∧ (s.send m).nextCmd = s.nextCmd ∧ (s.send m).adm = s.adm
    ∧ (s.send m).sdir = s.sdir ∧ (s.send m).cane = s.cane ∧ (s.send m).stm = s.stm ∧ (s.send m).jobs = s.jobs ∧
    (s.send m).nextJob = s.nextJob ∧ (s.send m).sources = s.sources ∧ (s.send m).models = s.models ∧ (s.send m).vocabs
    = s.vocabs ∧ (s.send m).objects = s.objects ∧ (s.send m).cores = s.cores ∧ (s.send m).windows = s.windows ∧
    (s.send m).gaf = s.gaf ∧ (s.send m).freeze = s.freeze ∧ (s.send m).tenants = s.tenants ∧ (s.send m).sec = s.sec ∧
    (s.send m).hbm = s.hbm ∧ (s.send m).emb = s.emb ∧ (s.send m).srch = s.srch ∧ (s.send m).fam = s.fam ∧ (s.send
    m).ckp = s.ckp ∧ (s.send m).migrations = s.migrations ∧ (s.send m).tel = s.tel ∧ (s.send m).plat = s.plat :=
  ⟨rfl, rfl, rfl, rfl, rfl, rfl, rfl, rfl, rfl, rfl, rfl, rfl, rfl, rfl, rfl, rfl, rfl, rfl, rfl, rfl, rfl, rfl, rfl,
   rfl, rfl, rfl, rfl, rfl, rfl, rfl, rfl, rfl, rfl, rfl, rfl, rfl, rfl, rfl, rfl, rfl, rfl⟩

@[simp] theorem State.setStream_frame (s : State) (n : Nat) (x : IdeStream) :
    (s.setStream n x).pending = s.pending ∧ (s.setStream n x).tick = s.tick ∧ (s.setStream n x).bootEpoch =
    s.bootEpoch ∧ (s.setStream n x).free = s.free ∧ (s.setStream n x).regs = s.regs ∧ (s.setStream n x).shadow =
    s.shadow ∧ (s.setStream n x).commons = s.commons ∧ (s.setStream n x).rings = s.rings ∧ (s.setStream n x).unmasked
    = s.unmasked ∧ (s.setStream n x).msixPending = s.msixPending ∧ (s.setStream n x).msixTable = s.msixTable ∧
    (s.setStream n x).sent = s.sent ∧ (s.setStream n x).window = s.window ∧ (s.setStream n x).host = s.host ∧
    (s.setStream n x).fabric = s.fabric ∧ (s.setStream n x).cmds = s.cmds ∧ (s.setStream n x).nextCmd = s.nextCmd ∧
    (s.setStream n x).adm = s.adm ∧ (s.setStream n x).sdir = s.sdir ∧ (s.setStream n x).cane = s.cane ∧ (s.setStream n
    x).stm = s.stm ∧ (s.setStream n x).jobs = s.jobs ∧ (s.setStream n x).nextJob = s.nextJob ∧ (s.setStream n
    x).sources = s.sources ∧ (s.setStream n x).models = s.models ∧ (s.setStream n x).vocabs = s.vocabs ∧ (s.setStream
    n x).objects = s.objects ∧ (s.setStream n x).cores = s.cores ∧ (s.setStream n x).windows = s.windows ∧
    (s.setStream n x).gaf = s.gaf ∧ (s.setStream n x).freeze = s.freeze ∧ (s.setStream n x).tenants = s.tenants ∧
    (s.setStream n x).hbm = s.hbm ∧ (s.setStream n x).emb = s.emb ∧ (s.setStream n x).srch = s.srch ∧ (s.setStream n
    x).fam = s.fam ∧ (s.setStream n x).ckp = s.ckp ∧ (s.setStream n x).migrations = s.migrations ∧ (s.setStream n
    x).tel = s.tel ∧ (s.setStream n x).plat = s.plat ∧ (s.setStream n x).out = s.out :=
  ⟨rfl, rfl, rfl, rfl, rfl, rfl, rfl, rfl, rfl, rfl, rfl, rfl, rfl, rfl, rfl, rfl, rfl, rfl, rfl, rfl, rfl, rfl, rfl,
   rfl, rfl, rfl, rfl, rfl, rfl, rfl, rfl, rfl, rfl, rfl, rfl, rfl, rfl, rfl, rfl, rfl, rfl⟩

@[simp] theorem State.onTel_frame (s : State) (f : Tel → Tel) :
    (s.onTel f).pending = s.pending ∧ (s.onTel f).tick = s.tick ∧ (s.onTel f).bootEpoch = s.bootEpoch ∧ (s.onTel
    f).free = s.free ∧ (s.onTel f).regs = s.regs ∧ (s.onTel f).shadow = s.shadow ∧ (s.onTel f).commons = s.commons ∧
    (s.onTel f).rings = s.rings ∧ (s.onTel f).unmasked = s.unmasked ∧ (s.onTel f).msixPending = s.msixPending ∧
    (s.onTel f).msixTable = s.msixTable ∧ (s.onTel f).sent = s.sent ∧ (s.onTel f).window = s.window ∧ (s.onTel f).host
    = s.host ∧ (s.onTel f).fabric = s.fabric ∧ (s.onTel f).cmds = s.cmds ∧ (s.onTel f).nextCmd = s.nextCmd ∧ (s.onTel
    f).adm = s.adm ∧ (s.onTel f).sdir = s.sdir ∧ (s.onTel f).cane = s.cane ∧ (s.onTel f).stm = s.stm ∧ (s.onTel
    f).jobs = s.jobs ∧ (s.onTel f).nextJob = s.nextJob ∧ (s.onTel f).sources = s.sources ∧ (s.onTel f).models =
    s.models ∧ (s.onTel f).vocabs = s.vocabs ∧ (s.onTel f).objects = s.objects ∧ (s.onTel f).cores = s.cores ∧
    (s.onTel f).windows = s.windows ∧ (s.onTel f).gaf = s.gaf ∧ (s.onTel f).freeze = s.freeze ∧ (s.onTel f).tenants =
    s.tenants ∧ (s.onTel f).sec = s.sec ∧ (s.onTel f).hbm = s.hbm ∧ (s.onTel f).emb = s.emb ∧ (s.onTel f).srch =
    s.srch ∧ (s.onTel f).fam = s.fam ∧ (s.onTel f).ckp = s.ckp ∧ (s.onTel f).migrations = s.migrations ∧ (s.onTel
    f).plat = s.plat ∧ (s.onTel f).out = s.out :=
  ⟨rfl, rfl, rfl, rfl, rfl, rfl, rfl, rfl, rfl, rfl, rfl, rfl, rfl, rfl, rfl, rfl, rfl, rfl, rfl, rfl, rfl, rfl, rfl,
   rfl, rfl, rfl, rfl, rfl, rfl, rfl, rfl, rfl, rfl, rfl, rfl, rfl, rfl, rfl, rfl, rfl, rfl⟩

/-! ## What a read of the written field gives -/

theorem Reg.ctorIdx_inj {r q : Reg} (h : r.ctorIdx = q.ctorIdx) : r = q := by
  rw [← Reg.ofNat_ctorIdx r, ← Reg.ofNat_ctorIdx q, h]

/-- The keys of two fields never meet. -/
theorem Reg.key_ne {r q : Reg} {i j : Nat} (h : r ≠ q) (hi : i < 4294967296) (hj : j < 4294967296) : r.key i ≠ q.key j := by
  unfold Reg.key
  intro e
  apply h
  apply Reg.ctorIdx_inj
  omega

@[simp] theorem State.reg_setReg_self (s : State) (r : Reg) (v i : Nat) :
    (s.setReg r v i).reg r i = v % 2 ^ r.desc.width := by
  simp only [State.setReg, State.reg]
  split
  · next h => simp [h]
  · simp

theorem State.reg_setReg_of_key_ne (s : State) (r q : Reg) (v i j : Nat) (h : q.key j ≠ r.key i) :
    (s.setReg r v i).reg q j = s.reg q j := by
  simp only [State.setReg, State.reg]
  split <;> simp [Map.get?_set, Map.get?_erase, h]

theorem State.reg_setReg_ne (s : State) (r q : Reg) (v i j : Nat) (h : q ≠ r) (hi : i < 4294967296)
    (hj : j < 4294967296) : (s.setReg r v i).reg q j = s.reg q j :=
  State.reg_setReg_of_key_ne s r q v i j (Reg.key_ne h hj hi)

/-- The value of a field depends on the table of fields alone. -/
theorem State.reg_congr {s t : State} (h : t.regs = s.regs) (r : Reg) (i : Nat) : t.reg r i = s.reg r i := by
  simp only [State.reg, h]
theorem State.regBit_congr {s t : State} (h : t.regs = s.regs) (r : Reg) (i : Nat) : t.regBit r i = s.regBit r i := by
  simp only [State.regBit, State.reg, h]
theorem State.common_congr {s t : State} (h : t.commons = s.commons) (p : Nat) : t.common p = s.common p := by
  simp only [State.common, h]
theorem State.pageState_congr {s t : State} (h : t.commons = s.commons) (p : Nat) : t.pageState p = s.pageState p := by
  simp only [State.pageState, State.common, h]
theorem State.ring_congr {s t : State} (h : t.rings = s.rings) (n : Nat) : t.ring n = s.ring n := by
  simp only [State.ring, h]
theorem State.session?_congr {s t : State} (h : t.sdir = s.sdir) (k : Nat) : t.session? k = s.session? k := by
  simp only [State.session?, h]
theorem State.cmd?_congr {s t : State} (h : t.cmds = s.cmds) (i : Nat) : t.cmd? i = s.cmd? i := by
  simp only [State.cmd?, h]

theorem State.common_setCommon (s : State) (p q : Nat) (c : Common) :
    (s.setCommon p c).common q = if q = p then c else s.common q := by
  simp only [State.common, State.setCommon, Map.get?_set]; split <;> rfl
@[simp] theorem State.common_setCommon_self (s : State) (p : Nat) (c : Common) : (s.setCommon p c).common p = c := by
  simp [State.common_setCommon]

theorem State.ring_setRing (s : State) (n k : Nat) (r : Ring) : (s.setRing n r).ring k = if k = n then r else s.ring k := by
  simp only [State.ring, State.setRing, Map.get?_set]; split <;> rfl
@[simp] theorem State.ring_setRing_self (s : State) (n : Nat) (r : Ring) : (s.setRing n r).ring n = r := by
  simp [State.ring_setRing]

theorem State.session?_setSession (s : State) (k j : Nat) (x : Session) :
    (s.setSession k x).session? j = if j = k then some x else s.session? j := by
  simp only [State.session?, State.setSession, Map.get?_set]
@[simp] theorem State.session?_setSession_self (s : State) (k : Nat) (x : Session) :
    (s.setSession k x).session? k = some x := by simp [State.session?_setSession]

theorem State.session?_onSession (s : State) (k j : Nat) (f : Session → Session) :
    (s.onSession k f).session? j = if j = k then (s.session? k).map f else s.session? j := by
  simp only [State.onSession]
  split
  · next x h => rw [State.session?_setSession]; split <;> simp [h]
  · next h => split
              · next e => subst e; simp [h]
              · rfl

theorem State.cmd?_onCmd (s : State) (i j : Nat) (f : Cmd → Cmd) :
    (s.onCmd i f).cmd? j = if j = i then (s.cmd? i).map f else s.cmd? j := by
  simp only [State.cmd?, State.onCmd, Map.modify]
  split
  · next x h => rw [Map.get?_set]; split <;> simp [h]
  · next h => split
              · next e => subst e; simp [h]
              · rfl

theorem State.core_setCore (s : State) (n k : Nat) (c : Core) : (s.setCore n c).core k = if k = n then c else s.core k := by
  simp only [State.core, State.setCore, Map.get?_set]; split <;> rfl
theorem State.port_setPort (s : State) (n k : Nat) (p : Port) : (s.setPort n p).port k = if k = n then p else s.port k := by
  simp only [State.port, State.setPort, Map.getD, Map.get?_set]; split <;> rfl
theorem State.coll_setColl (s : State) (n k : Nat) (c : Coll) : (s.setColl n c).coll k = if k = n then c else s.coll k := by
  simp only [State.coll, State.setColl, Map.get?_set]; split <;> rfl
theorem State.stream_setStream (s : State) (n k : Nat) (x : IdeStream) :
    (s.setStream n x).stream k = if k = n then x else s.stream k := by
  simp only [State.stream, State.setStream, State.onSec, Map.get?_set]; split <;> rfl

/-- What setting bits of INT_STATUS does to the common registers: the bits are set, and nothing else moves (R29). -/
theorem State.common_setInt (s : State) (p q : Nat) (b : Word) :
    (s.setInt p b).common q = if q = p then { s.common p with int := (s.common p).int ||| b } else s.common q := by
  have h : ∀ t : State, (t.routeMsg p).common q = t.common q := fun t => State.common_congr (by simp) q
  simp only [State.setInt]
  split
  · rw [h, State.common_setCommon]
  · rw [State.common_setCommon]

/-- What recording an error does to the common registers (R28, R30). -/
theorem State.common_recErr (s : State) (p q code : Nat) :
    (s.recErr p code).common q = if q = p then
      { s.common p with err := true, code := if (s.common p).code = 0 then code else (s.common p).code,
                        int := (s.common p).int ||| 2 } else s.common q := by
  simp only [State.recErr, State.common_setInt, State.common_setCommon, if_true]
  split <;> rfl

theorem State.pageState_setInt (s : State) (p q : Nat) (b : Word) : (s.setInt p b).pageState q = s.pageState q := by
  simp only [State.pageState, State.common_setInt]
  split
  · next h => subst h; rfl
  · rfl

theorem State.pageState_recErr (s : State) (p q code : Nat) : (s.recErr p code).pageState q = s.pageState q := by
  simp only [State.pageState, State.common_recErr]
  split
  · next h => subst h; rfl
  · rfl

theorem State.pageState_setPageState (s : State) (p q st : Nat) :
    (s.setPageState p st).pageState q = if q = p then st else s.pageState q := by
  simp only [State.pageState, State.setPageState, State.common_setCommon]
  split <;> rfl

/-! ## What a final completion leaves alone -/

/-- The state without what the accounting of slots writes: the fields, the common pages, the messages and the TEL records. -/
def State.unaccounted (s : State) : State :=
  { s with regs := ⟨[]⟩, commons := ⟨[]⟩, msixPending := [], sent := [], tel := {} }

/-- What every step of a fold keeps, the fold keeps. -/
theorem foldl_keeps {β γ : Type} (p : State → γ) (f : State → β → State) (h : ∀ s b, p (f s b) = p s) (l : List β)
    (s : State) : p (l.foldl f s) = p s := by
  induction l generalizing s with
  | nil => rfl
  | cons b l ih => rw [List.foldl_cons, ih, h]

@[simp] theorem State.unaccounted_setReg (s : State) (r : Reg) (v i : Nat) :
    (s.setReg r v i).unaccounted = s.unaccounted := by
  simp only [State.setReg]; split <;> rfl
@[simp] theorem State.unaccounted_bump (s : State) (r : Reg) (i k : Nat) : (s.bump r i k).unaccounted = s.unaccounted := by
  simp [State.bump]
@[simp] theorem State.unaccounted_setIntBit (s : State) (p i : Nat) : (s.setIntBit p i).unaccounted = s.unaccounted := by
  simp only [State.setIntBit, State.setInt, State.routeMsg, State.sendMsi]
  repeat' split
  all_goals rfl
@[simp] theorem State.unaccounted_countSlots (s : State) (c : Nat) (k : Option Nat) (w : Bool) (n : Nat) :
    (s.countSlots c k w n).unaccounted = s.unaccounted := by
  simp only [State.countSlots]
  repeat' split
  all_goals simp
@[simp] theorem State.unaccounted_tagRecord (s : State) (b : List Byte) (w : Bool) :
    (s.tagRecord b w).unaccounted = s.unaccounted := by
  simp only [State.tagRecord]
  split
  · simp
  · rfl
@[simp] theorem State.unaccounted_settleShares (s : State) (c : Nat) (l : List (Nat × Nat × Nat)) (w : Nat → Bool) :
    (s.settleShares c l w).unaccounted = s.unaccounted := by
  simp only [State.settleShares]
  exact foldl_keeps State.unaccounted _ (fun s b => by simp) l s
@[simp] theorem State.unaccounted_settleAcct (s : State) (a : TileAcct) (w : Nat → Bool) :
    (s.settleAcct a w).unaccounted = s.unaccounted := by
  have h : ∀ (l : List (Nat × Nat)) (t : State),
      (l.foldl (fun s e => s.countSlots a.core (some e.1) true e.2) t).unaccounted = t.unaccounted :=
    fun l t => foldl_keeps State.unaccounted _ (fun s b => by simp) l t
  simp only [State.settleAcct]
  split <;> simp [h]
/-- The accounting of slots writes nothing but what it is for (R506 to R508, R519). -/
@[simp] theorem State.unaccounted_settleJob (s : State) (id : Nat) (w : Bool) :
    (s.settleJob id w).unaccounted = s.unaccounted := by
  simp only [State.settleJob]
  split
  · rfl
  · refine (foldl_keeps State.unaccounted _ (fun s b => ?_) _ _).trans rfl
    split <;> simp
@[simp] theorem State.unaccounted_account (s : State) (t : Nat) (st : Status) : (s.account t st).unaccounted = s.unaccounted := by
  simp only [State.account]
  repeat' split
  all_goals simp

theorem State.of_unaccounted {t s : State} (e : t.unaccounted = s.unaccounted) :
    t.pending = s.pending ∧ t.tick = s.tick ∧ t.bootEpoch = s.bootEpoch ∧ t.free = s.free ∧ t.shadow = s.shadow ∧
    t.rings = s.rings ∧ t.unmasked = s.unmasked ∧ t.msixTable = s.msixTable ∧ t.window = s.window ∧ t.host = s.host ∧
    t.fabric = s.fabric ∧ t.cmds = s.cmds ∧ t.nextCmd = s.nextCmd ∧ t.adm = s.adm ∧ t.sdir = s.sdir ∧ t.cane = s.cane
    ∧ t.stm = s.stm ∧ t.jobs = s.jobs ∧ t.nextJob = s.nextJob ∧ t.sources = s.sources ∧ t.models = s.models ∧ t.vocabs
    = s.vocabs ∧ t.objects = s.objects ∧ t.cores = s.cores ∧ t.windows = s.windows ∧ t.gaf = s.gaf ∧ t.freeze =
    s.freeze ∧ t.tenants = s.tenants ∧ t.sec = s.sec ∧ t.hbm = s.hbm ∧ t.emb = s.emb ∧ t.srch = s.srch ∧ t.fam = s.fam
    ∧ t.ckp = s.ckp ∧ t.migrations = s.migrations ∧ t.plat = s.plat ∧ t.out = s.out :=
  ⟨(congrArg State.pending e :), (congrArg State.tick e :), (congrArg State.bootEpoch e :), (congrArg State.free e :),
   (congrArg State.shadow e :), (congrArg State.rings e :), (congrArg State.unmasked e :),
   (congrArg State.msixTable e :), (congrArg State.window e :), (congrArg State.host e :),
   (congrArg State.fabric e :), (congrArg State.cmds e :), (congrArg State.nextCmd e :), (congrArg State.adm e :),
   (congrArg State.sdir e :), (congrArg State.cane e :), (congrArg State.stm e :), (congrArg State.jobs e :),
   (congrArg State.nextJob e :), (congrArg State.sources e :), (congrArg State.models e :),
   (congrArg State.vocabs e :), (congrArg State.objects e :), (congrArg State.cores e :),
   (congrArg State.windows e :), (congrArg State.gaf e :), (congrArg State.freeze e :), (congrArg State.tenants e :),
   (congrArg State.sec e :), (congrArg State.hbm e :), (congrArg State.emb e :), (congrArg State.srch e :),
   (congrArg State.fam e :), (congrArg State.ckp e :), (congrArg State.migrations e :), (congrArg State.plat e :),
   (congrArg State.out e :)⟩

@[simp] theorem State.settleJob_frame (s : State) (id : Nat) (w : Bool) :
    (s.settleJob id w).pending = s.pending ∧ (s.settleJob id w).tick = s.tick ∧ (s.settleJob id w).bootEpoch =
    s.bootEpoch ∧ (s.settleJob id w).free = s.free ∧ (s.settleJob id w).shadow = s.shadow ∧ (s.settleJob id w).rings =
    s.rings ∧ (s.settleJob id w).unmasked = s.unmasked ∧ (s.settleJob id w).msixTable = s.msixTable ∧ (s.settleJob id
    w).window = s.window ∧ (s.settleJob id w).host = s.host ∧ (s.settleJob id w).fabric = s.fabric ∧ (s.settleJob id
    w).cmds = s.cmds ∧ (s.settleJob id w).nextCmd = s.nextCmd ∧ (s.settleJob id w).adm = s.adm ∧ (s.settleJob id
    w).sdir = s.sdir ∧ (s.settleJob id w).cane = s.cane ∧ (s.settleJob id w).stm = s.stm ∧ (s.settleJob id w).jobs =
    s.jobs ∧ (s.settleJob id w).nextJob = s.nextJob ∧ (s.settleJob id w).sources = s.sources ∧ (s.settleJob id
    w).models = s.models ∧ (s.settleJob id w).vocabs = s.vocabs ∧ (s.settleJob id w).objects = s.objects ∧
    (s.settleJob id w).cores = s.cores ∧ (s.settleJob id w).windows = s.windows ∧ (s.settleJob id w).gaf = s.gaf ∧
    (s.settleJob id w).freeze = s.freeze ∧ (s.settleJob id w).tenants = s.tenants ∧ (s.settleJob id w).sec = s.sec ∧
    (s.settleJob id w).hbm = s.hbm ∧ (s.settleJob id w).emb = s.emb ∧ (s.settleJob id w).srch = s.srch ∧ (s.settleJob
    id w).fam = s.fam ∧ (s.settleJob id w).ckp = s.ckp ∧ (s.settleJob id w).migrations = s.migrations ∧ (s.settleJob
    id w).plat = s.plat ∧ (s.settleJob id w).out = s.out :=
  State.of_unaccounted (State.unaccounted_settleJob s id w)

@[simp] theorem State.account_frame (s : State) (t : Nat) (st : Status) :
    (s.account t st).pending = s.pending ∧ (s.account t st).tick = s.tick ∧ (s.account t st).bootEpoch = s.bootEpoch ∧
    (s.account t st).free = s.free ∧ (s.account t st).shadow = s.shadow ∧ (s.account t st).rings = s.rings ∧
    (s.account t st).unmasked = s.unmasked ∧ (s.account t st).msixTable = s.msixTable ∧ (s.account t st).window =
    s.window ∧ (s.account t st).host = s.host ∧ (s.account t st).fabric = s.fabric ∧ (s.account t st).cmds = s.cmds ∧
    (s.account t st).nextCmd = s.nextCmd ∧ (s.account t st).adm = s.adm ∧ (s.account t st).sdir = s.sdir ∧ (s.account
    t st).cane = s.cane ∧ (s.account t st).stm = s.stm ∧ (s.account t st).jobs = s.jobs ∧ (s.account t st).nextJob =
    s.nextJob ∧ (s.account t st).sources = s.sources ∧ (s.account t st).models = s.models ∧ (s.account t st).vocabs =
    s.vocabs ∧ (s.account t st).objects = s.objects ∧ (s.account t st).cores = s.cores ∧ (s.account t st).windows =
    s.windows ∧ (s.account t st).gaf = s.gaf ∧ (s.account t st).freeze = s.freeze ∧ (s.account t st).tenants =
    s.tenants ∧ (s.account t st).sec = s.sec ∧ (s.account t st).hbm = s.hbm ∧ (s.account t st).emb = s.emb ∧
    (s.account t st).srch = s.srch ∧ (s.account t st).fam = s.fam ∧ (s.account t st).ckp = s.ckp ∧ (s.account t
    st).migrations = s.migrations ∧ (s.account t st).plat = s.plat ∧ (s.account t st).out = s.out :=
  State.of_unaccounted (State.unaccounted_account s t st)

/-- A final completion: what it leaves alone (R37, R52 to R54, R267). -/
@[simp] theorem State.completeH_frame (s : State) (id : Nat) (st : Status) (de r h : Nat) :
    (s.completeH id st de r h).pending = s.pending ∧ (s.completeH id st de r h).tick = s.tick ∧ (s.completeH id st de
    r h).bootEpoch = s.bootEpoch ∧ (s.completeH id st de r h).free = s.free ∧ (s.completeH id st de r h).shadow =
    s.shadow ∧ (s.completeH id st de r h).unmasked = s.unmasked ∧ (s.completeH id st de r h).msixTable = s.msixTable ∧
    (s.completeH id st de r h).fabric = s.fabric ∧ (s.completeH id st de r h).nextCmd = s.nextCmd ∧ (s.completeH id st
    de r h).adm = s.adm ∧ (s.completeH id st de r h).cane = s.cane ∧ (s.completeH id st de r h).stm = s.stm ∧
    (s.completeH id st de r h).jobs = s.jobs ∧ (s.completeH id st de r h).nextJob = s.nextJob ∧ (s.completeH id st de
    r h).sources = s.sources ∧ (s.completeH id st de r h).models = s.models ∧ (s.completeH id st de r h).vocabs =
    s.vocabs ∧ (s.completeH id st de r h).objects = s.objects ∧ (s.completeH id st de r h).cores = s.cores ∧
    (s.completeH id st de r h).windows = s.windows ∧ (s.completeH id st de r h).gaf = s.gaf ∧ (s.completeH id st de r
    h).freeze = s.freeze ∧ (s.completeH id st de r h).tenants = s.tenants ∧ (s.completeH id st de r h).sec = s.sec ∧
    (s.completeH id st de r h).hbm = s.hbm ∧ (s.completeH id st de r h).emb = s.emb ∧ (s.completeH id st de r h).srch
    = s.srch ∧ (s.completeH id st de r h).fam = s.fam ∧ (s.completeH id st de r h).ckp = s.ckp ∧ (s.completeH id st de
    r h).migrations = s.migrations ∧ (s.completeH id st de r h).plat = s.plat ∧ (s.completeH id st de r h).out = s.out := by
  simp only [State.completeH]
  split
  · simp
  · repeat' split
    all_goals simp

@[simp] theorem State.complete_frame (s : State) (id : Nat) (st : Status) (de r : Nat) :
    (s.complete id st de r).pending = s.pending ∧ (s.complete id st de r).tick = s.tick ∧ (s.complete id st de
    r).bootEpoch = s.bootEpoch ∧ (s.complete id st de r).free = s.free ∧ (s.complete id st de r).shadow = s.shadow ∧
    (s.complete id st de r).unmasked = s.unmasked ∧ (s.complete id st de r).msixTable = s.msixTable ∧ (s.complete id
    st de r).fabric = s.fabric ∧ (s.complete id st de r).nextCmd = s.nextCmd ∧ (s.complete id st de r).adm = s.adm ∧
    (s.complete id st de r).cane = s.cane ∧ (s.complete id st de r).stm = s.stm ∧ (s.complete id st de r).jobs =
    s.jobs ∧ (s.complete id st de r).nextJob = s.nextJob ∧ (s.complete id st de r).sources = s.sources ∧ (s.complete
    id st de r).models = s.models ∧ (s.complete id st de r).vocabs = s.vocabs ∧ (s.complete id st de r).objects =
    s.objects ∧ (s.complete id st de r).cores = s.cores ∧ (s.complete id st de r).windows = s.windows ∧ (s.complete id
    st de r).gaf = s.gaf ∧ (s.complete id st de r).freeze = s.freeze ∧ (s.complete id st de r).tenants = s.tenants ∧
    (s.complete id st de r).sec = s.sec ∧ (s.complete id st de r).hbm = s.hbm ∧ (s.complete id st de r).emb = s.emb ∧
    (s.complete id st de r).srch = s.srch ∧ (s.complete id st de r).fam = s.fam ∧ (s.complete id st de r).ckp = s.ckp
    ∧ (s.complete id st de r).migrations = s.migrations ∧ (s.complete id st de r).plat = s.plat ∧ (s.complete id st de
    r).out = s.out := by
  simp [State.complete]

@[simp] theorem State.refuse_frame (s : State) (id : Nat) (st : Status) (r : Nat) :
    (s.refuse id st r).pending = s.pending ∧ (s.refuse id st r).tick = s.tick ∧ (s.refuse id st r).bootEpoch =
    s.bootEpoch ∧ (s.refuse id st r).free = s.free ∧ (s.refuse id st r).shadow = s.shadow ∧ (s.refuse id st
    r).unmasked = s.unmasked ∧ (s.refuse id st r).msixTable = s.msixTable ∧ (s.refuse id st r).fabric = s.fabric ∧
    (s.refuse id st r).nextCmd = s.nextCmd ∧ (s.refuse id st r).adm = s.adm ∧ (s.refuse id st r).cane = s.cane ∧
    (s.refuse id st r).stm = s.stm ∧ (s.refuse id st r).jobs = s.jobs ∧ (s.refuse id st r).nextJob = s.nextJob ∧
    (s.refuse id st r).sources = s.sources ∧ (s.refuse id st r).models = s.models ∧ (s.refuse id st r).vocabs =
    s.vocabs ∧ (s.refuse id st r).objects = s.objects ∧ (s.refuse id st r).cores = s.cores ∧ (s.refuse id st
    r).windows = s.windows ∧ (s.refuse id st r).gaf = s.gaf ∧ (s.refuse id st r).freeze = s.freeze ∧ (s.refuse id st
    r).tenants = s.tenants ∧ (s.refuse id st r).sec = s.sec ∧ (s.refuse id st r).hbm = s.hbm ∧ (s.refuse id st r).emb
    = s.emb ∧ (s.refuse id st r).srch = s.srch ∧ (s.refuse id st r).fam = s.fam ∧ (s.refuse id st r).ckp = s.ckp ∧
    (s.refuse id st r).migrations = s.migrations ∧ (s.refuse id st r).plat = s.plat ∧ (s.refuse id st r).out = s.out := by
  simp [State.refuse]

end Sys2Proof.Machine
end

