-- ==== Sys2Proof/Machine/CkptImages.lean ====
section
/-!
DEFINITION. The records of a checkpoint's index in the store, and the map of checkpoint copies by page record (R413, R419). The
commands act on the parts of the cut; these are the bytes that name them.
-/
namespace Sys2Proof.Machine

/-- KIND of an object of the store. -/
inductive StoreKind
  | hbmUnit | sram | stepRecord | pageTable | tailPage | sealedPage | command | group | registers
  deriving DecidableEq, Repr

def StoreKind.code : StoreKind → Nat
  | .hbmUnit => 0x01
  | .sram => 0x02
  | .stepRecord => 0x03
  | .pageTable => 0x04
  | .tailPage => 0x05
  | .sealedPage => 0x06
  | .command => 0x07
  | .group => 0x08
  | .registers => 0x09

/-- An object that a checkpoint references: `tenant` is none for device-wide data. -/
structure StoreObject where
  kind : StoreKind
  compressed : Bool
  tenant : Option Nat
  ident : Nat
  off : Nat
  stored : Nat
  written : Nat
  deriving DecidableEq, Repr

/-- The 32-byte index record of an object. -/
def StoreObject.bytes (o : StoreObject) : List Byte :=
  leBytes o.kind.code 1 ++ leBytes (b2n o.compressed) 1 ++ leBytes (o.tenant.getD 0xFFFF) 2 ++ leBytes 0 4 ++ leBytes o.ident 8
    ++ leBytes o.off 8 ++ leBytes o.stored 4 ++ leBytes (o.written % 2 ^ 32) 4


/-- The entry of a page record in the page map, and its address: the store offset of the page's copy in 64 KiB units, or 0. -/
def mapEntryBytes (off : Option Nat) : List Byte := leBytes ((off.getD 0) / 65536) 8
def State.mapEntryAddr (s : State) (n : Nat) : Nat := s.mapRange.1 + 8 * n

end Sys2Proof.Machine
end

