-- ==== Sys2Proof/Machine/GroupImages.lean ====
section
/-!
DEFINITION. How the device stores a memory collection: the two parts of a group on its flash channel (R345), and the node of the
entry graph with its list pages in HBM (R346). The commands act on the fields; these are the bytes that the fields make.
-/
namespace Sys2Proof.Machine

/-- The entry of a record in the ID unit of its group. -/
def SRecord.idEntry (r : SRecord) : List Byte :=
  zeroFill 32 (leBytes r.id 8 ++ leBytes r.payload 8 ++ leBytes r.seq 6)

/-- The code part of a group: record i at bytes [CY × i + CY − 1 : CY × i]. -/
def groupCodes (cy : Nat) (g : List SRecord) : List Byte := zeroFill (128 * cy) (g.flatMap (fun r => leBytes r.code cy))

/-- The ID unit of a group: an empty slot has SEQ 0. -/
def groupIds (g : List SRecord) : List Byte := zeroFill 4096 (g.flatMap SRecord.idEntry)

/-- The flash channel of group `g` of partition `p`. -/
def groupChannel (p g : Nat) : Nat := (p + g) % 64

/-- An edge slot: TARGET and SEQ, a free slot all zero. -/
def edgeBytes (e : Option (Nat × Nat)) : List Byte :=
  match e with
  | some (target, seq) => leBytes target 4 ++ leBytes 0 4 ++ leBytes seq 6 ++ leBytes 0 2
  | none => leBytes 0 16

/-- The 1,024 bytes of a node, with the HBM address of its first list page. -/
def SNode.bytes (n : SNode) (list : Nat) (cy : Nat) : List Byte :=
  zeroFill 1024 (leBytes n.repItem 8 ++ leBytes n.seq 6 ++ leBytes n.groups.length 2
    ++ leBytes ((n.groups.map List.length).sum) 4 ++ leBytes 0 4 ++ leBytes list 8
    ++ zeroFill 512 (n.edges.flatMap edgeBytes) ++ zeroFill 128 (leBytes n.repCode cy))

/-- The address of a node of the active half. -/
def State.nodeAddr (s : State) (k p : Nat) : Nat :=
  s.reg .SRCH_COLL_GRAPH_ADDR k * 4096 + (b2n (s.coll k).half * s.partsMax k + p) * 1024

/-- A list page: the flash addresses of up to 511 groups, and the address of the next page, or 0. -/
def listPage (groups : List Nat) (next : Nat) : List Byte := zeroFill 4088 (wordBytes groups) ++ leBytes next 8

end Sys2Proof.Machine
end

