-- ==== Sys2Proof/Machine/Messages.lean ====
section
/-!
DEFINITION. What peer messages are on the fabric: the header and body of a message, and the UIO writes that carry its fragments
(R384 to R386); the lease pointer table in HBM (R395). The commands act on whole messages; these are their bytes.
-/
namespace Sys2Proof.Machine

/-- KIND of a message. -/
def msgKindCode : MsgKind → Nat
  | .fp32Add => 0x01
  | .rowStore => 0x02
  | .rowReq => 0x03
  | .rowData => 0x04
  | .applied => 0x05
  | .leaseNote => 0x10
  | .quietNote => 0x11

/-- The body: binary32 values; the kinds that carry none have an empty list. -/
def msgBody (m : PeerMsg) : List Byte := m.values.flatMap (fun v => leBytes v.toNat 4)

/-- The 32-byte message header. -/
def msgHeader (m : PeerMsg) : List Byte :=
  leBytes (msgKindCode m.kind) 2 ++ leBytes (msgBody m).length 2 ++ leBytes m.source 4 ++ leBytes m.seq 8
    ++ leBytes m.epoch 4 ++ leBytes m.table 4 ++ leBytes m.row 8

/-- The aperture offset at which a fragment is written. -/
def fragOffset (m : PeerMsg) (frag : Nat) : Nat := 256 * ((8 * m.msgSeq + frag) % 8192)

/-- The UIO writes of a message, as offset and bytes: fragments of up to 248 bytes, each behind its 8-byte prefix. -/
def msgWrites (m : PeerMsg) : List (Nat × List Byte) :=
  let all := msgHeader m ++ msgBody m
  let parts := chunks 248 all.length all
  ((List.range parts.length).zip parts).map (fun (i, p) =>
    (fragOffset m i, leBytes m.msgSeq 4 ++ leBytes i 1 ++ leBytes parts.length 1 ++ leBytes p.length 2 ++ p))

/-- The entry of a slot in the lease pointer table, while its session is leased or AWAY, and its address. -/
def Session.leaseEntry (x : Session) : List Byte := wordBytes [x.leaseAddr, x.leaseTick.getD 0]
def State.leaseEntryAddr (s : State) (slot : Nat) : Nat := s.leaseTable.1 + 16 * slot

end Sys2Proof.Machine
end

