-- ==== Sys2Proof/Machine/Package.lean ====
section
/-!
DEFINITION. The package as the device's boundary has it: the lands of the fabric ports and of the sideband and clock signals
(R529 to R531), the levels of the sideband outputs (R472, R485, R501, R538), and the IDCODE of the TAP (R540).
-/
namespace Sys2Proof.Machine

/-- A land by column and row, as seen from the lid (R529). -/
structure Land where
  column : Nat
  row : Nat
  deriving DecidableEq, Repr

/-- The grid is populated there: all but the four corner squares (R529). -/
def Land.populated (l : Land) : Bool :=
  decide (1 ≤ l.column) && decide (l.column ≤ 108) && decide (1 ≤ l.row) && decide (l.row ≤ 108)
    && !((decide (l.column ≤ 6) || decide (103 ≤ l.column)) && (decide (l.row ≤ 6) || decide (103 ≤ l.row)))

/-- The signals of the package (R530, R531). -/
inductive Signal
  /-- Lane of a fabric port: transmitter or receiver, positive or negative. -/
  | fab (port lane : Nat) (tx positive : Bool)
  | refclk (positive : Bool)
  | resetN | pgood | alertN | thermtripN | i3cScl | i3cSda
  | slotId (bit : Nat)
  | tck | tms | tdi | tdo | trstN
  deriving DecidableEq, Repr

/-- The land of a signal (R530, R531). -/
def Signal.land : Signal → Land
  | .fab port lane tx positive =>
    let west : Nat := if tx then (if positive then 3 else 4) else (if positive then 8 else 9)
    { column := if port < 4 then west else 109 - west, row := 11 + 24 * (port % 4) + lane }
  | .refclk positive => { column := if positive then 50 else 51, row := 1 }
  | .resetN => ⟨53, 1⟩
  | .pgood => ⟨54, 1⟩
  | .alertN => ⟨55, 1⟩
  | .thermtripN => ⟨56, 1⟩
  | .i3cScl => ⟨57, 1⟩
  | .i3cSda => ⟨58, 1⟩
  | .slotId bit => ⟨53 + bit, 2⟩
  | .tck => ⟨53, 3⟩
  | .tms => ⟨54, 3⟩
  | .tdi => ⟨55, 3⟩
  | .tdo => ⟨56, 3⟩
  | .trstN => ⟨57, 3⟩

/-- The lands marked RSVD (R531). -/
def reservedLands : List Land := [⟨59, 3⟩, ⟨60, 3⟩] ++ (List.range 6).map (fun i => ⟨53 + i, 4⟩)

/-- What the device drives on a sideband output: a level, or nothing (R538). ALERT_N and THERMTRIP_N are open-drain; PGOOD is
push-pull and undriven without power. -/
def State.drives (s : State) : Signal → Option Bool
  | .pgood => if s.plat.phase = .on then some s.plat.pgood else none
  | .alertN => if s.plat.phase = .on && s.alert then some false else none
  | .thermtripN => if s.plat.thermtrip then some false else none
  | _ => none

/-- The IDCODE of the TAP (R540). -/
def idcode : Nat := 0x1 * 2 ^ 28 + 0x0480 * 2 ^ 12 + Config.jep106.toNat * 2 + 1

/-- The transmitters of a fabric port drive its lanes: its domain is ON (R478). -/
def State.portDrives (s : State) (n : Nat) : Bool := s.plat.phase == .on && s.domState (156 + n) == 0

end Sys2Proof.Machine
end

