-- ==== Sys2Proof/Tests/Slice0.lean ====
section
/-!
SUPPORT. Tests: for each statement with hypotheses, states and operands that meet them together (witness_<statement>, and
witness_<statement>_<part> where a statement has several parts); single steps whose results the spec gives; and ill-formed
commands that the check of well-formedness refuses.
-/
open Sys2Proof Sys2Proof.Machine

section Tests

set_option Elab.async false

/-! ## Helpers -/

/-- The state after a command, as a step that goes on gives it. -/
def tAfter (i : Instr) (s : State) : Option State := match exec i s with | .next t => some t | _ => none

/-- A state in which the pages of `l` are ENABLED. -/
def tOn (l : List Nat) (s : State) : State := l.foldl (fun s p => s.setPageState p 1) s

/-- A device after boot with its blocks enabled. -/
def tBase : State := tOn [0, 8, 16, 17, 18, 20, 24, 25, 26, 27, 28, 29, 40] {}

/-- An enabled ring of tenant 1 with both rings in the window. -/
def tRing : Ring :=
  { en := true, state := .enabled, sqLog2 := 6, cqLog2 := 6, sqInWindow := true, cqInWindow := true, cqBase := 4096,
    winUnits := 1, bound := true, tenant := 1 }

def tR : State := tBase.setRing 0 tRing
def tRed (r : Ring) : State := tBase.setRing 0 r

/-- A command of ring 0 that is to take effect. -/
def tCmd (op : Nat) (handle opts : Nat) (spec : List Byte) : Cmd :=
  { ring := 0, tenant := 1, phase := .started, desc := { opcode := op, handle := handle, opts := opts, spec := spec } }

/-- A state with that command under number 7. -/
def tWith (c : Cmd) (s : State) : State := { s with cmds := s.cmds.set 7 c, nextCmd := 8 }

/-! ## What meets the hypotheses of the statements: rings and registers -/

theorem witness_RingDoorbells : tR.live = true ∧ (tR.ring 0).state = .enabled ∧
    ((64 : Word) - (tR.ring 0).sqHead).toNat ≤ 2 ^ (tR.ring 0).sqLog2 ∧
    2 ^ (tR.ring 0).sqLog2 < ((65 : Word) - (tR.ring 0).sqHead).toNat ∧
    ((0 : Word) - (tR.ring 0).cqHead).toNat ≤ (tR.ring 0).unread ∧
    (tR.ring 0).unread < ((1 : Word) - (tR.ring 0).cqHead).toNat := by decide +kernel

theorem witness_RingDoorbells_RingClosedWrites : ((tRed { tRing with state := .draining }).ring 0).state = .draining ∧
    (tRed { tRing with state := .draining }).live = true ∧
    ((tRed { tRing with state := .halted }).ring 0).state = .halted ∧ (tBase.ring 0).state = .disabled := by decide +kernel

/-- A ring whose page holds quadwords 0 to 6 of a push, with room for one descriptor more. -/
def tPush : Ring :=
  { tRing with sqTail := 63, stage := (List.range 7).foldl (fun m i => m.set i i) ⟨[]⟩ }

theorem witness_PushIsFetched : (tRed tPush).live = true ∧ ((tRed tPush).ring 0).state = .enabled ∧
    (∀ i, i < 7 → ((tRed tPush).ring 0).stage.has i = true) ∧ ((tRed tPush).ring 0).pushed = none ∧
    ((tRed tPush).ring 0).waiting < 2 ^ ((tRed tPush).ring 0).sqLog2 := by decide +kernel

theorem witness_PushIsFetched_refused : (tR.ring 0).stage.has 6 = false ∧
    ((tRed { tPush with pushed := some (63, []) }).ring 0).pushed ≠ none ∧
    2 ^ ((tRed { tPush with sqTail := 64 }).ring 0).sqLog2 ≤ ((tRed { tPush with sqTail := 64 }).ring 0).waiting ∧
    [0, 1, 2, 3, 4, 5, 6].all (fun i => ((tRed { tPush with sqTail := 64 }).ring 0).stage.has i) = true := by decide +kernel

/-- A ring with one descriptor to fetch: zeros, or a NOP. -/
def tFetch (op : Byte) : State :=
  { tBase with rings := (⟨[]⟩ : Map Ring).set 0 { tRing with sqTail := 1 }, window := (⟨[]⟩ : Memory).write 0 op }

theorem witness_DescriptorFetched : ((tFetch 0).ring 0).mayFetch = true ∧
    ((tFetch 0).validate ((tFetch 0).ring 0) (Desc.ofBytes ((tFetch 0).nextDescriptor ((tFetch 0).ring 0))) true
      = some (.invalid, 0x100)) ∧
    (tFetch 1).validate ((tFetch 1).ring 0) (Desc.ofBytes ((tFetch 1).nextDescriptor ((tFetch 1).ring 0))) true = none := by
  decide +kernel

/-- A DISABLED ring that may be enabled. -/
def tShut : Ring := { tRing with en := false, state := .disabled }

theorem witness_RingStates : ((tRed tShut).ring 0).state = .disabled ∧ ((tRed tShut).ring 0).enableCode = 0 ∧
    (tBase.ring 0).state = .disabled ∧ (tBase.ring 0).enableCode ≠ 0 ∧ (tR.ring 0).state = .enabled ∧
    ((tRed { tRing with state := .draining }).ring 0).outstanding = 0 ∧
    ((tRed { tRing with state := .draining, outstanding := 1 }).ring 0).outstanding ≠ 0 := by decide +kernel

theorem witness_RingFailures : ((tRed { tRing with sqTail := 1 }).ring 0).waiting ≠ 0 ∧
    (∀ w : Bool, let r := (tRed { tRing with cqTail := 1, lastCq := some {}, cqInWindow := w }).ring 0
      r.unread ≠ 0 ∧ r.code = 0 ∧ r.state = .enabled ∧ r.lastCq = some {} ∧ r.cqInWindow = w) ∧
    ((tRed { tRing with cqTail := 1, lastCq := some {}, state := .halted, code := 6 }).ring 0).state ≠ .disabled := by
  decide +kernel

/-- Tenant 1 is OPEN, and host software has named ring 0 with a window of one unit. -/
def tTen : State :=
  { tBase with tenants := (⟨[]⟩ : Map Tenant).set 1 { state := .opened, keys := true, ttks := [5], localOnly := false } }

theorem witness_RingBinding : bitAt (0x80000100 : Word).toNat 31 = true ∧
    bindCode (tTen.setReg .GLB_RING_WIN_WIN_UNITS 1) 0x80000100 = 0 ∧ bindCode tTen 0x80000200 ≠ 0 ∧
    bitAt (0x40000000 : Word).toNat 30 = true ∧ bitAt (0x40000000 : Word).toNat 31 = false := by decide +kernel

theorem witness_CompletionWritten : (tWith (tCmd 1 0 0 []) tR).cmd? 7 = some (tCmd 1 0 0 []) ∧
    ((tWith (tCmd 1 0 0 []) tR).ring 0).discard = false ∧
    ((tWith (tCmd 1 0 0 []) (tRed { tRing with discard := true })).ring 0).discard = true := by decide +kernel

theorem witness_InterruptRegisters : isBlockPage 0 = true ∧ (1 : Word) &&& 6 = 0 ∧ (2 : Word) &&& 2 ≠ 0 ∧ (0 : Nat) ≠ pgClk ∧
    (767 : BitVec 10).toNat = 512 + 255 ∧ tBase.live = true := by decide +kernel

theorem witness_InterruptRegisters_CoalesceTimerSignals : ∀ e : Bool,
    let r : Ring := { tRing with unsignalled := 1, coalTime := 1, intEn := if e then 1 else 0 }
    let s : State := { tRed r with tick := 1000, unmasked := [0] }
    (s.ring 0).unsignalled ≠ 0 ∧ (s.ring 0).coalTime ≠ 0 ∧
      (s.ring 0).unsignalledSince + (s.ring 0).coalTime * 1000 ≤ s.tick ∧ (s.ring 0).intEn &&& 1 = (if e then 1 else 0) ∧
      s.unmasked.contains ((s.ring 0).function * 2048 + (s.ring 0).vector) = true ∧
      tBase.unmasked.contains ((s.ring 0).function * 2048 + (s.ring 0).vector) = false := by decide +kernel

theorem witness_FirstErrorKept : (tBase.common 0).code = 0 ∧ ((tBase.recErr 0 1).common 0).code ≠ 0 ∧
    isBlockPage 0 = true ∧ ringOf 512 = some 0 ∧ ringOf 767 = some 255 := by decide +kernel

theorem witness_UnassignedPages : isBlockPage 5 = false ∧ ringOf 5 = none ∧ isBlockPage 1023 = false ∧
    ringOf 1023 = none ∧ ringOf 768 = none ∧ isBlockPage 768 = false := by decide +kernel

theorem witness_RegisterWrites : (0x102 : Nat) % 4 ≠ 0 ∧ (0x10044 : Nat) % 8 ≠ 0 ∧ (0x10040 : Nat) % 8 = 0 ∧ ringOf (0x10040 / 4096) = none ∧
    isBlockPage (0x10040 / 4096) = true ∧ 0x040 ≤ 0x10040 % 4096 ∧ isBlockPage (0x5000 / 4096) = false ∧
    ringOf (0x5000 / 4096) = none ∧ (0x10008 : Nat) % 4096 = 0x008 ∧
    (0x2FF060 : Nat) = 4096 * (512 + 255) + 0x060 ∧ (tBase.ring 255).en = false ∧ (tR.ring 0).en = true := by decide +kernel

theorem witness_BlockControl : isPlatform 4 = true ∧ tBase.failed 4 = false ∧ plainEnable pgEvic = true ∧
    isPlatform pgEvic = false ∧ tBase.pageState pgEvic = 0 ∧ hasSafePoint 0 = false ∧ hasSafePoint pgGaf = true ∧
    (let s := ({ tBase with gaf := { running := some { model := 0, rows := [], pins := [], start := 0 } } }).setEn pgGaf true
     (s.common pgGaf).en = true ∧ s.busy pgGaf = true) ∧ tBase.atSafePoint pgGaf = true ∧
    ((tBase.setCommon pgGaf { tBase.common pgGaf with commitPend := true }).common pgGaf).commitPend = true := by decide +kernel

/-! ## Sessions -/

def tModel : Model := { loaded := true, bytes := 65536, layout := { scoreCap := 8192, vocab := 16, dObs := 2 } }
def tVoc : Vocab := { loaded := true, tokens := [{ bytes := [97], kind := 1, emit := true }], byteMap := List.replicate 256 0 }

/-- A device whose tables lie apart in HBM, with a heap of 64 GiB, model 1 with its vocabulary, and tenant 1 OPEN. -/
def tMap : State :=
  ([(.SDIR_FREELIST_ADDR, 16), (.STM_HEAP_BASE_ADDR, 2), (.STM_HEAP_SIZE_GIB, 64), (.CANE_NODE_BASE_ADDR, 26214400),
    (.CANE_TOKEN_BASE_ADDR, 28835840), (.CANE_BUCKET_BASE_ADDR, 31457280), (.CANE_REC_BASE_ADDR, 34078720),
    (.JCK_STORE_BASE_ADDR, 104857600), (.JCK_STORE_SIZE_GIB, 1),
    (.CRU_MODEL_BASE_ADDR, 200), (.CRU_MODEL_SIZE_GIB, 16)] : List (Reg × Nat)).foldl
    (fun s e => s.setReg e.1 e.2)
    { tTen with models := (⟨[]⟩ : Map Model).set 1 tModel, vocabs := (⟨[]⟩ : Map Vocab).set 1 tVoc }

/-- A session of tenant 1 in slot 3, and its handle. -/
def tSess : Session := { tenant := 1, generation := 1 }
def tH : Nat := mkHandle 1 3 1

/-- That device with the session `x` in slot 3. -/
def tDev (x : Session) : State :=
  let s := tMap.setSession 3 x
  { s with sdir := { s.sdir with neverUsed := 4 } }

/-- What stands in the way of a command, in forms that can be decided: the command is to take effect, is served, names a session. -/
abbrev tStarted (s : State) (op : Nat) (c : Cmd) : Prop :=
  s.cmd? 7 = some c ∧ c.phase = .started ∧ c.desc.opcode = op ∧ s.commandsRun = true ∧ s.failed pgGlb = false

abbrev tServed (s : State) (c : Cmd) (leased : Bool) : Prop :=
  s.blockFailed c.desc.opcode = false ∧ ([0x10, 0x12, 0x21, 0x23].contains c.desc.opcode && s.freeListBad) = false ∧
  (usesText c.desc.opcode && !s.textOn) = false ∧
  (fabricRanges c.desc leased = [] ∨
    s.enabled pgFam = true ∧ (fabricRanges c.desc leased).any (fun e => !s.mapped e.1 e.2) = false) ∧
  s.sourceDead c.desc = false

abbrev tNames (s : State) (c : Cmd) (x : Session) : Prop :=
  c.desc.handle ≠ 0 ∧ s.enabled pgSdir = true ∧ s.sdir.missing.contains (handleSlot c.desc.handle) = false ∧
  s.resolve c.desc = none ∧ s.session? (handleSlot c.desc.handle) = some x ∧ s.holdsBad x = false

/-- The command is ready, and names no session (`tPlain`) or the session of slot 3 (`tOnSess` with `tFree`). -/
abbrev tPlain (s : State) (op : Nat) (c : Cmd) : Prop := tStarted s op c ∧ c.desc.handle = 0 ∧ tServed s c false

theorem tPlain_ready {s : State} {op : Nat} {c : Cmd} (h : tPlain s op c) : s.readyPlain 7 op c := h

/-- A command on the session `x` of slot 3. -/
def tCmdOn (op opts : Nat) (spec : List Byte) : Cmd := tCmd op tH opts spec

abbrev tOnSess (s : State) (op : Nat) (c : Cmd) (x : Session) : Prop := tStarted s op c ∧ tNames s c x

abbrev tFree (s : State) (op : Nat) (c : Cmd) (x : Session) : Prop :=
  op ≠ 0x13 ∧ op < 0x30 ∧ (s.reaches 7 c).heldByEarlier 7 c.desc = false ∧
  turnOf x c.desc = .now ∧ (x.residency = .moving → op = 0x1C) ∧ x.compact = none ∧
  (s.turns 7 c).heldByExport (handleSlot c.desc.handle) c.desc = false ∧ (x.bad = true → op = 0x11 ∨ x.residency = .away) ∧
  (x.rec'.scoresOk = false → op = 0x11 ∨ x.residency = .away) ∧
  ((s.turns 7 c).needsMove x c.resolved && !(s.turns 7 c).enabled pgStm) = false ∧
  (s.turns 7 c).awaitVersion 7 c.resolved (handleSlot c.desc.handle) x = none ∧
  (x.needsPages c.desc && !(s.turns 7 c).enabled pgCane) = false ∧
  ((s.turns 7 c).commits x c.resolved = true → (s.turns 7 c).leaseOk x = true) ∧ tServed (s.atEffect 7 c x) c x.leased

theorem tOnSess_ready {s : State} {op : Nat} {c : Cmd} {x : Session} (h : tOnSess s op c x) (g : tFree s op c x) :
    s.readyOn 7 op c x := ⟨h.1, h.2, g⟩

theorem witness_NopAndFence : tPlain (tWith (tCmd 1 0 0 []) tR) 1 (tCmd 1 0 0 []) ∧
    tPlain (tWith (tCmd 2 0 0 []) tR) 2 (tCmd 2 0 0 []) := by decide +kernel

def tCreate : State := tWith (tCmd 0x10 0 0 []) (tDev tSess)

theorem witness_SessionsCreatedAndForked_SessionCreated : tPlain tCreate 0x10 (tCmd 0x10 0 0 []) ∧ tCreate.enabled pgSdir = true ∧
    createParams (tCreate.payload (tCmd 0x10 0 0 []).desc) = some {} ∧ (({} : Params).namesAny && !tCreate.enabled pgJck) = false ∧
    tCreate.paramsOk 1 {} = true ∧ tCreate.nextSlot = some 4 := by decide +kernel

theorem witness_SessionsCreatedAndForked_SessionCreated_room : tCreate.roomForSession 1 (tCreate.model 1).layout = (0, tCreate) := by decide +kernel

def tQuery : State := tWith (tCmdOn 0x13 0 []) (tDev tSess)

theorem witness_SessionsQueriedAndClosed_SessionQueried : tOnSess tQuery 0x13 (tCmdOn 0x13 0 []) tSess := by decide +kernel

def tClose : State := tWith (tCmdOn 0x11 0 []) (tDev tSess)

theorem witness_SessionsQueriedAndClosed_SessionClosed : tClose.readyOn 7 0x11 (tCmdOn 0x11 0 []) tSess :=
  tOnSess_ready (by decide +kernel) (by decide +kernel)

/-- A session with one page of four positions. -/
def tPaged : Session := { tSess with positions := 4, table := [{ frame := 9, count := 4, isTail := true }] }
def tPage : PageRec :=
  { refs := 1, inHbm := true, model := 1, tenant := 1,
    slots := (List.range 4).map (fun i => { index := i, word := 1, kv := 0 }) }
def tPages (x : Session) : State :=
  let s := tDev x
  { s with cane := { s.cane with recs := (⟨[]⟩ : Map PageRec).set 9 tPage } }

def tForkCmd : Cmd := tCmdOn 0x12 0 []
def tFork : State := tWith tForkCmd (tPages tPaged)

theorem witness_SessionsCreatedAndForked_SessionForked : tFork.readyOn 7 0x12 tForkCmd tPaged :=
  tOnSess_ready (by decide +kernel) (by decide +kernel)

def tPassed : PointOutcome → Option State
  | .passed v => some v
  | .waits _ => none
def tFits : AppendFit → Option (List Nat × Nat)
  | .fits l e => some (l, e)
  | _ => none

/-- A fork that cuts the page after its second position. -/
def tForkCut : Cmd := tCmdOn 0x12 0 [2, 0, 0, 0]

theorem witness_SessionsCreatedAndForked_SessionForked_child : ∀ cut : Bool,
    let c := if cut then tForkCut else tForkCmd
    let s := tWith c (tPages tPaged)
    let u := s.atEffect 7 c tPaged
    let f := forkCut tPaged (c.desc.specF 39 36)
    let l := u.layoutOf tPaged
    u.session? 3 = some tPaged ∧ u.enabled pgCane = true ∧ tPaged.inHbm = true ∧
      c.desc.specF 39 36 ≤ tPaged.positions + tPaged.input.length ∧
      forkParams tPaged c.desc (u.payload c.desc) = some {} ∧ (({} : Params).namesAny && !u.enabled pgJck) = false ∧
      u.paramsOk 1 {} = true ∧ (u.roomForSession 1 l).1 = 0 ∧ u.nextSlot = some 4 ∧ (f.rest = 0 ↔ cut = false) ∧
      u.freeRecord.isNone = false ∧ u.heapRoom 1 (l.recordBytes (u.nverOf 1) + l.pageBytes) false = true ∧
      u.heapRoom 1 (l.recordBytes (u.nverOf 1) + (if f.rest = 0 then 0 else l.pageBytes) + inputBytes f.input) false = true := by
  decide +kernel

theorem witness_SessionsCreatedAndForked_SessionForked_room :
    let u := tFork.atEffect 7 tForkCmd tPaged
    u.roomForSession 1 (u.layoutOf tPaged) = (0, u) := by decide +kernel

/-- APPEND_TEXT of no bytes with its end, and APPEND_TOKENS of none. -/
def tText : Cmd := tCmdOn 0x18 256 []
def tToks : Cmd := tCmdOn 0x19 0 []

theorem witness_InputAppended : (tWith tText (tDev tSess)).readyOn 7 0x18 tText tSess ∧
    (tWith tToks (tDev tSess)).readyOn 7 0x19 tToks tSess :=
  ⟨tOnSess_ready (by decide +kernel) (by decide +kernel), tOnSess_ready (by decide +kernel) (by decide +kernel)⟩

theorem witness_InputAppended_fits :
    let u := (tWith tText (tDev tSess)).atEffect 7 tText tSess
    u.session? 3 = some tSess ∧ u.enabled pgMrv = true ∧ u.vocab? tSess.rec'.params.model = some tVoc ∧
      tFits (u.fit tSess (tText.desc.optBit 10) (tVoc.tokenize tSess.rec'.params.utf8Replace []) (some tVoc)) = some ([], 0) ∧ u.heapRoom 1 (inputBytes (tokenInput [])) false = true := by
  decide +kernel

/-- STEP of two tokens, and of none. -/
def tStep : Cmd := tCmdOn 0x1A 0 [2, 0, 0, 0]
def tStep0 : Cmd := tCmdOn 0x1A 0 []

theorem witness_StepBegun : (tWith tStep (tDev tSess)).readyOn 7 0x1A tStep tSess ∧
    (tWith tStep0 (tDev tSess)).readyOn 7 0x1A tStep0 tSess :=
  ⟨tOnSess_ready (by decide +kernel) (by decide +kernel), tOnSess_ready (by decide +kernel) (by decide +kernel)⟩

/-- STEP of a session that a step runs. -/
theorem witness_StepBegun_running :
    (tWith tStep (tDev { tSess with runState := .running })).readyOn 7 0x1A tStep { tSess with runState := .running } :=
  tOnSess_ready (by decide +kernel) (by decide +kernel)

theorem witness_StepBegun_point :
    let u := (tWith tStep (tDev tSess)).atEffect 7 tStep tSess
    u.session? 3 = some tSess ∧ tSess.genReq = false ∧ tStep.desc.optBit 10 = false ∧ tSess.rec'.params.namesAny = false ∧
      ((u.vocab? 1).map (·.failed)).getD false = false ∧ u.enabled pgStm = true ∧ tStep.desc.specF 39 36 = 2 ∧
      tStep0.desc.specF 39 36 = 0 ∧ tSess.input = [] ∧
      ((tPassed (u.point 7 tStep.resolved 3 (!tStep.desc.optBit 8))).map (fun v => ((v.flushCarry 3).session? 3).isSome))
        = some true := by decide +kernel

/-- TOOL_WAIT of 7 ticks with its compaction suppressed. -/
def tWait : Cmd := tCmdOn 0x1B 2048 [7, 0, 0, 0, 0, 0, 0, 0]

theorem witness_WaitsBeginAndEnd_ToolWaitBegun : (tWith tWait (tDev tSess)).readyOn 7 0x1B tWait tSess :=
  tOnSess_ready (by decide +kernel) (by decide +kernel)

theorem witness_WaitsBeginAndEnd_ToolWaitBegun_point :
    ((tPassed (((tWith tWait (tDev tSess)).atEffect 7 tWait tSess).point 7 tWait.resolved 3 (tWait.desc.optBit 11))).map
      (fun v => v.session? 3)) = some (some tSess) ∧ tSess.wait = none := by decide +kernel

/-- A session in TOOL_WAIT. -/
def tInWait : Session := { tSess with runState := .toolWait, wait := some { cmd := 5, start := 0, wait := 7, overstayUs := 1, tierLimit := 0 } }
def tResume : Cmd := tCmdOn 0x1C 0 []

theorem witness_WaitsBeginAndEnd_ResumeEndsWait : (tWith tResume (tDev tInWait)).readyOn 7 0x1C tResume tInWait ∧
    (tWith tResume (tDev tSess)).readyOn 7 0x1C tResume tSess :=
  ⟨tOnSess_ready (by decide +kernel) (by decide +kernel), tOnSess_ready (by decide +kernel) (by decide +kernel)⟩

/-- PARK with its compaction suppressed, to the flash tier and to the pool. -/
def tPark (o : Nat) : Cmd := tCmdOn 0x1D (1024 + 256 * o) []
def tParkedSess : Session := { tSess with residency := .parked }

theorem witness_ParkMoves : (tWith (tPark 1) (tDev tSess)).readyOn 7 0x1D (tPark 1) tSess ∧
    (tWith (tPark 1) (tDev tParkedSess)).readyOn 7 0x1D (tPark 1) tParkedSess ∧
    (tWith (tPark 2) (tDev tSess)).readyOn 7 0x1D (tPark 2) tSess :=
  ⟨tOnSess_ready (by decide +kernel) (by decide +kernel), tOnSess_ready (by decide +kernel) (by decide +kernel),
    tOnSess_ready (by decide +kernel) (by decide +kernel)⟩

theorem witness_ParkMoves_target :
    let u := (tWith (tPark 1) (tDev tSess)).atEffect 7 (tPark 1) tSess
    u.enabled pgStm = true ∧ ((tPark 2).desc.opt 8 2 == 2 && u.regBit .STM_CFG_POOL_EN && !u.enabled pgFam) = false ∧
      ((tPassed (u.point 7 (tPark 1).resolved 3 true)).map (fun v => (v.session? 3, (v.parkTarget tSess 1).2,
        (v.parkTarget tSess 2).2, ((v.countRefusal false).stopWriteback 3).moveOf 3 .demote))) = some (some tSess, 0, 6, none) ∧
      (tPark 1).desc.optBit 10 = true ∧ (tPark 1).desc.optBit 11 = false ∧ tParkedSess.inHbm = false ∧
      (({ tMap with stm := { tMap.stm with moves := (⟨[]⟩ : Map Move).set 0 { slot := 3, cls := .demote, src := .warm, dst := .pooled, need := 0 } } }).moveOf 3 .demote).isSome = true := by
  decide +kernel

/-- A sealed page in HBM alone, and PARK with WRITEBACK_ONLY. -/
def tSealedPage : PageRec := { tPage with isSealed := true }
def tParkBack : Cmd := tCmdOn 0x1D (1024 + 2048 + 256) []
theorem witness_ParkMoves_writeback :
    (let v := tWith tParkBack { tPages tPaged with cane := { (tPages tPaged).cane with recs := (⟨[]⟩ : Map PageRec).set 9 tSealedPage } }
     ((v.pagesLacking tPaged .parked).filter (fun p => ((v.page? p).map (·.isSealed)).getD false)) = [9] ∧
       tParkBack.desc.optBit 11 = true) ∧
    (let v := tWith tParkBack (tDev tSess)
     ((v.pagesLacking tSess .parked).filter (fun p => ((v.page? p).map (·.isSealed)).getD false)) = []) := by decide +kernel

/-! ## Enables, waits and errors of the session tables -/

def tWaiting (o : Nat) : State :=
  { tBase with cmds := ((⟨[]⟩ : Map Cmd).set 4 (tCmd o 0 0 [])).set 7 { tCmd o 0 0 [] with phase := .waiting } }

theorem witness_WaitersServed_WaitingCommandTakesEffect : (tWaiting 1).commandsRun = true ∧ (tWaiting 1).cmds.keys = [4] ++ 7 :: [] ∧
    ((tWaiting 1).cmd? 4).map (·.phase) = some .started ∧ ((tWaiting 1).cmd? 7).map (·.phase) = some .waiting ∧
    (((((tWaiting 1).attempt 7 { tCmd 1 0 0 [] with phase := .waiting } (effectOf 1)).settled (tWaiting 1) 7
      { tCmd 1 0 0 [] with phase := .waiting }).cmd? 7).map (·.phase)) ≠ some .waiting := by decide +kernel

/-- A SESS_CLOSE that waits, with nothing in its way any longer. -/
def tCloseWaits : Cmd := { tCmdOn 0x11 0 [] with phase := .waiting }

theorem witness_WaitersServed_WaitingCommandTakesEffect_close :
    (tWith tCloseWaits (tDev tSess)).waitedOn 7 0x11 tCloseWaits tSess ∧ (tWith tCloseWaits (tDev tSess)).cmds.keys = [] ++ 7 :: [] := by
  have n : tNames (tWith tCloseWaits (tDev tSess)) tCloseWaits tSess := by decide +kernel
  have f : tFree (tWith tCloseWaits (tDev tSess)) 0x11 tCloseWaits tSess := by decide +kernel
  have w : (tWith tCloseWaits (tDev tSess)).cmd? 7 = some tCloseWaits ∧ (tWith tCloseWaits (tDev tSess)).commandsRun = true ∧
      (tWith tCloseWaits (tDev tSess)).failed pgGlb = false ∧ (tWith tCloseWaits (tDev tSess)).cmds.keys = [] ++ 7 :: [] := by decide +kernel
  exact ⟨⟨w.1, rfl, rfl, w.2.1, w.2.2.1, n, f⟩, w.2.2.2⟩

/-- The same with the pages of `l` DISABLED. -/
def tOff (l : List Nat) (s : State) : State := l.foldl (fun s p => s.setPageState p 0) s

theorem witness_ServingEnables_DirectoryEnable : (tOff [16] tMap).pageState pgSdir = 0 ∧ (tOff [16] tMap).ungate.sdirOk = true ∧
    (tOff [16] tBase).ungate.sdirOk = false ∧ (tDev tSess).pageState pgSdir = 1 ∧ (tDev tSess).sdir.sess.size ≠ 0 ∧
    tMap.sdir.sess.size = 0 ∧ (tMap.setPageState pgSdir 2).pageState pgSdir = 2 := by decide +kernel

theorem witness_ServingEnables_MoverAndIndexEnable : (tOff [17, 18] tMap).ungate.stmOk = true ∧ (tOff [17, 18] tMap).ungate.caneOk = true ∧
    (tOff [17] (tMap.setReg .STM_HEAP_SIZE_GIB 1151)).ungate.stmOk = false ∧
    (tDev { tSess with residency := .moving }).sdir.sess.values.any (fun x => x.residency == .moving) = true ∧
    (tPages tPaged).cane.recs.size ≠ 0 ∧ tMap.cane.recs.size = 0 := by decide +kernel

theorem witness_ServingEnables_TextAndStepEnable : (tOff [27] tMap).ungate.jckOk = true ∧ (tOff [27] (tMap.setReg .JCK_STORE_BASE_ADDR 0)).ungate.jckOk = false ∧
    tMap.pageState pgMrv = 1 ∧ tMap.objects.size = 0 ∧ tMap.enabled pgGaf = true ∧ tMap.gaf.running = none ∧
    ({ tMap with objects := (⟨[]⟩ : Map CObject).set 1 { model := 1, body := .escape [], bytes := 0 } }).objects.size ≠ 0 := by
  decide +kernel

/-- An overstay, at the tick of its limit, and one that was counted before. -/
def tLate (o : Bool) : Session :=
  { tInWait with resumeTick := 7, wait := some { cmd := 5, start := 0, wait := 7, overstayUs := 1, tierLimit := 0, overstayed := o } }

theorem witness_SessionTimers_OverstayCounted : (tDev (tLate false)).session? 3 = some (tLate false) ∧ (tLate false).runState = .toolWait ∧
    (tLate false).resumeTick ≠ 0 ∧ (tLate false).resumeTick + 1 * 1000 ≤ ({ tDev (tLate false) with tick := 1007 }).tick := by
  decide +kernel

/-- A session whose reheats fall due at ticks 50 and 90. -/
def tHeat (r : Residency) : Session :=
  { tInWait with residency := r, resumeTick := 100, reheat := some { resumeTick := 100, f1 := some 50, f2 := some 90, leadPw := 50, leadLw := 0, leadWh := 10 } }

theorem witness_SessionTimers_ReheatPromotes : ({ tDev (tHeat .parked) with tick := 50 }).enabled pgStm = true ∧
    (tHeat .parked).reheatDue = some { resumeTick := 100, f1 := some 50, f2 := some 90, leadPw := 50, leadLw := 0, leadWh := 10 } ∧
    (tHeat .warm).reheatDue.isSome = true ∧ (tDev (tHeat .warm)).regBit .STM_CFG_REHEAT_EN = true := by decide +kernel

theorem witness_SessionTimers_IdleDemotions :
    (let s : State := { tDev { tSess with residency := .hot } with tick := 10000000000000 }
     (0 : Nat) + s.reg .STM_HOT_IDLE_US * 1000 ≤ s.tick ∧ ({ tSess with residency := .hot } : Session).outsideSteps = true ∧
       s.moveOf 3 .demote = none) ∧
    (let s : State := { tDev tSess with tick := 10000000000000000 }
     s.regBit .STM_CFG_AGE_EN = true ∧ (0 : Nat) + s.reg .STM_AGE_S * 1000000000 ≤ s.tick) ∧
    (tDev tSess).pressureNow = false ∧ (∀ b : Bool, let s := (tDev tSess).setReg .STM_HEAP_SIZE_GIB 0
      ({ s with stm := { s.stm with pressure := b } }).pressureNow = true) := by decide +kernel

/-- A request for two tokens of command 7. -/
def tReq : StepReq := { cmd := 7, maxNew := 2, partialEvery := 0, textOff := 0, outText := false, dropOnMiss := false }

/-- A session whose compaction waits since tick 5 for command 7, which is its STEP or not, and whose table it leaves as it is. -/
def tCompacting (q : Bool) : Session :=
  { tSess with compact := some { since := 5, cmd := some 7 }, stepReq := if q then some tReq else none }

theorem witness_WaitersServed_WaitingCompactions : ∀ q : Bool,
    (tDev (tCompacting q)).session? 3 = some (tCompacting q) ∧
    ((tDev (tCompacting q)).compact 3 tSess.rec'.params.budget 5).isSome = true ∧
    ((tCompacting q).stepReq.map (·.cmd) = some 7 ↔ q = true) ∧
    5 + 10000000 ≤ ({ tMap with tick := 10000005 }).tick ∧ ({ tMap with tick := 10000004 }).tick < 5 + 10000000 := by decide +kernel

/-- A promotion that has waited 10 ms. -/
def tProm : Move := { slot := 3, cls := .promote, src := .parked, dst := .warm, need := 0 }
def tPromoting : State :=
  let s := tDev { tSess with residency := .parked }
  { s with tick := 10000000, stm := { s.stm with moves := (⟨[]⟩ : Map Move).set 0 tProm, nextMove := 1 } }

theorem witness_WaitersServed_PromotionGivenUp :
    let s := tPromoting.setReg .STM_HEAP_SIZE_GIB 0
    s.waitingMoves.filter (fun e => s.lacksSpace e.2 && decide (e.2.need + 10000000 ≤ s.tick)) = [(0, tProm)] := by
  decide +kernel

theorem witness_TableErrors_DirectoryErrors :
    (let s : State := { tDev tSess with sdir := { (tDev tSess).sdir with missing := [3] } }
     s.sdir.missing.contains 3 = true ∧ s.regBit .SDIR_BAD_SLOT_VALID = false) ∧
    (let s : State := { tDev tSess with sdir := { (tDev tSess).sdir with
      missing := [3], cache := (⟨[]⟩ : Map (List Way)).set (cacheSet 3) [{ tag := cacheTag 3 }] } }
     (s.cacheWays (cacheSet 3)).any (fun w => w.tag == cacheTag 3) = true) := by decide +kernel

def tNode : Node :=
  { hash := 0, parent := none, depth := 0, tenant := 1, model := 1, topP := 16, exitProfile := 0, page := none, next := none }

theorem witness_TableErrors_PageRecordErrors : (tPages tPaged).page? 9 = some tPage ∧ tPaged.frames.contains 9 = true ∧
    ({ tMap with cane := { tMap.cane with nodes := (⟨[]⟩ : Map Node).set 2 tNode } }).node? 2 = some tNode ∧
    (let s := tWith (tCmdOn 0x11 0 []) { tPages tPaged with cane := { (tPages tPaged).cane with
        recs := (⟨[]⟩ : Map PageRec).set 9 { tPage with bad := true } } }
     tStarted s 0x11 (tCmdOn 0x11 0 []) ∧ s.resolve (tCmdOn 0x11 0 []).desc = none ∧ s.session? 3 = some tPaged ∧
       s.holdsBad tPaged = true) := by decide +kernel

theorem witness_TableErrors_PageFreed :
    let s : State := { tMap with cane := { tMap.cane with reclaim := [9], recs := (⟨[]⟩ : Map PageRec).set 9 {} } }
    s.failed pgCane = false ∧ s.cane.reclaim = 9 :: [] ∧ s.page? 9 = some {} ∧ tPage.refs ≠ 0 := by decide +kernel

theorem witness_TableErrors_RowAndGroupErrors :
    let s := (tBase.setReg .EMB_TBL_CFG_VALID 1 2).setReg .SRCH_COLL_CFG_VALID 1 4
    let h : HotRow := { table := 2, row := 5, mask := 0xFFF }
    let u : State := { s with emb := { s.emb with hot := (⟨[]⟩ : Map HotRow).set 0 h } }
    s.enabled pgEmb = true ∧ s.tblUsable 2 = true ∧ s.tblRemote 2 = false ∧ s.enabled pgSrch = true ∧
      s.regBit .SRCH_COLL_CFG_VALID 4 = true ∧ (s.common pgSrch).code = 0 ∧ s.hotOf 2 5 = none ∧ u.hotOf 2 5 = some (0, h) ∧
      (∃ b, b < 12 ∧ bitAt h.mask b = true ∧ bitAt (u.primaryMask 2 5) b = false) := by decide +kernel

/-! ## Moves, capsules and migrations -/

/-- A session in HBM with one move that waits. -/
def tMoves (x : Session) (m : Move) : State :=
  let s := tDev x
  { s with stm := { s.stm with moves := (⟨[]⟩ : Map Move).set 0 m, nextMove := 1 } }

def tHot : Session := { tSess with residency := .hot, seat := some (0, 0) }
def tDown : Move := { slot := 3, cls := .demote, src := .hot, dst := .warm, need := 0 }

theorem witness_MovesRun_MoveStarts : (tMoves tHot tDown).enabled pgStm = true ∧ (tMoves tHot tDown).freeze = 0 ∧
    (tMoves tHot tDown).waitingMoves.filter (fun e => (tMoves tHot tDown).staleMove e.2) = [] ∧
    ((tMoves tHot tDown).waitingMoves.findSome? (fun e => ((tMoves tHot tDown).tryStart e.1 e.2).map (fun t => t.issueRead e.2.slot))).isSome = true ∧
    ((tDev tSess).waitingMoves.findSome? (fun e => ((tDev tSess).tryStart e.1 e.2).map (fun t => t.issueRead e.2.slot))).isNone = true ∧
    (tDev tSess).waitingMoves.filter (fun e => (tDev tSess).staleMove e.2) = [] ∧
    (tMoves tHot tDown).waitingMoves = (0, tDown) :: [] ∧ (tMoves tHot tDown).session? 3 = some tHot ∧
    (tMoves tHot tDown).freeCtx .demote = some 256 ∧ tHot.compact = none ∧ tHot.compactDue = none ∧ tHot.runState ≠ .running ∧
    tHot.leased = false := by decide +kernel

/-- A promotion from the flash tier with one tile to move, and one whose tiles are all moved. -/
def tTile : MTile := { kind := .stepRecord, page := 0, index := 0, raw := 8192 }
def tUp (l : List MTile) : Move :=
  { slot := 3, cls := .promote, src := .parked, dst := .warm, need := 0, ctx := some 0, tiles := l }
def tArriving (c : Bool) : Session :=
  { tSess with residency := .moving, moveSrc := .parked, moveDst := .warm, cancel := c }
/-- The state mover's ports with the credits of a new window. -/
def tCredit (s : State) : State := s.renewCredits

/-- The same from a peer's pool, where a tile moves with its raw length. -/
def tPool (l : List MTile) : Move := { tUp l with src := .pooled }

theorem witness_MovesRun_TileMoved : (tCredit (tMoves (tArriving false) (tPool [tTile]))).nextTransfer = some (0, tPool [tTile]) ∧
    (tCredit (tMoves (tArriving false) (tPool [tTile]))).freeze = 0 ∧ (tPool [tTile]).tiles = tTile :: [] ∧
    (tPool [tTile]).job = none ∧ (tPool [tTile]).writebackOnly = false ∧
    (((tCredit (tMoves (tArriving false) (tPool [tTile]))).session? 3).map (·.cancel)).getD false = false ∧
    (((tCredit (tMoves (tArriving true) (tPool [tTile]))).session? 3).map (·.cancel)).getD false = true ∧
    (tPool [tTile]).pinsFor tTile = false ∧ (tPool [{ tTile with kind := .kv, page := 9 }]).pinsFor { tTile with kind := .kv, page := 9 } = true ∧
    (tCredit (tMoves (tArriving false) (tPool [{ tTile with kind := .kv, page := 9 }]))).nextTransfer
      = some (0, tPool [{ tTile with kind := .kv, page := 9 }]) := by decide +kernel

/-- A tile of 4,096 bytes takes 4,096 on flash, whatever its compressed form. -/
theorem stored_small (b : List Byte) : storedLen b 4096 = 4096 := by
  unfold storedLen storedForm
  split
  · rename_i h
    simp only [Bool.and_eq_true, bne_iff_ne, ne_eq, decide_eq_true_eq] at h
    have g : b.length ≠ 0 := by simpa using h.1.2
    have k := h.2
    generalize b.length = n at g k
    unfold roundUp ceilDiv
    omega
  · rfl

theorem granted_of {s : State} {m : Move} {t : MTile} {l : List (Nat × Nat)} {c : Nat} {r : List MTile} (hp : s.tilePorts m t = l)
    (hc : m.ctx = some c) (ht : m.tiles = t :: r) :
    s.tileGranted m = (s.hbmOn && (s.fcdOn || (m.src != .parked && m.dst != .parked)) &&
      (s.raised m || l.all (fun q => s.grant q.1 m.cls.code q.2))) := by
  simp only [State.tileGranted, hc, ht, hp]

def tSmall : MTile := { tTile with raw := 4096 }
def tRead : State := tCredit (tMoves (tArriving false) (tUp [tSmall]))

theorem tRead_ports : tRead.tilePorts (tUp [tSmall]) tSmall = [(1, 4096), (0, 4096)] := by
  show [(1, storedLen _ 4096), (0, 4096)] = _
  rw [stored_small]

theorem tRead_granted : tRead.tileGranted (tUp [tSmall]) = true := by
  rw [granted_of tRead_ports rfl rfl]
  decide +kernel

theorem next_of {s : State} {n : Nat} {m : Move} (hl : s.stm.moves.entries = [(n, m)])
    (hc : (m.ctx.isSome && !m.tiles.isEmpty) = true) (hg : s.tileGranted m = true) : s.nextTransfer = some (n, m) := by
  simp only [State.nextTransfer, hl, List.filter_cons, List.filter_nil, hc, hg, Bool.and_self, if_true, sortMoves, List.foldr,
    insertMove, List.find?, List.head?]
  split <;> rfl

theorem witness_MovesRun_TileMoved_flash : tRead.nextTransfer = some (0, tUp [tSmall]) :=
  next_of rfl rfl tRead_granted

/-- An import whose page-table tile, of one page, is to be read from host address 0, with its record there, or nothing. -/
def tOnePage : Capsule :=
  { record := {}, table := [{ frame := 0, count := 1, isTail := true, firstPos := 0, lastPos := 0 }], pages := [[{ index := 0, word := 0, kv := 0 }]] }
def tReadJob : CapsuleJob :=
  { kind := .importFrom, cmd := 7, slot := 3, content := tOnePage, move := 0, space := 0, addr := 0, key := List.replicate 32 1
    header := List.replicate 146 0 ++ leBytes 256 6 ++ leBytes 65600 8 ++ [2, 0] ++ leBytes 65856 6 ++ List.replicate 88 0 }
def tTable : MTile := { kind := .pageTable, page := 0, index := 0, raw := 16 }
def tInward : Move := { slot := 3, cls := .capsule, src := .free, dst := .warm, need := 0, ctx := some 0, tiles := [tTable], job := some 0 }
def tReadTile (bs : List Byte) : State :=
  let s := tCredit (tMoves (tArriving false) tInward)
  { s with jobs := (⟨[]⟩ : Map CapsuleJob).set 0 tReadJob, host := (⟨[]⟩ : Memory).writeN 65856 bs }
def tTableRecord : List Byte :=
  tModel.encodeRecord tOnePage (List.replicate 32 1) (List.replicate 12 0) 1 (tModel.capsuleRecord tOnePage false .pageTable 0 0 true)

theorem witness_MovesRun_CapsuleTileRead : (tReadTile tTableRecord).nextTransfer = some (0, tInward) ∧
    (tReadTile tTableRecord).freeze = 0 ∧ (tReadTile tTableRecord).readingJob tInward = some tReadJob ∧ tInward.job = some 0 ∧
    (tReadTile tTableRecord).readRecord tReadJob ((tReadTile tTableRecord).moveModel tInward) tTable = .done ∧
    (tReadTile []).nextTransfer = some (0, tInward) ∧
    (tReadTile []).readRecord tReadJob ((tReadTile []).moveModel tInward) tTable = .tagFail := by decide +kernel

/-! ## Ciphers and compression, against the examples of their standards -/

/-- FIPS 197, appendix C.3. -/
theorem test_aes256 : aesBlock (roundKeys ((List.range 32).map (BitVec.ofNat 8))) (bytesBig 0x00112233445566778899AABBCCDDEEFF 16)
    = bytesBig 0x8EA2B7CA516745BFEAFC49904B496089 16 := by decide +kernel

/-- GCM with a key and a nonce of zeros over a block of zeros (test case 14 of the GCM specification). -/
theorem test_gcm256 : gcmSeal (List.replicate 32 0) (List.replicate 12 0) [] (List.replicate 16 0)
    = (bytesBig 0xCEA7403D4D606B6E074EC5D3BAF39D18 16, bytesBig 0xD0D1C8A799996BF0265B98B5D48AB919 16) := by decide +kernel

/-- AES-CMAC of the empty message (SP 800-38B, 256-bit key). -/
theorem test_cmac256 : cmac (bytesBig 0x603DEB1015CA71BE2B73AEF0857D77811F352C073B6108D72D9810A30914DFF4 32) []
    = bytesBig 0x028962F61B7BF89EFC6B551F4667D983 16 := by decide +kernel

/-- A block with two literals, a match of six bytes two back, and a literal at its end; an offset beyond the output is not valid. -/
theorem test_lz4 : lz4Decode [0x22, 1, 2, 2, 0, 0x10, 3] = some [1, 2, 1, 2, 1, 2, 1, 2, 3] ∧ lz4Decode [0x22, 1, 2, 3, 0, 0x10, 3] = none ∧
    planes 2 [1, 2, 3, 4, 5, 6] = [1, 3, 5, 2, 4, 6] := by decide +kernel

def tToHot : Move := { tUp [] with src := .warm, dst := .hot, seat := some (0, 1) }

theorem witness_MovesRun_MoveCommits : (tMoves (tArriving false) (tUp [])).finishedMove = some (0, tUp []) ∧
    (tMoves (tArriving false) tToHot).finishedMove = some (0, tToHot) ∧
    (tMoves (tArriving false) { tUp [] with cls := .demote }).finishedMove = some (0, { tUp [] with cls := .demote }) ∧
    (tArriving false).leased = false ∧ (tArriving true).cancel = true ∧
    (tMoves { tArriving false with leased := true } (tUp [])).leaseOk { tArriving false with leased := true } = false := by
  decide +kernel

theorem witness_MovesRun_CreditWindowRenewed : ({ tMap with tick := 10000 }).enabled pgStm = true ∧
    ({ tMap with tick := 10000 }).stm.windowEnd ≤ 10000 := by decide +kernel

/-- EXPORT_CAPSULE with room for `n` bytes, and with ESTIMATE. -/
def tExport (n opts : Nat) : Cmd := tCmdOn 0x20 opts (leBytes 4096 8 ++ leBytes n 8)
def tExp (n opts : Nat) : State := tWith (tExport n opts) (tDev tSess)

theorem witness_CapsulesMoved_CapsuleExportStarted : (tExp 70000 0).readyOn 7 0x20 (tExport 70000 0) tSess ∧
    (tExp 0 2048).readyOn 7 0x20 (tExport 0 2048) tSess :=
  ⟨tOnSess_ready (by decide +kernel) (by decide +kernel), tOnSess_ready (by decide +kernel) (by decide +kernel)⟩

theorem witness_CapsulesMoved_CapsuleExportStarted_room :
    let u := (tExp 70000 0).atEffect 7 (tExport 70000 0) tSess
    let b := capsuleBound (u.layoutOf tSess) tSess.table.length (tSess.table.filter (·.isSealed)).length
    u.session? 3 = some tSess ∧ u.enabled pgStm = true ∧ u.currentTtk 1 = some 5 ∧
      (tExport 0 2048).desc.optBit 11 = true ∧ (tExport 70000 0).desc.optBit 11 = false ∧
      b ≤ (tExport 70000 0).desc.specF 51 44 ∧ (tExport 0 0).desc.specF 51 44 < b ∧ u.longBusy pgStm = false := by
  decide +kernel

/-- The capsule of a session without pages, and its header with transport key 5, from device `src` at epoch 3. -/
def tCapsule : Capsule := { record := {}, table := [], pages := [] }
def tHeader (src : Nat) : List Byte :=
  capsuleHeader (tMap.setReg .FAM_SELF_DEVICE src) { tSess with leaseEpoch := 3 } 3 tModel tCapsule false (leBytes 5 16)
    (leBytes 0 12)
def tCapLen : Nat := leAt (tHeader 6) 88 8

/-- The capsule's header and, after it, that of its one tile: the step record's, index 0 and LAST, 65,536 bytes stored raw (R101). -/
def tCapHead : List Byte := tHeader 6 ++ [3, 0, 2, 0] ++ leBytes 65536 4 ++ leBytes 0 8

def tJob (k : JobKind) : CapsuleJob :=
  { kind := k, cmd := 7, slot := 3, content := tCapsule, move := 0, space := 0, addr := 4096, header := tHeader 6 }
def tJobs (k : JobKind) : State :=
  let s := tMoves (tArriving false) { tUp [] with job := some 0 }
  { s with jobs := (⟨[]⟩ : Map CapsuleJob).set 0 (tJob k) }

theorem witness_CapsulesMoved_CapsuleExported :
    (tJobs .exportTo).jobDone (fun k => k == .exportTo || k == .migrateOut) = some (0, tJob .exportTo) ∧
    (tJob .exportTo).failed = false ∧ (tJob .exportTo).space ≠ 2 := by decide +kernel

theorem witness_CapsulesMoved_CapsuleImported :
    (tJobs .importFrom).jobDone (fun k => k == .importFrom || k == .migrateIn || k == .reclaim) = some (0, tJob .importFrom) ∧
    tableOk tCapsule (leAt (tHeader 6) 72 4) = true ∧ (tJobs .importFrom).session? 3 = some (tArriving false) := by
  decide +kernel

/-- A device 5 whose fabric memory from 0 to 2 MiB is a pool behind device 9; a capsule stands at 0 there and in host
memory. -/
def tFab (s : State) : State :=
  let s := (((s.setReg .FAM_MAP_UNITS_UNITS 1).setReg .FAM_MAP_DEST_DEVICE 9).setReg .FAM_MAP_DEST_KIND 1).setReg .FAM_SELF_DEVICE 5
  { s with fabric := s.fabric.writeN 0 tCapHead, host := s.host.writeN 0 tCapHead }

/-- The same with the capsule's HEADER_TAG under the key that tenant 1's transport key gives. -/
def tTagged (s : State) : State :=
  let tag := capsuleTag (capsuleKey [] (leBytes 0 12) 1) (tHeader 6)
  let s := tFab s
  { s with fabric := s.fabric.writeN (tCapLen - 64) tag, host := s.host.writeN (tCapLen - 64) tag }

def tImport : Cmd := tCmd 0x21 0 0 (leBytes 0 8 ++ leBytes tCapLen 8)
def tImp : State := tWith tImport (tTagged tMap)

def tPass : ImportCheck → Option Nat
  | .pass m => some m
  | _ => none

theorem witness_CapsulesMoved_CapsuleImportStarted :
    let u := tImp.withSource 7 tCapsule none
    let h := u.readSrc (tImport.desc.opt 8 2) (tImport.desc.specF 43 36) 256
    tPlain u 0x21 tImport ∧ u.sources.get? 7 = some tCapsule ∧ u.longBusy pgStm = false ∧
      tPass (u.importChecks 1 (tImport.desc.specF 51 44) (u.srcAt (tImport.desc.opt 8 2) (tImport.desc.specF 43 36)) tCapsule) = some 1 ∧
      tPass (u.importChecks 1 (tImport.desc.specF 51 44 + 1) (u.srcAt (tImport.desc.opt 8 2) (tImport.desc.specF 43 36)) tCapsule)
        = none ∧
      (u.importRoom 1 (u.model 1).layout 0).1 = 0 ∧
      ((u.arriving 1 1 (bitAt (leAt h 14 2) 0) tCapsule).map (·.1)) = some 0 := by decide +kernel

def tOut : Cmd := tCmdOn 0x22 0 (leBytes 4096 8 ++ leBytes 70000 8 ++ leBytes 8 2 ++ [0, 0] ++ leBytes 0x100000 8)

theorem witness_SessionsMigrate_MigrationOutStarted : (tWith tOut (tFab (tDev tSess))).readyOn 7 0x22 tOut tSess :=
  tOnSess_ready (by decide +kernel) (by decide +kernel)

/-- Every way of slot 3's set holds another entry, locked. -/
def tNoWay (s : State) : State := s.setWays (cacheSet 3) ((List.range 8).map (fun i => { tag := cacheTag 3 + 1 + i, locked := true }))

theorem witness_SessionsMigrate_MigrationOutStarted_room :
    let u := (tWith tOut (tFab (tDev tSess))).atEffect 7 tOut tSess
    u.session? 3 = some tSess ∧ u.enabled pgStm = true ∧ u.enabled pgFam = true ∧ u.currentTtk 1 = some 5 ∧
      capsuleBound (u.layoutOf tSess) 0 0 ≤ tOut.desc.specF 51 44 ∧ (u.lockEntry 3).isSome = true ∧ u.stm.moves.entries = [] ∧
      ((tNoWay u).lockEntry 3).isNone = true ∧ tOut.aux ≠ 3 ∧
      ({ u with tenants := u.tenants.set 1 { state := .opened, keys := true, localOnly := false } }).currentTtk 1 = none ∧
      tOut.desc.specF 51 44 < capsuleBound (u.layoutOf tSess) 1 0 := by decide +kernel

def tIn : Cmd := tCmd 0x23 0 0 (leBytes 0 8 ++ leBytes tCapLen 8 ++ leBytes 6 2 ++ [0, 0] ++ leBytes 0x100000 8)

theorem witness_SessionsMigrate_MigrationInStarted :
    let w : DWord := BitVec.ofNat 64 (offered 3 6 5)
    let u := (tWith tIn (tTagged tMap)).withSource 7 tCapsule (some w)
    let h := u.readSrc 2 (tIn.desc.specF 43 36) 256
    u.cmd? 7 = some tIn ∧ u.commandsRun = true ∧ fabricRanges tIn.desc false ≠ [] ∧ u.enabled pgFam = true ∧
      (fabricRanges tIn.desc false).any (fun e => !u.mapped e.1 e.2) = false ∧
      u.inPoolEntry (tIn.desc.specF 43 36) (tIn.desc.specF 51 44) = true ∧ u.inPoolEntry (tIn.desc.specF 63 56) 8 = true ∧
      tIn.desc.payLen = 0 ∧ tPass (u.importChecks 1 (tIn.desc.specF 51 44) (u.srcAt 2 (tIn.desc.specF 43 36)) tCapsule) = some 1 ∧
      leAt h 50 2 = tIn.desc.specF 53 52 ∧ u.homeReachable (tIn.desc.specF 63 56) = true ∧
      u.fam.words.get? 7 = some (offered (leAt h 84 4) (tIn.desc.specF 53 52) u.self) ∧
      (u.importRoom 1 (u.model 1).layout 0).1 = 0 ∧ (u.arriving 1 1 false tCapsule).isSome = true := by decide +kernel

/-- What MIGRATE_IN meets in its way: addresses outside the pool, a source other than DEST, a word that offers nothing, no answer. -/
def tInOf (cap lease src : Nat) : Cmd := tCmd 0x23 0 0 (leBytes cap 8 ++ leBytes tCapLen 8 ++ leBytes src 2 ++ [0, 0] ++ leBytes lease 8)

theorem witness_SessionsMigrate_MigrationInStarted_refused :
    let w : DWord := BitVec.ofNat 64 (offered 3 6 5)
    let u := (tWith tIn (tFab tMap)).withSource 7 tCapsule (some w)
    let g (word : Option DWord) := (tWith tIn (tFab tMap)).withSource 7 tCapsule word
    u.readyPlain 7 0x23 tIn ∧ u.enabled pgSdir = true ∧ u.enabled pgCane = true ∧
      u.inPoolEntry ((tInOf 0x200000 0x100000 6).desc.specF 43 36) ((tInOf 0x200000 0x100000 6).desc.specF 51 44) = false ∧
      u.inPoolEntry ((tInOf 0 0x200000 6).desc.specF 63 56) 8 = false ∧
      tPass ((g (some w)).importChecks 1 (tIn.desc.specF 51 44) ((g (some w)).srcAt 2 (tIn.desc.specF 43 36)) tCapsule) = none ∧
      leAt (u.readSrc 2 (tIn.desc.specF 43 36) 256) 50 2 ≠ (tInOf 0 0x100000 7).desc.specF 53 52 ∧
      ((g none).countLease 0x100000).fam.words.get? 7 = none ∧
      owned 3 6 ≠ offered 3 6 5 ∧ owned 3 6 ≠ owned (nextEpoch 3) 5 ∧
      ((g (some (BitVec.ofNat 64 (owned 3 6)))).countLease 0x100000).fam.words.get? 7 = some (owned 3 6) := by
  refine ⟨?_, by decide +kernel⟩
  have h : tPlain ((tWith tIn (tFab tMap)).withSource 7 tCapsule (some (BitVec.ofNat 64 (offered 3 6 5)))) 0x23 tIn := by decide +kernel
  exact h

/-- A session whose capsule device 8 holds. -/
def tAway : Session := { tSess with residency := .away, leased := true, leaseEpoch := 3, leaseAddr := 0x100000, owner := 8 }
def tBack : Cmd := tCmdOn 0x24 512 (leBytes 0 8 ++ leBytes tCapLen 8)
def tRec (w : Nat) : State := (tWith tBack (tTagged (tDev tAway))).withSource 7 tCapsule (some (BitVec.ofNat 64 w))

theorem witness_SessionsMigrate_ReclaimStarted : (tRec (owned 3 5)).readyOn 7 0x24 tBack tAway :=
  tOnSess_ready (by decide +kernel) (by decide +kernel)

def tGo : ReclaimWay → Bool
  | .go _ => true
  | _ => false

theorem witness_SessionsMigrate_ReclaimStarted_word :
    let u := (tRec (owned 3 5)).atEffect 7 tBack tAway
    let v := (u.countLease tAway.leaseAddr).noteWord (owned 3 5)
    (u.countLease tAway.leaseAddr).homeReachable tAway.leaseAddr = true ∧
      (u.countLease tAway.leaseAddr).fam.words.get? 7 = some (owned 3 5) ∧
      tGo (v.reclaimWay (owned 3 5) (tBack.desc.optBit 10)) = true ∧
      tGo (v.reclaimWay (owned 3 8) (tBack.desc.optBit 10)) = false ∧
      tPass (v.importChecks 1 (tBack.desc.specF 51 44) (v.srcAt (tBack.desc.opt 8 2) (tBack.desc.specF 43 36)) tCapsule)
        = some 1 := by decide +kernel

/-- A return: the payload names the AWAY session of slot 3. -/
def tReturn (h : Nat) : State :=
  let s := tFab (tDev tAway)
  (tWith { tIn with desc := { tIn.desc with flags := 4, payAddr := 0, payLen := 8 } }
    { s with window := (⟨[]⟩ : Memory).writeN 0 (leBytes h 8) }).withSource 7 tCapsule (some (BitVec.ofNat 64 (offered 3 6 5)))

theorem witness_SessionsMigrate_MigrationInStarted_return :
    let c := { tIn with desc := { tIn.desc with flags := 4, payAddr := 0, payLen := 8 } }
    let v := ((tReturn tH).countLease 0x100000).noteWord (offered 3 6 5)
    (tReturn tH).returnSlot c = some 3 ∧ (tReturn 0).returnSlot c = none ∧ v.returnSlot c = some 3 ∧ c.desc.payLen = 8 ∧
      v.heapRoom 1 ((v.model 1).layout.recordBytes (v.nverOf 1) + importBytes (v.model 1).layout 0) false = true ∧
      (allotImport v 1 1 (v.model 1).layout (tCapsule.table.zip tCapsule.pages) []).isSome = true := by decide +kernel

theorem witness_SessionsMigrate_ReclaimStarted_refused :
    let u (w : Nat) := (tRec w).atEffect 7 tBack tAway
    (u 0).session? 3 = some tAway ∧ (u 0).enabled pgStm = true ∧ (u 0).enabled pgCane = true ∧ (u 0).enabled pgFam = true ∧
      (u 0).sources.get? 7 = some tCapsule ∧ leaseStateOf 0 = 0 ∧
      leaseStateOf (offered 3 6 5) = 2 ∧ leaseOffereeOf (offered 3 6 5) = (u 0).self ∧ leaseOwnerOf (offered 3 6 5) ≠ (u 0).self ∧
      leaseStateOf (owned 3 8) = 1 ∧ leaseOwnerOf (owned 3 8) ≠ (u 0).self ∧ tBack.desc.optBit 10 = false ∧
      leaseOffereeOf (offered 3 5 8) ≠ (u 0).self ∧ (tCmdOn 0x24 1024 []).desc.optBit 10 = true ∧
      (((tWith tBack (tFab (tDev tAway))).withSource 7 tCapsule none).fam.words.get? 7).isNone = true := by decide +kernel

def tCas : CasOp := { slot := 3, op := .release, expect := owned 3 5, word := 0 }

theorem witness_LeasesKept_LeaseCasEnds :
    let s := tFab (tDev tSess)
    let u : State := { s with fam := { s.fam with cas := (⟨[]⟩ : Map (List CasOp)).set 0x100000 [tCas] } }
    u.fam.cas.getD 0x100000 [] = tCas :: [] ∧ u.homeReachable 0x100000 = true ∧
      (BitVec.ofNat 64 (owned 3 5)).toNat = tCas.expect ∧ (BitVec.ofNat 64 (owned 3 6)).toNat ≠ tCas.expect := by decide +kernel

def tLeased : Session := { tSess with leased := true, leaseEpoch := 3, leaseAddr := 0x100000 }
def tOffer : Migration := { slot := 3, kind := .migrateOut, addr := 0x100000, peer := 8, offeredAt := some 0 }
def tOffering : State := { tFab (tDev tLeased) with migrations := (⟨[]⟩ : Map Migration).set 7 tOffer, tick := 1000000000000 }
def tMsg (k : MsgKind) : PeerMsg := { source := 9, kind := k, msgSeq := 0, seq := 0, row := 0x100000 }

theorem witness_LeasesKept_LeasesWatched : (tFab (tDev tLeased)).session? 3 = some tLeased ∧
    (tFab (tDev tLeased)).notMigrating 3 = true ∧ (tFab (tDev tLeased)).homeReachable 0x100000 = true ∧
    (BitVec.ofNat 64 (owned 3 5)).toNat = owned tLeased.leaseEpoch (tFab (tDev tLeased)).self ∧
    tOffering.watched tOffer = true ∧ tOffer.polledAt + max 10 (tOffering.reg .FAM_LEASE_POLL_US) * 1000 ≤ tOffering.tick ∧
    0 + tOffering.offerTicks ≤ tOffering.tick ∧ tOffering.homeReachable tOffer.addr = true ∧
    (tOffering.takeMsg (tMsg .leaseNote)).isSome = true := by decide +kernel

theorem witness_LeasesKept_LeasesWatched_note :
    let s : State := { tOffering with migrations := (⟨[]⟩ : Map Migration).set 7 tOffer }
    ((s.takeMsg (tMsg .leaseNote)).map (fun t => t.migrations.find? (fun _ g => g.addr == (tMsg .leaseNote).row && t.watched g)))
      = some (some (7, tOffer)) ∧ s.migrations.get? 7 = some tOffer ∧ tOffer.offeredAt = some 0 ∧
      tLeased.residency ≠ .away ∧ tLeased.runState ≠ .lost := by decide +kernel

theorem witness_StepsComposeAndCommit_PartialWrittenWhenFree :
    let s := tWith (tCmd 0x22 0 0 []) tOffering
    let t : State := { s with migrations := s.migrations.set 7 { tOffer with partialDue := true } }
    t.migrations.find? (fun _ m => m.slot == 3 && m.partialDue) = some (7, { tOffer with partialDue := true }) ∧
      (({ t with rings := (⟨[]⟩ : Map Ring).set 0 tRing }).ring 0).freeSlots ≠ 0 ∧
      s.migrations.find? (fun _ m => m.slot == 3 && m.partialDue) = none := by decide +kernel

/-- A STEP whose PARTIAL was held back, while it runs and once it has ended. -/
def tPartial (e : Bool) : Session :=
  { tSess with heldBack := true, stepReq := if e then none else some tReq, ended := if e then some (tReq, 0) else none }

theorem witness_StepsComposeAndCommit_PartialWrittenWhenFree_step : ∀ e : Bool,
    let s := tWith (tCmdOn 0x1A 0 []) { tDev (tPartial e) with rings := (⟨[]⟩ : Map Ring).set 0 tRing }
    s.migrations.find? (fun _ m => m.slot == 3 && m.partialDue) = none ∧ s.session? 3 = some (tPartial e) ∧
      (s.cmd? tReq.cmd).isSome = true ∧ (s.ring 0).freeSlots ≠ 0 := by decide +kernel

/-! ## Admission, models, text and steps -/

/-- A command of tenant 1 that heads its queue, and one of an administrative ring. -/
def tQueued : Cmd := { tCmd 1 0 0 [] with phase := .queued, finish := 256 }
def tQueue : State :=
  let s := tWith tQueued tMap
  { s with adm := { s.adm with queues := (⟨[]⟩ : Map AdmQueue).set 8 { cmds := [7], lastFinish := 256 } } }
def tAdmin : State :=
  let s := tWith { tQueued with admin := true } tMap
  { s with adm := { s.adm with adminQ := [7] } }

theorem witness_DequeueOrder : tAdmin.freeze = 0 ∧ tAdmin.ckp.restore = none ∧ tAdmin.pageState pgGlb = 1 ∧
    tAdmin.adm.adminQ = 7 :: [] ∧ tAdmin.eligible 7 = true ∧ tQueue.adm.adminQ = [] ∧ tQueue.heads true = [] ∧
    bestHead (tQueue.heads false) = some (8, 7, 256) ∧
    bestHead ((tQueue.setReg .ADM_CLASS_URGENT 1 0).heads true) = some (8, 7, 256) := by decide +kernel

theorem witness_LowestFinishFirst : bestHead [(8, 7, 300), (9, 6, 200)] = some (9, 6, 200) ∧
    bestHead [(8, 7, 200), (9, 6, 200)] = some (8, 7, 200) ∧
    (∀ e, e ∈ [((8 : Nat), (7 : Nat), (300 : Nat)), (9, 6, 200)] → 200 ≤ e.2.2 ∧ e.2.2 < 200 + 2 ^ 63) := by decide +kernel

def tLateCmd : Cmd := { tQueued with desc := { opcode := 1, deadline := 5 } }
def tLateState : State := { (tWith tLateCmd tMap).setReg .ADM_CLASS_DROP_LATE 1 0 with tick := 6 }

theorem witness_DequeueOrder_LateCommandDropped : tLateState.lateCmd = some (7, tLateCmd) ∧ tLateState.named tLateCmd.desc = none := by
  decide +kernel

/-- The same for a command that names the session of slot 3. -/
def tLateOn : Cmd := { tLateCmd with desc := { tLateCmd.desc with opcode := 0x13, handle := tH } }
def tLateNamed : State := { (tWith tLateOn (tDev tSess)).setReg .ADM_CLASS_DROP_LATE 1 0 with tick := 6 }

theorem witness_DequeueOrder_LateCommandDropped_named : tLateNamed.lateCmd = some (7, tLateOn) ∧ tLateNamed.named tLateOn.desc = some 3 := by
  decide +kernel

theorem witness_DequeueOrder_SojournLatched : ({ tQueue with tick := 1000000 }).adm.windowEnd ≤ 1000000 ∧
    tQueue.adm.queues.get? 8 = some { cmds := [7], lastFinish := 256 } := by decide +kernel

def tRun (op : Nat) : Cmd := { tCmd op 0 0 [] with phase := .running }

theorem witness_CommandFailures_WatchdogEndsCommand :
    let s : State := { tWith (tRun 0x30) tMap with tick := 1000000000000 }
    s.cmd? 7 = some (tRun 0x30) ∧ s.reg .GLB_WATCHDOG_MS ≠ 0 ∧ s.watchdogCounts 7 (tRun 0x30) = true ∧
      max (tRun 0x30).progressTick (tRun 0x30).startTick + s.reg .GLB_WATCHDOG_MS * 1000000 ≤ s.tick ∧
      ({ tRun 0x30 with exempt := true }).exempt = true ∧ (tRun 0x30).desc.opcode ≠ 0x1A ∧ ({ s with freeze := 1 }).freeze ≠ 0 ∧
      tQueued.phase ≠ .running ∧ tQueued.phase ≠ .started := by decide +kernel

/-- A STEP that runs, and one that has met its end and waits for its last token. -/
def tStepping (e : Bool) : State :=
  { tWith { tCmdOn 0x1A 0 [] with phase := .running } (tDev { tSess with
      runState := .running, stepReq := if e then none else some tReq, ended := if e then some (tReq, 0) else none }) with
    tick := 1000000000000 }

theorem witness_CommandFailures_WatchdogEndsCommand_step : ∀ e : Bool,
    (tStepping e).watchdogCounts 7 { tCmdOn 0x1A 0 [] with phase := .running } = true ∧
      (tStepping e).stepSlot 7 = (if e then none else some 3) ∧ (tStepping e).endedSlot 7 = (if e then some 3 else none) := by
  decide +kernel

/-- The layout descriptor of a model of one layer with 256 bytes of KV for a position, and with a reserved byte (R215). -/
def tLayoutBytes (o : Byte) : List Byte :=
  leBytes 256 4 ++ [4, 0, o, 0] ++ leBytes 128 4 ++ leBytes 2048 4 ++ leBytes 0 8 ++ leBytes 1 2 ++ leBytes 0 6 ++ leBytes 1 4 ++
    leBytes 64 4 ++ List.replicate 24 0

def tLoading : Model := { cmd := some 7, bytes := 2097152, base := 200 * 2 ^ 30, keyRef := 77, weightBytes := 0, fp := sha256 (tLayoutBytes 0) }
def tLoads : State := { tWith (tRun 0x40) tMap with models := tMap.models.set 2 tLoading }

theorem witness_CommandFailures_PayloadAndSourceFailures : (tWith (tRun 0x30) tMap).cmd? 7 = some (tRun 0x30) ∧ writesPayload 0x30 = true ∧
    (let t := ((tWith (tRun 0x30) tMap).ringErr 0 0x0009).spoilPayload (tRun 0x30).desc
     t.stepSlot 7 = none ∧ t.endedSlot 7 = none) ∧
    (∀ e : Bool, let t := ((tStepping e).ringErr 0 0x0009).spoilPayload (tCmdOn 0x1A 0 []).desc
      writesPayload 0x1A = true ∧ t.stepSlot 7 = (if e then none else some 3) ∧ t.endedSlot 7 = (if e then some 3 else none)) ∧
    tLoads.models.find? (fun _ m => !m.loaded && m.cmd == some 7) = some (2, tLoading) := by decide +kernel

/-- A capsule that is read for an import or for a return, and a vocabulary that is read. -/
theorem witness_CommandFailures_PayloadAndSourceFailures_source : ∀ r : Bool,
    let k : JobKind := if r then .reclaim else .importFrom
    let s := tWith (tRun 0x21) (tJobs k)
    s.cmd? 7 = some (tRun 0x21) ∧ s.models.find? (fun _ m => !m.loaded && m.cmd == some 7) = none ∧
      s.jobs.find? (fun _ j => j.cmd == 7 && j.kind != .exportTo && j.kind != .migrateOut) = some (0, tJob k) ∧
      (tWith (tRun 0x43) tMap).jobs.find? (fun _ j => j.cmd == 7 && j.kind != .exportTo && j.kind != .migrateOut) = none ∧
      (tWith (tRun 0x43) tMap).models.find? (fun _ m => !m.loaded && m.cmd == some 7) = none := by decide +kernel

/-- MODEL_LOAD of a package of four empty sections as model 2, from host address 0. -/
def tPkgHead : List Byte :=
  leBytes 0x004C45444F4D4757 8 ++ leBytes 1 2 ++ leBytes 256 2 ++ [0xA1, 0, 0, 0] ++ leBytes 9 32 ++ leBytes 77 16 ++ leBytes 256 8 ++
    leBytes 0 8 ++ leBytes 0 32 ++ [1, 2, 3, 4].flatMap (fun t => leBytes t 2 ++ leBytes 256 6 ++ leBytes 0 8) ++ leBytes 0 80
def tLoadCmd : Cmd := tCmd 0x40 0 0 ([2, 0, 0, 0] ++ leBytes 0 8 ++ leBytes 256 8)
def tLoad : State :=
  let s := tWith tLoadCmd { tMap with host := (⟨[]⟩ : Memory).writeN 0 tPkgHead }
  { s with sec := { s.sec with staged := (⟨[]⟩ : Map StagedKey).set 0 { kind := 3, ref := 77 } } }

def tLoadPass : LoadCheck → Option Nat
  | .pass b => some b
  | _ => none

theorem witness_ModelsLoaded_ModelLoadStarted : tPlain tLoad 0x40 tLoadCmd ∧ tLoadCmd.desc.optBit 11 = false ∧ tLoad.longBusy pgGlb = false ∧
    tLoad.modelRegionOk = true ∧
    tLoadPass (tLoad.loadChecks 2 256 false (tLoad.readSrc 0 0 256)) = some 214748364800 ∧
    tLoadPass (tLoad.loadChecks 1 256 false (tLoad.readSrc 0 0 256)) = none := by decide +kernel

theorem witness_ModelsLoaded_ModelLoadStarted_refused :
    (match ({ tLoad with models := tLoad.models.set 5 { tModel with resident := true } }).loadChecks 2 256 true (tLoad.readSrc 0 0 256) with
      | .noSpace k => k == 10
      | _ => false) = true ∧
    (match tLoad.loadChecks 1 256 false (tLoad.readSrc 0 0 256) with
      | .refuse st r => st == .invalid && r == 0x33
      | _ => false) = true := by decide +kernel

/-- A package of one layer without weights, whose program is accepted or not, with a reserved byte. -/
def tLayer : LayerProg :=
  { hq := 4, hkv := 4, dk := 32, dv := 32, kvShared := false, scale := 0x3F800000, qFormat := 4, pFormat := 4, selector := true,
    routeScale := 0 }
def tProg (a : Bool) : LayerProgram := { layers := [tLayer], accepted := a }

/-- The load of that package from host address 0: its sections under one key, section 1 of one chunk, the others empty; `bad` spoils
the chunk's tag. -/
def tSecKey : List Byte := List.replicate 32 1
def tSecHead : List Byte := List.replicate 112 0 ++ leBytes 1 2 ++ leBytes 256 6 ++ leBytes 80 8 ++
  [2, 3, 4].flatMap (fun t => leBytes t 2 ++ leBytes 384 6 ++ leBytes 0 8) ++ List.replicate 80 0
def tReads (o bad : Byte) : State :=
  let c := gcmText (roundKeys tSecKey) (List.replicate 12 0) (tLayoutBytes o)
  let tag := (gcmTag (roundKeys tSecKey) (List.replicate 12 0) (tSecHead ++ leBytes 0 8) c).map (· ^^^ bad)
  { tLoads with cmds := tLoads.cmds.set 7 { tLoadCmd with phase := .running }, host := (⟨[]⟩ : Memory).writeN 0 (tSecHead ++ c ++ tag) }
def tPkg (a : Bool) (o bad : Byte) : ModelPackage :=
  (tReads o bad).openPackage 7 { tLoading with keys := List.replicate 4 tSecKey } (tProg a)

theorem witness_ModelsLoaded_ModelLoaded : tLoads.loadingModel = some (2, tLoading) ∧ tLoading.cmd = some 7 ∧
    (tPkg true 0 0).tablesOk tLoading.weightBytes = true ∧ (tPkg true 0 0).programOk = true ∧
    (tPkg true 0 0).authentic tLoading.fp tLoading.weightBytes = true := by decide +kernel

theorem witness_ModelsLoaded_ModelLoaded_fails : (tPkg true 0 1).authentic tLoading.fp tLoading.weightBytes = false ∧
    (tPkg true 0 1).tablesOk tLoading.weightBytes = true ∧ (tPkg true 1 0).tablesOk tLoading.weightBytes = false ∧
    (tPkg false 0 0).programOk = false := by decide +kernel

def tUnload : Cmd := tCmd 0x41 0 0 [1]

theorem witness_ModelsLoaded_ModelUnloaded : tPlain (tWith tUnload tMap) 0x41 tUnload ∧ (tWith tUnload tMap).modelUsers 1 = 0 ∧
    ((tWith tUnload tMap).model 1).loaded = true ∧ (tWith tUnload (tDev tSess)).modelUsers 1 ≠ 0 := by decide +kernel

/-- The header of a package of 256 tokens, and VOCAB_LOAD of it for model 2 from host address 0. -/
def tVocHead : List Byte :=
  leBytes 0x004241434F564757 8 ++ leBytes 1 2 ++ leBytes 64 2 ++ leBytes 256 4 ++ leBytes 0 4 ++ [1, 0, 0, 0] ++ leBytes 0 4 ++
    leBytes 0 4 ++ leBytes 1088 8 ++ leBytes 3136 8 ++ leBytes 3136 8 ++ leBytes 3392 8
def tVocCmd (p : CmdPhase) : Cmd := { tCmd 0x43 0 0 ([2, 0, 0, 0] ++ leBytes 0 8 ++ leBytes 3392 8) with phase := p }
def tVocLoad (p : CmdPhase) : State :=
  let s := tWith (tVocCmd p) { tMap with models := tMap.models.set 2 { tModel with layout := { vocab := 256 } } }
  { s with host := (⟨[]⟩ : Memory).writeN 0 tVocHead }

theorem witness_VocabulariesAndObjects_VocabularyLoaded : tPlain (tVocLoad .started) 0x43 (tVocCmd .started) ∧ (tVocLoad .started).enabled pgMrv = true ∧
    (tVocLoad .running).loadingVocab = some (7, tVocCmd .running) ∧
    vocabHeaderOk ((tVocLoad .running).readSrc 0 0 64) 3392 = true := by decide +kernel

/-- CONSTRAINT_LOAD of an escape of the token 3 for model 1, as object 4, and its UNLOAD. -/
def tEscape : List Byte := [1, 0, 0, 0] ++ leBytes 3 4
def tConCmd (o : Nat) : Cmd :=
  let c := tCmd 0x42 0 (3 * 512 + o) ([4, 0, 1] ++ leBytes 0 8)
  { c with desc := { c.desc with payLen := 8 } }
def tConState (o : Nat) : State :=
  let s := tWith (tConCmd o) { tMap with host := (⟨[]⟩ : Memory).writeN 0 tEscape }
  { s with regs := s.regs.set (Reg.JCK_STORE_SIZE_GIB.key 0) (Config.storeBytes 3 8) }

theorem witness_VocabulariesAndObjects_ConstraintLoaded : tPlain (tConState 0) 0x42 (tConCmd 0) ∧ (tConState 0).enabled pgJck = true ∧
    (tConCmd 0).desc.opt 9 3 = 3 ∧ (tConCmd 0).desc.specF 37 36 = 4 ∧ (tConCmd 0).desc.specF 38 38 = 1 ∧
    (tConCmd 0).desc.optBit 8 = false ∧ (tConState 0).object? 1 3 4 = none ∧ (tConState 0).modelFor 1 1 = true ∧
    parseBody 3 ((tConState 0).payload (tConCmd 0).desc) = some (.escape [3]) ∧
    ((bodyTokens 3 ((tConState 0).payload (tConCmd 0).desc) (.escape [3])).any (fun k => decide (((tConState 0).model 1).layout.vocab ≤ k))) = false ∧ (tConState 0).storeUsed = 0 := by
  decide +kernel

theorem witness_VocabulariesAndObjects_ConstraintLoaded_room : (tConState 0).storeUsed + Config.storeBytes 3 8 ≤ (tConState 0).storeSize := by
  have h : (tConState 0).storeUsed = 0 := by decide +kernel
  have g : (tConState 0).storeSize = Config.storeBytes 3 8 * 2 ^ 30 := by
    show ((((tWith (tConCmd 0) { tMap with host := (⟨[]⟩ : Memory).writeN 0 tEscape }).regs.set
      (Reg.JCK_STORE_SIZE_GIB.key 0) (Config.storeBytes 3 8)).get? (Reg.JCK_STORE_SIZE_GIB.key 0)).getD _) * 2 ^ 30 = _
    simp
  rw [h, g]
  omega

def tConHeld : State :=
  let s := tWith (tConCmd 256) tMap
  { s with objects := s.objects.set (objKey 1 3 4) { model := 1, body := .escape [3], bytes := 64 } }

theorem witness_VocabulariesAndObjects_ConstraintLoaded_unload : tPlain tConHeld 0x42 (tConCmd 256) ∧ (tConCmd 256).desc.optBit 8 = true ∧
    tConHeld.object? 1 3 4 = some { model := 1, body := .escape [3], bytes := 64 } ∧ tConHeld.objectUsers 1 3 4 = 0 := by
  decide +kernel

/-- A HOT session with an input, cores that run, and the step scheduler enabled. -/
def tReady : Session :=
  { tHot with runState := .runnable, inputPend := true, input := [{ token := some 1 }] }
def tGaf (r : Option StepRun) : State :=
  let s := (tOn [256] (tDev tReady)).setEn pgGaf true
  { s with gaf := { s.gaf with running := r } }
def tStepRow : StepRow := { slot := 3, decode := false, count := 1 }
def tStepRun : StepRun := { model := 1, rows := [tStepRow], pins := [], start := 0 }

theorem witness_StepsComposeAndCommit_StepComposed : (tGaf none).mayCompose = true ∧ (tGaf none).gaf.composed = none ∧ (tGaf none).candidates ≠ [] ∧
    (tGaf (some tStepRun)).mayCompose = true ∧ (tGaf (some tStepRun)).gaf.running.isSome = true ∧
    ((tGaf none).setReg .GAF_GATHER_US 0).reg .GAF_GATHER_US = 0 ∧
    ((tGaf none).setReg .GAF_GATHER_US 5).reg .GAF_GATHER_US ≠ 0 ∧ (tGaf none).rowsWaiting < (tGaf none).budget ∧
    (tGaf none).gaf.gather = none := by decide +kernel

theorem witness_StepsComposeAndCommit_StepComposed_gathered :
    let s : State := { (tGaf none).setReg .GAF_GATHER_US 5 with tick := 5000 }
    ({ s with gaf := { s.gaf with gather := some 0 } }).gaf.gather = some 0 ∧ 0 + s.reg .GAF_GATHER_US * 1000 ≤ s.tick ∧
      s.gaf.running = none := by decide +kernel

theorem witness_StepsComposeAndCommit_StepCommits : (tGaf (some tStepRun)).session? 3 = some tReady ∧ (tGaf (some tStepRun)).rowOf 3 = some tStepRow ∧
    tStepRow.slot = 3 ∧ (tGaf (some tStepRun)).freeze ≠ 2 ∧ (tGaf (some tStepRun)).leaseOk tReady = true ∧ tReady.freeVersion = some 1 ∧
    ({ tReady with readers := [1, 1] } : Session).freeVersion = none ∧ tReady.verWait = none ∧
    (tGaf (some tStepRun)).leaseOk { tReady with leased := true } = false := by decide +kernel

theorem witness_StepsComposeAndCommit_StepCommits_waits :
    let s : State := { tGaf (some tStepRun) with tick := 10000000 }
    s.rowOf 3 = some tStepRow ∧ ({ tReady with verWait := some 0 } : Session).verWait = some 0 ∧ 0 + 50000 ≤ s.tick ∧
      ({ tReady with allotFail := some 0, stepReq := some tReq } : Session).allotFail = some 0 ∧ 0 + 10000000 ≤ s.tick := by
  decide +kernel

theorem witness_CoresWork_TileEnds :
    let s : State := { tOn [256] tMap with cores := (⟨[]⟩ : Map Core).set 0 { tileKind := (TileWork.dma []).kind } }
    s.tileMayEnd 0 (TileWork.dma []).kind = true ∧ (s.core 0).tileKind ≠ 0 ∧ (s.core 0).tagged = false ∧
      (s.core 0).tileUrgent = false ∧ s.workOk (s.core 0).tileModel (.dma []) = true ∧ s.gaf.urgentEnd ≤ s.tick ∧ s.domState 0 ≠ 2 ∧ s.failed (pgCru + 0) = false ∧
      s.domState 128 ≠ 2 := by decide +kernel

/-! ## Embedding, search and the fabric -/

/-- Table 2 of tenant 1: 16 rows of 16 binary32 elements at HBM address 512 GiB, held here and not shared. -/
def tTbl (s : State) : State :=
  ([(.EMB_TBL_CFG_VALID, 1), (.EMB_TBL_CFG_FORMAT, 1), (.EMB_TBL_CFG_TENANT, 1), (.EMB_TBL_WIDTH_BYTES, 64),
    (.EMB_TBL_ROWS_ROWS_M1, 15), (.EMB_TBL_BASE_ADDR, 8589934592)] : List (Reg × Nat)).foldl (fun s e => s.setReg e.1 e.2 2) s

/-- A command with a payload in the window. -/
def tPay (op opts : Nat) (spec : List Byte) (n : Nat) : Cmd :=
  let c := tCmd op 0 opts spec
  { c with desc := { c.desc with flags := 4, payAddr := 0, payLen := n } }

/-- One bag of row 15 of table 2 with weight 1, and its output of 64 bytes. -/
def tBag : List Byte := leBytes 1 4 ++ [2, 0, 0, 0] ++ leBytes 15 4 ++ leBytes 0x3F800000 4
def tLookup : Cmd := tPay 0x30 0 (leBytes 1 4 ++ leBytes 0 8 ++ leBytes 64 4) 16
def tLook : State := tWith tLookup { tTbl tMap with window := (⟨[]⟩ : Memory).writeN 0 tBag }

/-- One record that adds to row 3 of table 2. -/
def tRecBytes : List Byte := leBytes 3 4 ++ [2, 1, 0, 0] ++ leBytes 0 64
def tUpdate : Cmd := tPay 0x31 0 (leBytes 1 4) 72
def tUpd : State := tWith tUpdate { tTbl tMap with window := (⟨[]⟩ : Memory).writeN 0 tRecBytes }

theorem witness_EmbeddingCommands : tPlain tLook 0x30 tLookup ∧ tLook.enabled pgEmb = true ∧
    parseBags (tLookup.desc.specF 39 36) (tLook.payload tLookup.desc) = some [{ table := 2, entries := [(15, 0x3F800000)] }] ∧
    tLookup.desc.opt 8 2 ≠ 1 ∧ tLook.tableChecks 7 1 [(2, 0), (2, 15)] = none ∧
    tLook.outOk tLookup [{ table := 2, entries := [(15, 0x3F800000)] }] = true ∧
    tLook.tableChecks 7 1 [(2, 16)] = some (.invalid, 0x52) ∧ tPlain tUpd 0x31 tUpdate ∧
    (tUpd.parseRecords 1 (tUpd.payload tUpdate.desc)).map (fun l => l.map (fun r => (r.table, r.row, r.kind))) = some [(2, 3, 1)] ∧
    tUpd.tableChecks 7 1 [(2, 3)] = none ∧ tUpd.tableChecks 7 1 [(2, 16)] = some (.invalid, 0x52) ∧ tUpd.tblFormat 2 = 1 := by
  decide +kernel

/-- A lookup of two elements into the session's input. -/
def tObs : Cmd :=
  let c := tPay 0x30 256 (leBytes 1 4) 16
  { c with desc := { c.desc with handle := tH } }
def tObsState : State :=
  tWith tObs { (tTbl (tDev tSess)).setReg .EMB_TBL_WIDTH_BYTES 8 2 with window := (⟨[]⟩ : Memory).writeN 0 tBag }

theorem witness_EmbeddingCommands_input : tOnSess tObsState 0x30 tObs tSess ∧
    (tObsState.reaches 7 tObs).heldByEarlier 7 tObs.desc = false ∧ tSess.residency ≠ .moving ∧
    tObs.desc.opt 8 2 = 1 ∧ (tObsState.reaches 7 tObs).tableChecks 7 1 [(2, 0), (2, 15)] = none ∧
    ((tObsState.reaches 7 tObs).layoutOf tSess).dObs = 2 ∧ (tObsState.reaches 7 tObs).tblD 2 = 2 ∧
    (tObsState.reaches 7 tObs).positionsFit tSess 1 = true ∧ (tObsState.reaches 7 tObs).vecRoom tSess 1 2 = true := by
  decide +kernel

abbrev tRows (s : State) (op : Nat) (c : Cmd) (x : Session) : Prop :=
  tStarted s op c ∧ tNames s c x ∧ 0x30 ≤ op ∧ (s.reaches 7 c).heldByEarlier 7 c.desc = false ∧ x.compact = none ∧
  ¬(x.residency = .moving ∧ op = 0x30 ∧ c.desc.opt 8 2 = 1) ∧ tServed (s.reaches 7 c) c x.leased

theorem tRows_ready {s : State} {op : Nat} {c : Cmd} {x : Session} (h : tRows s op c x) : s.readyRows 7 op c x := h

/-- An update that names the session of slot 3. -/
def tUpdOn : Cmd := { tUpdate with desc := { tUpdate.desc with handle := tH } }
def tUpdOnState : State := tWith tUpdOn { tTbl (tDev tSess) with window := (⟨[]⟩ : Memory).writeN 0 tRecBytes }

theorem witness_EmbeddingCommands_session : tObsState.readyRows 7 0x30 tObs tSess ∧ tUpdOnState.readyRows 7 0x31 tUpdOn tSess ∧
    (tUpdOnState.reaches 7 tUpdOn).tableChecks 7 1 [(2, 3)] = none ∧
    ((tUpdOnState.reaches 7 tUpdOn).parseRecords 1 ((tUpdOnState.reaches 7 tUpdOn).payload tUpdOn.desc)).isSome = true :=
  ⟨tRows_ready (by decide +kernel), tRows_ready (by decide +kernel), by decide +kernel, by decide +kernel⟩

def tRepl : Cmd := tPay 0x32 (1024 * 2) [] 8
def tReplState : State :=
  tWith tRepl { (tTbl tMap).setReg .EMB_REPL_SIZE_MIB 1 9 with window := (⟨[]⟩ : Memory).writeN 0 (leBytes 3 4 ++ leBytes 2 4) }

theorem witness_EmbeddingCommands_replicate : tPlain tReplState 0x32 tRepl ∧ tReplState.emb.repl = none ∧
    parseRepl 1 (tReplState.payload tRepl.desc) = [(2, 3)] ∧ tReplState.tableChecks 7 1 [(2, 3)] = none ∧
    tReplState.tblRemote 2 = false ∧ (askSwitches (some 2) [(2, 3)] (tReplState.beginLong pgEmb) []).1 = true := by decide +kernel

def tBatch : State :=
  let s := tWith { tLookup with phase := .running } { tTbl tMap with window := (⟨[]⟩ : Memory).writeN 0 tBag }
  { s with tick := 1000000000, emb := { s.emb with waiting := [7] } }

theorem witness_EmbeddingBatches : tBatch.enabled pgEmb = true ∧ tBatch.rowsOn = true ∧ tBatch.hbmOn = true ∧
    tBatch.freeze = 0 ∧ tBatch.emb.batch = none ∧ tBatch.embDue = true ∧ tMap.emb.waiting = [] ∧
    ((({} : EmbBatch).waiting) = []) ∧ ({ tiles := true } : EmbBatch).tiles = true ∧ tBatch.gaf.running = none ∧
    (tGaf (some tStepRun)).gaf.running ≠ none ∧ (({ table := 1, epoch := 2, closeTick := 5 } : Epoch).closeTick ≤ 5) := by decide +kernel

def tPeer : PeerMsg := { kind := .fp32Add, source := 9, msgSeq := 0, seq := 4, table := 2, row := 15 }
def tShare (d : Nat) : State := ((tTbl tMap).setReg .EMB_TBL_CFG_SHARED 1 2).setReg .EMB_TBL_CFG_DET_EN d 2

theorem witness_PeerMessages : (tShare 0).enabled pgFam = true ∧ (tShare 0).fam.recvSeq.getD 9 0 = tPeer.msgSeq ∧
    (tShare 0).enabled pgEmb = true ∧ (tShare 0).tblUsable 2 = true ∧ (tShare 0).tblShared 2 = true ∧
    (tShare 0).tblRemote 2 = false ∧ tPeer.row < (tShare 0).tblRows 2 ∧ (tShare 0).tblDet 2 = false ∧ (tShare 1).tblDet 2 = true ∧
    (tShare 0).fam.recvSeq.getD 9 0 ≠ ({ tPeer with msgSeq := 1 } : PeerMsg).msgSeq ∧ (tOff [40] (tShare 0)).enabled pgFam = false := by
  decide +kernel

/-- A lookup's batch that waits for row 15 of table 3, which device 9 holds as table 2, and an update's change sent there. -/
def tRemote : State :=
  let s := (tTbl tMap).setReg .EMB_TBL_HOME_DEVICE 9 3
  let s := s.setReg .EMB_TBL_HOME_TABLE 2 3
  { s with emb := { s.emb with seq := 4, batch := some { cmds := [7], waiting := [3 * 2 ^ 32 + 15] }, sent := [(7, 9, 4, 15)] } }

theorem witness_PeerMessages_answers : (tRemote.takeMsg { tPeer with kind := .rowData }).isSome = true ∧
    tRemote.emb.batch = some { cmds := [7], waiting := [3 * 2 ^ 32 + 15] } ∧ tPeer.seq = tRemote.emb.seq ∧
    (3 * 2 ^ 32 + 15) % 2 ^ 32 = tPeer.row ∧ tRemote.reg .EMB_TBL_HOME_DEVICE 3 = 9 ∧ tRemote.reg .EMB_TBL_HOME_TABLE 3 = 2 ∧
    tRemote.emb.sent = [(7, tPeer.source, tPeer.seq, tPeer.row)] ∧
    tMap.emb.sent.any (fun e => e.2.1 == 9 && e.2.2.1 == 4 && e.2.2.2 == 15) = false := by decide +kernel

/-- Collection 0 of tenant 1, and one command of each kind on it. -/
def tSrch : State := (tMap.setReg .SRCH_COLL_CFG_VALID 1 0).setReg .SRCH_COLL_CFG_TENANT 1 0
def tMem (op : Nat) : Cmd := tCmd op 0 0 []

theorem witness_SearchCommands : tPlain (tWith (tMem 0x38) tSrch) 0x38 (tMem 0x38) ∧ tSrch.enabled pgSrch = true ∧
    tPlain (tWith (tMem 0x39) tSrch) 0x39 (tMem 0x39) ∧ tPlain (tWith (tMem 0x3A) tSrch) 0x3A (tMem 0x3A) ∧
    tPlain (tWith (tMem 0x3B) tSrch) 0x3B (tMem 0x3B) ∧ tSrch.srchRefusal 7 (tMem 0x38) = none ∧
    tSrch.srchRefusal 7 (tMem 0x39) = none ∧ tSrch.srchRefusal 7 (tMem 0x3A) = none ∧ tSrch.srchRefusal 7 (tMem 0x3B) = none ∧
    tMap.srchRefusal 7 (tMem 0x38) = some (.invalid, 0x58FF) ∧ tSrch.srch.compact = none ∧ tSrch.srch.batch = none := by decide +kernel

def tMemOn (op : Nat) : Cmd := tCmdOn op 0 []
def tSrchOn : State := ((tDev tSess).setReg .SRCH_COLL_CFG_VALID 1 0).setReg .SRCH_COLL_CFG_TENANT 1 0

theorem witness_SearchCommands_session : ∀ op : Fin 4,
    (tWith (tMemOn (0x38 + op)) tSrchOn).readyRows 7 (0x38 + op) (tMemOn (0x38 + op)) tSess ∧
    ((tWith (tMemOn (0x38 + op)) tSrchOn).reaches 7 (tMemOn (0x38 + op))).srchRefusal 7 (tMemOn (0x38 + op)) = none := by
  have h : ∀ op : Fin 4, tRows (tWith (tMemOn (0x38 + op)) tSrchOn) (0x38 + op) (tMemOn (0x38 + op)) tSess ∧
      ((tWith (tMemOn (0x38 + op)) tSrchOn).reaches 7 (tMemOn (0x38 + op))).srchRefusal 7 (tMemOn (0x38 + op)) = none := by
    decide +kernel
  exact fun op => ⟨tRows_ready (h op).1, (h op).2⟩

def tScan : State :=
  let s := tWith { tMem 0x3A with phase := .running } tSrch
  { s with tick := 1000000000, srch := { s.srch with waiting := [7] } }
def tSb (b : Bool) : SBatch := { cmds := [7], snaps := [(0, 0)], scanned := b }

theorem witness_SearchCommands_batches : tScan.rowsOn = true ∧ tScan.hbmOn = true ∧ tScan.freeze = 0 ∧ tScan.srchDue = true ∧
    ({ tScan with srch := { tScan.srch with batch := some (tSb false) } }).srch.batch = some (tSb false) ∧
    (tSb false).scanned = false ∧ (tSb true).scanned = true ∧ tSrch.srch.waiting = [] ∧
    ({ tScan with srch := { tScan.srch with compact := some { cmd := 7, coll := 0, snap := 0 } } }).srch.batch = none := by
  decide +kernel

theorem witness_SearchRanks : hammingOf 32 5 6 = 2 ∧ hammingOf 32 0 (2 ^ 256 - 1) = 256 ∧ hammingOf 32 0 (2 ^ 256) = 0 ∧
    partBefore (1, 2) (1, 3) = true ∧ partBefore (2, 0) (1, 9) = false := by decide +kernel

def tPort (st : Nat) (p : Port) (t : Nat) : State :=
  let s := tMap.setPageState (fabPage 7) st
  { s with fam := { s.fam with ports := s.fam.ports.set 7 p }, tick := t }

theorem witness_LinkStates : tMap.pageState (fabPage 7) = 0 ∧ tMap.ungate.domOn (156 + 7) = true ∧
    (tPort 2 { training := true } 100000000).pageState (fabPage 7) = 2 ∧
    ((tPort 2 { training := true } 100000000).port 7).training = true ∧ widthOk 16 = true ∧ widthOk 4 = true ∧
    tMap.maxRate 7 ≤ 2 ∧ ((tPort 2 { training := true } 100000000).port 7).since + 100000000 ≤ 100000000 ∧
    ((tPort 5 {} 1000000000).port 7).training = false ∧ ((tPort 5 {} 1000000000).port 7).since + 1000000000 ≤ 1000000000 ∧
    (tPort 3 {} 0).pageState (fabPage 7) ≠ 0 ∧ (tPort 3 {} 0).failed (fabPage 7) = false ∧
    ((tPort 4 {} 0).setReg .FAB_CFG_L0P_EN 1 7).regBit .FAB_CFG_L0P_EN 7 = true := by decide +kernel

def tReq0 : Req := { device := 9, msg := tPeer, port := some 0, since := 0, resendAt := some 100000 }
def tReqs : State :=
  let s := tFab tMap
  { s with tick := 100000, fam := { s.fam with reqs := (⟨[]⟩ : Map Req).set 2 tReq0, quiet := (⟨[]⟩ : Map Nat).set 8 100000 } }

theorem witness_FabricRequests : tReqs.fam.reqs.get? 2 = some tReq0 ∧ tReqs.fam.late.contains 2 = false ∧
    tReqs.isQuiet 9 = false ∧ tReqs.enabled pgFam = true ∧
    tReqs.mapEntries.any (fun i => tReqs.reg .FAM_MAP_DEST_DEVICE i == 9) = true ∧
    (tFab tMap).fam.reqs.values.filter (fun r => r.device == 9) = [] ∧ (tFab tMap).fam.dead.contains 9 = false ∧
    tReqs.fam.quiet.get? 8 = some 100000 ∧ 100000 ≤ tReqs.tick ∧ tBase.ungate.mapOk = true ∧
    (tBase.setReg .FAM_MAP_UNITS_UNITS 1).ungate.mapOk = false := by decide +kernel

theorem witness_FabricRequests_more :
    ({ tReqs with fam := { tReqs.fam with late := [3] } }).fam.late.contains 3 = true ∧ tReqs.fam.reqs.get? 3 = none ∧
    tReq0.resendAt = some 100000 ∧ 100000 ≤ tReqs.tick ∧ tReqs.isQuiet 9 = false ∧
    ({ tReqs with tick := 99999 }).tick < 100000 ∧ ({ tReqs with tick := 99999 }).isQuiet 8 = true ∧
    (({ tReqs with fam := { tReqs.fam with reqs := (⟨[]⟩ : Map Req).set 2 { tReq0 with resendAt := none } }, tick := 10000000000 }).fam.reqs.values.any
      (fun r => r.device == 9 && r.resendAt.isNone && decide (r.since + tReqs.timeoutTicks ≤ 10000000000))) = true ∧
    (tReqs.fam.reqs.values.filter (fun r => r.device == 9)).all (fun r => r.resendAt.isSome) = true ∧
    tMap.fam.dead.contains (tMap.reg .FAM_DEAD_SEL_DEVICE) = false ∧
    tReqs.fam.quiet.get? 8 = some 100000 ∧ (tOff [40] tMap).enabled pgFam = false ∧
    (({ tMap with sec := { tMap.sec with streams := tMap.sec.streams.set 255 { tMap.stream 255 with active := true } } }).stream 255).active = true ∧
    (tMap.stream 255).active = false := by decide +kernel

def tDead : State :=
  let s := tMap.setReg .FAM_DEAD_SEL_DEVICE 9
  { s with fam := { s.fam with dead := [9, 8], walking := [8] } }

theorem witness_DeadMarkCleared : tDead.live = true ∧ tDead.enabled pgFam = true ∧ tDead.reg .FAM_DEAD_SEL_DEVICE = 9 ∧
    tDead.fam.dead.contains 9 = true ∧ tDead.fam.walking.contains 8 = true := by decide +kernel

/-! ## Checkpoints, telemetry, security, power and the whole machine -/

theorem witness_UnitEnables :
    (tBase.pageState pgEmb = 1 ∧ tBase.ungate.validTables = [] ∧ (tTbl tMap).ungate.validTables ≠ []) ∧
    (tOff [28] tBase).ungate.replRanges.all (fun r => r.2 == 0 || (inHbmRange r.1 r.2 && clearOf r.1 r.2 tBase.ungate.deviceRegions))
      = true ∧ ((tOff [29] tMap).setReg .SRCH_TOMB_BASE_ADDR 131072000).ungate.srchOk = true ∧
    (((tFab (tOff [40] tMap)).setReg .FAM_LEASE_BASE_ADDR 157286400).setReg .SRCH_TOMB_BASE_ADDR 131072000).ungate.famOk = true ∧
    (tOff [40] tMap).ungate.famOk = false ∧
    (tDev tAway).sdir.sess.values.any (fun x => x.leased || x.residency == .away) = true := by decide +kernel

theorem witness_UnitEnables_more :
    (tOff [20] tMap).ungate.ckpOk = false ∧ tTen.tenants.values.any (fun t => t.state != .closed) = true ∧
    (∀ w : BitVec 2, tBase.pageState (pgTel + w.toNat) = 0) ∧ tBase.ungate.telCheck 1 = true ∧
    (let s := (tMap.setReg .EMB_TBL_CFG_FORMAT 1 0).setReg .EMB_TBL_WIDTH_BYTES 64 0
     let s := s.setReg .EMB_TBL_BASE_ADDR 8589934592 0
     s.regBit .EMB_TBL_CFG_VALID 0 = false ∧ s.ungate.tblOk 0 = true) ∧
    tSrch.collUsable 0 = true ∧ (tBase.setPageState pgCkp 2).pageState pgCkp = 2 := by decide +kernel

theorem witness_UnitEnables_refused :
    ((tOff [29] tMap).ungate.srchOk = false ∨ ((tOff [29] tMap).setReg .SRCH_TOMB_BASE_ADDR 2).ungate.srchOk = false) ∧
    (tOff [8] tBase).pageState pgSec = 0 ∧ tMap.pageState pgSec = 1 ∧
    (let s := { tMap with ckp := { tMap.ckp with run := some { cmd := none, full := true, seq := 1, base := 0, start := 0 } } }
     s.pageState pgCkp = 1 ∧ s.ckp.run.isSome = true) ∧
    (tTbl tMap).tblUsable 2 = true ∧ ((tTbl tMap).setReg .EMB_TBL_SEL_TABLE 2).reg .EMB_TBL_SEL_TABLE = 2 ∧
    (tMap.regBit .SRCH_COLL_CFG_VALID 63 = false) ∧ (tBase.setPageState pgSec 2).pageState pgSec = 2 ∧
    (((tOff [20] tMap).setReg .CKP_STAGE_SIZE_GIB 0).ungate.ckpOk = false) := by decide +kernel

/-- A store in the pool behind device 9, in which port 0 is UP. -/
def tStore (s : State) : State :=
  let s := (((tFab s).setReg .FAM_MAP_UNITS_UNITS 8).setReg .FAM_MAP_PORTS_PORTS 1).setPageState (fabPage 0) 3
  s

def tTake : Cmd := tCmd 0x48 0 0 []
def tCkRun : CkptRun := { cmd := none, full := true, seq := 1, base := 0, start := 0 }
def tQuiet : State := { tMap with freeze := 1, ckp := { tMap.ckp with run := some tCkRun } }

/-- A device with a checkpoint key and a staging area, and one without room in it. -/
def tTakeable : State := { tMap.setReg .CKP_STAGE_SIZE_GIB 64 with sec := { tMap.sec with ckk := some 91 } }

theorem witness_CheckpointsAndRestores_CheckpointTaken : tPlain (tWith tTake tTakeable) 0x48 tTake ∧ tTakeable.pageState pgCkp = 1 ∧
    tTakeable.ckp.run = none ∧ tTakeable.ckp.restore = none ∧ tTakeable.sec.pass = none ∧ tTakeable.sec.ckk ≠ none ∧ tMap.sec.ckk = none ∧
    tTakeable.stageBytes (tTakeable.baseSnap true) tTakeable.snapshot ≤ tTakeable.reg .CKP_STAGE_SIZE_GIB * 2 ^ 30 ∧
    (let s := ({ tDev tSess with sec := tTakeable.sec }).setReg .CKP_STAGE_SIZE_GIB 0
     s.reg .CKP_STAGE_SIZE_GIB = 0 ∧ ¬s.stageBytes (s.baseSnap true) s.snapshot ≤ 0) ∧
    tQuiet.ckp.run = some tCkRun ∧ tCkRun.cut = none ∧ tQuiet.freeze = 1 ∧ tQuiet.quiet = true ∧
    (let s := { (tTakeable.setReg .CKP_CFG_TIMER_EN 1).setReg .CKP_CFG_STEPS_EN 1 with tick := 100000000000000 }
     s.regBit .CKP_CFG_TIMER_EN = true ∧ s.ckp.timerFrom + s.ckptTimer ≤ s.tick ∧ s.regBit .CKP_CFG_STEPS_EN = true) ∧
    (let s := (tTakeable.setReg .CKP_CFG_STEPS_EN 1).setReg .GAF_STEP_SEQ_COUNT 1000000
     s.ckp.stepsFrom + max 1 (s.reg .CKP_STEPS_COUNT) ≤ s.reg .GAF_STEP_SEQ_COUNT) ∧
    (tOff [20] tTakeable).pageState pgCkp ≠ 1 := by
  decide +kernel

theorem witness_CheckpointsAndRestores_CheckpointTaken_cut :
    let r : CkptRun := { tCkRun with cut := some tMap.snapshot }
    let s := { tMap with freeze := 2, ckp := { tMap.ckp with run := some r } }
    s.ckp.run.map (fun r => (r.cut.isSome, r.copied)) = some (true, false) ∧
      ({ r with copied := true }).copied = true ∧ tMap.freeze = 0 := by decide +kernel

def tRestore : Cmd := tCmd 0x49 0 0 []

/-- A store of 1 GiB with a checkpoint of this device behind manifest slot A. -/
def tManifest : List Byte := leBytes manifestMagic 8 ++ [1, 0, 0xA1, 0, 0, 0, 0, 0] ++ leBytes 1 8
def tHead : List Byte := tManifest ++ List.replicate 4064 0
def tSlot : List Byte := tHead ++ leBytes (manifestCrc tHead) 8
def tHeld : State :=
  let s := ((tStore tMap).setReg .FAM_MAP_UNITS_UNITS 512).setReg .CKP_STORE_SIZE_GIB 1
  { s with sec := { s.sec with ckk := some 91 } }
def tImage : StoreImage := { seq := 1, snap := tHeld.snapshot, dataBytes := 0, storeBytes := 0 }
def tPlace (s : State) (m : Memory) : State :=
  { s with fabric := m, ckp := { s.ckp with store := (⟨[]⟩ : Map StoreImage).set 0 tImage } }
theorem tPlace_fabric (s : State) (m : Memory) : (tPlace s m).fabric = m := rfl
def tStored : State := tPlace tHeld ((⟨[]⟩ : Memory).writeN 0 tSlot)

/-- A CRC of `w` bits fits `w` bits. -/
theorem tCrcBits_lt (w poly v n r : Nat) (hp : poly < 2 ^ w) (h : r < 2 ^ w) : crcBits w poly v n r < 2 ^ w := by
  induction n generalizing r with
  | zero => exact h
  | succ n ih =>
    refine ih _ ?_
    have hs : r * 2 % 2 ^ w < 2 ^ w := Nat.mod_lt _ (Nat.two_pow_pos w)
    show (if (bitAt r (w - 1) == bitAt v n) = true then r * 2 % 2 ^ w else (r * 2 % 2 ^ w) ^^^ poly) < 2 ^ w
    split
    · exact hs
    · exact Nat.xor_lt_two_pow hs hp

theorem tCrcBytes_lt (w poly r : Nat) (bs : List Byte) (hp : poly < 2 ^ w) (h : r < 2 ^ w) : crcBytes w poly bs r < 2 ^ w := by
  induction bs generalizing r with
  | nil => exact h
  | cons b bs ih => exact ih _ (tCrcBits_lt w poly b.toNat 8 r hp h)

theorem tLeNat_leBytes (n w : Nat) : leNat (leBytes n w) = n % 256 ^ w := by
  induction w generalizing n with
  | zero => simp [leBytes, leNat, Nat.mod_one]
  | succ w ih =>
    simp only [leBytes, leNat, ih, BitVec.toNat_ofNat]
    rw [show 256 ^ (w + 1) = 256 ^ w * 256 from Nat.pow_succ 256 w, Nat.mul_comm (256 ^ w) 256, Nat.mod_mul]

theorem tLeBytes_length (n w : Nat) : (leBytes n w).length = w := by
  induction w generalizing n with
  | zero => rfl
  | succ w ih => simp only [leBytes, List.length_cons, ih]

theorem witness_CheckpointsAndRestores_CheckpointRestored : tPlain (tWith tRestore tMap) 0x49 tRestore ∧ tMap.soughtSlot tRestore.desc = none ∧
    tStored.fabricOk tStored.ckptStore tStored.ckptStoreLen = true ∧ tStored.restoreClear = true ∧
    tStored.fixedEqual tImage.snap = true ∧ tStored.modelsEqual tImage.snap = true ∧
    tStored.sec.ckk = some tImage.snap.keyRef ∧ tRestore.desc.optBit 8 = false ∧ tStored.ckptStore = 0 ∧
    ({ tMap with ckp := { tMap.ckp with restore := some { cmd := 7, slot := 0, cmds := false } } }).ckp.restore.isSome = true := by
  decide +kernel

theorem tHead_length : tHead.length = 4088 := by
  have h : tManifest.length = 24 := by decide +kernel
  unfold tHead
  rw [List.length_append, List.length_replicate, h]

theorem tSlot_length : tSlot.length = 4096 := by
  unfold tSlot
  rw [List.length_append, tHead_length, tLeBytes_length]

theorem tSlot_valid : manifestValid tSlot = true := by
  have ht : tSlot.take 4088 = tHead := List.take_left' tHead_length
  have hd : tSlot.drop 4088 = leBytes (manifestCrc tHead) 8 := List.drop_left' tHead_length
  have hk : tHead.take 4088 = tHead := List.take_of_length_le (Nat.le_of_eq tHead_length)
  have h1 : (leAt tSlot 0 8 == manifestMagic && leAt tSlot 8 2 == 1) = true := by decide +kernel
  have h2 : leAt tSlot 4088 8 = manifestCrc tHead := by
    unfold leAt slice
    rw [hd, List.take_of_length_le (Nat.le_of_eq (tLeBytes_length _ _)), tLeNat_leBytes]
    exact Nat.mod_eq_of_lt (tCrcBytes_lt 64 _ 0 _ (by decide +kernel) (Nat.two_pow_pos 64))
  have h3 : manifestCrc tSlot = manifestCrc tHead := by
    unfold manifestCrc
    rw [ht, hk]
  unfold manifestValid
  rw [h1, h2, h3, Bool.true_and, beq_self_eq_true]

theorem witness_CheckpointsAndRestores_CheckpointRestored_manifest : tStored.imageOf 0 = some tImage ∧ leAt (tStored.manifestBytes 0) 10 1 = 0xA1 := by
  have hm : tStored.manifestBytes 0 = tSlot := by
    have e : tStored.ckptStore + 4096 * 0 = 0 := by decide +kernel
    have f : tStored.fabric = (⟨[]⟩ : Memory).writeN 0 tSlot := tPlace_fabric _ _
    have g := Memory.readN_writeN ⟨[]⟩ 0 tSlot
    rw [tSlot_length] at g
    unfold State.manifestBytes
    rw [e, f, g]
  have hv : tStored.slotSeq 0 = 1 := by
    have h3 : leAt tSlot 16 8 = 1 := by decide +kernel
    unfold State.slotSeq
    rw [hm]
    exact (if_pos tSlot_valid).trans h3
  refine ⟨?_, by rw [hm]; decide +kernel⟩
  have hs : tStored.ckp.store.get? 0 = some tImage := rfl
  unfold State.imageOf
  rw [hv, hs]
  exact if_pos ⟨by decide, rfl⟩

theorem witness_CheckpointsAndRestores_CheckpointRestored_waits :
    ({ tMap with ckp := { tMap.ckp with restore := some { cmd := 7, slot := 0, cmds := false } } }).ckp.restore ≠ none ∧
    tMap.ckp.restore = none ∧ (tOff [20] tMap).pageState pgCkp ≠ 1 ∧ (tDev tSess).restoreClear = false ∧
    (let s := tHeld.setReg .STM_HEAP_SIZE_GIB 65
     s.fixedEqual tImage.snap = false) ∧
    tHeld.modelsEqual ({ tHeld with models := (⟨[]⟩ : Map Model).set 1 { tModel with fp := 9 } }).snapshot = false ∧ (some 91 : Option Nat) ≠ tMap.sec.ckk ∧
    (tCmd 0x49 0 256 []).desc.optBit 8 = true := by decide +kernel

def tDump : Dump := { seq := 0, bytes := [1], trunc := false }
def tTel : State := { tBase with tick := 100000, tel := { tBase.tel with dump := some tDump, tags := [[1], [2]] } }

theorem witness_TelemetryRings : tTel.tel.windowEnd ≤ tTel.tick ∧ tBase.tick < tBase.tel.windowEnd ∧
    tTel.tel.dump = some tDump ∧ tTel.tel.tags = [1] :: [[2]] ∧ tTel.plat.phase = .on ∧ leAt [0x10] 0 1 = 0x10 := by decide +kernel

/-- The 256-bit key 00112233…0E0F wrapped under the key 0001…1F, as RFC 3394 section 4.6 gives it. -/
def tWrapped : List Byte := bytesBig 0x28C9F404C4B810F4CBCCB35CFB87F8263F5786E2D80ED326CBC7F0E71A99F43BFB988B9B7A02DD21 40

/-- An island with a set key, staged keys of every kind, an open secure session 0 and tenant 1 OPEN. -/
def tIsland : State :=
  let m : Map StagedKey := ((⟨[]⟩ : Map StagedKey).set 0 { kind := 1, ref := 90, owner := 1 }).set 1 { kind := 2, ref := 91 }
  let k : Map StagedKey := (⟨[]⟩ : Map StagedKey).set 0 { kind := 4, ref := 8, key := (List.range 32).map (BitVec.ofNat 8) }
  let p : Map SpdmSession := (⟨[]⟩ : Map SpdmSession).set 0 { isOpen := true, hbeat := true, period := 5 }
  let s := tTen.setReg .SEC1_KEYIN_RECORD (leNat (leBytes 7 16 ++ leBytes 8 16 ++ tWrapped ++ List.replicate 56 0))
  { s with sec := { s.sec with staged := m, setKeys := k, spdm := p } }

/-- A KEY_DELIVER payload of a model key. -/
def tDeliver : List Byte := [1, 1, 0, 0] ++ leBytes 33 16 ++ [3, 0, 0, 0] ++ List.replicate 40 0

theorem witness_KeysAndStreams_KeysStagedAndBound :
    tIsland.ungate.keyinResult (leBytes (tIsland.reg .SEC1_KEYIN_RECORD) 128) = 0 ∧
    tTen.ungate.keyinResult (leBytes (tTen.reg .SEC1_KEYIN_RECORD) 128) ≠ 0 ∧ bitAt (1 : Word).toNat 0 = true ∧
    tIsland.sec.staged.get? (tIsland.reg .SEC1_KEY_SEL_INDEX) = some { kind := 1, ref := 90, owner := 1 } ∧
    bitAt (0x80000000 : Word).toNat 31 = true ∧ tIsland.sec.staged.get? ((0x80000001 : Word).toNat % 256) = some { kind := 2, ref := 91 } ∧
    (tIsland.setReg .SEC2_TEN_SEL_TENANT 1).tenantOpen 1 = true ∧ tIsland.sec.setKeys.get? (tIsland.reg .SEC2_SET_SEL_SET) ≠ none ∧
    tIsland.islandUp = true ∧ tIsland.secure (some 0) = true ∧ tIsland.deliverResult [] true ≠ 0 ∧
    tIsland.deliverResult tDeliver true = 0 := by decide +kernel

theorem witness_KeysAndStreams_KeysStagedAndBound_more :
    (tIsland.setReg .SEC1_KEY_SEL_INDEX 255).sec.staged.get? 255 = none ∧
    (∀ k, tIsland.sec.staged.get? 0 = some k → k.kind = 1 ∧ k.owner = 1 ∧ k.kind ≠ 2) ∧
    (∀ k, tIsland.sec.staged.get? 1 = some k → k.kind = 2 ∧ k.kind ≠ 1) ∧
    bitAt (0x7FFFFFFF : Word).toNat 31 = false ∧ tIsland.sec.setKeys.get? 3 = none ∧
    (({ tIsland with sec := { tIsland.sec with staged := tIsland.sec.staged.set 2 { kind := 4, ref := 8 } } }).sec.staged.get? 2)
      = some { kind := 4, ref := 8 } ∧ tIsland.secure (some 15) = false ∧ tIsland.live = true := by
  refine ⟨by decide +kernel, ?_, ?_, by decide +kernel⟩
  · intro k h
    have e : tIsland.sec.staged.get? 0 = some { kind := 1, ref := 90, owner := 1 } := by decide +kernel
    rw [e] at h
    cases h
    decide
  · intro k h
    have e : tIsland.sec.staged.get? 1 = some { kind := 2, ref := 91 } := by decide +kernel
    rw [e] at h
    cases h
    decide

theorem witness_KeysAndStreams_StreamsKeyed :
    let s := tIsland.setReg .SEC3_STREAM_SEL_STREAM 255
    s.reg .SEC3_STREAM_SEL_STREAM ≠ 0 ∧ s.secure (some (s.reg .SEC3_STREAM_SESS_SESSION 255)) = true ∧
      (tBase.setReg .SEC3_STREAM_SEL_STREAM 1).secure (some (tBase.reg .SEC3_STREAM_SESS_SESSION 1)) = false ∧
      (({ s with sec := { s.sec with streams := (⟨[]⟩ : Map IdeStream).set 255 { active := true } } }).stream 255).active = true ∧
      (s.stream 255).active = false ∧ s.live = true := by
  decide +kernel

theorem witness_IslandRequests : tIsland.islandUp = true ∧ tIsland.sec.spdm.freeFrom 0 16 = some 1 ∧
    (((List.range 16).foldl (fun m i => m.set i {}) ⟨[]⟩ : Map SpdmSession).freeFrom 0 16) = none ∧
    (0 : Nat) + 5 < ({ tIsland with tick := 6 }).tick ∧ tIsland.measurement 1 = some 0 ∧ tIsland.measurement 0x1F = some 0 ∧
    tIsland.advanceResult [2, 1, 2, 0] {} = 0 ∧ tIsland.failed pgSec = false := by decide +kernel

theorem witness_IslandRequests_more : tIsland.secure (some 0) = true ∧ tIsland.advanceResult [] {} ≠ 0 ∧
    (tIsland.secure (some 1) && true) = false ∧ (tIsland.secure (some 0) && false) = false ∧
    (tIsland.sec.spdm.get? 0).map (fun x => (x.isOpen, x.hbeat, decide (x.last + x.period < ({ tIsland with tick := 6 }).tick)))
      = some (true, true, true) ∧
    (({ tIsland with sec := { tIsland.sec with identity := some (deriveIdentity 0 []) } }).sec.identity).isSome = true := by
  decide +kernel

def tOpen (o t : Nat) : Cmd := tCmd 0x50 0 o (leBytes t 2 ++ [0, 0] ++ leBytes 90 16)
def tMission : State := { tIsland with plat := { tIsland.plat with lifecycle := 2 } }

theorem witness_TenantsOpenAndClose : tPlain (tWith (tOpen 256 2) tIsland) 0x50 (tOpen 256 2) ∧ tIsland.plat.lifecycle ≠ 2 ∧
    tPlain (tWith (tOpen 256 2) tMission) 0x50 (tOpen 256 2) ∧ tMission.plat.lifecycle = 2 ∧ tMission.enabled pgSec = true ∧
    (tMission.tenant 1).state = .opened ∧ (tMission.tenant 2).state = .closed ∧ tMission.regBit .SEC0_ISLAND_RNG_OK = true ∧
    (tOpen 256 2).desc.optBit 8 = true ∧ tPlain (tWith (tCmd 0x51 0 0 [1]) tMission) 0x51 (tCmd 0x51 0 0 [1]) := by decide +kernel

theorem witness_TenantsOpenAndClose_staged :
    let s := tWith (tOpen 0 1) { tMission with tenants := ⟨[]⟩ }
    (s.tenant 1).state = .closed ∧ (tOpen 0 1).desc.optBit 8 = false ∧
      s.sec.staged.find? (fun _ k => k.kind == 1 && k.ref == (tOpen 0 1).desc.specF 55 40 && k.owner == 1)
        = some (0, { kind := 1, ref := 90, owner := 1 }) := by decide +kernel

theorem witness_TenantsOpenAndClose_refused : (tOff [8] tMission).enabled pgSec = false ∧ (tOff [8] tMission).plat.lifecycle = 2 ∧
    (({ tMission with tenants := tMission.tenants.set 1 { state := .closing } }).tenant 1).state = .closing ∧
    (({ tMission with tenants := tMission.tenants.set 1 { state := .fining } }).tenant 1).state = .fining ∧
    tMission.sec.staged.find? (fun _ k => k.kind == 1 && k.ref == (tOpen 0 2).desc.specF 55 40 && k.owner == 2) = none ∧
    (tMission.setReg .SEC0_ISLAND_RNG_OK 0).regBit .SEC0_ISLAND_RNG_OK = false ∧
    tPlain (tWith (tCmd 0x51 0 0 [2]) tMission) 0x51 (tCmd 0x51 0 0 [2]) ∧ (tCmd 0x51 0 0 [2]).desc.specF 37 36 = 2 := by
  decide +kernel

def tPrep : ClosePrep := { cmd := 7, noted := some 0 }
def tFine : FinePass := { tenant := 1, cmd := 7, closed := 0, start := 0, quiet := true }
def tPassing (p : FinePass) (t : Nat) : State := { tTen with tick := t, sec := { tTen.sec with pass := some p } }

theorem witness_FiningPass :
    (let s : State := { tTen with sec := { tTen.sec with prep := (⟨[]⟩ : Map ClosePrep).set 1 tPrep } }
     let u := s.prepStep 1
     s.sec.prep.get? 1 = some tPrep ∧ s.sec.pass = none ∧ u.prepared 1 = true ∧ u.sec.pass = none ∧ u.sec.prep.get? 1 = some tPrep ∧
       u.notesOut = false ∧ tPrep.woken.any (fun d => !u.domOn d) = false) ∧
    (tPassing tFine 2000000).sec.pass = some tFine ∧ tFine.start + 2000000 ≤ (tPassing tFine 2000000).tick ∧
    (tPassing tFine 1999999).tick < tFine.start + 2000000 ∧
    (let p : FinePass := { tFine with destroyed := true }
     p.visited < stackUnits ∧ p.start + 2000000 + p.visited * visitTicks ≤ 2000000 ∧ (tPassing p 2000000).gaf.running = none ∧
       p.start + 1602000000 ≤ (tPassing p 1602000000).tick) := by decide +kernel

/-- A closing tenant with a session, and one whose notes are out. -/
def tUnready : State :=
  let s := tDev { tSess with runState := .running }
  { s with sec := { s.sec with prep := (⟨[]⟩ : Map ClosePrep).set 1 tPrep } }
def tNoting (t : Nat) : State :=
  { tTen with tick := t, sec := { tTen.sec with prep := (⟨[]⟩ : Map ClosePrep).set 1 { tPrep with woken := [5] } },
              fam := { tTen.fam with reqs := (⟨[]⟩ : Map Req).set 2 { tReq0 with msg := tMsg .quietNote } } }

theorem witness_FiningPass_waits : tUnready.sec.prep.get? 1 = some tPrep ∧ (tUnready.prepStep 1).prepared 1 = false ∧
    ((tNoting 0).prepStep 1).notesOut = true ∧ ((tNoting 0).prepStep 1).tick < 0 + 10000000 ∧
    0 + 10000000 ≤ ((tNoting 10000000).prepStep 1).tick ∧
    [5].any (fun d => !((tBase.setReg .PWR_DOM_STAT_STATE 1 5).prepStep 1).domOn d) = true ∧ [5].any (fun d => !((tNoting 0).prepStep 1).domOn d) = false ∧
    tTen.sec.pass = none ∧ (tGaf (some tStepRun)).gaf.running ≠ none ∧ ({ tFine with destroyed := true } : FinePass).zeroed = false := by
  decide +kernel

def tMoving (d t : Nat) : State := { tBase with tick := 100000000, plat := { tBase.plat with moving := (⟨[]⟩ : Map (Nat × Nat)).set d (t, 0) } }

theorem witness_PowerAndClocks_PowerDomains : (tBase.setReg .PWR_DOM_SEL_DOMAIN 167).reg .PWR_DOM_SEL_DOMAIN = 167 ∧
    (tBase.setReg .PWR_DOM_SEL_DOMAIN 166).reg .PWR_DOM_SEL_DOMAIN = 166 ∧ tBase.reg .PWR_DOM_SEL_DOMAIN < 166 ∧
    tBase.plat.moving.has 5 = false ∧ tBase.domRefused 5 1 = false ∧ tBase.domState 5 ≠ 1 ∧ tBase.domRefused 136 2 = true ∧
    (tMoving 5 1).plat.moving.get? 5 = some (1, 0) ∧ (tMoving 5 1).mayEnd 5 1 0 = true ∧ (tMoving 5 1).plat.held.get? 5 = none ∧
    tBase.noWork = true ∧ (tWith (tRun 1) tBase).noWork = false := by decide +kernel

theorem witness_PowerAndClocks_PowerDomains_more : State.reset.live = false ∧ tBase.live = true ∧
    167 < (tBase.setReg .PWR_DOM_SEL_DOMAIN 255).reg .PWR_DOM_SEL_DOMAIN ∧
    (tPassing tFine 0).sec.pass = some tFine ∧ (tPassing tFine 0).live = true ∧ (tMoving 5 1).plat.moving.has 5 = true ∧
    tBase.domState 5 = 0 ∧ tBase.plat.moving.get? 5 = none ∧
    (tMoving 5 0).mayEnd 5 0 100000001 = false ∧
    ({ (tMoving 5 1) with plat := { (tMoving 5 1).plat with held := (⟨[]⟩ : Map Nat).set 5 2 } }).plat.held.get? 5 = some 2 ∧
    (let s := tWith (tCmd 0x18 0 0 []) (tBase.setReg .PWR_DOM_STAT_STATE 1 164)
     wakesAlone 164 (s.domState 164) = true ∧ s.plat.moving.has 164 = false ∧ s.domWork 164 = true) ∧
    wakesAlone 5 1 = false ∧ (tBase.setReg .PWR_DOM_STAT_STATE 1 164).domWork 164 = false ∧
    (let s := { ((tBase.setReg .PWR_DOM_STAT_AUTO 1 164).setReg .PWR_DOM_REQ_STATE 1 164) with tick := 1000000000000 }
     s.regBit .PWR_DOM_STAT_AUTO 164 = true ∧ s.domOn 164 = true ∧ s.reg .PWR_DOM_REQ_STATE 164 = 1 ∧ s.domWork 164 = false ∧
       (s.plat.wokenAt.get? 164).getD 0 + s.reg .PWR_AUTO_IDLE_US * 1000 ≤ s.tick) ∧
    tBase.pageState pgGlb = 1 := by decide +kernel

theorem witness_PowerAndClocks_ClocksAndGovernor : tBase.plat.phase = .on ∧
    (tBase.setReg .CLK_STATUS_REF_REF_OK 1).regBit .CLK_STATUS_REF_REF_OK = true ∧
    (tBase.setReg .CLK_STATUS_REF_REF_OK 0).regBit .CLK_STATUS_REF_REF_OK = false ∧ 600 < tBase.pllMhz ∧ tBase.pllMhz < 4096 ∧
    tBase.currentLimit < 65535 ∧ tBase.throttleC ≤ 124 ∧ (tBase.setReg .CLK_PLL_EFF_MHZ 600).pllMhz ≤ 600 ∧
    (0 : Nat) * 100 < 97 * tBase.currentLimit ∧ 0 * 100 < 97 * tBase.powerLimit ∧ 0 < tBase.throttleC ∧
    (tBase.setReg .CLK_PLL_EFF_MHZ 700).pllMhz < (tBase.setReg .CLK_PLL_EFF_MHZ 700).pllNominal ∧
    54999 < min 80000 (max 55000 (tBase.reg .PWR_UV_WARN_MV)) ∧ min 85000 (max 60000 (tBase.reg .PWR_OV_WARN_MV)) < 85001 := by
  decide +kernel

theorem witness_PowerAndClocks_ClocksAndGovernor_more :
    (∀ b : Bool, ((tBase.setReg .CLK_PLL_EFF_LOCKED (if b then 1 else 0)).pllLocked = b)) ∧
    tBase.domOn 127 = true ∧ (tBase.setReg .CLK_CORE_SEL_CORE 127).reg .CLK_CORE_SEL_CORE = 127 ∧
    (tBase.setReg .CLK_CORE_SEL_ALL 1).regBit .CLK_CORE_SEL_ALL = true ∧ (tBase.core 127).tileKind = 0 ∧
    (∀ st : Fin 5, (tBase.setPageState (fabPage 7) st).pageState (fabPage 7) = st) ∧
    97 * tBase.currentLimit ≤ tBase.currentLimit * 100 ∧ 97 * tBase.powerLimit ≤ tBase.powerLimit * 100 ∧
    tBase.pllNominal ≤ tBase.pllNominal ∧ State.reset.live = false := by decide +kernel

theorem witness_PowerAndResets : ({ tBase with plat := { tBase.plat with phase := .off } }).plat.phase = .off ∧
    ({ tBase with plat := { tBase.plat with phase := .overVolt } }).plat.phase = .overVolt ∧
    ({ tBase with plat := { tBase.plat with resetLow := false } }).plat.resetLow = false ∧ tBase.islandUp = true ∧
    ({ tBase with plat := { tBase.plat with phase := .off } }).islandUp = false ∧ tBase.live = true ∧
    bitsOf (0xC0DE0001 : Word).toNat 16 16 = 0xC0DE ∧ bitAt (0xC0DE0001 : Word).toNat 0 = true ∧
    bitAt (0xC0DE0000 : Word).toNat 0 = false ∧ bitsOf (0xC0DF0001 : Word).toNat 16 16 ≠ 0xC0DE ∧
    ({ tBase with plat := { tBase.plat with lifecycle := 3 } }).debugOpen = true ∧
    ({ tBase with plat := { tBase.plat with lifecycle := 2 } }).debugOpen = false ∧
    (tRing.function = 0 ∧ tRing.state = .enabled ∧ (tRed tRing).rings.get? 0 = some tRing) := by decide +kernel

def tBoot : BootInput :=
  { slotId := 1, firmware := [], config := [], bist := { failed := [], segs := 4, broken := false, vcore := 0, clk := 0 }, startMhz := 100,
    writeFails := false }

theorem witness_BootAndShutdown : State.reset.plat.phase = .on ∧ State.reset.plat.pgood = true ∧
    State.reset.pageState pgGlb = 0 ∧ tBoot.bist.failed = [] ∧ State.reset.plat.current = none ∧
    tBoot.writeFails = false ∧ tPlain (tWith (tCmd 0x58 0 0 []) tMap) 0x58 (tCmd 0x58 0 0 []) ∧
    tMap.tenants.values.any (fun t => t.state != .closed) = true ∧
    tBase.tenants.values.any (fun t => t.state != .closed) = false ∧ (tBase.setPageState pgGlb 3).pageState pgGlb = 3 := by
  decide +kernel

/-- The result store's current bank is A. -/
def tBanked : State :=
  { State.reset with plat := { State.reset.plat with bankA := { State.reset.plat.bankA with valid := true, seq := 3 } } }

theorem witness_BootAndShutdown_more : (tBanked.plat.current).map (·.1) = some 0 ∧ tBanked.pageState pgGlb = 0 ∧
    ({ tBoot with writeFails := true }).writeFails = true ∧ tBase.pageState pgGlb ≠ 0 ∧ tBase.plat.phase = .on ∧
    ({ tMap with sec := { tMap.sec with pass := some tFine } }).sec.pass.isSome = true ∧ tMap.ckp.run = none ∧
    tPlain (tWith (tCmd 0x58 0 256 []) tBase) 0x58 (tCmd 0x58 0 256 []) ∧ (tCmd 0x58 0 256 []).desc.opt 8 2 = 1 ∧
    tBase.pageState pgGlb ≠ 3 := by decide +kernel

/-! ## The rest of the hypotheses -/

theorem witness_RingStates_DisabledRingSoftRst : tBase.live = true ∧ (tBase.ring 255).state = .disabled ∧
    (tRed tShut).live = true ∧ ((tRed tShut).ring 0).state = .disabled := by decide +kernel

theorem witness_CompletionWritten_CompletionDiscarded :
    (tWith (tCmd 1 0 0 []) (tRed { tRing with discard := true })).cmd? 7 = some (tCmd 1 0 0 []) ∧
    ((tWith (tCmd 1 0 0 []) (tRed { tRing with discard := true })).ring (tCmd 1 0 0 []).ring).discard = true := by decide +kernel

theorem witness_InterruptRegisters_MaskedVectorHeld : tBase.unmasked.contains (15 * 2048 + 2047) = false := by decide +kernel

theorem witness_ServingEnables_ShaperEnable : tBase.live = true ∧ tBase.pageState pgAdm = 1 ∧
    (tBase.setPageState pgAdm 0).live = true ∧ (tBase.setPageState pgAdm 0).pageState pgAdm = 0 := by decide +kernel

theorem witness_CoresWork_SramErrorsFailCores : tBase.domState 127 ≠ 2 ∧ tBase.failed (pgCru + 127) = false ∧
    tBase.domState (128 + 7) ≠ 2 := by decide +kernel

theorem witness_KeysInvariantKept : tTen.inv := by
  refine ⟨?_, show tTen.plat.lifecycle ≤ 3 by decide +kernel⟩
  intro t x h hc
  have e : tTen.tenants = ⟨[(1, { state := .opened, keys := true, ttks := [5], localOnly := false })]⟩ := by decide +kernel
  rw [e] at h
  simp only [Map.get?, lookupIn] at h
  split at h
  · simp only [Option.some.injEq] at h
    rw [← h] at hc
    cases hc
  · cases h

theorem witness_MemoryFormKept : tBase.canonical := by
  refine ⟨show tBase.window.wf = true ∧ tBase.host.wf = true ∧ tBase.fabric.wf = true ∧ tBase.hbm.wf = true by
    decide +kernel, ?_, ?_⟩
  · intro k m h
    have e : tBase.ckp.store = ⟨[]⟩ := by decide +kernel
    rw [e] at h
    cases h
  · intro r c h
    have e : tBase.ckp.run = none := by decide +kernel
    rw [e] at h
    cases h

theorem witness_RareStateKept : (Instr.nop 7).resets = false ∧ (Instr.nop 7).boots = false ∧ (Instr.nop 7).masks = false ∧
    (Instr.nop 7).accepts = false ∧ (Instr.nop 7).freezes = false ∧ (Instr.nop 7).changesTenants = false ∧
    (Instr.nop 7).changesModels = false ∧ (Instr.nop 7).changesVocabs = false ∧ (Instr.nop 7).changesObjects = false ∧
    (Instr.nop 7).migrates = false ∧ (Instr.nop 7).storesFabric = false ∧ (Instr.nop 7).storesHbm = false ∧
    (tAfter (.nop 7) (tWith (tCmd 1 0 0 []) tR)).isSome = true := by decide +kernel

theorem witness_QueueOnlyConsumed :
    (match step { tWith (tCmd 1 0 0 []) tR with pending := [.nop 7, .commandDequeue] } with
      | .next t => t.pending == [.commandDequeue]
      | _ => false) = true := by decide +kernel

/-! ## One step of a command -/

/-- NOP completes with OK (R52, R56): the completion of 32 bytes at the ring's first slot holds opcode 1 with the phase of the
first pass, and status 0; the command is gone. -/
theorem test_nop : (tAfter (.nop 7) (tWith (tCmd 1 0 0 []) tR)).map
    (fun t => ((t.ring 0).cqTail, (t.cmd? 7).isSome, t.window.read 4096, t.window.read 4097)) = some (1, false, 0x81, 0) := by
  decide +kernel

/-- A doorbell that moves SQ_TAIL by one leaves one descriptor waiting (R45). -/
theorem test_sqDoorbell : (tAfter (.sqDoorbell 0 1 []) tR).map (fun t => (t.ring 0).waiting) = some 1 := by decide +kernel

/-- An access of wrong width or alignment leaves its offset and an error on page 0 (R11, R547). -/
theorem test_badRegisterAccess : (tAfter (.badRegisterAccess ⟨0x102, false⟩) tBase).map
    (fun t => (t.reg .GLB_ACCESS_ERR_OFFSET, (t.common 0).err, (t.common 0).code)) = some (0x102, true, 1) := by decide +kernel

/-- Reset leaves the memories empty and the queue empty. -/
theorem test_reset : State.reset.pending = [] ∧ State.reset.window = ⟨[]⟩ ∧ State.reset.host = ⟨[]⟩ ∧ State.reset.fabric = ⟨[]⟩ := by
  decide +kernel

/-- No word spells a command: the table gives its rows no bits. -/
theorem test_decode : decodeTableWord 32 0x12345678 = none ∧ (tBase.withFetchWord 8 1).pending = [] := by decide +kernel

/-! ## Ill-formed commands are refused, and the ones next to them are not -/

theorem test_wf_streams : (Instr.streamAutoRekey 0).wf = false ∧ (Instr.streamAutoRekey 256).wf = false ∧
    (Instr.streamAutoRekey 255).wf = true ∧ (Instr.ideIntegrityFail 0 0).wf = false ∧ (Instr.ideIntegrityFail 256 0).wf = false ∧
    (Instr.ideIntegrityFail 1 0).wf = true := by decide +kernel

theorem test_wf_domains : (Instr.domainTransitionDone 168).wf = false ∧ (Instr.autoWake 168).wf = false ∧
    (Instr.autoIdleReturn 168).wf = false ∧ (Instr.domainTransitionDone 167).wf = true := by decide +kernel

theorem test_wf_sideband : (Instr.getMeasurements 256).wf = false ∧ (Instr.getMeasurements 255).wf = true ∧
    (Instr.telRead (List.replicate 4097 0)).wf = false ∧ (Instr.telRead [0]).wf = true := by decide +kernel

/-- A well-formed peer message of device 9. -/
def tWfMsg : PeerMsg := { kind := .fp32Add, source := 9, msgSeq := 1, seq := 4, table := 2, row := 3 }

theorem test_wf_messages : (Instr.fp32Add tWfMsg).wf = true ∧ (Instr.fp32Add { tWfMsg with source := 0 }).wf = false ∧
    (Instr.rowStore { tWfMsg with source := 65535 }).wf = false ∧ (Instr.rowReq { tWfMsg with msgSeq := 2 ^ 32 }).wf = false ∧
    (Instr.rowData { tWfMsg with table := 256 }).wf = false ∧ (Instr.applied { tWfMsg with row := 2 ^ 64 }).wf = false ∧
    (Instr.leaseNote { tWfMsg with epoch := 2 ^ 32 } none).wf = false ∧ (Instr.quietNote { tWfMsg with source := 0 }).wf = false := by
  decide +kernel

theorem test_wf_devices : (Instr.quietSpanEnd 0).wf = false ∧ (Instr.peerSlotTimeout 65535).wf = false ∧
    (Instr.apertureBadAccess 0).wf = false ∧ (Instr.fabricTimeout 65535).wf = false ∧ (Instr.deadWalkDone 0).wf = false ∧
    (Instr.quietSpanEnd 65534).wf = true ∧ (Instr.leaseCasResult 4 none none).wf = false ∧
    (Instr.leaseCasResult 8 none none).wf = true := by decide +kernel

theorem test_wf_links : (Instr.linkL0 8 0 16).wf = false ∧ (Instr.linkL0 0 3 16).wf = false ∧ (Instr.linkL0 0 0 5).wf = false ∧
    (Instr.linkL0 7 2 4).wf = true ∧ (Instr.linkTrainTimeout 8).wf = false ∧ (Instr.linkRetrain 8).wf = false ∧
    (Instr.linkDown 8).wf = false ∧ (Instr.l0pWidthChange 8 16).wf = false ∧ (Instr.l0pWidthChange 0 2).wf = false := by
  decide +kernel

theorem test_wf_boot : (Instr.boot { tBoot with slotId := 256 }).wf = false ∧ (Instr.boot { tBoot with slotId := 255 }).wf = true := by
  decide +kernel

theorem test_wf_slots : (Instr.leaseValidationResult (2 ^ 24) none).wf = false ∧ (Instr.tailAllotGiveUp (2 ^ 24)).wf = false ∧
    (Instr.stepCommit (2 ^ 24)).wf = false ∧ (Instr.versionWaitTimeout (2 ^ 24)).wf = false ∧
    (Instr.compactionSpaceReady ⟨2 ^ 24, true⟩).wf = false ∧ (Instr.compactionAbandon (2 ^ 24)).wf = false ∧
    (Instr.partialSlotFree (2 ^ 24)).wf = false ∧ (Instr.dirMissFill (2 ^ 24) true).wf = false ∧
    (Instr.overstay (2 ^ 24)).wf = false ∧ (Instr.reheatF1 (2 ^ 24)).wf = false ∧ (Instr.reheatF2 (2 ^ 24)).wf = false ∧
    (Instr.hotIdleDemote (2 ^ 24)).wf = false ∧ (Instr.ageDemote (2 ^ 24)).wf = false ∧ (Instr.stepCommit (2 ^ 24 - 1)).wf = true := by
  decide +kernel

theorem test_wf_tiles : (Instr.tileEnd 0 (.dma []) { cycles := 1, rows := [2 ^ 24] } none).wf = false ∧
    (Instr.tileEnd 0 (.dma []) { cycles := 1, queued := 2, ready := 1, start := 3 } none).wf = false ∧
    (Instr.tileEnd 0 (.dma []) { cycles := 1, queued := 1, ready := 3, start := 2 } none).wf = false ∧
    (Instr.tileEnd 0 (.dma []) { cycles := 1, rows := [0] } none).wf = true := by decide +kernel

theorem test_wf_rows : (Instr.detEpochClose 256 0).wf = false ∧ (Instr.detEpochClose 0 (2 ^ 64)).wf = false ∧
    (Instr.embRowUe 256 0 0 true).wf = false ∧ (Instr.embRowUe 0 (2 ^ 32) 0 true).wf = false ∧
    (Instr.embRowUe 0 0 12 true).wf = false ∧ (Instr.groupFail 256 true).wf = false ∧
    (Instr.restoreDone [(4, 0)] none).wf = false ∧ (Instr.restoreDone [(8, 0)] none).wf = true ∧
    (Instr.finingPrepDone 4096).wf = false ∧ (Instr.finingPrepDone 4095).wf = true := by decide +kernel

end Tests
end

section
/-! # What few commands may change

The frame of the whole machine: each operation of the model leaves the rarely changed parts of the state as they are, but for
those that its caller has leave to change. -/
namespace Sys2Proof.Machine

/-! ## The steady part of a state -/

/-- What a command has leave to change of the parts of the state that few commands change. -/
structure Leave where
  boots : Bool := false
  masks : Bool := false
  accepts : Bool := false
  freezes : Bool := false
  tenants : Bool := false
  models : Bool := false
  vocabs : Bool := false
  objects : Bool := false
  migrates : Bool := false
  fabric : Bool := false
  hbm : Bool := false

/-- The queue, which no command changes, and the parts of the state that few commands change. -/
structure Steady where
  pending : List Instr
  tick : Nat
  bootEpoch : Nat
  unmasked : List Nat
  nextCmd : Nat
  freeze : Nat
  tenants : Map Tenant
  models : Map Model
  vocabs : Map Vocab
  objects : Map CObject
  migrations : Map Migration
  fabric : Memory
  hbm : Memory

/-- The steady part of a state, with what may change blanked out: an operation that changes no more than it has leave to
keeps it. -/
def State.steady (may : Leave) (s : State) : Steady where
  pending := s.pending
  tick := if may.boots then 0 else s.tick
  bootEpoch := if may.boots then 0 else s.bootEpoch
  unmasked := if may.masks then [] else s.unmasked
  nextCmd := if may.accepts then 0 else s.nextCmd
  freeze := if may.freezes then 0 else s.freeze
  tenants := if may.tenants then ⟨[]⟩ else s.tenants
  models := if may.models then ⟨[]⟩ else s.models
  vocabs := if may.vocabs then ⟨[]⟩ else s.vocabs
  objects := if may.objects then ⟨[]⟩ else s.objects
  migrations := if may.migrates then ⟨[]⟩ else s.migrations
  fabric := if may.fabric then ⟨[]⟩ else s.fabric
  hbm := if may.hbm then ⟨[]⟩ else s.hbm

/-- Every state that an operation may answer has the steady part of `s`. -/
structure Keeps (may : Leave) (s : State) (o : Option State) : Prop where
  eq {t : State} : o = some t → t.steady may = s.steady may

/-- If a command goes on, the next state has the steady part of `s`. -/
structure KeepsNext (may : Leave) (s : State) (o : Host.Outcome State Fault Refusal) : Prop where
  eq {t : State} : o = .next t → t.steady may = s.steady may

variable {may : Leave} {s t : State}

@[simp] theorem keeps_none : Keeps may s none := ⟨fun h => nomatch h⟩

@[simp] theorem keeps_some : Keeps may s (some t) ↔ t.steady may = s.steady may :=
  ⟨fun h => h.eq rfl, fun h => ⟨fun e => by cases e; exact h⟩⟩

@[simp] theorem keepsNext_next : KeepsNext may s (.next t) ↔ t.steady may = s.steady may :=
  ⟨fun h => h.eq rfl, fun h => ⟨fun e => by cases e; exact h⟩⟩

theorem Keeps.trans {o : Option State} (h : Keeps may t o) (e : t.steady may = s.steady may) : Keeps may s o :=
  ⟨fun hu => (h.eq hu).trans e⟩

theorem Keeps.getD {o : Option State} (h : Keeps may s o) : (o.getD s).steady may = s.steady may := by
  cases o with
  | none => rfl
  | some u => exact h.eq rfl

/-- A state that comes with another answer. -/
theorem Keeps.of_pair {α : Type} {o : Option (α × State)} {a : α} (h : Keeps may s (o.map Prod.snd)) (e : o = some (a, t)) :
    t.steady may = s.steady may := h.eq (by rw [e]; rfl)

theorem State.steady_of_snd {α : Type} {p : α × State} {a : α} (h : p = (a, t)) (e : p.2.steady may = s.steady may) :
    t.steady may = s.steady may := by
  rwa [h] at e

/-- A literal update of other fields than the steady ones. -/
@[simp] theorem State.steady_update free regs shadow commons rings msixPending msixTable sent window host cmds adm
    sdir cane stm jobs nextJob sources cores windows gaf sec emb srch fam ckp tel plat out :
    State.steady may { s with
     free := free, regs := regs, shadow := shadow, commons := commons, rings := rings, msixPending := msixPending,
      msixTable := msixTable, sent := sent, window := window, host := host, cmds := cmds, adm := adm, sdir := sdir,
      cane := cane, stm := stm, jobs := jobs, nextJob := nextJob, sources := sources, cores := cores,
      windows := windows, gaf := gaf, sec := sec, emb := emb, srch := srch, fam := fam, ckp := ckp, tel := tel,
      plat := plat, out := out } = s.steady may := by
  simp only [State.steady]

/-- An update that also writes what there is leave to change. -/
@[simp] theorem State.steady_update_leave free regs shadow commons rings msixPending msixTable sent window host cmds adm
    sdir cane stm jobs nextJob sources cores windows gaf sec emb srch fam ckp tel plat out
    {tick bootEpoch unmasked nextCmd freeze tenants models vocabs objects migrations fabric hbm}
    (hboots : may.boots = true ∨ tick = s.tick ∧ bootEpoch = s.bootEpoch)
    (hmasks : may.masks = true ∨ unmasked = s.unmasked) (haccepts : may.accepts = true ∨ nextCmd = s.nextCmd)
    (hfreezes : may.freezes = true ∨ freeze = s.freeze) (htenants : may.tenants = true ∨ tenants = s.tenants)
    (hmodels : may.models = true ∨ models = s.models) (hvocabs : may.vocabs = true ∨ vocabs = s.vocabs)
    (hobjects : may.objects = true ∨ objects = s.objects) (hmigrates : may.migrates = true ∨ migrations = s.migrations)
    (hfabric : may.fabric = true ∨ fabric = s.fabric) (hhbm : may.hbm = true ∨ hbm = s.hbm) :
    State.steady may { s with
     free := free, regs := regs, shadow := shadow, commons := commons, rings := rings, msixPending := msixPending,
      msixTable := msixTable, sent := sent, window := window, host := host, cmds := cmds, adm := adm, sdir := sdir,
      cane := cane, stm := stm, jobs := jobs, nextJob := nextJob, sources := sources, cores := cores,
      windows := windows, gaf := gaf, sec := sec, emb := emb, srch := srch, fam := fam, ckp := ckp, tel := tel,
      plat := plat, out := out, tick := tick, bootEpoch := bootEpoch, unmasked := unmasked, nextCmd := nextCmd,
      freeze := freeze, tenants := tenants, models := models, vocabs := vocabs, objects := objects,
      migrations := migrations, fabric := fabric, hbm := hbm } = s.steady may := by
  simp only [State.steady, Steady.mk.injEq, true_and]
  refine ⟨?_, ?_, ?_, ?_, ?_, ?_, ?_, ?_, ?_, ?_, ?_, ?_⟩ <;> grind

@[simp] theorem State.steady_ite (c : Prop) [Decidable c] (t u : State) :
    (if c then t else u).steady may = if c then t.steady may else u.steady may := apply_ite _ _ _ _

@[simp] theorem State.steady_foldl {β : Type} (f : State → β → State)
    (h : ∀ t b, (f t b).steady may = t.steady may) (l : List β) : (l.foldl f s).steady may = s.steady may :=
  foldl_keeps (State.steady may) f h l s

/-- A fold that carries another value beside the state. -/
theorem State.steady_foldl_fst {α β : Type} (f : State × α → β → State × α)
    (h : ∀ x b, (f x b).1.steady may = x.1.steady may) (l : List β) (x : State × α) :
    (l.foldl f x).1.steady may = x.1.steady may := by
  induction l generalizing x with
  | nil => rfl
  | cons b l ih => rw [List.foldl_cons, ih, h]

/-- A fold that carries the state beside another value. -/
theorem State.steady_foldl_snd {α β : Type} (f : α × State → β → α × State)
    (h : ∀ x b, (f x b).2.steady may = x.2.steady may) (l : List β) (x : α × State) :
    (l.foldl f x).2.steady may = x.2.steady may := by
  induction l generalizing x with
  | nil => rfl
  | cons b l ih => rw [List.foldl_cons, ih, h]

end Sys2Proof.Machine
end

section
/-! ## What is kept: registers, memory, rings, sessions and commands -/
namespace Sys2Proof.Machine
variable {may : Leave} {s t : State}

@[simp] theorem State.steady_setReg (r : Reg) (x i : Nat) : (s.setReg r x i).steady may = s.steady may := by
  simp [State.setReg]

@[simp] theorem State.steady_bump (r : Reg) (i k : Nat) : (s.bump r i k).steady may = s.steady may := by
  simp [State.bump]

@[simp] theorem State.steady_raiseReg (r : Reg) (x i : Nat) : (s.raiseReg r x i).steady may = s.steady may := by
  simp [State.raiseReg]

@[simp] theorem State.steady_clearCounters (p : Nat) : (s.clearCounters p).steady may = s.steady may := by
  simp [State.clearCounters]

@[simp] theorem State.steady_setCommon (p : Nat) (c : Common) : (s.setCommon p c).steady may = s.steady may := by
  simp [State.setCommon]

@[simp] theorem State.steady_sramZero : s.sramZero.steady may = s.steady may := by
  simp only [State.sramZero]
  repeat' split
  all_goals simp

@[simp] theorem State.steady_ungate : s.ungate.steady may = s.steady may := by
  simp [State.ungate]

@[simp] theorem State.steady_touch : s.touch.steady may = s.steady may := by
  simp [State.touch]

@[simp] theorem State.steady_sendMsi (vector function : Nat) :
    (s.sendMsi vector function).steady may = s.steady may := by
  simp [State.sendMsi]

@[simp] theorem State.steady_routeMsg (p : Nat) : (s.routeMsg p).steady may = s.steady may := by
  simp [State.routeMsg]

@[simp] theorem State.steady_setInt (p : Nat) (bits : Word) : (s.setInt p bits).steady may = s.steady may := by
  simp [State.setInt]

@[simp] theorem State.steady_setIntBit (p i : Nat) : (s.setIntBit p i).steady may = s.steady may := by
  simp [State.setIntBit]

@[simp] theorem State.steady_recErr (p code : Nat) : (s.recErr p code).steady may = s.steady may := by
  simp [State.recErr]

@[simp] theorem State.steady_lockErr (p : Nat) : (s.lockErr p).steady may = s.steady may := by
  simp [State.lockErr]

@[simp] theorem State.steady_setPageState (p st : Nat) : (s.setPageState p st).steady may = s.steady may := by
  simp [State.setPageState]

@[simp] theorem State.steady_failPage (p code : Nat) : (s.failPage p code).steady may = s.steady may := by
  simp [State.failPage]

@[simp] theorem State.steady_beginLong (p : Nat) : (s.beginLong p).steady may = s.steady may := by
  simp [State.beginLong]

@[simp] theorem State.steady_progress (p pos pct : Nat) : (s.progress p pos pct).steady may = s.steady may := by
  simp [State.progress]

@[simp] theorem State.steady_endLong (p : Nat) : (s.endLong p).steady may = s.steady may := by
  simp [State.endLong]

@[simp] theorem State.steady_abortLong (p : Nat) : (s.abortLong p).steady may = s.steady may := by
  simp [State.abortLong]

@[simp] theorem State.steady_useFree (k : Nat) : (s.useFree k).steady may = s.steady may := by
  simp [State.useFree]

@[simp] theorem State.steady_writeMem (inWindow : Bool) (addr : Nat) (bs : List Byte) :
    (s.writeMem inWindow addr bs).steady may = s.steady may := by
  simp [State.writeMem]

@[simp] theorem State.steady_writeDst (dst addr : Nat) (bs : List Byte) (hfabric : may.fabric = true) :
    (s.writeDst dst addr bs).steady may = s.steady may := by
  simp [State.writeDst, hfabric]

@[simp] theorem State.steady_hostStores (l : List HostStore) : (s.hostStores l).steady may = s.steady may := by
  simp [State.hostStores]

@[simp] theorem State.steady_setCore (n : Nat) (c : Core) : (s.setCore n c).steady may = s.steady may := by
  simp [State.setCore]

@[simp] theorem State.steady_setRing (n : Nat) (r : Ring) : (s.setRing n r).steady may = s.steady may := by
  simp [State.setRing]

@[simp] theorem State.steady_ringInt (n : Nat) (bits : Word) : (s.ringInt n bits).steady may = s.steady may := by
  simp [State.ringInt]

@[simp] theorem State.steady_ringErr (n code : Nat) : (s.ringErr n code).steady may = s.steady may := by
  simp [State.ringErr]

@[simp] theorem State.steady_signal (n : Nat) : (s.signal n).steady may = s.steady may := by
  simp [State.signal]

@[simp] theorem State.steady_writeCompletion (n : Nat) (d : Desc) (st : Status) (detail handle result : Nat) :
    (s.writeCompletion n d st detail handle result).steady may = s.steady may := by
  simp [State.writeCompletion]

@[simp] theorem State.steady_release (n : Nat) : (s.release n).steady may = s.steady may := by
  simp [State.release]

@[simp] theorem State.steady_setSession (slot : Nat) (x : Session) :
    (s.setSession slot x).steady may = s.steady may := by
  simp [State.setSession]

@[simp] theorem State.steady_onSession (slot : Nat) (f : Session → Session) :
    (s.onSession slot f).steady may = s.steady may := by
  simp only [State.onSession]
  repeat' split
  all_goals simp

@[simp] theorem State.steady_countSlots (core : Nat) (key : Option Nat) (wasted : Bool) (n : Nat) :
    (s.countSlots core key wasted n).steady may = s.steady may := by
  simp only [State.countSlots]
  repeat' split
  all_goals simp

@[simp] theorem State.steady_tagRecord (bytes : List Byte) (wasted : Bool) :
    (s.tagRecord bytes wasted).steady may = s.steady may := by
  simp [State.tagRecord]

@[simp] theorem State.steady_settleShares (core : Nat) (shares : List (Nat × Nat × Nat)) (waste : Nat → Bool) :
    (s.settleShares core shares waste).steady may = s.steady may := by
  simp [State.settleShares]

@[simp] theorem State.steady_settleAcct (a : TileAcct) (waste : Nat → Bool) :
    (s.settleAcct a waste).steady may = s.steady may := by
  simp only [State.settleAcct]
  repeat' split
  all_goals simp

@[simp] theorem State.steady_settleJob (id : Nat) (wasted : Bool) :
    (s.settleJob id wasted).steady may = s.steady may := by
  simp [State.settleJob]

@[simp] theorem State.steady_settleStep (ran : Bool) : (s.settleStep ran).steady may = s.steady may := by
  simp [State.settleStep]

@[simp] theorem State.steady_onCmd (id : Nat) (f : Cmd → Cmd) : (s.onCmd id f).steady may = s.steady may := by
  simp [State.onCmd]

@[simp] theorem State.steady_account (tenant : Nat) (st : Status) :
    (s.account tenant st).steady may = s.steady may := by
  simp [State.account]

@[simp] theorem State.steady_progressCmd (id : Nat) : (s.progressCmd id).steady may = s.steady may := by
  simp [State.progressCmd]

@[simp] theorem State.steady_progressStep (slot : Nat) : (s.progressStep slot).steady may = s.steady may := by
  simp only [State.progressStep]
  repeat' split
  all_goals simp

@[simp] theorem State.steady_completeH (id : Nat) (st : Status) (detail result handle : Nat) :
    (s.completeH id st detail result handle).steady may = s.steady may := by
  simp only [State.completeH]
  repeat' split
  all_goals simp

@[simp] theorem State.steady_complete (id : Nat) (st : Status) (detail result : Nat) :
    (s.complete id st detail result).steady may = s.steady may := by
  simp [State.complete]

@[simp] theorem State.steady_refuse (id : Nat) (st : Status) (reason : Nat) :
    (s.refuse id st reason).steady may = s.steady may := by
  simp [State.refuse]

end Sys2Proof.Machine
end

section
/-! ## What is kept: the address map and the peer aperture -/
namespace Sys2Proof.Machine
variable {may : Leave} {s t : State}

@[simp] theorem State.steady_allotPool (addr bytes : Nat) : (s.allotPool addr bytes).steady may = s.steady may := by
  simp [State.allotPool]

@[simp] theorem State.steady_countReq (port : Option Nat) : (s.countReq port).steady may = s.steady may := by
  simp only [State.countReq]
  repeat' split
  all_goals simp

@[simp] theorem State.steady_countLease (addr : Nat) : (s.countLease addr).steady may = s.steady may := by
  simp only [State.countLease]
  repeat' split
  all_goals simp

@[simp] theorem State.steady_casIssue (addr slot e : Nat) (op : LeaseOp) :
    (s.casIssue addr slot e op).steady may = s.steady may := by
  simp [State.casIssue]

@[simp] theorem State.steady_casIfLeased (slot : Nat) (op : LeaseOp) :
    (s.casIfLeased slot op).steady may = s.steady may := by
  simp only [State.casIfLeased]
  repeat' split
  all_goals simp

end Sys2Proof.Machine
end

section
/-! ## What is kept: shadows of register fields -/
namespace Sys2Proof.Machine
variable {may : Leave} {s t : State}

@[simp] theorem State.steady_dropShadow (p : Nat) : (s.dropShadow p).steady may = s.steady may := by
  simp [State.dropShadow]

@[simp] theorem State.steady_wearTick : s.wearTick.steady may = s.steady may := by
  simp [State.wearTick]

@[simp] theorem State.steady_keepPair (old : State) (p : Nat) (a b : Reg) :
    (s.keepPair old p a b).steady may = s.steady may := by
  simp [State.keepPair]

@[simp] theorem State.steady_keepShares (old : State) (port : Nat) :
    (s.keepShares old port).steady may = s.steady may := by
  simp [State.keepShares]

@[simp] theorem State.steady_checkApplied (old : State) (p : Nat) (l : List (Reg × Nat × Nat)) :
    (s.checkApplied old p l).steady may = s.steady may := by
  simp [State.checkApplied]

@[simp] theorem State.steady_applyShadow (p : Nat) : (s.applyShadow p).steady may = s.steady may := by
  simp [State.applyShadow]

@[simp] theorem State.steady_safePoint (p : Nat) : (s.safePoint p).steady may = s.steady may := by
  simp [State.safePoint]

end Sys2Proof.Machine
end

section
/-! ## What is kept: the rings -/
namespace Sys2Proof.Machine
variable {may : Leave} {s t : State}

@[simp] theorem steady_sqDoorbellRing (n : Nat) (tail : Word) :
    (sqDoorbellRing s n tail).steady may = s.steady may := by
  simp only [sqDoorbellRing]
  repeat' split
  all_goals simp

@[simp] theorem keepsNext_execSqDoorbell (ring : BitVec 8) (tail : Word) (stores : List HostStore) :
    KeepsNext may s (execSqDoorbell ring tail stores s) := by
  simp [execSqDoorbell]

@[simp] theorem steady_cqDoorbellRing (n : Nat) (head : Word) :
    (cqDoorbellRing s n head).steady may = s.steady may := by
  simp only [cqDoorbellRing]
  repeat' split
  all_goals simp

@[simp] theorem keepsNext_execCqDoorbell (ring : BitVec 8) (head : Word) :
    KeepsNext may s (execCqDoorbell ring head s) := by
  simp [execCqDoorbell]

@[simp] theorem steady_pushRing (n : Nat) (q7 : DWord) : (pushRing s n q7).steady may = s.steady may := by
  simp only [pushRing]
  repeat' split
  all_goals simp

@[simp] theorem keepsNext_execPush (ring : BitVec 8) (q7 : DWord) (stores : List HostStore) :
    KeepsNext may s (execPush ring q7 stores s) := by
  simp [execPush]

@[simp] theorem steady_ringEnableOp (n function : Nat) : (ringEnableOp s n function).steady may = s.steady may := by
  simp only [ringEnableOp]
  repeat' split
  all_goals simp

@[simp] theorem keepsNext_execRingEnable (ring : BitVec 8) (function : BitVec 4) :
    KeepsNext may s (execRingEnable ring function s) := by
  simp [execRingEnable]

@[simp] theorem steady_ringDisableOp (n : Nat) : (ringDisableOp s n).steady may = s.steady may := by
  simp only [ringDisableOp]
  repeat' split
  all_goals simp

@[simp] theorem keepsNext_execRingDisable (ring : BitVec 8) : KeepsNext may s (execRingDisable ring s) := by
  simp [execRingDisable]

@[simp] theorem steady_ringSoftRstOp (n : Nat) : (ringSoftRstOp s n).steady may = s.steady may := by
  simp only [ringSoftRstOp]
  repeat' split
  all_goals simp

@[simp] theorem keepsNext_execRingSoftRst (ring : BitVec 8) : KeepsNext may s (execRingSoftRst ring s) := by
  simp [execRingSoftRst]

@[simp] theorem steady_ringDrainedOp (n : Nat) : (ringDrainedOp s n).steady may = s.steady may := by
  simp [ringDrainedOp]

@[simp] theorem keepsNext_execRingDrained (ring : BitVec 8) : KeepsNext may s (execRingDrained ring s) := by
  simp [execRingDrained]

@[simp] theorem steady_haltRing (n code : Nat) : (haltRing s n code).steady may = s.steady may := by
  simp [haltRing]

@[simp] theorem keepsNext_execDescriptorReadFail (ring : BitVec 8) :
    KeepsNext may s (execDescriptorReadFail ring s) := by
  simp [execDescriptorReadFail]

@[simp] theorem State.steady_unsend (x : Nat) : (s.unsend x).steady may = s.steady may := by
  simp [State.unsend]

@[simp] theorem State.steady_undoCompletion (n : Nat) (u : CqUndo) :
    (s.undoCompletion n u).steady may = s.steady may := by
  simp [State.undoCompletion]

@[simp] theorem keepsNext_execCompletionWriteFail (ring : BitVec 8) :
    KeepsNext may s (execCompletionWriteFail ring s) := by
  simp only [execCompletionWriteFail, keepsNext_next]
  repeat' split
  all_goals simp

@[simp] theorem keepsNext_execCoalesceTimer (ring : BitVec 8) : KeepsNext may s (execCoalesceTimer ring s) := by
  simp [execCoalesceTimer]

@[simp] theorem steady_setRingBind (x : Word) : (setRingBind s x).steady may = s.steady may := by
  simp [setRingBind]

@[simp] theorem steady_ringBindOp (x : Word) : (ringBindOp s x).steady may = s.steady may := by
  simp [ringBindOp]

@[simp] theorem keepsNext_execRingBind (value : Word) : KeepsNext may s (execRingBind value s) := by
  simp [execRingBind]

@[simp] theorem steady_ringUnbindOp (x : Word) : (ringUnbindOp s x).steady may = s.steady may := by
  simp [ringUnbindOp]

@[simp] theorem keepsNext_execRingUnbind (value : Word) : KeepsNext may s (execRingUnbind value s) := by
  simp [execRingUnbind]

@[simp] theorem keepsNext_execMsixVectorUnmask (function : BitVec 4) (entry : VectorEntry) (hmasks : may.masks = true) :
    KeepsNext may s (execMsixVectorUnmask function entry s) := by
  simp [execMsixVectorUnmask, hmasks]

end Sys2Proof.Machine
end

section
/-! ## What is kept: pages and their tables -/
namespace Sys2Proof.Machine
variable {may : Leave} {s t : State}

@[simp] theorem State.steady_heapTake (owner bytes : Nat) : (s.heapTake owner bytes).steady may = s.steady may := by
  simp [State.heapTake]

@[simp] theorem State.steady_heapGive (owner bytes : Nat) : (s.heapGive owner bytes).steady may = s.steady may := by
  simp [State.heapGive]

@[simp] theorem State.steady_setPage (n : Nat) (p : PageRec) : (s.setPage n p).steady may = s.steady may := by
  simp [State.setPage]

@[simp] theorem State.steady_onPage (n : Nat) (f : PageRec → PageRec) : (s.onPage n f).steady may = s.steady may := by
  simp only [State.onPage]
  repeat' split
  all_goals simp

@[simp] theorem State.keeps_allotPage (tenant model : Nat) (l : Layout) (slots : List Slot) :
    Keeps may s ((s.allotPage tenant model l slots).map Prod.snd) := by
  simp only [State.allotPage]
  split <;> simp

@[simp] theorem State.steady_handOver (n : Nat) : (s.handOver n).steady may = s.steady may := by
  simp [State.handOver]

@[simp] theorem State.steady_incRef (n : Nat) : (s.incRef n).steady may = s.steady may := by
  simp [State.incRef]

@[simp] theorem State.steady_decRef (n : Nat) : (s.decRef n).steady may = s.steady may := by
  simp only [State.decRef]
  repeat' split
  all_goals simp

@[simp] theorem State.steady_pin (n : Nat) : (s.pin n).steady may = s.steady may := by
  simp [State.pin]

@[simp] theorem State.steady_pinAll (l : List Nat) : (s.pinAll l).steady may = s.steady may := by
  simp [State.pinAll]

@[simp] theorem State.steady_addUsers (l : List Nat) : (s.addUsers l).steady may = s.steady may := by
  simp [State.addUsers]

@[simp] theorem State.steady_dropUsers (l : List Nat) : (s.dropUsers l).steady may = s.steady may := by
  simp [State.dropUsers]

@[simp] theorem State.steady_dropHbm (n : Nat) : (s.dropHbm n).steady may = s.steady may := by
  simp only [State.dropHbm]
  repeat' split
  all_goals simp

@[simp] theorem State.steady_dropFlash (n : Nat) : (s.dropFlash n).steady may = s.steady may := by
  simp only [State.dropFlash]
  repeat' split
  all_goals simp

@[simp] theorem State.steady_dropPool (n : Nat) : (s.dropPool n).steady may = s.steady may := by
  simp only [State.dropPool]
  repeat' split
  all_goals simp

@[simp] theorem State.steady_dropIdleHbm (n : Nat) : (s.dropIdleHbm n).steady may = s.steady may := by
  simp only [State.dropIdleHbm]
  repeat' split
  all_goals simp

@[simp] theorem State.steady_dropIdlePool (n : Nat) : (s.dropIdlePool n).steady may = s.steady may := by
  simp only [State.dropIdlePool]
  repeat' split
  all_goals simp

@[simp] theorem steady_releaseFlash (fuel : Nat) : (releaseFlash fuel s).steady may = s.steady may := by
  induction fuel generalizing s with
  | zero => rfl
  | succ fuel ih =>
    simp only [releaseFlash]
    repeat' split
    all_goals simp [ih]

@[simp] theorem State.steady_easeFlash : s.easeFlash.steady may = s.steady may := by
  simp [State.easeFlash]

@[simp] theorem State.steady_releaseHeld (n : Nat) : (s.releaseHeld n).steady may = s.steady may := by
  simp only [State.releaseHeld]
  repeat' split
  all_goals simp

@[simp] theorem State.steady_unpin (n : Nat) : (s.unpin n).steady may = s.steady may := by
  simp only [State.unpin]
  repeat' split
  all_goals simp

@[simp] theorem State.steady_unpinAll (l : List Nat) : (s.unpinAll l).steady may = s.steady may := by
  simp [State.unpinAll]

@[simp] theorem State.steady_seal (n : Nat) : (s.seal n).steady may = s.steady may := by
  simp only [State.seal]
  repeat' split
  all_goals simp

end Sys2Proof.Machine
end

section
/-! ## What is kept: the nodes of shared pages -/
namespace Sys2Proof.Machine
variable {may : Leave} {s t : State}

@[simp] theorem State.steady_setNode (n : Nat) (x : Node) : (s.setNode n x).steady may = s.steady may := by
  simp [State.setNode]

@[simp] theorem State.steady_onNode (n : Nat) (f : Node → Node) : (s.onNode n f).steady may = s.steady may := by
  simp only [State.onNode]
  repeat' split
  all_goals simp

@[simp] theorem steady_caneLookup (k : CaneKey) : (caneLookup s k).2.steady may = s.steady may := by
  simp [caneLookup]

@[simp] theorem steady_pruneNode (fuel n : Nat) : (pruneNode s fuel n).steady may = s.steady may := by
  induction fuel generalizing s n with
  | zero => rfl
  | succ fuel ih =>
    unfold pruneNode
    split
    · rfl
    · split
      · repeat' split
        all_goals simp [ih]
      · rfl

@[simp] theorem State.steady_prune (n : Nat) : (s.prune n).steady may = s.steady may := by
  simp [State.prune]

@[simp] theorem State.steady_setCaneNode (slot : Nat) (n : Option Nat) :
    (s.setCaneNode slot n).steady may = s.steady may := by
  simp only [State.setCaneNode]
  repeat' split
  all_goals simp

@[simp] theorem keeps_adoptOne (slot : Nat) : Keeps may s (adoptOne s slot) := by
  simp only [adoptOne]
  repeat' split
  all_goals simp

@[simp] theorem steady_adoptLoop (fuel slot : Nat) : (adoptLoop fuel s slot).steady may = s.steady may := by
  induction fuel generalizing s with
  | zero => rfl
  | succ fuel ih =>
    unfold adoptLoop
    split
    · next t h => exact ih.trans ((keeps_adoptOne ..).eq h)
    · repeat' split
      all_goals simp

@[simp] theorem State.steady_adopt (slot : Nat) : (s.adopt slot).steady may = s.steady may := by
  simp [State.adopt]

@[simp] theorem State.steady_unadopt (slot : Nat) : (s.unadopt slot).steady may = s.steady may := by
  simp only [State.unadopt]
  repeat' split
  all_goals simp

@[simp] theorem steady_caneInsert (slot i frame : Nat) (words : List Nat) :
    (caneInsert s slot i frame words).steady may = s.steady may := by
  simp only [caneInsert]
  repeat' split
  all_goals simp

@[simp] theorem steady_freeRecordOp (n : Nat) (deadPool : Bool) :
    (freeRecordOp s n deadPool).steady may = s.steady may := by
  simp only [freeRecordOp]
  repeat' split
  all_goals simp

end Sys2Proof.Machine
end

section
/-! ## What is kept: sessions -/
namespace Sys2Proof.Machine
variable {may : Leave} {s t : State}

@[simp] theorem State.steady_setWays (set : Nat) (w : List Way) : (s.setWays set w).steady may = s.steady may := by
  simp [State.setWays]

@[simp] theorem State.steady_countLookup (slot : Nat) : (s.countLookup slot).steady may = s.steady may := by
  simp [State.countLookup]

@[simp] theorem State.steady_lookup (slot : Nat) : (s.lookup slot).steady may = s.steady may := by
  simp only [State.lookup]
  repeat' split
  all_goals simp

@[simp] theorem State.steady_dirtyEntry (slot : Nat) : (s.dirtyEntry slot).steady may = s.steady may := by
  simp [State.dirtyEntry]

@[simp] theorem State.keeps_fillWay (slot : Nat) (dirty locked : Bool) : Keeps may s (s.fillWay slot dirty locked) := by
  simp only [State.fillWay]
  generalize takeVictim (s.cacheWays (cacheSet slot)) = r
  obtain ⟨_ | w, ways⟩ := r
  · simp
  · simp only
    repeat' split
    all_goals simp

@[simp] theorem State.keeps_lockEntry (slot : Nat) : Keeps may s (s.lockEntry slot) := by
  have h : ∀ t : State, t.steady may = s.steady may → Keeps may s (t.fillWay slot true true) :=
    fun t e => (State.keeps_fillWay ..).trans e
  simp only [State.lockEntry]
  repeat' split
  all_goals simp [h]

@[simp] theorem State.steady_lockOrStall (slot : Nat) : (s.lockOrStall slot).2.steady may = s.steady may := by
  unfold State.lockOrStall
  split
  · next t h => exact (State.keeps_lockEntry ..).eq h
  · simp

@[simp] theorem State.keeps_lockOrStall (slot : Nat) : Keeps may s (s.lockOrStall slot).1 := by
  unfold State.lockOrStall
  split
  · next t h => simp [(State.keeps_lockEntry ..).eq h]
  · simp

@[simp] theorem State.steady_unlockEntry (slot : Nat) : (s.unlockEntry slot).steady may = s.steady may := by
  simp [State.unlockEntry]

@[simp] theorem State.steady_takeSlot (slot : Nat) : (s.takeSlot slot).steady may = s.steady may := by
  simp only [State.takeSlot]
  repeat' split
  all_goals simp

@[simp] theorem State.steady_giveSlot (slot : Nat) : (s.giveSlot slot).steady may = s.steady may := by
  simp [State.giveSlot]

@[simp] theorem State.steady_roomForSession (tenant : Nat) (l : Layout) :
    (s.roomForSession tenant l).2.steady may = s.steady may := by
  simp only [State.roomForSession]
  repeat' split
  all_goals simp

@[simp] theorem State.steady_placeSession (x : Session) : (s.placeSession x).2.steady may = s.steady may := by
  simp only [State.placeSession]
  repeat' split
  all_goals simp

@[simp] theorem State.steady_emptyHeader (q : StepReq) (st : Status) :
    (s.emptyHeader q st).steady may = s.steady may := by
  simp only [State.emptyHeader]
  repeat' split
  all_goals simp

@[simp] theorem State.steady_stepCompletion (slot : Nat) (q : StepReq) (st : Status) (detail : Nat) :
    (s.stepCompletion slot q st detail).steady may = s.steady may := by
  simp only [State.stepCompletion]
  repeat' split
  all_goals simp

@[simp] theorem State.steady_endStep (slot : Nat) (st : Status) (detail : Nat) :
    (s.endStep slot st detail).steady may = s.steady may := by
  simp only [State.endStep]
  repeat' split
  all_goals simp

@[simp] theorem State.steady_endEnded (slot : Nat) : (s.endEnded slot).steady may = s.steady may := by
  simp only [State.endEnded]
  repeat' split
  all_goals simp

@[simp] theorem State.steady_endAllSteps (slot : Nat) (st : Status) (detail : Nat) :
    (s.endAllSteps slot st detail).steady may = s.steady may := by
  simp only [State.endAllSteps]
  repeat' split
  all_goals simp

@[simp] theorem State.steady_endWait (slot : Nat) (st : Status) (detail : Nat) :
    (s.endWait slot st detail).steady may = s.steady may := by
  simp only [State.endWait]
  repeat' split
  all_goals simp

@[simp] theorem State.steady_setLost (slot : Nat) : (s.setLost slot).steady may = s.steady may := by
  simp only [State.setLost]
  repeat' split
  all_goals simp

@[simp] theorem steady_opSessCreate (id : Nat) (c : Cmd) : (opSessCreate s id c).steady may = s.steady may := by
  simp only [opSessCreate]
  repeat' split
  all_goals simp

@[simp] theorem steady_opSessQuery (id : Nat) (c : Cmd) (slot : Nat) :
    (opSessQuery s id c slot).steady may = s.steady may := by
  simp only [opSessQuery]
  repeat' split
  all_goals simp

@[simp] theorem State.steady_releaseRecord (slot : Nat) : (s.releaseRecord slot).steady may = s.steady may := by
  simp only [State.releaseRecord]
  repeat' split
  all_goals simp

@[simp] theorem State.steady_freeClosed (slot : Nat) : (s.freeClosed slot).steady may = s.steady may := by
  simp only [State.freeClosed]
  repeat' split
  all_goals simp

@[simp] theorem State.steady_closeSession (slot : Nat) : (s.closeSession slot).1.steady may = s.steady may := by
  simp only [State.closeSession]
  repeat' split
  all_goals simp

@[simp] theorem steady_opSessClose (id slot : Nat) : (opSessClose s id slot).steady may = s.steady may := by
  simp [opSessClose]

@[simp] theorem State.steady_setEn (p : Nat) (b : Bool) : (s.setEn p b).steady may = s.steady may := by
  simp [State.setEn]

@[simp] theorem State.steady_enableBlock (p : Nat) : (s.enableBlock p).steady may = s.steady may := by
  simp [State.enableBlock]

@[simp] theorem State.steady_disableBlock (p : Nat) : (s.disableBlock p).steady may = s.steady may := by
  simp [State.disableBlock]

@[simp] theorem steady_sdirEnableOp : (sdirEnableOp s).steady may = s.steady may := by
  simp [sdirEnableOp]

@[simp] theorem steady_sdirDisableOp : (sdirDisableOp s).steady may = s.steady may := by
  simp [sdirDisableOp]

@[simp] theorem keepsNext_execSdirEnable (en : Bool) : KeepsNext may s (execSdirEnable en s) := by
  simp [execSdirEnable]

@[simp] theorem keepsNext_execSdirInitDone : KeepsNext may s (execSdirInitDone s) := by
  simp [execSdirInitDone]

@[simp] theorem State.steady_badEntry (slot : Nat) : (s.badEntry slot).steady may = s.steady may := by
  simp [State.badEntry]

@[simp] theorem keepsNext_execDirMissFill (slot : Nat) (ue : Bool) : KeepsNext may s (execDirMissFill slot ue s) := by
  simp only [execDirMissFill, keepsNext_next]
  split
  · split
    · simp
    · split
      · simp
      · split
        · next t h => simp [(State.keeps_fillWay ..).eq h]
        · simp
  · rfl

@[simp] theorem keepsNext_execDirTagParity (set : BitVec 15) : KeepsNext may s (execDirTagParity set s) := by
  simp [execDirTagParity]

end Sys2Proof.Machine
end

section
/-! ## What is kept: moves between tiers -/
namespace Sys2Proof.Machine
variable {may : Leave} {s t : State}

@[simp] theorem State.steady_chargeFlash (n : Nat) : (s.chargeFlash n).steady may = s.steady may := by
  simp [State.chargeFlash]

@[simp] theorem State.steady_takeFlash (n : Nat) : (s.takeFlash n).steady may = s.steady may := by
  simp [State.takeFlash]

@[simp] theorem State.steady_giveFlash (n : Nat) : (s.giveFlash n).steady may = s.steady may := by
  simp [State.giveFlash]

@[simp] theorem State.steady_takePool (n : Nat) : (s.takePool n).steady may = s.steady may := by
  simp [State.takePool]

@[simp] theorem State.steady_givePool (n : Nat) : (s.givePool n).steady may = s.steady may := by
  simp [State.givePool]

@[simp] theorem State.steady_setMove (n : Nat) (m : Move) : (s.setMove n m).steady may = s.steady may := by
  simp [State.setMove]

@[simp] theorem State.steady_eraseMove (n : Nat) : (s.eraseMove n).steady may = s.steady may := by
  simp only [State.eraseMove]
  repeat' split
  all_goals simp

@[simp] theorem State.steady_addMove (m : Move) : (s.addMove m).steady may = s.steady may := by
  simp [State.addMove]

@[simp] theorem State.steady_askPromote (slot need : Nat) (hot reheat : Bool) :
    (s.askPromote slot need hot reheat).steady may = s.steady may := by
  simp only [State.askPromote]
  repeat' split
  all_goals simp

@[simp] theorem State.steady_askDemote (slot : Nat) (dst : Residency) (cmd : Option Nat) :
    (s.askDemote slot dst cmd).steady may = s.steady may := by
  simp only [State.askDemote]
  repeat' split
  all_goals simp

@[simp] theorem State.steady_cancelDown (slot : Nat) : (s.cancelDown slot).steady may = s.steady may := by
  simp only [State.cancelDown]
  repeat' split
  all_goals simp

@[simp] theorem State.steady_issueRead (slot : Nat) : (s.issueRead slot).steady may = s.steady may := by
  simp [State.issueRead]

@[simp] theorem State.steady_useLease (slot : Nat) : (s.useLease slot).steady may = s.steady may := by
  simp [State.useLease]

@[simp] theorem State.steady_awaitLease (slot : Nat) : (s.awaitLease slot).steady may = s.steady may := by
  simp [State.awaitLease]

@[simp] theorem State.steady_restartReaders (slot x : Nat) : (s.restartReaders slot x).steady may = s.steady may := by
  simp only [State.restartReaders]
  repeat' split
  all_goals simp

@[simp] theorem State.steady_forceVersion (slot : Nat) (r : StepRec) :
    (s.forceVersion slot r).steady may = s.steady may := by
  simp only [State.forceVersion]
  repeat' split
  all_goals simp

@[simp] theorem State.steady_beginVerWait (slot : Nat) : (s.beginVerWait slot).steady may = s.steady may := by
  simp only [State.beginVerWait]
  repeat' split
  all_goals simp

@[simp] theorem State.steady_endVerWait (slot : Nat) : (s.endVerWait slot).steady may = s.steady may := by
  simp only [State.endVerWait]
  repeat' split
  all_goals simp

@[simp] theorem State.steady_commitOutside (slot : Nat) (f : StepRec → StepRec) :
    (s.commitOutside slot f).steady may = s.steady may := by
  simp only [State.commitOutside]
  repeat' split
  all_goals simp

@[simp] theorem State.steady_enterMoving (slot : Nat) (src dst : Residency) :
    (s.enterMoving slot src dst).steady may = s.steady may := by
  simp [State.enterMoving]

@[simp] theorem State.steady_leaveMoving (slot : Nat) (r : Residency) :
    (s.leaveMoving slot r).steady may = s.steady may := by
  simp [State.leaveMoving]

@[simp] theorem State.steady_hotToWarm (slot : Nat) : (s.hotToWarm slot).steady may = s.steady may := by
  simp [State.hotToWarm]

@[simp] theorem State.steady_completeMove (cmd : Option Nat) (slot : Nat) (st : Status) (detail : Nat) :
    (s.completeMove cmd slot st detail).steady may = s.steady may := by
  simp only [State.completeMove]
  repeat' split
  all_goals simp

@[simp] theorem State.steady_countReferenced (cmd : Option Nat) (pages : List Nat) (extra : Nat) :
    (s.countReferenced cmd pages extra).steady may = s.steady may := by
  simp only [State.countReferenced]
  repeat' split
  all_goals simp

@[simp] theorem State.steady_dropProvisional (slot : Nat) : (s.dropProvisional slot).steady may = s.steady may := by
  simp only [State.dropProvisional]
  repeat' split
  all_goals simp

@[simp] theorem State.keeps_startDemote (n : Nat) (m : Move) (x : Session) (ctx : Nat) :
    Keeps may s (s.startDemote n m x ctx) := by
  simp only [State.startDemote]
  split
  · split
    · simp
    · next t h => simp [(State.keeps_lockEntry ..).eq h]
  · simp

@[simp] theorem State.keeps_startPromote (n : Nat) (m : Move) (x : Session) (ctx : Nat) :
    Keeps may s (s.startPromote n m x ctx) := by
  simp only [State.startPromote]
  split
  · split
    · simp
    · next t h => simp [(State.keeps_lockEntry ..).eq h]
  · simp

@[simp] theorem steady_displace (m : Move) (tiles fuel : Nat) : (displace m tiles fuel s).2.steady may = s.steady may := by
  induction fuel generalizing s with
  | zero => rfl
  | succ fuel ih =>
    unfold displace
    split
    · rfl
    · split <;> simp [ih]

@[simp] theorem State.keeps_startHot (n : Nat) (m : Move) (x : Session) (ctx : Nat) :
    Keeps may s (s.startHot n m x ctx) := by
  have hd : (displace m (s.layoutOf x).srTiles s.sdir.sess.size s).2.steady may = s.steady may := by simp
  simp only [State.startHot]
  split
  · next t h =>
    rw [h] at hd
    split <;> simp [hd]
  · next seat t h =>
    rw [h] at hd
    split
    · simp
    · next u hu => simp [(State.keeps_lockEntry ..).eq hu, hd]

@[simp] theorem State.keeps_startWriteback (n : Nat) (m : Move) (x : Session) (ctx : Nat) :
    Keeps may s (s.startWriteback n m x ctx) := by
  simp only [State.startWriteback]
  repeat' split
  all_goals simp

@[simp] theorem State.keeps_tryStart (n : Nat) (m : Move) : Keeps may s (s.tryStart n m) := by
  unfold State.tryStart
  repeat' split
  all_goals simp

@[simp] theorem State.steady_dropStale : s.dropStale.steady may = s.steady may := by
  simp [State.dropStale]

@[simp] theorem State.steady_lockStall : s.lockStall.steady may = s.steady may := by
  simp only [State.lockStall]
  repeat' split
  all_goals simp

@[simp] theorem keepsNext_execMoveStart : KeepsNext may s (execMoveStart s) := by
  simp only [execMoveStart, keepsNext_next]
  split
  · split
    · next t h =>
      obtain ⟨e, -, he⟩ := List.exists_of_findSome?_eq_some h
      obtain ⟨u, hu, rfl⟩ := Option.map_eq_some_iff.1 he
      simp [(State.keeps_tryStart ..).eq hu]
    · simp
  · rfl

@[simp] theorem State.steady_charge (p c n : Nat) : (s.charge p c n).steady may = s.steady may := by
  simp [State.charge]

@[simp] theorem State.steady_renewCredits : s.renewCredits.steady may = s.steady may := by
  simp [State.renewCredits]

@[simp] theorem keepsNext_execCreditWindowEnd : KeepsNext may s (execCreditWindowEnd s) := by
  simp [execCreditWindowEnd]

@[simp] theorem State.steady_flagPage (n : Nat) (t : Residency) : (s.flagPage n t).steady may = s.steady may := by
  simp [State.flagPage]

@[simp] theorem State.steady_settleDown (m : Move) (recB : Nat) : (s.settleDown m recB).steady may = s.steady may := by
  simp [State.settleDown]

@[simp] theorem State.steady_leaveHbm (slot : Nat) (x : Session) : (s.leaveHbm slot x).steady may = s.steady may := by
  simp [State.leaveHbm]

@[simp] theorem State.steady_placeTail (x : Session) (dst : Residency) :
    (s.placeTail x dst).1.steady may = s.steady may := by
  unfold State.placeTail
  refine State.steady_foldl_fst _ (fun y e => ?_) _ _
  repeat' split
  all_goals simp

@[simp] theorem State.steady_promoteRunnable (slot : Nat) : (s.promoteRunnable slot).steady may = s.steady may := by
  simp only [State.promoteRunnable]
  repeat' split
  all_goals simp

@[simp] theorem State.steady_useProvisional (slot : Nat) (m : Move) (x : Session) :
    (s.useProvisional slot m x).2.steady may = s.steady may := by
  simp only [State.useProvisional]
  repeat' split
  all_goals simp

@[simp] theorem State.steady_commitDemote (n : Nat) (m : Move) (x : Session) :
    (s.commitDemote n m x).steady may = s.steady may := by
  simp [State.commitDemote]

@[simp] theorem State.steady_commitPromote (n : Nat) (m : Move) (x : Session) :
    (s.commitPromote n m x).steady may = s.steady may := by
  simp [State.commitPromote]

@[simp] theorem State.steady_commitHot (n : Nat) (m : Move) : (s.commitHot n m).steady may = s.steady may := by
  simp [State.commitHot]

@[simp] theorem State.steady_endWriteback (n : Nat) (m : Move) (whole : Bool) :
    (s.endWriteback n m whole).steady may = s.steady may := by
  simp only [State.endWriteback]
  repeat' split
  all_goals simp

@[simp] theorem State.steady_cancelMove (n : Nat) (m : Move) : (s.cancelMove n m).steady may = s.steady may := by
  simp [State.cancelMove]

@[simp] theorem State.steady_undoPromote (m : Move) (x : Session) : (s.undoPromote m x).steady may = s.steady may := by
  simp [State.undoPromote]

@[simp] theorem State.steady_failWaiting (slot : Nat) (st : Status) (detail : Nat) :
    (s.failWaiting slot st detail).steady may = s.steady may := by
  simp [State.failWaiting]

@[simp] theorem State.steady_giveUpStep (slot : Nat) (st : Status) (detail : Nat) :
    (s.giveUpStep slot st detail).steady may = s.steady may := by
  simp only [State.giveUpStep]
  repeat' split
  all_goals simp

@[simp] theorem State.steady_failMove (n : Nat) (m : Move) (bad : Bool) :
    (s.failMove n m bad).steady may = s.steady may := by
  simp only [State.failMove]
  repeat' split
  all_goals simp

@[simp] theorem State.steady_commitMove (n : Nat) (m : Move) : (s.commitMove n m).steady may = s.steady may := by
  simp only [State.commitMove]
  repeat' split
  all_goals simp

@[simp] theorem keepsNext_execMoveCommit : KeepsNext may s (execMoveCommit s) := by
  simp only [execMoveCommit, keepsNext_next]
  repeat' split
  all_goals simp

@[simp] theorem State.steady_tileFailed (n : Nat) (m : Move) (o : TileOutcome) :
    (s.tileFailed n m o).steady may = s.steady may := by
  simp only [State.tileFailed]
  repeat' split
  all_goals simp

@[simp] theorem State.steady_releasePage (m : Move) : (s.releasePage m).steady may = s.steady may := by
  simp only [State.releasePage]
  repeat' split
  all_goals simp

@[simp] theorem State.steady_tileDone (n : Nat) (m : Move) (t : MTile) (rest : List MTile) :
    (s.tileDone n m t rest).steady may = s.steady may := by
  simp only [State.tileDone]
  repeat' split
  all_goals simp

@[simp] theorem State.steady_jobTileFailed (j : Nat) (o : TileOutcome) :
    (s.jobTileFailed j o).steady may = s.steady may := by
  simp [State.jobTileFailed]

@[simp] theorem State.steady_jobProgress (m : Move) : (s.jobProgress m).steady may = s.steady may := by
  simp only [State.jobProgress]
  repeat' split
  all_goals simp

@[simp] theorem State.steady_readPool (m : Move) (t : MTile) : (s.readPool m t).steady may = s.steady may := by
  simp only [State.readPool]
  repeat' split
  all_goals simp

@[simp] theorem State.steady_transfer (n : Nat) (m : Move) (o : TileOutcome) :
    (s.transfer n m o).steady may = s.steady may := by
  simp only [State.transfer]
  repeat' split
  all_goals simp

@[simp] theorem keepsNext_execTileTransfer (outcome : TileOutcome) : KeepsNext may s (execTileTransfer outcome s) := by
  simp only [execTileTransfer, keepsNext_next]
  repeat' split
  all_goals simp

@[simp] theorem State.steady_dropSeatMoves (k : Nat) : (s.dropSeatMoves k).steady may = s.steady may := by
  simp [State.dropSeatMoves]

@[simp] theorem State.steady_unseatCluster (k : Nat) : (s.unseatCluster k).steady may = s.steady may := by
  simp [State.unseatCluster]

@[simp] theorem State.steady_unseatMoving (k : Nat) : (s.unseatMoving k).steady may = s.steady may := by
  simp [State.unseatMoving]

@[simp] theorem State.steady_dropHalves (k : Nat) : (s.dropHalves k).steady may = s.steady may := by
  simp [State.dropHalves]

@[simp] theorem State.steady_clearCluster (k : Nat) : (s.clearCluster k).steady may = s.steady may := by
  simp [State.clearCluster]

end Sys2Proof.Machine
end

section
/-! ## What is kept: compaction and eviction -/
namespace Sys2Proof.Machine
variable {may : Leave} {s t : State}

@[simp] theorem keeps_writePages (x : Session) (l : Layout) (groups : List (List Slot)) (acc : List PtEntry) :
    Keeps may s ((writePages s x l groups acc).map Prod.snd) := by
  induction groups generalizing s acc with
  | nil => simp [writePages]
  | cons g rest ih =>
    unfold writePages
    split
    · simp
    · next n t h => exact (ih _).trans (by simp [(State.keeps_allotPage ..).of_pair h])

@[simp] theorem State.keeps_compact (slot budget since : Nat) : Keeps may s (s.compact slot budget since) := by
  simp only [State.compact]
  split
  · simp
  · split
    · simp
    · split
      · simp
      · split
        · simp
        · next entries t h => simp [(keeps_writePages ..).of_pair h]

@[simp] theorem State.steady_compactWait (slot : Nat) (cmd : Option Nat) :
    (s.compactWait slot cmd).steady may = s.steady may := by
  simp [State.compactWait]

@[simp] theorem State.steady_pressureEvict (slot : Nat) : (s.pressureEvict slot).steady may = s.steady may := by
  simp only [State.pressureEvict]
  split
  · rfl
  · split
    · split
      · rfl
      · next t h => simp [(State.keeps_compact ..).eq h]
    · rfl

end Sys2Proof.Machine
end

section
/-! ## What is kept: waits, residency and forks -/
namespace Sys2Proof.Machine
variable {may : Leave} {s t : State}

@[simp] theorem State.steady_waitCmd (id : Nat) : (s.waitCmd id).steady may = s.steady may := by
  simp [State.waitCmd]

@[simp] theorem State.steady_runCmd (id : Nat) (free : Bool) : (s.runCmd id free).steady may = s.steady may := by
  simp [State.runCmd]

@[simp] theorem State.steady_becomeRunnable (slot : Nat) : (s.becomeRunnable slot).steady may = s.steady may := by
  simp only [State.becomeRunnable]
  repeat' split
  all_goals simp

@[simp] theorem State.steady_promoting (slot : Nat) : (s.promoting slot).steady may = s.steady may := by
  simp only [State.promoting]
  repeat' split
  all_goals simp

@[simp] theorem State.keeps_makeChild (x : Session) (p : Params) (f : ForkCut) (cls : Nat) :
    Keeps may s ((s.makeChild x p f cls).map Prod.snd) := by
  simp only [State.makeChild]
  split
  · simp
  · next extra own t h =>
    have e : t.steady may = s.steady may := by
      split at h
      · cases h; rfl
      · split at h
        · cases h; rfl
        · split at h
          · cases h
          · next n u hu => cases h; simp [(State.keeps_allotPage ..).of_pair hu]
    simp [e]

@[simp] theorem steady_opSessFork (id : Nat) (c : Cmd) (slot : Nat) :
    (opSessFork s id c slot).steady may = s.steady may := by
  unfold opSessFork
  split
  · simp
  · next x hx =>
    extract_lets at' f l
    have hr : (s.roomForSession x.tenant l).2.steady may = s.steady may := by simp
    generalize s.roomForSession x.tenant l = r at hr ⊢
    obtain ⟨d, u⟩ := r
    dsimp only at hr ⊢
    repeat' split
    any_goals (simp [hr]; done)
    all_goals
      next child t h => simp [(State.keeps_makeChild ..).of_pair h, hr]

@[simp] theorem State.steady_countRefusal (refused : Bool) : (s.countRefusal refused).steady may = s.steady may := by
  simp [State.countRefusal]

@[simp] theorem State.steady_tierChoice (slot w limit : Nat) (pressure : Bool) :
    (s.tierChoice slot w limit pressure).steady may = s.steady may := by
  simp only [State.tierChoice]
  repeat' split
  all_goals simp

@[simp] theorem State.steady_beginWait (id : Nat) (c : Cmd) (slot : Nat) :
    (s.beginWait id c slot).steady may = s.steady may := by
  simp only [State.beginWait]
  repeat' split
  all_goals simp

/-- The state that a compaction point leads to. -/
def PointOutcome.state : PointOutcome → State
  | .passed s => s
  | .waits s => s

@[simp] theorem State.steady_point (id : Nat) (c : Cmd) (slot : Nat) (suppressed : Bool) :
    (s.point id c slot suppressed).state.steady may = s.steady may := by
  simp only [State.point]
  repeat' split
  any_goals (simp [PointOutcome.state]; done)
  next t h => exact (State.keeps_compact ..).eq h

theorem State.steady_of_passed {id slot : Nat} {c : Cmd} {b : Bool} (h : s.point id c slot b = .passed t) :
    t.steady may = s.steady may := by
  have e : (s.point id c slot b).state.steady may = s.steady may := by simp
  rwa [h] at e

theorem State.steady_of_waits {id slot : Nat} {c : Cmd} {b : Bool} (h : s.point id c slot b = .waits t) :
    t.steady may = s.steady may := by
  have e : (s.point id c slot b).state.steady may = s.steady may := by simp
  rwa [h] at e

@[simp] theorem steady_opToolWait (id : Nat) (c : Cmd) (slot : Nat) :
    (opToolWait s id c slot).steady may = s.steady may := by
  unfold opToolWait
  split
  · next t h => simp [State.steady_of_passed h]
  · next t h => exact State.steady_of_waits h

@[simp] theorem steady_opResume (id : Nat) (c : Cmd) (slot : Nat) :
    (opResume s id c slot).steady may = s.steady may := by
  simp only [opResume]
  repeat' split
  all_goals simp

@[simp] theorem State.steady_parkAccepted (id : Nat) (c : Cmd) : (s.parkAccepted id c).steady may = s.steady may := by
  simp only [State.parkAccepted]
  repeat' split
  all_goals simp

@[simp] theorem State.steady_dueCompaction (slot : Nat) : (s.dueCompaction slot).steady may = s.steady may := by
  unfold State.dueCompaction
  split
  · rfl
  · split
    · rfl
    · simp only
      split
      · next t h => simp [(State.keeps_compact ..).eq h]
      · simp

@[simp] theorem State.steady_stopWriteback (slot : Nat) : (s.stopWriteback slot).steady may = s.steady may := by
  simp only [State.stopWriteback]
  repeat' split
  all_goals simp

@[simp] theorem State.steady_park (id : Nat) (c : Cmd) (slot : Nat) : (s.park id c slot).steady may = s.steady may := by
  simp only [State.park]
  repeat' split
  all_goals simp

@[simp] theorem steady_opPark (id : Nat) (c : Cmd) (slot : Nat) : (opPark s id c slot).steady may = s.steady may := by
  unfold opPark
  split
  · simp
  · split
    · next t h => simp [State.steady_of_passed h]
    · next t h => exact State.steady_of_waits h

@[simp] theorem keepsNext_execOverstay (slot : Nat) : KeepsNext may s (execOverstay slot s) := by
  simp only [execOverstay, keepsNext_next]
  repeat' split
  all_goals simp

@[simp] theorem keepsNext_execReheatF1 (slot : Nat) : KeepsNext may s (execReheatF1 slot s) := by
  simp only [execReheatF1, keepsNext_next]
  repeat' split
  all_goals simp

@[simp] theorem keepsNext_execReheatF2 (slot : Nat) : KeepsNext may s (execReheatF2 slot s) := by
  simp only [execReheatF2, keepsNext_next]
  repeat' split
  all_goals simp

@[simp] theorem keepsNext_execHotIdleDemote (slot : Nat) : KeepsNext may s (execHotIdleDemote slot s) := by
  simp only [execHotIdleDemote, keepsNext_next]
  repeat' split
  all_goals simp

@[simp] theorem keepsNext_execAgeDemote (slot : Nat) : KeepsNext may s (execAgeDemote slot s) := by
  simp only [execAgeDemote, keepsNext_next]
  repeat' split
  all_goals simp

@[simp] theorem State.steady_pressureStep : s.pressureStep.steady may = s.steady may := by
  simp only [State.pressureStep]
  repeat' split
  all_goals simp

@[simp] theorem keepsNext_execPressureDemotion : KeepsNext may s (execPressureDemotion s) := by
  simp [execPressureDemotion]

@[simp] theorem keepsNext_execPromotionSpaceTimeout : KeepsNext may s (execPromotionSpaceTimeout s) := by
  simp only [execPromotionSpaceTimeout, keepsNext_next]
  repeat' split
  all_goals simp

@[simp] theorem State.steady_endDelayed (slot : Nat) (x : Session) (id : Nat) (st : Status) (detail : Nat) :
    (s.endDelayed slot x id st detail).steady may = s.steady may := by
  simp [State.endDelayed]

@[simp] theorem State.steady_compactUe (slot : Nat) (x : Session) (w : CompactWait) :
    (s.compactUe slot x w).steady may = s.steady may := by
  simp only [State.compactUe]
  repeat' split
  all_goals simp

@[simp] theorem keepsNext_execCompactionSpaceReady (turn : CompactionTurn) :
    KeepsNext may s (execCompactionSpaceReady turn s) := by
  simp only [execCompactionSpaceReady, keepsNext_next]
  split
  · rfl
  · split
    · rfl
    · split
      · rfl
      · next t h =>
        split
        · simp
        · split <;> simp [(State.keeps_compact ..).eq h]

@[simp] theorem keepsNext_execCompactionAbandon (slot : Nat) : KeepsNext may s (execCompactionAbandon slot s) := by
  simp only [execCompactionAbandon, keepsNext_next]
  repeat' split
  all_goals simp

@[simp] theorem keepsNext_execStmEnable (en : Bool) : KeepsNext may s (execStmEnable en s) := by
  simp only [execStmEnable, keepsNext_next]
  repeat' split
  all_goals simp [↓State.steady_renewCredits, ↓State.steady_update]

@[simp] theorem keepsNext_execCaneEnable (en : Bool) : KeepsNext may s (execCaneEnable en s) := by
  simp [execCaneEnable]

end Sys2Proof.Machine
end

section
/-! ## What is kept: capsules -/
namespace Sys2Proof.Machine
variable {may : Leave} {s t : State}

@[simp] theorem State.steady_startExport (id slot : Nat) (x : Session) (kind : JobKind) (space addr : Nat)
    (compress : Bool) (keyRef : Nat) :
    (s.startExport id slot x kind space addr compress keyRef).steady may = s.steady may := by
  simp [State.startExport]

@[simp] theorem steady_opExportCapsule (id : Nat) (c : Cmd) (slot : Nat) :
    (opExportCapsule s id c slot).steady may = s.steady may := by
  simp only [opExportCapsule]
  repeat' split
  all_goals simp

@[simp] theorem State.steady_eraseJob (n : Nat) (j : CapsuleJob) : (s.eraseJob n j).steady may = s.steady may := by
  simp [State.eraseJob]

@[simp] theorem State.steady_exportEnd (n : Nat) (j : CapsuleJob) (writeFail : Bool) (hfabric : may.fabric = true) :
    (s.exportEnd n j writeFail).steady may = s.steady may := by
  simp [State.exportEnd, hfabric]

@[simp] theorem State.steady_importRoom (tenant : Nat) (l : Layout) (pages : Nat) :
    (s.importRoom tenant l pages).2.steady may = s.steady may := by
  simp only [State.importRoom]
  repeat' split
  all_goals simp

@[simp] theorem keeps_allotImport (tenant model : Nat) (l : Layout) (pages : List (PtEntry × List Slot))
    (acc : List PtEntry) : Keeps may s ((allotImport s tenant model l pages acc).map Prod.snd) := by
  induction pages generalizing s acc with
  | nil => simp [allotImport]
  | cons e rest ih =>
    unfold allotImport
    split
    · simp
    · next n t h => exact (ih _).trans ((State.keeps_allotPage ..).of_pair h)

@[simp] theorem State.keeps_arriving (tenant model : Nat) (nr : Bool) (c : Capsule) :
    Keeps may s ((s.arriving tenant model nr c).map Prod.snd) := by
  simp only [State.arriving]
  split
  · simp
  · next entries t h => simp [(keeps_allotImport ..).of_pair h]

@[simp] theorem State.steady_startImport (id slot : Nat) (kind : JobKind) (space addr : Nat) (h : List Byte)
    (c : Capsule) (l : Layout) (entries : List PtEntry) (word : Nat) :
    (s.startImport id slot kind space addr h c l entries word).steady may = s.steady may := by
  simp [State.startImport]

@[simp] theorem steady_opImportCapsule (id : Nat) (c : Cmd) : (opImportCapsule s id c).steady may = s.steady may := by
  simp only [opImportCapsule]
  repeat' split
  any_goals (simp; done)
  next slot t h => simp [(State.keeps_arriving ..).of_pair h]

@[simp] theorem State.steady_undoArrival (slot : Nat) : (s.undoArrival slot).steady may = s.steady may := by
  simp only [State.undoArrival]
  repeat' split
  all_goals simp

@[simp] theorem steady_offerPages (slot i : Nat) (l : List PtEntry) :
    (offerPages slot i l s).steady may = s.steady may := by
  induction l generalizing s i with
  | nil => rfl
  | cons e rest ih => simp [offerPages, ih]

@[simp] theorem State.steady_arrived (slot : Nat) : (s.arrived slot).steady may = s.steady may := by
  simp only [State.arrived]
  repeat' split
  all_goals simp

@[simp] theorem State.steady_importEnd (n : Nat) (j : CapsuleJob) : (s.importEnd n j).steady may = s.steady may := by
  simp only [State.importEnd]
  repeat' split
  all_goals simp

end Sys2Proof.Machine
end

section
/-! ## What is kept: models -/
namespace Sys2Proof.Machine
variable {may : Leave} {s t : State}

@[simp] theorem State.steady_destroyModelKey (ref : Nat) : (s.destroyModelKey ref).steady may = s.steady may := by
  simp [State.destroyModelKey]

@[simp] theorem steady_opModelLoad (id : Nat) (c : Cmd) (hmodels : may.models = true) :
    (opModelLoad s id c).steady may = s.steady may := by
  simp only [opModelLoad]
  repeat' split
  all_goals simp [hmodels]

@[simp] theorem State.steady_fillSlices (mid : Nat) : (s.fillSlices mid).steady may = s.steady may := by
  simp [State.fillSlices]

@[simp] theorem State.steady_dropLoad (mid : Nat) (m : Model) (hmodels : may.models = true) :
    (s.dropLoad mid m).steady may = s.steady may := by
  simp [State.dropLoad, hmodels]

@[simp] theorem keepsNext_execModelLoadDone (program : LayerProgram) (hmodels : may.models = true) :
    KeepsNext may s (execModelLoadDone program s) := by
  simp only [execModelLoadDone, keepsNext_next]
  repeat' split
  all_goals simp [hmodels]

@[simp] theorem State.steady_releaseModel (mid : Nat) (hmodels : may.models = true) (hvocabs : may.vocabs = true) :
    (s.releaseModel mid).steady may = s.steady may := by
  simp [State.releaseModel, State.steady, hmodels, hvocabs]

@[simp] theorem steady_opModelUnload (id : Nat) (c : Cmd) (hvocabs : may.vocabs = true) (hmodels : may.models = true) :
    (opModelUnload s id c).steady may = s.steady may := by
  simp [opModelUnload, hvocabs, hmodels]

end Sys2Proof.Machine
end

section
/-! ## What is kept: text and vocabularies -/
namespace Sys2Proof.Machine
variable {may : Leave} {s t : State}

@[simp] theorem steady_opVocabLoad (id : Nat) : (opVocabLoad s id).steady may = s.steady may := by
  simp [opVocabLoad]

@[simp] theorem keepsNext_execVocabLoadDone (hvocabs : may.vocabs = true) : KeepsNext may s (execVocabLoadDone s) := by
  simp only [execVocabLoadDone, keepsNext_next]
  repeat' split
  all_goals simp [hvocabs]

@[simp] theorem keepsNext_execMrvEnable (en : Bool) : KeepsNext may s (execMrvEnable en s) := by
  simp [execMrvEnable]

@[simp] theorem State.steady_countInvalid (u : List TextUnit) : (s.countInvalid u).steady may = s.steady may := by
  simp [State.countInvalid]

@[simp] theorem State.steady_enterInput (slot : Nat) (l : List InPos) :
    (s.enterInput slot l).steady may = s.steady may := by
  simp only [State.enterInput]
  repeat' split
  all_goals simp

@[simp] theorem State.steady_changeRecord (slot : Nat) (x : Session) (carry : List Byte) (reset : Bool) :
    (s.changeRecord slot x carry reset).steady may = s.steady may := by
  simp [State.changeRecord]

@[simp] theorem State.steady_append (id slot : Nat) (x : Session) (noTrunc reset : Bool) (y : Option Vocab)
    (toks : List Nat) (u : List TextUnit) (carry : List Byte) (taken : Nat) :
    (s.append id slot x noTrunc reset y toks u carry taken).steady may = s.steady may := by
  simp only [State.append]
  repeat' split
  all_goals simp

@[simp] theorem steady_opAppendText (id : Nat) (c : Cmd) (slot : Nat) :
    (opAppendText s id c slot).steady may = s.steady may := by
  simp only [opAppendText]
  repeat' split
  all_goals simp

@[simp] theorem steady_opAppendTokens (id : Nat) (c : Cmd) (slot : Nat) :
    (opAppendTokens s id c slot).steady may = s.steady may := by
  simp only [opAppendTokens]
  repeat' split
  all_goals simp

@[simp] theorem State.steady_flushCarry (slot : Nat) : (s.flushCarry slot).steady may = s.steady may := by
  simp only [State.flushCarry]
  repeat' split
  all_goals simp

end Sys2Proof.Machine
end

section
/-! ## What is kept: constraint objects -/
namespace Sys2Proof.Machine
variable {may : Leave} {s t : State}

@[simp] theorem State.steady_loadObject (id : Nat) (c : Cmd) (kind oid mid : Nat) (hobjects : may.objects = true) :
    (s.loadObject id c kind oid mid).steady may = s.steady may := by
  simp only [State.loadObject]
  repeat' split
  all_goals simp [hobjects]

@[simp] theorem State.steady_unloadObject (id : Nat) (c : Cmd) (kind oid : Nat) (hobjects : may.objects = true) :
    (s.unloadObject id c kind oid).steady may = s.steady may := by
  simp only [State.unloadObject]
  repeat' split
  all_goals simp [hobjects]

@[simp] theorem steady_opConstraintLoad (id : Nat) (c : Cmd) (hobjects : may.objects = true) :
    (opConstraintLoad s id c).steady may = s.steady may := by
  simp [opConstraintLoad, hobjects]

@[simp] theorem keepsNext_execJckEnable (en : Bool) : KeepsNext may s (execJckEnable en s) := by
  simp [execJckEnable]

@[simp] theorem State.steady_countChoice (c : Choice) : (s.countChoice c).steady may = s.steady may := by
  simp [State.countChoice]

end Sys2Proof.Machine
end

section
/-! ## What is kept: the step -/
namespace Sys2Proof.Machine
variable {may : Leave} {s t : State}

@[simp] theorem keeps_allotPages (x : Session) (n : Nat) (acc : List Nat) :
    Keeps may s ((allotPages s x n acc).map Prod.snd) := by
  induction n generalizing s acc with
  | zero => simp [allotPages]
  | succ n ih =>
    simp only [allotPages]
    split
    · split
      · simp
      · next k t h => exact (ih _).trans ((State.keeps_allotPage ..).of_pair h)
    · simp

@[simp] theorem State.keeps_allotFor (slot : Nat) (x : Session) (decode : Bool) (n : Nat) (cow : Bool) :
    Keeps may s ((s.allotFor slot x decode n cow).map Prod.snd) := by
  simp only [State.allotFor]
  split
  · simp
  · next pages t h =>
    have e : t.steady may = s.steady may := (keeps_allotPages ..).of_pair h
    split <;> simp [e]

theorem steady_of_allotAll {cows : List Nat} {l : List (Nat × Bool × Nat)} {acc rows : List StepRow}
    (h : allotAll s cows l acc = .inr (rows, t)) : t.steady may = s.steady may := by
  induction l generalizing s acc with
  | nil => cases h; rfl
  | cons e l ih =>
    unfold allotAll at h
    split at h
    · exact ih h
    · split at h
      · cases h
      · next row u hu => exact (ih h).trans ((State.keeps_allotFor ..).of_pair hu)

@[simp] theorem State.steady_allotSkip (slot : Nat) : (s.allotSkip slot).steady may = s.steady may := by
  simp [State.allotSkip]

@[simp] theorem steady_composeLoop (fuel : Nat) (cand : List (Nat × Session)) :
    (composeLoop fuel s cand).2.steady may = s.steady may := by
  induction fuel generalizing s cand with
  | zero => rfl
  | succ fuel ih =>
    simp only [composeLoop]
    split
    · next h => exact steady_of_allotAll h
    · simp [ih]

@[simp] theorem State.steady_dropMissed (slot : Nat) : (s.dropMissed slot).steady may = s.steady may := by
  simp only [State.dropMissed]
  repeat' split
  all_goals simp

@[simp] theorem State.steady_dropAllMissed : s.dropAllMissed.steady may = s.steady may := by
  simp [State.dropAllMissed]

@[simp] theorem steady_lockAll (l : List (Nat × Session)) : (lockAll s l).1.steady may = s.steady may := by
  induction l generalizing s with
  | nil => rfl
  | cons e l ih =>
    simp only [lockAll]
    split <;> simp [ih]

@[simp] theorem State.steady_enterStep (row : StepRow) : (s.enterStep row).steady may = s.steady may := by
  simp [State.enterStep]

@[simp] theorem State.steady_composeStep : s.composeStep.2.steady may = s.steady may := by
  simp only [State.composeStep]
  repeat' split
  all_goals simp

@[simp] theorem State.steady_startStep (r : StepRun) : (s.startStep r).steady may = s.steady may := by
  simp [State.startStep]

@[simp] theorem State.steady_composeNow : s.composeNow.steady may = s.steady may := by
  have e : s.composeStep.2.steady may = s.steady may := by simp
  unfold State.composeNow
  split
  · next t h => rwa [h] at e
  · next r t h =>
    rw [h] at e
    simp [e]

@[simp] theorem keepsNext_execStepCompose : KeepsNext may s (execStepCompose s) := by
  simp [execStepCompose]

@[simp] theorem keepsNext_execGatherTimeout : KeepsNext may s (execGatherTimeout s) := by
  simp only [execGatherTimeout, keepsNext_next]
  repeat' split
  all_goals simp

@[simp] theorem keepsNext_execTailAllotGiveUp (slot : Nat) : KeepsNext may s (execTailAllotGiveUp slot s) := by
  simp only [execTailAllotGiveUp, keepsNext_next]
  repeat' split
  all_goals simp

@[simp] theorem State.steady_beginStep (id : Nat) (c : Cmd) (slot : Nat) :
    (s.beginStep id c slot).steady may = s.steady may := by
  simp only [State.beginStep]
  repeat' split
  all_goals simp

@[simp] theorem steady_opStep (id : Nat) (c : Cmd) (slot : Nat) : (opStep s id c slot).steady may = s.steady may := by
  simp only [opStep]
  repeat' split
  any_goals (simp; done)
  · next t h => exact State.steady_of_waits h
  all_goals simp [State.steady_of_passed ‹s.point _ _ _ _ = .passed _›]

@[simp] theorem State.steady_writePartial (slot : Nat) (q : StepReq) :
    (s.writePartial slot q).1.steady may = s.steady may := by
  simp only [State.writePartial]
  repeat' split
  all_goals simp

@[simp] theorem State.steady_writeOutput (d : Desc) (q : StepReq) (t : Nat) (forced escape : Bool) (text : List Byte) :
    (s.writeOutput d q t forced escape text).1.steady may = s.steady may := by
  simp [State.writeOutput]

@[simp] theorem steady_writeSlots (gs : List (List Slot)) (fs : List Nat) :
    (writeSlots s gs fs).steady may = s.steady may := by
  induction gs generalizing s fs with
  | nil => rfl
  | cons g gs ih =>
    cases fs with
    | nil => rfl
    | cons f fs => simp [writeSlots, ih]

@[simp] theorem State.steady_writeKv (row : StepRow) (x : Session) (new : List Slot) :
    (s.writeKv row x new).steady may = s.steady may := by
  simp only [State.writeKv]
  repeat' split
  all_goals simp

@[simp] theorem steady_sealFull (slot : Nat) (words : List Nat) (fuel i : Nat) :
    (sealFull s slot words fuel i).steady may = s.steady may := by
  induction fuel generalizing s words i with
  | zero => rfl
  | succ fuel ih =>
    unfold sealFull
    repeat' split
    all_goals simp [ih]

@[simp] theorem State.steady_emitToken (slot : Nat) (q : StepReq) (c : Choice) (t : Nat) :
    (s.emitToken slot q c t).1.steady may = s.steady may := by
  simp only [State.emitToken]
  repeat' split
  all_goals simp

@[simp] theorem State.steady_settleRun (slot : Nat) (dead : Bool) :
    (s.settleRun slot dead).steady may = s.steady may := by
  simp only [State.settleRun]
  repeat' split
  all_goals simp

@[simp] theorem State.steady_crossing (slot before : Nat) : (s.crossing slot before).steady may = s.steady may := by
  simp only [State.crossing]
  split
  · rfl
  · split
    · split
      · next t h => exact (State.keeps_compact ..).eq h
      · simp
    · rfl

@[simp] theorem State.steady_batchTiles : s.batchTiles.steady may = s.steady may := by
  simp [State.batchTiles]

@[simp] theorem State.steady_boundary (r : StepRun) (ran : Bool) : (s.boundary r ran).steady may = s.steady may := by
  simp only [State.boundary]
  repeat' split
  all_goals simp

@[simp] theorem State.steady_leaveStep (slot : Nat) (ran : Bool) :
    (s.leaveStep slot ran).steady may = s.steady may := by
  simp only [State.leaveStep]
  repeat' split
  all_goals simp

@[simp] theorem State.steady_closePending (slot : Nat) : (s.closePending slot).steady may = s.steady may := by
  simp only [State.closePending]
  repeat' split
  all_goals simp

@[simp] theorem State.steady_commitRow (row : StepRow) (x : Session) (forced : Bool) :
    (s.commitRow row x forced).steady may = s.steady may := by
  unfold State.commitRow
  extract_lets
  split
  extract_lets
  split
  next _ _ _ begun sampled _ done r dead hdone =>
    have hbegun : begun.steady may = s.steady may := by
      simp only [begun]
      repeat' split
      all_goals simp +zetaDelta
    have e : done.steady may = s.steady may := by
      rw [show done = _ from (congrArg Prod.fst hdone).symm]
      clear_value sampled begun
      clear hdone
      cases sampled with
      | token c t =>
        dsimp only
        split <;> simp [hbegun]
      | _ => simp [hbegun]
    dsimp only
    repeat' split
    all_goals simp [e]

@[simp] theorem State.steady_commitOrWait (row : StepRow) (x : Session) :
    (s.commitOrWait row x).steady may = s.steady may := by
  simp only [State.commitOrWait]
  repeat' split
  all_goals simp

@[simp] theorem keepsNext_execStepCommit (slot : Nat) : KeepsNext may s (execStepCommit slot s) := by
  simp only [execStepCommit, keepsNext_next]
  repeat' split
  all_goals simp

@[simp] theorem keepsNext_execVersionWaitTimeout (slot : Nat) : KeepsNext may s (execVersionWaitTimeout slot s) := by
  simp only [execVersionWaitTimeout, keepsNext_next]
  repeat' split
  all_goals simp

@[simp] theorem State.steady_partialFree (slot : Nat) : (s.partialFree slot).steady may = s.steady may := by
  simp only [State.partialFree]
  repeat' split
  all_goals simp

@[simp] theorem keepsNext_execGafEnable (en : Bool) : KeepsNext may s (execGafEnable en s) := by
  simp [execGafEnable]

@[simp] theorem State.steady_abortRow (row : StepRow) : (s.abortRow row).steady may = s.steady may := by
  simp only [State.abortRow]
  generalize row.cow.toList ++ row.allotted = frames
  split <;> simp

@[simp] theorem State.steady_abortStep : s.abortStep.steady may = s.steady may := by
  simp only [State.abortStep]
  repeat' split
  all_goals simp

end Sys2Proof.Machine
end

section
/-! ## What is kept: admission -/
namespace Sys2Proof.Machine
variable {may : Leave} {s t : State}

@[simp] theorem State.steady_setAdmQ (q : Nat) (a : AdmQueue) : (s.setAdmQ q a).steady may = s.steady may := by
  simp [State.setAdmQ]

@[simp] theorem State.steady_countColour (q colour : Nat) : (s.countColour q colour).steady may = s.steady may := by
  simp [State.countColour]

@[simp] theorem State.steady_enqueue (id q : Nat) (c : Cmd) (a : AdmQueue) (colour l : Nat) :
    (s.enqueue id q c a colour l).steady may = s.steady may := by
  simp [State.enqueue]

@[simp] theorem State.steady_admitTenant (id : Nat) (c : Cmd) : (s.admitTenant id c).steady may = s.steady may := by
  simp [State.admitTenant]

@[simp] theorem State.steady_onAccept (id : Nat) : (s.onAccept id).steady may = s.steady may := by
  simp only [State.onAccept]
  repeat' split
  all_goals simp

@[simp] theorem State.steady_takeIn (id : Nat) (c : Cmd) : (s.takeIn id c).steady may = s.steady may := by
  simp [State.takeIn]

@[simp] theorem State.steady_fetch (n : Nat) (readable : Bool) (haccepts : may.accepts = true) :
    (s.fetch n readable).steady may = s.steady may := by
  simp only [State.fetch]
  repeat' split
  all_goals simp [haccepts]

@[simp] theorem keepsNext_execDescriptorFetch (ring : BitVec 8) (readable : Bool) (haccepts : may.accepts = true) :
    KeepsNext may s (execDescriptorFetch ring readable s) := by
  simp [execDescriptorFetch, haccepts]

@[simp] theorem State.steady_startCmd (id : Nat) : (s.startCmd id).steady may = s.steady may := by
  simp only [State.startCmd]
  repeat' split
  all_goals simp

@[simp] theorem State.steady_dequeue (urgent : Bool) (q id fin : Nat) :
    (s.dequeue urgent q id fin).steady may = s.steady may := by
  simp [State.dequeue]

@[simp] theorem State.steady_dequeueGroups : s.dequeueGroups.steady may = s.steady may := by
  simp only [State.dequeueGroups]
  repeat' split
  all_goals simp

@[simp] theorem State.steady_dequeueNext : s.dequeueNext.steady may = s.steady may := by
  simp only [State.dequeueNext]
  repeat' split
  all_goals simp

@[simp] theorem keepsNext_execCommandDequeue : KeepsNext may s (execCommandDequeue s) := by
  simp [execCommandDequeue]

@[simp] theorem State.steady_unqueue (id : Nat) (c : Cmd) : (s.unqueue id c).steady may = s.steady may := by
  simp [State.unqueue]

@[simp] theorem State.steady_settleHeld (id : Nat) (c : Cmd) : (s.settleHeld id c).steady may = s.steady may := by
  simp [State.settleHeld]

@[simp] theorem State.steady_dropLate (id : Nat) (c : Cmd) : (s.dropLate id c).steady may = s.steady may := by
  simp only [State.dropLate]
  repeat' split
  all_goals simp

@[simp] theorem keepsNext_execLateDrop : KeepsNext may s (execLateDrop s) := by
  simp only [execLateDrop, keepsNext_next]
  repeat' split
  all_goals simp

@[simp] theorem State.steady_keepRecord (r : List Byte) : (s.keepRecord r).steady may = s.steady may := by
  simp [State.keepRecord]

@[simp] theorem State.steady_sampleEnd : s.sampleEnd.steady may = s.steady may := by
  simp [State.sampleEnd]

@[simp] theorem keepsNext_execAdmSampleWindowEnd : KeepsNext may s (execAdmSampleWindowEnd s) := by
  simp [execAdmSampleWindowEnd]

@[simp] theorem State.steady_admitHeld : s.admitHeld.steady may = s.steady may := by
  refine (State.steady_foldl _ (fun t id => ?_) _).trans (by simp)
  split <;> simp

@[simp] theorem keepsNext_execAdmEnable (en : Bool) : KeepsNext may s (execAdmEnable en s) := by
  simp [execAdmEnable]

end Sys2Proof.Machine
end

section
/-! ## What is kept: fabric memory and peers -/
namespace Sys2Proof.Machine
variable {may : Leave} {s t : State}

@[simp] theorem State.steady_leave (r : Req) : (s.leave r).steady may = s.steady may := by
  simp only [State.leave]
  repeat' split
  all_goals simp

@[simp] theorem State.steady_issuePeer (device : Nat) (m : PeerMsg) :
    (s.issuePeer device m).steady may = s.steady may := by
  simp [State.issuePeer]

@[simp] theorem State.steady_leaveWaiting : s.leaveWaiting.steady may = s.steady may := by
  refine State.steady_foldl _ (fun t e => ?_) _
  split <;> simp

@[simp] theorem State.steady_holdPeer (device : Nat) (m : PeerMsg) :
    (s.holdPeer device m).steady may = s.steady may := by
  simp [State.holdPeer]

@[simp] theorem State.steady_sendPeer (device : Nat) (kind : MsgKind) (seq epoch table row : Nat) (values : List Word)
    (tenant : Option Nat) : (s.sendPeer device kind seq epoch table row values tenant).2.steady may = s.steady may := by
  simp only [State.sendPeer]
  repeat' split
  all_goals simp

@[simp] theorem steady_drainOutbox (fuel device : Nat) : (drainOutbox fuel s device).steady may = s.steady may := by
  induction fuel generalizing s with
  | zero => rfl
  | succ fuel ih =>
    simp only [drainOutbox]
    repeat' split
    all_goals simp [ih]

@[simp] theorem State.steady_drainPeer (device : Nat) : (s.drainPeer device).steady may = s.steady may := by
  simp [State.drainPeer]

@[simp] theorem State.steady_endReq (n : Nat) (r : Req) : (s.endReq n r).steady may = s.steady may := by
  simp [State.endReq]

@[simp] theorem State.keeps_takeMsg (m : PeerMsg) : Keeps may s (s.takeMsg m) := by
  unfold State.takeMsg
  split <;> simp

@[simp] theorem keepsNext_execQuietNote (m : PeerMsg) : KeepsNext may s (execQuietNote m s) := by
  simp only [execQuietNote, keepsNext_next]
  split
  · rfl
  · next t h => simp [(State.keeps_takeMsg ..).eq h]

@[simp] theorem keepsNext_execQuietSpanEnd (device : Nat) : KeepsNext may s (execQuietSpanEnd device s) := by
  simp only [execQuietSpanEnd, keepsNext_next]
  repeat' split
  all_goals simp

@[simp] theorem keepsNext_execPeerSlotTimeout (source : Nat) : KeepsNext may s (execPeerSlotTimeout source s) := by
  simp [execPeerSlotTimeout]

@[simp] theorem keepsNext_execPeerResend (req : Nat) : KeepsNext may s (execPeerResend req s) := by
  simp only [execPeerResend, keepsNext_next]
  repeat' split
  all_goals simp

@[simp] theorem keepsNext_execApertureBadAccess (source : Nat) : KeepsNext may s (execApertureBadAccess source s) := by
  simp [execApertureBadAccess]

@[simp] theorem State.steady_setPort (n : Nat) (p : Port) : (s.setPort n p).steady may = s.steady may := by
  simp [State.setPort]

@[simp] theorem State.steady_setLink (n rate width : Nat) (l0p : Bool) :
    (s.setLink n rate width l0p).steady may = s.steady may := by
  simp [State.setLink]

@[simp] theorem keepsNext_execLinkL0 (n rate width : Nat) : KeepsNext may s (execLinkL0 n rate width s) := by
  simp [execLinkL0]

@[simp] theorem keepsNext_execLinkTrainTimeout (n : Nat) : KeepsNext may s (execLinkTrainTimeout n s) := by
  simp [execLinkTrainTimeout]

@[simp] theorem keepsNext_execLinkRetrain (n : Nat) : KeepsNext may s (execLinkRetrain n s) := by
  simp [execLinkRetrain]

@[simp] theorem State.steady_reissue (n : Nat) : (s.reissue n).steady may = s.steady may := by
  simp [State.reissue]

@[simp] theorem State.steady_linkDown (n : Nat) : (s.linkDown n).steady may = s.steady may := by
  simp [State.linkDown]

@[simp] theorem keepsNext_execLinkDown (n : Nat) : KeepsNext may s (execLinkDown n s) := by
  simp [execLinkDown]

@[simp] theorem keepsNext_execL0pWidthChange (n width : Nat) : KeepsNext may s (execL0pWidthChange n width s) := by
  simp [execL0pWidthChange]

@[simp] theorem State.steady_portOff (n : Nat) : (s.portOff n).steady may = s.steady may := by
  simp [State.portOff]

@[simp] theorem State.steady_mapSwap : s.mapSwap.steady may = s.steady may := by
  simp [State.mapSwap]

@[simp] theorem keepsNext_execFamMapCommit : KeepsNext may s (execFamMapCommit s) := by
  simp [execFamMapCommit]

@[simp] theorem keepsNext_execDeadMarkClear : KeepsNext may s (execDeadMarkClear s) := by
  simp [execDeadMarkClear]

end Sys2Proof.Machine
end

section
/-! ## What is kept: migration -/
namespace Sys2Proof.Machine
variable {may : Leave} {s t : State}

@[simp] theorem State.steady_stopMove (slot : Nat) (st : Status) (detail : Nat) :
    (s.stopMove slot st detail).steady may = s.steady may := by
  simp only [State.stopMove]
  repeat' split
  all_goals simp

@[simp] theorem State.steady_forgetMoves (slot : Nat) (st : Status) (detail : Nat) :
    (s.forgetMoves slot st detail).steady may = s.steady may := by
  simp [State.forgetMoves]

@[simp] theorem State.steady_leaveSteps (slot : Nat) : (s.leaveSteps slot).steady may = s.steady may := by
  simp only [State.leaveSteps]
  repeat' split
  all_goals simp

@[simp] theorem State.steady_goAway (slot owner epoch : Nat) :
    (s.goAway slot owner epoch).steady may = s.steady may := by
  simp only [State.goAway]
  repeat' split
  all_goals simp

@[simp] theorem State.steady_noteWord (w : Nat) : (s.noteWord w).steady may = s.steady may := by
  simp [State.noteWord]

@[simp] theorem State.steady_loseLease (slot w : Nat) : (s.loseLease slot w).steady may = s.steady may := by
  simp [State.loseLease]

@[simp] theorem State.steady_homeFailed (slot : Nat) : (s.homeFailed slot).steady may = s.steady may := by
  simp only [State.homeFailed]
  repeat' split
  all_goals simp

@[simp] theorem State.steady_leaseValid (slot : Nat) : (s.leaseValid slot).steady may = s.steady may := by
  simp [State.leaseValid]

@[simp] theorem State.steady_validated (slot : Nat) (x : Session) (w : Nat) :
    (s.validated slot x w).steady may = s.steady may := by
  simp [State.validated]

@[simp] theorem keepsNext_execLeaseValidationResult (slot : Nat) (word : Option DWord) :
    KeepsNext may s (execLeaseValidationResult slot word s) := by
  simp only [execLeaseValidationResult, keepsNext_next]
  repeat' split
  all_goals simp

@[simp] theorem steady_opMigrateOut (id : Nat) (c : Cmd) (slot : Nat) :
    (opMigrateOut s id c slot).steady may = s.steady may := by
  have held : Keeps may s (s.lockOrStall slot).1 := by simp
  have stalled : (s.lockOrStall slot).2.steady may = s.steady may := by simp
  unfold opMigrateOut
  generalize s.lockOrStall slot = r at held stalled ⊢
  obtain ⟨_ | u, t⟩ := r
  · dsimp only at stalled ⊢
    repeat' split
    all_goals simp [stalled]
  · dsimp only at held ⊢
    repeat' split
    all_goals simp [keeps_some.1 held]

@[simp] theorem State.steady_returnTier (id slot : Nat) (st : Status) (detail result : Nat)
    (hmigrates : may.migrates = true) : (s.returnTier id slot st detail result).steady may = s.steady may := by
  simp only [State.returnTier]
  repeat' split
  all_goals simp [hmigrates]

@[simp] theorem State.steady_migratedOut (id : Nat) (m : Migration) (epoch : Nat) (hmigrates : may.migrates = true) :
    (s.migratedOut id m epoch).steady may = s.steady may := by
  simp [State.migratedOut, hmigrates]

@[simp] theorem State.steady_migrationLost (id : Nat) (m : Migration) (w : Nat) (hmigrates : may.migrates = true) :
    (s.migrationLost id m w).steady may = s.steady may := by
  simp [State.migrationLost, hmigrates]

@[simp] theorem State.steady_makeOffer (id : Nat) (c : Cmd) (slot len : Nat) (hmigrates : may.migrates = true) :
    (s.makeOffer id c slot len).steady may = s.steady may := by
  simp only [State.makeOffer]
  repeat' split
  all_goals simp [hmigrates]

@[simp] theorem State.steady_stagingEnd (n : Nat) (j : CapsuleJob) (writeFail : Bool)
    (hmigrates : may.migrates = true) (hfabric : may.fabric = true) :
    (s.stagingEnd n j writeFail).steady may = s.steady may := by
  simp only [State.stagingEnd]
  repeat' split
  all_goals simp [hmigrates, hfabric]

@[simp] theorem keepsNext_execCapsuleExportDone (writeFail : Bool) (hmigrates : may.migrates = true)
    (hfabric : may.fabric = true) : KeepsNext may s (execCapsuleExportDone writeFail s) := by
  simp only [execCapsuleExportDone, keepsNext_next]
  repeat' split
  all_goals simp [hmigrates, hfabric]

@[simp] theorem State.steady_offerPartial (id : Nat) (m : Migration) (hmigrates : may.migrates = true) :
    (s.offerPartial id m).steady may = s.steady may := by
  simp only [State.offerPartial]
  repeat' split
  all_goals simp [hmigrates]

@[simp] theorem keepsNext_execPartialSlotFree (slot : Nat) (hmigrates : may.migrates = true) :
    KeepsNext may s (execPartialSlotFree slot s) := by
  simp only [execPartialSlotFree, keepsNext_next]
  repeat' split
  all_goals simp [hmigrates]

@[simp] theorem State.steady_offerMade (id : Nat) (m : Migration) (hmigrates : may.migrates = true) :
    (s.offerMade id m).steady may = s.steady may := by
  simp [State.offerMade, hmigrates]

@[simp] theorem State.steady_watch (id : Nat) (m : Migration) (word : Option Nat) (hmigrates : may.migrates = true) :
    (s.watch id m word).steady may = s.steady may := by
  simp only [State.watch]
  repeat' split
  all_goals simp [hmigrates]

@[simp] theorem keepsNext_execLeasePoll (cmd : Nat) (word : Option DWord) (hmigrates : may.migrates = true) :
    KeepsNext may s (execLeasePoll cmd word s) := by
  simp only [execLeasePoll, keepsNext_next]
  repeat' split
  all_goals simp [hmigrates]

@[simp] theorem keepsNext_execLeaseNote (m : PeerMsg) (word : Option DWord) (hmigrates : may.migrates = true) :
    KeepsNext may s (execLeaseNote m word s) := by
  simp only [execLeaseNote, keepsNext_next]
  split
  · rfl
  · next t h =>
    have e : t.steady may = s.steady may := (State.keeps_takeMsg ..).eq h
    split
    · exact e
    · split <;> simp [e, hmigrates]

@[simp] theorem keepsNext_execOfferTimeout (cmd : Nat) (hmigrates : may.migrates = true) :
    KeepsNext may s (execOfferTimeout cmd s) := by
  simp only [execOfferTimeout, keepsNext_next]
  repeat' split
  all_goals simp [hmigrates]

@[simp] theorem State.steady_returning (id slot tenant model : Nat) (kind : JobKind) (space addr : Nat) (h : List Byte)
    (content : Capsule) (word : Nat) :
    (s.returning id slot tenant model kind space addr h content word).steady may = s.steady may := by
  simp only [State.returning]
  split
  · simp
  · split
    · simp
    · next entries t ht => simp [(keeps_allotImport ..).of_pair ht]

@[simp] theorem State.steady_undoReturn (j : CapsuleJob) : (s.undoReturn j).steady may = s.steady may := by
  simp only [State.undoReturn]
  repeat' split
  all_goals simp

@[simp] theorem State.steady_undoJob (j : CapsuleJob) : (s.undoJob j).steady may = s.steady may := by
  simp [State.undoJob]

@[simp] theorem State.steady_takeBack (j : CapsuleJob) : (s.takeBack j).steady may = s.steady may := by
  simp only [State.takeBack]
  repeat' split
  all_goals simp

@[simp] theorem State.steady_settleArrival (j : CapsuleJob) (addr epoch : Nat) :
    (s.settleArrival j addr epoch).steady may = s.steady may := by
  simp only [State.settleArrival]
  repeat' split
  all_goals simp

@[simp] theorem State.steady_migrateInStart (id : Nat) (c : Cmd) (h : List Byte) (content : Capsule) (model : Nat) :
    (s.migrateInStart id c h content model).steady may = s.steady may := by
  simp only [State.migrateInStart]
  repeat' split
  any_goals (simp; done)
  next slot t ht => simp [(State.keeps_arriving ..).of_pair ht]

@[simp] theorem steady_opMigrateIn (id : Nat) (c : Cmd) : (opMigrateIn s id c).steady may = s.steady may := by
  simp only [opMigrateIn]
  repeat' split
  all_goals simp

@[simp] theorem State.steady_migratedIn (j : CapsuleJob) (c : Cmd) : (s.migratedIn j c).steady may = s.steady may := by
  simp [State.migratedIn]

@[simp] theorem State.steady_migrateInEnd (n : Nat) (j : CapsuleJob) (hmigrates : may.migrates = true) :
    (s.migrateInEnd n j).steady may = s.steady may := by
  simp only [State.migrateInEnd]
  repeat' split
  all_goals simp [hmigrates]

@[simp] theorem steady_opReclaim (id : Nat) (c : Cmd) (slot : Nat) :
    (opReclaim s id c slot).steady may = s.steady may := by
  simp only [opReclaim]
  repeat' split
  all_goals simp

@[simp] theorem State.steady_reclaimed (j : CapsuleJob) (addr epoch : Nat) :
    (s.reclaimed j addr epoch).steady may = s.steady may := by
  simp [State.reclaimed]

@[simp] theorem State.steady_reclaimEnd (n : Nat) (j : CapsuleJob) (hmigrates : may.migrates = true) :
    (s.reclaimEnd n j).steady may = s.steady may := by
  simp only [State.reclaimEnd]
  repeat' split
  all_goals simp [hmigrates]

@[simp] theorem keepsNext_execCapsuleImportDone (hmigrates : may.migrates = true) :
    KeepsNext may s (execCapsuleImportDone s) := by
  simp only [execCapsuleImportDone, keepsNext_next]
  repeat' split
  all_goals simp [hmigrates]

@[simp] theorem State.steady_withdrawEnd (o : CasOp) (r : CasEnd) (hmigrates : may.migrates = true) :
    (s.withdrawEnd o r).steady may = s.steady may := by
  simp only [State.withdrawEnd]
  repeat' split
  all_goals simp [hmigrates]

@[simp] theorem State.steady_offerEnd (o : CasOp) (r : CasEnd) (create : Bool) (hmigrates : may.migrates = true) :
    (s.offerEnd o r create).steady may = s.steady may := by
  simp only [State.offerEnd]
  repeat' split
  all_goals simp [hmigrates]

@[simp] theorem State.steady_takeEnd (o : CasOp) (r : CasEnd) (hmigrates : may.migrates = true) :
    (s.takeEnd o r).steady may = s.steady may := by
  simp only [State.takeEnd]
  repeat' split
  all_goals simp [hmigrates]

@[simp] theorem State.steady_casEnd (o : CasOp) (r : CasEnd) (hmigrates : may.migrates = true) :
    (s.casEnd o r).steady may = s.steady may := by
  simp only [State.casEnd]
  repeat' split
  all_goals simp [hmigrates]

@[simp] theorem State.steady_casAnswer (addr : Nat) (found reread : Option Nat) (hfabric : may.fabric = true)
    (hmigrates : may.migrates = true) : (s.casAnswer addr found reread).steady may = s.steady may := by
  simp only [State.casAnswer]
  repeat' split
  all_goals simp [hfabric, hmigrates]

@[simp] theorem keepsNext_execLeaseCasResult (addr : Nat) (found reread : Option DWord) (hfabric : may.fabric = true)
    (hmigrates : may.migrates = true) : KeepsNext may s (execLeaseCasResult addr found reread s) := by
  simp [execLeaseCasResult, hfabric, hmigrates]

end Sys2Proof.Machine
end

section
/-! ## What is kept: embedding tables -/
namespace Sys2Proof.Machine
variable {may : Leave} {s t : State}

@[simp] theorem State.steady_writeRow (t row : Nat) (vs : List Word) (hfabric : may.fabric = true)
    (hhbm : may.hbm = true) : (s.writeRow t row vs).steady may = s.steady may := by
  simp [State.writeRow, hfabric, hhbm]

@[simp] theorem State.steady_homeDown : s.homeDown.steady may = s.steady may := by
  simp [State.homeDown]

@[simp] theorem State.steady_joinEmb (id : Nat) : (s.joinEmb id).steady may = s.steady may := by
  simp [State.joinEmb]

@[simp] theorem steady_opEmbLookup (id : Nat) (c : Cmd) : (opEmbLookup s id c).steady may = s.steady may := by
  simp only [opEmbLookup]
  repeat' split
  all_goals simp

@[simp] theorem steady_opEmbUpdate (id : Nat) (c : Cmd) : (opEmbUpdate s id c).steady may = s.steady may := by
  simp only [opEmbUpdate]
  repeat' split
  all_goals simp

@[simp] theorem State.steady_setHot (i : Nat) (h : HotRow) : (s.setHot i h).steady may = s.steady may := by
  simp [State.setHot]

@[simp] theorem State.steady_offerRow (t row count : Nat) : (s.offerRow t row count).2.steady may = s.steady may := by
  simp only [State.offerRow]
  repeat' split
  all_goals simp

@[simp] theorem State.steady_detect : s.detect.steady may = s.steady may := by
  simp [State.detect]

@[simp] theorem State.steady_autoCopies : s.autoCopies.steady may = s.steady may := by
  unfold State.autoCopies
  split
  · refine State.steady_foldl _ (fun t e => ?_) _
    repeat' split
    all_goals simp
  · rfl

@[simp] theorem State.steady_makeSwitches : s.makeSwitches.steady may = s.steady may := by
  refine State.steady_foldl _ (fun t e => ?_) _
  split <;> simp

@[simp] theorem steady_askSwitches (copies : Option Nat) (l : List (Nat × Nat)) (acc : List Nat) :
    (askSwitches copies l s acc).2.2.steady may = s.steady may := by
  induction l generalizing s acc with
  | nil => rfl
  | cons e l ih =>
    have eo : (s.offerRow e.1 e.2 0).2.steady may = s.steady may := by simp
    simp only [askSwitches]
    split
    · next t h => rwa [h] at eo
    · next i t h =>
      rw [h] at eo
      repeat' split
      all_goals simp [ih, eo]

@[simp] theorem steady_opEmbReplicate (id : Nat) (c : Cmd) : (opEmbReplicate s id c).steady may = s.steady may := by
  simp only [opEmbReplicate]
  repeat' split
  any_goals simp
  all_goals exact State.steady_of_snd (congrArg Prod.snd ‹_ = (_, _, _)›) (by simp)

@[simp] theorem State.steady_replDone : s.replDone.steady may = s.steady may := by
  simp only [State.replDone]
  repeat' split
  all_goals simp

@[simp] theorem State.steady_setTaint (key : Nat) : (s.setTaint key).steady may = s.steady may := by
  simp [State.setTaint]

@[simp] theorem State.steady_clearTaint (key : Nat) : (s.clearTaint key).steady may = s.steady may := by
  simp [State.clearTaint]

@[simp] theorem State.steady_hotApplied (t row : Nat) (held : Bool) :
    (s.hotApplied t row held).steady may = s.steady may := by
  simp only [State.hotApplied]
  repeat' split
  all_goals simp

@[simp] theorem State.steady_hotDropped (t row : Nat) : (s.hotDropped t row).steady may = s.steady may := by
  simp only [State.hotDropped]
  repeat' split
  all_goals simp

@[simp] theorem State.steady_hotHeld (t row : Nat) : (s.hotHeld t row).steady may = s.steady may := by
  simp only [State.hotHeld]
  repeat' split
  all_goals simp

@[simp] theorem State.steady_applyChange (c : Change) (held : Bool) (hfabric : may.fabric = true)
    (hhbm : may.hbm = true) : (s.applyChange c held).steady may = s.steady may := by
  simp only [State.applyChange]
  repeat' split
  all_goals simp [hfabric, hhbm]

@[simp] theorem State.steady_failHeld (c : Change) : (s.failHeld c).steady may = s.steady may := by
  simp [State.failHeld]

@[simp] theorem State.steady_reportApplied (c : Change) : (s.reportApplied c).steady may = s.steady may := by
  simp [State.reportApplied]

@[simp] theorem State.steady_applyInbox (c : Change) (hfabric : may.fabric = true) (hhbm : may.hbm = true) :
    (s.applyInbox c).steady may = s.steady may := by
  simp [State.applyInbox, hfabric, hhbm]

@[simp] theorem State.steady_applyLate (c : Change) (hfabric : may.fabric = true) (hhbm : may.hbm = true) :
    (s.applyLate c).steady may = s.steady may := by
  simp [State.applyLate, hfabric, hhbm]

@[simp] theorem State.steady_applyHeld (c : Change) (hfabric : may.fabric = true) (hhbm : may.hbm = true) :
    (s.applyHeld c).steady may = s.steady may := by
  simp [State.applyHeld, hfabric, hhbm]

@[simp] theorem State.steady_applyEpochs (hfabric : may.fabric = true) (hhbm : may.hbm = true) :
    s.applyEpochs.steady may = s.steady may := by
  refine (State.steady_foldl _ (fun t e => ?_) _).trans (by simp)
  simp [hfabric, hhbm]

@[simp] theorem State.steady_enterEpoch (c : Change) : (s.enterEpoch c).steady may = s.steady may := by
  simp [State.enterEpoch]

@[simp] theorem keepsNext_execDetEpochClose (table epoch : Nat) :
    KeepsNext may s (execDetEpochClose table epoch s) := by
  simp [execDetEpochClose]

@[simp] theorem State.steady_sendChange (c : Change) : (s.sendChange c).2.steady may = s.steady may := by
  simp only [State.sendChange]
  repeat' split
  all_goals simp

@[simp] theorem State.steady_failSent (ids : List Nat) : (s.failSent ids).steady may = s.steady may := by
  simp [State.failSent]

@[simp] theorem State.steady_commitChange (c : Change) (hfabric : may.fabric = true) (hhbm : may.hbm = true) :
    (s.commitChange c).steady may = s.steady may := by
  simp [State.commitChange, hfabric, hhbm]

@[simp] theorem State.steady_embTargetLost (device : Nat) : (s.embTargetLost device).steady may = s.steady may := by
  simp [State.embTargetLost]

@[simp] theorem State.steady_fetchLocal (t row : Nat) : (s.fetchLocal t row).2.steady may = s.steady may := by
  simp only [State.fetchLocal]
  repeat' split
  all_goals simp

@[simp] theorem State.steady_fetchRow (b : EmbBatch) (key : Nat) : (s.fetchRow b key).2.steady may = s.steady may := by
  simp only [State.fetchRow]
  repeat' split
  any_goals simp
  all_goals exact State.steady_of_snd ‹_ = (_, _)› (by simp)

@[simp] theorem State.steady_serveRequests : s.serveRequests.steady may = s.steady may := by
  simp [State.serveRequests]

@[simp] theorem State.steady_embClose : s.embClose.steady may = s.steady may := by
  simp only [State.embClose, State.steady_update]
  refine (State.steady_foldl_snd _ (fun x k => ?_) _ _).trans (by simp)
  simp

@[simp] theorem keepsNext_execEmbBatchClose : KeepsNext may s (execEmbBatchClose s) := by
  simp [execEmbBatchClose]

@[simp] theorem steady_writeVectors (inWin : Bool) (addr es b : Nat) (l : List (List Word)) :
    (writeVectors inWin addr es b l s).steady may = s.steady may := by
  induction l generalizing s b with
  | nil => rfl
  | cons x l ih => simp [writeVectors, ih]

@[simp] theorem State.steady_deliver (slot : Nat) (vecs : List (List Word)) (nr : Bool) :
    (s.deliver slot vecs nr).2.steady may = s.steady may := by
  simp only [State.deliver]
  repeat' split
  all_goals simp

@[simp] theorem State.steady_finishLookup (b : EmbBatch) (id : Nat) (c : Cmd) :
    (s.finishLookup b id c).steady may = s.steady may := by
  simp only [State.finishLookup]
  repeat' split
  any_goals simp
  all_goals exact State.steady_of_snd ‹_ = (_, _)› (by simp)

@[simp] theorem State.steady_finishUpdate (id : Nat) : (s.finishUpdate id).steady may = s.steady may := by
  simp [State.finishUpdate]

@[simp] theorem State.steady_retireTables : s.retireTables.steady may = s.steady may := by
  simp [State.retireTables]

@[simp] theorem State.steady_retireTable (t : Nat) : (s.retireTable t).steady may = s.steady may := by
  simp [State.retireTable]

@[simp] theorem State.steady_embBoundary (hfabric : may.fabric = true) (hhbm : may.hbm = true) :
    s.embBoundary.steady may = s.steady may := by
  simp [State.embBoundary, hfabric, hhbm]

@[simp] theorem State.steady_embCommit (b : EmbBatch) (hfabric : may.fabric = true) (hhbm : may.hbm = true) :
    (s.embCommit b).steady may = s.steady may := by
  simp [State.embCommit, hfabric, hhbm]

@[simp] theorem keepsNext_execEmbBatchCommit (hfabric : may.fabric = true) (hhbm : may.hbm = true) :
    KeepsNext may s (execEmbBatchCommit s) := by
  simp only [execEmbBatchCommit, keepsNext_next]
  repeat' split
  all_goals simp [hfabric, hhbm]

@[simp] theorem State.steady_arrive (m : PeerMsg) (c : Change) : (s.arrive m c).steady may = s.steady may := by
  simp [State.arrive]

@[simp] theorem keepsNext_execFp32Add (m : PeerMsg) : KeepsNext may s (execFp32Add m s) := by
  simp only [execFp32Add, keepsNext_next]
  split
  · rfl
  · next t h => simp [(State.keeps_takeMsg ..).eq h]

@[simp] theorem keepsNext_execRowStore (m : PeerMsg) : KeepsNext may s (execRowStore m s) := by
  simp only [execRowStore, keepsNext_next]
  split
  · rfl
  · next t h => simp [(State.keeps_takeMsg ..).eq h]

@[simp] theorem keepsNext_execRowReq (m : PeerMsg) : KeepsNext may s (execRowReq m s) := by
  simp only [execRowReq, keepsNext_next]
  split
  · rfl
  · next t h => simp [(State.keeps_takeMsg ..).eq h]

@[simp] theorem keepsNext_execRowData (m : PeerMsg) : KeepsNext may s (execRowData m s) := by
  simp only [execRowData, keepsNext_next]
  split
  · rfl
  · next t h =>
    have e : t.steady may = s.steady may := (State.keeps_takeMsg ..).eq h
    split <;> simp [e]

@[simp] theorem keepsNext_execApplied (m : PeerMsg) : KeepsNext may s (execApplied m s) := by
  simp only [execApplied, keepsNext_next]
  split
  · rfl
  · next t h => simp [(State.keeps_takeMsg ..).eq h]

@[simp] theorem keepsNext_execEmbRowUe (table row stack : Nat) (primary : Bool) :
    KeepsNext may s (execEmbRowUe table row stack primary s) := by
  simp only [execEmbRowUe, keepsNext_next]
  repeat' split
  all_goals simp

@[simp] theorem keepsNext_execTblValidWrite (x : Bool) : KeepsNext may s (execTblValidWrite x s) := by
  simp [execTblValidWrite]

@[simp] theorem keepsNext_execEmbEnable (en : Bool) : KeepsNext may s (execEmbEnable en s) := by
  simp [execEmbEnable]

end Sys2Proof.Machine
end

section
/-! ## What is kept: search collections -/
namespace Sys2Proof.Machine
variable {may : Leave} {s t : State}

@[simp] theorem State.steady_setColl (k : Nat) (c : Coll) : (s.setColl k c).steady may = s.steady may := by
  simp [State.setColl]

@[simp] theorem State.steady_countWalk (w : Walk) : (s.countWalk w).steady may = s.steady may := by
  simp [State.countWalk]

@[simp] theorem steady_opMem (id : Nat) (c : Cmd) : (opMem s id c).steady may = s.steady may := by
  simp only [opMem]
  repeat' split
  all_goals simp

@[simp] theorem steady_opMemInsert (id : Nat) (c : Cmd) : (opMemInsert s id c).steady may = s.steady may := by
  simp [opMemInsert]

@[simp] theorem steady_opMemDelete (id : Nat) (c : Cmd) : (opMemDelete s id c).steady may = s.steady may := by
  simp [opMemDelete]

@[simp] theorem steady_opMemSearch (id : Nat) (c : Cmd) : (opMemSearch s id c).steady may = s.steady may := by
  simp [opMemSearch]

@[simp] theorem State.steady_walkQueries (id : Nat) (d : Desc) (snap n : Nat) :
    (s.walkQueries id d snap n).1.steady may = s.steady may := by
  induction n with
  | zero => rfl
  | succ n ih => simp [State.walkQueries, ih]

@[simp] theorem State.steady_srchClose : s.srchClose.steady may = s.steady may := by
  simp only [State.srchClose, State.steady_update]
  refine (State.steady_foldl_fst _ (fun x e => ?_) _ _).trans (by simp)
  simp

@[simp] theorem keepsNext_execSrchBatchClose : KeepsNext may s (execSrchBatchClose s) := by
  simp [execSrchBatchClose]

@[simp] theorem State.steady_scanDone (b : SBatch) : (s.scanDone b).steady may = s.steady may := by
  simp [State.scanDone]

@[simp] theorem keepsNext_execChannelScanDone : KeepsNext may s (execChannelScanDone s) := by
  simp only [execChannelScanDone, keepsNext_next]
  repeat' split
  all_goals simp

@[simp] theorem State.steady_commitInsert (id : Nat) (d : Desc) (snap : Nat) (base : Map Nat) (snapNodes : Map SNode) :
    (s.commitInsert id d snap base snapNodes).steady may = s.steady may := by
  simp only [State.commitInsert]
  repeat' split
  all_goals simp

@[simp] theorem State.steady_countGroups (k : Nat) (base : Map Nat) :
    (s.countGroups k base).steady may = s.steady may := by
  simp [State.countGroups]

@[simp] theorem State.steady_commitDelete (id : Nat) (d : Desc) : (s.commitDelete id d).steady may = s.steady may := by
  simp [State.commitDelete]

@[simp] theorem State.steady_finishSearch (b : SBatch) (id : Nat) (c : Cmd) :
    (s.finishSearch b id c).steady may = s.steady may := by
  simp [State.finishSearch]

@[simp] theorem State.steady_retireColls : s.retireColls.steady may = s.steady may := by
  simp [State.retireColls]

@[simp] theorem State.steady_retireColl (k : Nat) : (s.retireColl k).steady may = s.steady may := by
  simp [State.retireColl]

@[simp] theorem State.steady_srchCommit (b : SBatch) : (s.srchCommit b).steady may = s.steady may := by
  simp [State.srchCommit]

@[simp] theorem keepsNext_execSrchBatchCommit : KeepsNext may s (execSrchBatchCommit s) := by
  simp only [execSrchBatchCommit, keepsNext_next]
  repeat' split
  all_goals simp

@[simp] theorem steady_opMemCompact (id : Nat) (c : Cmd) : (opMemCompact s id c).steady may = s.steady may := by
  simp only [opMemCompact]
  repeat' split
  all_goals simp

@[simp] theorem State.steady_compactSwitch (j : SCompact) : (s.compactSwitch j).steady may = s.steady may := by
  simp only [State.compactSwitch]
  repeat' split
  all_goals simp

@[simp] theorem keepsNext_execMemCompactSwitch : KeepsNext may s (execMemCompactSwitch s) := by
  simp only [execMemCompactSwitch, keepsNext_next]
  repeat' split
  all_goals simp

@[simp] theorem keepsNext_execGroupFail (coll : Nat) (graph : Bool) : KeepsNext may s (execGroupFail coll graph s) := by
  simp [execGroupFail]

@[simp] theorem keepsNext_execCollValidWrite (x : Bool) : KeepsNext may s (execCollValidWrite x s) := by
  simp [execCollValidWrite]

@[simp] theorem keepsNext_execSrchEnable (en : Bool) : KeepsNext may s (execSrchEnable en s) := by
  simp [execSrchEnable]

end Sys2Proof.Machine
end

section
/-! ## What is kept: checkpoints -/
namespace Sys2Proof.Machine
variable {may : Leave} {s t : State}

@[simp] theorem State.steady_dropHolds : s.dropHolds.steady may = s.steady may := by
  simp [State.dropHolds]

@[simp] theorem State.steady_thaw (hfreezes : may.freezes = true) : s.thaw.steady may = s.steady may := by
  simp only [State.thaw]
  repeat' split
  all_goals simp [hfreezes]

@[simp] theorem State.steady_ckptFail (st : Status) (detail : Nat) (hfreezes : may.freezes = true) :
    (s.ckptFail st detail).steady may = s.steady may := by
  simp only [State.ckptFail]
  repeat' split
  all_goals simp [hfreezes]

@[simp] theorem State.steady_ckptStart (cmd : Option Nat) (asked : Bool) (hfreezes : may.freezes = true) :
    (s.ckptStart cmd asked).steady may = s.steady may := by
  simp only [State.ckptStart]
  repeat' split
  all_goals simp [hfreezes]

@[simp] theorem steady_opCkptTake (id : Nat) (c : Cmd) (hfreezes : may.freezes = true) :
    (opCkptTake s id c).steady may = s.steady may := by
  simp [opCkptTake, hfreezes]

@[simp] theorem State.steady_ckptTrigger (hfreezes : may.freezes = true) : s.ckptTrigger.steady may = s.steady may := by
  simp [State.ckptTrigger, hfreezes]

@[simp] theorem keepsNext_execCkptTimer (hfreezes : may.freezes = true) : KeepsNext may s (execCkptTimer s) := by
  simp [execCkptTimer, hfreezes]

@[simp] theorem keepsNext_execCkptStepCount (hfreezes : may.freezes = true) :
    KeepsNext may s (execCkptStepCount s) := by
  simp [execCkptStepCount, hfreezes]

@[simp] theorem State.steady_cleanCache : s.cleanCache.steady may = s.steady may := by
  simp [State.cleanCache]

@[simp] theorem State.steady_takeCut (r : CkptRun) (hfreezes : may.freezes = true) :
    (s.takeCut r).steady may = s.steady may := by
  simp [State.takeCut, hfreezes]

@[simp] theorem keepsNext_execCkptCut (hfreezes : may.freezes = true) : KeepsNext may s (execCkptCut s) := by
  simp only [execCkptCut, keepsNext_next]
  repeat' split
  all_goals simp [hfreezes]

@[simp] theorem State.steady_cutLoses (p : Session → Bool) : (s.cutLoses p).2.steady may = s.steady may := by
  simp only [State.cutLoses]
  repeat' split
  all_goals simp

@[simp] theorem State.steady_sourceUe (n : Nat) : (s.sourceUe n).steady may = s.steady may := by
  simp [State.sourceUe]

@[simp] theorem keepsNext_execPageRecordUe (node : Bool) (n : Nat) : KeepsNext may s (execPageRecordUe node n s) := by
  simp only [execPageRecordUe, keepsNext_next]
  repeat' split
  all_goals simp

@[simp] theorem keepsNext_execCkptFreezeEnd (hfreezes : may.freezes = true) :
    KeepsNext may s (execCkptFreezeEnd s) := by
  simp only [execCkptFreezeEnd, keepsNext_next]
  repeat' split
  all_goals simp [hfreezes]

@[simp] theorem State.steady_ckptDone (r : CkptRun) (c : Snapshot) (hfabric : may.fabric = true) :
    (s.ckptDone r c).steady may = s.steady may := by
  simp only [State.ckptDone]
  repeat' split
  all_goals simp [hfabric]

@[simp] theorem keepsNext_execCkptManifestDone (hfabric : may.fabric = true) :
    KeepsNext may s (execCkptManifestDone s) := by
  simp only [execCkptManifestDone, keepsNext_next]
  repeat' split
  all_goals simp [hfabric]

@[simp] theorem keepsNext_execCkptAbort (writeFail : Bool) (hfreezes : may.freezes = true) :
    KeepsNext may s (execCkptAbort writeFail s) := by
  simp only [execCkptAbort, keepsNext_next]
  repeat' split
  all_goals simp [hfreezes]

@[simp] theorem keepsNext_execCkpEnable (en : Bool) : KeepsNext may s (execCkpEnable en s) := by
  simp [execCkpEnable]

@[simp] theorem keepsNext_execCkpInitDone : KeepsNext may s (execCkpInitDone s) := by
  simp [execCkpInitDone]

end Sys2Proof.Machine
end

section
/-! ## What is kept: restore -/
namespace Sys2Proof.Machine
variable {may : Leave} {s t : State}

@[simp] theorem State.steady_newAddresses : s.newAddresses.steady may = s.steady may := by
  simp [State.newAddresses]

@[simp] theorem State.steady_restoreRegs (c : Snapshot) : (s.restoreRegs c).steady may = s.steady may := by
  simp [State.restoreRegs]

@[simp] theorem State.steady_restoreState (c : Snapshot) (f : Shift) (hobjects : may.objects = true)
    (hhbm : may.hbm = true) : (s.restoreState c f).steady may = s.steady may := by
  unfold State.restoreState
  extract_lets sess gaf pins dir index loaded index' numbered mover summed addressed running
  have relock (u : State) (e : Nat × Session) : ((u.lockEntry e.1).getD u).steady may = u.steady may :=
    (State.keeps_lockEntry e.1).getD
  calc _ = addressed.steady may := State.steady_foldl _ relock _
    _ = summed.steady may := State.steady_newAddresses
    _ = numbered.steady may := by simp only [summed, State.steady_update]
    _ = loaded.steady may := by simp only [numbered, State.steady_update]
    _ = s.steady may := by simp [loaded, State.steady, hobjects, hhbm]

@[simp] theorem State.steady_restoreCmds (c : Snapshot) (f : Shift) (haccepts : may.accepts = true) :
    (s.restoreCmds c f).steady may = s.steady may := by
  simp [State.restoreCmds, haccepts]

@[simp] theorem State.steady_skipSession (slot : Nat) : (s.skipSession slot).steady may = s.steady may := by
  simp [State.skipSession]

@[simp] theorem State.steady_skipTenants (c : Snapshot) (hobjects : may.objects = true) :
    (s.skipTenants c).2.steady may = s.steady may := by
  simp [State.skipTenants, hobjects]

@[simp] theorem State.steady_restoreLease (source : Nat) (words : List (Nat × DWord)) (slot : Nat)
    (hfabric : may.fabric = true) : (s.restoreLease source words slot).steady may = s.steady may := by
  simp only [State.restoreLease]
  repeat' split
  all_goals simp [hfabric]

@[simp] theorem State.steady_restoreCommit (r : RestoreRun) (m : StoreImage) (words : List (Nat × DWord))
    (hfabric : may.fabric = true) (hobjects : may.objects = true) (haccepts : may.accepts = true)
    (hhbm : may.hbm = true) : (s.restoreCommit r m words).steady may = s.steady may := by
  simp [State.restoreCommit, hfabric, hobjects, haccepts, hhbm]

@[simp] theorem State.steady_restoreFail (r : RestoreRun) (st : Status) (detail : Nat) :
    (s.restoreFail r st detail).steady may = s.steady may := by
  simp [State.restoreFail]

@[simp] theorem steady_opCkptRestore (id : Nat) (c : Cmd) : (opCkptRestore s id c).steady may = s.steady may := by
  simp only [opCkptRestore]
  repeat' split
  all_goals simp

@[simp] theorem keepsNext_execRestoreDone (words : List (Nat × DWord)) (failed : Option Bool)
    (hfabric : may.fabric = true) (hobjects : may.objects = true) (haccepts : may.accepts = true)
    (hhbm : may.hbm = true) : KeepsNext may s (execRestoreDone words failed s) := by
  simp only [execRestoreDone, keepsNext_next]
  repeat' split
  all_goals simp [hfabric, hobjects, haccepts, hhbm]

end Sys2Proof.Machine
end

section
/-! ## What is kept: power and clocks -/
namespace Sys2Proof.Machine
variable {may : Leave} {s t : State}

@[simp] theorem State.steady_onPlat (f : Plat → Plat) : (s.onPlat f).steady may = s.steady may := by
  simp [State.onPlat]

@[simp] theorem State.steady_clockSwitch (n : Nat) (pll : Bool) : (s.clockSwitch n pll).steady may = s.steady may := by
  simp [State.clockSwitch]

@[simp] theorem State.steady_askSwitch (n : Nat) (pll : Bool) : (s.askSwitch n pll).steady may = s.steady may := by
  simp [State.askSwitch]

@[simp] theorem keepsNext_execCoreSwToPll : KeepsNext may s (execCoreSwToPll s) := by
  simp [execCoreSwToPll]

@[simp] theorem keepsNext_execCoreSwToStart : KeepsNext may s (execCoreSwToStart s) := by
  simp [execCoreSwToStart]

@[simp] theorem keepsNext_execRefclkLost : KeepsNext may s (execRefclkLost s) := by
  simp [execRefclkLost]

@[simp] theorem keepsNext_execRefclkQualified (khz : Nat) : KeepsNext may s (execRefclkQualified khz s) := by
  simp [execRefclkQualified]

@[simp] theorem keepsNext_execPllLockFail : KeepsNext may s (execPllLockFail s) := by
  simp [execPllLockFail]

@[simp] theorem keepsNext_execPllUnlock : KeepsNext may s (execPllUnlock s) := by
  simp [execPllUnlock]

@[simp] theorem keepsNext_execAonClockGate : KeepsNext may s (execAonClockGate s) := by
  simp [execAonClockGate]

@[simp] theorem State.steady_measured (ma w c : Nat) : (s.measured ma w c).steady may = s.steady may := by
  simp [State.measured]

@[simp] theorem State.steady_countLimited : s.countLimited.steady may = s.steady may := by
  simp [State.countLimited]

@[simp] theorem keepsNext_execGovernorStepDown (ma w c : Nat) : KeepsNext may s (execGovernorStepDown ma w c s) := by
  simp [execGovernorStepDown]

@[simp] theorem keepsNext_execGovernorStepUp (ma w c : Nat) : KeepsNext may s (execGovernorStepUp ma w c s) := by
  simp [execGovernorStepUp]

@[simp] theorem State.steady_stageFault : s.stageFault.steady may = s.steady may := by
  simp [State.stageFault]

@[simp] theorem keepsNext_execPowerStageFault : KeepsNext may s (execPowerStageFault s) := by
  simp [execPowerStageFault]

@[simp] theorem keepsNext_execTabFault : KeepsNext may s (execTabFault s) := by
  simp [execTabFault]

@[simp] theorem keepsNext_execVinUvWarn (mv : Nat) : KeepsNext may s (execVinUvWarn mv s) := by
  simp [execVinUvWarn]

@[simp] theorem keepsNext_execVinOvWarn (mv : Nat) : KeepsNext may s (execVinOvWarn mv s) := by
  simp [execVinOvWarn]

@[simp] theorem keepsNext_execCalibrationDue : KeepsNext may s (execCalibrationDue s) := by
  simp [execCalibrationDue]

@[simp] theorem State.steady_startTransition (d target : Nat) :
    (s.startTransition d target).steady may = s.steady may := by
  simp [State.startTransition]

@[simp] theorem State.steady_applyRequest (d target : Nat) : (s.applyRequest d target).steady may = s.steady may := by
  simp [State.applyRequest]

@[simp] theorem State.steady_domReq (value : Nat) : (s.domReq value).steady may = s.steady may := by
  simp only [State.domReq]
  repeat' split
  all_goals simp

@[simp] theorem keepsNext_execDomReq (value : BitVec 2) : KeepsNext may s (execDomReq value s) := by
  simp [execDomReq]

@[simp] theorem State.steady_resetPage (page idx : Nat) : (s.resetPage page idx).steady may = s.steady may := by
  simp [State.resetPage]

@[simp] theorem State.steady_portPowerOff (n : Nat) : (s.portPowerOff n).steady may = s.steady may := by
  simp [State.portPowerOff]

@[simp] theorem State.steady_portTrain (n : Nat) : (s.portTrain n).steady may = s.steady may := by
  simp [State.portTrain]

@[simp] theorem State.steady_leaveOn (d target : Nat) : (s.leaveOn d target).steady may = s.steady may := by
  simp [State.leaveOn]

@[simp] theorem State.steady_domainOff (d : Nat) (hobjects : may.objects = true) :
    (s.domainOff d).steady may = s.steady may := by
  simp [State.domainOff, hobjects]

@[simp] theorem State.steady_rebuildSlice (n : Nat) : (s.rebuildSlice n).steady may = s.steady may := by
  simp only [State.rebuildSlice]
  repeat' split
  all_goals simp

@[simp] theorem State.steady_settleDomain (d target : Nat) (hobjects : may.objects = true) :
    (s.settleDomain d target).steady may = s.steady may := by
  simp [State.settleDomain, hobjects]

@[simp] theorem State.steady_wakeCluster (d target : Nat) : (s.wakeCluster d target).steady may = s.steady may := by
  simp [State.wakeCluster]

@[simp] theorem keepsNext_execDomainTransitionDone (domain : Nat) (hobjects : may.objects = true) :
    KeepsNext may s (execDomainTransitionDone domain s) := by
  simp only [execDomainTransitionDone, keepsNext_next]
  split
  · rfl
  · split
    · split <;> simp [hobjects]
    · simp

@[simp] theorem keepsNext_execAutoWake (domain : Nat) : KeepsNext may s (execAutoWake domain s) := by
  simp [execAutoWake]

@[simp] theorem keepsNext_execAutoIdleReturn (domain : Nat) (hobjects : may.objects = true) :
    KeepsNext may s (execAutoIdleReturn domain s) := by
  simp [execAutoIdleReturn, hobjects]

@[simp] theorem State.steady_wakeAll : s.wakeAll.2.steady may = s.steady may := by
  simp [State.wakeAll]

end Sys2Proof.Machine
end

section
/-! ## What is kept: tenants and keys -/
namespace Sys2Proof.Machine
variable {may : Leave} {s t : State}

@[simp] theorem State.steady_onSec (f : Sec → Sec) : (s.onSec f).steady may = s.steady may := by
  simp [State.onSec]

@[simp] theorem State.steady_setTenant (t : Nat) (x : Tenant) (htenants : may.tenants = true) :
    (s.setTenant t x).steady may = s.steady may := by
  simp [State.setTenant, htenants]

@[simp] theorem State.steady_send (m : OutMsg) : (s.send m).steady may = s.steady may := by
  simp [State.send]

@[simp] theorem State.steady_stage (k : StagedKey) : (s.stage k).steady may = s.steady may := by
  simp only [State.stage]
  repeat' split
  all_goals simp

@[simp] theorem State.steady_atIsland (f : State → State) (hf : (f s).steady may = s.steady may) :
    (s.atIsland f).steady may = s.steady may := by
  simp [State.atIsland, hf]

@[simp] theorem keepsNext_execKeyDeliver (session : Option Nat) (payload : List Byte) (unwraps : Bool) :
    KeepsNext may s (execKeyDeliver session payload unwraps s) := by
  simp [execKeyDeliver]

@[simp] theorem keepsNext_execKeyinGo (value : Word) : KeepsNext may s (execKeyinGo value s) := by
  simp [execKeyinGo]

@[simp] theorem keepsNext_execKeyDiscard : KeepsNext may s (execKeyDiscard s) := by
  simp only [execKeyDiscard, keepsNext_next]
  repeat' split
  all_goals simp

@[simp] theorem keepsNext_execTenBindGo (value : Word) (htenants : may.tenants = true) :
    KeepsNext may s (execTenBindGo value s) := by
  simp only [execTenBindGo, keepsNext_next]
  repeat' split
  all_goals simp [htenants]

@[simp] theorem keepsNext_execCkptBindGo (value : Word) : KeepsNext may s (execCkptBindGo value s) := by
  simp only [execCkptBindGo, keepsNext_next]
  repeat' split
  all_goals simp

@[simp] theorem keepsNext_execSetRevoke : KeepsNext may s (execSetRevoke s) := by
  simp only [execSetRevoke, keepsNext_next]
  repeat' split
  all_goals simp

@[simp] theorem State.steady_setStream (n : Nat) (x : IdeStream) : (s.setStream n x).steady may = s.steady may := by
  simp [State.setStream]

@[simp] theorem State.steady_streamGo (n : Nat) (toggle : Bool) : (s.streamGo n toggle).steady may = s.steady may := by
  simp [State.streamGo]

@[simp] theorem State.steady_streamOver (n session : Nat) : (s.streamOver n session).steady may = s.steady may := by
  simp [State.streamOver]

@[simp] theorem keepsNext_execStreamStart : KeepsNext may s (execStreamStart s) := by
  simp [execStreamStart]

@[simp] theorem State.steady_streamStop (n : Nat) : (s.streamStop n).steady may = s.steady may := by
  simp [State.streamStop]

@[simp] theorem keepsNext_execStreamStop : KeepsNext may s (execStreamStop s) := by
  simp [execStreamStop]

@[simp] theorem keepsNext_execStreamRekey : KeepsNext may s (execStreamRekey s) := by
  simp [execStreamRekey]

@[simp] theorem keepsNext_execStreamAutoRekey (n : Nat) : KeepsNext may s (execStreamAutoRekey n s) := by
  simp [execStreamAutoRekey]

@[simp] theorem State.steady_countSessions : s.countSessions.steady may = s.steady may := by
  simp [State.countSessions]

@[simp] theorem State.steady_setSpdm (m : Map SpdmSession) : (s.setSpdm m).steady may = s.steady may := by
  simp [State.setSpdm]

@[simp] theorem State.steady_spdm (r : SpdmReq) : (s.spdm r).steady may = s.steady may := by
  simp only [State.spdm]
  repeat' split
  all_goals simp

@[simp] theorem keepsNext_execSpdmRequest (req : SpdmReq) : KeepsNext may s (execSpdmRequest req s) := by
  simp [execSpdmRequest]

@[simp] theorem keepsNext_execSpdmHeartbeatTimeout (session : Nat) :
    KeepsNext may s (execSpdmHeartbeatTimeout session s) := by
  simp only [execSpdmHeartbeatTimeout, keepsNext_next]
  repeat' split
  all_goals simp

@[simp] theorem keepsNext_execGetMeasurements (index : Nat) : KeepsNext may s (execGetMeasurements index s) := by
  simp [execGetMeasurements]

@[simp] theorem State.steady_zeroise (htenants : may.tenants = true) : s.zeroise.steady may = s.steady may := by
  simp [State.zeroise, htenants]

@[simp] theorem keepsNext_execLifecycleAdvance (session : Option Nat) (mctp : Bool) (payload : List Byte) (y : Crypto)
    (htenants : may.tenants = true) : KeepsNext may s (execLifecycleAdvance session mctp payload y s) := by
  simp [execLifecycleAdvance, htenants]

@[simp] theorem keepsNext_execRngHealthFail : KeepsNext may s (execRngHealthFail s) := by
  simp [execRngHealthFail]

@[simp] theorem keepsNext_execKeyMemoryUe : KeepsNext may s (execKeyMemoryUe s) := by
  simp [execKeyMemoryUe]

@[simp] theorem keepsNext_execSecEnable (en : Bool) : KeepsNext may s (execSecEnable en s) := by
  simp [execSecEnable]

@[simp] theorem keepsNext_execSecInitDone : KeepsNext may s (execSecInitDone s) := by
  simp [execSecInitDone]

@[simp] theorem State.steady_clearTenant (t : Nat) : (s.clearTenant t).steady may = s.steady may := by
  simp [State.clearTenant]

@[simp] theorem steady_opTenantOpen (id : Nat) (c : Cmd) (htenants : may.tenants = true) :
    (opTenantOpen s id c).steady may = s.steady may := by
  simp only [opTenantOpen]
  repeat' split
  all_goals simp [htenants]

@[simp] theorem State.steady_closeRing (n : Nat) : (s.closeRing n).steady may = s.steady may := by
  simp only [State.closeRing]
  repeat' split
  all_goals simp

@[simp] theorem State.steady_endQueued (rings : List Nat) : (s.endQueued rings).steady may = s.steady may := by
  simp [State.endQueued]

@[simp] theorem State.steady_closeSessions (t : Nat) : (s.closeSessions t).steady may = s.steady may := by
  simp [State.closeSessions]

@[simp] theorem State.steady_releaseObjects (t : Nat) (hobjects : may.objects = true) (hvocabs : may.vocabs = true)
    (hmodels : may.models = true) : (s.releaseObjects t).steady may = s.steady may := by
  simp [State.releaseObjects, hobjects, hvocabs, hmodels]

@[simp] theorem State.steady_prepStep (t : Nat) (hobjects : may.objects = true) (hvocabs : may.vocabs = true)
    (hmodels : may.models = true) : (s.prepStep t).steady may = s.steady may := by
  simp [State.prepStep, hobjects, hvocabs, hmodels]

@[simp] theorem steady_opTenantClose (id : Nat) (c : Cmd) (hobjects : may.objects = true)
    (hvocabs : may.vocabs = true) (hmodels : may.models = true) (htenants : may.tenants = true) :
    (opTenantClose s id c).steady may = s.steady may := by
  simp only [opTenantClose]
  repeat' split
  all_goals simp [hobjects, hvocabs, hmodels, htenants]

@[simp] theorem State.steady_noteAll (t : Nat) : (s.noteAll t).steady may = s.steady may := by
  simp [State.noteAll]

@[simp] theorem State.steady_startPass (t : Nat) (p : ClosePrep) (htenants : may.tenants = true) :
    (s.startPass t p).steady may = s.steady may := by
  simp [State.startPass, htenants]

@[simp] theorem keepsNext_execFiningPrepDone (x : Nat) (htenants : may.tenants = true) (hobjects : may.objects = true)
    (hvocabs : may.vocabs = true) (hmodels : may.models = true) : KeepsNext may s (execFiningPrepDone x s) := by
  simp only [execFiningPrepDone, keepsNext_next]
  repeat' split
  all_goals simp [htenants, hobjects, hvocabs, hmodels]

@[simp] theorem State.steady_openWindow : s.openWindow.steady may = s.steady may := by
  simp [State.openWindow]

@[simp] theorem State.steady_onPass (f : FinePass → FinePass) : (s.onPass f).steady may = s.steady may := by
  simp [State.onPass]

@[simp] theorem State.steady_passProgress (p : FinePass) : (s.passProgress p).steady may = s.steady may := by
  simp [State.passProgress]

@[simp] theorem State.steady_destroyKeys (p : FinePass) (htenants : may.tenants = true) :
    (s.destroyKeys p).steady may = s.steady may := by
  simp [State.destroyKeys, htenants]

@[simp] theorem keepsNext_execQuietWindowClose (htenants : may.tenants = true) :
    KeepsNext may s (execQuietWindowClose s) := by
  simp only [execQuietWindowClose, keepsNext_next]
  repeat' split
  all_goals simp [htenants]

@[simp] theorem keepsNext_execScrubUnitVisit : KeepsNext may s (execScrubUnitVisit s) := by
  simp only [execScrubUnitVisit, keepsNext_next]
  repeat' split
  all_goals simp

@[simp] theorem keepsNext_execFiningSramZero : KeepsNext may s (execFiningSramZero s) := by
  simp [execFiningSramZero]

@[simp] theorem State.steady_returnDomain (d : Nat) : (s.returnDomain d).steady may = s.steady may := by
  simp [State.returnDomain]

@[simp] theorem keepsNext_execFiningPassEnd (htenants : may.tenants = true) :
    KeepsNext may s (execFiningPassEnd s) := by
  simp only [execFiningPassEnd, keepsNext_next]
  repeat' split
  all_goals simp [htenants]

end Sys2Proof.Machine
end

section
/-! ## What is kept: boot -/
namespace Sys2Proof.Machine
variable {may : Leave} {s t : State}

@[simp] theorem keepsNext_execFlr (function : BitVec 4) (hmasks : may.masks = true) :
    KeepsNext may s (execFlr function s) := by
  simp [execFlr, hmasks]

@[simp] theorem State.steady_storeRecord (b : StoreBank) (fails : Bool) :
    (s.storeRecord b fails).steady may = s.steady may := by
  simp [State.storeRecord]

@[simp] theorem State.steady_failSegment (n : Nat) : (s.failSegment n).steady may = s.steady may := by
  simp [State.failSegment]

@[simp] theorem State.steady_lastRegs (b : StoreBank) : (s.lastRegs b).steady may = s.steady may := by
  simp [State.lastRegs]

@[simp] theorem State.steady_boot (b : BootInput) (hboots : may.boots = true) :
    (s.boot b).steady may = s.steady may := by
  simp [State.boot, hboots]

@[simp] theorem keepsNext_execBoot (b : BootInput) (hboots : may.boots = true) : KeepsNext may s (execBoot b s) := by
  simp [execBoot, hboots]

@[simp] theorem keepsNext_execEntdaa (addr : BitVec 7) : KeepsNext may s (execEntdaa addr s) := by
  simp [execEntdaa]

@[simp] theorem keepsNext_execMctpControlMessage : KeepsNext may s (execMctpControlMessage s) := by
  simp [execMctpControlMessage]

@[simp] theorem keepsNext_execConfigRequest (function : BitVec 4) : KeepsNext may s (execConfigRequest function s) := by
  simp [execConfigRequest]

end Sys2Proof.Machine
end

section
/-! ## What is kept: reclaim -/
namespace Sys2Proof.Machine
variable {may : Leave} {s t : State}

@[simp] theorem State.steady_letGo (n slot : Nat) : (s.letGo n slot).steady may = s.steady may := by
  simp [State.letGo]

@[simp] theorem State.steady_reclaimFirst : s.reclaimFirst.steady may = s.steady may := by
  simp only [State.reclaimFirst]
  repeat' split
  all_goals simp

@[simp] theorem keepsNext_execPageFree : KeepsNext may s (execPageFree s) := by
  simp [execPageFree]

end Sys2Proof.Machine
end

section
/-! ## What is kept: time-outs and failed transfers -/
namespace Sys2Proof.Machine
variable {may : Leave} {s t : State}

@[simp] theorem keepsNext_execFamEnable (en : Bool) : KeepsNext may s (execFamEnable en s) := by
  simp [execFamEnable]

@[simp] theorem keepsNext_execFabEnable (n : BitVec 3) (en : Bool) : KeepsNext may s (execFabEnable n en s) := by
  simp [execFabEnable]

@[simp] theorem State.steady_sourceFail (id : Nat) (hmigrates : may.migrates = true) (hmodels : may.models = true) :
    (s.sourceFail id).steady may = s.steady may := by
  simp only [State.sourceFail]
  repeat' split
  all_goals simp [hmigrates, hmodels]

@[simp] theorem State.steady_spoilPayload (d : Desc) : (s.spoilPayload d).steady may = s.steady may := by
  simp [State.spoilPayload]

@[simp] theorem keepsNext_execPayloadWriteFail (cmd : Nat) : KeepsNext may s (execPayloadWriteFail cmd s) := by
  simp only [execPayloadWriteFail, keepsNext_next]
  repeat' split
  all_goals simp

@[simp] theorem keepsNext_execCommandWatchdog (cmd : Nat) (hmigrates : may.migrates = true) (hmodels : may.models = true) :
    KeepsNext may s (execCommandWatchdog cmd s) := by
  simp only [execCommandWatchdog, keepsNext_next]
  repeat' split
  all_goals simp [hmigrates, hmodels]

@[simp] theorem State.steady_failReq (n : Nat) (r : Req) : (s.failReq n r).steady may = s.steady may := by
  simp only [State.failReq]
  repeat' split
  all_goals simp

@[simp] theorem keepsNext_execFabricCompletion (req : Nat) (result : FabResult) :
    KeepsNext may s (execFabricCompletion req result s) := by
  simp only [execFabricCompletion, keepsNext_next]
  repeat' split
  all_goals simp

@[simp] theorem keepsNext_execIdeIntegrityFail (stream : Nat) (n : BitVec 3) :
    KeepsNext may s (execIdeIntegrityFail stream n s) := by
  simp [execIdeIntegrityFail]

@[simp] theorem State.steady_markLost (device : Nat) : (s.markLost device).steady may = s.steady may := by
  simp [State.markLost]

@[simp] theorem State.steady_endPoolMoves (device : Nat) : (s.endPoolMoves device).steady may = s.steady may := by
  simp [State.endPoolMoves]

@[simp] theorem State.steady_clearPool (device : Nat) : (s.clearPool device).steady may = s.steady may := by
  simp [State.clearPool]

@[simp] theorem State.steady_failLeases (device : Nat) (hmigrates : may.migrates = true) (hfabric : may.fabric = true) :
    (s.failLeases device).steady may = s.steady may := by
  have h : ∀ (t : State) (a : Nat), ((List.range (t.fam.cas.getD a []).length).foldl
      (fun s _ => s.casAnswer a none none) t).steady may = t.steady may := fun t a => by simp [hmigrates, hfabric]
  simp [State.failLeases, h, hmigrates]

@[simp] theorem State.steady_failStore (device : Nat) (hfreezes : may.freezes = true) :
    (s.failStore device).steady may = s.steady may := by
  simp only [State.failStore]
  repeat' split
  all_goals simp [hfreezes]

@[simp] theorem State.steady_markDead (device : Nat) (hmigrates : may.migrates = true) (hmodels : may.models = true)
    (hfreezes : may.freezes = true) (hfabric : may.fabric = true) : (s.markDead device).steady may = s.steady may := by
  simp [State.markDead, hmigrates, hmodels, hfreezes, hfabric]

@[simp] theorem keepsNext_execFabricTimeout (device : Nat) (hmigrates : may.migrates = true)
    (hmodels : may.models = true) (hfreezes : may.freezes = true) (hfabric : may.fabric = true) :
    KeepsNext may s (execFabricTimeout device s) := by
  simp [execFabricTimeout, hmigrates, hmodels, hfreezes, hfabric]

@[simp] theorem keepsNext_execDeadWalkDone (device : Nat) : KeepsNext may s (execDeadWalkDone device s) := by
  simp [execDeadWalkDone]

end Sys2Proof.Machine
end

section
/-! ## What is kept: tiles and cores -/
namespace Sys2Proof.Machine
variable {may : Leave} {s t : State}

@[simp] theorem State.steady_startTag (n : Nat) : (s.startTag n).2.steady may = s.steady may := by
  simp [State.startTag]

@[simp] theorem State.steady_startTile (n : Nat) (t : NextTile) : (s.startTile n t).steady may = s.steady may := by
  simp [State.startTile]

@[simp] theorem State.steady_showHeld : s.showHeld.steady may = s.steady may := by
  simp [State.showHeld]

@[simp] theorem State.steady_urgentCap : s.urgentCap.steady may = s.steady may := by
  simp [State.urgentCap]

@[simp] theorem keepsNext_execUrgentWindowEnd : KeepsNext may s (execUrgentWindowEnd s) := by
  simp [execUrgentWindowEnd]

@[simp] theorem State.steady_preempt (n : Nat) : (s.preempt n).steady may = s.steady may := by
  simp only [State.preempt]
  repeat' split
  all_goals simp

@[simp] theorem State.steady_takeTile (n : Nat) (t : NextTile) : (s.takeTile n t).steady may = s.steady may := by
  simp [State.takeTile]

@[simp] theorem State.steady_countStarved (n : Nat) (ran : TileRan) :
    (s.countStarved n ran).steady may = s.steady may := by
  simp [State.countStarved]

@[simp] theorem State.steady_openAcct (n : Nat) (ran : TileRan) (tag : Option (List Byte)) :
    (s.openAcct n ran tag).steady may = s.steady may := by
  simp [State.openAcct]

@[simp] theorem State.steady_countTile (n : Nat) (out : TileOut) (ran : TileRan) :
    (s.countTile n out ran).steady may = s.steady may := by
  simp [State.countTile]

@[simp] theorem State.steady_countUrgent (ran : TileRan) : (s.countUrgent ran).steady may = s.steady may := by
  simp [State.countUrgent]

@[simp] theorem State.steady_clearTile (n : Nat) (words : List Nat) :
    (s.clearTile n words).steady may = s.steady may := by
  simp only [State.clearTile]
  repeat' split
  all_goals simp

@[simp] theorem State.steady_tileEnd (n : Nat) (work : TileWork) (ran : TileRan) (next : Option NextTile) :
    (s.tileEnd n work ran next).steady may = s.steady may := by
  simp only [State.tileEnd]
  repeat' split
  all_goals simp

@[simp] theorem keepsNext_execTileEnd (core : BitVec 7) (work : TileWork) (ran : TileRan) (next : Option NextTile) :
    KeepsNext may s (execTileEnd core work ran next s) := by
  simp [execTileEnd]

@[simp] theorem State.steady_fillHalf (k : Nat) (half : Bool) (slab bytes : Nat) :
    (s.fillHalf k half slab bytes).steady may = s.steady may := by
  simp [State.fillHalf]

@[simp] theorem State.steady_wakeCore (n : Nat) : (s.wakeCore n).steady may = s.steady may := by
  simp only [State.wakeCore]
  repeat' split
  all_goals simp

@[simp] theorem keepsNext_execWindowHalfFilled (filled : WindowSlab) (bytes stalls : Nat) :
    KeepsNext may s (execWindowHalfFilled filled bytes stalls s) := by
  simp only [execWindowHalfFilled, keepsNext_next]
  simp

@[simp] theorem State.steady_failCore (n code : Nat) : (s.failCore n code).steady may = s.steady may := by
  simp [State.failCore]

@[simp] theorem keepsNext_execCoreSramUe (core : BitVec 7) : KeepsNext may s (execCoreSramUe core s) := by
  simp [execCoreSramUe]

@[simp] theorem keepsNext_execClusterSramUe (cluster : BitVec 3) : KeepsNext may s (execClusterSramUe cluster s) := by
  simp [execClusterSramUe]

end Sys2Proof.Machine
end

section
/-! ## What is kept: telemetry -/
namespace Sys2Proof.Machine
variable {may : Leave} {s t : State}

@[simp] theorem State.steady_onTel (f : Tel → Tel) : (s.onTel f).steady may = s.steady may := by
  simp [State.onTel]

@[simp] theorem State.steady_dropDump : s.dropDump.steady may = s.steady may := by
  simp [State.dropDump]

@[simp] theorem State.steady_takeSnapshot (t us w : Nat) : (s.takeSnapshot t us w).steady may = s.steady may := by
  simp [State.takeSnapshot]

@[simp] theorem State.steady_portWindow (n : Nat) (c : Nat × Nat × Nat) :
    (s.portWindow n c).steady may = s.steady may := by
  simp [State.portWindow]

@[simp] theorem State.steady_bwEnd (counts : List (Nat × Nat × Nat)) : (s.bwEnd counts).steady may = s.steady may := by
  simp [State.bwEnd]

@[simp] theorem keepsNext_execBwWindowEnd (counts : List (Nat × Nat × Nat)) :
    KeepsNext may s (execBwWindowEnd counts s) := by
  simp [execBwWindowEnd]

@[simp] theorem keepsNext_execDumpWriteDone : KeepsNext may s (execDumpWriteDone s) := by
  simp only [execDumpWriteDone, keepsNext_next]
  repeat' split
  all_goals simp

@[simp] theorem keepsNext_execTagWriteDone : KeepsNext may s (execTagWriteDone s) := by
  simp only [execTagWriteDone, keepsNext_next]
  repeat' split
  all_goals simp

@[simp] theorem keepsNext_execTelRingWriteFail (tag : Bool) : KeepsNext may s (execTelRingWriteFail tag s) := by
  simp only [execTelRingWriteFail, keepsNext_next]
  repeat' split
  all_goals simp

@[simp] theorem State.steady_clearReg (r : Reg) : (s.clearReg r).steady may = s.steady may := by
  simp [State.clearReg]

@[simp] theorem State.steady_telOpen (which : Nat) : (s.telOpen which).steady may = s.steady may := by
  simp [State.telOpen]

@[simp] theorem keepsNext_execTelEnable (which : BitVec 2) (en : Bool) :
    KeepsNext may s (execTelEnable which en s) := by
  simp [execTelEnable]

@[simp] theorem keepsNext_execTelRead (payload : List Byte) : KeepsNext may s (execTelRead payload s) := by
  simp [execTelRead]

end Sys2Proof.Machine
end

section
/-! ## What is kept: register accesses -/
namespace Sys2Proof.Machine
variable {may : Leave} {s t : State}

@[simp] theorem State.steady_badAccess (off : Nat) : (s.badAccess off).steady may = s.steady may := by
  simp [State.badAccess]

@[simp] theorem keepsNext_execBadRegisterAccess (access : RegAccess) :
    KeepsNext may s (execBadRegisterAccess access s) := by
  simp [execBadRegisterAccess]

@[simp] theorem State.steady_putField (p : Nat) (e : Reg × Nat × Nat) : (s.putField p e).steady may = s.steady may := by
  simp only [State.putField]
  repeat' split
  all_goals simp

@[simp] theorem State.steady_settleBuckets (t : State) (q : Nat) (a : AdmQueue) (policed : Bool) :
    (State.settleBuckets t q a policed).steady may = t.steady may := by
  simp [State.settleBuckets]

@[simp] theorem State.steady_pllFollow (t : State) (s : State) : (State.pllFollow t s).steady may = t.steady may := by
  simp [State.pllFollow]

@[simp] theorem State.steady_afterWrite (t : State) (s : State) (p : Nat) (l : List (Reg × Nat × Nat)) :
    (State.afterWrite t s p l).steady may = t.steady may := by
  simp [State.afterWrite]

@[simp] theorem State.steady_writeFields (p : Nat) (written : List (Reg × Nat × Nat)) :
    (s.writeFields p written).steady may = s.steady may := by
  simp [State.writeFields]

@[simp] theorem State.steady_ringSetup (n : Nat) (f : Ring → Ring) : (s.ringSetup n f).steady may = s.steady may := by
  simp [State.ringSetup]

@[simp] theorem State.steady_setCoalesce (n count time : Nat) :
    (s.setCoalesce n count time).steady may = s.steady may := by
  simp [State.setCoalesce]

@[simp] theorem State.steady_ringWord (n off x : Nat) : (s.ringWord n off x).steady may = s.steady may := by
  simp [State.ringWord]

@[simp] theorem State.steady_ringWrite (n off : Nat) (value : DWord) (wide : Bool) :
    (s.ringWrite n off value wide).steady may = s.steady may := by
  simp only [State.ringWrite]
  repeat' split
  all_goals simp

@[simp] theorem State.steady_registerWrite (off : Nat) (value : DWord) (wide : Bool) :
    (s.registerWrite off value wide).steady may = s.steady may := by
  simp only [State.registerWrite]
  repeat' split
  all_goals simp

@[simp] theorem keepsNext_execRegisterWrite (off : BitVec 26) (value : DWord) (wide : Bool) :
    KeepsNext may s (execRegisterWrite off value wide s) := by
  simp [execRegisterWrite]

@[simp] theorem State.steady_blockEnable (p : Nat) (en : Bool) : (s.blockEnable p en).steady may = s.steady may := by
  simp [State.blockEnable]

@[simp] theorem keepsNext_execBlockEnable (page : BitVec 10) (en : Bool) :
    KeepsNext may s (execBlockEnable page en s) := by
  simp [execBlockEnable]

@[simp] theorem State.steady_softRst (p : Nat) : (s.softRst p).steady may = s.steady may := by
  simp [State.softRst]

@[simp] theorem keepsNext_execSoftRst (page : BitVec 10) : KeepsNext may s (execSoftRst page s) := by
  simp [execSoftRst]

@[simp] theorem State.steady_commitPage (p : Nat) : (s.commitPage p).steady may = s.steady may := by
  simp [State.commitPage]

@[simp] theorem keepsNext_execCommit (page : BitVec 10) : KeepsNext may s (execCommit page s) := by
  simp [execCommit]

@[simp] theorem keepsNext_execShadowApply (page : BitVec 10) : KeepsNext may s (execShadowApply page s) := by
  simp [execShadowApply]

@[simp] theorem State.steady_clearedWith (p : Nat) (bits : Word) :
    (s.clearedWith p bits).steady may = s.steady may := by
  simp [State.clearedWith]

@[simp] theorem State.steady_intClear (p : Nat) (bits : Word) : (s.intClear p bits).steady may = s.steady may := by
  simp [State.intClear]

@[simp] theorem State.steady_ringIntClear (n : Nat) (bits : Word) :
    (s.ringIntClear n bits).steady may = s.steady may := by
  simp [State.ringIntClear]

@[simp] theorem keepsNext_execIntStatusClear (page : BitVec 10) (bits : Word) :
    KeepsNext may s (execIntStatusClear page bits s) := by
  simp only [execIntStatusClear, keepsNext_next]
  repeat' split
  all_goals simp

@[simp] theorem keepsNext_execIntSet (page : BitVec 10) (bits : Word) : KeepsNext may s (execIntSet page bits s) := by
  simp only [execIntSet, keepsNext_next]
  repeat' split
  all_goals simp

@[simp] theorem State.steady_intEnable (p : Nat) (bits : Word) : (s.intEnable p bits).steady may = s.steady may := by
  simp [State.intEnable]

@[simp] theorem State.steady_ringIntEnable (n : Nat) (bits : Word) :
    (s.ringIntEnable n bits).steady may = s.steady may := by
  simp [State.ringIntEnable]

@[simp] theorem keepsNext_execIntEnableWrite (page : BitVec 10) (bits : Word) :
    KeepsNext may s (execIntEnableWrite page bits s) := by
  simp only [execIntEnableWrite, keepsNext_next]
  repeat' split
  all_goals simp

end Sys2Proof.Machine
end

section
/-! ## What is kept: the rows of the commands -/
namespace Sys2Proof.Machine
variable {may : Leave} {s t : State}

@[simp] theorem State.steady_waitFor (id aux : Nat) : (s.waitFor id aux).steady may = s.steady may := by
  simp [State.waitFor]

/-- The opcodes whose commands read a source (R550). -/
def sourceOps : List Nat := [0x21, 0x23, 0x24, 0x40, 0x43]

theorem State.mem_sourceOps_of_sourceDead {d : Desc} (h : s.sourceDead d = true) : d.opcode ∈ sourceOps := by
  unfold State.sourceDead at h
  split at h
  all_goals simp_all [sourceOps]

/-- An effect keeps the steady part of every state. -/
def KeepsEffect (may : Leave) (eff : Effect) : Prop :=
  ∀ (t : State) (id : Nat) (c : Cmd) (slot : Nat), (eff t id c slot).steady may = t.steady may

theorem State.steady_deadSource (id : Nat) (c : Cmd) (slot : Nat) {eff : Effect} (heff : KeepsEffect may eff)
    (hmodels : may.models = true) (hmigrates : may.migrates = true) :
    (s.deadSource id c slot eff).steady may = s.steady may := by
  unfold State.deadSource
  split
  · simp
  · simp [heff _ _ _ _, hmodels, hmigrates]

theorem State.steady_attemptPlain (id : Nat) (c : Cmd) (leased : Bool) (slot : Nat) {eff : Effect} (heff : KeepsEffect may eff)
    (hsrc : c.desc.opcode ∉ sourceOps ∨ may.models = true ∧ may.migrates = true) :
    (s.attemptPlain id c leased slot eff).steady may = s.steady may := by
  unfold State.attemptPlain
  extract_lets ranges
  repeat' split
  any_goals simp
  · next hdead =>
    obtain ⟨hmodels, hmigrates⟩ := hsrc.resolve_left (· (State.mem_sourceOps_of_sourceDead hdead))
    exact State.steady_deadSource id c slot heff hmodels hmigrates
  · exact heff _ _ _ _

@[simp] theorem State.keeps_awaitVersion (id : Nat) (c : Cmd) (slot : Nat) (x : Session) :
    Keeps may s (s.awaitVersion id c slot x) := by
  unfold State.awaitVersion
  repeat' split
  all_goals simp

theorem State.steady_attemptState (id : Nat) (c : Cmd) (slot : Nat) (x : Session) {eff : Effect} (heff : KeepsEffect may eff)
    (hsrc : c.desc.opcode ∉ sourceOps ∨ may.models = true ∧ may.migrates = true) :
    (s.attemptState id c slot x eff).steady may = s.steady may := by
  unfold State.attemptState
  extract_lets d turned
  have e : turned.steady may = s.steady may := by simp [turned]
  clear_value turned
  repeat' split
  any_goals simp [e]
  · next h => exact ((State.keeps_awaitVersion ..).eq h).trans e
  all_goals exact (State.steady_attemptPlain id c x.leased slot heff hsrc).trans (by simp [e])

theorem State.steady_attemptSession (id : Nat) (c : Cmd) {eff : Effect} (heff : KeepsEffect may eff)
    (hsrc : c.desc.opcode ∉ sourceOps ∨ may.models = true ∧ may.migrates = true) :
    (s.attemptSession id c eff).steady may = s.steady may := by
  unfold State.attemptSession
  extract_lets slot named resolved
  have e : named.steady may = s.steady may := by simp [named]
  clear_value named
  repeat' split
  any_goals simp [e]
  · exact (heff _ _ _ _).trans e
  · exact (State.steady_attemptPlain id resolved _ _ heff hsrc).trans e
  · exact (State.steady_attemptState id resolved _ _ heff hsrc).trans e

theorem State.steady_attempt (id : Nat) (c : Cmd) {eff : Effect} (heff : KeepsEffect may eff)
    (hsrc : c.desc.opcode ∉ sourceOps ∨ may.models = true ∧ may.migrates = true) :
    (s.attempt id c eff).steady may = s.steady may := by
  unfold State.attempt
  split
  · simp
  · split
    · exact State.steady_attemptPlain id c false 0 heff hsrc
    · exact State.steady_attemptSession id c heff hsrc

@[simp] theorem State.steady_dropSource (id : Nat) : (s.dropSource id).steady may = s.steady may := by
  simp only [State.dropSource]
  repeat' split
  all_goals simp

@[simp] theorem State.steady_settled (id : Nat) (c : Cmd) : (t.settled s id c).steady may = t.steady may := by
  simp [State.settled]

@[simp] theorem State.steady_commandRow (id op : Nat) (eff : Effect)
    (heff : ∀ (t : State) (id : Nat) (c : Cmd) (slot : Nat), (eff t id c slot).steady may = t.steady may)
    (hsrc : op ∉ sourceOps ∨ may.models = true ∧ may.migrates = true) :
    (s.commandRow id op eff).steady may = s.steady may := by
  unfold State.commandRow
  split
  · rfl
  · split
    · next c _ h => simpa using State.steady_attempt id c heff (h.2.1 ▸ hsrc)
    · rfl

@[simp] theorem State.steady_withSource (id : Nat) (content : Capsule) (word : Option DWord) :
    (s.withSource id content word).steady may = s.steady may := by
  simp only [State.withSource]
  repeat' split
  all_goals simp

@[simp] theorem steady_effectOf (op id : Nat) (c : Cmd) (slot : Nat) (hfreezes : may.freezes = true)
    (htenants : may.tenants = true) (hmodels : may.models = true) (hvocabs : may.vocabs = true)
    (hobjects : may.objects = true) : (effectOf op s id c slot).steady may = s.steady may := by
  unfold effectOf
  split
  all_goals simp [effNop, effFence, effSessCreate, effSessClose, effSessFork, effSessQuery, effAppendText,
    effAppendTokens, effStep, effToolWait, effResume, effPark, effExportCapsule, effImportCapsule, effMigrateOut,
    effMigrateIn, effReclaim, effEmbLookup, effEmbUpdate, effEmbReplicate, effMemInsert, effMemDelete, effMemSearch,
    effMemCompact, effModelLoad, effModelUnload, effConstraintLoad, effVocabLoad, effCkptTake, effCkptRestore,
    effTenantOpen, effTenantClose, hfreezes, htenants, hmodels, hvocabs, hobjects]

@[simp] theorem keepsNext_execNop (cmd : Nat) : KeepsNext may s (execNop cmd s) := by
  simp [execNop, effNop, sourceOps]

@[simp] theorem keepsNext_execFence (cmd : Nat) : KeepsNext may s (execFence cmd s) := by
  simp [execFence, effFence, sourceOps]

@[simp] theorem keepsNext_execSessCreate (cmd : Nat) : KeepsNext may s (execSessCreate cmd s) := by
  simp [execSessCreate, effSessCreate, sourceOps]

@[simp] theorem keepsNext_execSessClose (cmd : Nat) : KeepsNext may s (execSessClose cmd s) := by
  simp [execSessClose, effSessClose, sourceOps]

@[simp] theorem keepsNext_execSessFork (cmd : Nat) : KeepsNext may s (execSessFork cmd s) := by
  simp [execSessFork, effSessFork, sourceOps]

@[simp] theorem keepsNext_execSessQuery (cmd : Nat) : KeepsNext may s (execSessQuery cmd s) := by
  simp [execSessQuery, effSessQuery, sourceOps]

@[simp] theorem keepsNext_execAppendText (cmd : Nat) : KeepsNext may s (execAppendText cmd s) := by
  simp [execAppendText, effAppendText, sourceOps]

@[simp] theorem keepsNext_execAppendTokens (cmd : Nat) : KeepsNext may s (execAppendTokens cmd s) := by
  simp [execAppendTokens, effAppendTokens, sourceOps]

@[simp] theorem keepsNext_execStep (cmd : Nat) : KeepsNext may s (execStep cmd s) := by
  simp [execStep, effStep, sourceOps]

@[simp] theorem keepsNext_execToolWait (cmd : Nat) : KeepsNext may s (execToolWait cmd s) := by
  simp [execToolWait, effToolWait, sourceOps]

@[simp] theorem keepsNext_execResume (cmd : Nat) : KeepsNext may s (execResume cmd s) := by
  simp [execResume, effResume, sourceOps]

@[simp] theorem keepsNext_execPark (cmd : Nat) : KeepsNext may s (execPark cmd s) := by
  simp [execPark, effPark, sourceOps]

@[simp] theorem keepsNext_execExportCapsule (cmd : Nat) : KeepsNext may s (execExportCapsule cmd s) := by
  simp [execExportCapsule, effExportCapsule, sourceOps]

@[simp] theorem keepsNext_execImportCapsule (cmd : Nat) (content : Capsule) (hmodels : may.models = true)
    (hmigrates : may.migrates = true) : KeepsNext may s (execImportCapsule cmd content s) := by
  simp [execImportCapsule, effImportCapsule, sourceOps, hmodels, hmigrates]

@[simp] theorem keepsNext_execMigrateOut (cmd : Nat) : KeepsNext may s (execMigrateOut cmd s) := by
  simp [execMigrateOut, effMigrateOut, sourceOps]

@[simp] theorem keepsNext_execMigrateIn (cmd : Nat) (content : Capsule) (word : Option DWord)
    (hmodels : may.models = true) (hmigrates : may.migrates = true) :
    KeepsNext may s (execMigrateIn cmd content word s) := by
  simp [execMigrateIn, effMigrateIn, sourceOps, hmodels, hmigrates]

@[simp] theorem keepsNext_execReclaim (cmd : Nat) (content : Capsule) (word : Option DWord)
    (hmodels : may.models = true) (hmigrates : may.migrates = true) :
    KeepsNext may s (execReclaim cmd content word s) := by
  simp [execReclaim, effReclaim, sourceOps, hmodels, hmigrates]

@[simp] theorem keepsNext_execEmbLookup (cmd : Nat) : KeepsNext may s (execEmbLookup cmd s) := by
  simp [execEmbLookup, effEmbLookup, sourceOps]

@[simp] theorem keepsNext_execEmbUpdate (cmd : Nat) : KeepsNext may s (execEmbUpdate cmd s) := by
  simp [execEmbUpdate, effEmbUpdate, sourceOps]

@[simp] theorem keepsNext_execEmbReplicate (cmd : Nat) : KeepsNext may s (execEmbReplicate cmd s) := by
  simp [execEmbReplicate, effEmbReplicate, sourceOps]

@[simp] theorem keepsNext_execMemInsert (cmd : Nat) : KeepsNext may s (execMemInsert cmd s) := by
  simp [execMemInsert, effMemInsert, sourceOps]

@[simp] theorem keepsNext_execMemDelete (cmd : Nat) : KeepsNext may s (execMemDelete cmd s) := by
  simp [execMemDelete, effMemDelete, sourceOps]

@[simp] theorem keepsNext_execMemSearch (cmd : Nat) : KeepsNext may s (execMemSearch cmd s) := by
  simp [execMemSearch, effMemSearch, sourceOps]

@[simp] theorem keepsNext_execMemCompact (cmd : Nat) : KeepsNext may s (execMemCompact cmd s) := by
  simp [execMemCompact, effMemCompact, sourceOps]

@[simp] theorem keepsNext_execModelLoad (cmd : Nat) (hmodels : may.models = true) (hmigrates : may.migrates = true) :
    KeepsNext may s (execModelLoad cmd s) := by
  simp [execModelLoad, effModelLoad, sourceOps, hmodels, hmigrates]

@[simp] theorem keepsNext_execModelUnload (cmd : Nat) (hmodels : may.models = true) (hvocabs : may.vocabs = true) :
    KeepsNext may s (execModelUnload cmd s) := by
  simp [execModelUnload, effModelUnload, sourceOps, hmodels, hvocabs]

@[simp] theorem keepsNext_execConstraintLoad (cmd : Nat) (hobjects : may.objects = true) :
    KeepsNext may s (execConstraintLoad cmd s) := by
  simp [execConstraintLoad, effConstraintLoad, sourceOps, hobjects]

@[simp] theorem keepsNext_execVocabLoad (cmd : Nat) (hmodels : may.models = true) (hmigrates : may.migrates = true) :
    KeepsNext may s (execVocabLoad cmd s) := by
  simp [execVocabLoad, effVocabLoad, sourceOps, hmodels, hmigrates]

@[simp] theorem keepsNext_execCkptTake (cmd : Nat) (hfreezes : may.freezes = true) :
    KeepsNext may s (execCkptTake cmd s) := by
  simp [execCkptTake, effCkptTake, sourceOps, hfreezes]

@[simp] theorem keepsNext_execCkptRestore (cmd : Nat) : KeepsNext may s (execCkptRestore cmd s) := by
  simp [execCkptRestore, effCkptRestore, sourceOps]

@[simp] theorem keepsNext_execTenantOpen (cmd : Nat) (htenants : may.tenants = true) :
    KeepsNext may s (execTenantOpen cmd s) := by
  simp [execTenantOpen, effTenantOpen, sourceOps, htenants]

@[simp] theorem keepsNext_execTenantClose (cmd : Nat) (htenants : may.tenants = true) (hmodels : may.models = true)
    (hvocabs : may.vocabs = true) (hobjects : may.objects = true) : KeepsNext may s (execTenantClose cmd s) := by
  simp [execTenantClose, effTenantClose, sourceOps, htenants, hmodels, hvocabs, hobjects]

@[simp] theorem steady_attemptWaiting (l : List Nat) (hfreezes : may.freezes = true) (htenants : may.tenants = true)
    (hmodels : may.models = true) (hvocabs : may.vocabs = true) (hobjects : may.objects = true)
    (hmigrates : may.migrates = true) : (attemptWaiting l s).steady may = s.steady may := by
  have tried (u : State) (id : Nat) (c : Cmd) :
      (u.attempt id c (effectOf c.desc.opcode)).steady may = u.steady may :=
    State.steady_attempt id c (fun _ _ _ _ => by simp [hfreezes, htenants, hmodels, hvocabs, hobjects])
      (.inr ⟨hmodels, hmigrates⟩)
  induction l generalizing s with
  | nil => rfl
  | cons id l ih =>
    unfold attemptWaiting
    repeat' split
    all_goals simp [ih, tried]

@[simp] theorem keepsNext_execWaitingCommandEffect (hobjects : may.objects = true) (hvocabs : may.vocabs = true)
    (hmodels : may.models = true) (htenants : may.tenants = true) (hfreezes : may.freezes = true)
    (hmigrates : may.migrates = true) : KeepsNext may s (execWaitingCommandEffect s) := by
  simp [execWaitingCommandEffect, hobjects, hvocabs, hmodels, htenants, hfreezes, hmigrates]

@[simp] theorem State.steady_sourceUnread (id : Nat) : (s.sourceUnread id).steady may = s.steady may := by
  simp only [State.sourceUnread]
  repeat' split
  all_goals simp

@[simp] theorem keepsNext_execSourceReadFail (cmd : Nat) (hmigrates : may.migrates = true)
    (hmodels : may.models = true) : KeepsNext may s (execSourceReadFail cmd s) := by
  simp [execSourceReadFail, hmigrates, hmodels]

end Sys2Proof.Machine
end

section
/-! ## What every command keeps -/
namespace Sys2Proof.Machine
variable {s t : State}

/-- The leave of a command: the parts of the state that the rules name for it. -/
def leaveOf (i : Instr) : Leave where
  boots := i.boots
  masks := i.masks
  accepts := i.accepts
  freezes := i.freezes
  tenants := i.changesTenants
  models := i.changesModels
  vocabs := i.changesVocabs
  objects := i.changesObjects
  migrates := i.migrates
  fabric := i.storesFabric
  hbm := i.storesHbm

theorem keepsNext_exec (i : Instr) (hr : i.resets = false) : KeepsNext (leaveOf i) s (exec i s) := by
  cases i with
  | rstDeviceCold | vinRise | vinUvFault | vinOvFault | vinOvRecovery | thermalTrip | resetNAssert | benchWatchdog
  | jtagInstruction | shutdown => cases hr
  | importCapsule cmd content => exact keepsNext_execImportCapsule _ _ rfl rfl
  | migrateIn cmd content word => exact keepsNext_execMigrateIn _ _ _ rfl rfl
  | reclaim cmd content word => exact keepsNext_execReclaim _ _ _ rfl rfl
  | modelLoad cmd => exact keepsNext_execModelLoad _ rfl rfl
  | modelUnload cmd => exact keepsNext_execModelUnload _ rfl rfl
  | constraintLoad cmd => exact keepsNext_execConstraintLoad _ rfl
  | vocabLoad cmd => exact keepsNext_execVocabLoad _ rfl rfl
  | ckptTake cmd => exact keepsNext_execCkptTake _ rfl
  | tenantOpen cmd => exact keepsNext_execTenantOpen _ rfl
  | tenantClose cmd => exact keepsNext_execTenantClose _ rfl rfl rfl rfl
  | waitingCommandEffect => exact keepsNext_execWaitingCommandEffect rfl rfl rfl rfl rfl rfl
  | descriptorFetch ring readable => exact keepsNext_execDescriptorFetch _ _ rfl
  | commandWatchdog cmd => exact keepsNext_execCommandWatchdog _ rfl rfl
  | sourceReadFail cmd => exact keepsNext_execSourceReadFail _ rfl rfl
  | tenBindGo value => exact keepsNext_execTenBindGo _ rfl
  | domainTransitionDone domain => exact keepsNext_execDomainTransitionDone _ rfl
  | autoIdleReturn domain => exact keepsNext_execAutoIdleReturn _ rfl
  | lifecycleAdvance session mctp payload y => exact keepsNext_execLifecycleAdvance _ _ _ _ rfl
  | leaseNote m word => exact keepsNext_execLeaseNote _ _ rfl
  | boot b => exact keepsNext_execBoot _ rfl
  | flr function => exact keepsNext_execFlr _ rfl
  | fabricTimeout device => exact keepsNext_execFabricTimeout _ rfl rfl rfl rfl
  | leaseCasResult addr found reread => exact keepsNext_execLeaseCasResult _ _ _ rfl rfl
  | leasePoll cmd word => exact keepsNext_execLeasePoll _ _ rfl
  | offerTimeout cmd => exact keepsNext_execOfferTimeout _ rfl
  | partialSlotFree slot => exact keepsNext_execPartialSlotFree _ rfl
  | embBatchCommit => exact keepsNext_execEmbBatchCommit rfl rfl
  | ckptTimer => exact keepsNext_execCkptTimer rfl
  | ckptStepCount => exact keepsNext_execCkptStepCount rfl
  | ckptCut => exact keepsNext_execCkptCut rfl
  | ckptFreezeEnd => exact keepsNext_execCkptFreezeEnd rfl
  | ckptManifestDone => exact keepsNext_execCkptManifestDone rfl
  | ckptAbort writeFail => exact keepsNext_execCkptAbort _ rfl
  | restoreDone words failed => exact keepsNext_execRestoreDone _ _ rfl rfl rfl rfl
  | modelLoadDone program => exact keepsNext_execModelLoadDone _ rfl
  | capsuleExportDone writeFail => exact keepsNext_execCapsuleExportDone _ rfl rfl
  | capsuleImportDone => exact keepsNext_execCapsuleImportDone rfl
  | finingPrepDone t => exact keepsNext_execFiningPrepDone _ rfl rfl rfl rfl
  | quietWindowClose => exact keepsNext_execQuietWindowClose rfl
  | finingPassEnd => exact keepsNext_execFiningPassEnd rfl
  | vocabLoadDone => exact keepsNext_execVocabLoadDone rfl
  | msixVectorUnmask function entry => exact keepsNext_execMsixVectorUnmask _ _ rfl
  | _ => simp [exec]

end Sys2Proof.Machine

open Sys2Proof Sys2Proof.Machine in
/-- Settles O58: by cases of the command, its whole effect being a chain of operations that each keep the steady part
(`keepsNext_exec`); what the command has no leave to change is then read off the steady part. -/
theorem rareStateKept : Obligations.RareStateKept := by
  intro i s t hrun hresets
  have hkept : t.steady (leaveOf i) = s.steady (leaveOf i) := (keepsNext_exec i hresets).eq hrun
  simp only [State.steady, leaveOf, Steady.mk.injEq] at hkept
  obtain ⟨-, htick, hboots, hmasks, haccepts, hfreeze, htenants, hmodels, hvocabs, hobjects, hmigrations, hfabric, hhbm⟩ :=
    hkept
  refine ⟨fun h => ⟨?_, ?_⟩, fun h => ?_, fun h => ?_, fun h => ?_, fun h => ?_, fun h => ?_, fun h => ?_, fun h => ?_,
    fun h => ?_, fun h a => ?_, fun h a => ?_⟩
  · simpa [h] using hboots
  · simpa [h] using htick
  · simpa [h] using hmasks
  · simpa [h] using haccepts
  · simpa [h] using hfreeze
  · simpa [h] using htenants
  · simpa [h] using hmodels
  · simpa [h] using hvocabs
  · simpa [h] using hobjects
  · simpa [h] using hmigrations
  · rw [show t.fabric = s.fabric by simpa [h] using hfabric]
  · rw [show t.hbm = s.hbm by simpa [h] using hhbm]
end

section
/-! ## What a write to BAR 0 does -/
namespace Sys2Proof.Machine
variable {s : State}

@[simp] theorem State.live_ungate : s.ungate.live = s.live := rfl

@[simp] theorem State.common_ungate (p : Nat) : s.ungate.common p = s.common p := rfl

@[simp] theorem State.ring_ungate (n : Nat) : s.ungate.ring n = s.ring n := rfl

theorem exec_badRegisterAccess (off : BitVec 26) (read : Bool) (h : s.live = true) :
    exec (.badRegisterAccess ⟨off, read⟩) s = .next (if read then
      { s.ungate.badAccess off.toNat with out := .regRead 0xFFFFFFFF :: (s.ungate.badAccess off.toNat).out }
      else s.ungate.badAccess off.toNat) := by
  simp [exec, execBadRegisterAccess, State.touch, h]

theorem exec_registerWrite (off : BitVec 26) (v : DWord) (wide : Bool) (h : s.live = true) :
    exec (.registerWrite off v wide) s = .next (s.ungate.registerWrite off.toNat v wide) := by
  simp [exec, execRegisterWrite, State.touch, h]

theorem State.registerWrite_unaligned {off : Nat} {v : DWord} {wide : Bool} (h : off % (if wide then 8 else 4) ≠ 0) :
    s.registerWrite off v wide = s.badAccess off :=
  if_pos h

theorem State.registerWrite_unassigned {off : Nat} {v : DWord} {wide : Bool} (halign : off % (if wide then 8 else 4) = 0)
    (hring : ringOf (off / 4096) = none) (hpage : isBlockPage (off / 4096) = false) : s.registerWrite off v wide = s := by
  simp [State.registerWrite, halign, hring, hpage]

theorem State.registerWrite_ctrl {off : Nat} {v : DWord} {wide : Bool} (halign : off % (if wide then 8 else 4) = 0)
    (hring : ringOf (off / 4096) = none) (hpage : isBlockPage (off / 4096) = true) (hoff : off % 4096 = 0x008) :
    s.registerWrite off v wide
      = s.setCommon (off / 4096) { s.common (off / 4096) with hold := bitAt v.toNat 3 } := by
  simp [State.registerWrite, halign, hring, hpage, hoff]

theorem State.registerWrite_fields {off : Nat} {v : DWord} {wide : Bool} (halign : off % (if wide then 8 else 4) = 0)
    (hring : ringOf (off / 4096) = none) (hpage : isBlockPage (off / 4096) = true) (hoff : 0x040 ≤ off % 4096) :
    s.registerWrite off v wide
      = s.writeFields (off / 4096) (s.writtenFields (off / 4096) (off % 4096) v wide) := by
  have hctrl : off % 4096 ≠ 0x008 := by omega
  simp [State.registerWrite, halign, hring, hpage, hctrl, hoff]

theorem ringOf_ringPage {n : Nat} (h : n < 256) : ringOf (512 + n) = some n := by
  have hlast : 512 + n < 768 := by omega
  simp [ringOf, pgRing, hlast]

theorem State.registerWrite_sizes {n : Nat} {v : DWord} (h : n < 256) :
    s.registerWrite (4096 * (512 + n) + 0x060) v false = s.ringSetup n (fun r =>
      { r with sqLog2 := bitsOf (v.toNat % 2 ^ 32) 0 5, cqLog2 := bitsOf (v.toNat % 2 ^ 32) 8 5 }) := by
  have hpage : (4096 * (512 + n) + 0x060) / 4096 = 512 + n := by omega
  have hoff : (4096 * (512 + n) + 0x060) % 4096 = 0x060 := by omega
  have halign : (4096 * (512 + n) + 0x060) % 4 = 0 := by omega
  simp [State.registerWrite, halign, hpage, hoff, ringOf_ringPage h, State.ringWrite, writeWords, State.ringWord]

theorem State.ring_ringInt (n k : Nat) (bits : Word) :
    (s.ringInt n bits).ring k = if k = n then { s.ring n with int := (s.ring n).int ||| bits } else s.ring k := by
  have hsent (t : State) (v f : Nat) : (t.sendMsi v f).ring k = t.ring k := State.ring_congr (by simp) k
  simp only [State.ringInt]
  split <;> simp [hsent, State.ring_setRing]

theorem State.ringSetup_disabled {n : Nat} {f : Ring → Ring} (h : (s.ring n).en = false) :
    s.ringSetup n f = s.setRing n (f (s.ring n)) := by
  simp [State.ringSetup, h]

theorem State.ring_ringSetup_enabled {n : Nat} {f : Ring → Ring} (k : Nat) (h : (s.ring n).en = true) :
    (s.ringSetup n f).ring k =
      if k = n then { s.ring n with lockErr := true, int := (s.ring n).int ||| 4 } else s.ring k := by
  simp only [State.ringSetup, h, if_true, State.ring_ringInt, State.ring_setRing]
  split <;> rfl

/-- The fields that a write names depend on the registers and the shadows alone. -/
theorem State.writtenFields_ungate (p off : Nat) (v : DWord) (wide : Bool) :
    s.ungate.writtenFields p off v wide = s.writtenFields p off v wide := rfl

end Sys2Proof.Machine

open Sys2Proof Sys2Proof.Machine in
/-- Settles O11: the accesses by alignment, page and offset, each by the lemma for its case. -/
theorem registerWrites : Obligations.RegisterWrites := by
  intro off v wide s hlive
  simp only [exec_badRegisterAccess _ _ hlive, exec_registerWrite _ _ _ hlive]
  refine ⟨rfl, ⟨_, rfl, rfl⟩, fun h => ?_, fun ha hr hp ho => ?_, fun ha hr hp => ?_, fun ha hr hp ho => ?_,
    fun n hn ho hw => ⟨fun hen => ?_, fun hen => ?_⟩⟩
  · rw [State.registerWrite_unaligned h, State.badAccess]
  · rw [State.registerWrite_fields ha hr hp ho, State.writtenFields_ungate]
  · rw [State.registerWrite_unassigned ha hr hp]
  · rw [State.registerWrite_ctrl ha hr hp ho, State.common_ungate]
  · have hopen : (s.ungate.ring n).en = false := hen
    rw [hw, ho, State.registerWrite_sizes hn, State.ringSetup_disabled hopen, State.ring_ungate]
  · have hlocked : (s.ungate.ring n).en = true := hen
    rw [hw, ho, State.registerWrite_sizes hn]
    refine ⟨_, rfl, ?_, fun k hk => ?_⟩
    · simp [State.ring_ringSetup_enabled n hlocked]
    · simp [State.ring_ringSetup_enabled k hlocked, hk]
end

section
/-! ## The reset state -/

open Sys2Proof Sys2Proof.Machine in
/-- Settles O53: every table of the reset state is empty, so every look-up in it gives the default. -/
theorem resetValues : Obligations.ResetValues := by
  have hinv : State.reset.inv :=
    ⟨fun _ _ h => by simp [State.reset] at h, by simp [State.lifecycleOk, State.reset]⟩
  have hcanonical : State.reset.canonical :=
    ⟨⟨rfl, rfl, rfl, rfl⟩, fun _ _ h => by simp [State.reset] at h, fun _ _ h => by simp [State.reset] at h⟩
  exact ⟨rfl, rfl, fun _ _ => rfl, by decide, by decide, fun _ => ⟨rfl, rfl⟩, fun _ => ⟨rfl, rfl⟩, rfl, rfl,
    fun _ => ⟨rfl, rfl, rfl, rfl, rfl, rfl, rfl, rfl, rfl⟩, hinv, hcanonical⟩
end

section
/-! ## A step has a next state -/
namespace Sys2Proof.Machine

theorem exec_next (i : Instr) (s : State) : ∃ t, exec i s = .next t := by
  cases i <;> exact ⟨_, rfl⟩

theorem safe (s : State) : Safe s := by
  unfold Safe step
  cases s.pending with
  | nil => exact ⟨_, rfl⟩
  | cons i rest => exact exec_next i _

end Sys2Proof.Machine

open Sys2Proof Sys2Proof.Machine in
/-- Settles O54: a step is the run of the front command by definition, and every command answers with a next state
(`exec_next`). -/
theorem stepRunsFront : Obligations.StepRunsFront :=
  ⟨fun _ _ _ => rfl, fun _ => rfl, safe⟩
end

section
/-! ## CTRL.EN of the serving blocks -/
namespace Sys2Proof.Machine
variable {s : State}

@[simp] theorem State.pageState_ungate (p : Nat) : s.ungate.pageState p = s.pageState p := rfl

@[simp] theorem State.enabled_ungate (p : Nat) : s.ungate.enabled p = s.enabled p := rfl

theorem State.touch_live (h : s.live = true) : s.touch = s.ungate := if_pos h

@[simp] theorem State.common_setPageState_self (p st : Nat) :
    (s.setPageState p st).common p = { s.common p with state := st } := State.common_setCommon_self ..

@[simp] theorem State.common_setEn_self (p : Nat) (b : Bool) : (s.setEn p b).common p = { s.common p with en := b } :=
  State.common_setCommon_self ..

/-- SDIR in INIT, its directory cleared (R97). -/
def State.sdirInit (s : State) : State :=
  { (s.setEn pgSdir true).setPageState pgSdir 2 with sdir := { ({} : Sdir) with init := true } }

theorem State.common_sdirInit : s.sdirInit.common pgSdir = { s.common pgSdir with en := true, state := 2 } := by
  have hc : s.sdirInit.common pgSdir = ((s.setEn pgSdir true).setPageState pgSdir 2).common pgSdir :=
    State.common_congr rfl _
  rw [hc, State.common_setPageState_self, State.common_setEn_self]

theorem sdirEnableOp_ok (hp : s.pageState pgSdir = 0) (hok : s.sdirOk = true) :
    sdirEnableOp s = (s.clearCounters pgSdir).sdirInit := by
  simp [sdirEnableOp, hp, hok, State.sdirInit]

theorem exec_sdirEnable (en : Bool) (h : s.live = true) :
    exec (.sdirEnable en) s = .next (if en then sdirEnableOp s.ungate else sdirDisableOp s.ungate) := by
  simp [exec, execSdirEnable, State.touch_live h, h]

end Sys2Proof.Machine

open Sys2Proof Sys2Proof.Machine in
/-- Settles O20: the enable rows of the live device, block by block, by the branch of the row that its state selects. -/
theorem servingEnables : Obligations.ServingEnables := by
  refine ⟨fun s => ⟨fun hl hp hok => ?_, fun hl hp hok => ?_, fun hl hp hs => ?_, fun hl hp hs => ?_, fun hp => ?_⟩,
    fun s hl => ⟨fun hp hok => ?_, fun hp hok => ?_, fun hp hm => ?_, fun hp hm => ?_, fun hp hok => ?_,
      fun hp hok => ?_, fun hp hr => ?_, fun hp hr => ?_⟩,
    fun s hl => ⟨fun hp => ?_, fun hp => ?_, fun hp hok => ?_, fun hp hok => ?_, fun hp ho => ?_, fun hp ho => ?_,
      fun hp => ?_, fun hp hr => ?_, fun hp hr => ?_⟩,
    fun s hl => ⟨fun hp => ?_, fun hp => ?_⟩⟩
  · have hp' : s.ungate.pageState pgSdir = 0 := hp
    rw [exec_sdirEnable _ hl, if_pos rfl, sdirEnableOp_ok hp' hok]
    exact ⟨_, rfl, congrArg Common.state State.common_sdirInit, congrArg Common.en State.common_sdirInit, rfl⟩
  · simp [exec_sdirEnable _ hl, sdirEnableOp, hp, hok]
  · simp [exec_sdirEnable _ hl, sdirDisableOp, hp, hs]
  · simp [exec_sdirEnable _ hl, sdirDisableOp, hp, hs]
  · simp [exec, execSdirInitDone, hp]
  · simp only [exec, execStmEnable, State.touch_live hl, State.live_ungate, hl, State.pageState_ungate, hp, hok,
      Bool.not_true, Bool.false_eq_true, if_false, if_true, ne_eq, not_true_eq_false]
  · simp [exec, execStmEnable, State.touch_live hl, hl, hp, hok]
  · simp [exec, execStmEnable, State.touch_live hl, hl, hp, hm]
  · simp [exec, execStmEnable, State.touch_live hl, hl, hp, hm]
  · simp [exec, execCaneEnable, State.touch_live hl, hl, hp, hok]
  · simp [exec, execCaneEnable, State.touch_live hl, hl, hp, hok]
  · simp [exec, execCaneEnable, State.touch_live hl, hl, hp, hr]
  · simp [exec, execCaneEnable, State.touch_live hl, hl, hp, hr]
  · simp [exec, execMrvEnable, State.touch_live hl, hl, hp]
  · simp [exec, execMrvEnable, State.touch_live hl, hl, hp]
  · simp [exec, execJckEnable, State.touch_live hl, hl, hp, hok]
  · simp [exec, execJckEnable, State.touch_live hl, hl, hp, hok]
  · simp [exec, execJckEnable, State.touch_live hl, hl, hp, ho]
  · simp [exec, execJckEnable, State.touch_live hl, hl, hp, ho]
  · simp [exec, execGafEnable, State.touch_live hl, hl, hp]
  · simp [exec, execGafEnable, State.touch_live hl, hl, hp, hr]
  · simp [exec, execGafEnable, State.touch_live hl, hl, hp, hr]
  · simp [exec, execAdmEnable, State.touch_live hl, hl, hp]
  · simp [exec, execAdmEnable, State.touch_live hl, hl, hp]
end

section
/-! ## Sessions and commands through completions, settling and the ends of waits and steps -/
namespace Sys2Proof.Machine
variable {s t : State}

/-! ### The tables -/

theorem State.session?_erase_sess (k j : Nat) :
    ({ s with sdir := { s.sdir with sess := s.sdir.sess.erase k } } : State).session? j
      = if j = k then none else s.session? j := Map.get?_erase _ _ _

/-- The sessions depend on the table of sessions alone. -/
theorem State.session?_congr_sess (h : t.sdir.sess = s.sdir.sess) (k : Nat) : t.session? k = s.session? k := by
  simp only [State.session?, h]

@[simp] theorem State.sess_setWays (set : Nat) (w : List Way) : (s.setWays set w).sdir.sess = s.sdir.sess := rfl

@[simp] theorem State.cmds_setWays (set : Nat) (w : List Way) : (s.setWays set w).cmds = s.cmds := rfl

@[simp] theorem State.session?_unlockEntry (slot k : Nat) : (s.unlockEntry slot).session? k = s.session? k := rfl

@[simp] theorem State.session?_dirtyEntry (slot k : Nat) : (s.dirtyEntry slot).session? k = s.session? k := by
  unfold State.dirtyEntry
  split <;> rfl

@[simp] theorem State.cmds_dirtyEntry (slot : Nat) : (s.dirtyEntry slot).cmds = s.cmds := by
  unfold State.dirtyEntry
  split <;> rfl

@[simp] theorem State.sdir_dropSource (id : Nat) : (s.dropSource id).sdir = s.sdir := by
  unfold State.dropSource
  repeat' split
  all_goals rfl

@[simp] theorem State.session?_dropSource (id k : Nat) : (s.dropSource id).session? k = s.session? k :=
  State.session?_congr (State.sdir_dropSource id) k

@[simp] theorem State.cmds_dropSource (id : Nat) : (s.dropSource id).cmds = s.cmds := by
  unfold State.dropSource
  repeat' split
  all_goals rfl

@[simp] theorem State.cmds_settleHeld (id : Nat) (c : Cmd) : (s.settleHeld id c).cmds = s.cmds := by
  unfold State.settleHeld
  split <;> simp

/-! ### What a completion does to its session: at most its count of misses rises -/

theorem State.sdir_completeH (id : Nat) (st : Status) (de r h : Nat) :
    (s.completeH id st de r h).sdir = s.sdir ∨
      ∃ k, (s.completeH id st de r h).sdir = (s.onSession k (fun x => { x with misses := satAdd 16 x.misses 1 })).sdir := by
  unfold State.completeH
  split
  · exact .inl rfl
  · next c hc =>
    simp only [State.release_frame, State.writeCompletion_frame]
    split
    all_goals simp only [State.bump_frame, State.account_frame, State.settleJob_frame]
    all_goals
      split
      · split
        · exact .inr ⟨_, rfl⟩
        · exact .inl rfl
      · exact .inl rfl

theorem map_misses_self (o : Option Session) : o.map (fun x => { x with misses := x.misses }) = o := by
  cases o <;> rfl

theorem State.session?_completeH (id : Nat) (st : Status) (de r h k : Nat) :
    ∃ m : Session → Nat, (s.completeH id st de r h).session? k = (s.session? k).map (fun x => { x with misses := m x }) := by
  rcases State.sdir_completeH (s := s) id st de r h with e | ⟨j, e⟩
  · exact ⟨Session.misses, by rw [State.session?_congr e, map_misses_self]⟩
  · rw [State.session?_congr e, State.session?_onSession]
    split
    · next hj => exact ⟨fun x => satAdd 16 x.misses 1, by rw [hj]⟩
    · exact ⟨Session.misses, (map_misses_self _).symm⟩

theorem State.session?_complete (id : Nat) (st : Status) (de r k : Nat) :
    ∃ m : Session → Nat, (s.complete id st de r).session? k = (s.session? k).map (fun x => { x with misses := m x }) :=
  State.session?_completeH ..

/-- A command that has its final completion is forgotten (R37). -/
theorem State.cmd?_complete_self (id : Nat) (st : Status) (de r : Nat) : (s.complete id st de r).cmd? id = none := by
  unfold State.complete State.completeH
  split
  · assumption
  · have erased (u : State) (h : u.cmds = s.cmds.erase id) : u.cmd? id = none := by
      rw [State.cmd?, h, Map.get?_erase_self]
    refine erased _ ?_
    simp only [State.release_frame, State.writeCompletion_frame]
    split
    all_goals simp only [State.bump_frame, State.account_frame, State.settleJob_frame]
    all_goals
      split
      · split <;> simp
      · rfl

/-! ### What settling does to a session: at most its WAIT_HELD goes -/

theorem State.session?_settled (id k : Nat) (c : Cmd) :
    ∃ b : Session → Bool, (t.settled s id c).session? k
      = (t.session? k).map (fun x => { x with waitHeld := x.waitHeld && b x }) := by
  have hd : (t.settled s id c).session? k = ((t.dropSource id).settleHeld id c).session? k := by
    simp only [State.settled]
    split <;> simp
  have kept : t.session? k = (t.session? k).map (fun x => { x with waitHeld := x.waitHeld && true }) := by
    cases t.session? k <;> simp
  rw [hd]
  unfold State.settleHeld
  split
  · rw [State.session?_onSession, State.session?_dropSource, State.session?_dropSource]
    split
    · next hk => subst hk; exact ⟨_, rfl⟩
    · exact ⟨_, kept⟩
  · rw [State.session?_dropSource]
    exact ⟨_, kept⟩

@[simp] theorem State.cmd?_settled (id i : Nat) (c : Cmd) : (t.settled s id c).cmd? i = t.cmd? i := by
  refine State.cmd?_congr ?_ i
  simp only [State.settled]
  split <;> simp

/-! ### What the end of a wait does to its session -/

theorem State.session?_endWait_isSome (slot k : Nat) (st : Status) (de : Nat) :
    ((s.endWait slot st de).session? k).isSome = (s.session? k).isSome := by
  unfold State.endWait
  split
  · rfl
  · next x hx =>
    split
    · rfl
    · obtain ⟨m, hm⟩ := State.session?_complete
        (s := s.setSession slot { x with wait := none, resumeTick := 0, reheat := none }) _ st de _ k
      rw [hm, Option.isSome_map, State.session?_setSession]
      split
      · next hk => rw [hk, hx]; rfl
      · rfl

end Sys2Proof.Machine
end

section
/-! ## SESS_QUERY and SESS_CLOSE -/
namespace Sys2Proof.Machine
variable {s t : State}

theorem State.session?_giveSlot_self (k : Nat) : (s.giveSlot k).session? k = none := by
  have gone : ({ s with sdir := { s.sdir with sess := s.sdir.sess.erase k } } : State).session? k = none := by
    rw [State.session?_erase_sess, if_pos rfl]
  unfold State.giveSlot
  simp only
  split
  · exact gone
  · split <;> exact gone

/-- What the slot of a CLOSED session holds once it may be freed is CLOSED. -/
theorem State.closed_freeClosed {k : Nat} (h : ∀ y, s.session? k = some y → y.runState = .closed) {y : Session}
    (hy : (s.freeClosed k).session? k = some y) : y.runState = .closed := by
  unfold State.freeClosed at hy
  split at hy
  · split at hy
    · rw [State.session?_unlockEntry, State.session?_giveSlot_self] at hy
      cases hy
    · exact h y hy
  · exact h y hy

theorem State.closed_closeSession {k : Nat} {y : Session} (hy : (s.closeSession k).1.session? k = some y) :
    y.runState = .closed := by
  unfold State.closeSession at hy
  split at hy
  · next hnone => rw [hnone] at hy; cases hy
  · refine State.closed_freeClosed (fun z hz => ?_) hy
    rw [State.session?_onSession, if_pos rfl] at hz
    obtain ⟨x, _, rfl⟩ := Option.map_eq_some_iff.1 hz
    rfl

/-- SESS_QUERY reads of its command the descriptor alone. -/
theorem exec_sessQuery {id : Nat} {c : Cmd} {x : Session} (hs : s.started id 0x13 c) (hn : s.names c x) :
    exec (.sessQuery id) s = .next ((opSessQuery (s.reaches id c) id c (handleSlot c.desc.handle)).settled s id c) :=
  congrArg Host.Outcome.next (State.commandRow_query s id c x effSessQuery hs hn)

theorem exec_sessClose {id : Nat} {c : Cmd} {x : Session} (h : s.readyOn id 0x11 c x) :
    exec (.sessClose id) s = .next ((opSessClose (s.atEffect id c x) id (handleSlot c.desc.handle)).settled s id c) :=
  congrArg Host.Outcome.next (State.commandRow_readyOn s id _ c x effSessClose h)

end Sys2Proof.Machine

open Sys2Proof Sys2Proof.Machine in
/-- Settles O15: the rows run their effects on the resolved session; a completion and its settling change the misses and
WAIT_HELD alone. -/
theorem sessionsQueriedAndClosed : Obligations.SessionsQueriedAndClosed := by
  refine ⟨fun s id c x hs hn => ?_, fun s id c x hc => ⟨_, exec_sessClose hc, rfl, fun y hy => ?_⟩⟩
  · have hx : (s.reaches id c).session? (handleSlot c.desc.handle) = some x := by
      obtain ⟨_, _, _, _, hx, _⟩ := hn
      exact hx
    simp only [exec_sessQuery hs hn, opSessQuery, hx]
    by_cases hp : c.desc.payLen = 64 <;> simp only [hp, if_true, if_false]
  · obtain ⟨b, hb⟩ := State.session?_settled id (handleSlot c.desc.handle) c
    obtain ⟨m, hm⟩ := State.session?_complete id .ok _ _ (handleSlot c.desc.handle)
    rw [opSessClose, hb, hm, Option.map_map] at hy
    obtain ⟨z, hz, rfl⟩ := Option.map_eq_some_iff.1 hy
    have hclosed : z.runState = .closed := State.closed_closeSession hz
    exact hclosed
end

section
/-! ## TOOL_WAIT and RESUME -/
namespace Sys2Proof.Machine
variable {s v : State}

@[simp] theorem State.tick_endWait (slot : Nat) (st : Status) (de : Nat) : (s.endWait slot st de).tick = s.tick := by
  unfold State.endWait
  repeat' split
  all_goals simp

/-! ### What the state mover's requests leave alone -/

@[simp] theorem State.sdir_setMove (n : Nat) (m : Move) : (s.setMove n m).sdir = s.sdir := rfl

@[simp] theorem State.sdir_addMove (m : Move) : (s.addMove m).sdir = s.sdir := rfl

@[simp] theorem State.sdir_askDemote (slot : Nat) (dst : Residency) (cmd : Option Nat) :
    (s.askDemote slot dst cmd).sdir = s.sdir := by
  unfold State.askDemote
  repeat' split
  all_goals simp

theorem State.sdir_runCmd (id : Nat) (free : Bool) : (s.runCmd id free).sdir = s.sdir := by simp

@[simp] theorem State.sdir_countRefusal (b : Bool) : (s.countRefusal b).sdir = s.sdir := by
  unfold State.countRefusal
  split <;> simp

@[simp] theorem State.sdir_tierChoice (slot w limit : Nat) (pressure : Bool) :
    (s.tierChoice slot w limit pressure).sdir = s.sdir := by
  simp only [State.tierChoice]
  repeat' split
  all_goals simp

theorem State.beginWait_session? {id k : Nat} {c : Cmd} {y : Session} (hy : v.session? k = some y) :
    ∃ w, (v.beginWait id c k).session? k = some w ∧ w.runState = .toolWait ∧ w.waitHeld = false ∧
      w.resumeTick = (if c.desc.specF 43 36 = 0 then 0 else min (c.effectTick v.tick + c.desc.specF 43 36) (2 ^ 64 - 1)) ∧
      w.wait.map (·.cmd) = some id := by
  obtain ⟨x, hx⟩ := Option.isSome_iff_exists.1 ((State.session?_endWait_isSome (s := v) k k .ok 1).trans (by rw [hy]; rfl))
  simp only [State.beginWait, hx, State.tick_endWait]
  rw [State.session?_congr (State.sdir_tierChoice ..), State.session?_congr (State.sdir_runCmd ..),
    State.session?_setSession_self]
  exact ⟨_, rfl, rfl, rfl, rfl, rfl⟩

theorem exec_toolWait {id : Nat} {c : Cmd} {x : Session} (h : s.readyOn id 0x1B c x) :
    exec (.toolWait id) s
      = .next ((opToolWait (s.atEffect id c x) id c.resolved (handleSlot c.desc.handle)).settled s id c) :=
  congrArg Host.Outcome.next (State.commandRow_readyOn s id _ c x effToolWait h)

/-- RESUME reads of its command the descriptor alone. -/
theorem exec_resume {id : Nat} {c : Cmd} {x : Session} (h : s.readyOn id 0x1C c x) :
    exec (.resume id) s = .next ((opResume (s.atEffect id c x) id c (handleSlot c.desc.handle)).settled s id c) :=
  congrArg Host.Outcome.next (State.commandRow_readyOn s id _ c x effResume h)

theorem opToolWait_passed {id k : Nat} {c : Cmd} (h : s.point id c k (c.desc.optBit 11) = .passed v) :
    opToolWait s id c k = v.beginWait id c k := by
  simp only [opToolWait, h]

end Sys2Proof.Machine

open Sys2Proof Sys2Proof.Machine in
/-- Settles O18: TOOL_WAIT by what beginning a wait leaves in its session, RESUME by the branch of the run state. -/
theorem waitsBeginAndEnd : Obligations.WaitsBeginAndEnd := by
  refine ⟨fun s v id c x y hc hp hy => ?_, fun s id c x y hc hy => ⟨fun hr => ?_, fun hr => ?_⟩⟩
  · obtain ⟨w, hw, hrun, hheld, hres, hcmd⟩ := State.beginWait_session? (id := id) (c := c.resolved) hy
    obtain ⟨b, hb⟩ := State.session?_settled (t := v.beginWait id c.resolved (handleSlot c.desc.handle)) (s := s) id
      (handleSlot c.desc.handle) c
    refine ⟨_, { w with waitHeld := w.waitHeld && b w }, ?_, rfl, by rw [hb, hw]; rfl, hrun, by simp [hheld], hres, hcmd⟩
    rw [exec_toolWait hc, opToolWait_passed hp]
  · simp only [exec_resume hc, opResume, hy, hr]
  · simp only [exec_resume hc, opResume, hy]
end

section
/-! ## Waiting commands, compactions that wait and promotions that wait -/
namespace Sys2Proof.Machine
variable {s : State}

/-- Commands that do not wait are passed over (R76). -/
theorem attemptWaiting_skip {pre l : List Nat} (h : ∀ i, i ∈ pre → ∀ d, s.cmd? i = some d → d.phase ≠ .waiting) :
    attemptWaiting (pre ++ l) s = attemptWaiting l s := by
  induction pre with
  | nil => rfl
  | cons i pre ih =>
    rw [List.cons_append, attemptWaiting, ih (fun j hj => h j (List.mem_cons_of_mem _ hj))]
    cases hc : s.cmd? i with
    | none => rfl
    | some d => simp [h i List.mem_cons_self d hc]

/-- The first waiting command that waits no longer after its attempt ends the row. -/
theorem attemptWaiting_effect {id : Nat} {c : Cmd} {l : List Nat} (hc : s.cmd? id = some c) (hw : c.phase = .waiting)
    (hop : c.desc.opcode ≠ 0x58)
    (h : (((s.attempt id c (effectOf c.desc.opcode)).settled s id c).cmd? id).map (·.phase) ≠ some .waiting) :
    attemptWaiting (id :: l) s = (s.attempt id c (effectOf c.desc.opcode)).settled s id c := by
  rw [attemptWaiting, hc]
  simp only
  rw [if_pos ⟨hw, hop⟩, if_neg h]

theorem State.attempt_close {id : Nat} {c : Cmd} {x : Session} (h : s.waitedOn id 0x11 c x) :
    s.attempt id c (effectOf c.desc.opcode) = opSessClose (s.atEffect id c x) id (handleSlot c.desc.handle) := by
  obtain ⟨_, _, hop, _, hf, hclear⟩ := h
  rw [State.attempt_clear s id _ c x _ hop hf hclear, hop]
  rfl

theorem exec_waitingCommandEffect {id : Nat} {pre post : List Nat} (hr : s.commandsRun = true)
    (hk : s.cmds.keys = pre ++ id :: post)
    (hpre : ∀ i, i ∈ pre → ∀ d, s.cmd? i = some d → d.phase ≠ .waiting) :
    exec .waitingCommandEffect s = .next (attemptWaiting (id :: post) s) := by
  simp only [exec, execWaitingCommandEffect, hr, if_true, hk, attemptWaiting_skip hpre]

theorem compact_none_stays {k : Nat} {x : Session} {w : CompactWait} (hx : s.session? k = some x)
    (hw : x.compact = some w) (hc : s.compact k x.rec'.params.budget w.since = none) (ue : Bool) :
    exec (.compactionSpaceReady ⟨k, ue⟩) s = .next s := by
  simp only [exec, execCompactionSpaceReady, hx, hw, hc]

/-- An uncorrectable error under the copies of a compaction (R190). -/
theorem compactionSpaceReady_ue {t : State} {k id : Nat} {x : Session} {w : CompactWait} (hx : s.session? k = some x)
    (hw : x.compact = some w) (ht : s.compact k x.rec'.params.budget w.since = some t) (hid : w.cmd = some id) :
    exec (.compactionSpaceReady ⟨k, true⟩) s = .next (((s.setSession k { x with compact := none, waitHeld := false }).recErr
      pgEvic 0x0002).endDelayed k x id .internal 0) := by
  simp only [exec, execCompactionSpaceReady, hx, hw, ht, if_true, State.compactUe, hid]

theorem compactionAbandon_late {k id : Nat} {x : Session} {w : CompactWait} (hx : s.session? k = some x)
    (hw : x.compact = some w) (hid : w.cmd = some id) (hlate : w.since + 10000000 ≤ s.tick) :
    exec (.compactionAbandon k) s = .next ((s.setSession k { x with compact := none, waitHeld := false }).endDelayed k x id
      .noSpace 8) := by
  simp only [exec, execCompactionAbandon, hx, hw, hid, if_pos hlate]

theorem State.endDelayed_step {k id : Nat} {x : Session} {st : Status} {de : Nat}
    (h : x.stepReq.map (·.cmd) = some id) : s.endDelayed k x id st de = s.endStep k st de := if_pos h

theorem State.endDelayed_other {k id : Nat} {x : Session} {st : Status} {de : Nat}
    (h : x.stepReq.map (·.cmd) ≠ some id) : s.endDelayed k x id st de = s.complete id st de := if_neg h

end Sys2Proof.Machine

open Sys2Proof Sys2Proof.Machine in
/-- Settles O21: the list of waiting commands is passed over up to the first that takes effect; the rows of a compaction and of
a promotion that wait, by their branches. -/
theorem waitersServed : Obligations.WaitersServed := by
  refine ⟨fun s id c pre post hr hk hpre => ⟨fun x hx => ?_, fun hc hw hop ht => ?_⟩,
    fun s k id x w hx hw => ⟨fun hc ue => ?_, fun t ht hid => ⟨fun hq => ⟨?_, ?_⟩, fun hq => ⟨?_, ?_⟩⟩,
      fun hid hlate => ⟨fun hq => ?_, fun hq => ?_⟩, fun hearly => ?_⟩,
    fun s n m l hl => ?_⟩
  · have hwaited := hx
    obtain ⟨hc, hw, hop, _⟩ := hwaited
    have ha := State.attempt_close hx
    rw [exec_waitingCommandEffect hr hk hpre, attemptWaiting_effect hc hw (by rw [hop]; decide), ha]
    · rfl
    · rw [State.cmd?_settled, ha, opSessClose, State.cmd?_complete_self]
      simp
  · rw [exec_waitingCommandEffect hr hk hpre, attemptWaiting_effect hc hw hop ht]
  · exact compact_none_stays hx hw hc ue
  · simp only [exec, execCompactionSpaceReady, hx, hw, ht, hid, if_neg hq, Bool.false_eq_true, if_false]
  · rw [compactionSpaceReady_ue hx hw ht hid, State.endDelayed_other hq]
  · simp only [exec, execCompactionSpaceReady, hx, hw, ht, hid, hq, Bool.false_eq_true, if_true, if_false]
  · rw [compactionSpaceReady_ue hx hw ht hid, State.endDelayed_step hq]
  · rw [compactionAbandon_late hx hw hid hlate, State.endDelayed_other hq]
  · rw [compactionAbandon_late hx hw hid hlate, State.endDelayed_step hq]
  · have hnot : ¬ w.since + 10000000 ≤ s.tick := by omega
    simp only [exec, execCompactionAbandon, hx, hw, hnot, if_false]
    cases w.cmd <;> rfl
  · simp only [exec, execPromotionSpaceTimeout, hl]
end

section
/-! ## Overstays, reheats and demotions of sessions that wait or idle -/
namespace Sys2Proof.Machine
variable {s : State}

theorem State.askDemote_hot {k : Nat} {x : Session} (hx : s.session? k = some x) (hhot : x.residency = .hot)
    (hno : s.moveOf k .demote = none) :
    s.askDemote k .warm none
      = s.addMove { slot := k, cls := .demote, src := .hot, dst := .warm, need := s.tick } := by
  simp [State.askDemote, hx, hhot, hno]

end Sys2Proof.Machine

open Sys2Proof Sys2Proof.Machine in
/-- Settles O22: each timer row in the branch that its session and the tick select. -/
theorem sessionTimers : Obligations.SessionTimers := by
  refine ⟨fun s k x w hx hw hrun hres hus => ⟨fun hnot hlate => ?_, fun hover => ?_⟩,
    fun s k f x h hx hh hen hre => ⟨fun hf hdue hlow => ?_, fun hf hdue hwarm => ?_⟩,
    fun s k x hen => ⟨fun hx hhot hout hidle hno => ?_, fun hx hage hwarm hrun hdue => ?_, fun hp hon => ?_,
      fun hp hoff => ?_, fun hp => ?_⟩⟩
  · simp [exec, execOverstay, hx, hw, hrun, hres, hus, hnot, hlate]
  · simp [exec, execOverstay, hx, hw, hover]
  · simp [exec, execReheatF1, hx, hh, hen, hre, hf, hdue, hlow]
  · simp [exec, execReheatF2, hx, hh, hen, hre, hf, hdue, hwarm]
  · simp [exec, execHotIdleDemote, hx, hen, hhot, hout, hidle, State.askDemote_hot hx hhot hno]
  · simp [exec, execAgeDemote, hx, hen, hage, hwarm, hrun, hdue]
  · simp [exec, execPressureDemotion, hen, hp, hon]
  · simp [exec, execPressureDemotion, hen, hp, hoff]
  · simp [exec, execPressureDemotion, hen, hp]
end

section
/-! ## What the operations on pages and tiers leave alone -/
namespace Sys2Proof.Machine
variable {s t : State}

/-- The state without page records and the index, without the space counts of the tiers, and without what the accounting of
slots writes: the moves of the state mover stay. -/
def State.pageless (s : State) : State :=
  { s.unaccounted with free := 0, cane := {}, stm := { moves := s.stm.moves, nextMove := s.stm.nextMove } }

theorem State.pageless_of_unaccounted (h : t.unaccounted = s.unaccounted) : t.pageless = s.pageless :=
  show t.unaccounted.pageless = s.unaccounted.pageless from congrArg State.pageless h

theorem State.of_pageless (e : t.pageless = s.pageless) :
    t.sdir = s.sdir ∧ t.window = s.window ∧ t.host = s.host ∧ t.fabric = s.fabric ∧ t.cmds = s.cmds ∧ t.tick = s.tick ∧
      t.models = s.models ∧ t.stm.moves = s.stm.moves :=
  ⟨(congrArg State.sdir e :), (congrArg State.window e :), (congrArg State.host e :), (congrArg State.fabric e :),
   (congrArg State.cmds e :), (congrArg State.tick e :), (congrArg State.models e :),
   (congrArg (fun u => u.stm.moves) e :)⟩

@[simp] theorem State.pageless_ite (c : Prop) [Decidable c] (t u : State) :
    (if c then t else u).pageless = if c then t.pageless else u.pageless := apply_ite _ _ _ _

@[simp] theorem State.pageless_bump (r : Reg) (i k : Nat) : (s.bump r i k).pageless = s.pageless :=
  State.pageless_of_unaccounted (State.unaccounted_bump ..)

@[simp] theorem State.pageless_setIntBit (p i : Nat) : (s.setIntBit p i).pageless = s.pageless :=
  State.pageless_of_unaccounted (State.unaccounted_setIntBit ..)

@[simp] theorem State.pageless_recErr (p code : Nat) : (s.recErr p code).pageless = s.pageless :=
  State.pageless_of_unaccounted
    ((State.unaccounted_setIntBit _ p 1).trans rfl : (s.recErr p code).unaccounted = s.unaccounted)

@[simp] theorem State.pageless_failPage (p code : Nat) : (s.failPage p code).pageless = s.pageless := by
  unfold State.failPage
  split
  · rfl
  · rw [State.pageless_setIntBit]
    exact (State.pageless_recErr p code :)

@[simp] theorem State.pageless_useFree (k : Nat) : (s.useFree k).pageless = s.pageless := by
  simp only [State.pageless, State.unaccounted, State.useFree]

@[simp] theorem State.pageless_heapTake (owner bytes : Nat) : (s.heapTake owner bytes).pageless = s.pageless := by
  unfold State.heapTake
  split <;> rfl

@[simp] theorem State.pageless_heapGive (owner bytes : Nat) : (s.heapGive owner bytes).pageless = s.pageless := by
  simp only [State.pageless, State.unaccounted, State.heapGive]

@[simp] theorem State.pageless_setPage (n : Nat) (p : PageRec) : (s.setPage n p).pageless = s.pageless := by
  simp only [State.pageless, State.unaccounted, State.setPage]

@[simp] theorem State.pageless_cane (cane : Cane) : ({ s with cane := cane } : State).pageless = s.pageless := by
  simp only [State.pageless, State.unaccounted]

@[simp] theorem State.pageless_used (flash pool : Nat) :
    ({ s with stm := { s.stm with flashUsed := flash, poolUsed := pool } } : State).pageless = s.pageless := by
  simp only [State.pageless, State.unaccounted]

@[simp] theorem State.pageless_onPage (n : Nat) (f : PageRec → PageRec) : (s.onPage n f).pageless = s.pageless := by
  unfold State.onPage
  split <;> simp

@[simp] theorem State.pageless_handOver (n : Nat) : (s.handOver n).pageless = s.pageless := by
  unfold State.handOver
  split <;> simp

@[simp] theorem State.pageless_pin (n : Nat) : (s.pin n).pageless = s.pageless := by
  simp [State.pin]

@[simp] theorem State.pageless_incRef (n : Nat) : (s.incRef n).pageless = s.pageless := by
  simp [State.incRef]

@[simp] theorem State.pageless_addUsers (l : List Nat) : (s.addUsers l).pageless = s.pageless :=
  foldl_keeps State.pageless _ (fun _ _ => State.pageless_onPage ..) l s

@[simp] theorem State.pageless_dropHbm (n : Nat) : (s.dropHbm n).pageless = s.pageless := by
  unfold State.dropHbm
  repeat' split
  all_goals simp

@[simp] theorem State.pageless_dropFlash (n : Nat) : (s.dropFlash n).pageless = s.pageless := by
  unfold State.dropFlash
  repeat' split
  all_goals simp

@[simp] theorem State.pageless_dropPool (n : Nat) : (s.dropPool n).pageless = s.pageless := by
  unfold State.dropPool
  repeat' split
  all_goals simp

@[simp] theorem State.pageless_dropIdleHbm (n : Nat) : (s.dropIdleHbm n).pageless = s.pageless := by
  unfold State.dropIdleHbm
  repeat' split
  all_goals simp

@[simp] theorem State.pageless_dropIdlePool (n : Nat) : (s.dropIdlePool n).pageless = s.pageless := by
  unfold State.dropIdlePool
  repeat' split
  all_goals simp

@[simp] theorem State.pageless_releaseFlash (fuel : Nat) : (releaseFlash fuel s).pageless = s.pageless := by
  induction fuel generalizing s with
  | zero => rfl
  | succ fuel ih =>
    unfold releaseFlash
    repeat' split
    all_goals simp [ih]

@[simp] theorem State.pageless_easeFlash : s.easeFlash.pageless = s.pageless := by
  simp [State.easeFlash]

@[simp] theorem State.pageless_releaseHeld (n : Nat) : (s.releaseHeld n).pageless = s.pageless := by
  simp only [State.releaseHeld, State.pageless_easeFlash]
  split <;> simp

@[simp] theorem State.pageless_unpin (n : Nat) : (s.unpin n).pageless = s.pageless := by
  unfold State.unpin
  repeat' split
  all_goals simp

@[simp] theorem State.pageless_seal (n : Nat) : (s.seal n).pageless = s.pageless := by
  unfold State.seal
  split <;> simp

@[simp] theorem State.pageless_setNode (n : Nat) (x : Node) : (s.setNode n x).pageless = s.pageless := by
  simp only [State.pageless, State.unaccounted, State.setNode]

@[simp] theorem State.pageless_onNode (n : Nat) (f : Node → Node) : (s.onNode n f).pageless = s.pageless := by
  unfold State.onNode
  split <;> simp

@[simp] theorem State.pageless_pruneNode (fuel n : Nat) : (pruneNode s fuel n).pageless = s.pageless := by
  induction fuel generalizing s n with
  | zero => rfl
  | succ fuel ih =>
    unfold pruneNode
    split
    · rfl
    · next x _ =>
      split
      · cases x.parent with
        | none => rfl
        | some p => exact (ih ..).trans (State.pageless_onNode ..)
      · rfl

@[simp] theorem State.pageless_prune (n : Nat) : (s.prune n).pageless = s.pageless :=
  State.pageless_pruneNode ..

/-- A page record with REFS 1 is allotted wherever one is free; the fields of the device stand (R106). -/
theorem State.allotPage_isSome {tenant model : Nat} {l : Layout} {slots : List Slot} (h : s.freeRecord.isNone = false) :
    ∃ n t, s.allotPage tenant model l slots = some (n, t) ∧ t.pageless = s.pageless ∧ t.regs = s.regs := by
  obtain ⟨n, hn⟩ : ∃ n, s.freeRecord = some n := by
    cases hn : s.freeRecord with
    | none => rw [hn] at h; cases h
    | some n => exact ⟨n, rfl⟩
  simp only [State.allotPage, hn]
  refine ⟨_, _, rfl, ?_, ?_⟩
  · split <;> simp
  · split <;> simp [State.heapTake, State.setPage] <;> split <;> rfl

end Sys2Proof.Machine
end

section
/-! ## Errors in the tables, and the freeing of page records -/
namespace Sys2Proof.Machine
variable {s t u : State}

/-! ### Lists without repetition -/

theorem contains_filter_ne (l : List Nat) (n : Nat) : (l.filter (· != n)).contains n = false := by
  simp

theorem contains_insert (l : List Nat) (n : Nat) : (if l.contains n then l else l ++ [n]).contains n = true := by
  split
  · assumption
  · simp

/-! ### Errors -/

/-- Where the common registers are those that recording an error leaves, ERR is 1 and the first code stands (R28, R30). -/
theorem State.recErr_recorded {p code : Nat} (h : t.commons = (u.recErr p code).commons) (hu : u.commons = s.commons) :
    (t.common p).err = true ∧ ((s.common p).code = 0 → (t.common p).code = code) := by
  rw [State.common_congr h p, State.common_recErr, if_pos rfl, State.common_congr hu p]
  exact ⟨rfl, fun hz => if_pos hz⟩

/-! ### Directory entries (R77, R79, R98) -/

/-- The fields that show the first bad slot. -/
def State.showBad (s : State) (slot : Nat) : State :=
  if s.regBit .SDIR_BAD_SLOT_VALID then s else (s.setReg .SDIR_BAD_SLOT_SLOT slot).setReg .SDIR_BAD_SLOT_VALID 1

theorem State.badEntry_eq (slot : Nat) : s.badEntry slot = { (s.showBad slot).recErr pgSdir 0x0001 with sdir := { s.sdir with
    badSlots := if s.sdir.badSlots.contains slot then s.sdir.badSlots else s.sdir.badSlots ++ [slot]
    freed := s.sdir.freed.filter (· != slot) } } := by
  have hs : ((s.showBad slot).recErr pgSdir 0x0001).sdir = s.sdir := by
    unfold State.showBad
    split <;> simp
  unfold State.badEntry
  simp only
  rw [← State.showBad, hs]

theorem State.commons_showBad (slot : Nat) : (s.showBad slot).commons = s.commons := by
  unfold State.showBad
  split <;> simp

theorem State.showBad_fields (slot : Nat) : (s.showBad slot).regBit .SDIR_BAD_SLOT_VALID = true ∧
    (s.showBad slot).reg .SDIR_BAD_SLOT_SLOT
      = (if s.regBit .SDIR_BAD_SLOT_VALID then s.reg .SDIR_BAD_SLOT_SLOT else slot % 2 ^ 24) := by
  unfold State.showBad
  split
  · next h => exact ⟨h, rfl⟩
  · refine ⟨by rw [State.regBit, State.reg_setReg_self]; rfl, ?_⟩
    rw [State.reg_setReg_ne _ _ _ _ _ _ (by decide) (by decide) (by decide), State.reg_setReg_self]
    rfl

/-- A miss that comes back with an uncorrectable error: the slot is out of use, and the error is recorded. -/
theorem dirMissFill_ue {slot : Nat} (h : s.sdir.missing.contains slot = true) :
    ∃ t, exec (.dirMissFill slot true) s = .next t ∧ t.sdir.badSlots.contains slot = true ∧
      t.sdir.missing.contains slot = false ∧ t.sdir.freed.contains slot = false ∧ t.sdir.sess = s.sdir.sess ∧
      t.commons = ((s.showBad slot).recErr pgSdir 0x0001).commons ∧ t.regs = (s.showBad slot).regs := by
  simp only [exec, execDirMissFill, h, if_true, State.badEntry_eq]
  exact ⟨_, rfl, contains_insert .., contains_filter_ne .., contains_filter_ne .., rfl, rfl, by simp⟩

/-- An entry that comes back to a set that holds it already fills no way. -/
theorem exec_dirMissFill_held {slot : Nat} (h : s.sdir.missing.contains slot = true)
    (hheld : (s.cacheWays (cacheSet slot)).any (fun w => w.tag == cacheTag slot) = true) :
    exec (.dirMissFill slot false) s
      = .next { s with sdir := { s.sdir with missing := s.sdir.missing.filter (· != slot) } } := by
  have hway : (s.uncached (cacheSet slot) || (s.wayOf slot).isSome) = true := by
    unfold State.wayOf
    cases s.uncached (cacheSet slot) with
    | true => rfl
    | false => simpa using hheld
  simp only [exec, execDirMissFill, h, if_true, hway, Bool.false_eq_true, if_false]

/-- A set whose tags failed their parity is served from HBM, and holds no way. -/
def State.disableSet (s : State) (n : Nat) : State :=
  { s.recErr pgSdir 0x0002 with sdir := { s.sdir with
      disabledSets := if s.sdir.disabledSets.contains n then s.sdir.disabledSets else s.sdir.disabledSets ++ [n],
      cache := s.sdir.cache.erase n } }

theorem exec_dirTagParity {set : BitVec 15} (hp : s.pageState pgSdir = 1) :
    exec (.dirTagParity set) s = .next (s.disableSet set.toNat) := by
  have hs : (s.recErr pgSdir 0x0002).sdir = s.sdir := by simp
  simp only [exec, execDirTagParity, if_pos hp, hs, State.disableSet]
  split
  · simp only [State.setWays, hs, if_true]
  · simp only [State.setWays, if_true]

/-! ### Page records (R138, R165, R188) -/

theorem State.page?_setPage (n k : Nat) (p : PageRec) : (s.setPage n p).page? k = if k = n then some p else s.page? k :=
  Map.get?_set ..

theorem State.page?_onPage (n k : Nat) (f : PageRec → PageRec) :
    (s.onPage n f).page? k = if k = n then (s.page? n).map f else s.page? k := by
  unfold State.onPage
  split
  · next p hp => rw [State.page?_setPage, hp]; rfl
  · next hp =>
    split
    · next hk => rw [hk, hp]; rfl
    · rfl

theorem State.page?_congr (h : t.cane = s.cane) (n : Nat) : t.page? n = s.page? n := by
  simp only [State.page?, h]

@[simp] theorem State.commons_onPage (n : Nat) (f : PageRec → PageRec) : (s.onPage n f).commons = s.commons := by
  unfold State.onPage
  split <;> rfl

@[simp] theorem State.sdir_onPage (n : Nat) (f : PageRec → PageRec) : (s.onPage n f).sdir = s.sdir :=
  (State.of_pageless (State.pageless_onPage ..)).1

theorem State.cutLoses_eq (p : Session → Bool) : ∃ b ckp, s.cutLoses p = (b, { s with ckp := ckp }) := by
  unfold State.cutLoses
  split
  · exact ⟨false, s.ckp, rfl⟩
  · exact ⟨_, _, rfl⟩

/-- The checkpoint alone takes note that a page it reads is bad: page records, sessions and the page of CANE stand (R421). -/
theorem State.sourceUe_keeps (n : Nat) : (s.sourceUe n).cane = s.cane ∧ (s.sourceUe n).sdir = s.sdir ∧
    (s.sourceUe n).common pgCane = s.common pgCane := by
  have kept (b : Bool) (u : State) (hc : u.cane = s.cane) (hd : u.sdir = s.sdir) (hm : u.commons = s.commons) :
      let v := if b then u.recErr pgCkp 0x0004 else u
      v.cane = s.cane ∧ v.sdir = s.sdir ∧ v.common pgCane = s.common pgCane := by
    cases b with
    | false => exact ⟨hc, hd, State.common_congr hm _⟩
    | true =>
      refine ⟨by simp [hc], by simp [hd], ?_⟩
      rw [if_pos rfl, State.common_recErr, if_neg (by decide)]
      exact State.common_congr hm _
  obtain ⟨b, ckp, h⟩ := State.cutLoses_eq (s := s) (fun x => x.frames.contains n)
  unfold State.sourceUe
  rw [h]
  exact kept b _ rfl rfl rfl

/-- A page record in which an uncorrectable error was found, and its message (R188). -/
def State.pageBad (s : State) (n : Nat) : State := (s.onPage n (fun p => { p with bad := true })).recErr pgCane 0x0001

theorem exec_pageRecordUe {n : Nat} {p : PageRec} (hen : s.enabled pgCane = true) (hp : s.page? n = some p) :
    exec (.pageRecordUe false n) s = .next (if p.ckptReads = 0 then s.pageBad n else (s.pageBad n).sourceUe n) := by
  simp [exec, execPageRecordUe, hen, hp, State.pageBad]

theorem State.page?_pageBad {n : Nat} {p : PageRec} (hp : s.page? n = some p) (k : Nat) :
    (s.pageBad n).page? k = if k = n then some { p with bad := true } else s.page? k := by
  have hc : (s.pageBad n).cane = (s.onPage n (fun p => { p with bad := true })).cane := by simp [State.pageBad]
  rw [State.page?_congr hc, State.page?_onPage, hp]
  rfl

theorem State.sdir_pageBad (n : Nat) : (s.pageBad n).sdir = s.sdir := by simp [State.pageBad]

/-- A session that holds a bad page is one whose commands complete with INTERNAL (R188). -/
theorem State.holdsBad_of {n : Nat} {x : Session} (hb : (s.page? n).map (·.bad) = some true)
    (hx : x.frames.contains n = true) : s.holdsBad x = true := by
  refine List.any_eq_true.2 ⟨n, List.contains_iff_mem.1 hx, ?_⟩
  rw [hb]
  rfl

/-- What an uncorrectable error in a page record leaves (R188). -/
theorem pageRecordUe_record {n : Nat} {p : PageRec} (hen : s.enabled pgCane = true) (hp : s.page? n = some p) :
    ∃ t, exec (.pageRecordUe false n) s = .next t ∧ (t.page? n).map (·.bad) = some true ∧ t.sdir = s.sdir ∧
      t.common pgCane = (s.pageBad n).common pgCane := by
  have hbad : ((s.pageBad n).page? n).map (·.bad) = some true := by rw [State.page?_pageBad hp, if_pos rfl]; rfl
  rw [exec_pageRecordUe hen hp]
  split
  · exact ⟨_, rfl, hbad, State.sdir_pageBad n, rfl⟩
  · obtain ⟨hcane, hsdir, hcommon⟩ := State.sourceUe_keeps (s := s.pageBad n) n
    exact ⟨_, rfl, by rw [State.page?_congr hcane]; exact hbad, hsdir.trans (State.sdir_pageBad n), hcommon⟩

/-- A command of a session that holds a bad page (R188). -/
theorem State.attempt_bad {id : Nat} {c : Cmd} {x : Session} (eff : Effect) (hf : s.failed pgGlb = false)
    (h0 : c.desc.handle ≠ 0) (hen : s.enabled pgSdir = true)
    (hm : s.sdir.missing.contains (handleSlot c.desc.handle) = false) (hres : s.resolve c.desc = none)
    (hx : s.session? (handleSlot c.desc.handle) = some x) (hbad : s.holdsBad x = true) :
    s.attempt id c eff = (s.reaches id c).complete id .internal := by
  have hbad' : (s.reaches id c).holdsBad x = true := hbad
  unfold State.attempt State.attemptSession
  rw [if_neg (by simp [hf]), if_neg h0]
  simp only [hen, Bool.not_true, Bool.false_eq_true, if_false, hm, hres, hx]
  exact if_pos hbad'

theorem exec_sessClose_bad {id : Nat} {c : Cmd} {x : Session} (hs : s.started id 0x11 c) (h0 : c.desc.handle ≠ 0)
    (hen : s.enabled pgSdir = true) (hm : s.sdir.missing.contains (handleSlot c.desc.handle) = false)
    (hres : s.resolve c.desc = none) (hx : s.session? (handleSlot c.desc.handle) = some x) (hbad : s.holdsBad x = true) :
    exec (.sessClose id) s = .next (((s.reaches id c).complete id .internal).settled s id c) := by
  obtain ⟨hc, hph, hop, hrun, hf⟩ := hs
  simp only [exec, execSessClose, State.commandRow, hc, hph, hop, hrun, and_self, if_true,
    State.attempt_bad effSessClose hf h0 hen hm hres hx hbad]

theorem State.node?_onNode_self {n : Nat} {d : Node} (f : Node → Node) (hd : s.node? n = some d) :
    (s.onNode n f).node? n = some (f d) := by
  simp only [State.onNode, hd]
  exact Map.get?_set_self ..

theorem State.node?_congr (h : t.cane = s.cane) (n : Nat) : t.node? n = s.node? n := by
  simp only [State.node?, h]

@[simp] theorem State.commons_onNode (n : Nat) (f : Node → Node) : (s.onNode n f).commons = s.commons := by
  unfold State.onNode
  split <;> rfl

/-- A node in which an uncorrectable error was found, and its message (R188). -/
def State.nodeBad (s : State) (n : Nat) : State := (s.onNode n (fun x => { x with bad := true })).recErr pgCane 0x0004

theorem exec_pageRecordUe_node {n : Nat} {d : Node} (hen : s.enabled pgCane = true) (hd : s.node? n = some d) :
    exec (.pageRecordUe true n) s = .next (s.nodeBad n) := by
  simp [exec, execPageRecordUe, hen, hd, State.nodeBad]

theorem State.node?_nodeBad {n : Nat} {d : Node} (hd : s.node? n = some d) :
    (s.nodeBad n).node? n = some { d with bad := true } := by
  have hc : (s.nodeBad n).cane = (s.onNode n (fun x => { x with bad := true })).cane := by simp [State.nodeBad]
  rw [State.node?_congr hc, State.node?_onNode_self _ hd]

theorem State.sdir_nodeBad (n : Nat) : (s.nodeBad n).sdir = s.sdir := by
  have h : (s.onNode n (fun x => { x with bad := true })).sdir = s.sdir := (State.of_pageless (State.pageless_onNode ..)).1
  simp [State.nodeBad, h]

/-! ### The slots that wait for a record (R80) -/

/-- The state without the directory. -/
def State.dirless (s : State) : State := { s with sdir := {} }

@[simp] theorem State.dirless_onSession (k : Nat) (f : Session → Session) : (s.onSession k f).dirless = s.dirless := by
  unfold State.onSession
  split <;> rfl

@[simp] theorem State.dirless_unlockEntry (k : Nat) : (s.unlockEntry k).dirless = s.dirless := by
  simp only [State.unlockEntry, State.setWays, State.dirless]

@[simp] theorem State.dirless_giveSlot (k : Nat) : (s.giveSlot k).dirless = s.dirless := by
  unfold State.giveSlot
  simp only
  split
  · rfl
  · split <;> rfl

@[simp] theorem State.dirless_freeClosed (k : Nat) : (s.freeClosed k).dirless = s.dirless := by
  unfold State.freeClosed
  repeat' split
  all_goals simp

/-- When a record goes, the slots that wait for it change nothing but the directory. -/
theorem State.dirless_letGoAll (n : Nat) (l : List Nat) : (l.foldl (fun s k => s.letGo n k) s).dirless = s.dirless :=
  foldl_keeps State.dirless _ (fun u k => by simp [State.letGo]) l s

/-- A record is out of the table, and out of what is handed to page reclamation. -/
def State.dropRecord (s : State) (n : Nat) : State :=
  { s with cane := { s.cane with recs := s.cane.recs.erase n, reclaim := s.cane.reclaim.filter (· != n) } }

theorem freeRecordOp_eq {n : Nat} {p : PageRec} (dead : Bool) (hp : s.page? n = some p) :
    ∃ u : State, u.pageless = s.pageless ∧ freeRecordOp s n dead = (u.dropRecord n).bump .CANE_FREED_COUNT := by
  unfold freeRecordOp
  simp only [hp]
  refine ⟨_, ?_, rfl⟩
  repeat' split
  all_goals simp

theorem freeRecordOp_record {n : Nat} {p : PageRec} (dead : Bool) (hp : s.page? n = some p) :
    (freeRecordOp s n dead).page? n = none ∧ (freeRecordOp s n dead).cane.reclaim.contains n = false ∧
      (freeRecordOp s n dead).pageless = s.pageless := by
  obtain ⟨u, hu, he⟩ := freeRecordOp_eq dead hp
  have hcane : (freeRecordOp s n dead).cane = (u.dropRecord n).cane := by rw [he]; simp
  refine ⟨(State.page?_congr hcane n).trans (Map.get?_erase_self ..), ?_, ?_⟩
  · rw [hcane]
    exact contains_filter_ne ..
  · rw [he, State.pageless_bump, State.dropRecord, State.pageless_cane, hu]

theorem exec_pageFree_idle {n : Nat} {l : List Nat} {p : PageRec} (hf : s.failed pgCane = false)
    (hl : s.cane.reclaim = n :: l) (hp : s.page? n = some p) (hr : p.refs = 0) (hpin : p.pins = 0)
    (hck : p.ckptReads = 0) : exec .pageFree s
      = .next ((s.waitersFor n).foldl (fun s k => s.letGo n k) (freeRecordOp s n (s.poolDead p))) := by
  simp only [exec, execPageFree, hf, State.reclaimFirst, hl, hp, hr, hpin, hck, ne_eq, not_true_eq_false, or_self,
    Bool.false_eq_true, if_false]

/-- PAGE_FREE of a record that nothing refers to, pins or reads (R138, R165, R418). -/
theorem pageFree_idle {n : Nat} {l : List Nat} {p : PageRec} (hf : s.failed pgCane = false)
    (hl : s.cane.reclaim = n :: l) (hp : s.page? n = some p) (hr : p.refs = 0) (hpin : p.pins = 0)
    (hck : p.ckptReads = 0) : ∃ t, exec .pageFree s = .next t ∧ t.page? n = none ∧ t.cane.reclaim.contains n = false ∧
      t.window = s.window ∧ t.host = s.host ∧ t.fabric = s.fabric := by
  refine ⟨_, exec_pageFree_idle hf hl hp hr hpin hck, ?_⟩
  obtain ⟨hgone, hreclaim, hrest⟩ := freeRecordOp_record (s.poolDead p) hp
  obtain ⟨-, hw, hh, hfab, -⟩ := State.of_pageless hrest
  generalize ht : (s.waitersFor n).foldl (fun s k => s.letGo n k) (freeRecordOp s n (s.poolDead p)) = t
  have hdir : t.dirless = (freeRecordOp s n (s.poolDead p)).dirless := by rw [← ht, State.dirless_letGoAll]
  have hcane : t.cane = (freeRecordOp s n (s.poolDead p)).cane := (congrArg State.cane hdir :)
  exact ⟨(State.page?_congr hcane n).trans hgone, by rw [hcane, hreclaim], (congrArg State.window hdir :).trans hw,
    (congrArg State.host hdir :).trans hh, (congrArg State.fabric hdir :).trans hfab⟩

theorem pageFree_held {n : Nat} {l : List Nat} {p : PageRec} (hf : s.failed pgCane = false)
    (hl : s.cane.reclaim = n :: l) (hp : s.page? n = some p) (hheld : p.refs ≠ 0 ∨ p.pins ≠ 0 ∨ p.ckptReads ≠ 0) :
    exec .pageFree s = .next s := by
  have h : p.ckptReads ≠ 0 ∨ p.refs ≠ 0 ∨ p.pins ≠ 0 := by tauto
  simp only [exec, execPageFree, hf, State.reclaimFirst, hl, hp, if_pos h, Bool.false_eq_true, if_false]

/-! ### Rows of embedding tables and groups of collections (R342, R369) -/

/-- The row is marked; a store makes it good again (R342). -/
def State.rowBad (s : State) (table row : Nat) : State :=
  { s with emb := { s.emb with badRows := if s.emb.badRows.contains (rowKey table row) then s.emb.badRows
                                          else rowKey table row :: s.emb.badRows } }

theorem exec_embRowUe_primary {table row stack : Nat} (hen : s.enabled pgEmb = true) (hu : s.tblUsable table = true)
    (hr : s.tblRemote table = false) :
    exec (.embRowUe table row stack true) s = .next ((s.rowBad table row).recErr pgEmb 0x0001) := by
  simp only [exec, execEmbRowUe, hen, hu, hr, Bool.not_true, Bool.or_self, Bool.false_eq_true, if_false, if_true,
    State.rowBad]

/-- A collection one of whose groups, or with `graph` a node or list page, has failed (R369). -/
def State.groupFailed (s : State) (k : Nat) (graph : Bool) : State :=
  if graph then (s.setColl k { s.coll k with failed := true }).recErr pgSrch 0x0002
  else ((s.setColl k { s.coll k with failed := true }).recErr pgSrch 0x0001).setIntBit pgSrch 11

theorem exec_groupFail {k : Nat} (graph : Bool) (hen : s.enabled pgSrch = true)
    (hv : s.regBit .SRCH_COLL_CFG_VALID k = true) : exec (.groupFail k graph) s = .next (s.groupFailed k graph) := by
  simp only [exec, execGroupFail, hen, hv, Bool.and_self, if_true, State.groupFailed]

theorem State.coll_congr (h : t.srch = s.srch) (k : Nat) : t.coll k = s.coll k := by
  simp only [State.coll, h]

theorem State.coll_groupFailed (k j : Nat) (graph : Bool) :
    (s.groupFailed k graph).coll j = if j = k then { s.coll k with failed := true } else s.coll j := by
  have hsrch : (s.groupFailed k graph).srch = (s.setColl k { s.coll k with failed := true }).srch := by
    cases graph <;> simp [State.groupFailed]
  rw [State.coll_congr hsrch, State.coll_setColl]

theorem State.common_groupFailed (k : Nat) (graph : Bool) : ((s.groupFailed k graph).common pgSrch).err = true ∧
    ((s.common pgSrch).code = 0 → ((s.groupFailed k graph).common pgSrch).code = if graph then 2 else 1) := by
  cases graph with
  | true => exact State.recErr_recorded (s := s) (code := 0x0002) rfl rfl
  | false =>
    simp only [State.groupFailed, Bool.false_eq_true, if_false, State.setIntBit, State.common_setInt, if_true]
    exact State.recErr_recorded (s := s) (code := 0x0001) rfl rfl

end Sys2Proof.Machine

open Sys2Proof Sys2Proof.Machine in
/-- Settles O23: each error row by what it leaves of the table it reads, and by what recording an error leaves. -/
theorem tableErrors : Obligations.TableErrors := by
  refine ⟨fun s slot set => ⟨fun hm => ?_, fun hm hheld => exec_dirMissFill_held hm hheld,
      fun hp => ⟨_, exec_dirTagParity hp, contains_insert .., ?_, ?_⟩⟩,
    fun s n p d hen => ⟨fun hp => ?_, fun id c x hs h0 hd hm hres hx hbad => exec_sessClose_bad hs h0 hd hm hres hx hbad,
      fun hd => ?_⟩,
    fun s n l p hf hl hp => ⟨fun hr hpin hck => pageFree_idle hf hl hp hr hpin hck, fun hheld => pageFree_held hf hl hp hheld⟩,
    fun s => ⟨fun table row stack hen hu hr => ⟨?_, fun i h hh hb hpr => ?_, fun hh => ?_⟩, fun k graph hen hv => ?_⟩⟩
  · obtain ⟨t, ht, hbad, hmiss, hfreed, hsess, hcommons, hregs⟩ := dirMissFill_ue hm
    obtain ⟨herr, hcode⟩ := State.recErr_recorded hcommons (State.commons_showBad slot)
    obtain ⟨hvalid, hslot⟩ := State.showBad_fields (s := s) slot
    exact ⟨t, ht, hbad, hmiss, hfreed, hsess, herr, hcode, (State.regBit_congr hregs ..).trans hvalid,
      (State.reg_congr hregs ..).trans hslot⟩
  · simp [State.cacheWays, State.disableSet, Map.getD]
  · obtain ⟨herr, hcode⟩ := State.recErr_recorded (s := s) (t := s.disableSet set.toNat) rfl rfl
    exact ⟨herr, hcode, rfl⟩
  · obtain ⟨t, ht, hbad, hsdir, hcommon⟩ := pageRecordUe_record hen hp
    obtain ⟨herr, hcode⟩ := State.recErr_recorded (t := s.pageBad n) rfl (State.commons_onPage ..)
    refine ⟨t, ht, hbad, by rw [hcommon]; exact herr, by rw [hcommon]; exact hcode, hsdir, fun k x hx hn => ?_⟩
    exact ⟨(State.session?_congr hsdir k).trans hx, State.holdsBad_of hbad hn⟩
  · obtain ⟨herr, hcode⟩ := State.recErr_recorded (t := s.nodeBad n) rfl (State.commons_onNode ..)
    refine ⟨_, exec_pageRecordUe_node hen hd, ?_, herr, hcode, State.sdir_nodeBad n⟩
    rw [State.node?_nodeBad hd]
    rfl
  · obtain ⟨herr, -⟩ := State.recErr_recorded (s := s) (t := (s.rowBad table row).recErr pgEmb 0x0001) rfl rfl
    refine ⟨_, exec_embRowUe_primary hen hu hr, ?_, herr, by simp [State.rowBad], by simp [State.rowBad]⟩
    have hemb : ((s.rowBad table row).recErr pgEmb 0x0001).emb = (s.rowBad table row).emb := by simp
    rw [hemb]
    simp only [State.rowBad]
    split
    · assumption
    · simp
  · simp [exec, execEmbRowUe, hen, hu, hr, hh, hb, hpr]
  · simp [exec, execEmbRowUe, hen, hu, hr, hh]
  · obtain ⟨herr, hcode⟩ := State.common_groupFailed (s := s) k graph
    have hc (j : Nat) := State.coll_groupFailed (s := s) k j graph
    refine ⟨_, exec_groupFail graph hen hv, ?_, ?_, fun j hj => ?_, herr, hcode⟩
    · rw [hc, if_pos rfl]
    · rw [hc, if_pos rfl]
    · rw [hc, if_neg hj]
end

section
/-! ## Moves between tiers -/
namespace Sys2Proof.Machine
variable {s t : State}

/-! ### The end of a move -/

theorem State.pageless_eraseMove (n : Nat) :
    (s.eraseMove n).pageless = ({ s with stm := { s.stm with moves := s.stm.moves.erase n } } : State).pageless := by
  unfold State.eraseMove
  simp only
  split
  · exact State.pageless_unpin ..
  · rfl

@[simp] theorem State.sdir_eraseMove (n : Nat) : (s.eraseMove n).sdir = s.sdir :=
  (State.of_pageless (State.pageless_eraseMove n)).1

@[simp] theorem State.moves_eraseMove (n : Nat) : (s.eraseMove n).stm.moves = s.stm.moves.erase n := by
  obtain ⟨-, -, -, -, -, -, -, hm⟩ := State.of_pageless (State.pageless_eraseMove (s := s) n)
  exact hm

theorem State.move_eraseMove_self (n : Nat) : (s.eraseMove n).stm.moves.get? n = none := by
  rw [State.moves_eraseMove]
  exact Map.get?_erase_self ..

theorem State.session?_eraseMove (n k : Nat) : (s.eraseMove n).session? k = s.session? k :=
  State.session?_congr (State.sdir_eraseMove n) k

theorem State.session?_bump (r : Reg) (i n k : Nat) : (s.bump r i n).session? k = s.session? k :=
  State.session?_congr (by simp) k

/-- A session that is not leased uses no validation and issues no read of one (R396). -/
theorem State.session?_useLease {k : Nat} {x : Session} (hx : s.session? k = some x) (hl : x.leased = false) :
    (s.useLease k).session? k = some x := by
  simp [State.useLease, State.session?_onSession, hx, hl]

theorem State.session?_issueRead {k : Nat} {x : Session} (hx : s.session? k = some x) (hl : x.leased = false) :
    (s.issueRead k).session? k = some x := by
  simp [State.issueRead, State.session?_onSession, hx, hl]

theorem State.stm_issueRead (k : Nat) : (s.issueRead k).stm = s.stm := by simp [State.issueRead]

theorem State.leaseOk_unleased {x : Session} (hl : x.leased = false) : s.leaseOk x = true := by
  simp [State.leaseOk, hl]

/-! ### MOVE_START -/

theorem exec_moveStart (hen : s.enabled pgStm = true) (hf : s.freeze = 0)
    (hst : s.waitingMoves.filter (fun e => s.staleMove e.2) = []) : exec .moveStart s = .next
      ((s.waitingMoves.findSome? (fun e => (s.tryStart e.1 e.2).map (fun t => t.issueRead e.2.slot))).getD s.lockStall) := by
  have hdrop : s.dropStale = s := by rw [State.dropStale, hst, List.foldl_nil]
  simp only [exec, execMoveStart, hen, hf, and_self, if_true, hdrop]
  cases s.waitingMoves.findSome? (fun e => (s.tryStart e.1 e.2).map (fun t => t.issueRead e.2.slot)) <;> rfl

/-- A HOT session between steps is WARM as soon as its demotion gets a context (R135). -/
theorem State.tryStart_hotToWarm {n ctx : Nat} {m : Move} {x : Session} (hx : s.session? m.slot = some x)
    (hctx : s.freeCtx .demote = some ctx) (hcls : m.cls = .demote) (hdst : m.dst = .warm) (hsrc : m.src = .hot)
    (hjob : m.job = none) (hwb : m.writebackOnly = false) (hres : x.residency = .hot) (hcomp : x.compact = none)
    (hdue : x.compactDue = none) (hrun : x.runState ≠ .running) (hl : x.leased = false) :
    s.tryStart n m = some (((s.hotToWarm m.slot).useLease m.slot).eraseMove n) := by
  have hbetween : x.betweenSteps = true := by simpa [Session.betweenSteps] using hrun
  simp [State.tryStart, hx, hcls, hctx, hjob, hwb, hres, hsrc, hcomp, hdue, hdst, hbetween, State.leaseOk_unleased hl]

theorem State.session?_hotToWarm {k : Nat} {x : Session} (hx : s.session? k = some x) :
    (s.hotToWarm k).session? k = some { x with residency := .warm, seat := none } := by
  rw [State.hotToWarm, State.session?_bump, State.session?_onSession, if_pos rfl, hx]
  rfl

/-! ### TILE_TRANSFER -/

/-- The ports of the next tile are charged, and its read in a pool is sent (R142, R382). -/
def State.tileCharged (s : State) (m : Move) (t : MTile) : State :=
  ((s.tilePorts m t).foldl (fun s q => s.charge q.1 m.cls.code q.2) s).readPool m t

theorem exec_tileTransfer {n : Nat} {m : Move} (o : TileOutcome) (hn : s.nextTransfer = some (n, m)) (hf : s.freeze = 0) :
    exec (.tileTransfer o) s = .next (s.transfer n m o) := by
  simp only [exec, execTileTransfer, hn, hf, if_true]

theorem State.transfer_cancelled {n : Nat} {m : Move} {t : MTile} {rest : List MTile} (o : TileOutcome)
    (ht : m.tiles = t :: rest) (hjob : m.job = none) (hwb : m.writebackOnly = false)
    (hc : ((s.session? m.slot).map (·.cancel)).getD false = true) : s.transfer n m o = s.cancelMove n m := by
  simp only [State.transfer, ht, hc, hwb, hjob, and_self, if_true]

/-- A tile of a move of residency, with the pin that the move takes on its page (R162). -/
theorem State.transfer_own {n : Nat} {m : Move} {t : MTile} {rest : List MTile} (o : TileOutcome) (ht : m.tiles = t :: rest)
    (hjob : m.job = none) (hwb : m.writebackOnly = false)
    (hc : ((s.session? m.slot).map (·.cancel)).getD false = false) :
    let u := s.tileCharged m t
    let k := if m.pinsFor t then { m with pinned := some t.page } else m
    let v := if m.pinsFor t then ((u.releasePage m).pin t.page).setMove n k else u
    s.transfer n m o = if o = .done ∨ m.canHave o = false then v.tileDone n k t rest else v.tileFailed n k o := by
  have ho : s.tileOutcome m t o = o := by simp [State.tileOutcome, State.readingJob, hjob]
  simp only [State.transfer, ht, hc, Bool.false_eq_true, false_and, if_false, ho, State.tileCharged]
  cases m.pinsFor t <;> simp [hjob, hwb]
  rfl

/-- A tile of a capsule, read as its record says (R131). -/
theorem State.transfer_job {n i : Nat} {m : Move} {t : MTile} {rest : List MTile} {j : CapsuleJob} (o : TileOutcome)
    (ht : m.tiles = t :: rest) (hjob : m.job = some i) (hj : s.readingJob m = some j) :
    let r := s.readRecord j (s.moveModel m) t
    s.transfer n m o = ((if r = .tagFail ∨ r = .decompressFail then (s.tileCharged m t).jobTileFailed i r
      else s.tileCharged m t).jobProgress m).tileDone n m t rest := by
  have ho : s.tileOutcome m t o = s.readRecord j (s.moveModel m) t := by simp only [State.tileOutcome, hj]
  have hpin : m.pinsFor t = false := by simp [Move.pinsFor, hjob]
  simp only [State.transfer, ht, ho, State.tileCharged, hpin, hjob, Bool.false_eq_true, if_false, reduceCtorEq,
    and_false, Option.isSome_some, if_true, Option.getD_some]

theorem openRecord_outcome (read : Nat → Nat → List Byte) (key base : List Byte) (off n raw : Nat) :
    openRecord read key base off n raw = .done ∨ openRecord read key base off n raw = .tagFail ∨
      openRecord read key base off n raw = .decompressFail := by
  generalize ho : openRecord read key base off n raw = o
  unfold openRecord at ho
  extract_lets h at ho
  generalize hg : gcmOpen _ _ _ _ _ = g at ho
  cases g with
  | none => exact .inr (.inl ho.symm)
  | some text =>
    dsimp only at ho
    generalize (if bitAt (leAt h 2 1) 0 = true then lz4Decode text else some text) = plain at ho
    split at ho
    · exact .inl ho.symm
    · exact .inr (.inr ho.symm)

theorem State.readRecord_eq (j : CapsuleJob) (m : Model) (t : MTile) : s.readRecord j m t = .tagFail ∨
    ∃ off n raw, s.readRecord j m t = openRecord (s.srcAt j.space j.addr) j.key (slice j.header 112 12) off n raw := by
  rw [State.readRecord]
  cases j.recordAt m (s.srcAt j.space j.addr) t with
  | none => exact .inl rfl
  | some p => exact .inr ⟨_, _, _, rfl⟩

/-- The record of a tile that is read either opens or fails by its tag or its compression (R120, R131). -/
theorem State.readRecord_outcome {j : CapsuleJob} {m : Model} {t : MTile} (h : s.readRecord j m t ≠ .done) :
    s.readRecord j m t = .tagFail ∨ s.readRecord j m t = .decompressFail := by
  rcases State.readRecord_eq (s := s) j m t with e | ⟨off, n, raw, e⟩
  · exact .inl e
  · rw [e] at h ⊢
    exact (openRecord_outcome ..).resolve_left h

theorem State.jobs_tileCharged (m : Move) (t : MTile) : (s.tileCharged m t).jobs = s.jobs := by
  have hcharge : ((s.tilePorts m t).foldl (fun s q => s.charge q.1 m.cls.code q.2) s).jobs = s.jobs :=
    foldl_keeps State.jobs (fun (s : State) (q : Nat × Nat) => s.charge q.1 m.cls.code q.2) (fun _ _ => rfl) _ s
  unfold State.tileCharged State.readPool
  repeat' split
  all_goals exact hcharge

theorem State.jobFailed_jobTileFailed {i : Nat} {j : CapsuleJob} (o : TileOutcome) (hj : s.jobs.get? i = some j) :
    ((s.jobTileFailed i o).jobs.get? i).map (·.failed) = some true := by
  have hjobs : (s.jobTileFailed i o).jobs = s.jobs.modify i (fun x => { x with failed := true }) := by
    simp [State.jobTileFailed]
  rw [hjobs, Map.modify, hj, Map.get?_set_self]
  rfl

theorem State.job_of_readingJob {i : Nat} {m : Move} {j : CapsuleJob} (hi : m.job = some i) (hj : s.readingJob m = some j) :
    s.jobs.get? i = some j := by
  unfold State.readingJob at hj
  split at hj
  · cases hj
  · rwa [hi] at hj

/-! ### MOVE_COMMIT -/

theorem exec_moveCommit {n : Nat} {m : Move} (hn : s.finishedMove = some (n, m)) (hf : s.freeze = 0) :
    exec .moveCommit s = .next (s.commitMove n m) := by
  simp only [exec, execMoveCommit, hn, hf, if_true]

theorem State.commitMove_cancelled {n : Nat} {m : Move} {x : Session} (hx : s.session? m.slot = some x)
    (hwb : m.writebackOnly = false) (hc : x.cancel = true) : s.commitMove n m = s.cancelMove n m := by
  simp only [State.commitMove, hx, hwb, hc, Bool.false_eq_true, if_false, if_true]

theorem State.commitMove_waits {n : Nat} {m : Move} {x : Session} (hx : s.session? m.slot = some x)
    (hwb : m.writebackOnly = false) (hc : x.cancel = false) (hl : s.leaseOk x = false) :
    s.commitMove n m = s.awaitLease m.slot := by
  simp only [State.commitMove, hx, hwb, hc, hl, Bool.not_false, Bool.false_eq_true, if_false, if_true]

/-! A move that nothing holds back commits by its class and its tier, and has used the session's lease validation (R396). -/

section
variable {n : Nat} {m : Move} {x : Session} (hx : s.session? m.slot = some x) (hwb : m.writebackOnly = false)
  (hc : x.cancel = false) (hl : x.leased = false)
include hx hwb hc hl

theorem State.commitMove_hot (hcls : m.cls = .promote) (hdst : m.dst = .hot) :
    s.commitMove n m = (s.useLease m.slot).commitHot n m := by
  simp only [State.commitMove, hx, hwb, hc, State.leaseOk_unleased hl, Bool.not_true, Bool.false_eq_true, if_false, hcls,
    hdst]

theorem State.commitMove_warm (hcls : m.cls = .promote) (hdst : m.dst = .warm) :
    s.commitMove n m = (s.useLease m.slot).commitPromote n m x := by
  simp only [State.commitMove, hx, hwb, hc, State.leaseOk_unleased hl, Bool.not_true, Bool.false_eq_true, if_false, hcls,
    hdst]

theorem State.commitMove_demote (hcls : m.cls = .demote) :
    s.commitMove n m = (s.useLease m.slot).commitDemote n m x := by
  simp only [State.commitMove, hx, hwb, hc, State.leaseOk_unleased hl, Bool.not_true, Bool.false_eq_true, if_false, hcls]

end

theorem State.session?_leaveMoving {k : Nat} {x : Session} (r : Residency) (hx : s.session? k = some x) :
    (s.leaveMoving k r).session? k = some { x with residency := r, moveSrc := .free, moveDst := .free, cancel := false } := by
  rw [State.leaveMoving, State.session?_unlockEntry, State.session?_onSession, if_pos rfl, hx]
  rfl

theorem State.session?_commitHot {n : Nat} {m : Move} {x : Session} (hx : s.session? m.slot = some x) :
    (s.commitHot n m).session? m.slot = some { x with
      seat := m.seat, lastStep := s.tick, residency := .hot, moveSrc := .free, moveDst := .free, cancel := false } := by
  have hseat : (s.onSession m.slot (fun y => { y with seat := m.seat, lastStep := s.tick })).session? m.slot
      = some { x with seat := m.seat, lastStep := s.tick } := by
    rw [State.session?_onSession, if_pos rfl, hx]
    rfl
  simp only [State.commitHot, State.session?_bump, State.session?_eraseMove]
  rw [State.session?_leaveMoving .hot hseat]

/-! ### Credit windows (R142, R143) -/

theorem State.windowTicks_pos : 0 < s.windowTicks := by
  unfold State.windowTicks
  omega

theorem exec_creditWindowEnd (hen : s.enabled pgStm = true) (h : s.stm.windowEnd ≤ s.tick) :
    exec .creditWindowEnd s = .next s.renewCredits := by
  simp only [exec, execCreditWindowEnd, hen, h, and_self, if_true]

theorem State.windowEnd_renewCredits : s.tick < s.renewCredits.stm.windowEnd ∧
    s.renewCredits.stm.windowEnd ≤ s.tick + s.windowTicks ∧ s.renewCredits.stm.windowEnd % s.windowTicks = 0 := by
  have hpos : 0 < s.windowTicks := State.windowTicks_pos
  have he : s.renewCredits.stm.windowEnd = (s.tick / s.windowTicks + 1) * s.windowTicks := rfl
  have hdiv := Nat.div_add_mod' s.tick s.windowTicks
  have hmod := Nat.mod_lt s.tick hpos
  rw [he, Nat.mul_mod_left, Nat.add_mul]
  omega

end Sys2Proof.Machine

open Sys2Proof Sys2Proof.Machine in
/-- Settles O24: the rows of the state mover by what the state selects: the start, the tile, the commit and the window. -/
theorem movesRun : Obligations.MovesRun := by
  refine ⟨fun s hen hf hst => ⟨fun t ht => ?_, fun ht => ?_, fun n k ctx m x l hw hk hx hcls hdst hsrc hjob hwb hctx hres
      hcomp hdue hrun hl => ?_⟩,
    fun s n m t rest hn hf ht hjob hwb => ⟨fun hc => ?_, fun hc hsrc => ?_, fun hc o => ?_⟩,
    fun s n i m t rest j o hn hf ht hjob hj => ⟨fun hr => ?_, fun hr => ⟨?_, ?_⟩⟩,
    fun s n m x hn hf hx hwb => ⟨fun hc hl hcls hdst => ?_, fun hc hl hcls hdst => ?_, fun hc hl hcls => ?_, fun hc => ?_,
      fun hc hl => ?_⟩,
    fun s hen hend => ⟨_, exec_creditWindowEnd hen hend, rfl, ?_, State.windowEnd_renewCredits⟩⟩
  · rw [exec_moveStart hen hf hst, ht]
    rfl
  · rw [exec_moveStart hen hf hst, ht]
    rfl
  · subst hk
    have hstart := State.tryStart_hotToWarm (n := n) hx hctx hcls hdst hsrc hjob hwb hres hcomp hdue hrun hl
    have hwarm : (((s.hotToWarm m.slot).useLease m.slot).eraseMove n).session? m.slot
        = some { x with residency := .warm, seat := none } := by
      rw [State.session?_eraseMove]
      exact State.session?_useLease (State.session?_hotToWarm hx) hl
    rw [exec_moveStart hen hf hst, hw, List.findSome?_cons, hstart]
    refine ⟨_, _, rfl, State.session?_issueRead hwarm hl, rfl, rfl, rfl, rfl, ?_⟩
    rw [Option.map_some, Option.getD_some, State.stm_issueRead, State.move_eraseMove_self]
  · rw [exec_tileTransfer _ hn hf, State.transfer_own _ ht hjob hwb hc, if_pos (.inl rfl)]
    rfl
  · rw [exec_tileTransfer _ hn hf, State.transfer_own _ ht hjob hwb hc, if_neg (by simp [Move.canHave, hsrc])]
    rfl
  · rw [exec_tileTransfer _ hn hf, State.transfer_cancelled _ ht hjob hwb hc]
  · rw [exec_tileTransfer _ hn hf, State.transfer_job _ ht hjob hj, if_neg (by rw [hr]; decide)]
    rfl
  · rw [exec_tileTransfer _ hn hf, State.transfer_job _ ht hjob hj, if_pos (State.readRecord_outcome hr)]
    rfl
  · refine State.jobFailed_jobTileFailed (s := s.tileCharged m t) (j := j) _ ?_
    rw [State.jobs_tileCharged, State.job_of_readingJob hjob hj]
  · refine ⟨_, _, by rw [exec_moveCommit hn hf, State.commitMove_hot hx hwb hc hl hcls hdst],
      State.session?_commitHot (State.session?_useLease hx hl), rfl, rfl, rfl, rfl, ?_⟩
    simp only [State.commitHot, State.bump_frame, State.move_eraseMove_self]
  · rw [exec_moveCommit hn hf, State.commitMove_warm hx hwb hc hl hcls hdst]
  · rw [exec_moveCommit hn hf, State.commitMove_demote hx hwb hc hl hcls]
  · rw [exec_moveCommit hn hf, State.commitMove_cancelled hx hwb hc]
  · rw [exec_moveCommit hn hf, State.commitMove_waits hx hwb hc hl]
  · simp [State.renewCredits]
end

section
/-! ## SESS_CREATE and SESS_FORK -/
namespace Sys2Proof.Machine
variable {s t u : State}

/-! ### What a placement leaves alone -/

/-- The memories of the host's side and the commands. -/
def State.outside (s : State) : Memory × Memory × Map Cmd := (s.window, s.host, s.cmds)

theorem State.outside_of_pageless (h : t.pageless = s.pageless) : t.outside = s.outside := by
  obtain ⟨-, hw, hh, -, hc, -⟩ := State.of_pageless h
  simp only [State.outside, hw, hh, hc]

theorem nextNever_congr (hd : t.sdir = s.sdir) (hr : t.regs = s.regs) (fuel n : Nat) :
    nextNever t fuel n = nextNever s fuel n := by
  induction fuel generalizing n with
  | zero => rfl
  | succ fuel ih => simp only [nextNever, State.reg_congr hr, hd, ih]

/-- The slot that is taken next depends on the directory and its size (R71). -/
theorem State.nextSlot_congr (hd : t.sdir = s.sdir) (hr : t.regs = s.regs) : t.nextSlot = s.nextSlot := by
  simp only [State.nextSlot, hd, nextNever_congr hd hr]

theorem State.nextGen_congr (hd : t.sdir = s.sdir) (k : Nat) : t.nextGen k = s.nextGen k := by
  simp only [State.nextGen, hd]

/-- A session as it is placed: its generation, and what the device chooses. -/
def Session.placed (x : Session) (generation nver addr root tick : Nat) (node : Option Nat) : Session :=
  { x with generation := generation, srNver := nver, srAddr := addr, ptRoot := root, lastCmd := tick, caneNode := node }

@[simp] theorem State.sess_takeSlot (k : Nat) : (s.takeSlot k).sdir.sess = s.sdir.sess := by
  unfold State.takeSlot
  simp only
  split <;> rfl

@[simp] theorem State.cane_takeSlot (k : Nat) : (s.takeSlot k).cane = s.cane := by
  unfold State.takeSlot
  simp only
  split <;> rfl

@[simp] theorem State.outside_takeSlot (k : Nat) : (s.takeSlot k).outside = s.outside := by
  unfold State.takeSlot
  simp only
  split <;> rfl

@[simp] theorem State.cane_heapTake (owner bytes : Nat) : (s.heapTake owner bytes).cane = s.cane := by
  unfold State.heapTake
  split <;> rfl

theorem Session.handle_placed (x : Session) (generation nver addr root tick k : Nat) (node : Option Nat) :
    (x.placed generation nver addr root tick node).handle k = mkHandle x.tenant k generation := rfl

theorem State.placeSession_eq {k : Nat} {x : Session} (hk : s.nextSlot = some k) : ∃ nver addr root bytes,
    s.placeSession x = (k, (((s.takeSlot k).useFree 2).setSession k
      (x.placed (s.nextGen k) nver addr root s.tick x.caneNode)).heapTake x.tenant bytes) := by
  simp only [State.placeSession, hk]
  exact ⟨s.nverOf x.tenant, s.freeAddr, (Config.freeWord (s.free + 1)).toNat / 65536 * 65536, _, rfl⟩

/-- Placing a session gives the next slot to it, with the generation after the slot's last one (R69, R71). -/
theorem State.placeSession_slot {k : Nat} {x : Session} (hk : s.nextSlot = some k) : ∃ t nver addr root,
    s.placeSession x = (k, t) ∧
    t.session? k = some (x.placed (s.nextGen k) nver addr root s.tick x.caneNode) ∧
    (∀ j, j ≠ k → t.session? j = s.session? j) ∧ t.cane = s.cane ∧ t.outside = s.outside := by
  obtain ⟨nver, addr, root, bytes, he⟩ := State.placeSession_eq (x := x) hk
  refine ⟨_, nver, addr, root, he, ?_, fun j hj => ?_, ?_, ?_⟩
  · rw [State.session?_congr (State.of_pageless (State.pageless_heapTake ..)).1, State.session?_setSession_self]
  · rw [State.session?_congr (State.of_pageless (State.pageless_heapTake ..)).1, State.session?_setSession, if_neg hj]
    exact State.session?_congr_sess (by simp) j
  · simp
  · rw [State.outside_of_pageless (State.pageless_heapTake ..)]
    exact State.outside_takeSlot k

/-! ### SESS_CREATE -/

theorem exec_sessCreate {id : Nat} {c : Cmd} (h : s.readyPlain id 0x10 c) :
    exec (.sessCreate id) s = .next ((opSessCreate s id c).settled s id c) :=
  congrArg Host.Outcome.next (State.commandRow_readyPlain s id _ c effSessCreate h)

theorem opSessCreate_ok {id k : Nat} {c : Cmd} {p : Params} {y : Session} (hen : s.enabled pgSdir = true)
    (hp : createParams (s.payload c.desc) = some p) (hj : (p.namesAny && !s.enabled pgJck) = false)
    (hok : s.paramsOk c.tenant p = true) (hroom : s.roomForSession c.tenant (s.model p.model).layout = (0, s))
    (ht : s.placeSession (s.newSession c.tenant p) = (k, t)) (hy : t.session? k = some y) :
    opSessCreate s id c = t.completeH id .ok 0 0 (y.handle k) := by
  rw [opSessCreate, if_neg (by simp [hen]), hp]
  simp only
  rw [if_neg (by simp [hj]), if_neg (by simp [hok]), hroom]
  simp only
  rw [if_neg (by simp), ht]
  simp only
  rw [hy, Option.map_some, Option.getD_some]

/-! ### SESS_FORK -/

theorem exec_sessFork {id : Nat} {c : Cmd} {x : Session} (h : s.readyOn id 0x12 c x) :
    exec (.sessFork id) s = .next ((opSessFork (s.atEffect id c x) id c (handleSlot c.desc.handle)).settled s id c) :=
  congrArg Host.Outcome.next (State.commandRow_readyOn s id _ c x effSessFork h)

/-- The child of a fork, once its own page has been allotted: `extra` is its entry, `slots` the parent's (R87, R177). -/
def State.childOf (s : State) (x : Session) (p : Params) (f : ForkCut) (cls : Nat) (extra : List PtEntry)
    (slots : List Slot) : Session :=
  { s.newSession x.tenant p with
    cls := cls, nr := x.nr, table := x.table.take f.whole ++ extra, positions := f.held, input := f.input,
    inputPend := !f.input.isEmpty, runState := if f.input.isEmpty then .idle else .runnable,
    runnableAt := s.tick, vers := [forkRecord x p f slots] }

/-- A child is placed, with a reference to each shared page and its place in the index. -/
def State.bear (s : State) (child : Session) (shared own : List Nat) (node : Option Nat) : Nat × State :=
  let (slot, s) := s.placeSession child
  let s := shared.foldl State.incRef s
  let s := s.addUsers (shared ++ own)
  let s := s.heapTake child.tenant (inputBytes child.input)
  let s := s.setCaneNode slot node
  (slot, if child.input.isEmpty then s else s.becomeRunnable slot)

@[simp] theorem State.regs_seal (n : Nat) : (s.seal n).regs = s.regs := by
  unfold State.seal
  split <;> rfl

/-- REFS of a page record. -/
def State.refsOf (s : State) (n : Nat) : Option Nat := (s.page? n).map (·.refs)

theorem State.refsOf_congr (h : t.cane.recs = s.cane.recs) (n : Nat) : t.refsOf n = s.refsOf n := by
  simp only [State.refsOf, State.page?, h]

theorem State.refsOf_incRef {n b r : Nat} (h : s.refsOf n = some r) (hr : r ≠ 0) :
    (s.incRef b).refsOf n = some (r + if b = n then 1 else 0) := by
  obtain ⟨q, hq, rfl⟩ := Option.map_eq_some_iff.1 h
  rw [State.refsOf, State.incRef, State.page?_onPage]
  by_cases hb : n = b
  · rw [if_pos hb, ← hb, hq, if_pos rfl, Option.map_some, if_neg hr]
    rfl
  · rw [if_neg hb, hq, if_neg (Ne.symm hb)]
    rfl

/-- Each sharing of a page raises its REFS by one (R161). -/
theorem State.refsOf_incRefs {n r : Nat} (l : List Nat) (h : s.refsOf n = some r) (hr : r ≠ 0) :
    (l.foldl State.incRef s).refsOf n = some (r + l.count n) := by
  induction l generalizing s r with
  | nil => exact h
  | cons b l ih =>
    rw [List.foldl_cons, ih (State.refsOf_incRef h hr) (by omega), List.count_cons]
    simp only [beq_iff_eq]
    congr 1
    omega

theorem State.refsOf_addUsers (n : Nat) (l : List Nat) : (s.addUsers l).refsOf n = s.refsOf n := by
  refine foldl_keeps (fun u => State.refsOf u n) _ (fun u b => ?_) l s
  simp only [State.refsOf, State.page?_onPage]
  split
  · next hb => subst hb; cases u.page? n <;> rfl
  · rfl

theorem State.recs_onNode (n : Nat) (f : Node → Node) : (s.onNode n f).cane.recs = s.cane.recs := by
  unfold State.onNode
  split <;> rfl

/-- A session that has no node yet takes its place in the index: no node is pruned (R174). -/
theorem State.setCaneNode_fresh {k : Nat} {x : Session} {node : Option Nat} (hx : s.session? k = some x)
    (hn : x.caneNode = none) : (s.setCaneNode k node).session? k = some { x with caneNode := node } ∧
      (∀ j, j ≠ k → (s.setCaneNode k node).session? j = s.session? j) ∧
      (s.setCaneNode k node).cane.recs = s.cane.recs ∧ (s.setCaneNode k node).outside = s.outside := by
  cases node with
  | none =>
    have he : s.setCaneNode k none = s := by simp [State.setCaneNode, hx, hn]
    rw [he, hx, ← hn]
    exact ⟨rfl, fun _ _ => rfl, rfl, rfl⟩
  | some m =>
    have he : s.setCaneNode k (some m) = (s.onNode m (fun y => { y with users := y.users + 1 })).setSession k
        { x with caneNode := some m } := by
      simp [State.setCaneNode, hx, hn]
    have hnode := State.pageless_onNode (s := s) m (fun y => { y with users := y.users + 1 })
    have hout := State.outside_of_pageless hnode
    rw [he]
    refine ⟨State.session?_setSession_self .., fun j hj => ?_, State.recs_onNode .., hout⟩
    rw [State.session?_setSession, if_neg hj]
    exact State.session?_congr (State.of_pageless hnode).1 j

/-! A RUNNABLE session stays as it is; its promotion is asked for (R83, R135). -/

theorem State.askPromote_keeps (k need : Nat) (hot reheat : Bool) : (s.askPromote k need hot reheat).sdir = s.sdir ∧
    (s.askPromote k need hot reheat).cane = s.cane ∧ (s.askPromote k need hot reheat).outside = s.outside := by
  unfold State.askPromote
  repeat' split
  all_goals exact ⟨rfl, rfl, rfl⟩

theorem State.becomeRunnable_runnable {k : Nat} {x : Session} (hx : s.session? k = some x) (hr : x.runState = .runnable) :
    (∀ j, (s.becomeRunnable k).session? j = s.session? j) ∧ (s.becomeRunnable k).cane = s.cane ∧
      (s.becomeRunnable k).outside = s.outside := by
  have hsame : ({ x with runState := .runnable, runnableAt := if x.runState = .runnable then x.runnableAt else s.tick }
      : Session) = x := by
    rw [if_pos hr, ← hr]
  have hset (j : Nat) : (s.setSession k x).session? j = s.session? j := by
    rw [State.session?_setSession]
    split
    · next hj => rw [hj, hx]
    · rfl
  obtain ⟨hd, hc, ho⟩ := State.askPromote_keeps (s := s.setSession k x) k (s.setSession k x).tick true false
  simp only [State.becomeRunnable, hx, hsame]
  split
  · exact ⟨fun j => (State.session?_congr hd j).trans (hset j), hc, ho⟩
  · exact ⟨hset, rfl, rfl⟩

/-- The child stands in the slot that was next, each shared page has one more reference, and nothing else of the directory
changes (R87, R177). -/
theorem State.bear_slot {k : Nat} {child : Session} {shared own : List Nat} {node : Option Nat} (hk : s.nextSlot = some k)
    (hn : child.caneNode = none) (hrun : child.runState = if child.input.isEmpty then .idle else .runnable) :
    ∃ t nver addr root, s.bear child shared own node = (k, t) ∧
      t.session? k = some (child.placed (s.nextGen k) nver addr root s.tick node) ∧
      (∀ j, j ≠ k → t.session? j = s.session? j) ∧ t.outside = s.outside ∧
      (∀ n r, s.refsOf n = some r → r ≠ 0 → t.refsOf n = some (r + shared.count n)) := by
  obtain ⟨t, nver, addr, root, ht, hself, hother, hcane, hout⟩ := State.placeSession_slot (x := child) hk
  have hpl : (((shared.foldl State.incRef t).addUsers (shared ++ own)).heapTake child.tenant (inputBytes child.input)).pageless
      = t.pageless := by
    rw [State.pageless_heapTake, State.pageless_addUsers]
    exact foldl_keeps State.pageless _ (fun _ _ => State.pageless_incRef _) shared t
  have hrefs (n r : Nat) (h : s.refsOf n = some r) (hr : r ≠ 0) :
      (((shared.foldl State.incRef t).addUsers (shared ++ own)).heapTake child.tenant (inputBytes child.input)).refsOf n
        = some (r + shared.count n) := by
    rw [State.refsOf_congr (congrArg Cane.recs (State.cane_heapTake ..)), State.refsOf_addUsers]
    exact State.refsOf_incRefs shared ((State.refsOf_congr (congrArg Cane.recs hcane) n).trans h) hr
  generalize ht' : ((shared.foldl State.incRef t).addUsers (shared ++ own)).heapTake child.tenant (inputBytes child.input) = t'
    at hpl hrefs
  have hsess (j : Nat) : t'.session? j = t.session? j := State.session?_congr (State.of_pageless hpl).1 j
  obtain ⟨hself', hother', hrecs', hout'⟩ := State.setCaneNode_fresh (node := node) ((hsess k).trans hself) hn
  have hbear : s.bear child shared own node
      = (k, if child.input.isEmpty then t'.setCaneNode k node else (t'.setCaneNode k node).becomeRunnable k) := by
    simp only [State.bear, ht, ht']
  have hothers (j : Nat) (hj : j ≠ k) : (t'.setCaneNode k node).session? j = s.session? j := by
    rw [hother' j hj, hsess, hother j hj]
  have houts : (t'.setCaneNode k node).outside = s.outside := by
    rw [hout', State.outside_of_pageless hpl, hout]
  refine ⟨_, nver, addr, root, hbear, ?_⟩
  split
  · exact ⟨hself', hothers, houts, fun n r h hr => by rw [State.refsOf_congr hrecs', hrefs n r h hr]⟩
  · next hin =>
    rw [if_neg hin] at hrun
    obtain ⟨hb, hbc, hbo⟩ := State.becomeRunnable_runnable hself' hrun
    refine ⟨(hb k).trans hself', fun j hj => (hb j).trans (hothers j hj), hbo.trans houts, fun n r h hr => ?_⟩
    rw [State.refsOf_congr (congrArg Cane.recs hbc), State.refsOf_congr hrecs', hrefs n r h hr]

theorem State.makeChild_eq {x : Session} {p : Params} {f : ForkCut} {cls : Nat} (hrec : f.rest = 0 ∨ s.freeRecord.isNone = false) :
    ∃ (v : State) (extra : List PtEntry) (own : List Nat), v.pageless = s.pageless ∧ v.regs = s.regs ∧
      (f.rest = 0 → extra = [] ∧ v = s) ∧
      s.makeChild x p f cls = some (v.bear (v.childOf x p f cls extra (s.heldSlots x)) ((x.table.take f.whole).map (·.frame)) own
        (s.forkNode x p f.whole)) := by
  unfold State.makeChild
  by_cases hrest : f.rest = 0
  · exact ⟨s, [], [], rfl, rfl, fun _ => ⟨rfl, rfl⟩, by simp only [if_pos hrest]; rfl⟩
  · cases hdrop : x.table.drop f.whole with
    | nil => exact ⟨s, [], [], rfl, rfl, fun h => absurd h hrest, by simp only [if_neg hrest]; rfl⟩
    | cons e l =>
      obtain ⟨n, t, ht, hpl, hregs⟩ := State.allotPage_isSome (tenant := x.tenant) (model := p.model) (l := s.layoutOf x)
        (slots := (s.entrySlots e).take f.rest) (hrec.resolve_left hrest)
      simp only [if_neg hrest, ht]
      refine ⟨if e.compacted = true then t.seal n else t, _, _, ?_, ?_, fun h => absurd h hrest, rfl⟩
      · split
        · rw [State.pageless_seal, hpl]
        · exact hpl
      · split
        · rw [State.regs_seal, hregs]
        · exact hregs

theorem opSessFork_ok {id slot k : Nat} {c : Cmd} {y z : Session} {p : Params} (hy : s.session? slot = some y)
    (hen : s.enabled pgCane = true) (hhbm : y.inHbm = true) (hat : c.desc.specF 39 36 ≤ y.positions + y.input.length)
    (hp : forkParams y c.desc (s.payload c.desc) = some p) (hmodel : p.model = y.rec'.params.model)
    (hj : (p.namesAny && !s.enabled pgJck) = false) (hok : s.paramsOk y.tenant p = true)
    (hroom : s.roomForSession y.tenant (s.layoutOf y) = (0, s))
    (hpage : (forkCut y (c.desc.specF 39 36)).rest = 0 ∨ s.freeRecord.isNone = false ∧ s.heapRoom y.tenant
      ((s.layoutOf y).recordBytes (s.nverOf y.tenant) + (s.layoutOf y).pageBytes) false = true)
    (hheap : s.heapRoom y.tenant ((s.layoutOf y).recordBytes (s.nverOf y.tenant)
      + (if (forkCut y (c.desc.specF 39 36)).rest = 0 then 0 else (s.layoutOf y).pageBytes)
      + inputBytes (forkCut y (c.desc.specF 39 36)).input) false = true)
    (hm : s.makeChild y p (forkCut y (c.desc.specF 39 36)) (if c.desc.payLen = 0 then y.cls else p.cls) = some (k, t))
    (hz : t.session? k = some z) : opSessFork s id c slot = t.completeH id y.okStatus 0
      ((forkCut y (c.desc.specF 39 36)).held + (forkCut y (c.desc.specF 39 36)).whole * 2 ^ 32) (z.handle k) := by
  have hpage' : ¬ ((forkCut y (c.desc.specF 39 36)).rest ≠ 0 ∧ (s.freeRecord.isNone = true ∨ s.heapRoom y.tenant
      ((s.layoutOf y).recordBytes (s.nverOf y.tenant) + (s.layoutOf y).pageBytes) false = false)) := by
    rintro ⟨hrest, hnone | hfull⟩
    · rw [(hpage.resolve_left hrest).1] at hnone
      cases hnone
    · rw [(hpage.resolve_left hrest).2] at hfull
      cases hfull
  rw [opSessFork, hy]
  simp only
  rw [if_neg (by simp [hen]), if_neg (by simp [hhbm]), if_neg (Nat.not_lt.2 hat), hp]
  simp only
  rw [if_neg (not_not.2 hmodel), if_neg (by simp [hj]), if_neg (by simp [hok]), hroom]
  simp only
  rw [if_neg (not_not.2 rfl), if_neg hpage', if_neg (by rw [hheap]; decide), hm]
  simp only
  rw [hz, Option.map_some, Option.getD_some]

end Sys2Proof.Machine

open Sys2Proof Sys2Proof.Machine in
/-- Settles O14: the slot that a placement takes (`placeSession_slot`), and for a fork the child that stands in it with one more
reference to each shared page (`bear_slot`). -/
theorem sessionsCreatedAndForked : Obligations.SessionsCreatedAndForked := by
  refine ⟨fun s id k c p hc hen hp hj hok hroom hk => ?_,
    fun s id k c x y p hc => ?_⟩
  · obtain ⟨t, nver, addr, root, ht, hy, -⟩ := State.placeSession_slot (x := s.newSession c.tenant p) hk
    rw [ht]
    refine ⟨?_, _, hy, rfl, rfl, rfl, rfl, rfl, rfl, rfl, rfl, rfl⟩
    rw [exec_sessCreate hc, opSessCreate_ok hen hp hj hok hroom ht hy, Session.handle_placed]
    rfl
  · intro u f l hy hen hhbm hat hp hmodel hj hok hroom hk hpage hheap
    obtain ⟨v, extra, own, hpl, hregs, hwhole, hmake⟩ := State.makeChild_eq (s := u) (x := y) (p := p) (f := f)
      (cls := if c.desc.payLen = 0 then y.cls else p.cls) (hpage.imp_right And.left)
    have hdir : v.sdir = u.sdir := (State.of_pageless hpl).1
    obtain ⟨t, nver, addr, root, ht, hz, hother, hout, hrefs⟩ := State.bear_slot
      (child := v.childOf y p f (if c.desc.payLen = 0 then y.cls else p.cls) extra (u.heldSlots y))
      (shared := (y.table.take f.whole).map (·.frame)) (own := own) (node := u.forkNode y p f.whole)
      ((State.nextSlot_congr hdir hregs).trans hk) rfl rfl
    rw [State.nextGen_congr hdir] at hz
    have hout' : t.outside = u.outside := hout.trans (State.outside_of_pageless hpl)
    refine ⟨t, _, extra, ?_, hz, rfl, rfl, rfl, rfl, rfl, rfl, rfl, rfl, rfl, rfl, rfl, rfl, rfl, fun hrest => ?_,
      fun j hj => (hother j hj).trans (State.session?_congr hdir j), congrArg (·.1) hout', congrArg (·.2.1) hout',
      congrArg (·.2.2) hout'⟩
    · rw [exec_sessFork hc, opSessFork_ok hy hen hhbm hat hp hmodel hj hok hroom hpage hheap (hmake.trans (congrArg some ht)) hz,
        Session.handle_placed]
      rfl
    · obtain ⟨hextra, hv⟩ := hwhole hrest
      refine ⟨hextra, fun n q hq hr => hrefs n q.refs ?_ hr⟩
      rw [hv, State.refsOf, hq]
      rfl
end

section
/-! ## EXPORT_CAPSULE and IMPORT_CAPSULE -/
namespace Sys2Proof.Machine
variable {s t : State}

/-! ### EXPORT_CAPSULE (R127 to R130) -/

/-- EXPORT_CAPSULE reads of its command the descriptor alone. -/
theorem exec_exportCapsule {id : Nat} {c : Cmd} {x : Session} (h : s.readyOn id 0x20 c x) :
    exec (.exportCapsule id) s
      = .next ((opExportCapsule (s.atEffect id c x) id c (handleSlot c.desc.handle)).settled s id c) :=
  congrArg Host.Outcome.next (State.commandRow_readyOn s id _ c x effExportCapsule h)

/-- A tenant with a transport key exports by SIZE_ONLY, by the room that the command names, and by STM's long operation. -/
theorem opExportCapsule_keyed {id slot key : Nat} {c : Cmd} {y : Session} (hy : s.session? slot = some y)
    (hen : s.enabled pgStm = true) (hkey : s.currentTtk y.tenant = some key) :
    let bound := capsuleBound (s.layoutOf y) y.table.length (y.table.filter (·.isSealed)).length
    opExportCapsule s id c slot =
      if c.desc.optBit 11 = true then s.complete id y.okStatus 0 bound
      else if c.desc.specF 51 44 < bound then s.complete id .noSpace 4
      else if s.longBusy pgStm = true then s.waitCmd id
      else (s.beginLong pgStm).startExport id slot y .exportTo (c.desc.opt 8 2) (c.desc.specF 43 36) (c.desc.optBit 10) key := by
  simp only [opExportCapsule, hy, hen, hkey, Bool.not_true, Bool.false_eq_true, if_false]

theorem exec_capsuleExportDone {n : Nat} {j : CapsuleJob} (writeFail : Bool)
    (hj : s.jobDone (fun k => k == .exportTo || k == .migrateOut) = some (n, j)) (hk : j.kind = .exportTo) :
    exec (.capsuleExportDone writeFail) s = .next (s.exportEnd n j writeFail) := by
  simp only [exec, execCapsuleExportDone, hj, hk, if_true]

/-- An export outside fabric memory whose tiles were all read, and whose writes do not fail (R130). -/
theorem State.exportEnd_ok {n : Nat} {j : CapsuleJob} (hf : j.failed = false) (hsp : j.space ≠ 2) :
    let bytes := (s.modelOfFp j.content.record.modelFp).capsuleBytes j.content j.compress j.key j.header
    s.exportEnd n j false = (((((s.eraseJob n j).unpinAll j.pins).writeDst j.space j.addr bytes).endLong pgStm).complete j.cmd
      (if bitAt (leAt j.header 14 2) 0 then .notReproducible else .ok) 0 bytes.length) := by
  have hspace : (j.space == 2) = false := by simpa using hsp
  simp only [State.exportEnd, hf, hsp, hspace, Bool.false_and, Bool.or_false, Bool.false_eq_true, false_and, if_false]

/-! ### IMPORT_CAPSULE (R131, R132) -/

theorem exec_importCapsule {id : Nat} {c : Cmd} {content : Capsule} (h : (s.withSource id content none).readyPlain id 0x21 c) :
    exec (.importCapsule id content) s
      = .next ((opImportCapsule (s.withSource id content none) id c).settled (s.withSource id content none) id c) :=
  congrArg Host.Outcome.next (State.commandRow_readyPlain _ id _ c effImportCapsule h)

section
variable {id : Nat} {c : Cmd} {content : Capsule} (hsrc : s.sources.get? id = some content)
  (hstm : s.enabled pgStm = true) (hsdir : s.enabled pgSdir = true) (hcane : s.enabled pgCane = true)
  (hlong : s.longBusy pgStm = false)
include hsrc hstm hsdir hcane hlong

theorem opImportCapsule_refused {st : Status} {reason : Nat}
    (hc : s.importChecks c.tenant (c.desc.specF 51 44) (s.srcAt (c.desc.opt 8 2) (c.desc.specF 43 36)) content
      = .refuse st reason) :
    opImportCapsule s id c = s.refuse id st reason := by
  simp only [opImportCapsule, hsrc, hstm, hsdir, hcane, hlong, hc, Bool.not_true, Bool.or_self, Bool.false_eq_true, if_false]

theorem opImportCapsule_passed {k model : Nat}
    (hc : s.importChecks c.tenant (c.desc.specF 51 44) (s.srcAt (c.desc.opt 8 2) (c.desc.specF 43 36)) content = .pass model)
    (hroom : s.importRoom c.tenant (s.model model).layout content.table.length = (0, s))
    (ht : s.arriving c.tenant model (bitAt (leAt (s.readSrc (c.desc.opt 8 2) (c.desc.specF 43 36) 256) 14 2) 0) content
      = some (k, t)) :
    opImportCapsule s id c = (t.beginLong pgStm).startImport id k .importFrom (c.desc.opt 8 2) (c.desc.specF 43 36)
      (s.readSrc (c.desc.opt 8 2) (c.desc.specF 43 36) 256) content (s.model model).layout
      (((t.session? k).map (·.table)).getD []) 0 := by
  simp only [opImportCapsule, hsrc, hstm, hsdir, hcane, hlong, hc, hroom, ht, Bool.not_true, Bool.or_self, Bool.false_eq_true,
    if_false, ne_eq, not_true_eq_false]

end

/-! ### What an offer to the prefix index does to its session: at most its node changes (R132, R174) -/

@[simp] theorem State.sdir_onNode (n : Nat) (f : Node → Node) : (s.onNode n f).sdir = s.sdir :=
  (State.of_pageless (State.pageless_onNode n f)).1

@[simp] theorem State.sdir_prune (n : Nat) : (s.prune n).sdir = s.sdir := (State.of_pageless (State.pageless_prune n)).1

@[simp] theorem State.sdir_seal (n : Nat) : (s.seal n).sdir = s.sdir := (State.of_pageless (State.pageless_seal n)).1

theorem State.sdir_bump (r : Reg) (i n : Nat) : (s.bump r i n).sdir = s.sdir := by simp

@[simp] theorem sdir_caneLookup (k : CaneKey) : (caneLookup s k).2.sdir = s.sdir := by
  simp only [caneLookup]
  split <;> simp

theorem State.session?_setCaneNode {k : Nat} {x : Session} (node : Option Nat) (hx : s.session? k = some x) :
    (s.setCaneNode k node).session? k = some { x with caneNode := node } := by
  simp only [State.setCaneNode, hx]
  split
  · next hsame => rw [← hsame, hx]
  · cases x.caneNode with
    | none => exact State.session?_setSession_self ..
    | some m =>
      exact (State.session?_congr ((State.sdir_prune m).trans (State.sdir_onNode ..)) k).trans (State.session?_setSession_self ..)

/-- Of the directory an insertion changes at most the node of its session. -/
theorem sdir_caneInsert (k i frame : Nat) (words : List Nat) : (caneInsert s k i frame words).sdir = s.sdir ∨
    ∃ (t : State) (n : Nat), t.sdir = s.sdir ∧ (caneInsert s k i frame words).sdir = (t.setCaneNode k (some n)).sdir := by
  unfold caneInsert
  split
  · exact .inl rfl
  · next x _ =>
    split
    · extract_lets key
      have hd : (caneLookup s key).2.sdir = s.sdir := sdir_caneLookup key
      generalize caneLookup s key = r at hd ⊢
      obtain ⟨_ | n, v⟩ := r
      · dsimp only
        split
        · split
          · refine .inr ⟨_, _, ?_, State.sdir_bump ..⟩
            cases x.caneNode <;> simpa using hd
          · exact .inl (by simpa using hd)
        · exact .inl (by simpa using hd)
      · dsimp only
        split
        · exact .inr ⟨v, n, hd, State.sdir_bump ..⟩
        · refine .inr ⟨_, n, ?_, State.sdir_bump ..⟩
          cases (v.node? n).bind (·.page) <;> simpa using hd
    · exact .inl rfl

theorem session?_caneInsert {k : Nat} {x : Session} (i frame : Nat) (words : List Nat) (hx : s.session? k = some x) :
    ∃ node, (caneInsert s k i frame words).session? k = some { x with caneNode := node } := by
  rcases sdir_caneInsert (s := s) k i frame words with e | ⟨t, n, ht, e⟩
  · exact ⟨x.caneNode, (State.session?_congr e k).trans hx⟩
  · exact ⟨some n, (State.session?_congr e k).trans (State.session?_setCaneNode _ ((State.session?_congr ht k).trans hx))⟩

theorem session?_offerPages {k : Nat} {x : Session} (i : Nat) (l : List PtEntry) (hx : s.session? k = some x) :
    ∃ node, (offerPages k i l s).session? k = some { x with caneNode := node } := by
  induction l generalizing s x i with
  | nil => exact ⟨x.caneNode, hx⟩
  | cons e rest ih =>
    unfold offerPages
    split
    · obtain ⟨node, hn⟩ := session?_caneInsert i e.frame ((s.entrySlots e).map (·.word)) hx
      obtain ⟨last, hl⟩ := ih (i + 1) hn
      exact ⟨last, hl⟩
    · exact ih _ hx

/-! ### The end of an import (R132) -/

@[simp] theorem State.sdir_eraseJob (n : Nat) (j : CapsuleJob) : (s.eraseJob n j).sdir = s.sdir := State.sdir_eraseMove _

/-- A session that has arrived is WARM and IDLE, is no longer leased, and holds the positions and the pages it came with. -/
theorem State.session?_arrived {k : Nat} {x : Session} (hx : s.session? k = some x) : ∃ y, (s.arrived k).session? k = some y ∧
    y.residency = .warm ∧ y.runState = .idle ∧ y.leased = false ∧ y.positions = x.positions ∧ y.table = x.table := by
  have hseal : ((x.table.filter (·.isSealed)).foldl (fun s e => s.seal e.frame) s).session? k = some x :=
    (State.session?_congr (foldl_keeps State.sdir _ (fun _ _ => State.sdir_seal _) _ s) k).trans hx
  obtain ⟨node, hoffer⟩ := session?_offerPages 0 x.table hseal
  simp only [State.arrived, hx]
  exact ⟨_, State.session?_leaveMoving .warm
    ((State.session?_onSession ..).trans ((if_pos rfl).trans (congrArg (Option.map _) hoffer))), rfl, rfl, rfl, rfl, rfl⟩

theorem exec_capsuleImportDone {n : Nat} {j : CapsuleJob}
    (hj : s.jobDone (fun k => k == .importFrom || k == .migrateIn || k == .reclaim) = some (n, j)) (hk : j.kind = .importFrom) :
    exec .capsuleImportDone s = .next (s.importEnd n j) := by
  simp only [exec, execCapsuleImportDone, hj, hk]

theorem State.importEnd_arrived {n : Nat} {j : CapsuleJob} {y : Session} (hf : j.failed = false)
    (ht : tableOk j.content (leAt j.header 72 4) = true)
    (hy : (((s.eraseJob n j).arrived j.slot).endLong pgStm).session? j.slot = some y) :
    s.importEnd n j = (((s.eraseJob n j).arrived j.slot).endLong pgStm).completeH j.cmd .ok 0
      (y.positions + y.table.length * 2 ^ 32) (y.handle j.slot) := by
  simp only [State.importEnd, hf, ht, hy, Bool.not_true, Bool.false_eq_true, if_false]

end Sys2Proof.Machine

open Sys2Proof Sys2Proof.Machine in
/-- Settles O25: the two commands by the branch of their effect that the checks select; the end of an import by what an arrival
leaves in its session (`State.session?_arrived`), of which the offer of its pages to the index changes the node alone. -/
theorem capsulesMoved : Obligations.CapsulesMoved := by
  refine ⟨fun s id key c x y hc => ?_, fun s n j hj hk hf hsp => ?_,
    fun s t id k model c content => ?_, fun s n j x hj hk hf ht hx => ?_⟩
  · intro k u bound hy hen hkey
    have hop := opExportCapsule_keyed (id := id) (c := c) hy hen hkey
    refine ⟨fun hsize => ?_, fun hsize hroom hlong => ?_, fun hsize hroom => ?_⟩ <;> rw [exec_exportCapsule hc, hop]
    · rw [if_pos hsize]
    · rw [if_neg (by simp [hsize]), if_neg (Nat.not_lt.2 hroom), if_neg (by simp [u, hlong])]
    · rw [if_neg (by simp [hsize]), if_pos hroom]
  · rw [exec_capsuleExportDone false hj hk, State.exportEnd_ok hf hsp]
  · intro u h l hc hsrc hstm hsdir hcane hlong
    refine ⟨fun hpass hroom harr => ?_, fun st reason href => ?_⟩
    · rw [exec_importCapsule hc, opImportCapsule_passed hsrc hstm hsdir hcane hlong hpass hroom harr]
    · rw [exec_importCapsule hc, opImportCapsule_refused hsrc hstm hsdir hcane hlong href]
  · obtain ⟨y, hy, hwarm, hidle, hleased, hpos, htable⟩ :=
      State.session?_arrived ((State.session?_congr (State.sdir_eraseJob n j) j.slot).trans hx)
    have hend : (((s.eraseJob n j).arrived j.slot).endLong pgStm).session? j.slot = some y :=
      (State.session?_congr (by simp) j.slot).trans hy
    refine ⟨_, y, rfl, hend, hwarm, hidle, hleased, hpos, htable, ?_⟩
    rw [exec_capsuleImportDone hj hk, State.importEnd_arrived hf ht hend]
end

section
/-! ## PARK -/
namespace Sys2Proof.Machine
variable {s v w : State} {id k : Nat} {c : Cmd} {y : Session} {dst : Residency}

theorem exec_park {x : Session} (h : s.readyOn id 0x1D c x) :
    exec (.park id) s
      = .next ((opPark (s.atEffect id c x) id c.resolved (handleSlot c.desc.handle)).settled s id c) :=
  congrArg Host.Outcome.next (State.commandRow_readyOn s id _ c x effPark h)

/-- With the state mover, and FAM where the command names the pool, in service, and its compaction point passed (R147, R150),
PARK looks for a tier. -/
theorem opPark_passed (hen : s.enabled pgStm = true)
    (hfam : (c.desc.opt 8 2 == 2 && s.regBit .STM_CFG_POOL_EN && !s.enabled pgFam) = false)
    (hp : s.point id c k (c.desc.optBit 10 || c.desc.optBit 11) = .passed v) : opPark s id c k = v.park id c k := by
  simp only [opPark, hen, hfam, hp, Bool.not_true, Bool.or_self, Bool.false_eq_true, if_false]

theorem State.park_outOfHbm (hy : v.session? k = some y) (hhbm : y.inHbm = false) :
    v.park id c k = v.complete id .ok 1 (parkResult ((v.cmd? id).getD c) y.residency.code) := by
  simp only [State.park, hy, hhbm, Bool.not_false, if_true]

theorem State.park_noTier (hy : v.session? k = some y) (hhbm : y.inHbm = true)
    (hno : (v.parkTarget y (c.desc.opt 8 2)).2 ≠ 0) :
    v.park id c k = (v.countRefusal (v.parkWorn y (c.desc.opt 8 2))).complete id .noSpace
      (v.parkTarget y (c.desc.opt 8 2)).2 := by
  simp only [State.park, hy, hhbm, Bool.not_true, Bool.false_eq_true, if_false, hno, ne_eq, not_false_eq_true, if_true]

/-- The sealed pages of the session of which a tier has no copy. -/
def State.sealedLacking (w : State) (y : Session) (dst : Residency) : List Nat :=
  (w.pagesLacking y dst).filter (fun p => ((w.page? p).map (·.isSealed)).getD false)

/-! ### The tier `dst` takes the session: `w` is the state once a refusal for wear is counted (R157) and a writeback of the
session has ended (R151) -/

section
variable (hy : v.session? k = some y) (hhbm : y.inHbm = true) (htier : v.parkTarget y (c.desc.opt 8 2) = (dst, 0))
  (hw : (v.countRefusal (v.parkWorn y (c.desc.opt 8 2))).stopWriteback k = w)
include hy hhbm htier hw

theorem State.park_demotes (hmove : c.desc.optBit 11 = false) (hnone : w.moveOf k .demote = none) :
    v.park id c k = (w.askDemote k dst (some id)).runCmd id false := by
  simp only [State.park, hy, hhbm, htier, hw, hmove, hnone, Bool.not_true, Bool.false_eq_true, if_false, ne_eq, not_true]

theorem State.park_replacesDemote {m : Nat × Move} (hmove : c.desc.optBit 11 = false) (hm : w.moveOf k .demote = some m) :
    v.park id c k = ((w.eraseMove m.1).askDemote k dst (some id)).runCmd id false := by
  simp only [State.park, hy, hhbm, htier, hw, hmove, hm, Bool.not_true, Bool.false_eq_true, if_false, ne_eq, not_true]

theorem State.park_nothingLacks (hcopy : c.desc.optBit 11 = true) (hlack : w.sealedLacking y dst = []) :
    v.park id c k = w.complete id .ok 0 (parkResult ((w.cmd? id).getD c) y.residency.code) := by
  unfold State.sealedLacking at hlack
  simp only [State.park, hy, hhbm, htier, hw, hcopy, hlack, List.isEmpty_nil, Bool.not_true, Bool.false_eq_true, if_false,
    if_true, ne_eq, not_true]

theorem State.park_writesBack (hcopy : c.desc.optBit 11 = true) (hlack : w.sealedLacking y dst ≠ []) :
    v.park id c k = (w.addMove { slot := k, cls := .writeback, src := y.residency, dst := dst, need := w.tick, cmd := some id,
                                 writebackOnly := true }).runCmd id false := by
  unfold State.sealedLacking at hlack
  simp only [State.park, hy, hhbm, htier, hw, hcopy, List.isEmpty_iff, hlack, Bool.not_true, Bool.false_eq_true, if_false,
    if_true, ne_eq, not_true]

end

end Sys2Proof.Machine

open Sys2Proof Sys2Proof.Machine in
/-- Settles O19: the row runs PARK once its compaction point is passed; then by where the session is, whether a tier takes it,
and WRITEBACK_ONLY. -/
theorem parkMoves : Obligations.ParkMoves := by
  intro s v id c x y hc k u hen hfam hp hy g n w lack m
  have row {t : State} (ht : v.park id c.resolved k = t) : exec (.park id) s = .next (t.settled s id c) := by
    rw [exec_park hc, opPark_passed (c := c.resolved) hen hfam hp, ht]
  have taken (h : g.2 = 0) : v.parkTarget y (c.resolved.desc.opt 8 2) = (g.1, 0) := Prod.ext rfl h
  refine ⟨fun hhbm => row (State.park_outOfHbm hy hhbm), fun hhbm hno => row (State.park_noTier hy hhbm hno),
    fun hhbm htier hmove => ⟨fun hnone => row ?_, fun d hd => row ?_⟩,
    fun hhbm htier hcopy => ⟨fun hlack => row ?_, fun hlack => row ?_⟩⟩
  · exact State.park_demotes hy hhbm (taken htier) rfl hmove hnone
  · exact State.park_replacesDemote hy hhbm (taken htier) rfl hmove hd
  · exact State.park_nothingLacks hy hhbm (taken htier) rfl hcopy hlack
  · exact State.park_writesBack hy hhbm (taken htier) rfl hcopy hlack
end

section
/-! ## Tiles, weight windows and SRAM errors of cores -/
namespace Sys2Proof.Machine
variable {s : State} {n k : Nat}

/-! ### The end of a tile that the core showed (R207, R506) -/

/-- A core that shows a tile ends the tile of the model that it shows. -/
theorem State.tileModelOf_shown (kind : Nat) (ran : TileRan) (hkind : (s.core n).tileKind ≠ 0) :
    s.tileModelOf n kind ran = (s.core n).tileModel := if_neg hkind

/-- A shown tile that was neither tagged nor urgent, and in whose place nothing starts: it is counted, its rows and jobs have made
progress, its accounts are opened, and the core shows no tile. -/
theorem State.tileEnd_shown (work : TileWork) (ran : TileRan) (hkind : (s.core n).tileKind ≠ 0)
    (htag : (s.core n).tagged = false) (hurg : (s.core n).tileUrgent = false) :
    let out := s.runTile (s.core n).tileModel ran.layer (s.regBit .CRU_CFG_ZERO_SKIP_EN n) work
    s.tileEnd n work ran none = ((((ran.jobs.map (·.1)).foldl State.progressCmd (ran.rows.foldl State.progressStep
      ((s.countTile n out ran).countStarved n ran))).openAcct n ran none).clearTile n out.words).showHeld := by
  simp only [State.tileEnd, if_neg hkind, htag, hurg, Bool.false_eq_true, if_false]

theorem exec_tileEnd {core : BitVec 7} {work : TileWork} {ran : TileRan} (next : Option NextTile)
    (hmay : s.tileMayEnd core.toNat work.kind = true)
    (hwork : s.workOk (s.tileModelOf core.toNat work.kind ran) work = true) :
    exec (.tileEnd core work ran next) s = .next (s.tileEnd core.toNat work ran next) := by
  simp only [exec, execTileEnd, hmay, hwork, Bool.and_self, if_true]

/-! ### The urgent window (R270) -/

theorem exec_urgentWindowEnd (h : s.gaf.urgentEnd ≤ s.tick) :
    exec .urgentWindowEnd s = .next { s with gaf := { s.gaf with
      urgentCycles := 0, urgentCapped := false, urgentEnd := (s.tick / s.urgentTicks + 1) * s.urgentTicks } } := by
  simp only [exec, execUrgentWindowEnd, if_pos h]

/-! ### The weight window (R221) -/

/-- Counting in another field leaves the size of the halves as it is. -/
theorem State.halfBytes_bump (r : Reg) (i v : Nat) (hr : .CRU_CLU_WIN_MIB ≠ r) (hi : i < 4294967296) (hk : k < 4294967296) :
    (s.bump r i v).halfBytes k = s.halfBytes k := by
  rw [State.halfBytes, State.bump, State.reg_setReg_ne s r _ _ i k hr hi hk, State.halfBytes]

theorem State.streamModel_bump (r : Reg) (i v : Nat) : (s.bump r i v).streamModel = s.streamModel := by
  simp only [State.streamModel, State.bump_frame]

/-- The half holds the slab that the streamer brought, of the model of the running step. -/
theorem State.windows_fillHalf (half : Bool) (slab bytes : Nat) :
    (s.fillHalf k half slab bytes).windows.get? (k * 2 + b2n half) =
      some { slab := slab, bytes := min bytes (s.halfBytes k), model := s.streamModel } := Map.get?_set_self ..

/-! ### Errors of the SRAM (R66, R225) -/

/-- A page that goes FAILED reads FAILED. -/
theorem State.failed_failPage (p code : Nat) : (s.failPage p code).failed p = true := by
  unfold State.failPage
  split
  case isTrue h => exact h
  case isFalse =>
    have hstate : (((s.recErr p code).setPageState p 0xFF).setIntBit pgTel 10).pageState p = 0xFF := by
      rw [State.setIntBit, State.pageState_setInt, State.pageState_setPageState, if_pos rfl]
    exact beq_iff_eq.mpr hstate

theorem State.failed_failCore (code : Nat) : (s.failCore n code).failed (pgCru + n) = true :=
  State.failed_failPage ..

/-- What a core shows depends on the table of cores alone. -/
theorem State.core_congr {t : State} (h : t.cores = s.cores) (n : Nat) : t.core n = s.core n := by
  simp only [State.core, h]

/-- A core that goes FAILED shows no tile and waits for no half of the window. -/
theorem State.core_failCore (code : Nat) : (s.failCore n code).core n =
    { s.core n with tileKind := 0, tileModel := 0, tileUrgent := false, tagged := false, waits := none } := by
  have hpage (t : State) (p : Nat) : ((t.setIntBit p 9).failPage p code).core n = t.core n :=
    State.core_congr (by simp only [State.failPage_frame, State.setIntBit_frame]) n
  rw [State.failCore, hpage, State.core_setCore, if_pos rfl]

theorem exec_coreSramUe {core : BitVec 7} (hon : s.domState core.toNat ≠ 2)
    (hf : s.failed (pgCru + core.toNat) = false) :
    exec (.coreSramUe core) s = .next ((s.failCore core.toNat 0x0002).abortStep.showHeld) := by
  simp only [exec, execCoreSramUe, hon, hf, Bool.false_eq_true, or_self, if_false]

theorem exec_clusterSramUe {cluster : BitVec 3} (hon : s.domState (128 + cluster.toNat) ≠ 2) :
    exec (.clusterSramUe cluster) s = .next ((((clusterCores cluster.toNat).foldl
      (fun s n => if s.failed (pgCru + n) then s else s.failCore n 0x0003) s).abortStep.clearCluster
        cluster.toNat).showHeld) := by
  simp only [exec, execClusterSramUe, if_neg hon]

end Sys2Proof.Machine

open Sys2Proof Sys2Proof.Machine in
/-- Settles O34: each row in the branch that its hypotheses select; the filled half is read back past the counts, and the failed
core through the failing of its page. -/
theorem coresWork : Obligations.CoresWork := by
  refine ⟨fun s => ⟨?_, exec_urgentWindowEnd⟩, fun k half slab bytes stalls s => ⟨rfl, ?_⟩,
    fun s => ⟨fun n hon hf => ⟨exec_coreSramUe hon hf, State.failed_failCore _, ?_⟩, fun k => exec_clusterSramUe⟩⟩
  · intro n work ran c out _ _ hmay hwork hkind htag hurg
    rw [exec_tileEnd none hmay (by rwa [State.tileModelOf_shown _ _ hkind]), State.tileEnd_shown _ _ hkind htag hurg]
  · have hk : k.toNat < 4294967296 := by omega
    rw [State.windows_fillHalf, State.halfBytes_bump _ _ _ (by decide) hk hk, State.halfBytes_bump _ _ _ (by decide) hk hk,
      State.streamModel_bump, State.streamModel_bump]
  · rw [State.core_failCore]
end

section
/-! ## The order of dequeuing -/
namespace Sys2Proof.Machine
variable {s : State}

/-! ### The finish tags of a group's heads (R275) -/

/-- Of tags within half of their number space of each other, the one that precedes is the lower. -/
theorem tagBefore_iff_lt {base a b : Nat} (ha : base ≤ a ∧ a < base + 2 ^ 63) (hb : base ≤ b ∧ b < base + 2 ^ 63) :
    tagBefore a b = true ↔ a < b := by
  simp only [tagBefore, Bool.and_eq_true, decide_eq_true_eq, bne_iff_ne, ne_eq]
  omega

theorem bestHead_mem_of_some {l : List (Nat × Nat × Nat)} {b : Nat × Nat × Nat} (h : bestHead l = some b) : b ∈ l := by
  induction l generalizing b with
  | nil => cases h
  | cons e l ih =>
    simp only [bestHead] at h
    split at h
    case h_1 => cases h; exact List.mem_cons_self
    case h_2 f hf =>
      split at h <;> cases h
      · exact List.mem_cons_of_mem _ (ih hf)
      · exact List.mem_cons_self

theorem bestHead_eq_none {l : List (Nat × Nat × Nat)} (h : bestHead l = none) : l = [] := by
  cases l with
  | nil => rfl
  | cons e l =>
    simp only [bestHead] at h
    split at h
    · cases h
    · split at h <;> cases h

theorem bestHead_finish_le {base : Nat} {l : List (Nat × Nat × Nat)} {b : Nat × Nat × Nat} (h : bestHead l = some b)
    (hl : ∀ e ∈ l, base ≤ e.2.2 ∧ e.2.2 < base + 2 ^ 63) : ∀ e ∈ l, b.2.2 ≤ e.2.2 := by
  induction l generalizing b with
  | nil => cases h
  | cons e l ih =>
    obtain ⟨he, hrest⟩ := List.forall_mem_cons.1 hl
    refine List.forall_mem_cons.2 ?_
    simp only [bestHead] at h
    split at h
    case h_1 hnone =>
      cases h
      rw [bestHead_eq_none hnone]
      exact ⟨le_rfl, List.forall_mem_nil _⟩
    case h_2 f hf =>
      have hle := ih hf hrest
      have hbefore := tagBefore_iff_lt (hrest f (bestHead_mem_of_some hf)) he
      split at h
      case isTrue hlt =>
        cases h
        exact ⟨(hbefore.1 hlt).le, hle⟩
      case isFalse hnot =>
        cases h
        have hef : e.2.2 ≤ f.2.2 := not_lt.1 (mt hbefore.2 hnot)
        exact ⟨le_rfl, fun g hg => hef.trans (hle g hg)⟩

/-! ### One decision (R275, R276) -/

theorem State.dequeueNext_admin {id : Nat} {l : List Nat} (hq : s.adm.adminQ = id :: l) (he : s.eligible id = true) :
    s.dequeueNext = ({ s with adm := { s.adm with adminQ := l } }).startCmd id := by
  simp only [State.dequeueNext, hq, he, if_true]

/-- Where no administrative command can start, the tenant queues are looked at. -/
theorem State.dequeueNext_groups (h : ∀ i l, s.adm.adminQ = i :: l → s.eligible i = false) :
    s.dequeueNext = s.dequeueGroups := by
  unfold State.dequeueNext
  split
  · next i l hq => rw [h i l hq, if_neg Bool.false_ne_true]
  · rfl

theorem State.dequeueGroups_urgent {q id f : Nat} (h : bestHead (s.heads true) = some (q, id, f)) :
    s.dequeueGroups = s.dequeue true q id f := by
  simp only [State.dequeueGroups, h]

theorem State.dequeueGroups_normal {q id f : Nat} (hnone : s.heads true = [])
    (h : bestHead (s.heads false) = some (q, id, f)) : s.dequeueGroups = s.dequeue false q id f := by
  simp only [State.dequeueGroups, hnone, bestHead, h]

theorem exec_commandDequeue (hf : s.freeze = 0) (hr : s.ckp.restore = none) (hp : s.pageState pgGlb = 1) :
    exec .commandDequeue s = .next s.dequeueNext := by
  simp only [exec, execCommandDequeue, hf, hr, hp, Option.isNone_none, and_self, if_true]

theorem exec_commandDequeue_frozen (hf : s.freeze ≠ 0) : exec .commandDequeue s = .next s := by
  simp only [exec, execCommandDequeue, hf, false_and, if_false]

/-! ### Late commands (R277) -/

theorem exec_lateDrop {id : Nat} {c : Cmd} (h : s.lateCmd = some (id, c)) : exec .lateDrop s = .next (s.dropLate id c) := by
  simp only [exec, execLateDrop, h]

/-- The session that a command names does not hang on the queues. -/
theorem State.named_unqueue (id : Nat) (c : Cmd) (d : Desc) : (s.unqueue id c).named d = s.named d := rfl

theorem State.dropLate_unnamed {id : Nat} {c : Cmd} (h : s.named c.desc = none) :
    s.dropLate id c = ((((s.unqueue id c).complete id .deadlineMissed 0x0A).settleHeld id c).bump
      .ADM_DROPPED_COUNT).setIntBit pgAdm 10 := by
  simp only [State.dropLate, State.named_unqueue, h]

theorem State.dropLate_named {id k : Nat} {c : Cmd} (h : s.named c.desc = some k) :
    s.dropLate id c = (((((s.unqueue id c).onSession k (fun x => { x with misses := satAdd 16 x.misses 1 })).complete id
      .deadlineMissed 0x0A).settleHeld id c).bump .ADM_DROPPED_COUNT).setIntBit pgAdm 10 := by
  simp only [State.dropLate, State.named_unqueue, h]

/-! ### The end of a sojourn window (R278) -/

@[simp] theorem State.unaccounted_keepRecord (r : List Byte) : (s.keepRecord r).unaccounted = s.unaccounted := by
  unfold State.keepRecord
  split
  · rfl
  · exact State.unaccounted_bump s _ _ _

/-- A queue as a new window finds it: its running figures start at 0. -/
def AdmQueue.nextWindow (a : AdmQueue) : AdmQueue :=
  { a with curMax := 0, curSum := 0, curCount := 0, active := !a.cmds.isEmpty }

/-- The end of a window writes fields and TEL records (`u`), and then starts the next one in every queue. -/
theorem State.sampleEnd_eq : ∃ u : State, u.unaccounted = s.unaccounted ∧
    s.sampleEnd = { u with adm := { u.adm with
      queues := u.adm.queues.map (fun _ a => a.nextWindow), windowEnd := (u.tick / u.sampleTicks + 1) * u.sampleTicks } } := by
  refine ⟨_, ?_, rfl⟩
  split
  · rw [foldl_keeps State.unaccounted _ (fun _ _ => State.unaccounted_keepRecord _),
      foldl_keeps State.unaccounted _ (fun _ _ => by simp)]
  · rw [foldl_keeps State.unaccounted _ (fun _ _ => by simp)]

theorem State.tick_lt_windowEnd (s : State) : s.tick < (s.tick / s.sampleTicks + 1) * s.sampleTicks := by
  have hpos : 0 < s.sampleTicks := by unfold State.sampleTicks; omega
  exact (Nat.div_lt_iff_lt_mul hpos).1 (Nat.lt_succ_self _)

theorem exec_admSampleWindowEnd (h : s.adm.windowEnd ≤ s.tick) : exec .admSampleWindowEnd s = .next s.sampleEnd := by
  simp only [exec, execAdmSampleWindowEnd, if_pos h]

end Sys2Proof.Machine

open Sys2Proof Sys2Proof.Machine in
/-- Settles O29: on tags within half of the number space, wrapped comparison is the order of the numbers. -/
theorem lowestFinishFirst : Obligations.LowestFinishFirst :=
  fun _ _ _ h hl => ⟨bestHead_mem_of_some h, bestHead_finish_le h hl⟩

open Sys2Proof Sys2Proof.Machine in
/-- Settles O28: the decision by the first of the administrative, urgent and normal heads that can start; the late command by
whether it names a session; the window through the state that its latched figures leave. -/
theorem dequeueOrder : Obligations.DequeueOrder := by
  refine ⟨fun s => ⟨fun hf hr hp => ⟨fun id l hq he => ?_, fun q id f hadm hbest => ?_,
    fun q id f hadm hnone hbest => ?_⟩, exec_commandDequeue_frozen⟩, fun s id c hlate => ⟨fun hn => ?_, fun k hn => ?_⟩, fun s hend => ?_⟩
  · rw [exec_commandDequeue hf hr hp, State.dequeueNext_admin hq he]
  · rw [exec_commandDequeue hf hr hp, State.dequeueNext_groups hadm, State.dequeueGroups_urgent hbest]
  · rw [exec_commandDequeue hf hr hp, State.dequeueNext_groups hadm, State.dequeueGroups_normal hnone hbest]
  · rw [exec_lateDrop hlate, State.dropLate_unnamed hn]
  · rw [exec_lateDrop hlate, State.dropLate_named hn]
  · obtain ⟨u, hu, ht⟩ := State.sampleEnd_eq (s := s)
    obtain ⟨-, htick, -, -, -, hrings, -, -, hwindow, hhost, -, hcmds, -, hadm, -⟩ := State.of_unaccounted hu
    refine ⟨_, (exec_admSampleWindowEnd hend).trans (congrArg _ ht), ?_,
      fun q a ha => ⟨a.nextWindow, ?_, rfl, rfl, rfl, rfl, rfl, rfl, rfl⟩, hcmds, hrings, hhost, hwindow⟩
    · exact htick ▸ u.tick_lt_windowEnd
    · rw [Map.get?_map, hadm, ha, Option.map_some]
end

section
/-! ## STEP -/
namespace Sys2Proof.Machine
variable {s u v : State} {id k : Nat} {c : Cmd} {x y z : Session}

/-- The session with the request of a STEP (R257, R261). -/
def Session.requested (x : Session) (id : Nat) (d : Desc) : Session :=
  { x with genReq := true, deadline := d.deadline, stepReq := some (stepReqOf id d x),
           input := x.input.map (fun p => { p with sampled := false }) }

@[simp] theorem State.sdir_promoting (k : Nat) : (s.promoting k).sdir = s.sdir := by
  unfold State.promoting
  split
  · rfl
  · simp only
    repeat' split
    all_goals simp only [(State.askPromote_keeps ..).1, State.bump_frame]

/-- A session that becomes RUNNABLE changes in its run state and in the tick since when it is RUNNABLE. -/
theorem State.session?_becomeRunnable_self (hx : s.session? k = some x) : (s.becomeRunnable k).session? k =
    some { x with runState := .runnable, runnableAt := if x.runState = .runnable then x.runnableAt else s.tick } := by
  have hask (t : State) : (if t.enabled pgStm then t.askPromote k t.tick true false else t).sdir = t.sdir := by
    split
    · exact (State.askPromote_keeps ..).1
    · rfl
  rw [State.becomeRunnable, hx]
  exact (State.session?_congr (hask _) k).trans (State.session?_setSession_self ..)

/-- The begun step stands in its session as a request; besides that, the session may have become RUNNABLE. -/
theorem State.session?_beginStep (hz : s.session? k = some z) : ∃ r tick, (s.beginStep id c k).session? k =
    some { z.requested id c.desc with runState := r, runnableAt := tick } := by
  have hreq : (((s.promoting k).setSession k (z.requested id c.desc)).runCmd id true).session? k
      = some (z.requested id c.desc) := by
    rw [State.session?_congr (State.sdir_runCmd ..), State.session?_setSession_self]
  simp only [State.beginStep, hz]
  split
  · exact ⟨_, _, State.session?_becomeRunnable_self hreq⟩
  · exact ⟨_, _, State.session?_becomeRunnable_self hreq⟩
  · exact ⟨_, _, hreq⟩

/-- A vocabulary or a constraint object of the session's parameters cannot be read. -/
def State.stepObjectsBad (u : State) (y : Session) : Bool :=
  [(1, y.rec'.params.banSet), (2, y.rec'.params.schema), (3, y.rec'.params.escape), (4, y.rec'.params.exitProfile)].any
    (fun o => o.2 != 0 && ((u.object? y.tenant o.1 o.2).map (·.failed)).getD false)

/-- What a STEP asks of the session and of its units is there (R257, R261). -/
def State.stepServed (u : State) (y : Session) (d : Desc) : Prop :=
  y.genReq = false ∧ (d.optBit 10 = true → u.enabled pgMrv = true) ∧
  (y.rec'.params.namesAny = true → u.enabled pgJck = true) ∧ u.stepObjectsBad y = false ∧
  ((u.vocab? y.rec'.params.model).map (·.failed)).getD false = false ∧
  (u.enabled pgStm = true ∨ y.residency = .hot) ∧ (d.optBit 10 = true → (u.vocab? y.rec'.params.model).isSome = true)

/-- The state after the compaction point of a STEP: the point of a RUNNING session is due at the end of its step, and the
text stream has ended (R182, R293). -/
def State.afterStepPoint (v : State) (id k : Nat) (d : Desc) (y : Session) : State :=
  (if d.optBit 8 && y.runState == .running then v.onSession k (fun e => { e with compactDue := some id }) else v).flushCarry k

/-- A STEP that is served begins once its compaction point is passed, unless there is nothing to do. -/
theorem opStep_passed (hy : u.session? k = some y) (h : u.stepServed y c.desc)
    (hp : u.point id c k (!c.desc.optBit 8 || y.runState == .running) = .passed v)
    (hz : (v.afterStepPoint id k c.desc y).session? k = some z) : opStep u id c k =
      if c.desc.specF 39 36 = 0 ∧ z.input = [] then (v.afterStepPoint id k c.desc y).complete id .ok 6
      else (v.afterStepPoint id k c.desc y).beginStep id c k := by
  obtain ⟨hgen, hmrv, hjck, hobj, hvoc, hstm, htok⟩ := h
  unfold State.stepObjectsBad at hobj
  unfold State.afterStepPoint at hz ⊢
  have hmrv' : (c.desc.optBit 10 && !u.enabled pgMrv) = false := by simpa using hmrv
  have hjck' : (y.rec'.params.namesAny && !u.enabled pgJck) = false := by simpa using hjck
  have hstm' : (!u.enabled pgStm && y.residency != .hot) = false := by
    rcases hstm with hen | hhot
    · rw [hen]; rfl
    · rw [hhot]; exact Bool.and_false _
  have htok' : (c.desc.optBit 10 && (u.vocab? y.rec'.params.model).isNone) = false := by
    simpa [Option.isSome_iff_ne_none] using htok
  simp only [opStep, hy, hgen, hmrv', hjck', hobj, hvoc, hstm', htok', hp, hz, Bool.or_self, Bool.false_eq_true, if_false,
    Option.map_some, Option.getD_some, List.isEmpty_iff]

theorem exec_step (h : s.readyOn id 0x1A c x) :
    exec (.step id) s = .next ((opStep (s.atEffect id c x) id c.resolved (handleSlot c.desc.handle)).settled s id c) :=
  congrArg Host.Outcome.next (State.commandRow_readyOn s id _ c x effStep h)

end Sys2Proof.Machine

open Sys2Proof Sys2Proof.Machine in
/-- Settles O17: the row runs a served STEP past its compaction point; the session of a begun step holds its request, and
settling touches WAIT_HELD alone. -/
theorem stepBegun : Obligations.StepBegun := by
  intro s v id c x y z hc k u p hy hgen hmrv hjck hobj hvoc hstm htok running hp q hz
  have hserved : u.stepServed y c.resolved.desc := ⟨hgen, hmrv, hjck, hobj, hvoc, hstm, htok⟩
  have hrow := (exec_step hc).trans
    (congrArg (fun t => Host.Outcome.next (State.settled t s id c)) (opStep_passed hy hserved hp hz))
  refine ⟨fun hnone hempty => ?_, fun hwork => ?_⟩
  · rw [hrow, if_pos ⟨hnone, hempty⟩]
    rfl
  · obtain ⟨r, tick, hw⟩ := State.session?_beginStep (id := id) (c := c.resolved) hz
    obtain ⟨b, hb⟩ := State.session?_settled (t := q.beginStep id c.resolved k) (s := s) id k c
    have hnot : ¬ (c.resolved.desc.specF 39 36 = 0 ∧ z.input = []) := by
      rintro ⟨hnone, hempty⟩
      exact hwork.elim (· hnone) (· hempty)
    refine ⟨_, _, ?_, rfl, hb.trans (congrArg _ hw), rfl, rfl, rfl, rfl, rfl⟩
    rw [hrow, if_neg hnot]
    rfl
end

section
/-! ## Text and constraint objects -/
namespace Sys2Proof.Machine
variable {s u : State} {id k elided : Nat} {c : Cmd} {x y : Session} {v : Vocab} {o : CObject} {b : CBody} {l : List Nat}

/-! ### APPEND_TEXT and APPEND_TOKENS -/

/-- The state after an append whose tokens `l` enter: the counts, the promotion, the carry in the step record, the input and
the completion (R293, R298, R299, R300). -/
def State.appended (u : State) (id k : Nat) (y : Session) (reset : Bool) (l : List Nat) (elided : Nat)
    (units : List TextUnit) (carry : List Byte) (taken : Nat) : State :=
  let counted := ((u.countInvalid units).bump .MRV_BYTES_IN_COUNT 0 taken).bump .MRV_TOKENS_IN_COUNT 0 l.length
  let noted := if elided = 0 then counted
    else ((counted.bump .MRV_TRUNCATIONS_COUNT).bump .MRV_ELIDED_COUNT 0 elided).setIntBit pgMrv 9
  (((noted.promoting k).changeRecord k y carry reset).enterInput k (tokenInput l)).complete id .ok elided
    (appendResult l.length (badTotal units) (elided != 0) carry.length)

/-- Tokens that fit, with room in the heap, enter. -/
theorem State.append_fits {noTrunc reset : Bool} {voc : Option Vocab} {toks : List Nat} {units : List TextUnit}
    {carry : List Byte} {taken : Nat} (hfit : u.fit y noTrunc toks voc = .fits l elided)
    (hroom : u.heapRoom y.tenant (inputBytes (tokenInput l)) false = true) :
    u.append id k y noTrunc reset voc toks units carry taken = u.appended id k y reset l elided units carry taken := by
  simp only [State.append, hfit, hroom, Bool.not_true, Bool.false_eq_true, if_false]
  rfl

/-- The units of a text: at the end of its stream, also those of the bytes that no character completes (R293). -/
def textUnits (ends : Bool) (bytes : List Byte) : List TextUnit :=
  let d := decodeUtf8 bytes.length bytes
  if ends then d.1 ++ endUnits d.2 else d.1

/-- The bytes of a text that the next text goes on from: none at the end of its stream (R293). -/
def textCarry (ends : Bool) (bytes : List Byte) : List Byte := if ends then [] else (decodeUtf8 bytes.length bytes).2

/-- A text for a vocabulary that can be read is appended by its units. -/
theorem opAppendText_served (hy : u.session? k = some y) (hmrv : u.enabled pgMrv = true)
    (hv : u.vocab? y.rec'.params.model = some v) (hread : v.failed = false) :
    opAppendText u id c k = u.append id k y (c.desc.optBit 10) (c.desc.optBit 9) (some v)
      (v.tokenize y.rec'.params.utf8Replace (textUnits (c.desc.optBit 8) (y.rec'.carry ++ u.payload c.desc)))
      (textUnits (c.desc.optBit 8) (y.rec'.carry ++ u.payload c.desc))
      (textCarry (c.desc.optBit 8) (y.rec'.carry ++ u.payload c.desc)) (u.payload c.desc).length := by
  simp only [opAppendText, textUnits, textCarry, hy, hmrv, hv, hread, Bool.not_true, Bool.false_eq_true, if_false]

/-- The tokens of an APPEND_TOKENS. -/
def State.tokenPayload (u : State) (d : Desc) : List Nat :=
  (entriesOf (u.payload d) 4 ((u.payload d).length / 4)).map leNat

/-- The tokens that the carry of a session gives at the end of its text. -/
def Session.flushTokens (y : Session) (voc : Option Vocab) : List Nat :=
  (voc.map (fun v => v.tokenize y.rec'.params.utf8Replace (endUnits y.rec'.carry))).getD []

/-- Tokens that the model has, and that fit after those of the carry, are appended, where the vocabulary that a flush or a
truncation needs can be read. -/
theorem opAppendTokens_served (hy : u.session? k = some y)
    (hknown : (u.tokenPayload c.desc).any (fun t => decide ((u.layoutOf y).vocab ≤ t)) = false)
    (hfit : u.fit y (c.desc.optBit 10) (y.flushTokens (u.vocab? y.rec'.params.model) ++ u.tokenPayload c.desc)
      (u.vocab? y.rec'.params.model) = .fits l elided)
    (hread : (((u.vocab? y.rec'.params.model).map (·.failed)).getD false && (!y.rec'.carry.isEmpty || elided != 0)) = false) :
    opAppendTokens u id c k = u.append id k y (c.desc.optBit 10) (c.desc.optBit 9) (u.vocab? y.rec'.params.model)
      (y.flushTokens (u.vocab? y.rec'.params.model) ++ u.tokenPayload c.desc) (endUnits y.rec'.carry) [] 0 := by
  unfold State.tokenPayload Session.flushTokens at *
  simp only [opAppendTokens, hy, hknown, hfit, AppendFit.needsVocab, hread, Bool.false_eq_true, if_false]

theorem exec_appendText (h : s.readyOn id 0x18 c x) : exec (.appendText id) s =
    .next ((opAppendText (s.atEffect id c x) id c.resolved (handleSlot c.desc.handle)).settled s id c) :=
  congrArg Host.Outcome.next (State.commandRow_readyOn s id _ c x effAppendText h)

theorem exec_appendTokens (h : s.readyOn id 0x19 c x) : exec (.appendTokens id) s =
    .next ((opAppendTokens (s.atEffect id c x) id c.resolved (handleSlot c.desc.handle)).settled s id c) :=
  congrArg Host.Outcome.next (State.commandRow_readyOn s id _ c x effAppendTokens h)

/-! ### VOCAB_LOAD -/

theorem exec_vocabLoad (h : s.readyPlain id 0x43 c) : exec (.vocabLoad id) s = .next ((opVocabLoad s id).settled s id c) :=
  congrArg Host.Outcome.next (State.commandRow_readyPlain s id _ c effVocabLoad h)

theorem opVocabLoad_enabled (hmrv : s.enabled pgMrv = true) : opVocabLoad s id = s.runCmd id false := by
  simp [opVocabLoad, hmrv]

/-- A package that passes the checks of R287 gives the model its vocabulary. -/
theorem exec_vocabLoadDone_pass (hload : s.loadingVocab = some (id, c))
    (hhead : vocabHeaderOk (s.readSrc (c.desc.opt 8 2) (c.desc.specF 47 40) 64) (c.desc.specF 55 48) = true)
    (hpass : s.vocabChecks (c.desc.specF 36 36) (c.desc.specF 55 48)
      (s.readSrc (c.desc.opt 8 2) (c.desc.specF 47 40) (c.desc.specF 55 48)) = .pass v) :
    exec .vocabLoadDone s = .next (({ s with vocabs := s.vocabs.set (c.desc.specF 36 36) v }).complete id .ok 0
      (v.tokens.length + v.merges.length * 2 ^ 32)) := by
  simp only [exec, execVocabLoadDone, hload, hhead, hpass, Bool.not_true, Bool.false_eq_true, if_false]

/-! ### CONSTRAINT_LOAD -/

theorem exec_constraintLoad (h : s.readyPlain id 0x42 c) :
    exec (.constraintLoad id) s = .next ((opConstraintLoad s id c).settled s id c) :=
  congrArg Host.Outcome.next (State.commandRow_readyPlain s id _ c effConstraintLoad h)

theorem opConstraintLoad_enabled (hjck : s.enabled pgJck = true) : opConstraintLoad s id c =
    if c.desc.optBit 8 then s.unloadObject id c (c.desc.opt 9 3) (c.desc.specF 37 36)
    else s.loadObject id c (c.desc.opt 9 3) (c.desc.specF 37 36) (c.desc.specF 38 38) := by
  simp only [opConstraintLoad, hjck, Bool.not_true, Bool.false_eq_true, if_false]

/-- An object that passes the checks of R302 and R306, with room in the store, stands in the store. -/
theorem State.loadObject_pass {kind oid mid : Nat} (hnew : s.object? c.tenant kind oid = none)
    (hmodel : s.modelFor c.tenant mid = true) (hbody : parseBody kind (s.payload c.desc) = some b)
    (ho : o = { model := mid, body := b, bytes := Config.storeBytes kind c.desc.payLen })
    (hprofile : o.profileFits (s.model mid) = true)
    (htokens : (bodyTokens kind (s.payload c.desc) b).any (fun t => decide ((s.model mid).layout.vocab ≤ t)) = false)
    (hroom : s.storeUsed + o.bytes ≤ s.storeSize) :
    s.loadObject id c kind oid mid =
      ({ s with objects := s.objects.set (objKey c.tenant kind oid) o }).complete id .ok 0 o.bytes := by
  subst ho
  simp only [State.loadObject, hnew, hmodel, hbody, hprofile, htokens, Nat.not_lt.2 hroom, Option.isSome_none,
    Bool.not_true, Bool.false_eq_true, if_false]

/-- An object that no session names is taken out of the store. -/
theorem State.unloadObject_unused {kind oid : Nat} (ho : s.object? c.tenant kind oid = some o)
    (hunused : s.objectUsers c.tenant kind oid = 0) : s.unloadObject id c kind oid =
      ({ s with objects := s.objects.erase (objKey c.tenant kind oid) }).complete id .ok 0 o.bytes := by
  simp only [State.unloadObject, ho, hunused, ne_eq, not_true_eq_false, if_false]

end Sys2Proof.Machine

open Sys2Proof Sys2Proof.Machine in
/-- Settles O16: both rows reach one append, which enters the tokens that fit; the tokens need the vocabulary only where
they flush a carry or are truncated. -/
theorem inputAppended : Obligations.InputAppended := by
  intro s id c x y v l elided k u hy w
  constructor
  · intro hc hmrv hv hread bytes d units hfit hroom
    have happend := opAppendText_served (id := id) (c := c.resolved) hy hmrv hv hread
    rw [exec_appendText hc, happend.trans (State.append_fits hfit hroom)]
    rfl
  · intro hc toks vc units hknown hfit hread hroom
    have happend := opAppendTokens_served (id := id) (c := c.resolved) hy hknown hfit hread
    rw [exec_appendTokens hc, happend.trans (State.append_fits hfit hroom)]
    rfl

open Sys2Proof Sys2Proof.Machine in
/-- Settles O32: the rows run their effects on the command; of a load and of an unload, the case in which every check passes. -/
theorem vocabulariesAndObjects : Obligations.VocabulariesAndObjects := by
  refine ⟨fun s id c => ⟨fun hc hmrv => ?_, fun v hload => exec_vocabLoadDone_pass hload⟩, fun s id c hc hjck => ?_⟩
  · rw [exec_vocabLoad hc, opVocabLoad_enabled hmrv]
  · intro kind oid mid bytes
    rw [exec_constraintLoad hc, opConstraintLoad_enabled hjck]
    refine ⟨fun b hload hnew hmodel hbody hprofile htokens hroom => ?_, fun o hunload ho hunused => ?_⟩
    · rw [hload, if_neg Bool.false_ne_true, State.loadObject_pass hnew hmodel hbody rfl hprofile htokens hroom]
    · rw [if_pos hunload, State.unloadObject_unused ho hunused]
end

section
/-! ## EMB_LOOKUP, EMB_UPDATE and EMB_REPLICATE -/
namespace Sys2Proof.Machine
variable {s v : State} {id op : Nat} {c : Cmd} {y : Session} {bags : List Bag} {recs : List URec} {st : Status} {r : Nat}

/-- A command of the embedding or the search engine takes effect in `v`: it names no session, or its session is resolved. -/
def State.taken (s v : State) (id op : Nat) (c : Cmd) : Prop :=
  (s.readyPlain id op c ∧ v = s) ∨ ∃ x, s.readyRows id op c x ∧ v = s.reaches id c

/-- An effect that does not look at the slot of its session runs alike with a session and without one. -/
theorem State.commandRow_taken {eff : Effect} (h : s.taken v id op c)
    (hslot : ∀ k, eff v id c.resolved k = eff v id c 0) : s.commandRow id op eff = (eff v id c 0).settled s id c := by
  rcases h with ⟨hplain, rfl⟩ | ⟨x, hrows, rfl⟩
  · exact State.commandRow_readyPlain v id op c eff hplain
  · rw [State.commandRow_readyRows s id op c x eff hrows, hslot]

theorem State.cmd?_of_taken (h : s.taken v id op c) : ∃ e, v.cmd? id = some e := by
  rcases h with ⟨hplain, rfl⟩ | ⟨x, hrows, rfl⟩
  · obtain ⟨⟨hc, _⟩, _⟩ := hplain
    exact ⟨c, hc⟩
  · obtain ⟨⟨hc, _⟩, _⟩ := hrows
    exact ⟨_, by rw [State.reaches, State.cmd?_onCmd, if_pos rfl, hc]; rfl⟩

theorem State.emb_of_taken (h : s.taken v id op c) : v.emb = s.emb := by
  rcases h with ⟨_, rfl⟩ | ⟨x, _, rfl⟩ <;> rfl

/-! ### Joining a batch (R319) -/

@[simp] theorem State.emb_dropSource : (s.dropSource id).emb = s.emb := by
  unfold State.dropSource
  repeat' split
  all_goals rfl

@[simp] theorem State.emb_settleHeld : (s.settleHeld id c).emb = s.emb := by
  unfold State.settleHeld
  split <;> simp

@[simp] theorem State.emb_dirtyEntry (slot : Nat) : (s.dirtyEntry slot).emb = s.emb := by
  unfold State.dirtyEntry
  split <;> rfl

@[simp] theorem State.emb_settled : (v.settled s id c).emb = v.emb := by
  simp only [State.settled]
  split <;> simp

theorem State.waiting_joinEmb : (s.joinEmb id).emb.waiting = s.emb.waiting ++ [id] := rfl

theorem State.cmd?_joinEmb_self {d : Cmd} (h : s.cmd? id = some d) :
    (s.joinEmb id).cmd? id = some { d with phase := .running, exempt := true, progressTick := s.tick } := by
  have hjoin : ({ s with emb := { s.emb with waiting := s.emb.waiting ++ [id] } } : State).cmd? id = some d := h
  rw [State.joinEmb, State.runCmd, State.cmd?_onCmd, if_pos rfl, hjoin]
  rfl

/-! ### EMB_LOOKUP (R326) -/

/-- The tables and rows that the bags name: of an empty bag, its table with row 0. -/
def bagRows (bags : List Bag) : List (Nat × Nat) :=
  bags.flatMap (fun b => (b.table, 0) :: b.entries.map (fun e => (b.table, e.1)))

/-- A lookup whose vectors go to memory does not look at its session. -/
theorem opEmbLookup_resolved (hmem : c.desc.opt 8 2 ≠ 1) : opEmbLookup s id c.resolved = opEmbLookup s id c := by
  simp only [opEmbLookup, Cmd.resolved, hmem, if_false]
  rfl

theorem opEmbLookup_refused (hen : s.enabled pgEmb = true)
    (hbags : parseBags (c.desc.specF 39 36) (s.payload c.desc) = some bags)
    (hcheck : s.tableChecks id c.tenant (bagRows bags) = some (st, r)) : opEmbLookup s id c = s.refuse id st r := by
  unfold bagRows at hcheck
  simp only [opEmbLookup, hen, hbags, hcheck, Bool.not_true, Bool.false_eq_true, if_false]

theorem opEmbLookup_toMemory (hen : s.enabled pgEmb = true)
    (hbags : parseBags (c.desc.specF 39 36) (s.payload c.desc) = some bags)
    (hcheck : s.tableChecks id c.tenant (bagRows bags) = none) (hmem : c.desc.opt 8 2 ≠ 1) (hout : s.outOk c bags = true) :
    opEmbLookup s id c = s.joinEmb id := by
  unfold bagRows at hcheck
  simp only [opEmbLookup, hen, hbags, hcheck, hmem, hout, Bool.not_true, Bool.false_eq_true, if_false]

theorem opEmbLookup_toSession (hen : s.enabled pgEmb = true)
    (hbags : parseBags (c.desc.specF 39 36) (s.payload c.desc) = some bags)
    (hcheck : s.tableChecks id c.tenant (bagRows bags) = none) (hsess : c.desc.opt 8 2 = 1)
    (hy : c.slot.bind s.session? = some y) (hobs : (s.layoutOf y).dObs ≠ 0)
    (hwidth : bags.any (fun b => s.tblD b.table != (s.layoutOf y).dObs) = false)
    (hfit : s.positionsFit y bags.length = true) (hroom : s.vecRoom y bags.length (s.layoutOf y).dObs = true) :
    opEmbLookup s id c = s.joinEmb id := by
  unfold bagRows at hcheck
  simp only [opEmbLookup, hen, hbags, hcheck, hsess, hy, hobs, hwidth, hfit, hroom, Bool.not_true, Bool.false_eq_true,
    or_self, if_true, if_false]

theorem exec_embLookup_taken (h : s.taken v id 0x30 c) (hmem : c.desc.opt 8 2 ≠ 1) :
    exec (.embLookup id) s = .next ((opEmbLookup v id c).settled s id c) :=
  congrArg Host.Outcome.next (State.commandRow_taken (eff := effEmbLookup) h (fun _ => opEmbLookup_resolved hmem))

theorem exec_embLookup_session {x : Session} (h : s.readyRows id 0x30 c x) :
    exec (.embLookup id) s = .next ((opEmbLookup (s.reaches id c) id c.resolved).settled s id c) :=
  congrArg Host.Outcome.next (State.commandRow_readyRows s id _ c x effEmbLookup h)

/-! ### EMB_UPDATE (R334) -/

theorem exec_embUpdate (h : s.taken v id 0x31 c) :
    exec (.embUpdate id) s = .next ((opEmbUpdate v id c).settled s id c) :=
  congrArg Host.Outcome.next (State.commandRow_taken (eff := effEmbUpdate) h (fun _ => rfl))

theorem opEmbUpdate_refused (hen : s.enabled pgEmb = true)
    (hrecs : s.parseRecords (c.desc.specF 39 36) (s.payload c.desc) = some recs)
    (hcheck : s.tableChecks id c.tenant (recs.map (fun e => (e.table, e.row))) = some (st, r)) :
    opEmbUpdate s id c = s.refuse id st r := by
  simp only [opEmbUpdate, hen, hrecs, hcheck, Bool.not_true, Bool.false_eq_true, if_false]

theorem opEmbUpdate_joins (hen : s.enabled pgEmb = true)
    (hrecs : s.parseRecords (c.desc.specF 39 36) (s.payload c.desc) = some recs)
    (hcheck : s.tableChecks id c.tenant (recs.map (fun e => (e.table, e.row))) = none)
    (hkinds : recs.any (fun e => decide (1 < e.kind) || (e.kind == 0 && s.tblFormat e.table != 1)) = false) :
    opEmbUpdate s id c = s.joinEmb id := by
  simp only [opEmbUpdate, hen, hrecs, hcheck, hkinds, Bool.not_true, Bool.false_eq_true, if_false]

/-! ### EMB_REPLICATE (R332) -/

theorem exec_embReplicate (h : s.readyPlain id 0x32 c) :
    exec (.embReplicate id) s = .next ((opEmbReplicate s id c).settled s id c) :=
  congrArg Host.Outcome.next (State.commandRow_readyPlain s id _ c effEmbReplicate h)

/-- The rows that an EMB_REPLICATE names: those of its payload, or the tenant's candidates (ACTION 2). -/
def State.replRows (s : State) (c : Cmd) : List (Nat × Nat) :=
  if c.desc.opt 8 2 = 2 then s.candidateRows c.tenant else parseRepl (c.desc.payLen / 8) (s.payload c.desc)

theorem opEmbReplicate_asked {l : List Nat} {t : State} (hen : s.enabled pgEmb = true) (hidle : s.emb.repl = none)
    (hopen : (s.replRows c).any (fun k => !s.tblOpen id k.1 || s.tblRemote k.1) = false)
    (hcheck : s.tableChecks id c.tenant (s.replRows c) = none)
    (hask : askSwitches (if c.desc.opt 8 2 = 1 then none else some (c.desc.opt 10 4)) (s.replRows c) (s.beginLong pgEmb) []
      = (true, l, t)) :
    opEmbReplicate s id c = ({ t with emb := { t.emb with repl := some { cmd := id, entries := l } } }).runCmd id true := by
  unfold State.replRows at hopen hcheck hask
  simp only [opEmbReplicate, hen, hidle, hopen, hcheck, hask, Option.isSome_none, Bool.not_true, Bool.false_eq_true,
    if_false]

end Sys2Proof.Machine

open Sys2Proof Sys2Proof.Machine in
/-- Settles O35: each row runs its effect in the resolved state, and the effect is the branch that the checks select. -/
theorem embeddingCommands : Obligations.EmbeddingCommands := by
  intro s v id c bags recs hs hv keys taken
  refine ⟨fun ht hbags hmem => ⟨fun hcheck hout => ?_, fun st r hcheck => ?_⟩,
    fun x y hc hsess hy hbags hcheck hobs hwidth hfit hroom => ?_,
    fun ht hrecs => ⟨fun hcheck hkinds => ?_, fun st r hcheck => ?_⟩,
    fun l t hc hidle hopen hcheck hask => ?_⟩
  · obtain ⟨d, hd⟩ := State.cmd?_of_taken ht
    refine ⟨_, _, ?_, rfl, ?_, (State.cmd?_settled ..).trans (State.cmd?_joinEmb_self hd), rfl⟩
    · rw [exec_embLookup_taken ht hmem, opEmbLookup_toMemory hv hbags hcheck hmem hout]
    · rw [State.emb_settled, State.waiting_joinEmb, State.emb_of_taken ht]
  · rw [exec_embLookup_taken ht hmem, opEmbLookup_refused hv hbags hcheck]
  · rw [exec_embLookup_session hc]
    exact congrArg (fun t => Host.Outcome.next (State.settled t s id c))
      (opEmbLookup_toSession (c := c.resolved) hs hbags hcheck hsess hy hobs hwidth hfit hroom)
  · rw [exec_embUpdate ht, opEmbUpdate_joins hv hrecs hcheck hkinds]
  · rw [exec_embUpdate ht, opEmbUpdate_refused hv hrecs hcheck]
  · rw [exec_embReplicate hc, opEmbReplicate_asked hs hidle hopen hcheck hask]
end

section
/-! ## Batches of the embedding engine, and epochs -/
namespace Sys2Proof.Machine
variable {s t : State}

/-! ### What a fetch of rows leaves alone -/

/-- The parts of the state that a fetch of rows and a message to a home leave alone. -/
def State.beyondFetch (s : State) : Emb × Memory × Map Cmd × Map Ring := (s.emb, s.hbm, s.cmds, s.rings)

theorem State.of_beyondFetch (h : t.beyondFetch = s.beyondFetch) :
    t.emb = s.emb ∧ t.hbm = s.hbm ∧ t.cmds = s.cmds ∧ t.rings = s.rings := by
  simpa [State.beyondFetch] using h

@[simp] theorem State.beyondFetch_bump (r : Reg) (i k : Nat) : (s.bump r i k).beyondFetch = s.beyondFetch := by
  simp [State.beyondFetch]

@[simp] theorem State.beyondFetch_useFree (k : Nat) : (s.useFree k).beyondFetch = s.beyondFetch := rfl

@[simp] theorem State.beyondFetch_fam (fam : Fam) : ({ s with fam := fam } : State).beyondFetch = s.beyondFetch := rfl

@[simp] theorem State.beyondFetch_homeDown : s.homeDown.beyondFetch = s.beyondFetch := by
  simp [State.homeDown, State.beyondFetch]

@[simp] theorem State.beyondFetch_out (out : List OutMsg) : ({ s with out := out } : State).beyondFetch = s.beyondFetch := rfl

@[simp] theorem State.beyondFetch_countReq (port : Option Nat) : (s.countReq port).beyondFetch = s.beyondFetch := by
  unfold State.countReq
  split <;> simp

@[simp] theorem State.beyondFetch_leave (q : Req) : (s.leave q).beyondFetch = s.beyondFetch := by
  unfold State.leave
  split <;> simp

@[simp] theorem State.beyondFetch_sendPeer (device : Nat) (kind : MsgKind) (seq epoch table row : Nat) (values : List Word)
    (tenant : Option Nat) :
    (s.sendPeer device kind seq epoch table row values tenant).2.beyondFetch = s.beyondFetch := by
  simp only [State.sendPeer, State.issuePeer, State.holdPeer]
  repeat' split
  all_goals simp

@[simp] theorem State.beyondFetch_fetchLocal (table row : Nat) :
    (s.fetchLocal table row).2.beyondFetch = s.beyondFetch := by
  simp only [State.fetchLocal]
  repeat' split
  all_goals simp

/-- A fetch of a row keeps the commands of its batch (R320). -/
theorem State.fetchRow_keeps (b : EmbBatch) (key : Nat) :
    (s.fetchRow b key).1.cmds = b.cmds ∧ (s.fetchRow b key).2.beyondFetch = s.beyondFetch := by
  have hcmds (p : Prop) [Decidable p] (d : EmbBatch) (h : d.cmds = b.cmds) : (if p then d else b).cmds = b.cmds := by
    split
    · exact h
    · rfl
  simp only [State.fetchRow]
  split
  · split
    all_goals
      rename_i t h
      exact ⟨hcmds _ _ rfl, by simpa using congrArg (fun p => p.2.beyondFetch) h.symm⟩
  · split
    · exact ⟨hcmds _ _ rfl, by simp⟩
    · split
      all_goals exact ⟨hcmds _ _ rfl, by simp⟩

/-- The rows of some keys, fetched one after the other into a batch. -/
def fetchRows (keys : List Nat) (p : EmbBatch × State) : EmbBatch × State :=
  keys.foldl (fun p k => p.2.fetchRow p.1 k) p

theorem fetchRows_keep (keys : List Nat) (p : EmbBatch × State) :
    (fetchRows keys p).1.cmds = p.1.cmds ∧ (fetchRows keys p).2.beyondFetch = p.2.beyondFetch := by
  induction keys generalizing p with
  | nil => exact ⟨rfl, rfl⟩
  | cons k keys ih =>
    obtain ⟨hcmds, hkept⟩ := p.2.fetchRow_keeps p.1 k
    obtain ⟨ihcmds, ihkept⟩ := ih (p.2.fetchRow p.1 k)
    exact ⟨ihcmds.trans hcmds, ihkept.trans hkept⟩

theorem State.beyondFetch_serveRequests :
    s.serveRequests.beyondFetch = ({ s with emb := { s.emb with requests := [] } } : State).beyondFetch :=
  foldl_keeps State.beyondFetch _ (fun _ _ => State.beyondFetch_sendPeer ..) _ _

/-! ### The close of a batch (R319, R322) -/

/-- The commands of the next batch no longer wait, and the row requests of peers are served. -/
def State.batchTaken (s : State) : State :=
  ({ s with emb := { s.emb with
    waiting := s.emb.waiting.filter (fun i => !(takeBatch s s.batchIdx s.batchPool [] 0).contains i)
    seq := s.emb.seq + 1 } }).serveRequests

/-- The batch with its rows, and the state in which they have been fetched. -/
def State.batchFetched (s : State) (n : Nat) (keys : List Nat) (tiles : Bool) : EmbBatch × State :=
  fetchRows keys ({ cmds := takeBatch s s.batchIdx s.batchPool [] 0, tiles := tiles }, s.batchTaken.bump .EMB_INDICES_COUNT 0 n)

theorem State.embClose_eq : ∃ (n : Nat) (keys : List Nat) (tiles : Bool) (counts : Map Nat),
    s.embClose = { (s.batchFetched n keys tiles).2 with
      emb := { (s.batchFetched n keys tiles).2.emb with
        batch := some (s.batchFetched n keys tiles).1, counts := counts } } :=
  ⟨_, _, _, _, rfl⟩

/-- The close takes the commands of the next batch and the row requests, and counts the batch; nothing else moves of the
engine, nor of the tables of commands and rings. -/
theorem State.embClose_fields : ∃ b counts, b.cmds = takeBatch s s.batchIdx s.batchPool [] 0 ∧
    s.embClose.emb = { s.emb with
      batch := some b, counts := counts, requests := [], seq := s.emb.seq + 1,
      waiting := s.emb.waiting.filter (fun i => !(takeBatch s s.batchIdx s.batchPool [] 0).contains i) } ∧
    s.embClose.hbm = s.hbm ∧ s.embClose.cmds = s.cmds ∧ s.embClose.rings = s.rings := by
  obtain ⟨n, keys, tiles, counts, e⟩ := s.embClose_eq
  obtain ⟨hbatch, hkept⟩ : (s.batchFetched n keys tiles).1.cmds = takeBatch s s.batchIdx s.batchPool [] 0 ∧ _ :=
    fetchRows_keep keys _
  rw [State.beyondFetch_bump, State.batchTaken, State.beyondFetch_serveRequests] at hkept
  obtain ⟨hemb, hhbm, hcmds, hrings⟩ := State.of_beyondFetch (t := (s.batchFetched n keys tiles).2) hkept
  rw [e]
  exact ⟨_, counts, hbatch, by rw [hemb], hhbm, hcmds, hrings⟩

theorem exec_embBatchClose (hen : s.enabled pgEmb = true) (hrows : s.rowsOn = true) (hhbm : s.hbmOn = true)
    (hfreeze : s.freeze = 0) (hidle : s.emb.batch = none) (hdue : s.embDue = true) :
    exec .embBatchClose s = .next s.embClose := by
  simp [exec, execEmbBatchClose, hen, hrows, hhbm, hfreeze, hidle, hdue]

/-! ### Commits and epochs (R320, R337) -/

theorem exec_embBatchCommit {b : EmbBatch} (hen : s.enabled pgEmb = true) (hfreeze : s.freeze ≠ 2)
    (hb : s.emb.batch = some b) (hwait : b.waiting = []) (hcores : b.tiles = true ∨ s.gaf.running = none) :
    exec .embBatchCommit s = .next (s.embCommit b) := by
  have hmay : (b.tiles || s.coresFor false) = true := by
    rcases hcores with htiles | hidle
    · simp [htiles]
    · simp [State.coresFor, hidle]
  simp [exec, execEmbBatchCommit, hen, hfreeze, hb, hwait, hmay]

theorem exec_embBatchCommit_idle (hen : s.enabled pgEmb = true) (hb : s.emb.batch = none)
    (hwait : s.emb.waiting = []) (hfreeze : s.freeze = 0) : exec .embBatchCommit s = .next s.embBoundary := by
  simp [exec, execEmbBatchCommit, hen, hfreeze, hb, hwait]

end Sys2Proof.Machine

open Sys2Proof Sys2Proof.Machine in
/-- Settles O36: the close by its fields, of which a fetch changes none; the commit by its two branches; the close of an epoch
entry by entry. -/
theorem embeddingBatches : Obligations.EmbeddingBatches := by
  intro s
  refine ⟨fun hen hrows hhbm hfreeze hidle hdue => ?_,
    fun hen hfreeze => ⟨fun b hb hwait hcores => exec_embBatchCommit hen hfreeze hb hwait hcores,
      fun hb hwait hfree => exec_embBatchCommit_idle hen hb hwait hfree⟩,
    fun table epoch => ⟨_, rfl, rfl, List.length_map _, fun e he htable hepoch hclose => ?_, fun e he hother => ?_⟩⟩
  · obtain ⟨b, counts, htaken, hemb, hhbm', hcmds, hrings⟩ := s.embClose_fields
    refine ⟨_, b, exec_embBatchClose hen hrows hhbm hfreeze hidle hdue, rfl, ?_, htaken, ?_, ?_, ?_, hhbm', hcmds, hrings⟩
    all_goals rw [hemb]
    rw [htaken]
  · exact List.mem_map.2 ⟨e, he, if_pos ⟨htable, hepoch, hclose⟩⟩
  · refine List.mem_map.2 ⟨e, he, if_neg fun ⟨htable, hepoch, hclose⟩ => ?_⟩
    rcases hother with h | h | h
    · exact h htable
    · exact h hepoch
    · omega
end

section
/-! ## Messages of peers -/
namespace Sys2Proof.Machine
variable {s u : State} {m : PeerMsg} {b : EmbBatch}

/-! ### Messages are taken in turn (R384, R386) -/

/-- The state once a message in turn counts as received. -/
def State.received (s : State) (m : PeerMsg) : State :=
  ({ s.ungate with fam := { s.fam with
    recvSeq := s.fam.recvSeq.set m.source ((m.msgSeq + 1) % 2 ^ 32) } }).bump .FAM_MSG_RECV_COUNT

theorem State.takeMsg_inTurn (hfam : s.enabled pgFam = true) (hseq : s.fam.recvSeq.getD m.source 0 = m.msgSeq) :
    s.takeMsg m = some (s.received m) := if_pos ⟨hfam, hseq⟩

theorem State.takeMsg_outOfTurn (h : s.enabled pgFam = false ∨ s.fam.recvSeq.getD m.source 0 ≠ m.msgSeq) :
    s.takeMsg m = none := by
  refine if_neg fun ⟨hfam, hseq⟩ => ?_
  rcases h with hoff | hother
  · rw [hoff] at hfam
    cases hfam
  · exact hother hseq

theorem State.recvSeq_received : (s.received m).fam.recvSeq.getD m.source 0 = (m.msgSeq + 1) % 2 ^ 32 := by
  simp [State.received, Map.getD]

theorem State.emb_received : (s.received m).emb = s.emb := by
  simp [State.received]

theorem State.tick_received : (s.received m).tick = s.tick := by
  simp [State.received]

/-! ### Changes to a table held here (R336, R337) -/

/-- A peer may change and read the row of the message: its table is SHARED and held here. -/
def State.servesPeer (s : State) (m : PeerMsg) : Prop :=
  s.enabled pgEmb = true ∧ s.tblUsable m.table = true ∧ s.tblShared m.table = true ∧ s.tblRemote m.table = false ∧
    m.row < s.tblRows m.table

theorem exec_fp32Add (h : s.takeMsg m = some u) : exec (.fp32Add m) s = .next (u.arrive m
    { table := m.table, row := m.row, delta := some m.values, source := m.source, seq := m.seq, epoch := m.epoch }) := by
  simp only [exec, execFp32Add, h]

theorem exec_rowStore (h : s.takeMsg m = some u) : exec (.rowStore m) s = .next (u.arrive m
    { table := m.table, row := m.row, base := some m.values, source := m.source, seq := m.seq, epoch := m.epoch }) := by
  simp only [exec, execRowStore, h]

theorem State.arrive_deterministic (h : s.servesPeer m) (c : Change)
    (hdet : (s.bump .EMB_REMOTE_RECV_COUNT).tblDet m.table = true) :
    s.arrive m c = (s.bump .EMB_REMOTE_RECV_COUNT).enterEpoch c :=
  (if_pos h).trans (if_pos hdet)

theorem State.arrive_inbox (h : s.servesPeer m) (c : Change)
    (hdet : (s.bump .EMB_REMOTE_RECV_COUNT).tblDet m.table = false) :
    s.arrive m c = ({ s.bump .EMB_REMOTE_RECV_COUNT with emb := { (s.bump .EMB_REMOTE_RECV_COUNT).emb with
      inbox := (s.bump .EMB_REMOTE_RECV_COUNT).emb.inbox ++ [c] } }).hotHeld m.table m.row :=
  (if_pos h).trans (if_neg (by rw [hdet]; exact Bool.false_ne_true))

/-! ### Rows asked for and rows that arrive (R320, R340) -/

theorem exec_rowReq (h : s.takeMsg m = some u) (hserves : u.servesPeer m) : exec (.rowReq m) s =
    .next (({ u with emb := { u.emb with requests := u.emb.requests ++ [(m.source, m.seq, m.table, m.row)] } }).bump
      .EMB_REMOTE_RECV_COUNT) := by
  simp only [exec, execRowReq, h]
  exact congrArg _ (if_pos hserves)

/-- A key written for each of some keys stands in the table. -/
theorem Map.get?_foldl_set {α : Type} (v : α) (k : Nat) (l : List Nat) (r : Map α) (h : k ∈ l ∨ r.get? k = some v) :
    (l.foldl (fun r j => r.set j v) r).get? k = some v := by
  induction l generalizing r with
  | nil => exact h.resolve_left List.not_mem_nil
  | cons j l ih =>
    refine ih _ ?_
    by_cases hk : k = j
    · exact .inr (by rw [hk, Map.get?_set_self])
    · rw [Map.get?_set_ne _ _ _ _ hk]
      exact h.imp_left fun hm => (List.mem_cons.1 hm).resolve_left hk

/-- The keys that the running batch waits for and that a ROW_DATA answers. -/
def State.answeredKeys (s : State) (b : EmbBatch) (m : PeerMsg) : List Nat :=
  b.waiting.filter (fun k => k % 2 ^ 32 == m.row && s.reg .EMB_TBL_HOME_DEVICE (k / 2 ^ 32) == m.source
    && s.reg .EMB_TBL_HOME_TABLE (k / 2 ^ 32) == m.table)

theorem State.mem_answeredKeys {k : Nat} : k ∈ s.answeredKeys b m ↔ k ∈ b.waiting ∧ k % 2 ^ 32 = m.row ∧
    s.reg .EMB_TBL_HOME_DEVICE (k / 2 ^ 32) = m.source ∧ s.reg .EMB_TBL_HOME_TABLE (k / 2 ^ 32) = m.table := by
  simp [State.answeredKeys, and_assoc]

/-- The batch once the row of a ROW_DATA has arrived in it. -/
def State.batchWith (s : State) (b : EmbBatch) (m : PeerMsg) : EmbBatch :=
  { b with waiting := b.waiting.filter (fun k => !(s.answeredKeys b m).contains k)
           rows := (s.answeredKeys b m).foldl (fun r k => r.set k m.values) b.rows
           tainted := if Config.homeTainted s.free then s.answeredKeys b m ++ b.tainted else b.tainted }

theorem exec_rowData (h : s.takeMsg m = some u) (hb : u.emb.batch = some b) (hseq : m.seq = u.emb.seq) :
    exec (.rowData m) s = .next { u.useFree with emb := { u.emb with batch := some (u.batchWith b m) } } := by
  simp only [exec, execRowData, h, hb, if_pos hseq]
  rfl

/-! ### APPLIED releases the changes that it names (R335) -/

/-- A change sent to a home, as (command, home, SEQ, ROW), that an APPLIED names. -/
def PeerMsg.releases (m : PeerMsg) (e : Nat × Nat × Nat × Nat) : Bool :=
  e.2.1 == m.source && e.2.2.1 == m.seq && e.2.2.2 == m.row

theorem exec_applied (h : s.takeMsg m = some u) : exec (.applied m) s =
    .next ((((u.emb.sent.filter m.releases).map (·.1)).eraseDups).foldl State.finishUpdate
      { u with emb := { u.emb with sent := eraseFirst m.releases [] u.emb.sent } }) := by
  simp only [exec, execApplied, h]
  rfl

theorem eraseFirst_of_none {p : Nat × Nat × Nat × Nat → Bool} {done : List Nat} {l : List (Nat × Nat × Nat × Nat)}
    (h : ∀ e, e ∈ l → p e = false) : eraseFirst p done l = l := by
  induction l with
  | nil => rfl
  | cons e l ih =>
    rw [eraseFirst, h e List.mem_cons_self, Bool.false_and, if_neg Bool.false_ne_true,
      ih fun f hf => h f (List.mem_cons_of_mem _ hf)]

theorem exec_applied_none (h : s.takeMsg m = some u) (hnone : u.emb.sent.any m.releases = false) :
    exec (.applied m) s = .next u := by
  have hrel (e : Nat × Nat × Nat × Nat) (he : e ∈ u.emb.sent) : m.releases e = false :=
    Bool.eq_false_iff.2 (List.any_eq_false.1 hnone e he)
  have hids : u.emb.sent.filter m.releases = [] := List.filter_eq_nil_iff.2 (List.any_eq_false.1 hnone)
  rw [exec_applied h, eraseFirst_of_none hrel, hids]
  rfl

/-- The only change that a command has sent is applied. -/
theorem exec_applied_last {id : Nat} (h : s.takeMsg m = some u) (hsent : u.emb.sent = [(id, m.source, m.seq, m.row)]) :
    exec (.applied m) s = .next (({ u with emb := { u.emb with sent := [] } }).finishUpdate id) := by
  have hrel : m.releases (id, m.source, m.seq, m.row) = true := by simp [PeerMsg.releases]
  have hids : ([id] : List Nat).eraseDups = [id] := rfl
  rw [exec_applied h, hsent]
  simp only [List.filter_cons, List.filter_nil, hrel, if_true, List.map_cons, List.map_nil, hids, eraseFirst,
    List.contains_nil, Bool.not_false, Bool.and_self, List.foldl_cons, List.foldl_nil]

end Sys2Proof.Machine

open Sys2Proof Sys2Proof.Machine in
/-- Settles O37: a message out of turn is not taken; one in turn is taken, and each row then does what its kind says. -/
theorem peerMessages : Obligations.PeerMessages := by
  intro s m
  refine ⟨fun hout => ?_, fun hfam hseq => ?_⟩
  · have hnone := State.takeMsg_outOfTurn hout
    refine ⟨?_, ?_, ?_, ?_, ?_, ?_, fun w => ?_⟩
    · simp only [exec, execFp32Add, hnone]
    · simp only [exec, execRowStore, hnone]
    · simp only [exec, execRowReq, hnone]
    · simp only [exec, execRowData, hnone]
    · simp only [exec, execApplied, hnone]
    · simp only [exec, execQuietNote, hnone]
    · simp only [exec, execLeaseNote, hnone]
  · have htake := State.takeMsg_inTurn hfam hseq
    refine ⟨s.received m, htake, State.recvSeq_received, State.emb_received, fun hen hus hsh hre hrow => ?_,
      fun b key hb hq hmem hkey hdev htab => ?_, fun hnone => ?_, fun id hone => ?_, fun hk => ?_⟩
    · have hserves : (s.received m).servesPeer m := ⟨hen, hus, hsh, hre, hrow⟩
      intro c v held
      refine ⟨fun hdet => ⟨?_, ?_⟩, fun hdet => ⟨?_, ?_⟩, _, exec_rowReq htake hserves, ?_⟩
      · rw [exec_fp32Add htake, State.arrive_inbox hserves _ hdet]
      · rw [exec_rowStore htake, State.arrive_inbox hserves _ hdet]
      · rw [exec_fp32Add htake, State.arrive_deterministic hserves _ hdet]
      · rw [exec_rowStore htake, State.arrive_deterministic hserves _ hdet]
      · simp [State.emb_received]
    · have hans : key ∈ (s.received m).answeredKeys b m := State.mem_answeredKeys.2 ⟨hmem, hkey, hdev, htab⟩
      refine ⟨_, _, exec_rowData htake hb hq, rfl, ?_, Map.get?_foldl_set _ _ _ _ (.inl hans), rfl⟩
      simp [State.batchWith, hans]
    · exact exec_applied_none htake hnone
    · exact exec_applied_last htake hone
    · simp only [exec, execQuietNote, htake, hk, if_true, State.tick_received]
end

section
/-! ## CTRL.EN and VALID of the embedding engine, the search engine, the fabric, checkpoints, security and telemetry -/
namespace Sys2Proof.Machine
variable {s : State}

@[simp] theorem State.failed_ungate (p : Nat) : s.ungate.failed p = s.failed p := rfl

theorem State.failed_of_pageState {p : Nat} (h : s.pageState p = 1) : s.failed p = false := by
  simp [State.failed, h]

theorem State.regBit_ungate (r : Reg) (i : Nat) : s.ungate.regBit r i = s.regBit r i := rfl

theorem State.tblUsable_ungate (t : Nat) : s.ungate.tblUsable t = s.tblUsable t := rfl

theorem State.collUsable_ungate (k : Nat) : s.ungate.collUsable k = s.collUsable k := rfl

/-! ### Blocks that initialise before they run (R421, R471) -/

/-- A page that has gone to INIT with its counters at 0. -/
def State.initBlock (s : State) (p : Nat) : State := ((s.clearCounters p).setEn p true).setPageState p 2

@[simp] theorem State.pageState_initBlock (p : Nat) : (s.initBlock p).pageState p = 2 := by
  simp [State.initBlock, State.pageState_setPageState]

/-- Going to INIT changes registers and the common page alone. -/
theorem State.tenants_initBlock (p : Nat) : (s.initBlock p).tenants = s.tenants := by
  have hcleared : (s.clearCounters p).tenants = s.tenants := by
    refine foldl_keeps State.tenants _ (fun t r => ?_) _ s
    repeat' split
    all_goals rfl
  simp only [State.initBlock, State.setPageState_frame, State.setEn_frame, hcleared]

/-- CKP in INIT, its page map not yet valid (R421). -/
def State.ckpInit (s : State) : State :=
  { s.initBlock pgCkp with ckp := { (s.initBlock pgCkp).ckp with mapValid := false } }

theorem State.pageState_ckpInit : s.ckpInit.pageState pgCkp = 2 :=
  (State.pageState_congr (t := s.ckpInit) (s := s.initBlock pgCkp) rfl _).trans (State.pageState_initBlock _)

theorem exec_ckpEnable_ok (hl : s.live = true) (hp : s.pageState pgCkp = 0) (hok : s.ungate.ckpOk = true) :
    exec (.ckpEnable true) s = .next s.ungate.ckpInit := by
  simp [exec, execCkpEnable, State.touch_live hl, hl, hp, hok, State.ckpInit, State.initBlock]

theorem exec_secEnable_ok (hl : s.live = true) (hp : s.pageState pgSec = 0) (hok : s.ungate.secOk = true) :
    exec (.secEnable true) s = .next (s.ungate.initBlock pgSec) := by
  simp [exec, execSecEnable, State.touch_live hl, hl, hp, hok, State.initBlock]

/-- What CKP has read of its manifest slots stands in its registers. -/
def State.slotsRead (s : State) : State :=
  let s := (s.setReg .CKP_SLOT_A_SEQ_SEQ (s.slotSeq 0)).setReg .CKP_SLOT_B_SEQ_SEQ (s.slotSeq 1)
  s.setReg .CKP_STORE_USED_MIB (min (ceilDiv s.ckptUsed (2 ^ 20)) (2 ^ 32 - 1))

/-- CKP runs: its timer and its count of steps start now (R421). -/
def State.ckpRunning (s : State) : State :=
  let s := s.setPageState pgCkp 1
  { s with ckp := { s.ckp with timerFrom := s.tick, stepsFrom := s.reg .GAF_STEP_SEQ_COUNT } }

theorem State.pageState_ckpRunning : s.ckpRunning.pageState pgCkp = 1 := by
  have hpage : (s.setPageState pgCkp 1).pageState pgCkp = 1 := by rw [State.pageState_setPageState, if_pos rfl]
  exact (State.pageState_congr (t := s.ckpRunning) rfl _).trans hpage

theorem State.fields_ckpRunning : s.ckpRunning.ckp.timerFrom = s.tick ∧ s.ckpRunning.ckp.store = s.ckp.store ∧
    s.ckpRunning.fabric = s.fabric := ⟨rfl, rfl, rfl⟩

theorem exec_ckpInitDone (hp : s.pageState pgCkp = 2) : exec .ckpInitDone s = .next s.slotsRead.ckpRunning := by
  simp only [exec, execCkpInitDone, hp, if_true, State.slotsRead, State.ckpRunning]

theorem State.fields_slotsRead : s.slotsRead.tick = s.tick ∧ s.slotsRead.ckp = s.ckp ∧ s.slotsRead.fabric = s.fabric := by
  simp [State.slotsRead]

/-- SEC0 runs: its owner map is rebuilt and its generation table is cleared (R471). -/
def State.secRunning (s : State) : State :=
  ({ s with stm := { s.stm with
    finePend := s.stm.finePend.filter (fun t _ => s.tenantLeaving t), poolGen := ⟨[]⟩ } }).setPageState pgSec 1

theorem State.pageState_secRunning : s.secRunning.pageState pgSec = 1 := by
  rw [State.secRunning, State.pageState_setPageState, if_pos rfl]

theorem exec_secInitDone (hp : s.pageState pgSec = 2) : exec .secInitDone s = .next s.secRunning :=
  congrArg Host.Outcome.next (if_pos hp)

/-! ### Tables and collections that are retired (R341, R368) -/

theorem State.retireTable_enabled (t : Nat) (h : s.enabled pgEmb = true) :
    s.retireTable t = { s with emb := { s.emb with retiring := s.emb.retiring ++ [(t, s.nextCmd)] } } := if_pos h

theorem State.retireColl_enabled (k : Nat) (h : s.enabled pgSrch = true) :
    s.retireColl k = { s with srch := { s.srch with retiring := s.srch.retiring ++ [(k, s.nextCmd)] } } := if_pos h

end Sys2Proof.Machine

open Sys2Proof Sys2Proof.Machine in
/-- Settles O43: the enable rows of the live device, block by block, by the branch of the row that its state selects. -/
theorem unitEnables : Obligations.UnitEnables := by
  intro s
  refine ⟨fun hl => ⟨fun hp => ⟨fun hv => ?_, fun hv => ?_⟩, fun hp hr => ?_, fun hp => ⟨fun hok => ?_, fun hok => ?_⟩,
      fun hp => ⟨fun hok => ?_, fun hok => ?_⟩, fun hp hin => ?_,
      fun hp => ⟨fun hok => ⟨_, exec_ckpEnable_ok hl hp hok, State.pageState_ckpInit, rfl⟩, fun hok => ?_⟩,
      fun hp hin => ?_,
      fun hp => ⟨fun hok => ⟨_, exec_secEnable_ok hl hp hok, State.pageState_initBlock _, State.tenants_initBlock _⟩,
        fun hok => ?_⟩,
      fun hp hin => ?_, fun w hp => ⟨fun hok => ?_, fun hok => ?_⟩,
      ⟨fun hv hok => ?_, fun hv => ⟨?_, State.retireTable_enabled (s := s.ungate) _⟩⟩,
      ⟨fun hv hok => ?_, fun hv => ⟨?_, State.retireColl_enabled (s := s.ungate) _⟩⟩⟩, fun hp => ?_, fun hp => ?_⟩
  · simp [exec, execEmbEnable, State.touch_live hl, hl, hp, hv]
  · simp [exec, execEmbEnable, State.touch_live hl, hl, hp, hv]
  · simp only [exec, execEmbEnable, State.touch_live hl, State.live_ungate, State.pageState_ungate, hl, hp, hr, Bool.not_true,
      Bool.false_eq_true, ne_eq, not_true_eq_false, if_true, if_false]
  · simp [exec, execSrchEnable, State.touch_live hl, hl, hp, hok]
  · simp [exec, execSrchEnable, State.touch_live hl, hl, hp, hok]
  · simp [exec, execFamEnable, State.touch_live hl, hl, hp, hok]
  · simp [exec, execFamEnable, State.touch_live hl, hl, hp, hok]
  · have hin' : s.ungate.sdir.sess.values.any (fun x => x.leased || x.residency == .away) = true := hin
    simp only [exec, execFamEnable, State.touch_live hl, State.live_ungate, State.pageState_ungate, State.failed_ungate, hl,
      hp, State.failed_of_pageState hp, hin', Bool.not_true, Bool.false_eq_true, Nat.one_ne_zero, or_self, if_true, if_false]
  · simp [exec, execCkpEnable, State.touch_live hl, hl, hp, hok]
  · simp [exec, execCkpEnable, State.touch_live hl, hl, hp, State.failed_of_pageState hp, hin]
  · simp [exec, execSecEnable, State.touch_live hl, hl, hp, hok]
  · have hin' : s.ungate.tenants.values.any (fun t => t.state != .closed) = true := hin
    simp only [exec, execSecEnable, State.touch_live hl, State.live_ungate, State.pageState_ungate, State.failed_ungate, hl,
      hp, State.failed_of_pageState hp, hin', Bool.not_true, Bool.false_eq_true, Nat.one_ne_zero, or_self, if_true, if_false]
  · simp [exec, execTelEnable, State.touch_live hl, hl, hp, hok]
  · simp [exec, execTelEnable, State.touch_live hl, hl, hp, hok]
  · simp [exec, execTblValidWrite, State.touch_live hl, hl, State.regBit_ungate, hv, hok]
  · simp [exec, execTblValidWrite, State.touch_live hl, hl, State.tblUsable_ungate, hv]
  · simp [exec, execCollValidWrite, State.touch_live hl, hl, State.regBit_ungate, hv, hok]
  · simp [exec, execCollValidWrite, State.touch_live hl, hl, State.collUsable_ungate, hv]
  · obtain ⟨htick, hckp, hfabric⟩ := s.fields_slotsRead
    obtain ⟨htimer, hstore, hkept⟩ := s.slotsRead.fields_ckpRunning
    exact ⟨_, exec_ckpInitDone hp, State.pageState_ckpRunning, htimer.trans htick, hstore.trans (congrArg Ckp.store hckp),
      hkept.trans hfabric⟩
  · exact ⟨_, exec_secInitDone hp, State.pageState_secRunning, rfl, rfl⟩
end

section
/-! ## MEM_INSERT, MEM_DELETE, MEM_SEARCH and MEM_COMPACT -/
namespace Sys2Proof.Machine
variable {s t v : State} {id op : Nat} {c : Cmd} {st : Status} {d : Nat}

theorem State.srch_of_taken (h : s.taken v id op c) : v.srch = s.srch := by
  rcases h with ⟨_, rfl⟩ | ⟨x, _, rfl⟩ <;> rfl

/-! ### What settling leaves of the engine and of the common registers -/

@[simp] theorem State.srch_commons_dropSource :
    (s.dropSource id).srch = s.srch ∧ (s.dropSource id).commons = s.commons := by
  unfold State.dropSource
  repeat' split
  all_goals exact ⟨rfl, rfl⟩

@[simp] theorem State.srch_commons_settleHeld :
    (s.settleHeld id c).srch = s.srch ∧ (s.settleHeld id c).commons = s.commons := by
  unfold State.settleHeld
  split <;> simp

@[simp] theorem State.srch_commons_dirtyEntry (slot : Nat) :
    (s.dirtyEntry slot).srch = s.srch ∧ (s.dirtyEntry slot).commons = s.commons := by
  unfold State.dirtyEntry
  split <;> exact ⟨rfl, rfl⟩

theorem State.srch_commons_settled : (t.settled s id c).srch = t.srch ∧ (t.settled s id c).commons = t.commons := by
  simp only [State.settled]
  split <;> simp

/-! ### Joining a batch (R350) -/

/-- The command joins those that wait for a batch. -/
def State.joinSrch (s : State) (id : Nat) : State :=
  ({ s with srch := { s.srch with waiting := s.srch.waiting ++ [id] } }).runCmd id true

theorem opMem_joins (hen : s.enabled pgSrch = true) (hcheck : s.srchRefusal id c = none) : opMem s id c = s.joinSrch id := by
  simp only [opMem, hen, hcheck, Bool.not_true, Bool.false_eq_true, if_false, State.joinSrch]

theorem opMem_refused (hen : s.enabled pgSrch = true) (hcheck : s.srchRefusal id c = some (st, d)) :
    opMem s id c = s.complete id st d := by
  simp only [opMem, hen, hcheck, Bool.not_true, Bool.false_eq_true, if_false]

/-- The three rows whose commands join a batch run one effect. -/
theorem exec_mem : (s.taken v id 0x38 c → exec (.memInsert id) s = .next ((opMem v id c).settled s id c)) ∧
    (s.taken v id 0x39 c → exec (.memDelete id) s = .next ((opMem v id c).settled s id c)) ∧
    (s.taken v id 0x3A c → exec (.memSearch id) s = .next ((opMem v id c).settled s id c)) :=
  ⟨fun h => congrArg Host.Outcome.next (State.commandRow_taken (eff := effMemInsert) h (fun _ => rfl)),
    fun h => congrArg Host.Outcome.next (State.commandRow_taken (eff := effMemDelete) h (fun _ => rfl)),
    fun h => congrArg Host.Outcome.next (State.commandRow_taken (eff := effMemSearch) h (fun _ => rfl))⟩

/-! ### Compactions start (R364) -/

/-- A compaction of the collection `k` has started. -/
def State.compactStarted (s : State) (id k : Nat) : State :=
  let t := (s.beginLong pgSrch).setColl k { s.coll k with compacting := true }
  ({ t with srch := { t.srch with compact := some { cmd := id, coll := k, snap := (s.coll k).seq } } }).runCmd id false

theorem State.coll_compactStarted (k : Nat) : (s.compactStarted id k).coll k = { s.coll k with compacting := true } := by
  have hcoll : (s.compactStarted id k).coll k = (s.setColl k { s.coll k with compacting := true }).coll k := rfl
  rw [hcoll, State.coll_setColl, if_pos rfl]

theorem State.busy_compactStarted (k : Nat) : ((s.compactStarted id k).common pgSrch).busy = true := by
  have hcommon : (s.compactStarted id k).common pgSrch = (s.beginLong pgSrch).common pgSrch := rfl
  rw [hcommon, State.beginLong, State.common_setCommon_self]

theorem State.cmd?_compactStarted (k : Nat) : (s.compactStarted id k).cmd? id
    = (s.cmd? id).map (fun e => { e with phase := .running, exempt := false, progressTick := s.tick }) := by
  rw [State.compactStarted, State.runCmd, State.cmd?_onCmd, if_pos rfl]
  rfl

theorem exec_memCompact (h : s.taken v id 0x3B c) :
    exec (.memCompact id) s = .next ((opMemCompact v id c).settled s id c) :=
  congrArg Host.Outcome.next (State.commandRow_taken (eff := effMemCompact) h (fun _ => rfl))

theorem opMemCompact_starts (hen : s.enabled pgSrch = true) (hcheck : s.srchRefusal id c = none)
    (hcompact : s.srch.compact = none) (hbatch : s.srch.batch = none) :
    opMemCompact s id c = s.compactStarted id c.desc.collection := by
  have hseq (k : Nat) :
      (((s.beginLong pgSrch).setColl k { s.coll k with compacting := true }).coll k).seq = (s.coll k).seq := by
    rw [State.coll_setColl, if_pos rfl]
  have hcoll (k : Nat) : (s.beginLong pgSrch).coll k = s.coll k := rfl
  simp only [opMemCompact, hen, hcheck, hcompact, hbatch, hcoll, hseq, Option.isSome_none, Bool.not_true, Bool.false_eq_true,
    or_self, if_false, State.compactStarted]

theorem opMemCompact_refused (hen : s.enabled pgSrch = true) (hcheck : s.srchRefusal id c = some (st, d)) :
    opMemCompact s id c = s.complete id st d := by
  simp only [opMemCompact, hen, hcheck, Bool.not_true, Bool.false_eq_true, if_false]

theorem exec_memCompact_starts (h : s.taken v id 0x3B c) (hen : v.enabled pgSrch = true) (hcheck : v.srchRefusal id c = none)
    (hcompact : s.srch.compact = none) (hbatch : s.srch.batch = none) :
    exec (.memCompact id) s = .next ((v.compactStarted id c.desc.collection).settled s id c) := by
  have hsrch := State.srch_of_taken h
  rw [exec_memCompact h, opMemCompact_starts hen hcheck (hsrch ▸ hcompact) (hsrch ▸ hbatch)]

/-! ### The close of a batch (R350, R353) -/

@[simp] theorem State.srch_cmds_countWalk (w : Walk) : (s.countWalk w).srch = s.srch ∧ (s.countWalk w).cmds = s.cmds := by
  simp only [State.countWalk]
  split <;> simp

theorem State.srch_cmds_walkQueries (d : Desc) (snap n : Nat) :
    (s.walkQueries id d snap n).1.srch = s.srch ∧ (s.walkQueries id d snap n).1.cmds = s.cmds := by
  induction n with
  | zero => exact ⟨rfl, rfl⟩
  | succ n ih => simpa only [State.walkQueries, State.srch_cmds_countWalk] using ih

/-- What every step of a fold over a state and what it gathers keeps of the state, the fold keeps. -/
theorem foldl_fst_keeps {α β γ : Type} (p : State → γ) (f : State × α → β → State × α)
    (h : ∀ x b, p (f x b).1 = p x.1) (l : List β) (x : State × α) : p (l.foldl f x).1 = p x.1 := by
  induction l generalizing x with
  | nil => rfl
  | cons b l ih => rw [List.foldl_cons, ih, h]

/-- The commands of the next batch, with their descriptors. -/
def State.searchDescs (s : State) : List (Nat × Desc) :=
  (takeSearch s s.batchQueries s.searchPool [] 0).filterMap (fun id => (s.cmd? id).map (fun c => (id, c.desc)))

/-- The snapshots of the collections that the next batch names. -/
def State.searchSnaps (s : State) : List (Nat × Nat) :=
  ((s.searchDescs.map (fun e => e.2.collection)).eraseDups).map (fun k => (k, (s.coll k).seq))

theorem State.of_mem_searchSnaps {k q : Nat} (h : (k, q) ∈ s.searchSnaps) : q = (s.coll k).seq := by
  obtain ⟨j, _, hj⟩ := List.mem_map.1 h
  cases hj
  rfl

/-- The queries of a command are walked at the snapshots `snaps`, after those gathered so far. -/
def State.walkCommand (snaps : List (Nat × Nat)) (p : State × List SQuery) (e : Nat × Desc) : State × List SQuery :=
  let w := p.1.walkQueries e.1 e.2 (snapOf snaps e.2.collection) e.2.items
  (w.1, p.2 ++ w.2)

/-- The state and the queries once some commands have been walked. -/
def State.walked (s : State) (snaps : List (Nat × Nat)) (l : List (Nat × Desc)) : State × List SQuery :=
  l.foldl (State.walkCommand snaps) (s, [])

theorem State.srch_cmds_walked (snaps : List (Nat × Nat)) (l : List (Nat × Desc)) :
    (s.walked snaps l).1.srch = s.srch ∧ (s.walked snaps l).1.cmds = s.cmds :=
  ⟨foldl_fst_keeps State.srch (State.walkCommand snaps) (fun _ _ => (State.srch_cmds_walkQueries ..).1) _ _,
    foldl_fst_keeps State.cmds (State.walkCommand snaps) (fun _ _ => (State.srch_cmds_walkQueries ..).2) _ _⟩

/-- The commands of the next batch no longer wait. -/
def State.searchTaken (s : State) : State :=
  { s with srch := { s.srch with
    waiting := s.srch.waiting.filter (fun i => !(takeSearch s s.batchQueries s.searchPool [] 0).contains i) } }

theorem State.srchClose_eq : ∃ l tiles,
    s.srchClose = { (s.searchTaken.walked s.searchSnaps l).1 with
      srch := { (s.searchTaken.walked s.searchSnaps l).1.srch with
        batch := some { cmds := takeSearch s s.batchQueries s.searchPool [] 0, snaps := s.searchSnaps
                        queries := (s.searchTaken.walked s.searchSnaps l).2
                        scanned := (s.searchTaken.walked s.searchSnaps l).2.isEmpty, tiles := tiles } } } :=
  ⟨_, _, rfl⟩

/-- The close takes the commands of the next batch with the snapshots of their collections; no collection changes, and no
command. -/
theorem State.srchClose_fields : ∃ b, s.srchClose.srch.batch = some b ∧
    b.cmds = takeSearch s s.batchQueries s.searchPool [] 0 ∧ b.snaps = s.searchSnaps ∧
    s.srchClose.srch.colls = s.srch.colls ∧ s.srchClose.cmds = s.cmds := by
  obtain ⟨l, tiles, e⟩ := s.srchClose_eq
  obtain ⟨hsrch, hcmds⟩ := s.searchTaken.srch_cmds_walked s.searchSnaps l
  rw [e]
  exact ⟨_, rfl, rfl, rfl, (congrArg Srch.colls hsrch :), hcmds⟩

theorem exec_srchBatchClose (hen : s.enabled pgSrch = true) (hrows : s.rowsOn = true) (hhbm : s.hbmOn = true)
    (hfreeze : s.freeze = 0) (hidle : s.srch.batch = none) (hdue : s.srchDue = true) :
    exec .srchBatchClose s = .next s.srchClose := by
  simp [exec, execSrchBatchClose, hen, hrows, hhbm, hfreeze, hidle, hdue]

/-! ### Scans, commits and switches (R356, R358, R365) -/

theorem exec_channelScanDone {b : SBatch} (hb : s.srch.batch = some b) (hscan : b.scanned = false)
    (hcores : b.tiles = true ∨ s.gaf.running = none) : exec .channelScanDone s = .next (s.scanDone b) := by
  have hmay : (b.tiles || s.coresFor false) = true := by
    rcases hcores with htiles | hidle
    · simp [htiles]
    · simp [State.coresFor, hidle]
  simp [exec, execChannelScanDone, hb, hscan, hmay]

theorem State.batch_scanDone (b : SBatch) :
    ∃ results, (s.scanDone b).srch.batch = some { b with scanned := true, results := results } := ⟨_, rfl⟩

theorem exec_srchBatchCommit {b : SBatch} (hen : s.enabled pgSrch = true) (hfreeze : s.freeze ≠ 2)
    (hb : s.srch.batch = some b) (hscan : b.scanned = true) : exec .srchBatchCommit s = .next (s.srchCommit b) := by
  simp [exec, execSrchBatchCommit, hen, hfreeze, hb, hscan]

theorem exec_srchBatchCommit_idle (hen : s.enabled pgSrch = true) (hb : s.srch.batch = none)
    (hwait : s.srch.waiting = []) (hfreeze : s.freeze = 0) :
    exec .srchBatchCommit s = .next (s.retireColls.safePoint pgSrch) := by
  simp [exec, execSrchBatchCommit, hen, hfreeze, hb, hwait]

theorem exec_memCompactSwitch {j : SCompact} (hj : s.srch.compact = some j) (hb : s.srch.batch = none)
    (hfreeze : s.freeze = 0) : exec .memCompactSwitch s = .next (s.compactSwitch j) := by
  simp [exec, execMemCompactSwitch, hj, hb, hfreeze]

end Sys2Proof.Machine

open Sys2Proof Sys2Proof.Machine in
/-- Settles O38: the checks select the branch of a command's effect; the close by its fields, of which a walk changes none; a
scan, a commit and a switch by the branch of their row. -/
theorem searchCommands : Obligations.SearchCommands := by
  intro s v id c
  refine ⟨fun hv => ⟨fun hcheck => ?_, fun st d hcheck => ?_⟩, fun hen hrows hhbm hfreeze hidle hdue => ?_,
    fun b hb hscan hcores => ?_,
    fun hen hfreeze => ⟨fun b hb hscan => exec_srchBatchCommit hen hfreeze hb hscan,
      fun hb hwait hfree => exec_srchBatchCommit_idle hen hb hwait hfree⟩,
    fun j hj hb hfreeze => exec_memCompactSwitch hj hb hfreeze⟩
  · obtain ⟨hinsert, hdelete, hsearch⟩ := exec_mem (s := s) (v := v) (id := id) (c := c)
    rw [opMem_joins hv hcheck] at hinsert hdelete hsearch
    refine ⟨hinsert, hdelete, hsearch, fun h hcompact hbatch => ?_⟩
    have hcoll := State.coll_congr (State.srch_of_taken h)
    obtain ⟨hsrch, hcommons⟩ := State.srch_commons_settled (s := s) (t := v.compactStarted id c.desc.collection)
      (id := id) (c := c)
    obtain ⟨e, he⟩ := State.cmd?_of_taken h
    refine ⟨_, exec_memCompact_starts h hv hcheck hcompact hbatch, ?_, ?_, ?_, ?_, ?_⟩
    · rw [State.coll_congr hsrch, State.coll_compactStarted]
    · rw [hsrch, ← hcoll]
      rfl
    · rw [State.coll_congr hsrch, State.coll_compactStarted, hcoll]
    · rw [State.common_congr hcommons, State.busy_compactStarted]
    · rw [State.cmd?_settled, State.cmd?_compactStarted, he]
      rfl
  · obtain ⟨hinsert, hdelete, hsearch⟩ := exec_mem (s := s) (v := v) (id := id) (c := c)
    rw [opMem_refused hv hcheck] at hinsert hdelete hsearch
    refine ⟨hinsert, hdelete, hsearch, fun h => ?_⟩
    rw [exec_memCompact h, opMemCompact_refused hv hcheck]
  · obtain ⟨b, hbatch, hcmds, hsnaps, hcolls, hkept⟩ := s.srchClose_fields
    exact ⟨_, b, exec_srchBatchClose hen hrows hhbm hfreeze hidle hdue, hbatch, hcmds,
      fun k q hkq => State.of_mem_searchSnaps (hsnaps ▸ hkq), hcolls, hkept⟩
  · obtain ⟨results, hscanned⟩ := s.batch_scanDone b
    exact ⟨_, _, exec_channelScanDone hb hscan hcores, rfl, hscanned, rfl, rfl, rfl⟩
end

section
/-! ## The order of search results -/
namespace Sys2Proof.Machine

/-! ### The Hamming distance (R352) -/

theorem bitAt_eq_testBit (n i : Nat) : bitAt n i = n.testBit i := by
  rw [bitAt, Nat.testBit_eq_decide_div_mod_eq, beq_eq_decide]

/-- The number of ones below a bound is the number of positions below it at which a one stands. -/
theorem popcount_eq_length_filter (v n : Nat) : popcount v n = ((List.range n).filter (v.testBit ·)).length := by
  induction n with
  | zero => rfl
  | succ n ih =>
    rw [popcount, ih, bitAt_eq_testBit, List.range_succ, List.filter_append, List.length_append, Nat.add_comm]
    cases h : v.testBit n <;> simp [h, b2n]

theorem hammingOf_eq_length_filter (cy a b : Nat) :
    hammingOf cy a b = ((List.range (8 * cy)).filter (fun i => Nat.testBit a i != Nat.testBit b i)).length := by
  have hxor (i : Nat) : Nat.testBit (Nat.xor a b) i = (Nat.testBit a i != Nat.testBit b i) := Nat.testBit_xor ..
  simp only [hammingOf, popcount_eq_length_filter, hxor]

theorem hammingOf_le (cy a b : Nat) : hammingOf cy a b ≤ 8 * cy := by
  rw [hammingOf_eq_length_filter]
  exact (List.length_filter_le ..).trans_eq List.length_range

/-! ### The two ranks are orders of the keys, taken field by field -/

theorem partBefore_iff (a b : Nat × Nat) : partBefore a b = true ↔ a.1 < b.1 ∨ a.1 = b.1 ∧ a.2 < b.2 := by
  simp [partBefore]

theorem partBefore_iff_lt (a b : Nat × Nat) : partBefore a b = true ↔ toLex a < toLex b :=
  (partBefore_iff a b).trans Prod.Lex.toLex_lt_toLex.symm

theorem hitBefore_iff (a b : Hit) : hitBefore a b = true ↔
    a.dist < b.dist ∨ a.dist = b.dist ∧ (a.r.id < b.r.id ∨ a.r.id = b.r.id ∧ (a.part < b.part ∨ a.part = b.part ∧
      (a.group < b.group ∨ a.group = b.group ∧ a.slot < b.slot))) := by
  simp [hitBefore, hitBefore.lt]

/-- The key of a record's rank: (distance, ITEM_ID, partition, group, slot) in the lexicographic order. -/
def Hit.rankKey (h : Hit) : Nat ×ₗ Nat ×ₗ Nat ×ₗ Nat ×ₗ Nat :=
  toLex (h.dist, toLex (h.r.id, toLex (h.part, toLex (h.group, h.slot))))

theorem hitBefore_iff_lt (a b : Hit) : hitBefore a b = true ↔ a.rankKey < b.rankKey := by
  simp only [hitBefore_iff, Hit.rankKey, Prod.Lex.toLex_lt_toLex]

/-- A rank that compares keys of a linear order is a total order of the keys. -/
theorem total_of_iff_lt {α κ : Type} [LinearOrder κ] {before : α → α → Bool} {key : α → κ}
    (h : ∀ a b, before a b = true ↔ key a < key b) (a b c : α) :
    before a a = false ∧ (before a b = true ∨ key a = key b ∨ before b a = true) ∧
      (before a b = true → before b c = true → before a c = true) := by
  refine ⟨Bool.eq_false_iff.2 fun haa => lt_irrefl _ ((h a a).1 haa), ?_, ?_⟩ <;> simp only [h]
  · exact lt_trichotomy _ _
  · exact lt_trans

/-! ### Sorting by a rank -/

section
variable {α κ : Type} [LinearOrder κ] {before : α → α → Bool} {key : α → κ}

theorem insertBy_eq_orderedInsert (a : α) (l : List α) :
    insertBy before a l = l.orderedInsert (before · · = true) a := by
  induction l with
  | nil => rfl
  | cons b l ih => simp only [insertBy, List.orderedInsert, ih]

theorem insertBy_perm (a : α) (l : List α) : (insertBy before a l).Perm (a :: l) := by
  rw [insertBy_eq_orderedInsert]
  exact List.perm_orderedInsert _ a l

theorem sortBy_perm (l : List α) : (sortBy before l).Perm l := by
  induction l with
  | nil => rfl
  | cons a l ih => exact (insertBy_perm a _).trans (ih.cons a)

theorem insertBy_pairwise_le (h : ∀ a b, before a b = true ↔ key a < key b) (a : α) {l : List α}
    (hl : l.Pairwise (key · ≤ key ·)) : (insertBy before a l).Pairwise (key · ≤ key ·) := by
  induction l with
  | nil => exact List.pairwise_singleton ..
  | cons b l ih =>
    obtain ⟨hb, hrest⟩ := List.pairwise_cons.1 hl
    rw [insertBy]
    split
    case isTrue hab =>
      have hab : key a ≤ key b := ((h a b).1 hab).le
      exact List.pairwise_cons.2 ⟨List.forall_mem_cons.2 ⟨hab, fun c hc => hab.trans (hb c hc)⟩, hl⟩
    case isFalse hab =>
      have hba : key b ≤ key a := not_lt.1 (mt (h a b).2 hab)
      refine List.pairwise_cons.2 ⟨fun c hc => ?_, ih hrest⟩
      rcases List.mem_cons.1 ((insertBy_perm a l).mem_iff.1 hc) with rfl | hc
      · exact hba
      · exact hb c hc

/-- What a rank sorts stands in the order of its keys. -/
theorem sortBy_pairwise_le (h : ∀ a b, before a b = true ↔ key a < key b) (l : List α) :
    (sortBy before l).Pairwise (key · ≤ key ·) := by
  induction l with
  | nil => exact List.Pairwise.nil
  | cons a l ih => exact insertBy_pairwise_le h a ih

theorem before_eq_false_iff (h : ∀ a b, before a b = true ↔ key a < key b) (a b : α) :
    before a b = false ↔ key b ≤ key a := by
  rw [← not_lt, ← h, Bool.not_eq_true]

end

end Sys2Proof.Machine

open Sys2Proof Sys2Proof.Machine in
/-- Settles O39: the distance counts the ones of the exclusive or; each rank compares keys of a linear order, the
lexicographic one; sorting inserts each record before the first that it precedes. -/
theorem searchRanks : Obligations.SearchRanks := by
  refine ⟨fun cy a b => ⟨hammingOf_eq_length_filter cy a b, hammingOf_le cy a b⟩, partBefore_iff,
    (total_of_iff_lt partBefore_iff_lt :), ⟨hitBefore_iff, (total_of_iff_lt hitBefore_iff_lt :)⟩,
    fun l => ⟨sortBy_perm l, ?_⟩⟩
  exact (sortBy_pairwise_le hitBefore_iff_lt l).imp fun hab => (before_eq_false_iff hitBefore_iff_lt _ _).2 hab
end

section
/-! ## Fabric ports -/
namespace Sys2Proof.Machine
variable {s t : State} {n : Nat}

/-! ### Requests that leave change neither the common registers nor the ports -/

@[simp] theorem State.countReq_frame (port : Option Nat) :
    (s.countReq port).commons = s.commons ∧ (s.countReq port).fam = s.fam ∧ (s.countReq port).out = s.out ∧
      (s.countReq port).sdir = s.sdir ∧ (s.countReq port).tick = s.tick := by
  unfold State.countReq
  cases port <;> simp

@[simp] theorem State.leave_frame (r : Req) : (s.leave r).commons = s.commons ∧ (s.leave r).fam = s.fam := by
  unfold State.leave
  split <;> simp

/-- The common registers and the ports. -/
def State.links (s : State) : Map Common × Map Port := (s.commons, s.fam.ports)

theorem State.links_leaveWaiting : s.leaveWaiting.links = s.links := by
  refine foldl_keeps State.links _ (fun t e => ?_) _ s
  dsimp only
  repeat' split
  all_goals simp [State.links]

@[simp] theorem State.pageState_leaveWaiting (p : Nat) : s.leaveWaiting.pageState p = s.pageState p :=
  State.pageState_congr (congrArg Prod.fst State.links_leaveWaiting) p

@[simp] theorem State.port_leaveWaiting (n : Nat) : s.leaveWaiting.port n = s.port n :=
  congrArg (fun l => l.2.getD n {}) State.links_leaveWaiting

@[simp] theorem State.port_setPort_self (n : Nat) (p : Port) : (s.setPort n p).port n = p := by
  rw [State.port_setPort, if_pos rfl]

@[simp] theorem State.pageState_setIntBit (p q i : Nat) : (s.setIntBit p i).pageState q = s.pageState q :=
  State.pageState_setInt ..

theorem State.port_congr (h : t.fam = s.fam) (n : Nat) : t.port n = s.port n := by
  simp only [State.port, h]

/-! ### A port that is enabled or disabled (R374) -/

theorem exec_fabEnable (n : BitVec 3) (en : Bool) (hl : s.live = true) (hf : s.failed (fabPage n.toNat) = false) :
    exec (.fabEnable n en) s = .next (
      if en then
        if s.pageState (fabPage n.toNat) = 0 ∧ s.ungate.domOn (156 + n.toNat) = true then
          ((s.ungate.clearCounters (fabPage n.toNat)).setEn (fabPage n.toNat) true).portTrain n.toNat
        else s.ungate
      else if s.pageState (fabPage n.toNat) = 0 then s.ungate.setEn (fabPage n.toNat) false
      else s.ungate.portOff n.toNat) := by
  simp only [exec, execFabEnable, State.touch_live hl, State.live_ungate, hl, State.failed_ungate, hf,
    State.pageState_ungate, Bool.not_true, Bool.or_self, Bool.false_eq_true, if_false]

/-! ### A port that trains reaches L0, or does not in time (R374, R404) -/

/-- The registers of a link in L0, and its port. -/
def State.inL0 (s : State) (n rate width : Nat) : State :=
  ((s.setLink n rate width false).setReg .FAB_TRAIN_FAILS_COUNT 0 n).setPort n { training := false, since := s.tick }

/-- A port that has reached L0: UP at its full rate and width, DEGRADED below them. -/
def State.linkUp (s : State) (n rate width : Nat) : State :=
  let t := s.inL0 n rate width
  if width = 16 ∧ rate = t.maxRate n then (t.setPageState (fabPage n) 3).setIntBit (fabPage n) 8
  else (t.setPageState (fabPage n) 4).setIntBit (fabPage n) 10

theorem State.maxRate_setReg (r : Reg) (v i : Nat) (hr : .FAB_CFG_MAX_RATE ≠ r) (hi : i < 4294967296) (hn : n < 4294967296) :
    (s.setReg r v i).maxRate n = s.maxRate n := by
  simp only [State.maxRate, State.reg_setReg_ne s r .FAB_CFG_MAX_RATE v i n hr hi hn]

theorem State.maxRate_inL0 (rate width : Nat) (hn : n < 8) : (s.inL0 n rate width).maxRate n = s.maxRate n := by
  have hi : n < 4294967296 := by omega
  have kept (t : State) (r : Reg) (v : Nat) (hr : .FAB_CFG_MAX_RATE ≠ r) : (t.setReg r v n).maxRate n = t.maxRate n :=
    State.maxRate_setReg r v n hr hi hi
  have hport (t : State) (p : Port) : (t.setPort n p).maxRate n = t.maxRate n := rfl
  rw [State.inL0, hport, kept _ _ _ (by decide), State.setLink, kept _ _ _ (by decide), kept _ _ _ (by decide),
    kept _ _ _ (by decide)]

theorem State.pageState_linkUp (rate width : Nat) (hn : n < 8) :
    (s.linkUp n rate width).pageState (fabPage n) = if width = 16 ∧ rate = s.maxRate n then 3 else 4 := by
  simp only [State.linkUp, State.maxRate_inL0 rate width hn]
  split <;> rw [State.pageState_setIntBit, State.pageState_setPageState, if_pos rfl]

theorem State.port_linkUp (rate width : Nat) : (s.linkUp n rate width).port n = { training := false, since := s.tick } := by
  have hport : (s.inL0 n rate width).port n = { training := false, since := s.tick } := State.port_setPort_self ..
  simp only [State.linkUp]
  split <;> exact (State.port_congr (by simp) n).trans hport

theorem exec_linkL0 {rate width : Nat} (hn : n < 8) (hst : s.pageState (fabPage n) = 2 ∨ s.pageState (fabPage n) = 5)
    (htrain : (s.port n).training = true) (hwidth : widthOk width = true) (hrate : rate < 3) (hmax : s.maxRate n ≤ rate) :
    exec (.linkL0 n rate width) s = .next (s.linkUp n rate width).leaveWaiting := by
  have htick : ((s.setLink n rate width false).setReg .FAB_TRAIN_FAILS_COUNT 0 n).tick = s.tick := by simp [State.setLink]
  simp only [exec, execLinkL0, hn, hst, htrain, hwidth, hrate, hmax, and_self, if_true, htick]
  rfl

/-- A port whose training failed: DOWN, with one failure more. -/
def State.trainFailed (s : State) (n : Nat) : State :=
  ((s.setReg .FAB_TRAIN_FAILS_COUNT (s.reg .FAB_TRAIN_FAILS_COUNT n + 1) n).setPort n
    { training := false, since := s.tick }).setPageState (fabPage n) 5

theorem exec_linkTrainTimeout (hn : n < 8) (hst : s.pageState (fabPage n) = 2 ∨ s.pageState (fabPage n) = 5)
    (htrain : (s.port n).training = true) (hlate : (s.port n).since + 100000000 ≤ s.tick) :
    exec (.linkTrainTimeout n) s = .next (if 16 ≤ s.reg .FAB_TRAIN_FAILS_COUNT n + 1
      then (s.trainFailed n).failPage (fabPage n) 0x0001 else s.trainFailed n) := by
  simp only [exec, execLinkTrainTimeout, hn, hst, htrain, hlate, and_self, if_true, State.trainFailed]

theorem State.pageState_failPage_self (p code : Nat) : (s.failPage p code).pageState p = 0xFF :=
  beq_iff_eq.1 (State.failed_failPage p code)

theorem State.pageState_trainFailed : (s.trainFailed n).pageState (fabPage n) = 5 := by
  rw [State.trainFailed, State.pageState_setPageState, if_pos rfl]

theorem State.port_trainFailed : (s.trainFailed n).port n = { training := false, since := s.tick } :=
  State.port_setPort_self ..

theorem State.fails_trainFailed (h : s.reg .FAB_TRAIN_FAILS_COUNT n + 1 < 32) :
    (s.trainFailed n).reg .FAB_TRAIN_FAILS_COUNT n = s.reg .FAB_TRAIN_FAILS_COUNT n + 1 :=
  (State.reg_setReg_self ..).trans (Nat.mod_eq_of_lt h)

/-! ### A port that leaves L0, and one that is DOWN (R374) -/

theorem exec_linkRetrain (hn : n < 8) (hst : s.pageState (fabPage n) = 5) (htrain : (s.port n).training = false)
    (hlate : (s.port n).since + 1000000000 ≤ s.tick) :
    exec (.linkRetrain n) s = .next (s.setPort n { training := true, since := s.tick }) := by
  simp only [exec, execLinkRetrain, hn, hst, htrain, hlate, and_self, if_true]

theorem exec_linkDown (hn : n < 8) (hst : s.pageState (fabPage n) = 3 ∨ s.pageState (fabPage n) = 4) :
    exec (.linkDown n) s = .next (s.linkDown n) := by
  simp only [exec, execLinkDown, hn, hst, and_self, if_true]

theorem exec_l0pWidthChange {width : Nat} (hn : n < 8) (hst : s.pageState (fabPage n) = 3 ∨ s.pageState (fabPage n) = 4)
    (hen : s.regBit .FAB_CFG_L0P_EN n = true) (hwidth : widthOk width = true) :
    exec (.l0pWidthChange n width) s
      = .next ((s.setReg .FAB_LINK_WIDTH width n).setReg .FAB_LINK_L0P (b2n (width != 16)) n) := by
  simp only [exec, execL0pWidthChange, hn, hst, hen, hwidth, and_self, if_true]

end Sys2Proof.Machine

open Sys2Proof Sys2Proof.Machine in
/-- Settles O40: each row of a port in the branch that its state selects; what waited at issue leaves without changing a port or
a page (`State.links_leaveWaiting`). -/
theorem linkStates : Obligations.LinkStates := by
  intro s n p k
  have hn : n.toNat < 8 := n.isLt
  refine ⟨fun hl hp hdom => ?_, fun hl hp hf => ?_, fun rate width hst htrain hwidth hrate hmax => ?_,
    fun hst htrain hlate => ?_, fun hst htrain hlate => exec_linkRetrain hn hst htrain hlate,
    fun hst => ⟨exec_linkDown hn hst, fun width hen hwidth => exec_l0pWidthChange hn hst hen hwidth⟩⟩
  · have hf : s.failed p = false := by simp [State.failed, hp]
    rw [exec_fabEnable n true hl hf, if_pos rfl, if_pos ⟨hp, hdom⟩]
  · rw [exec_fabEnable n false hl hf, if_neg Bool.false_ne_true, if_neg hp]
  · refine ⟨_, exec_linkL0 hn hst htrain hwidth hrate hmax, ?_, ?_⟩
    · rw [State.port_leaveWaiting, State.port_linkUp]
    · rw [State.pageState_leaveWaiting, State.pageState_linkUp rate width hn]
  · refine ⟨_, exec_linkTrainTimeout hn hst htrain hlate, ?_⟩
    by_cases hk : 16 ≤ k
    · have hport : ((s.trainFailed n.toNat).failPage p 0x0001).port n.toNat = { training := false, since := s.tick } :=
        (State.port_congr (by simp) _).trans State.port_trainFailed
      rw [if_pos hk, if_pos hk, hport, State.pageState_failPage_self]
      exact ⟨rfl, rfl, rfl, fun h32 => (State.reg_congr (by simp) ..).trans (State.fails_trainFailed h32)⟩
    · rw [if_neg hk, if_neg hk, State.port_trainFailed, State.pageState_trainFailed]
      exact ⟨rfl, rfl, rfl, State.fails_trainFailed⟩
end

section
/-! ## Requests to peers, dead targets and the map -/
namespace Sys2Proof.Machine
variable {s t : State}

/-! ### Requests that end (R379, R387, R390) -/

theorem exec_fabricCompletion_late {q : Nat} (o : FabResult) (h : s.fam.late.contains q = true) :
    exec (.fabricCompletion q o) s
      = .next (({ s with fam := { s.fam with late := s.fam.late.filter (· != q) } }).bump .FAM_LATE_RESPONSES_COUNT) := by
  simp only [exec, execFabricCompletion, h, if_true]

theorem exec_fabricCompletion_none {q : Nat} (o : FabResult) (h : s.fam.late.contains q = false)
    (hq : s.fam.reqs.get? q = none) : exec (.fabricCompletion q o) s = .next s := by
  simp only [exec, execFabricCompletion, h, hq, Bool.false_eq_true, if_false]

theorem exec_fabricCompletion_request {q : Nat} {r : Req} (h : s.fam.late.contains q = false)
    (hq : s.fam.reqs.get? q = some r) :
    exec (.fabricCompletion q .normal) s = .next (s.endReq q r) ∧
      exec (.fabricCompletion q .aborted) s = .next { s.bump .FAM_MSG_BUSY_COUNT with fam := { s.fam with
        reqs := s.fam.reqs.set q { r with resendAt := some (s.tick + 100000), since := s.tick } } } ∧
      exec (.fabricCompletion q .unsupported) s = .next (s.failReq q r) ∧
      exec (.fabricCompletion q .poisoned) s = .next (s.failReq q r) := by
  refine ⟨?_, ?_, ?_, ?_⟩ <;> simp only [exec, execFabricCompletion, h, hq, Bool.false_eq_true, if_false]

/-- A counter saturates, so that what it comes to fits its field. -/
theorem State.reg_bump_self {r : Reg} (i k : Nat) : (s.bump r i k).reg r i = satAdd r.desc.width (s.reg r i) k := by
  have hlt : satAdd r.desc.width (s.reg r i) k < 2 ^ r.desc.width := by
    have := Nat.two_pow_pos r.desc.width
    unfold satAdd
    omega
  rw [State.bump, State.reg_setReg_self, Nat.mod_eq_of_lt hlt]

/-! ### Writes that are sent again (R387) -/

/-- A write that is sent again is on a usable port of its entry, if there is one, and no longer waits for its time. -/
def State.resent (s : State) (r : Req) : Req :=
  { r with resendAt := none, since := s.tick, port := s.peerPort r.device }

theorem exec_peerResend_due {q t0 : Nat} {r : Req} (hq : s.fam.reqs.get? q = some r) (hr : r.resendAt = some t0)
    (ht : t0 ≤ s.tick) (hquiet : s.isQuiet r.device = false) :
    exec (.peerResend q) s
      = .next (({ s with fam := { s.fam with reqs := s.fam.reqs.set q (s.resent r) } }).leave (s.resent r)) := by
  simp only [exec, execPeerResend, hq, hr, ht, hquiet, and_self, if_true]
  rfl

theorem exec_peerResend_early {q t0 : Nat} {r : Req} (hq : s.fam.reqs.get? q = some r) (hr : r.resendAt = some t0)
    (h : s.tick < t0 ∨ s.isQuiet r.device = true) : exec (.peerResend q) s = .next s := by
  have hnot : ¬(t0 ≤ s.tick ∧ s.isQuiet r.device = false) := by
    rintro ⟨ht, hquiet⟩
    rcases h with hlt | hq
    · omega
    · exact Bool.false_ne_true (hquiet.symm.trans hq)
  simp only [exec, execPeerResend, hq, hr, if_neg hnot]

theorem State.out_leave_some {r : Req} (h : r.port.isSome = true) : (s.leave r).out = OutMsg.peer r.device r.msg :: s.out := by
  obtain ⟨n, hn⟩ := Option.isSome_iff_exists.1 h
  simp [State.leave, hn]

theorem State.leave_none {r : Req} (h : r.port = none) : s.leave r = s := by
  simp only [State.leave, h]

/-! ### Targets that are marked dead (R389, R392) -/

section
variable {d : Nat} {l : List Req} (hl : s.fam.reqs.values.filter (fun r => r.device == d) = l)
include hl

theorem exec_fabricTimeout_due (hen : s.enabled pgFam = true)
    (hmap : s.mapEntries.any (fun i => s.reg .FAM_MAP_DEST_DEVICE i == d) = true) (hquiet : s.isQuiet d = false)
    (hdue : l = [] ∨ ∃ r, r ∈ l ∧ r.resendAt = none ∧ r.since + s.timeoutTicks ≤ s.tick)
    (hdead : s.fam.dead.contains d = false) : exec (.fabricTimeout d) s = .next (s.markDead d) := by
  subst hl
  refine congrArg Host.Outcome.next (if_pos ⟨hen, hmap, hdead, hquiet, hdue.imp List.isEmpty_iff.2 ?_⟩)
  rintro ⟨r, hr, hsent, hlate⟩
  exact List.any_eq_true.2 ⟨r, hr, by simp [hsent, hlate]⟩

theorem exec_fabricTimeout_not (h : s.isQuiet d = true ∨ s.fam.dead.contains d = true ∨
      (l ≠ [] ∧ ∀ r, r ∈ l → r.resendAt ≠ none ∨ s.tick < r.since + s.timeoutTicks)) :
    exec (.fabricTimeout d) s = .next s := by
  subst hl
  refine congrArg Host.Outcome.next (if_neg ?_)
  rintro ⟨-, -, hdead, hquiet, hdue⟩
  rcases h with hq | hd | ⟨hne, hall⟩
  · exact Bool.false_ne_true (hquiet.symm.trans hq)
  · exact Bool.false_ne_true (hdead.symm.trans hd)
  rcases hdue with hempty | hany
  · exact hne (List.isEmpty_iff.1 hempty)
  · obtain ⟨r, hr, hdue⟩ := List.any_eq_true.1 hany
    obtain ⟨hsent, hlate⟩ : r.resendAt = none ∧ r.since + s.timeoutTicks ≤ s.tick := by simpa using hdue
    rcases hall r hr with hsome | hearly
    · exact hsome hsent
    · omega

end

theorem State.fam_clearPool (d : Nat) : (s.clearPool d).fam = s.fam := by
  have hp : (s.clearPool d).pageless = s.pageless := foldl_keeps State.pageless _ (fun _ _ => State.pageless_dropPool _) _ s
  exact (congrArg State.fam hp :)

theorem exec_deadWalkDone {d : Nat} (h : s.fam.walking.contains d = true) :
    exec (.deadWalkDone d) s = .next (({ s.clearPool d with fam := { s.fam with
      walking := s.fam.walking.filter (· != d) } }).setIntBit pgFam 9) := by
  simp only [exec, execDeadWalkDone, h, if_true, State.fam_clearPool]

/-! ### Dead marks that are cleared (R393) -/

/-- The dead mark of a device is cleared. -/
def State.markCleared (s : State) (d : Nat) : State :=
  ({ s with fam := { s.fam with dead := s.fam.dead.filter (· != d) } }).setReg .FAM_DEAD_COUNT_COUNT
    (s.fam.dead.filter (· != d)).length

theorem exec_deadMarkClear (hl : s.live = true) (hd : s.fam.dead.contains (s.reg .FAM_DEAD_SEL_DEVICE) = true) :
    exec .deadMarkClear s = .next (s.ungate.markCleared (s.reg .FAM_DEAD_SEL_DEVICE)) := by
  have hdead : s.ungate.fam.dead.contains (s.reg .FAM_DEAD_SEL_DEVICE) = true := hd
  simp only [exec, execDeadMarkClear, State.touch_live hl, State.live_ungate, hl, hdead, and_self, if_true]
  rfl

theorem exec_deadMarkClear_none (hl : s.live = true) (hd : s.fam.dead.contains (s.reg .FAM_DEAD_SEL_DEVICE) = false) :
    exec .deadMarkClear s = .next s.ungate := by
  have hdead : s.ungate.fam.dead.contains (s.reg .FAM_DEAD_SEL_DEVICE) = false := hd
  simp only [exec, execDeadMarkClear, State.touch_live hl, hdead, Bool.false_eq_true, and_false, if_false]

theorem State.fam_markCleared (d : Nat) :
    (s.markCleared d).fam = { s.fam with dead := s.fam.dead.filter (· != d) } := by simp [State.markCleared]

theorem State.contains_dead_markCleared (d e : Nat) :
    (s.markCleared d).fam.dead.contains e = (s.fam.dead.contains e && e != d) := by
  rw [State.fam_markCleared]
  exact Bool.eq_iff_iff.2 (by simp)

theorem State.mayReach_markCleared (d e : Nat) :
    (s.markCleared d).mayReach e = (s.enabled pgFam && !(s.fam.dead.contains e && e != d)) := by
  have hstate (p : Nat) : (s.markCleared d).pageState p = s.pageState p :=
    State.pageState_congr (by simp [State.markCleared]) p
  simp only [State.mayReach, State.enabled, hstate, State.contains_dead_markCleared]

/-! ### Streams whose integrity fails (R390, R405, R454) -/

/-- A stream has stopped, and the link that saw its integrity fail has recorded it. -/
def State.streamStopped (s : State) (st n : Nat) : State :=
  ((((s.setStream st { s.stream st with active := false, failed := true, secret := [], keys := [] }).bump
    .SEC3_STREAM_FAILS_COUNT).recErr (fabPage n) 0x0002).setIntBit (fabPage n) 11).bump .FAB_IDE_FAILS_COUNT n

theorem State.stream_streamStopped (st n : Nat) : (s.streamStopped st n).stream st
    = { s.stream st with active := false, failed := true, secret := [], keys := [] } := by
  have hsec : (s.streamStopped st n).sec
      = (s.setStream st { s.stream st with active := false, failed := true, secret := [], keys := [] }).sec := by
    simp [State.streamStopped]
  simp only [State.stream, hsec]
  exact (State.stream_setStream ..).trans (if_pos rfl)

theorem State.err_streamStopped (st n : Nat) : ((s.streamStopped st n).common (fabPage n)).err = true := by
  have hbump (t : State) : (t.bump .FAB_IDE_FAILS_COUNT n).common (fabPage n) = t.common (fabPage n) :=
    State.common_congr (by simp) _
  rw [State.streamStopped, hbump, State.setIntBit, State.common_setInt, if_pos rfl, State.common_recErr, if_pos rfl]

theorem State.fam_streamStopped (st n : Nat) : (s.streamStopped st n).fam = s.fam := by
  simp [State.streamStopped]

theorem exec_ideIntegrityFail {st : Nat} (n : BitVec 3) (h : (s.stream st).active = true) :
    let u := s.streamStopped st n.toNat
    exec (.ideIntegrityFail st n) s = .next ((u.fam.reqs.entries.filter (fun e =>
      ((u.peerEntry e.2.device).map (fun i => u.reg .FAM_MAP_PORTS_IDE_STREAM i)) == some st)).foldl
        (fun w e => w.failReq e.1 e.2) u) :=
  congrArg Host.Outcome.next (if_pos h)

theorem exec_ideIntegrityFail_stopped {st : Nat} (n : BitVec 3) (h : (s.stream st).active = false) :
    exec (.ideIntegrityFail st n) s = .next s :=
  congrArg Host.Outcome.next (if_neg (Bool.eq_false_iff.1 h))

/-! ### Quiet windows, messages without a slot, and the map (R377, R385, R387, R388) -/

theorem exec_quietSpanEnd {d t0 : Nat} (hd : s.fam.quiet.get? d = some t0) :
    exec (.quietSpanEnd d) s = .next (if t0 ≤ s.tick then
      ({ s with fam := { s.fam with
        quiet := s.fam.quiet.erase d,
        reqs := s.fam.reqs.map (fun _ r => if r.device = d then { r with since := s.tick } else r) } }).drainPeer d else s) := by
  simp only [exec, execQuietSpanEnd, hd]

theorem exec_peerSlotTimeout (d : Nat) : exec (.peerSlotTimeout d) s
    = .next (if s.enabled pgFam then { s with out := OutMsg.completerAbort d :: s.out } else s) := rfl

theorem exec_famMapCommit (hl : s.live = true) : exec .famMapCommit s
    = .next (if s.ungate.mapOk then s.ungate.mapSwap.leaveWaiting else s.ungate.recErr pgFam 0x0010) := by
  simp only [exec, execFamMapCommit, State.touch_live hl, State.live_ungate, hl, Bool.not_true, Bool.false_eq_true, if_false]

end Sys2Proof.Machine

open Sys2Proof Sys2Proof.Machine in
/-- Settles O41: each row in the branch that its hypotheses select. -/
theorem fabricRequests : Obligations.FabricRequests := by
  intro s
  refine ⟨fun q r hlate hq => exec_fabricCompletion_request hlate hq, fun q o hlate hq => exec_fabricCompletion_none o hlate hq,
    fun q o hlate => ?_, fun q t0 r hq hr ht hquiet => ?_, fun q t0 r hq hr h => exec_peerResend_early hq hr h,
    fun d hen hmap => ⟨exec_fabricTimeout_due rfl hen hmap, exec_fabricTimeout_not rfl⟩, fun d hd => ?_, fun hl hd => ?_,
    exec_deadMarkClear_none, fun st n => ⟨fun h => ?_, exec_ideIntegrityFail_stopped n⟩, fun d t0 hd ht => ?_,
    fun d t0 hd ht => ?_, fun d => ⟨fun hen => ?_, fun hen => ?_⟩, fun d => rfl, fun hl => ⟨fun hok => ?_, fun hok => ?_⟩⟩
  · refine ⟨_, exec_fabricCompletion_late o hlate, ?_, ?_, State.reg_bump_self 0 1⟩
    · simp
    · simp
  · have hset (u : State) : (({ u with fam := { s.fam with reqs := s.fam.reqs.set q (s.resent r) } } : State).leave
        (s.resent r)).fam.reqs.get? q = some (s.resent r) := by simp
    refine ⟨_, s.resent r, exec_peerResend_due hq hr ht hquiet, hset s, rfl, rfl, rfl, rfl, fun hport => ?_, fun hnone => ?_⟩
    · exact State.out_leave_some (r := s.resent r) hport
    · rw [State.leave_none (r := s.resent r) hnone]
  · refine ⟨_, exec_deadWalkDone hd, ?_, ?_⟩
    · simp
    · simp
  · refine ⟨_, exec_deadMarkClear hl hd, ?_, fun d hne => ?_⟩
    · rw [State.contains_dead_markCleared, bne_self_eq_false, Bool.and_false]
    · rw [State.contains_dead_markCleared, bne_iff_ne.2 hne, Bool.and_true]
      rfl
  · have hstream := State.stream_streamStopped (s := s) st n.toNat
    refine ⟨s.streamStopped st n.toNat, ?_, ?_, ?_, State.err_streamStopped .., State.fam_streamStopped ..,
      exec_ideIntegrityFail n h⟩ <;> rw [hstream]
  · rw [exec_quietSpanEnd hd, if_pos ht]
  · rw [exec_quietSpanEnd hd, if_neg (by omega)]
  · rw [exec_peerSlotTimeout, if_pos hen]
  · rw [exec_peerSlotTimeout, if_neg (by simp [hen])]
  · rw [exec_famMapCommit hl, if_pos hok]
  · rw [exec_famMapCommit hl, if_neg (by simp [hok])]

open Sys2Proof Sys2Proof.Machine in
/-- Settles O42: clearing a mark takes the device out of the list of dead targets, and changes nothing else but its count. -/
theorem deadMarkCleared : Obligations.DeadMarkCleared := by
  intro s d hl hen hsel hd
  subst hsel
  have hclear := exec_deadMarkClear hl hd
  generalize s.reg .FAM_DEAD_SEL_DEVICE = d at hclear ⊢
  refine ⟨_, hclear, ?_, fun e hne => ?_, ?_, ?_, ?_, ?_, ?_⟩
  · rw [State.mayReach_markCleared, State.enabled_ungate, hen, bne_self_eq_false, Bool.and_false]
    rfl
  · rw [State.mayReach_markCleared, bne_iff_ne.2 hne, Bool.and_true]
    rfl
  all_goals simp [State.markCleared]
end

section
/-! ## Leases -/
namespace Sys2Proof.Machine
variable {s t : State}

/-! ### The table of fields filtered by key -/

theorem lookupIn_filter {α : Type} {p : Nat → Bool} {k : Nat} (hk : p k = true) (l : List (Nat × α)) :
    lookupIn k (l.filter (fun e => p e.1)) = lookupIn k l := by
  induction l with
  | nil => rfl
  | cons e l ih =>
    obtain ⟨a, x⟩ := e
    rw [List.filter_cons]
    simp only [lookupIn]
    split
    · simp only [lookupIn, ih]
    · next hp => rw [ih, if_neg (by rintro rfl; exact hp hk)]

theorem filter_insertIn {α : Type} {p : Nat → Bool} {k : Nat} (hk : p k = false) (v : α) (l : List (Nat × α)) :
    (insertIn k v l).filter (fun e => p e.1) = l.filter (fun e => p e.1) := by
  induction l with
  | nil => simp [insertIn, hk]
  | cons e l ih =>
    obtain ⟨a, x⟩ := e
    unfold insertIn
    split
    · simp only [List.filter_cons, ih]
    · split
      · next heq => simp [heq, hk]
      · simp [List.filter_cons, hk]

theorem filter_eraseIn {α : Type} {p : Nat → Bool} {k : Nat} (hk : p k = false) (l : List (Nat × α)) :
    (eraseIn k l).filter (fun e => p e.1) = l.filter (fun e => p e.1) := by
  rw [eraseIn_eq, List.filter_filter]
  refine List.filter_congr fun e _ => ?_
  by_cases he : e.1 = k <;> simp [he, hk]

/-! ### What a request is routed by -/

/-- The fields of the map, and this device's id, by which a home is found. -/
def routingRegs : List Reg := [.FAM_MAP_UNITS_UNITS, .FAM_MAP_FA_FA_BASE, .FAM_MAP_DEST_DEVICE, .FAM_SELF_DEVICE]

/-- The key is that of a copy of such a field. -/
def isRouting (k : Nat) : Bool := routingRegs.any (fun r => k / 4294967296 == r.ctorIdx)

/-- What says whether a home can be reached. -/
def State.routing (s : State) : List (Nat × Nat) × Map Common × Fam :=
  (s.regs.entries.filter (fun e => isRouting e.1), s.commons, s.fam)

theorem Reg.key_div (r : Reg) {i : Nat} (hi : i < 4294967296) : r.key i / 4294967296 = r.ctorIdx := by
  unfold Reg.key
  omega

theorem isRouting_key {r : Reg} {i : Nat} (hi : i < 4294967296) : isRouting (r.key i) = routingRegs.contains r := by
  rw [isRouting, Reg.key_div r hi, List.contains_eq_any_beq]
  refine congrArg (fun p => routingRegs.any p) (funext fun q => ?_)
  exact Bool.eq_iff_iff.2 (by simpa using ⟨Reg.ctorIdx_inj, congrArg Reg.ctorIdx⟩)

theorem State.routing_setReg {r : Reg} (v : Nat) {i : Nat} (hi : i < 4294967296) (hr : routingRegs.contains r = false) :
    (s.setReg r v i).routing = s.routing := by
  have hk : isRouting (r.key i) = false := (isRouting_key hi).trans hr
  unfold State.setReg
  dsimp only
  split
  · exact congrArg (·, s.commons, s.fam) (filter_eraseIn hk s.regs.entries)
  · exact congrArg (·, s.commons, s.fam) (filter_insertIn hk _ s.regs.entries)

theorem State.reg_of_routing (h : t.routing = s.routing) {r : Reg} {i : Nat} (hi : i < 4294967296)
    (hr : routingRegs.contains r = true) : t.reg r i = s.reg r i := by
  have hk : isRouting (r.key i) = true := (isRouting_key hi).trans hr
  have hregs : t.regs.entries.filter (fun e => isRouting e.1) = s.regs.entries.filter (fun e => isRouting e.1) :=
    congrArg Prod.fst h
  have hget : t.regs.get? (r.key i) = s.regs.get? (r.key i) := by
    rw [Map.get?, Map.get?, ← lookupIn_filter hk, hregs, lookupIn_filter hk]
  rw [State.reg, State.reg, hget]

theorem filterMap_of_filter {α β : Type} {p : α → Bool} {f : α → Option β} (h : ∀ e, p e = false → f e = none) (l : List α) :
    (l.filter p).filterMap f = l.filterMap f := by
  rw [List.filterMap_filter]
  refine List.filterMap_congr fun e _ => ?_
  cases hp : p e <;> simp [h e, hp]

theorem State.mapEntries_of_routing (h : t.routing = s.routing) : t.mapEntries = s.mapEntries := by
  have hregs : t.regs.entries.filter (fun e => isRouting e.1) = s.regs.entries.filter (fun e => isRouting e.1) :=
    congrArg Prod.fst h
  have hother (e : Nat × Nat) (he : isRouting e.1 = false) : (if e.1 / 4294967296 = Reg.FAM_MAP_UNITS_UNITS.ctorIdx
      then some (e.1 % 4294967296, e.2) else none) = none :=
    if_neg fun hc => by simp [isRouting, routingRegs, hc] at he
  rw [State.mapEntries, State.mapEntries, State.copies, State.copies, ← filterMap_of_filter hother, hregs,
    filterMap_of_filter hother]

theorem State.lt_of_mem_mapEntries {i : Nat} (h : i ∈ s.mapEntries) : i < 4294967296 := by
  obtain ⟨⟨j, v⟩, he, rfl⟩ := List.mem_map.1 h
  obtain ⟨e, -, he⟩ := List.mem_filterMap.1 he
  split at he
  · cases he
    exact Nat.mod_lt _ (by decide)
  · cases he

theorem State.mapOf_of_routing (h : t.routing = s.routing) (addr n : Nat) : t.mapOf addr n = s.mapOf addr n := by
  rw [State.mapOf, State.mapOf, State.mapEntries_of_routing h]
  refine List.find?_congr fun i hi => ?_
  have hlt := State.lt_of_mem_mapEntries hi
  rw [State.mapBase, State.mapBase, State.mapBytes, State.mapBytes, State.reg_of_routing h hlt rfl,
    State.reg_of_routing h hlt rfl]

theorem State.mayReach_of_routing (h : t.routing = s.routing) (d : Nat) : t.mayReach d = s.mayReach d := by
  have hcommons : t.commons = s.commons := congrArg (·.2.1) h
  have hfam : t.fam = s.fam := congrArg (·.2.2) h
  simp only [State.mayReach, State.enabled, State.pageState_congr hcommons, hfam]

theorem State.homeReachable_of_routing (h : t.routing = s.routing) (addr : Nat) :
    t.homeReachable addr = s.homeReachable addr := by
  have htarget : t.targetOf addr = s.targetOf addr := by
    rw [State.targetOf, State.targetOf, State.mapOf_of_routing h]
    refine Option.map_congr fun i hi => State.reg_of_routing h ?_ rfl
    exact State.lt_of_mem_mapEntries (List.mem_of_find?_eq_some hi)
  simp only [State.homeReachable, htarget, State.mayReach_of_routing h]

theorem State.self_of_routing (h : t.routing = s.routing) : t.self = s.self :=
  State.reg_of_routing h (by decide) rfl

/-! ### Counting a lease operation leaves the routing, the sessions and the time -/

theorem State.routing_bump {r : Reg} {i : Nat} (k : Nat) (hi : i < 4294967296) (hr : routingRegs.contains r = false) :
    (s.bump r i k).routing = s.routing := State.routing_setReg _ hi hr

theorem State.portFor_lt {i d addr n : Nat} (h : s.portFor i d addr = some n) : n < 8 := by
  unfold State.portFor at h
  dsimp only at h
  split at h
  · cases h
  · obtain ⟨hmem, -⟩ := List.mem_filter.1 (List.mem_of_getElem? h)
    exact List.mem_range.1 hmem

theorem State.routing_countReq {port : Option Nat} (h : ∀ n, port = some n → n < 8) :
    (s.countReq port).routing = s.routing := by
  unfold State.countReq
  cases port with
  | none => exact State.routing_bump 1 (by decide) rfl
  | some n =>
    have hn := h n rfl
    exact (State.routing_bump 1 (by omega) rfl).trans (State.routing_bump 1 (by decide) rfl)

theorem State.routing_countLease (addr : Nat) : (s.countLease addr).routing = s.routing := by
  unfold State.countLease
  split
  · exact State.routing_bump 1 (by decide) rfl
  · dsimp only
    repeat' split
    · exact State.routing_countReq fun n => State.portFor_lt
    · exact State.routing_bump 1 (by decide) rfl
    · rfl

@[simp] theorem State.countLease_frame (addr : Nat) :
    (s.countLease addr).sdir = s.sdir ∧ (s.countLease addr).tick = s.tick := by
  simp only [State.countLease]
  repeat' split
  all_goals simp

/-! ### CAS operations (R395) -/

/-- The first CAS on the word is no longer outstanding. -/
def State.casTaken (s : State) (addr : Nat) (rest : List CasOp) : State :=
  { s with fam := { s.fam with cas := if rest.isEmpty then s.fam.cas.erase addr else s.fam.cas.set addr rest } }

/-- The next CAS on the word, if one waits, issues. -/
def State.nextCas (s : State) (addr : Nat) (rest : List CasOp) : State :=
  if rest.isEmpty then s else s.countLease addr

theorem State.heard_reachable {addr : Nat} (h : s.homeReachable addr = true) (w : Option DWord) :
    s.heard addr w = w.map (·.toNat) := if_pos h

section
variable {addr : Nat} {o : CasOp} {rest : List CasOp} (hcas : s.fam.cas.getD addr [] = o :: rest)
  (hreach : s.homeReachable addr = true)
include hcas hreach

theorem exec_leaseCasResult_won {found : DWord} (h : found.toNat = o.expect) :
    exec (.leaseCasResult addr (some found) none) s
      = .next ((({ s.casTaken addr rest with fabric := s.fabric.writeN addr (leBytes o.word 8) }).casEnd o .won).nextCas
        addr rest) := by
  have hend : o.end' (some found.toNat) none = .won := if_pos h
  simp only [exec, execLeaseCasResult, State.heard_reachable hreach, Option.map_some, Option.map_none, State.casAnswer, hcas,
    hend]
  rfl

theorem exec_leaseCasResult_lost {found : DWord} (h : found.toNat ≠ o.expect) :
    exec (.leaseCasResult addr (some found) none) s
      = .next (((s.casTaken addr rest).casEnd o (.lost found.toNat)).nextCas addr rest) := by
  have hend : o.end' (some found.toNat) none = .lost found.toNat := if_neg h
  simp only [exec, execLeaseCasResult, State.heard_reachable hreach, Option.map_some, Option.map_none, State.casAnswer, hcas,
    hend]
  rfl

theorem exec_leaseCasResult_silent :
    exec (.leaseCasResult addr none none) s = .next (((s.casTaken addr rest).casEnd o .silent).nextCas addr rest) := by
  have hend : o.end' none none = .silent := rfl
  simp only [exec, execLeaseCasResult, State.heard_reachable hreach, Option.map_none, State.casAnswer, hcas, hend]
  rfl

end

/-! ### Validations (R396) -/

/-- The state once a validation read of the session's word has been counted. -/
def State.validating (s : State) (x : Session) : State := (s.countLease x.leaseAddr).bump .FAM_VALIDATIONS_COUNT

theorem State.routing_validating (x : Session) : (s.validating x).routing = s.routing :=
  (State.routing_bump 1 (by decide) rfl).trans (State.routing_countLease _)

section
variable {k : Nat} {x : Session} (hx : s.session? k = some x) (hleased : x.leased = true) (haway : x.residency ≠ .away)
  (hlost : x.runState ≠ .lost) (hhere : s.notMigrating k = true)
include hx hleased haway hlost hhere

theorem exec_leaseValidationResult_none :
    exec (.leaseValidationResult k none) s = .next ((s.validating x).homeFailed k) := by
  have hheard : (s.validating x).heard x.leaseAddr none = none := ite_self _
  simp only [exec, execLeaseValidationResult, hx, hleased, haway, hlost, hhere, ne_eq, not_false_eq_true, and_self, if_true]
  rw [State.validating] at hheard
  rw [hheard]
  rfl

theorem exec_leaseValidationResult_owned {w : DWord} (hreach : s.homeReachable x.leaseAddr = true)
    (hw : w.toNat = owned x.leaseEpoch s.self) :
    exec (.leaseValidationResult k (some w)) s = .next ((s.validating x).leaseValid k) := by
  have hroute := State.routing_validating (s := s) x
  have hheard : (s.validating x).heard x.leaseAddr (some w) = some w.toNat :=
    State.heard_reachable ((State.homeReachable_of_routing hroute _).trans hreach) _
  have hself : w.toNat = owned x.leaseEpoch (s.validating x).self := by rw [State.self_of_routing hroute, hw]
  have hvalid : (s.validating x).validated k x w.toNat = (s.validating x).leaseValid k := if_pos hself
  simp only [exec, execLeaseValidationResult, hx, hleased, haway, hlost, hhere, ne_eq, not_false_eq_true, and_self, if_true]
  rw [State.validating] at hheard hvalid
  rw [hheard]
  exact congrArg _ hvalid

end

theorem State.session?_leaseValid {k : Nat} {x : Session} (hx : s.session? k = some x) : (s.leaseValid k).session? k
    = some { x with leaseTick := some (x.leaseIssued.getD s.tick), leaseIssued := none, leaseFresh := true } := by
  rw [State.leaseValid, State.session?_onSession, if_pos rfl, hx]
  rfl

/-! ### Offers that are watched (R398) -/

theorem exec_leasePoll {id : Nat} {m : Migration} (w : Option DWord) (hm : s.migrations.get? id = some m)
    (hwatch : s.watched m = true) (hdue : m.polledAt + max 10 (s.reg .FAM_LEASE_POLL_US) * 1000 ≤ s.tick) :
    exec (.leasePoll id w) s = .next ((s.countLease m.addr).watch id m (s.heard m.addr w)) := by
  simp only [exec, execLeasePoll, hm, hwatch, hdue, and_self, if_true]

theorem exec_leaseNote {p : PeerMsg} {id : Nat} {g : Migration} (w : Option DWord) (hk : p.kind = .leaseNote)
    (htake : s.takeMsg p = some t)
    (hg : t.migrations.find? (fun _ g => g.addr == p.row && t.watched g) = some (id, g)) :
    exec (.leaseNote p w) s = .next ((t.countLease g.addr).watch id g (t.heard g.addr w)) := by
  simp only [exec, execLeaseNote, htake, hk, hg, ne_eq, not_true_eq_false, if_false]

theorem exec_offerTimeout {id t0 : Nat} {m : Migration} (hm : s.migrations.get? id = some m) (hwatch : s.watched m = true)
    (hoffer : m.offeredAt = some t0) (hdue : t0 + s.offerTicks ≤ s.tick) (hreach : s.homeReachable m.addr = true) :
    exec (.offerTimeout id) s = .next (s.casIssue m.addr m.slot (((s.session? m.slot).map (·.leaseEpoch)).getD 0)
      (.withdraw m.peer)) := by
  simp only [exec, execOfferTimeout, hm, hwatch, hoffer, Option.map_some, Option.getD_some, hdue, decide_true, and_self,
    hreach, if_true]

end Sys2Proof.Machine

open Sys2Proof Sys2Proof.Machine in
/-- Settles O27: each row in the branch that its hypotheses select. Counting a read changes nothing by which its home is found
(`State.routing_countLease`), so a home that could be reached still answers. -/
theorem leasesKept : Obligations.LeasesKept := by
  refine ⟨fun s addr o rest hcas hreach => ⟨fun found h => exec_leaseCasResult_won hcas hreach h,
      fun found h => exec_leaseCasResult_lost hcas hreach h, exec_leaseCasResult_silent hcas hreach⟩,
    fun s => ⟨fun k x w hx hleased haway hlost hhere hreach hw => ?_,
      fun k x hx hleased haway hlost hhere => exec_leaseValidationResult_none hx hleased haway hlost hhere,
      fun id m w hm hwatch hdue => exec_leasePoll w hm hwatch hdue, fun p t id g w hk htake hg => exec_leaseNote w hk htake hg,
      fun id t0 m hm hwatch hoffer hdue hreach => exec_offerTimeout hm hwatch hoffer hdue hreach⟩⟩
  have hsession : (s.validating x).session? k = some x := (State.session?_congr (by simp [State.validating]) k).trans hx
  have htick : (s.validating x).tick = s.tick := by simp [State.validating]
  refine ⟨_, _, exec_leaseValidationResult_owned hx hleased haway hlost hhere hreach hw, State.session?_leaseValid hsession, ?_⟩
  rw [htick]
end

section
/-! ## A MIGRATE_OUT among moves whose numbers are not distinct -/
namespace Sys2Proof.Machine

/-- MIGRATE_OUT of the session in slot 3, with room for 70,000 bytes from fabric address 0 on. -/
def migrateOutCmd : Cmd :=
  { ring := 0, tenant := 1, phase := .started
    desc := { opcode := 0x22, handle := mkHandle 1 3 1, spec := leBytes 0 8 ++ leBytes 70000 8 } }

def movedSession : Session := { tenant := 1, generation := 1 }

/-- Two moves under number 0: a look-up finds the first, of slot 4; the second is of slot 3, for command 7. -/
def twiceNumbered : Map Move :=
  ⟨[(0, { slot := 4, cls := .demote, src := .warm, dst := .parked, need := 0 }),
    (0, { slot := 3, cls := .demote, src := .warm, dst := .parked, need := 0, cmd := some 7 })]⟩

/-- A device with those moves, on which command 7 is to take effect. -/
def twiceNumberedState : State :=
  let s : State := {
    commons := ⟨[pgGlb, pgSdir, pgStm, pgFam].map (fun p => (p, { state := 1 }))⟩
    tenants := ⟨[(1, { state := .opened, keys := true, ttks := [5] })]⟩
    sdir := { sess := ⟨[(3, movedSession)]⟩ }
    stm := { moves := twiceNumbered }
    cmds := ⟨[(7, migrateOutCmd)]⟩ }
  (((s.setReg .SDIR_CFG_CACHE_EN 0).setReg .FAM_MAP_UNITS_UNITS 1).setReg .FAM_MAP_DEST_DEVICE 9).setReg .FAM_MAP_DEST_KIND 1

theorem readyOn_twiceNumberedState : twiceNumberedState.readyOn 7 0x22 migrateOutCmd movedSession := by
  unfold State.readyOn State.started State.clear State.names State.served
  decide +kernel

/-- No look-up finds a move of slot 3. -/
theorem slot_of_get?_twiceNumbered {n : Nat} {m : Move} (h : twiceNumbered.get? n = some m) : m.slot = 4 := by
  unfold twiceNumbered Map.get? lookupIn lookupIn at h
  split at h
  · cases h
    rfl
  · cases h

end Sys2Proof.Machine

open Sys2Proof Sys2Proof.Machine in
/-- Refutes O26, in its clause on MIGRATE_OUT, on a state in whose table of moves one number stands twice. The clause asks by
look-up whether a move of the session serves the command itself, and a look-up finds the first move of that number alone;
`State.forgetMoves` ends every move of the session that is listed, so the second one completes the command, which should go on
running. In a table in canonical form no number stands twice. -/
theorem not_sessionsMigrate : ¬ Obligations.SessionsMigrate := by
  rintro ⟨hout, -, -⟩
  let u := twiceNumberedState.atEffect 7 migrateOutCmd movedSession
  have hslot : handleSlot migrateOutCmd.desc.handle = 3 := by decide +kernel
  have hsession : u.session? 3 = some movedSession := by decide +kernel
  have hblocks : u.enabled pgStm = true ∧ u.enabled pgFam = true := by decide +kernel
  have hkey : u.currentTtk movedSession.tenant = some 5 := by decide +kernel
  have hroom : capsuleBound (u.layoutOf movedSession) movedSession.table.length (movedSession.table.filter (·.isSealed)).length
      ≤ migrateOutCmd.desc.specF 51 44 := by decide +kernel
  have huncached : (u.countLookup 3).uncached (cacheSet 3) = true := by decide +kernel
  have hlock : u.lockEntry 3 = some (u.countLookup 3) := by simp only [State.lockEntry, huncached, if_true]
  have hmoves (n : Nat) (m : Move) (hm : u.stm.moves.get? n = some m) (h3 : m.slot = 3) : m.cmd ≠ some 7 := by
    cases h3.symm.trans (slot_of_get?_twiceNumbered hm)
  have hclause := hout twiceNumberedState 7 migrateOutCmd movedSession movedSession readyOn_twiceNumberedState
  rw [hslot] at hclause
  obtain ⟨-, hkeyed⟩ := hclause hsession hblocks.1 hblocks.2
  obtain ⟨-, -, hruns⟩ := hkeyed 5 hkey
  obtain ⟨t, z, j, e, -, ht, -, -, -, -, -, -, -, -, -, -, -, -, -, -, -, hcmd, -⟩ := hruns _ hroom hlock hmoves
  have hgone : (((((u.countLookup 3).forgetMoves 3 .ok 1).startExport 7 3 movedSession .migrateOut 2
    (migrateOutCmd.desc.specF 43 36) (migrateOutCmd.desc.optBit 8) 5).enterMoving 3 movedSession.residency .away).cmd? 7).isNone
      = true := by decide +kernel
  rw [← ht, hcmd] at hgone
  cases hgone
end

section
/-! # What keeps the life cycle -/
namespace Sys2Proof.Machine

/-- The life-cycle state, which stands in the fuses (R490). -/
def State.life (s : State) : Nat := s.plat.lifecycle

/-- Every state that an operation may answer has the life cycle of `s`. -/
structure LifeKept (s : State) (o : Option State) : Prop where
  eq {t : State} : o = some t → t.life = s.life

/-- If a command goes on, the next state has the life cycle of `s`. -/
structure LifeKeptNext (s : State) (o : Host.Outcome State Fault Refusal) : Prop where
  eq {t : State} : o = .next t → t.life = s.life

variable {s t : State}

@[simp] theorem lifeKept_none : LifeKept s none := ⟨fun h => nomatch h⟩

@[simp] theorem lifeKept_some : LifeKept s (some t) ↔ t.life = s.life :=
  ⟨fun h => h.eq rfl, fun h => ⟨fun e => by cases e; exact h⟩⟩

@[simp] theorem lifeKeptNext_next : LifeKeptNext s (.next t) ↔ t.life = s.life :=
  ⟨fun h => h.eq rfl, fun h => ⟨fun e => by cases e; exact h⟩⟩

theorem LifeKept.trans {o : Option State} (h : LifeKept t o) (e : t.life = s.life) : LifeKept s o :=
  ⟨fun hu => (h.eq hu).trans e⟩

theorem LifeKept.getD {o : Option State} (h : LifeKept s o) : (o.getD s).life = s.life := by
  cases o with
  | none => rfl
  | some u => exact h.eq rfl

/-- A state that comes with another answer. -/
theorem LifeKept.of_pair {α : Type} {o : Option (α × State)} {a : α} (h : LifeKept s (o.map Prod.snd)) (e : o = some (a, t)) :
    t.life = s.life := h.eq (by rw [e]; rfl)

theorem State.life_of_snd {α : Type} {p : α × State} {a : α} (h : p = (a, t)) (e : p.2.life = s.life) :
    t.life = s.life := by
  rwa [h] at e

/-- An update of other fields than the platform's. -/
@[simp] theorem State.life_update pending tick bootEpoch free regs shadow commons rings unmasked msixPending msixTable sent window
    host fabric cmds nextCmd adm sdir cane stm jobs nextJob sources models vocabs objects cores windows gaf freeze tenants sec
    hbm emb srch fam ckp migrations tel out :
    State.life { s with
      pending := pending, tick := tick, bootEpoch := bootEpoch, free := free, regs := regs, shadow := shadow,
      commons := commons, rings := rings, unmasked := unmasked, msixPending := msixPending, msixTable := msixTable,
      sent := sent, window := window, host := host, fabric := fabric, cmds := cmds, nextCmd := nextCmd, adm := adm,
      sdir := sdir, cane := cane, stm := stm, jobs := jobs, nextJob := nextJob, sources := sources, models := models,
      vocabs := vocabs, objects := objects, cores := cores, windows := windows, gaf := gaf, freeze := freeze,
      tenants := tenants, sec := sec, hbm := hbm, emb := emb, srch := srch, fam := fam, ckp := ckp,
      migrations := migrations, tel := tel, out := out } = s.life := by
  simp only [State.life]

@[simp] theorem State.life_ite (c : Prop) [Decidable c] (t u : State) :
    (if c then t else u).life = if c then t.life else u.life := apply_ite _ _ _ _

@[simp] theorem State.life_foldl {β : Type} (f : State → β → State)
    (h : ∀ t b, (f t b).life = t.life) (l : List β) : (l.foldl f s).life = s.life :=
  foldl_keeps State.life f h l s

/-- A fold that carries another value beside the state. -/
theorem State.life_foldl_fst {α β : Type} (f : State × α → β → State × α)
    (h : ∀ x b, (f x b).1.life = x.1.life) (l : List β) (x : State × α) :
    (l.foldl f x).1.life = x.1.life := by
  induction l generalizing x with
  | nil => rfl
  | cons b l ih => rw [List.foldl_cons, ih, h]

/-- A fold that carries the state beside another value. -/
theorem State.life_foldl_snd {α β : Type} (f : α × State → β → α × State)
    (h : ∀ x b, (f x b).2.life = x.2.life) (l : List β) (x : α × State) :
    (l.foldl f x).2.life = x.2.life := by
  induction l generalizing x with
  | nil => rfl
  | cons b l ih => rw [List.foldl_cons, ih, h]

end Sys2Proof.Machine
end

section
/-! ## What keeps the life cycle: registers, memory, rings, sessions and commands -/
namespace Sys2Proof.Machine
variable {s t : State} (r : Reg) (x i k p code addr n detail handle result slot core id : Nat) (bits : Word)
  (st : Status) (bs : List Byte) (wasted : Bool) (waste : Nat → Bool)

@[simp] theorem State.life_setReg : (s.setReg r x i).life = s.life := by simp [State.setReg]
@[simp] theorem State.life_bump : (s.bump r i k).life = s.life := by simp [State.bump]
@[simp] theorem State.life_raiseReg : (s.raiseReg r x i).life = s.life := by simp [State.raiseReg]
@[simp] theorem State.life_clearCounters : (s.clearCounters p).life = s.life := by simp [State.clearCounters]
@[simp] theorem State.life_setCommon (c : Common) : (s.setCommon p c).life = s.life := by simp [State.setCommon]
@[simp] theorem State.life_sramZero : s.sramZero.life = s.life := by simp only [State.sramZero]; (repeat' split) <;> simp

@[simp] theorem State.life_ungate : s.ungate.life = s.life := rfl

@[simp] theorem State.life_touch : s.touch.life = s.life := by simp [State.touch]
@[simp] theorem State.life_sendMsi (vector function : Nat) : (s.sendMsi vector function).life = s.life := by
  simp [State.sendMsi]
@[simp] theorem State.life_routeMsg : (s.routeMsg p).life = s.life := by simp [State.routeMsg]
@[simp] theorem State.life_setInt : (s.setInt p bits).life = s.life := by simp [State.setInt]
@[simp] theorem State.life_setIntBit : (s.setIntBit p i).life = s.life := by simp [State.setIntBit]
@[simp] theorem State.life_recErr : (s.recErr p code).life = s.life := by simp [State.recErr]
@[simp] theorem State.life_lockErr : (s.lockErr p).life = s.life := by simp [State.lockErr]
@[simp] theorem State.life_setPageState (st : Nat) : (s.setPageState p st).life = s.life := by simp [State.setPageState]
@[simp] theorem State.life_failPage : (s.failPage p code).life = s.life := by simp [State.failPage]
@[simp] theorem State.life_beginLong : (s.beginLong p).life = s.life := by simp [State.beginLong]
@[simp] theorem State.life_progress (pos pct : Nat) : (s.progress p pos pct).life = s.life := by
  simp [State.progress]
@[simp] theorem State.life_endLong : (s.endLong p).life = s.life := by simp [State.endLong]
@[simp] theorem State.life_abortLong : (s.abortLong p).life = s.life := by simp [State.abortLong]
@[simp] theorem State.life_useFree : (s.useFree k).life = s.life := by simp [State.useFree]
@[simp] theorem State.life_writeMem (inWindow : Bool) : (s.writeMem inWindow addr bs).life = s.life := by
  simp [State.writeMem]
@[simp] theorem State.life_writeDst (dst : Nat) : (s.writeDst dst addr bs).life = s.life := by simp [State.writeDst]
@[simp] theorem State.life_hostStores (l : List HostStore) : (s.hostStores l).life = s.life := by simp [State.hostStores]
@[simp] theorem State.life_setCore (c : Core) : (s.setCore n c).life = s.life := by simp [State.setCore]
@[simp] theorem State.life_setRing (r : Ring) : (s.setRing n r).life = s.life := by simp [State.setRing]
@[simp] theorem State.life_ringInt : (s.ringInt n bits).life = s.life := by simp [State.ringInt]
@[simp] theorem State.life_ringErr : (s.ringErr n code).life = s.life := by simp [State.ringErr]
@[simp] theorem State.life_signal : (s.signal n).life = s.life := by simp [State.signal]
@[simp] theorem State.life_writeCompletion (d : Desc) :
    (s.writeCompletion n d st detail handle result).life = s.life := by
  simp [State.writeCompletion]
@[simp] theorem State.life_release : (s.release n).life = s.life := by simp [State.release]
@[simp] theorem State.life_setSession (x : Session) : (s.setSession slot x).life = s.life := by simp [State.setSession]
@[simp] theorem State.life_onSession (f : Session → Session) : (s.onSession slot f).life = s.life := by
  simp only [State.onSession]; (repeat' split) <;> simp
@[simp] theorem State.life_countSlots (key : Option Nat) : (s.countSlots core key wasted n).life = s.life := by
  simp only [State.countSlots]; (repeat' split) <;> simp
@[simp] theorem State.life_tagRecord (bytes : List Byte) : (s.tagRecord bytes wasted).life = s.life := by
  simp [State.tagRecord]
@[simp] theorem State.life_settleShares (shares : List (Nat × Nat × Nat)) :
    (s.settleShares core shares waste).life = s.life := by
  simp [State.settleShares]
@[simp] theorem State.life_settleAcct (a : TileAcct) : (s.settleAcct a waste).life = s.life := by
  simp only [State.settleAcct]; (repeat' split) <;> simp
@[simp] theorem State.life_settleJob : (s.settleJob id wasted).life = s.life := by simp [State.settleJob]
@[simp] theorem State.life_settleStep (ran : Bool) : (s.settleStep ran).life = s.life := by simp [State.settleStep]
@[simp] theorem State.life_onCmd (f : Cmd → Cmd) : (s.onCmd id f).life = s.life := by simp [State.onCmd]
@[simp] theorem State.life_account (tenant : Nat) : (s.account tenant st).life = s.life := by simp [State.account]
@[simp] theorem State.life_progressCmd : (s.progressCmd id).life = s.life := by simp [State.progressCmd]
@[simp] theorem State.life_progressStep : (s.progressStep slot).life = s.life := by
  simp only [State.progressStep]; (repeat' split) <;> simp
@[simp] theorem State.life_completeH : (s.completeH id st detail result handle).life = s.life := by
  simp only [State.completeH]; (repeat' split) <;> simp
@[simp] theorem State.life_complete : (s.complete id st detail result).life = s.life := by simp [State.complete]
@[simp] theorem State.life_refuse (reason : Nat) : (s.refuse id st reason).life = s.life := by simp [State.refuse]

end Sys2Proof.Machine
end

section
/-! ## What keeps the life cycle: the address map and the peer aperture -/
namespace Sys2Proof.Machine
variable {s t : State} (addr slot : Nat) (op : LeaseOp)

@[simp] theorem State.life_allotPool (bytes : Nat) : (s.allotPool addr bytes).life = s.life := by simp [State.allotPool]
@[simp] theorem State.life_countReq (port : Option Nat) : (s.countReq port).life = s.life := by
  simp only [State.countReq]; (repeat' split) <;> simp
@[simp] theorem State.life_countLease : (s.countLease addr).life = s.life := by
  simp only [State.countLease]; (repeat' split) <;> simp
@[simp] theorem State.life_casIssue (e : Nat) : (s.casIssue addr slot e op).life = s.life := by simp [State.casIssue]
@[simp] theorem State.life_casIfLeased : (s.casIfLeased slot op).life = s.life := by
  simp only [State.casIfLeased]; (repeat' split) <;> simp

end Sys2Proof.Machine
end

section
/-! ## What keeps the life cycle: shadows of register fields -/
namespace Sys2Proof.Machine
variable {s t : State} (p : Nat) (old : State)

@[simp] theorem State.life_dropShadow : (s.dropShadow p).life = s.life := by simp [State.dropShadow]
@[simp] theorem State.life_wearTick : s.wearTick.life = s.life := by simp [State.wearTick]
@[simp] theorem State.life_keepPair (a b : Reg) : (s.keepPair old p a b).life = s.life := by simp [State.keepPair]
@[simp] theorem State.life_keepShares (port : Nat) : (s.keepShares old port).life = s.life := by simp [State.keepShares]
@[simp] theorem State.life_checkApplied (l : List (Reg × Nat × Nat)) : (s.checkApplied old p l).life = s.life := by
  simp [State.checkApplied]
@[simp] theorem State.life_applyShadow : (s.applyShadow p).life = s.life := by simp [State.applyShadow]
@[simp] theorem State.life_safePoint : (s.safePoint p).life = s.life := by simp [State.safePoint]

end Sys2Proof.Machine
end

section
/-! ## What keeps the life cycle: the rings -/
namespace Sys2Proof.Machine
variable {s t : State} (n : Nat) (tail head x value : Word) (ring : BitVec 8) (stores : List HostStore) (q7 : DWord)
  (function : BitVec 4)

@[simp] theorem life_sqDoorbellRing : (sqDoorbellRing s n tail).life = s.life := by
  simp only [sqDoorbellRing]; (repeat' split) <;> simp
@[simp] theorem lifeKeptNext_execSqDoorbell : LifeKeptNext s (execSqDoorbell ring tail stores s) := by simp [execSqDoorbell]
@[simp] theorem life_cqDoorbellRing : (cqDoorbellRing s n head).life = s.life := by
  simp only [cqDoorbellRing]; (repeat' split) <;> simp
@[simp] theorem lifeKeptNext_execCqDoorbell : LifeKeptNext s (execCqDoorbell ring head s) := by simp [execCqDoorbell]
@[simp] theorem life_pushRing : (pushRing s n q7).life = s.life := by simp only [pushRing]; (repeat' split) <;> simp
@[simp] theorem lifeKeptNext_execPush : LifeKeptNext s (execPush ring q7 stores s) := by simp [execPush]
@[simp] theorem life_ringEnableOp (function : Nat) : (ringEnableOp s n function).life = s.life := by
  simp only [ringEnableOp]; (repeat' split) <;> simp
@[simp] theorem lifeKeptNext_execRingEnable : LifeKeptNext s (execRingEnable ring function s) := by simp [execRingEnable]
@[simp] theorem life_ringDisableOp : (ringDisableOp s n).life = s.life := by
  simp only [ringDisableOp]; (repeat' split) <;> simp
@[simp] theorem lifeKeptNext_execRingDisable : LifeKeptNext s (execRingDisable ring s) := by simp [execRingDisable]
@[simp] theorem life_ringSoftRstOp : (ringSoftRstOp s n).life = s.life := by
  simp only [ringSoftRstOp]; (repeat' split) <;> simp
@[simp] theorem lifeKeptNext_execRingSoftRst : LifeKeptNext s (execRingSoftRst ring s) := by simp [execRingSoftRst]
@[simp] theorem life_ringDrainedOp : (ringDrainedOp s n).life = s.life := by simp [ringDrainedOp]
@[simp] theorem lifeKeptNext_execRingDrained : LifeKeptNext s (execRingDrained ring s) := by simp [execRingDrained]
@[simp] theorem life_haltRing (code : Nat) : (haltRing s n code).life = s.life := by simp [haltRing]
@[simp] theorem lifeKeptNext_execDescriptorReadFail : LifeKeptNext s (execDescriptorReadFail ring s) := by
  simp [execDescriptorReadFail]
@[simp] theorem State.life_unsend (x : Nat) : (s.unsend x).life = s.life := by simp [State.unsend]
@[simp] theorem State.life_undoCompletion (u : CqUndo) : (s.undoCompletion n u).life = s.life := by
  simp [State.undoCompletion]
@[simp] theorem lifeKeptNext_execCompletionWriteFail : LifeKeptNext s (execCompletionWriteFail ring s) := by
  simp only [execCompletionWriteFail, lifeKeptNext_next]; (repeat' split) <;> simp
@[simp] theorem lifeKeptNext_execCoalesceTimer : LifeKeptNext s (execCoalesceTimer ring s) := by simp [execCoalesceTimer]
@[simp] theorem life_setRingBind : (setRingBind s x).life = s.life := by simp [setRingBind]
@[simp] theorem life_ringBindOp : (ringBindOp s x).life = s.life := by simp [ringBindOp]
@[simp] theorem lifeKeptNext_execRingBind : LifeKeptNext s (execRingBind value s) := by simp [execRingBind]
@[simp] theorem life_ringUnbindOp : (ringUnbindOp s x).life = s.life := by simp [ringUnbindOp]
@[simp] theorem lifeKeptNext_execRingUnbind : LifeKeptNext s (execRingUnbind value s) := by simp [execRingUnbind]
@[simp] theorem lifeKeptNext_execMsixVectorUnmask (entry : VectorEntry) :
    LifeKeptNext s (execMsixVectorUnmask function entry s) := by
  simp [execMsixVectorUnmask]

end Sys2Proof.Machine
end

section
/-! ## What keeps the life cycle: pages and their tables -/
namespace Sys2Proof.Machine
variable {s t : State} (owner bytes n : Nat) (l : List Nat)

@[simp] theorem State.life_heapTake : (s.heapTake owner bytes).life = s.life := by simp [State.heapTake]
@[simp] theorem State.life_heapGive : (s.heapGive owner bytes).life = s.life := by simp [State.heapGive]
@[simp] theorem State.life_setPage (p : PageRec) : (s.setPage n p).life = s.life := by simp [State.setPage]
@[simp] theorem State.life_onPage (f : PageRec → PageRec) : (s.onPage n f).life = s.life := by
  simp only [State.onPage]; (repeat' split) <;> simp

@[simp] theorem State.lifeKept_allotPage (tenant model : Nat) (l : Layout) (slots : List Slot) :
    LifeKept s ((s.allotPage tenant model l slots).map Prod.snd) := by
  simp only [State.allotPage]
  split <;> simp

@[simp] theorem State.life_handOver : (s.handOver n).life = s.life := by simp [State.handOver]
@[simp] theorem State.life_incRef : (s.incRef n).life = s.life := by simp [State.incRef]
@[simp] theorem State.life_decRef : (s.decRef n).life = s.life := by simp only [State.decRef]; (repeat' split) <;> simp
@[simp] theorem State.life_pin : (s.pin n).life = s.life := by simp [State.pin]
@[simp] theorem State.life_pinAll : (s.pinAll l).life = s.life := by simp [State.pinAll]
@[simp] theorem State.life_addUsers : (s.addUsers l).life = s.life := by simp [State.addUsers]
@[simp] theorem State.life_dropUsers : (s.dropUsers l).life = s.life := by simp [State.dropUsers]
@[simp] theorem State.life_dropHbm : (s.dropHbm n).life = s.life := by simp only [State.dropHbm]; (repeat' split) <;> simp
@[simp] theorem State.life_dropFlash : (s.dropFlash n).life = s.life := by
  simp only [State.dropFlash]; (repeat' split) <;> simp
@[simp] theorem State.life_dropPool : (s.dropPool n).life = s.life := by
  simp only [State.dropPool]; (repeat' split) <;> simp
@[simp] theorem State.life_dropIdleHbm : (s.dropIdleHbm n).life = s.life := by
  simp only [State.dropIdleHbm]; (repeat' split) <;> simp
@[simp] theorem State.life_dropIdlePool : (s.dropIdlePool n).life = s.life := by
  simp only [State.dropIdlePool]; (repeat' split) <;> simp

@[simp] theorem life_releaseFlash (fuel : Nat) : (releaseFlash fuel s).life = s.life := by
  induction fuel generalizing s with
  | zero => rfl
  | succ fuel ih =>
    simp only [releaseFlash]
    repeat' split
    all_goals simp [ih]

@[simp] theorem State.life_easeFlash : s.easeFlash.life = s.life := by simp [State.easeFlash]
@[simp] theorem State.life_releaseHeld : (s.releaseHeld n).life = s.life := by
  simp only [State.releaseHeld]; (repeat' split) <;> simp
@[simp] theorem State.life_unpin : (s.unpin n).life = s.life := by simp only [State.unpin]; (repeat' split) <;> simp
@[simp] theorem State.life_unpinAll : (s.unpinAll l).life = s.life := by simp [State.unpinAll]
@[simp] theorem State.life_seal : (s.seal n).life = s.life := by simp only [State.seal]; (repeat' split) <;> simp

end Sys2Proof.Machine
end

section
/-! ## What keeps the life cycle: the nodes of shared pages -/
namespace Sys2Proof.Machine
variable {s t : State} (n slot : Nat)

@[simp] theorem State.life_setNode (x : Node) : (s.setNode n x).life = s.life := by simp [State.setNode]
@[simp] theorem State.life_onNode (f : Node → Node) : (s.onNode n f).life = s.life := by
  simp only [State.onNode]; (repeat' split) <;> simp
@[simp] theorem life_caneLookup (k : CaneKey) : (caneLookup s k).2.life = s.life := by simp [caneLookup]

@[simp] theorem life_pruneNode (fuel n : Nat) : (pruneNode s fuel n).life = s.life := by
  induction fuel generalizing s n with
  | zero => rfl
  | succ fuel ih =>
    unfold pruneNode
    split
    · rfl
    · split
      · repeat' split
        all_goals simp [ih]
      · rfl

@[simp] theorem State.life_prune : (s.prune n).life = s.life := by simp [State.prune]
@[simp] theorem State.life_setCaneNode (n : Option Nat) : (s.setCaneNode slot n).life = s.life := by
  simp only [State.setCaneNode]; (repeat' split) <;> simp
@[simp] theorem lifeKept_adoptOne : LifeKept s (adoptOne s slot) := by simp only [adoptOne]; (repeat' split) <;> simp

@[simp] theorem life_adoptLoop (fuel slot : Nat) : (adoptLoop fuel s slot).life = s.life := by
  induction fuel generalizing s with
  | zero => rfl
  | succ fuel ih =>
    unfold adoptLoop
    split
    · next t h => exact ih.trans ((lifeKept_adoptOne ..).eq h)
    · repeat' split
      all_goals simp

@[simp] theorem State.life_adopt : (s.adopt slot).life = s.life := by simp [State.adopt]
@[simp] theorem State.life_unadopt : (s.unadopt slot).life = s.life := by
  simp only [State.unadopt]; (repeat' split) <;> simp
@[simp] theorem life_caneInsert (i frame : Nat) (words : List Nat) :
    (caneInsert s slot i frame words).life = s.life := by
  simp only [caneInsert]; (repeat' split) <;> simp
@[simp] theorem life_freeRecordOp (deadPool : Bool) : (freeRecordOp s n deadPool).life = s.life := by
  simp only [freeRecordOp]; (repeat' split) <;> simp

end Sys2Proof.Machine
end

section
/-! ## What keeps the life cycle: sessions -/
namespace Sys2Proof.Machine
variable {s t : State} (slot detail id p : Nat) (q : StepReq) (st : Status) (c : Cmd)

@[simp] theorem State.life_setWays (set : Nat) (w : List Way) : (s.setWays set w).life = s.life := by simp [State.setWays]
@[simp] theorem State.life_countLookup : (s.countLookup slot).life = s.life := by simp [State.countLookup]
@[simp] theorem State.life_lookup : (s.lookup slot).life = s.life := by simp only [State.lookup]; (repeat' split) <;> simp
@[simp] theorem State.life_dirtyEntry : (s.dirtyEntry slot).life = s.life := by simp [State.dirtyEntry]

@[simp] theorem State.lifeKept_fillWay (slot : Nat) (dirty locked : Bool) : LifeKept s (s.fillWay slot dirty locked) := by
  simp only [State.fillWay]
  generalize takeVictim (s.cacheWays (cacheSet slot)) = r
  obtain ⟨_ | w, ways⟩ := r
  · simp
  · simp only
    repeat' split
    all_goals simp

@[simp] theorem State.lifeKept_lockEntry (slot : Nat) : LifeKept s (s.lockEntry slot) := by
  have h : ∀ t : State, t.life = s.life → LifeKept s (t.fillWay slot true true) :=
    fun t e => (State.lifeKept_fillWay ..).trans e
  simp only [State.lockEntry]
  repeat' split
  all_goals simp [h]

@[simp] theorem State.life_lockOrStall (slot : Nat) : (s.lockOrStall slot).2.life = s.life := by
  unfold State.lockOrStall
  split
  · next t h => exact (State.lifeKept_lockEntry ..).eq h
  · simp

@[simp] theorem State.lifeKept_lockOrStall (slot : Nat) : LifeKept s (s.lockOrStall slot).1 := by
  unfold State.lockOrStall
  split
  · next t h => simp [(State.lifeKept_lockEntry ..).eq h]
  · simp

@[simp] theorem State.life_unlockEntry : (s.unlockEntry slot).life = s.life := by simp [State.unlockEntry]
@[simp] theorem State.life_takeSlot : (s.takeSlot slot).life = s.life := by
  simp only [State.takeSlot]; (repeat' split) <;> simp
@[simp] theorem State.life_giveSlot : (s.giveSlot slot).life = s.life := by simp [State.giveSlot]
@[simp] theorem State.life_roomForSession (tenant : Nat) (l : Layout) : (s.roomForSession tenant l).2.life = s.life := by
  simp only [State.roomForSession]; (repeat' split) <;> simp
@[simp] theorem State.life_placeSession (x : Session) : (s.placeSession x).2.life = s.life := by
  simp only [State.placeSession]; (repeat' split) <;> simp
@[simp] theorem State.life_emptyHeader : (s.emptyHeader q st).life = s.life := by
  simp only [State.emptyHeader]; (repeat' split) <;> simp
@[simp] theorem State.life_stepCompletion : (s.stepCompletion slot q st detail).life = s.life := by
  simp only [State.stepCompletion]; (repeat' split) <;> simp
@[simp] theorem State.life_endStep : (s.endStep slot st detail).life = s.life := by
  simp only [State.endStep]; (repeat' split) <;> simp
@[simp] theorem State.life_endEnded : (s.endEnded slot).life = s.life := by
  simp only [State.endEnded]; (repeat' split) <;> simp
@[simp] theorem State.life_endAllSteps : (s.endAllSteps slot st detail).life = s.life := by
  simp only [State.endAllSteps]; (repeat' split) <;> simp
@[simp] theorem State.life_endWait : (s.endWait slot st detail).life = s.life := by
  simp only [State.endWait]; (repeat' split) <;> simp
@[simp] theorem State.life_setLost : (s.setLost slot).life = s.life := by
  simp only [State.setLost]; (repeat' split) <;> simp
@[simp] theorem life_opSessCreate : (opSessCreate s id c).life = s.life := by
  simp only [opSessCreate]; (repeat' split) <;> simp
@[simp] theorem life_opSessQuery : (opSessQuery s id c slot).life = s.life := by
  simp only [opSessQuery]; (repeat' split) <;> simp
@[simp] theorem State.life_releaseRecord : (s.releaseRecord slot).life = s.life := by
  simp only [State.releaseRecord]; (repeat' split) <;> simp
@[simp] theorem State.life_freeClosed : (s.freeClosed slot).life = s.life := by
  simp only [State.freeClosed]; (repeat' split) <;> simp
@[simp] theorem State.life_closeSession : (s.closeSession slot).1.life = s.life := by
  simp only [State.closeSession]; (repeat' split) <;> simp
@[simp] theorem life_opSessClose : (opSessClose s id slot).life = s.life := by simp [opSessClose]
@[simp] theorem State.life_setEn (b : Bool) : (s.setEn p b).life = s.life := by simp [State.setEn]
@[simp] theorem State.life_enableBlock : (s.enableBlock p).life = s.life := by simp [State.enableBlock]
@[simp] theorem State.life_disableBlock : (s.disableBlock p).life = s.life := by simp [State.disableBlock]
@[simp] theorem life_sdirEnableOp : (sdirEnableOp s).life = s.life := by simp [sdirEnableOp]
@[simp] theorem life_sdirDisableOp : (sdirDisableOp s).life = s.life := by simp [sdirDisableOp]
@[simp] theorem lifeKeptNext_execSdirEnable (en : Bool) : LifeKeptNext s (execSdirEnable en s) := by simp [execSdirEnable]
@[simp] theorem lifeKeptNext_execSdirInitDone : LifeKeptNext s (execSdirInitDone s) := by simp [execSdirInitDone]
@[simp] theorem State.life_badEntry : (s.badEntry slot).life = s.life := by simp [State.badEntry]

@[simp] theorem lifeKeptNext_execDirMissFill (slot : Nat) (ue : Bool) : LifeKeptNext s (execDirMissFill slot ue s) := by
  simp only [execDirMissFill, lifeKeptNext_next]
  split
  · split
    · simp
    · split
      · simp
      · split
        · next t h => simp [(State.lifeKept_fillWay ..).eq h]
        · simp
  · rfl

@[simp] theorem lifeKeptNext_execDirTagParity (set : BitVec 15) : LifeKeptNext s (execDirTagParity set s) := by
  simp [execDirTagParity]

end Sys2Proof.Machine
end

section
/-! ## What keeps the life cycle: moves between tiers -/
namespace Sys2Proof.Machine
variable {s t : State} (n slot detail k : Nat) (m : Move) (dst : Residency) (cmd : Option Nat) (x : Session)
  (st : Status) (o : TileOutcome)

@[simp] theorem State.life_chargeFlash : (s.chargeFlash n).life = s.life := by simp [State.chargeFlash]
@[simp] theorem State.life_takeFlash : (s.takeFlash n).life = s.life := by simp [State.takeFlash]
@[simp] theorem State.life_giveFlash : (s.giveFlash n).life = s.life := by simp [State.giveFlash]
@[simp] theorem State.life_takePool : (s.takePool n).life = s.life := by simp [State.takePool]
@[simp] theorem State.life_givePool : (s.givePool n).life = s.life := by simp [State.givePool]
@[simp] theorem State.life_setMove : (s.setMove n m).life = s.life := by simp [State.setMove]
@[simp] theorem State.life_eraseMove : (s.eraseMove n).life = s.life := by
  simp only [State.eraseMove]; (repeat' split) <;> simp
@[simp] theorem State.life_addMove : (s.addMove m).life = s.life := by simp [State.addMove]
@[simp] theorem State.life_askPromote (need : Nat) (hot reheat : Bool) :
    (s.askPromote slot need hot reheat).life = s.life := by
  simp only [State.askPromote]; (repeat' split) <;> simp
@[simp] theorem State.life_askDemote : (s.askDemote slot dst cmd).life = s.life := by
  simp only [State.askDemote]; (repeat' split) <;> simp
@[simp] theorem State.life_cancelDown : (s.cancelDown slot).life = s.life := by
  simp only [State.cancelDown]; (repeat' split) <;> simp
@[simp] theorem State.life_issueRead : (s.issueRead slot).life = s.life := by simp [State.issueRead]
@[simp] theorem State.life_useLease : (s.useLease slot).life = s.life := by simp [State.useLease]
@[simp] theorem State.life_awaitLease : (s.awaitLease slot).life = s.life := by simp [State.awaitLease]
@[simp] theorem State.life_restartReaders (x : Nat) : (s.restartReaders slot x).life = s.life := by
  simp only [State.restartReaders]; (repeat' split) <;> simp
@[simp] theorem State.life_forceVersion (r : StepRec) : (s.forceVersion slot r).life = s.life := by
  simp only [State.forceVersion]; (repeat' split) <;> simp
@[simp] theorem State.life_beginVerWait : (s.beginVerWait slot).life = s.life := by
  simp only [State.beginVerWait]; (repeat' split) <;> simp
@[simp] theorem State.life_endVerWait : (s.endVerWait slot).life = s.life := by
  simp only [State.endVerWait]; (repeat' split) <;> simp
@[simp] theorem State.life_commitOutside (f : StepRec → StepRec) : (s.commitOutside slot f).life = s.life := by
  simp only [State.commitOutside]; (repeat' split) <;> simp
@[simp] theorem State.life_enterMoving (src : Residency) : (s.enterMoving slot src dst).life = s.life := by
  simp [State.enterMoving]
@[simp] theorem State.life_leaveMoving (r : Residency) : (s.leaveMoving slot r).life = s.life := by simp [State.leaveMoving]
@[simp] theorem State.life_hotToWarm : (s.hotToWarm slot).life = s.life := by simp [State.hotToWarm]
@[simp] theorem State.life_completeMove : (s.completeMove cmd slot st detail).life = s.life := by
  simp only [State.completeMove]; (repeat' split) <;> simp
@[simp] theorem State.life_countReferenced (pages : List Nat) (extra : Nat) :
    (s.countReferenced cmd pages extra).life = s.life := by
  simp only [State.countReferenced]; (repeat' split) <;> simp
@[simp] theorem State.life_dropProvisional : (s.dropProvisional slot).life = s.life := by
  simp only [State.dropProvisional]; (repeat' split) <;> simp

@[simp] theorem State.lifeKept_startDemote (n : Nat) (m : Move) (x : Session) (ctx : Nat) :
    LifeKept s (s.startDemote n m x ctx) := by
  simp only [State.startDemote]
  split
  · split
    · simp
    · next t h => simp [(State.lifeKept_lockEntry ..).eq h]
  · simp

@[simp] theorem State.lifeKept_startPromote (n : Nat) (m : Move) (x : Session) (ctx : Nat) :
    LifeKept s (s.startPromote n m x ctx) := by
  simp only [State.startPromote]
  split
  · split
    · simp
    · next t h => simp [(State.lifeKept_lockEntry ..).eq h]
  · simp

@[simp] theorem life_displace (m : Move) (tiles fuel : Nat) : (displace m tiles fuel s).2.life = s.life := by
  induction fuel generalizing s with
  | zero => rfl
  | succ fuel ih =>
    unfold displace
    split
    · rfl
    · split <;> simp [ih]

@[simp] theorem State.lifeKept_startHot (n : Nat) (m : Move) (x : Session) (ctx : Nat) :
    LifeKept s (s.startHot n m x ctx) := by
  have hd : (displace m (s.layoutOf x).srTiles s.sdir.sess.size s).2.life = s.life := by simp
  simp only [State.startHot]
  split
  · next t h =>
    rw [h] at hd
    split <;> simp [hd]
  · next seat t h =>
    rw [h] at hd
    split
    · simp
    · next u hu => simp [(State.lifeKept_lockEntry ..).eq hu, hd]

@[simp] theorem State.lifeKept_startWriteback (ctx : Nat) : LifeKept s (s.startWriteback n m x ctx) := by
  simp only [State.startWriteback]; (repeat' split) <;> simp

@[simp] theorem State.lifeKept_tryStart (n : Nat) (m : Move) : LifeKept s (s.tryStart n m) := by
  unfold State.tryStart
  repeat' split
  all_goals simp

@[simp] theorem State.life_dropStale : s.dropStale.life = s.life := by simp [State.dropStale]
@[simp] theorem State.life_lockStall : s.lockStall.life = s.life := by simp only [State.lockStall]; (repeat' split) <;> simp

@[simp] theorem lifeKeptNext_execMoveStart : LifeKeptNext s (execMoveStart s) := by
  simp only [execMoveStart, lifeKeptNext_next]
  split
  · split
    · next t h =>
      obtain ⟨e, -, he⟩ := List.exists_of_findSome?_eq_some h
      obtain ⟨u, hu, rfl⟩ := Option.map_eq_some_iff.1 he
      simp [(State.lifeKept_tryStart ..).eq hu]
    · simp
  · rfl

@[simp] theorem State.life_charge (p c : Nat) : (s.charge p c n).life = s.life := by simp [State.charge]
@[simp] theorem State.life_renewCredits : s.renewCredits.life = s.life := by simp [State.renewCredits]
@[simp] theorem lifeKeptNext_execCreditWindowEnd : LifeKeptNext s (execCreditWindowEnd s) := by simp [execCreditWindowEnd]
@[simp] theorem State.life_flagPage (t : Residency) : (s.flagPage n t).life = s.life := by simp [State.flagPage]
@[simp] theorem State.life_settleDown (recB : Nat) : (s.settleDown m recB).life = s.life := by simp [State.settleDown]
@[simp] theorem State.life_leaveHbm : (s.leaveHbm slot x).life = s.life := by simp [State.leaveHbm]

@[simp] theorem State.life_placeTail (x : Session) (dst : Residency) :
    (s.placeTail x dst).1.life = s.life := by
  unfold State.placeTail
  refine State.life_foldl_fst _ (fun y e => ?_) _ _
  repeat' split
  all_goals simp

@[simp] theorem State.life_promoteRunnable : (s.promoteRunnable slot).life = s.life := by
  simp only [State.promoteRunnable]; (repeat' split) <;> simp
@[simp] theorem State.life_useProvisional : (s.useProvisional slot m x).2.life = s.life := by
  simp only [State.useProvisional]; (repeat' split) <;> simp
@[simp] theorem State.life_commitDemote : (s.commitDemote n m x).life = s.life := by simp [State.commitDemote]
@[simp] theorem State.life_commitPromote : (s.commitPromote n m x).life = s.life := by simp [State.commitPromote]
@[simp] theorem State.life_commitHot : (s.commitHot n m).life = s.life := by simp [State.commitHot]
@[simp] theorem State.life_endWriteback (whole : Bool) : (s.endWriteback n m whole).life = s.life := by
  simp only [State.endWriteback]; (repeat' split) <;> simp
@[simp] theorem State.life_cancelMove : (s.cancelMove n m).life = s.life := by simp [State.cancelMove]
@[simp] theorem State.life_undoPromote : (s.undoPromote m x).life = s.life := by simp [State.undoPromote]
@[simp] theorem State.life_failWaiting : (s.failWaiting slot st detail).life = s.life := by simp [State.failWaiting]
@[simp] theorem State.life_giveUpStep : (s.giveUpStep slot st detail).life = s.life := by
  simp only [State.giveUpStep]; (repeat' split) <;> simp
@[simp] theorem State.life_failMove (bad : Bool) : (s.failMove n m bad).life = s.life := by
  simp only [State.failMove]; (repeat' split) <;> simp
@[simp] theorem State.life_commitMove : (s.commitMove n m).life = s.life := by
  simp only [State.commitMove]; (repeat' split) <;> simp
@[simp] theorem lifeKeptNext_execMoveCommit : LifeKeptNext s (execMoveCommit s) := by
  simp only [execMoveCommit, lifeKeptNext_next]; (repeat' split) <;> simp
@[simp] theorem State.life_tileFailed : (s.tileFailed n m o).life = s.life := by
  simp only [State.tileFailed]; (repeat' split) <;> simp
@[simp] theorem State.life_releasePage : (s.releasePage m).life = s.life := by
  simp only [State.releasePage]; (repeat' split) <;> simp
@[simp] theorem State.life_tileDone (t : MTile) (rest : List MTile) : (s.tileDone n m t rest).life = s.life := by
  simp only [State.tileDone]; (repeat' split) <;> simp
@[simp] theorem State.life_jobTileFailed (j : Nat) : (s.jobTileFailed j o).life = s.life := by simp [State.jobTileFailed]
@[simp] theorem State.life_jobProgress : (s.jobProgress m).life = s.life := by
  simp only [State.jobProgress]; (repeat' split) <;> simp
@[simp] theorem State.life_readPool (t : MTile) : (s.readPool m t).life = s.life := by
  simp only [State.readPool]; (repeat' split) <;> simp
@[simp] theorem State.life_transfer : (s.transfer n m o).life = s.life := by
  simp only [State.transfer]; (repeat' split) <;> simp
@[simp] theorem lifeKeptNext_execTileTransfer (outcome : TileOutcome) : LifeKeptNext s (execTileTransfer outcome s) := by
  simp only [execTileTransfer, lifeKeptNext_next]; (repeat' split) <;> simp
@[simp] theorem State.life_dropSeatMoves : (s.dropSeatMoves k).life = s.life := by simp [State.dropSeatMoves]
@[simp] theorem State.life_unseatCluster : (s.unseatCluster k).life = s.life := by simp [State.unseatCluster]
@[simp] theorem State.life_unseatMoving : (s.unseatMoving k).life = s.life := by simp [State.unseatMoving]
@[simp] theorem State.life_dropHalves : (s.dropHalves k).life = s.life := by simp [State.dropHalves]
@[simp] theorem State.life_clearCluster : (s.clearCluster k).life = s.life := by simp [State.clearCluster]

end Sys2Proof.Machine
end

section
/-! ## What keeps the life cycle: compaction and eviction -/
namespace Sys2Proof.Machine
variable {s t : State} 

@[simp] theorem lifeKept_writePages (x : Session) (l : Layout) (groups : List (List Slot)) (acc : List PtEntry) :
    LifeKept s ((writePages s x l groups acc).map Prod.snd) := by
  induction groups generalizing s acc with
  | nil => simp [writePages]
  | cons g rest ih =>
    unfold writePages
    split
    · simp
    · next n t h => exact (ih _).trans (by simp [(State.lifeKept_allotPage ..).of_pair h])

@[simp] theorem State.lifeKept_compact (slot budget since : Nat) : LifeKept s (s.compact slot budget since) := by
  simp only [State.compact]
  split
  · simp
  · split
    · simp
    · split
      · simp
      · split
        · simp
        · next entries t h => simp [(lifeKept_writePages ..).of_pair h]

@[simp] theorem State.life_compactWait (slot : Nat) (cmd : Option Nat) : (s.compactWait slot cmd).life = s.life := by
  simp [State.compactWait]

@[simp] theorem State.life_pressureEvict (slot : Nat) : (s.pressureEvict slot).life = s.life := by
  simp only [State.pressureEvict]
  split
  · rfl
  · split
    · split
      · rfl
      · next t h => simp [(State.lifeKept_compact ..).eq h]
    · rfl

end Sys2Proof.Machine
end

section
/-! ## What keeps the life cycle: waits, residency and forks -/
namespace Sys2Proof.Machine
variable {s t : State} (id slot : Nat) (c : Cmd) (x : Session) (en : Bool)

@[simp] theorem State.life_waitCmd : (s.waitCmd id).life = s.life := by simp [State.waitCmd]
@[simp] theorem State.life_runCmd (free : Bool) : (s.runCmd id free).life = s.life := by simp [State.runCmd]
@[simp] theorem State.life_becomeRunnable : (s.becomeRunnable slot).life = s.life := by
  simp only [State.becomeRunnable]; (repeat' split) <;> simp
@[simp] theorem State.life_promoting : (s.promoting slot).life = s.life := by
  simp only [State.promoting]; (repeat' split) <;> simp

@[simp] theorem State.lifeKept_makeChild (x : Session) (p : Params) (f : ForkCut) (cls : Nat) :
    LifeKept s ((s.makeChild x p f cls).map Prod.snd) := by
  simp only [State.makeChild]
  split
  · simp
  · next extra own t h =>
    have e : t.life = s.life := by
      split at h
      · cases h; rfl
      · split at h
        · cases h; rfl
        · split at h
          · cases h
          · next n u hu => cases h; simp [(State.lifeKept_allotPage ..).of_pair hu]
    simp [e]

@[simp] theorem life_opSessFork (id : Nat) (c : Cmd) (slot : Nat) :
    (opSessFork s id c slot).life = s.life := by
  unfold opSessFork
  split
  · simp
  · next x hx =>
    extract_lets at' f l
    have hr : (s.roomForSession x.tenant l).2.life = s.life := by simp
    generalize s.roomForSession x.tenant l = r at hr ⊢
    obtain ⟨d, u⟩ := r
    dsimp only at hr ⊢
    repeat' split
    any_goals (simp [hr]; done)
    all_goals
      next child t h => simp [(State.lifeKept_makeChild ..).of_pair h, hr]

@[simp] theorem State.life_countRefusal (refused : Bool) : (s.countRefusal refused).life = s.life := by
  simp [State.countRefusal]
@[simp] theorem State.life_tierChoice (w limit : Nat) (pressure : Bool) :
    (s.tierChoice slot w limit pressure).life = s.life := by
  simp only [State.tierChoice]; (repeat' split) <;> simp
@[simp] theorem State.life_beginWait : (s.beginWait id c slot).life = s.life := by
  simp only [State.beginWait]; (repeat' split) <;> simp

@[simp] theorem State.life_point (id : Nat) (c : Cmd) (slot : Nat) (suppressed : Bool) :
    (s.point id c slot suppressed).state.life = s.life := by
  simp only [State.point]
  repeat' split
  any_goals (simp [PointOutcome.state]; done)
  next t h => exact (State.lifeKept_compact ..).eq h

theorem State.life_of_passed {id slot : Nat} {c : Cmd} {b : Bool} (h : s.point id c slot b = .passed t) :
    t.life = s.life := by
  have e : (s.point id c slot b).state.life = s.life := by simp
  rwa [h] at e

theorem State.life_of_waits {id slot : Nat} {c : Cmd} {b : Bool} (h : s.point id c slot b = .waits t) :
    t.life = s.life := by
  have e : (s.point id c slot b).state.life = s.life := by simp
  rwa [h] at e

@[simp] theorem life_opToolWait (id : Nat) (c : Cmd) (slot : Nat) :
    (opToolWait s id c slot).life = s.life := by
  unfold opToolWait
  split
  · next t h => simp [State.life_of_passed h]
  · next t h => exact State.life_of_waits h

@[simp] theorem life_opResume : (opResume s id c slot).life = s.life := by simp only [opResume]; (repeat' split) <;> simp
@[simp] theorem State.life_parkAccepted : (s.parkAccepted id c).life = s.life := by
  simp only [State.parkAccepted]; (repeat' split) <;> simp

@[simp] theorem State.life_dueCompaction (slot : Nat) : (s.dueCompaction slot).life = s.life := by
  unfold State.dueCompaction
  split
  · rfl
  · split
    · rfl
    · simp only
      split
      · next t h => simp [(State.lifeKept_compact ..).eq h]
      · simp

@[simp] theorem State.life_stopWriteback : (s.stopWriteback slot).life = s.life := by
  simp only [State.stopWriteback]; (repeat' split) <;> simp
@[simp] theorem State.life_park : (s.park id c slot).life = s.life := by simp only [State.park]; (repeat' split) <;> simp

@[simp] theorem life_opPark (id : Nat) (c : Cmd) (slot : Nat) : (opPark s id c slot).life = s.life := by
  unfold opPark
  split
  · simp
  · split
    · next t h => simp [State.life_of_passed h]
    · next t h => exact State.life_of_waits h

@[simp] theorem lifeKeptNext_execOverstay : LifeKeptNext s (execOverstay slot s) := by
  simp only [execOverstay, lifeKeptNext_next]; (repeat' split) <;> simp
@[simp] theorem lifeKeptNext_execReheatF1 : LifeKeptNext s (execReheatF1 slot s) := by
  simp only [execReheatF1, lifeKeptNext_next]; (repeat' split) <;> simp
@[simp] theorem lifeKeptNext_execReheatF2 : LifeKeptNext s (execReheatF2 slot s) := by
  simp only [execReheatF2, lifeKeptNext_next]; (repeat' split) <;> simp
@[simp] theorem lifeKeptNext_execHotIdleDemote : LifeKeptNext s (execHotIdleDemote slot s) := by
  simp only [execHotIdleDemote, lifeKeptNext_next]; (repeat' split) <;> simp
@[simp] theorem lifeKeptNext_execAgeDemote : LifeKeptNext s (execAgeDemote slot s) := by
  simp only [execAgeDemote, lifeKeptNext_next]; (repeat' split) <;> simp
@[simp] theorem State.life_pressureStep : s.pressureStep.life = s.life := by
  simp only [State.pressureStep]; (repeat' split) <;> simp
@[simp] theorem lifeKeptNext_execPressureDemotion : LifeKeptNext s (execPressureDemotion s) := by
  simp [execPressureDemotion]
@[simp] theorem lifeKeptNext_execPromotionSpaceTimeout : LifeKeptNext s (execPromotionSpaceTimeout s) := by
  simp only [execPromotionSpaceTimeout, lifeKeptNext_next]; (repeat' split) <;> simp
@[simp] theorem State.life_endDelayed (st : Status) (detail : Nat) :
    (s.endDelayed slot x id st detail).life = s.life := by
  simp [State.endDelayed]
@[simp] theorem State.life_compactUe (w : CompactWait) : (s.compactUe slot x w).life = s.life := by
  simp only [State.compactUe]; (repeat' split) <;> simp

@[simp] theorem lifeKeptNext_execCompactionSpaceReady (turn : CompactionTurn) :
    LifeKeptNext s (execCompactionSpaceReady turn s) := by
  simp only [execCompactionSpaceReady, lifeKeptNext_next]
  split
  · rfl
  · split
    · rfl
    · split
      · rfl
      · next t h =>
        split
        · simp
        · split <;> simp [(State.lifeKept_compact ..).eq h]

@[simp] theorem lifeKeptNext_execCompactionAbandon : LifeKeptNext s (execCompactionAbandon slot s) := by
  simp only [execCompactionAbandon, lifeKeptNext_next]; (repeat' split) <;> simp
@[simp] theorem lifeKeptNext_execStmEnable : LifeKeptNext s (execStmEnable en s) := by
  simp only [execStmEnable, lifeKeptNext_next]; (repeat' split) <;> simp [↓State.life_renewCredits, ↓State.life_update]
@[simp] theorem lifeKeptNext_execCaneEnable : LifeKeptNext s (execCaneEnable en s) := by simp [execCaneEnable]

end Sys2Proof.Machine
end

section
/-! ## What keeps the life cycle: capsules -/
namespace Sys2Proof.Machine
variable {s t : State} (id slot space addr n : Nat) (kind : JobKind) (j : CapsuleJob) (l : Layout)

@[simp] theorem State.life_startExport (x : Session) (compress : Bool) (keyRef : Nat) :
    (s.startExport id slot x kind space addr compress keyRef).life = s.life := by
  simp [State.startExport]
@[simp] theorem life_opExportCapsule (c : Cmd) : (opExportCapsule s id c slot).life = s.life := by
  simp only [opExportCapsule]; (repeat' split) <;> simp
@[simp] theorem State.life_eraseJob : (s.eraseJob n j).life = s.life := by simp [State.eraseJob]
@[simp] theorem State.life_exportEnd (writeFail : Bool) : (s.exportEnd n j writeFail).life = s.life := by
  simp [State.exportEnd]
@[simp] theorem State.life_importRoom (tenant pages : Nat) : (s.importRoom tenant l pages).2.life = s.life := by
  simp only [State.importRoom]; (repeat' split) <;> simp

@[simp] theorem lifeKept_allotImport (tenant model : Nat) (l : Layout) (pages : List (PtEntry × List Slot))
    (acc : List PtEntry) : LifeKept s ((allotImport s tenant model l pages acc).map Prod.snd) := by
  induction pages generalizing s acc with
  | nil => simp [allotImport]
  | cons e rest ih =>
    unfold allotImport
    split
    · simp
    · next n t h => exact (ih _).trans ((State.lifeKept_allotPage ..).of_pair h)

@[simp] theorem State.lifeKept_arriving (tenant model : Nat) (nr : Bool) (c : Capsule) :
    LifeKept s ((s.arriving tenant model nr c).map Prod.snd) := by
  simp only [State.arriving]
  split
  · simp
  · next entries t h => simp [(lifeKept_allotImport ..).of_pair h]

@[simp] theorem State.life_startImport (h : List Byte) (c : Capsule) (entries : List PtEntry) (word : Nat) :
    (s.startImport id slot kind space addr h c l entries word).life = s.life := by
  simp [State.startImport]

@[simp] theorem life_opImportCapsule (id : Nat) (c : Cmd) : (opImportCapsule s id c).life = s.life := by
  simp only [opImportCapsule]
  repeat' split
  any_goals (simp; done)
  next slot t h => simp [(State.lifeKept_arriving ..).of_pair h]

@[simp] theorem State.life_undoArrival : (s.undoArrival slot).life = s.life := by
  simp only [State.undoArrival]; (repeat' split) <;> simp

@[simp] theorem life_offerPages (slot i : Nat) (l : List PtEntry) :
    (offerPages slot i l s).life = s.life := by
  induction l generalizing s i with
  | nil => rfl
  | cons e rest ih => simp [offerPages, ih]

@[simp] theorem State.life_arrived : (s.arrived slot).life = s.life := by
  simp only [State.arrived]; (repeat' split) <;> simp
@[simp] theorem State.life_importEnd : (s.importEnd n j).life = s.life := by
  simp only [State.importEnd]; (repeat' split) <;> simp

end Sys2Proof.Machine
end

section
/-! ## What keeps the life cycle: models -/
namespace Sys2Proof.Machine
variable {s t : State} (id mid : Nat) (c : Cmd)

@[simp] theorem State.life_destroyModelKey (ref : Nat) : (s.destroyModelKey ref).life = s.life := by
  simp [State.destroyModelKey]
@[simp] theorem life_opModelLoad : (opModelLoad s id c).life = s.life := by
  simp only [opModelLoad]; (repeat' split) <;> simp
@[simp] theorem State.life_fillSlices : (s.fillSlices mid).life = s.life := by simp [State.fillSlices]
@[simp] theorem State.life_dropLoad (m : Model) : (s.dropLoad mid m).life = s.life := by simp [State.dropLoad]
@[simp] theorem lifeKeptNext_execModelLoadDone (program : LayerProgram) :
    LifeKeptNext s (execModelLoadDone program s) := by
  simp only [execModelLoadDone, lifeKeptNext_next]; (repeat' split) <;> simp
@[simp] theorem State.life_releaseModel : (s.releaseModel mid).life = s.life := by simp [State.releaseModel]
@[simp] theorem life_opModelUnload : (opModelUnload s id c).life = s.life := by simp [opModelUnload]

end Sys2Proof.Machine
end

section
/-! ## What keeps the life cycle: text and vocabularies -/
namespace Sys2Proof.Machine
variable {s t : State} (id slot : Nat) (u : List TextUnit) (x : Session) (carry : List Byte) (reset : Bool) (c : Cmd)

@[simp] theorem life_opVocabLoad : (opVocabLoad s id).life = s.life := by simp [opVocabLoad]
@[simp] theorem lifeKeptNext_execVocabLoadDone : LifeKeptNext s (execVocabLoadDone s) := by
  simp only [execVocabLoadDone, lifeKeptNext_next]; (repeat' split) <;> simp
@[simp] theorem lifeKeptNext_execMrvEnable (en : Bool) : LifeKeptNext s (execMrvEnable en s) := by simp [execMrvEnable]
@[simp] theorem State.life_countInvalid : (s.countInvalid u).life = s.life := by simp [State.countInvalid]
@[simp] theorem State.life_enterInput (l : List InPos) : (s.enterInput slot l).life = s.life := by
  simp only [State.enterInput]; (repeat' split) <;> simp
@[simp] theorem State.life_changeRecord : (s.changeRecord slot x carry reset).life = s.life := by simp [State.changeRecord]
@[simp] theorem State.life_append (noTrunc : Bool) (y : Option Vocab) (toks : List Nat) (taken : Nat) :
    (s.append id slot x noTrunc reset y toks u carry taken).life = s.life := by
  simp only [State.append]; (repeat' split) <;> simp
@[simp] theorem life_opAppendText : (opAppendText s id c slot).life = s.life := by
  simp only [opAppendText]; (repeat' split) <;> simp
@[simp] theorem life_opAppendTokens : (opAppendTokens s id c slot).life = s.life := by
  simp only [opAppendTokens]; (repeat' split) <;> simp
@[simp] theorem State.life_flushCarry : (s.flushCarry slot).life = s.life := by
  simp only [State.flushCarry]; (repeat' split) <;> simp

end Sys2Proof.Machine
end

section
/-! ## What keeps the life cycle: constraint objects -/
namespace Sys2Proof.Machine
variable {s t : State} (id kind oid : Nat) (c : Cmd)

@[simp] theorem State.life_loadObject (mid : Nat) : (s.loadObject id c kind oid mid).life = s.life := by
  simp only [State.loadObject]; (repeat' split) <;> simp
@[simp] theorem State.life_unloadObject : (s.unloadObject id c kind oid).life = s.life := by
  simp only [State.unloadObject]; (repeat' split) <;> simp
@[simp] theorem life_opConstraintLoad : (opConstraintLoad s id c).life = s.life := by simp [opConstraintLoad]
@[simp] theorem lifeKeptNext_execJckEnable (en : Bool) : LifeKeptNext s (execJckEnable en s) := by simp [execJckEnable]
@[simp] theorem State.life_countChoice (c : Choice) : (s.countChoice c).life = s.life := by simp [State.countChoice]

end Sys2Proof.Machine
end

section
/-! ## What keeps the life cycle: the step -/
namespace Sys2Proof.Machine
variable {s t : State} (slot : Nat) (row : StepRow) (r : StepRun) (q : StepReq) (x : Session) (ran : Bool)

@[simp] theorem lifeKept_allotPages (x : Session) (n : Nat) (acc : List Nat) :
    LifeKept s ((allotPages s x n acc).map Prod.snd) := by
  induction n generalizing s acc with
  | zero => simp [allotPages]
  | succ n ih =>
    simp only [allotPages]
    split
    · split
      · simp
      · next k t h => exact (ih _).trans ((State.lifeKept_allotPage ..).of_pair h)
    · simp

@[simp] theorem State.lifeKept_allotFor (slot : Nat) (x : Session) (decode : Bool) (n : Nat) (cow : Bool) :
    LifeKept s ((s.allotFor slot x decode n cow).map Prod.snd) := by
  simp only [State.allotFor]
  split
  · simp
  · next pages t h =>
    have e : t.life = s.life := (lifeKept_allotPages ..).of_pair h
    split <;> simp [e]

theorem life_of_allotAll {cows : List Nat} {l : List (Nat × Bool × Nat)} {acc rows : List StepRow}
    (h : allotAll s cows l acc = .inr (rows, t)) : t.life = s.life := by
  induction l generalizing s acc with
  | nil => cases h; rfl
  | cons e l ih =>
    unfold allotAll at h
    split at h
    · exact ih h
    · split at h
      · cases h
      · next row u hu => exact (ih h).trans ((State.lifeKept_allotFor ..).of_pair hu)

@[simp] theorem State.life_allotSkip : (s.allotSkip slot).life = s.life := by simp [State.allotSkip]

@[simp] theorem life_composeLoop (fuel : Nat) (cand : List (Nat × Session)) :
    (composeLoop fuel s cand).2.life = s.life := by
  induction fuel generalizing s cand with
  | zero => rfl
  | succ fuel ih =>
    simp only [composeLoop]
    split
    · next h => exact life_of_allotAll h
    · simp [ih]

@[simp] theorem State.life_dropMissed : (s.dropMissed slot).life = s.life := by
  simp only [State.dropMissed]; (repeat' split) <;> simp
@[simp] theorem State.life_dropAllMissed : s.dropAllMissed.life = s.life := by simp [State.dropAllMissed]

@[simp] theorem life_lockAll (l : List (Nat × Session)) : (lockAll s l).1.life = s.life := by
  induction l generalizing s with
  | nil => rfl
  | cons e l ih =>
    simp only [lockAll]
    split <;> simp [ih]

@[simp] theorem State.life_enterStep : (s.enterStep row).life = s.life := by simp [State.enterStep]
@[simp] theorem State.life_composeStep : s.composeStep.2.life = s.life := by
  simp only [State.composeStep]; (repeat' split) <;> simp
@[simp] theorem State.life_startStep : (s.startStep r).life = s.life := by simp [State.startStep]

@[simp] theorem State.life_composeNow : s.composeNow.life = s.life := by
  have e : s.composeStep.2.life = s.life := by simp
  unfold State.composeNow
  split
  · next t h => rwa [h] at e
  · next r t h =>
    rw [h] at e
    simp [e]

@[simp] theorem lifeKeptNext_execStepCompose : LifeKeptNext s (execStepCompose s) := by simp [execStepCompose]
@[simp] theorem lifeKeptNext_execGatherTimeout : LifeKeptNext s (execGatherTimeout s) := by
  simp only [execGatherTimeout, lifeKeptNext_next]; (repeat' split) <;> simp
@[simp] theorem lifeKeptNext_execTailAllotGiveUp : LifeKeptNext s (execTailAllotGiveUp slot s) := by
  simp only [execTailAllotGiveUp, lifeKeptNext_next]; (repeat' split) <;> simp
@[simp] theorem State.life_beginStep (id : Nat) (c : Cmd) : (s.beginStep id c slot).life = s.life := by
  simp only [State.beginStep]; (repeat' split) <;> simp

@[simp] theorem life_opStep (id : Nat) (c : Cmd) (slot : Nat) : (opStep s id c slot).life = s.life := by
  simp only [opStep]
  repeat' split
  any_goals (simp; done)
  · next t h => exact State.life_of_waits h
  all_goals simp [State.life_of_passed ‹s.point _ _ _ _ = .passed _›]

@[simp] theorem State.life_writePartial : (s.writePartial slot q).1.life = s.life := by
  simp only [State.writePartial]; (repeat' split) <;> simp
@[simp] theorem State.life_writeOutput (d : Desc) (t : Nat) (forced escape : Bool) (text : List Byte) :
    (s.writeOutput d q t forced escape text).1.life = s.life := by
  simp [State.writeOutput]

@[simp] theorem life_writeSlots (gs : List (List Slot)) (fs : List Nat) :
    (writeSlots s gs fs).life = s.life := by
  induction gs generalizing s fs with
  | nil => rfl
  | cons g gs ih =>
    cases fs with
    | nil => rfl
    | cons f fs => simp [writeSlots, ih]

@[simp] theorem State.life_writeKv (new : List Slot) : (s.writeKv row x new).life = s.life := by
  simp only [State.writeKv]; (repeat' split) <;> simp

@[simp] theorem life_sealFull (slot : Nat) (words : List Nat) (fuel i : Nat) :
    (sealFull s slot words fuel i).life = s.life := by
  induction fuel generalizing s words i with
  | zero => rfl
  | succ fuel ih =>
    unfold sealFull
    repeat' split
    all_goals simp [ih]

@[simp] theorem State.life_emitToken (c : Choice) (t : Nat) : (s.emitToken slot q c t).1.life = s.life := by
  simp only [State.emitToken]; (repeat' split) <;> simp
@[simp] theorem State.life_settleRun (dead : Bool) : (s.settleRun slot dead).life = s.life := by
  simp only [State.settleRun]; (repeat' split) <;> simp

@[simp] theorem State.life_crossing (slot before : Nat) : (s.crossing slot before).life = s.life := by
  simp only [State.crossing]
  split
  · rfl
  · split
    · split
      · next t h => exact (State.lifeKept_compact ..).eq h
      · simp
    · rfl

@[simp] theorem State.life_batchTiles : s.batchTiles.life = s.life := by simp [State.batchTiles]
@[simp] theorem State.life_boundary : (s.boundary r ran).life = s.life := by
  simp only [State.boundary]; (repeat' split) <;> simp
@[simp] theorem State.life_leaveStep : (s.leaveStep slot ran).life = s.life := by
  simp only [State.leaveStep]; (repeat' split) <;> simp
@[simp] theorem State.life_closePending : (s.closePending slot).life = s.life := by
  simp only [State.closePending]; (repeat' split) <;> simp

@[simp] theorem State.life_commitRow (row : StepRow) (x : Session) (forced : Bool) :
    (s.commitRow row x forced).life = s.life := by
  unfold State.commitRow
  extract_lets
  split
  extract_lets
  split
  next _ _ _ begun sampled _ done r dead hdone =>
    have hbegun : begun.life = s.life := by
      simp only [begun]
      repeat' split
      all_goals simp +zetaDelta
    have e : done.life = s.life := by
      rw [show done = _ from (congrArg Prod.fst hdone).symm]
      clear_value sampled begun
      clear hdone
      cases sampled with
      | token c t =>
        dsimp only
        split <;> simp [hbegun]
      | _ => simp [hbegun]
    dsimp only
    repeat' split
    all_goals simp [e]

@[simp] theorem State.life_commitOrWait : (s.commitOrWait row x).life = s.life := by
  simp only [State.commitOrWait]; (repeat' split) <;> simp
@[simp] theorem lifeKeptNext_execStepCommit : LifeKeptNext s (execStepCommit slot s) := by
  simp only [execStepCommit, lifeKeptNext_next]; (repeat' split) <;> simp
@[simp] theorem lifeKeptNext_execVersionWaitTimeout : LifeKeptNext s (execVersionWaitTimeout slot s) := by
  simp only [execVersionWaitTimeout, lifeKeptNext_next]; (repeat' split) <;> simp
@[simp] theorem State.life_partialFree : (s.partialFree slot).life = s.life := by
  simp only [State.partialFree]; (repeat' split) <;> simp
@[simp] theorem lifeKeptNext_execGafEnable (en : Bool) : LifeKeptNext s (execGafEnable en s) := by simp [execGafEnable]

@[simp] theorem State.life_abortRow (row : StepRow) : (s.abortRow row).life = s.life := by
  simp only [State.abortRow]
  generalize row.cow.toList ++ row.allotted = frames
  split <;> simp

@[simp] theorem State.life_abortStep : s.abortStep.life = s.life := by simp only [State.abortStep]; (repeat' split) <;> simp

end Sys2Proof.Machine
end

section
/-! ## What keeps the life cycle: admission -/
namespace Sys2Proof.Machine
variable {s t : State} (q colour id : Nat) (a : AdmQueue) (c : Cmd) (readable : Bool)

@[simp] theorem State.life_setAdmQ : (s.setAdmQ q a).life = s.life := by simp [State.setAdmQ]
@[simp] theorem State.life_countColour : (s.countColour q colour).life = s.life := by simp [State.countColour]
@[simp] theorem State.life_enqueue (l : Nat) : (s.enqueue id q c a colour l).life = s.life := by simp [State.enqueue]
@[simp] theorem State.life_admitTenant : (s.admitTenant id c).life = s.life := by simp [State.admitTenant]
@[simp] theorem State.life_onAccept : (s.onAccept id).life = s.life := by
  simp only [State.onAccept]; (repeat' split) <;> simp
@[simp] theorem State.life_takeIn : (s.takeIn id c).life = s.life := by simp [State.takeIn]
@[simp] theorem State.life_fetch (n : Nat) : (s.fetch n readable).life = s.life := by
  simp only [State.fetch]; (repeat' split) <;> simp
@[simp] theorem lifeKeptNext_execDescriptorFetch (ring : BitVec 8) :
    LifeKeptNext s (execDescriptorFetch ring readable s) := by
  simp [execDescriptorFetch]
@[simp] theorem State.life_startCmd : (s.startCmd id).life = s.life := by
  simp only [State.startCmd]; (repeat' split) <;> simp
@[simp] theorem State.life_dequeue (urgent : Bool) (fin : Nat) : (s.dequeue urgent q id fin).life = s.life := by
  simp [State.dequeue]
@[simp] theorem State.life_dequeueGroups : s.dequeueGroups.life = s.life := by
  simp only [State.dequeueGroups]; (repeat' split) <;> simp
@[simp] theorem State.life_dequeueNext : s.dequeueNext.life = s.life := by
  simp only [State.dequeueNext]; (repeat' split) <;> simp
@[simp] theorem lifeKeptNext_execCommandDequeue : LifeKeptNext s (execCommandDequeue s) := by simp [execCommandDequeue]
@[simp] theorem State.life_unqueue : (s.unqueue id c).life = s.life := by simp [State.unqueue]
@[simp] theorem State.life_settleHeld : (s.settleHeld id c).life = s.life := by simp [State.settleHeld]
@[simp] theorem State.life_dropLate : (s.dropLate id c).life = s.life := by
  simp only [State.dropLate]; (repeat' split) <;> simp
@[simp] theorem lifeKeptNext_execLateDrop : LifeKeptNext s (execLateDrop s) := by
  simp only [execLateDrop, lifeKeptNext_next]; (repeat' split) <;> simp
@[simp] theorem State.life_keepRecord (r : List Byte) : (s.keepRecord r).life = s.life := by simp [State.keepRecord]
@[simp] theorem State.life_sampleEnd : s.sampleEnd.life = s.life := by simp [State.sampleEnd]
@[simp] theorem lifeKeptNext_execAdmSampleWindowEnd : LifeKeptNext s (execAdmSampleWindowEnd s) := by
  simp [execAdmSampleWindowEnd]

@[simp] theorem State.life_admitHeld : s.admitHeld.life = s.life := by
  refine (State.life_foldl _ (fun t id => ?_) _).trans (by simp)
  split <;> simp

@[simp] theorem lifeKeptNext_execAdmEnable (en : Bool) : LifeKeptNext s (execAdmEnable en s) := by simp [execAdmEnable]

end Sys2Proof.Machine
end

section
/-! ## What keeps the life cycle: fabric memory and peers -/
namespace Sys2Proof.Machine
variable {s t : State} (r : Req) (device n source rate width : Nat) (m : PeerMsg)

@[simp] theorem State.life_leave : (s.leave r).life = s.life := by simp only [State.leave]; (repeat' split) <;> simp
@[simp] theorem State.life_issuePeer : (s.issuePeer device m).life = s.life := by simp [State.issuePeer]

@[simp] theorem State.life_leaveWaiting : s.leaveWaiting.life = s.life := by
  refine State.life_foldl _ (fun t e => ?_) _
  split <;> simp

@[simp] theorem State.life_holdPeer : (s.holdPeer device m).life = s.life := by simp [State.holdPeer]
@[simp] theorem State.life_sendPeer (kind : MsgKind) (seq epoch : Nat) (table row : Nat) (values : List Word) (tenant : Option Nat) :
    (s.sendPeer device kind seq epoch table row values tenant).2.life = s.life := by
  simp only [State.sendPeer]; (repeat' split) <;> simp

@[simp] theorem life_drainOutbox (fuel device : Nat) : (drainOutbox fuel s device).life = s.life := by
  induction fuel generalizing s with
  | zero => rfl
  | succ fuel ih =>
    simp only [drainOutbox]
    repeat' split
    all_goals simp [ih]

@[simp] theorem State.life_drainPeer : (s.drainPeer device).life = s.life := by simp [State.drainPeer]
@[simp] theorem State.life_endReq : (s.endReq n r).life = s.life := by simp [State.endReq]

@[simp] theorem State.lifeKept_takeMsg (m : PeerMsg) : LifeKept s (s.takeMsg m) := by
  unfold State.takeMsg
  split <;> simp

@[simp] theorem lifeKeptNext_execQuietNote (m : PeerMsg) : LifeKeptNext s (execQuietNote m s) := by
  simp only [execQuietNote, lifeKeptNext_next]
  split
  · rfl
  · next t h => simp [(State.lifeKept_takeMsg ..).eq h]

@[simp] theorem lifeKeptNext_execQuietSpanEnd : LifeKeptNext s (execQuietSpanEnd device s) := by
  simp only [execQuietSpanEnd, lifeKeptNext_next]; (repeat' split) <;> simp
@[simp] theorem lifeKeptNext_execPeerSlotTimeout : LifeKeptNext s (execPeerSlotTimeout source s) := by
  simp [execPeerSlotTimeout]
@[simp] theorem lifeKeptNext_execPeerResend (req : Nat) : LifeKeptNext s (execPeerResend req s) := by
  simp only [execPeerResend, lifeKeptNext_next]; (repeat' split) <;> simp
@[simp] theorem lifeKeptNext_execApertureBadAccess : LifeKeptNext s (execApertureBadAccess source s) := by
  simp [execApertureBadAccess]
@[simp] theorem State.life_setPort (p : Port) : (s.setPort n p).life = s.life := by simp [State.setPort]
@[simp] theorem State.life_setLink (l0p : Bool) : (s.setLink n rate width l0p).life = s.life := by simp [State.setLink]
@[simp] theorem lifeKeptNext_execLinkL0 : LifeKeptNext s (execLinkL0 n rate width s) := by simp [execLinkL0]
@[simp] theorem lifeKeptNext_execLinkTrainTimeout : LifeKeptNext s (execLinkTrainTimeout n s) := by
  simp [execLinkTrainTimeout]
@[simp] theorem lifeKeptNext_execLinkRetrain : LifeKeptNext s (execLinkRetrain n s) := by simp [execLinkRetrain]
@[simp] theorem State.life_reissue : (s.reissue n).life = s.life := by simp [State.reissue]
@[simp] theorem State.life_linkDown : (s.linkDown n).life = s.life := by simp [State.linkDown]
@[simp] theorem lifeKeptNext_execLinkDown : LifeKeptNext s (execLinkDown n s) := by simp [execLinkDown]
@[simp] theorem lifeKeptNext_execL0pWidthChange : LifeKeptNext s (execL0pWidthChange n width s) := by
  simp [execL0pWidthChange]
@[simp] theorem State.life_portOff : (s.portOff n).life = s.life := by simp [State.portOff]
@[simp] theorem State.life_mapSwap : s.mapSwap.life = s.life := by simp [State.mapSwap]
@[simp] theorem lifeKeptNext_execFamMapCommit : LifeKeptNext s (execFamMapCommit s) := by simp [execFamMapCommit]
@[simp] theorem lifeKeptNext_execDeadMarkClear : LifeKeptNext s (execDeadMarkClear s) := by simp [execDeadMarkClear]

end Sys2Proof.Machine
end

section
/-! ## What keeps the life cycle: migration -/
namespace Sys2Proof.Machine
variable {s t : State} (slot detail epoch w id n cmd addr : Nat) (st : Status) (word : Option DWord) (m : Migration)
  (c : Cmd) (j : CapsuleJob) (writeFail : Bool) (o : CasOp) (r : CasEnd)

@[simp] theorem State.life_stopMove : (s.stopMove slot st detail).life = s.life := by
  simp only [State.stopMove]; (repeat' split) <;> simp
@[simp] theorem State.life_forgetMoves : (s.forgetMoves slot st detail).life = s.life := by simp [State.forgetMoves]
@[simp] theorem State.life_leaveSteps : (s.leaveSteps slot).life = s.life := by
  simp only [State.leaveSteps]; (repeat' split) <;> simp
@[simp] theorem State.life_goAway (owner : Nat) : (s.goAway slot owner epoch).life = s.life := by
  simp only [State.goAway]; (repeat' split) <;> simp
@[simp] theorem State.life_noteWord : (s.noteWord w).life = s.life := by simp [State.noteWord]
@[simp] theorem State.life_loseLease : (s.loseLease slot w).life = s.life := by simp [State.loseLease]
@[simp] theorem State.life_homeFailed : (s.homeFailed slot).life = s.life := by
  simp only [State.homeFailed]; (repeat' split) <;> simp
@[simp] theorem State.life_leaseValid : (s.leaseValid slot).life = s.life := by simp [State.leaseValid]
@[simp] theorem State.life_validated (x : Session) : (s.validated slot x w).life = s.life := by simp [State.validated]
@[simp] theorem lifeKeptNext_execLeaseValidationResult : LifeKeptNext s (execLeaseValidationResult slot word s) := by
  simp only [execLeaseValidationResult, lifeKeptNext_next]; (repeat' split) <;> simp

@[simp] theorem life_opMigrateOut (id : Nat) (c : Cmd) (slot : Nat) :
    (opMigrateOut s id c slot).life = s.life := by
  have held : LifeKept s (s.lockOrStall slot).1 := by simp
  have stalled : (s.lockOrStall slot).2.life = s.life := by simp
  unfold opMigrateOut
  generalize s.lockOrStall slot = r at held stalled ⊢
  obtain ⟨_ | u, t⟩ := r
  · dsimp only at stalled ⊢
    repeat' split
    all_goals simp [stalled]
  · dsimp only at held ⊢
    repeat' split
    all_goals simp [lifeKept_some.1 held]

@[simp] theorem State.life_returnTier (result : Nat) : (s.returnTier id slot st detail result).life = s.life := by
  simp only [State.returnTier]; (repeat' split) <;> simp
@[simp] theorem State.life_migratedOut : (s.migratedOut id m epoch).life = s.life := by simp [State.migratedOut]
@[simp] theorem State.life_migrationLost : (s.migrationLost id m w).life = s.life := by simp [State.migrationLost]
@[simp] theorem State.life_makeOffer (len : Nat) : (s.makeOffer id c slot len).life = s.life := by
  simp only [State.makeOffer]; (repeat' split) <;> simp
@[simp] theorem State.life_stagingEnd : (s.stagingEnd n j writeFail).life = s.life := by
  simp only [State.stagingEnd]; (repeat' split) <;> simp
@[simp] theorem lifeKeptNext_execCapsuleExportDone : LifeKeptNext s (execCapsuleExportDone writeFail s) := by
  simp only [execCapsuleExportDone, lifeKeptNext_next]; (repeat' split) <;> simp
@[simp] theorem State.life_offerPartial : (s.offerPartial id m).life = s.life := by
  simp only [State.offerPartial]; (repeat' split) <;> simp
@[simp] theorem lifeKeptNext_execPartialSlotFree : LifeKeptNext s (execPartialSlotFree slot s) := by
  simp only [execPartialSlotFree, lifeKeptNext_next]; (repeat' split) <;> simp
@[simp] theorem State.life_offerMade : (s.offerMade id m).life = s.life := by simp [State.offerMade]
@[simp] theorem State.life_watch (word : Option Nat) : (s.watch id m word).life = s.life := by
  simp only [State.watch]; (repeat' split) <;> simp
@[simp] theorem lifeKeptNext_execLeasePoll : LifeKeptNext s (execLeasePoll cmd word s) := by
  simp only [execLeasePoll, lifeKeptNext_next]; (repeat' split) <;> simp

@[simp] theorem lifeKeptNext_execLeaseNote (m : PeerMsg) (word : Option DWord) :
    LifeKeptNext s (execLeaseNote m word s) := by
  simp only [execLeaseNote, lifeKeptNext_next]
  split
  · rfl
  · next t h =>
    have e : t.life = s.life := (State.lifeKept_takeMsg ..).eq h
    split
    · exact e
    · split <;> simp [e]

@[simp] theorem lifeKeptNext_execOfferTimeout : LifeKeptNext s (execOfferTimeout cmd s) := by
  simp only [execOfferTimeout, lifeKeptNext_next]; (repeat' split) <;> simp

@[simp] theorem State.life_returning (id slot tenant model : Nat) (kind : JobKind) (space addr : Nat) (h : List Byte)
    (content : Capsule) (word : Nat) :
    (s.returning id slot tenant model kind space addr h content word).life = s.life := by
  simp only [State.returning]
  split
  · simp
  · split
    · simp
    · next entries t ht => simp [(lifeKept_allotImport ..).of_pair ht]

@[simp] theorem State.life_undoReturn : (s.undoReturn j).life = s.life := by
  simp only [State.undoReturn]; (repeat' split) <;> simp
@[simp] theorem State.life_undoJob : (s.undoJob j).life = s.life := by simp [State.undoJob]
@[simp] theorem State.life_takeBack : (s.takeBack j).life = s.life := by
  simp only [State.takeBack]; (repeat' split) <;> simp
@[simp] theorem State.life_settleArrival : (s.settleArrival j addr epoch).life = s.life := by
  simp only [State.settleArrival]; (repeat' split) <;> simp

@[simp] theorem State.life_migrateInStart (id : Nat) (c : Cmd) (h : List Byte) (content : Capsule) (model : Nat) :
    (s.migrateInStart id c h content model).life = s.life := by
  simp only [State.migrateInStart]
  repeat' split
  any_goals (simp; done)
  next slot t ht => simp [(State.lifeKept_arriving ..).of_pair ht]

@[simp] theorem life_opMigrateIn : (opMigrateIn s id c).life = s.life := by
  simp only [opMigrateIn]; (repeat' split) <;> simp
@[simp] theorem State.life_migratedIn : (s.migratedIn j c).life = s.life := by simp [State.migratedIn]
@[simp] theorem State.life_migrateInEnd : (s.migrateInEnd n j).life = s.life := by
  simp only [State.migrateInEnd]; (repeat' split) <;> simp
@[simp] theorem life_opReclaim : (opReclaim s id c slot).life = s.life := by simp only [opReclaim]; (repeat' split) <;> simp
@[simp] theorem State.life_reclaimed : (s.reclaimed j addr epoch).life = s.life := by simp [State.reclaimed]
@[simp] theorem State.life_reclaimEnd : (s.reclaimEnd n j).life = s.life := by
  simp only [State.reclaimEnd]; (repeat' split) <;> simp
@[simp] theorem lifeKeptNext_execCapsuleImportDone : LifeKeptNext s (execCapsuleImportDone s) := by
  simp only [execCapsuleImportDone, lifeKeptNext_next]; (repeat' split) <;> simp
@[simp] theorem State.life_withdrawEnd : (s.withdrawEnd o r).life = s.life := by
  simp only [State.withdrawEnd]; (repeat' split) <;> simp
@[simp] theorem State.life_offerEnd (create : Bool) : (s.offerEnd o r create).life = s.life := by
  simp only [State.offerEnd]; (repeat' split) <;> simp
@[simp] theorem State.life_takeEnd : (s.takeEnd o r).life = s.life := by simp only [State.takeEnd]; (repeat' split) <;> simp
@[simp] theorem State.life_casEnd : (s.casEnd o r).life = s.life := by simp only [State.casEnd]; (repeat' split) <;> simp
@[simp] theorem State.life_casAnswer (found reread : Option Nat) :
    (s.casAnswer addr found reread).life = s.life := by
  simp only [State.casAnswer]; (repeat' split) <;> simp
@[simp] theorem lifeKeptNext_execLeaseCasResult (found reread : Option DWord) :
    LifeKeptNext s (execLeaseCasResult addr found reread s) := by
  simp [execLeaseCasResult]

end Sys2Proof.Machine
end

section
/-! ## What keeps the life cycle: embedding tables -/
namespace Sys2Proof.Machine
variable {s t : State} (row id key table : Nat) (c : Change) (held : Bool)

@[simp] theorem State.life_writeRow (t : Nat) (vs : List Word) : (s.writeRow t row vs).life = s.life := by
  simp [State.writeRow]
@[simp] theorem State.life_homeDown : s.homeDown.life = s.life := by simp [State.homeDown]
@[simp] theorem State.life_joinEmb : (s.joinEmb id).life = s.life := by simp [State.joinEmb]
@[simp] theorem life_opEmbLookup (c : Cmd) : (opEmbLookup s id c).life = s.life := by
  simp only [opEmbLookup]; (repeat' split) <;> simp
@[simp] theorem life_opEmbUpdate (c : Cmd) : (opEmbUpdate s id c).life = s.life := by
  simp only [opEmbUpdate]; (repeat' split) <;> simp
@[simp] theorem State.life_setHot (i : Nat) (h : HotRow) : (s.setHot i h).life = s.life := by simp [State.setHot]
@[simp] theorem State.life_offerRow (t count : Nat) : (s.offerRow t row count).2.life = s.life := by
  simp only [State.offerRow]; (repeat' split) <;> simp
@[simp] theorem State.life_detect : s.detect.life = s.life := by simp [State.detect]

@[simp] theorem State.life_autoCopies : s.autoCopies.life = s.life := by
  unfold State.autoCopies
  split
  · refine State.life_foldl _ (fun t e => ?_) _
    repeat' split
    all_goals simp
  · rfl

@[simp] theorem State.life_makeSwitches : s.makeSwitches.life = s.life := by
  refine State.life_foldl _ (fun t e => ?_) _
  split <;> simp

@[simp] theorem life_askSwitches (copies : Option Nat) (l : List (Nat × Nat)) (acc : List Nat) :
    (askSwitches copies l s acc).2.2.life = s.life := by
  induction l generalizing s acc with
  | nil => rfl
  | cons e l ih =>
    have eo : (s.offerRow e.1 e.2 0).2.life = s.life := by simp
    simp only [askSwitches]
    split
    · next t h => rwa [h] at eo
    · next i t h =>
      rw [h] at eo
      repeat' split
      all_goals simp [ih, eo]

@[simp] theorem life_opEmbReplicate (id : Nat) (c : Cmd) : (opEmbReplicate s id c).life = s.life := by
  simp only [opEmbReplicate]
  repeat' split
  any_goals simp
  all_goals exact State.life_of_snd (congrArg Prod.snd ‹_ = (_, _, _)›) (by simp)

@[simp] theorem State.life_replDone : s.replDone.life = s.life := by simp only [State.replDone]; (repeat' split) <;> simp
@[simp] theorem State.life_setTaint : (s.setTaint key).life = s.life := by simp [State.setTaint]
@[simp] theorem State.life_clearTaint : (s.clearTaint key).life = s.life := by simp [State.clearTaint]
@[simp] theorem State.life_hotApplied (t : Nat) : (s.hotApplied t row held).life = s.life := by
  simp only [State.hotApplied]; (repeat' split) <;> simp
@[simp] theorem State.life_hotDropped (t : Nat) : (s.hotDropped t row).life = s.life := by
  simp only [State.hotDropped]; (repeat' split) <;> simp
@[simp] theorem State.life_hotHeld (t : Nat) : (s.hotHeld t row).life = s.life := by
  simp only [State.hotHeld]; (repeat' split) <;> simp
@[simp] theorem State.life_applyChange : (s.applyChange c held).life = s.life := by
  simp only [State.applyChange]; (repeat' split) <;> simp
@[simp] theorem State.life_failHeld : (s.failHeld c).life = s.life := by simp [State.failHeld]
@[simp] theorem State.life_reportApplied : (s.reportApplied c).life = s.life := by simp [State.reportApplied]
@[simp] theorem State.life_applyInbox : (s.applyInbox c).life = s.life := by simp [State.applyInbox]
@[simp] theorem State.life_applyLate : (s.applyLate c).life = s.life := by simp [State.applyLate]
@[simp] theorem State.life_applyHeld : (s.applyHeld c).life = s.life := by simp [State.applyHeld]

@[simp] theorem State.life_applyEpochs :
    s.applyEpochs.life = s.life := by
  refine (State.life_foldl _ (fun t e => ?_) _).trans (by simp)
  simp

@[simp] theorem State.life_enterEpoch : (s.enterEpoch c).life = s.life := by simp [State.enterEpoch]
@[simp] theorem lifeKeptNext_execDetEpochClose (epoch : Nat) : LifeKeptNext s (execDetEpochClose table epoch s) := by
  simp [execDetEpochClose]
@[simp] theorem State.life_sendChange : (s.sendChange c).2.life = s.life := by
  simp only [State.sendChange]; (repeat' split) <;> simp
@[simp] theorem State.life_failSent (ids : List Nat) : (s.failSent ids).life = s.life := by simp [State.failSent]
@[simp] theorem State.life_commitChange : (s.commitChange c).life = s.life := by simp [State.commitChange]
@[simp] theorem State.life_embTargetLost (device : Nat) : (s.embTargetLost device).life = s.life := by
  simp [State.embTargetLost]
@[simp] theorem State.life_fetchLocal (t : Nat) : (s.fetchLocal t row).2.life = s.life := by
  simp only [State.fetchLocal]; (repeat' split) <;> simp

@[simp] theorem State.life_fetchRow (b : EmbBatch) (key : Nat) : (s.fetchRow b key).2.life = s.life := by
  simp only [State.fetchRow]
  repeat' split
  any_goals simp
  all_goals exact State.life_of_snd ‹_ = (_, _)› (by simp)

@[simp] theorem State.life_serveRequests : s.serveRequests.life = s.life := by simp [State.serveRequests]

@[simp] theorem State.life_embClose : s.embClose.life = s.life := by
  simp only [State.embClose, State.life_update]
  refine (State.life_foldl_snd _ (fun x k => ?_) _ _).trans (by simp)
  simp

@[simp] theorem lifeKeptNext_execEmbBatchClose : LifeKeptNext s (execEmbBatchClose s) := by simp [execEmbBatchClose]

@[simp] theorem life_writeVectors (inWin : Bool) (addr es b : Nat) (l : List (List Word)) :
    (writeVectors inWin addr es b l s).life = s.life := by
  induction l generalizing s b with
  | nil => rfl
  | cons x l ih => simp [writeVectors, ih]

@[simp] theorem State.life_deliver (slot : Nat) (vecs : List (List Word)) (nr : Bool) :
    (s.deliver slot vecs nr).2.life = s.life := by
  simp only [State.deliver]; (repeat' split) <;> simp

@[simp] theorem State.life_finishLookup (b : EmbBatch) (id : Nat) (c : Cmd) :
    (s.finishLookup b id c).life = s.life := by
  simp only [State.finishLookup]
  repeat' split
  any_goals simp
  all_goals exact State.life_of_snd ‹_ = (_, _)› (by simp)

@[simp] theorem State.life_finishUpdate : (s.finishUpdate id).life = s.life := by simp [State.finishUpdate]
@[simp] theorem State.life_retireTables : s.retireTables.life = s.life := by simp [State.retireTables]
@[simp] theorem State.life_retireTable (t : Nat) : (s.retireTable t).life = s.life := by simp [State.retireTable]
@[simp] theorem State.life_embBoundary : s.embBoundary.life = s.life := by simp [State.embBoundary]
@[simp] theorem State.life_embCommit (b : EmbBatch) : (s.embCommit b).life = s.life := by simp [State.embCommit]
@[simp] theorem lifeKeptNext_execEmbBatchCommit : LifeKeptNext s (execEmbBatchCommit s) := by
  simp only [execEmbBatchCommit, lifeKeptNext_next]; (repeat' split) <;> simp
@[simp] theorem State.life_arrive (m : PeerMsg) : (s.arrive m c).life = s.life := by simp [State.arrive]

@[simp] theorem lifeKeptNext_execFp32Add (m : PeerMsg) : LifeKeptNext s (execFp32Add m s) := by
  simp only [execFp32Add, lifeKeptNext_next]
  split
  · rfl
  · next t h => simp [(State.lifeKept_takeMsg ..).eq h]

@[simp] theorem lifeKeptNext_execRowStore (m : PeerMsg) : LifeKeptNext s (execRowStore m s) := by
  simp only [execRowStore, lifeKeptNext_next]
  split
  · rfl
  · next t h => simp [(State.lifeKept_takeMsg ..).eq h]

@[simp] theorem lifeKeptNext_execRowReq (m : PeerMsg) : LifeKeptNext s (execRowReq m s) := by
  simp only [execRowReq, lifeKeptNext_next]
  split
  · rfl
  · next t h => simp [(State.lifeKept_takeMsg ..).eq h]

@[simp] theorem lifeKeptNext_execRowData (m : PeerMsg) : LifeKeptNext s (execRowData m s) := by
  simp only [execRowData, lifeKeptNext_next]
  split
  · rfl
  · next t h =>
    have e : t.life = s.life := (State.lifeKept_takeMsg ..).eq h
    split <;> simp [e]

@[simp] theorem lifeKeptNext_execApplied (m : PeerMsg) : LifeKeptNext s (execApplied m s) := by
  simp only [execApplied, lifeKeptNext_next]
  split
  · rfl
  · next t h => simp [(State.lifeKept_takeMsg ..).eq h]

@[simp] theorem lifeKeptNext_execEmbRowUe (stack : Nat) (primary : Bool) :
    LifeKeptNext s (execEmbRowUe table row stack primary s) := by
  simp only [execEmbRowUe, lifeKeptNext_next]; (repeat' split) <;> simp
@[simp] theorem lifeKeptNext_execTblValidWrite (x : Bool) : LifeKeptNext s (execTblValidWrite x s) := by
  simp [execTblValidWrite]
@[simp] theorem lifeKeptNext_execEmbEnable (en : Bool) : LifeKeptNext s (execEmbEnable en s) := by simp [execEmbEnable]

end Sys2Proof.Machine
end

section
/-! ## What keeps the life cycle: search collections -/
namespace Sys2Proof.Machine
variable {s t : State} (k id : Nat) (c : Cmd) (b : SBatch) (d : Desc) (base : Map Nat)

@[simp] theorem State.life_setColl (c : Coll) : (s.setColl k c).life = s.life := by simp [State.setColl]
@[simp] theorem State.life_countWalk (w : Walk) : (s.countWalk w).life = s.life := by simp [State.countWalk]
@[simp] theorem life_opMem : (opMem s id c).life = s.life := by simp only [opMem]; (repeat' split) <;> simp
@[simp] theorem life_opMemInsert : (opMemInsert s id c).life = s.life := by simp [opMemInsert]
@[simp] theorem life_opMemDelete : (opMemDelete s id c).life = s.life := by simp [opMemDelete]
@[simp] theorem life_opMemSearch : (opMemSearch s id c).life = s.life := by simp [opMemSearch]

@[simp] theorem State.life_walkQueries (id : Nat) (d : Desc) (snap n : Nat) :
    (s.walkQueries id d snap n).1.life = s.life := by
  induction n with
  | zero => rfl
  | succ n ih => simp [State.walkQueries, ih]

@[simp] theorem State.life_srchClose : s.srchClose.life = s.life := by
  simp only [State.srchClose, State.life_update]
  refine (State.life_foldl_fst _ (fun x e => ?_) _ _).trans (by simp)
  simp

@[simp] theorem lifeKeptNext_execSrchBatchClose : LifeKeptNext s (execSrchBatchClose s) := by simp [execSrchBatchClose]
@[simp] theorem State.life_scanDone : (s.scanDone b).life = s.life := by simp [State.scanDone]
@[simp] theorem lifeKeptNext_execChannelScanDone : LifeKeptNext s (execChannelScanDone s) := by
  simp only [execChannelScanDone, lifeKeptNext_next]; (repeat' split) <;> simp
@[simp] theorem State.life_commitInsert (snap : Nat) (snapNodes : Map SNode) :
    (s.commitInsert id d snap base snapNodes).life = s.life := by
  simp only [State.commitInsert]; (repeat' split) <;> simp
@[simp] theorem State.life_countGroups : (s.countGroups k base).life = s.life := by simp [State.countGroups]
@[simp] theorem State.life_commitDelete : (s.commitDelete id d).life = s.life := by simp [State.commitDelete]
@[simp] theorem State.life_finishSearch : (s.finishSearch b id c).life = s.life := by simp [State.finishSearch]
@[simp] theorem State.life_retireColls : s.retireColls.life = s.life := by simp [State.retireColls]
@[simp] theorem State.life_retireColl : (s.retireColl k).life = s.life := by simp [State.retireColl]
@[simp] theorem State.life_srchCommit : (s.srchCommit b).life = s.life := by simp [State.srchCommit]
@[simp] theorem lifeKeptNext_execSrchBatchCommit : LifeKeptNext s (execSrchBatchCommit s) := by
  simp only [execSrchBatchCommit, lifeKeptNext_next]; (repeat' split) <;> simp
@[simp] theorem life_opMemCompact : (opMemCompact s id c).life = s.life := by
  simp only [opMemCompact]; (repeat' split) <;> simp
@[simp] theorem State.life_compactSwitch (j : SCompact) : (s.compactSwitch j).life = s.life := by
  simp only [State.compactSwitch]; (repeat' split) <;> simp
@[simp] theorem lifeKeptNext_execMemCompactSwitch : LifeKeptNext s (execMemCompactSwitch s) := by
  simp only [execMemCompactSwitch, lifeKeptNext_next]; (repeat' split) <;> simp
@[simp] theorem lifeKeptNext_execGroupFail (coll : Nat) (graph : Bool) : LifeKeptNext s (execGroupFail coll graph s) := by
  simp [execGroupFail]
@[simp] theorem lifeKeptNext_execCollValidWrite (x : Bool) : LifeKeptNext s (execCollValidWrite x s) := by
  simp [execCollValidWrite]
@[simp] theorem lifeKeptNext_execSrchEnable (en : Bool) : LifeKeptNext s (execSrchEnable en s) := by simp [execSrchEnable]

end Sys2Proof.Machine
end

section
/-! ## What keeps the life cycle: checkpoints -/
namespace Sys2Proof.Machine
variable {s t : State} (r : CkptRun) (n : Nat)

@[simp] theorem State.life_dropHolds : s.dropHolds.life = s.life := by simp [State.dropHolds]
@[simp] theorem State.life_thaw : s.thaw.life = s.life := by simp only [State.thaw]; (repeat' split) <;> simp
@[simp] theorem State.life_ckptFail (st : Status) (detail : Nat) : (s.ckptFail st detail).life = s.life := by
  simp only [State.ckptFail]; (repeat' split) <;> simp
@[simp] theorem State.life_ckptStart (cmd : Option Nat) (asked : Bool) : (s.ckptStart cmd asked).life = s.life := by
  simp only [State.ckptStart]; (repeat' split) <;> simp
@[simp] theorem life_opCkptTake (id : Nat) (c : Cmd) : (opCkptTake s id c).life = s.life := by simp [opCkptTake]
@[simp] theorem State.life_ckptTrigger : s.ckptTrigger.life = s.life := by simp [State.ckptTrigger]
@[simp] theorem lifeKeptNext_execCkptTimer : LifeKeptNext s (execCkptTimer s) := by simp [execCkptTimer]
@[simp] theorem lifeKeptNext_execCkptStepCount : LifeKeptNext s (execCkptStepCount s) := by simp [execCkptStepCount]
@[simp] theorem State.life_cleanCache : s.cleanCache.life = s.life := by simp [State.cleanCache]
@[simp] theorem State.life_takeCut : (s.takeCut r).life = s.life := by simp [State.takeCut]
@[simp] theorem lifeKeptNext_execCkptCut : LifeKeptNext s (execCkptCut s) := by
  simp only [execCkptCut, lifeKeptNext_next]; (repeat' split) <;> simp
@[simp] theorem State.life_cutLoses (p : Session → Bool) : (s.cutLoses p).2.life = s.life := by
  simp only [State.cutLoses]; (repeat' split) <;> simp
@[simp] theorem State.life_sourceUe : (s.sourceUe n).life = s.life := by simp [State.sourceUe]
@[simp] theorem lifeKeptNext_execPageRecordUe (node : Bool) : LifeKeptNext s (execPageRecordUe node n s) := by
  simp only [execPageRecordUe, lifeKeptNext_next]; (repeat' split) <;> simp
@[simp] theorem lifeKeptNext_execCkptFreezeEnd : LifeKeptNext s (execCkptFreezeEnd s) := by
  simp only [execCkptFreezeEnd, lifeKeptNext_next]; (repeat' split) <;> simp
@[simp] theorem State.life_ckptDone (c : Snapshot) : (s.ckptDone r c).life = s.life := by
  simp only [State.ckptDone]; (repeat' split) <;> simp
@[simp] theorem lifeKeptNext_execCkptManifestDone : LifeKeptNext s (execCkptManifestDone s) := by
  simp only [execCkptManifestDone, lifeKeptNext_next]; (repeat' split) <;> simp
@[simp] theorem lifeKeptNext_execCkptAbort (writeFail : Bool) : LifeKeptNext s (execCkptAbort writeFail s) := by
  simp only [execCkptAbort, lifeKeptNext_next]; (repeat' split) <;> simp
@[simp] theorem lifeKeptNext_execCkpEnable (en : Bool) : LifeKeptNext s (execCkpEnable en s) := by simp [execCkpEnable]
@[simp] theorem lifeKeptNext_execCkpInitDone : LifeKeptNext s (execCkpInitDone s) := by simp [execCkpInitDone]

end Sys2Proof.Machine
end

section
/-! ## What keeps the life cycle: restore -/
namespace Sys2Proof.Machine
variable {s t : State} (c : Snapshot) (slot : Nat) (words : List (Nat × DWord)) (r : RestoreRun)

@[simp] theorem State.life_newAddresses : s.newAddresses.life = s.life := by simp [State.newAddresses]
@[simp] theorem State.life_restoreRegs : (s.restoreRegs c).life = s.life := by simp [State.restoreRegs]

@[simp] theorem State.life_restoreState (c : Snapshot) (f : Shift) : (s.restoreState c f).life = s.life := by
  unfold State.restoreState
  extract_lets sess gaf pins dir index loaded index' numbered mover summed addressed running
  have relock (u : State) (e : Nat × Session) : ((u.lockEntry e.1).getD u).life = u.life :=
    (State.lifeKept_lockEntry e.1).getD
  calc _ = addressed.life := State.life_foldl _ relock _
    _ = summed.life := State.life_newAddresses
    _ = numbered.life := by simp only [summed, State.life_update]
    _ = loaded.life := by simp only [numbered, State.life_update]
    _ = s.life := by simp [loaded]

@[simp] theorem State.life_restoreCmds (f : Shift) : (s.restoreCmds c f).life = s.life := by simp [State.restoreCmds]
@[simp] theorem State.life_skipSession : (s.skipSession slot).life = s.life := by simp [State.skipSession]
@[simp] theorem State.life_skipTenants : (s.skipTenants c).2.life = s.life := by simp [State.skipTenants]
@[simp] theorem State.life_restoreLease (source : Nat) : (s.restoreLease source words slot).life = s.life := by
  simp only [State.restoreLease]; (repeat' split) <;> simp
@[simp] theorem State.life_restoreCommit (m : StoreImage) : (s.restoreCommit r m words).life = s.life := by
  simp [State.restoreCommit]
@[simp] theorem State.life_restoreFail (st : Status) (detail : Nat) : (s.restoreFail r st detail).life = s.life := by
  simp [State.restoreFail]
@[simp] theorem life_opCkptRestore (id : Nat) (c : Cmd) : (opCkptRestore s id c).life = s.life := by
  simp only [opCkptRestore]; (repeat' split) <;> simp
@[simp] theorem lifeKeptNext_execRestoreDone (failed : Option Bool) :
    LifeKeptNext s (execRestoreDone words failed s) := by
  simp only [execRestoreDone, lifeKeptNext_next]; (repeat' split) <;> simp

end Sys2Proof.Machine
end

section
/-! ## What keeps the life cycle: power and clocks -/
namespace Sys2Proof.Machine
variable {s t : State} (n ma w c mv d target domain : Nat) (pll : Bool)

@[simp] theorem State.life_onPlat (f : Plat → Plat) (h : (f s.plat).lifecycle = s.plat.lifecycle) :
    (s.onPlat f).life = s.life := h

@[simp] theorem State.life_clockSwitch : (s.clockSwitch n pll).life = s.life := by simp [State.clockSwitch]
@[simp] theorem State.life_askSwitch : (s.askSwitch n pll).life = s.life := by simp [State.askSwitch]
@[simp] theorem lifeKeptNext_execCoreSwToPll : LifeKeptNext s (execCoreSwToPll s) := by simp [execCoreSwToPll]
@[simp] theorem lifeKeptNext_execCoreSwToStart : LifeKeptNext s (execCoreSwToStart s) := by simp [execCoreSwToStart]
@[simp] theorem lifeKeptNext_execRefclkLost : LifeKeptNext s (execRefclkLost s) := by simp [execRefclkLost]
@[simp] theorem lifeKeptNext_execRefclkQualified (khz : Nat) : LifeKeptNext s (execRefclkQualified khz s) := by
  simp [execRefclkQualified]
@[simp] theorem lifeKeptNext_execPllLockFail : LifeKeptNext s (execPllLockFail s) := by simp [execPllLockFail]
@[simp] theorem lifeKeptNext_execPllUnlock : LifeKeptNext s (execPllUnlock s) := by simp [execPllUnlock]
@[simp] theorem lifeKeptNext_execAonClockGate : LifeKeptNext s (execAonClockGate s) := by simp [execAonClockGate]
@[simp] theorem State.life_measured : (s.measured ma w c).life = s.life := by simp [State.measured]
@[simp] theorem State.life_countLimited : s.countLimited.life = s.life := by simp [State.countLimited]
@[simp] theorem lifeKeptNext_execGovernorStepDown : LifeKeptNext s (execGovernorStepDown ma w c s) := by
  simp [execGovernorStepDown]
@[simp] theorem lifeKeptNext_execGovernorStepUp : LifeKeptNext s (execGovernorStepUp ma w c s) := by
  simp [execGovernorStepUp]
@[simp] theorem State.life_stageFault : s.stageFault.life = s.life := by simp [State.stageFault]
@[simp] theorem lifeKeptNext_execPowerStageFault : LifeKeptNext s (execPowerStageFault s) := by simp [execPowerStageFault]
@[simp] theorem lifeKeptNext_execTabFault : LifeKeptNext s (execTabFault s) := by simp [execTabFault]
@[simp] theorem lifeKeptNext_execVinUvWarn : LifeKeptNext s (execVinUvWarn mv s) := by simp [execVinUvWarn]
@[simp] theorem lifeKeptNext_execVinOvWarn : LifeKeptNext s (execVinOvWarn mv s) := by simp [execVinOvWarn]
@[simp] theorem lifeKeptNext_execCalibrationDue : LifeKeptNext s (execCalibrationDue s) := by simp [execCalibrationDue]
@[simp] theorem State.life_startTransition : (s.startTransition d target).life = s.life := by simp [State.startTransition]
@[simp] theorem State.life_applyRequest : (s.applyRequest d target).life = s.life := by simp [State.applyRequest]
@[simp] theorem State.life_domReq (value : Nat) : (s.domReq value).life = s.life := by
  simp only [State.domReq]; (repeat' split) <;> simp
@[simp] theorem lifeKeptNext_execDomReq (value : BitVec 2) : LifeKeptNext s (execDomReq value s) := by simp [execDomReq]
@[simp] theorem State.life_resetPage (page idx : Nat) : (s.resetPage page idx).life = s.life := by
  simp [State.resetPage]
@[simp] theorem State.life_portPowerOff : (s.portPowerOff n).life = s.life := by simp [State.portPowerOff]
@[simp] theorem State.life_portTrain : (s.portTrain n).life = s.life := by simp [State.portTrain]
@[simp] theorem State.life_leaveOn : (s.leaveOn d target).life = s.life := by simp [State.leaveOn]
@[simp] theorem State.life_domainOff : (s.domainOff d).life = s.life := by simp [State.domainOff]
@[simp] theorem State.life_rebuildSlice : (s.rebuildSlice n).life = s.life := by
  simp only [State.rebuildSlice]; (repeat' split) <;> simp
@[simp] theorem State.life_settleDomain : (s.settleDomain d target).life = s.life := by simp [State.settleDomain]
@[simp] theorem State.life_wakeCluster : (s.wakeCluster d target).life = s.life := by simp [State.wakeCluster]

@[simp] theorem lifeKeptNext_execDomainTransitionDone (domain : Nat) :
    LifeKeptNext s (execDomainTransitionDone domain s) := by
  simp only [execDomainTransitionDone, lifeKeptNext_next]
  split
  · rfl
  · split
    · split <;> simp
    · simp

@[simp] theorem lifeKeptNext_execAutoWake : LifeKeptNext s (execAutoWake domain s) := by simp [execAutoWake]
@[simp] theorem lifeKeptNext_execAutoIdleReturn : LifeKeptNext s (execAutoIdleReturn domain s) := by
  simp [execAutoIdleReturn]
@[simp] theorem State.life_wakeAll : s.wakeAll.2.life = s.life := by simp [State.wakeAll]

end Sys2Proof.Machine
end

section
/-! ## What keeps the life cycle: tenants and keys -/
namespace Sys2Proof.Machine
variable {s t : State} (session : Option Nat) (payload : List Byte) (value : Word) (n id : Nat) (c : Cmd)
  (p : FinePass)

@[simp] theorem State.life_onSec (f : Sec → Sec) : (s.onSec f).life = s.life := by simp [State.onSec]
@[simp] theorem State.life_setTenant (t : Nat) (x : Tenant) : (s.setTenant t x).life = s.life := by simp [State.setTenant]
@[simp] theorem State.life_send (m : OutMsg) : (s.send m).life = s.life := by simp [State.send]
@[simp] theorem State.life_stage (k : StagedKey) : (s.stage k).life = s.life := by
  simp only [State.stage]; (repeat' split) <;> simp
@[simp] theorem State.life_atIsland (f : State → State) (hf : (f s).life = s.life) : (s.atIsland f).life = s.life := by
  simp [State.atIsland, hf]
@[simp] theorem lifeKeptNext_execKeyDeliver (unwraps : Bool) :
    LifeKeptNext s (execKeyDeliver session payload unwraps s) := by
  simp [execKeyDeliver]
@[simp] theorem lifeKeptNext_execKeyinGo : LifeKeptNext s (execKeyinGo value s) := by simp [execKeyinGo]
@[simp] theorem lifeKeptNext_execKeyDiscard : LifeKeptNext s (execKeyDiscard s) := by
  simp only [execKeyDiscard, lifeKeptNext_next]; (repeat' split) <;> simp
@[simp] theorem lifeKeptNext_execCkptBindGo : LifeKeptNext s (execCkptBindGo value s) := by
  simp only [execCkptBindGo, lifeKeptNext_next]; (repeat' split) <;> simp
@[simp] theorem lifeKeptNext_execSetRevoke : LifeKeptNext s (execSetRevoke s) := by
  simp only [execSetRevoke, lifeKeptNext_next]; (repeat' split) <;> simp
@[simp] theorem State.life_setStream (x : IdeStream) : (s.setStream n x).life = s.life := by simp [State.setStream]
@[simp] theorem State.life_streamGo (toggle : Bool) : (s.streamGo n toggle).life = s.life := by simp [State.streamGo]
@[simp] theorem State.life_streamOver (session : Nat) : (s.streamOver n session).life = s.life := by simp [State.streamOver]
@[simp] theorem lifeKeptNext_execStreamStart : LifeKeptNext s (execStreamStart s) := by simp [execStreamStart]
@[simp] theorem State.life_streamStop : (s.streamStop n).life = s.life := by simp [State.streamStop]
@[simp] theorem lifeKeptNext_execStreamStop : LifeKeptNext s (execStreamStop s) := by simp [execStreamStop]
@[simp] theorem lifeKeptNext_execStreamRekey : LifeKeptNext s (execStreamRekey s) := by simp [execStreamRekey]
@[simp] theorem lifeKeptNext_execStreamAutoRekey : LifeKeptNext s (execStreamAutoRekey n s) := by simp [execStreamAutoRekey]
@[simp] theorem State.life_countSessions : s.countSessions.life = s.life := by simp [State.countSessions]
@[simp] theorem State.life_setSpdm (m : Map SpdmSession) : (s.setSpdm m).life = s.life := by simp [State.setSpdm]
@[simp] theorem State.life_spdm (r : SpdmReq) : (s.spdm r).life = s.life := by
  simp only [State.spdm]; (repeat' split) <;> simp
@[simp] theorem lifeKeptNext_execSpdmRequest (req : SpdmReq) : LifeKeptNext s (execSpdmRequest req s) := by
  simp [execSpdmRequest]
@[simp] theorem lifeKeptNext_execSpdmHeartbeatTimeout (session : Nat) :
    LifeKeptNext s (execSpdmHeartbeatTimeout session s) := by
  simp only [execSpdmHeartbeatTimeout, lifeKeptNext_next]; (repeat' split) <;> simp
@[simp] theorem lifeKeptNext_execGetMeasurements (index : Nat) : LifeKeptNext s (execGetMeasurements index s) := by
  simp [execGetMeasurements]
@[simp] theorem State.life_zeroise : s.zeroise.life = s.life := by simp [State.zeroise]
@[simp] theorem lifeKeptNext_execRngHealthFail : LifeKeptNext s (execRngHealthFail s) := by simp [execRngHealthFail]
@[simp] theorem lifeKeptNext_execKeyMemoryUe : LifeKeptNext s (execKeyMemoryUe s) := by simp [execKeyMemoryUe]
@[simp] theorem lifeKeptNext_execSecEnable (en : Bool) : LifeKeptNext s (execSecEnable en s) := by simp [execSecEnable]
@[simp] theorem lifeKeptNext_execSecInitDone : LifeKeptNext s (execSecInitDone s) := by simp [execSecInitDone]
@[simp] theorem State.life_clearTenant (t : Nat) : (s.clearTenant t).life = s.life := by simp [State.clearTenant]
@[simp] theorem State.life_closeRing : (s.closeRing n).life = s.life := by
  simp only [State.closeRing]; (repeat' split) <;> simp
@[simp] theorem State.life_endQueued (rings : List Nat) : (s.endQueued rings).life = s.life := by simp [State.endQueued]
@[simp] theorem State.life_closeSessions (t : Nat) : (s.closeSessions t).life = s.life := by simp [State.closeSessions]
@[simp] theorem State.life_releaseObjects (t : Nat) : (s.releaseObjects t).life = s.life := by simp [State.releaseObjects]
@[simp] theorem State.life_prepStep (t : Nat) : (s.prepStep t).life = s.life := by simp [State.prepStep]
@[simp] theorem State.life_noteAll (t : Nat) : (s.noteAll t).life = s.life := by simp [State.noteAll]
@[simp] theorem State.life_openWindow : s.openWindow.life = s.life := by simp [State.openWindow]
@[simp] theorem State.life_onPass (f : FinePass → FinePass) : (s.onPass f).life = s.life := by simp [State.onPass]
@[simp] theorem State.life_passProgress : (s.passProgress p).life = s.life := by simp [State.passProgress]
@[simp] theorem State.life_destroyKeys : (s.destroyKeys p).life = s.life := by simp [State.destroyKeys]
@[simp] theorem lifeKeptNext_execScrubUnitVisit : LifeKeptNext s (execScrubUnitVisit s) := by
  simp only [execScrubUnitVisit, lifeKeptNext_next]; (repeat' split) <;> simp
@[simp] theorem lifeKeptNext_execFiningSramZero : LifeKeptNext s (execFiningSramZero s) := by simp [execFiningSramZero]
@[simp] theorem State.life_returnDomain (d : Nat) : (s.returnDomain d).life = s.life := by simp [State.returnDomain]
@[simp] theorem lifeKeptNext_execFiningPassEnd : LifeKeptNext s (execFiningPassEnd s) := by
  simp only [execFiningPassEnd, lifeKeptNext_next]; (repeat' split) <;> simp

end Sys2Proof.Machine
end

section
/-! ## What keeps the life cycle: boot -/
namespace Sys2Proof.Machine
variable {s t : State} (function : BitVec 4) (b : StoreBank)

@[simp] theorem lifeKeptNext_execFlr : LifeKeptNext s (execFlr function s) := by simp [execFlr]
theorem Plat.lifecycle_writeStore (p : Plat) : (p.writeStore b).lifecycle = p.lifecycle := by
  simp only [Plat.writeStore]; split <;> rfl
@[simp] theorem State.life_storeRecord (fails : Bool) : (s.storeRecord b fails).life = s.life := by
  simp [State.storeRecord, Plat.lifecycle_writeStore]
@[simp] theorem State.life_failSegment (n : Nat) : (s.failSegment n).life = s.life := by simp [State.failSegment]
@[simp] theorem State.life_lastRegs : (s.lastRegs b).life = s.life := by simp [State.lastRegs]
@[simp] theorem State.life_boot (b : BootInput) : (s.boot b).life = s.life := by simp [State.boot]
@[simp] theorem lifeKeptNext_execBoot (b : BootInput) : LifeKeptNext s (execBoot b s) := by simp [execBoot]
@[simp] theorem lifeKeptNext_execEntdaa (addr : BitVec 7) : LifeKeptNext s (execEntdaa addr s) := by simp [execEntdaa]
@[simp] theorem lifeKeptNext_execMctpControlMessage : LifeKeptNext s (execMctpControlMessage s) := by
  simp [execMctpControlMessage]
@[simp] theorem lifeKeptNext_execConfigRequest : LifeKeptNext s (execConfigRequest function s) := by
  simp [execConfigRequest]

end Sys2Proof.Machine
end

section
/-! ## What keeps the life cycle: reclaim -/
namespace Sys2Proof.Machine
variable {s t : State} 

@[simp] theorem State.life_letGo (n slot : Nat) : (s.letGo n slot).life = s.life := by simp [State.letGo]
@[simp] theorem State.life_reclaimFirst : s.reclaimFirst.life = s.life := by
  simp only [State.reclaimFirst]; (repeat' split) <;> simp
@[simp] theorem lifeKeptNext_execPageFree : LifeKeptNext s (execPageFree s) := by simp [execPageFree]

end Sys2Proof.Machine
end

section
/-! ## What keeps the life cycle: time-outs and failed transfers -/
namespace Sys2Proof.Machine
variable {s t : State} (en : Bool) (n : BitVec 3) (cmd device : Nat)

@[simp] theorem lifeKeptNext_execFamEnable : LifeKeptNext s (execFamEnable en s) := by simp [execFamEnable]
@[simp] theorem lifeKeptNext_execFabEnable : LifeKeptNext s (execFabEnable n en s) := by simp [execFabEnable]
@[simp] theorem State.life_sourceFail (id : Nat) : (s.sourceFail id).life = s.life := by
  simp only [State.sourceFail]; (repeat' split) <;> simp
@[simp] theorem State.life_spoilPayload (d : Desc) : (s.spoilPayload d).life = s.life := by simp [State.spoilPayload]
@[simp] theorem lifeKeptNext_execPayloadWriteFail : LifeKeptNext s (execPayloadWriteFail cmd s) := by
  simp only [execPayloadWriteFail, lifeKeptNext_next]; (repeat' split) <;> simp
@[simp] theorem lifeKeptNext_execCommandWatchdog : LifeKeptNext s (execCommandWatchdog cmd s) := by
  simp only [execCommandWatchdog, lifeKeptNext_next]; (repeat' split) <;> simp
@[simp] theorem State.life_failReq (n : Nat) (r : Req) : (s.failReq n r).life = s.life := by
  simp only [State.failReq]; (repeat' split) <;> simp
@[simp] theorem lifeKeptNext_execFabricCompletion (req : Nat) (result : FabResult) :
    LifeKeptNext s (execFabricCompletion req result s) := by
  simp only [execFabricCompletion, lifeKeptNext_next]; (repeat' split) <;> simp
@[simp] theorem lifeKeptNext_execIdeIntegrityFail (stream : Nat) : LifeKeptNext s (execIdeIntegrityFail stream n s) := by
  simp [execIdeIntegrityFail]
@[simp] theorem State.life_markLost : (s.markLost device).life = s.life := by simp [State.markLost]
@[simp] theorem State.life_endPoolMoves : (s.endPoolMoves device).life = s.life := by simp [State.endPoolMoves]
@[simp] theorem State.life_clearPool : (s.clearPool device).life = s.life := by simp [State.clearPool]

@[simp] theorem State.life_failLeases (device : Nat) :
    (s.failLeases device).life = s.life := by
  have h : ∀ (t : State) (a : Nat), ((List.range (t.fam.cas.getD a []).length).foldl
      (fun s _ => s.casAnswer a none none) t).life = t.life := fun t a => by simp
  simp [State.failLeases, h]

@[simp] theorem State.life_failStore : (s.failStore device).life = s.life := by
  simp only [State.failStore]; (repeat' split) <;> simp
@[simp] theorem State.life_markDead : (s.markDead device).life = s.life := by simp [State.markDead]
@[simp] theorem lifeKeptNext_execFabricTimeout : LifeKeptNext s (execFabricTimeout device s) := by simp [execFabricTimeout]
@[simp] theorem lifeKeptNext_execDeadWalkDone : LifeKeptNext s (execDeadWalkDone device s) := by simp [execDeadWalkDone]

end Sys2Proof.Machine
end

section
/-! ## What keeps the life cycle: tiles and cores -/
namespace Sys2Proof.Machine
variable {s t : State} (n : Nat) (ran : TileRan) (work : TileWork) (next : Option NextTile) (core : BitVec 7)

@[simp] theorem State.life_startTag : (s.startTag n).2.life = s.life := by simp [State.startTag]
@[simp] theorem State.life_startTile (t : NextTile) : (s.startTile n t).life = s.life := by simp [State.startTile]
@[simp] theorem State.life_showHeld : s.showHeld.life = s.life := by simp [State.showHeld]
@[simp] theorem State.life_urgentCap : s.urgentCap.life = s.life := by simp [State.urgentCap]
@[simp] theorem lifeKeptNext_execUrgentWindowEnd : LifeKeptNext s (execUrgentWindowEnd s) := by simp [execUrgentWindowEnd]
@[simp] theorem State.life_preempt : (s.preempt n).life = s.life := by simp only [State.preempt]; (repeat' split) <;> simp
@[simp] theorem State.life_takeTile (t : NextTile) : (s.takeTile n t).life = s.life := by simp [State.takeTile]
@[simp] theorem State.life_countStarved : (s.countStarved n ran).life = s.life := by simp [State.countStarved]
@[simp] theorem State.life_openAcct (tag : Option (List Byte)) : (s.openAcct n ran tag).life = s.life := by
  simp [State.openAcct]
@[simp] theorem State.life_countTile (out : TileOut) : (s.countTile n out ran).life = s.life := by simp [State.countTile]
@[simp] theorem State.life_countUrgent : (s.countUrgent ran).life = s.life := by simp [State.countUrgent]
@[simp] theorem State.life_clearTile (words : List Nat) : (s.clearTile n words).life = s.life := by
  simp only [State.clearTile]; (repeat' split) <;> simp
@[simp] theorem State.life_tileEnd : (s.tileEnd n work ran next).life = s.life := by
  simp only [State.tileEnd]; (repeat' split) <;> simp
@[simp] theorem lifeKeptNext_execTileEnd : LifeKeptNext s (execTileEnd core work ran next s) := by simp [execTileEnd]
@[simp] theorem State.life_fillHalf (k : Nat) (half : Bool) (slab bytes : Nat) :
    (s.fillHalf k half slab bytes).life = s.life := by
  simp [State.fillHalf]
@[simp] theorem State.life_wakeCore : (s.wakeCore n).life = s.life := by
  simp only [State.wakeCore]; (repeat' split) <;> simp

@[simp] theorem lifeKeptNext_execWindowHalfFilled (filled : WindowSlab) (bytes stalls : Nat) :
    LifeKeptNext s (execWindowHalfFilled filled bytes stalls s) := by
  simp only [execWindowHalfFilled, lifeKeptNext_next]
  simp

@[simp] theorem State.life_failCore (code : Nat) : (s.failCore n code).life = s.life := by simp [State.failCore]
@[simp] theorem lifeKeptNext_execCoreSramUe : LifeKeptNext s (execCoreSramUe core s) := by simp [execCoreSramUe]
@[simp] theorem lifeKeptNext_execClusterSramUe (cluster : BitVec 3) : LifeKeptNext s (execClusterSramUe cluster s) := by
  simp [execClusterSramUe]

end Sys2Proof.Machine
end

section
/-! ## What keeps the life cycle: telemetry -/
namespace Sys2Proof.Machine
variable {s t : State} (counts : List (Nat × Nat × Nat))

@[simp] theorem State.life_onTel (f : Tel → Tel) : (s.onTel f).life = s.life := by simp [State.onTel]
@[simp] theorem State.life_dropDump : s.dropDump.life = s.life := by simp [State.dropDump]
@[simp] theorem State.life_takeSnapshot (t us w : Nat) : (s.takeSnapshot t us w).life = s.life := by
  simp [State.takeSnapshot]
@[simp] theorem State.life_portWindow (n : Nat) (c : Nat × Nat × Nat) : (s.portWindow n c).life = s.life := by
  simp [State.portWindow]
@[simp] theorem State.life_bwEnd : (s.bwEnd counts).life = s.life := by simp [State.bwEnd]
@[simp] theorem lifeKeptNext_execBwWindowEnd : LifeKeptNext s (execBwWindowEnd counts s) := by simp [execBwWindowEnd]
@[simp] theorem lifeKeptNext_execDumpWriteDone : LifeKeptNext s (execDumpWriteDone s) := by
  simp only [execDumpWriteDone, lifeKeptNext_next]; (repeat' split) <;> simp
@[simp] theorem lifeKeptNext_execTagWriteDone : LifeKeptNext s (execTagWriteDone s) := by
  simp only [execTagWriteDone, lifeKeptNext_next]; (repeat' split) <;> simp
@[simp] theorem lifeKeptNext_execTelRingWriteFail (tag : Bool) : LifeKeptNext s (execTelRingWriteFail tag s) := by
  simp only [execTelRingWriteFail, lifeKeptNext_next]; (repeat' split) <;> simp
@[simp] theorem State.life_clearReg (r : Reg) : (s.clearReg r).life = s.life := by simp [State.clearReg]
@[simp] theorem State.life_telOpen (which : Nat) : (s.telOpen which).life = s.life := by simp [State.telOpen]
@[simp] theorem lifeKeptNext_execTelEnable (which : BitVec 2) (en : Bool) :
    LifeKeptNext s (execTelEnable which en s) := by
  simp [execTelEnable]
@[simp] theorem lifeKeptNext_execTelRead (payload : List Byte) : LifeKeptNext s (execTelRead payload s) := by
  simp [execTelRead]

end Sys2Proof.Machine
end

section
/-! ## What keeps the life cycle: register accesses -/
namespace Sys2Proof.Machine
variable {s t : State} (off p n : Nat) (value : DWord) (wide en : Bool) (page : BitVec 10) (bits : Word)

@[simp] theorem State.life_badAccess : (s.badAccess off).life = s.life := by simp [State.badAccess]
@[simp] theorem lifeKeptNext_execBadRegisterAccess (access : RegAccess) :
    LifeKeptNext s (execBadRegisterAccess access s) := by
  simp [execBadRegisterAccess]
@[simp] theorem State.life_putField (e : Reg × Nat × Nat) : (s.putField p e).life = s.life := by
  simp only [State.putField]; (repeat' split) <;> simp
@[simp] theorem State.life_settleBuckets (t : State) (q : Nat) (a : AdmQueue) (policed : Bool) :
    (State.settleBuckets t q a policed).life = t.life := by
  simp [State.settleBuckets]

/-- The clock follows in the state after a write with the platform of the state before it. -/
theorem State.life_pllFollow (t s : State) : (t.pllFollow s).life = s.life := by
  have hcounted : ({ t with plat := s.countLimited.plat } : State).life = s.life := State.life_countLimited
  simp [State.pllFollow, hcounted]

theorem State.life_afterWrite (t s : State) (l : List (Reg × Nat × Nat)) (h : t.life = s.life) :
    (t.afterWrite s p l).life = s.life := by
  simp [State.afterWrite, State.life_pllFollow, h]
@[simp] theorem State.life_writeFields (written : List (Reg × Nat × Nat)) : (s.writeFields p written).life = s.life := by
  simp [State.writeFields, State.life_afterWrite]
@[simp] theorem State.life_ringSetup (f : Ring → Ring) : (s.ringSetup n f).life = s.life := by simp [State.ringSetup]
@[simp] theorem State.life_setCoalesce (count time : Nat) : (s.setCoalesce n count time).life = s.life := by
  simp [State.setCoalesce]
@[simp] theorem State.life_ringWord (x : Nat) : (s.ringWord n off x).life = s.life := by simp [State.ringWord]
@[simp] theorem State.life_ringWrite : (s.ringWrite n off value wide).life = s.life := by
  simp only [State.ringWrite]; (repeat' split) <;> simp
@[simp] theorem State.life_registerWrite : (s.registerWrite off value wide).life = s.life := by
  simp only [State.registerWrite]; (repeat' split) <;> simp
@[simp] theorem lifeKeptNext_execRegisterWrite (off : BitVec 26) :
    LifeKeptNext s (execRegisterWrite off value wide s) := by
  simp [execRegisterWrite]
@[simp] theorem State.life_blockEnable : (s.blockEnable p en).life = s.life := by simp [State.blockEnable]
@[simp] theorem lifeKeptNext_execBlockEnable : LifeKeptNext s (execBlockEnable page en s) := by simp [execBlockEnable]
@[simp] theorem State.life_softRst : (s.softRst p).life = s.life := by simp [State.softRst]
@[simp] theorem lifeKeptNext_execSoftRst : LifeKeptNext s (execSoftRst page s) := by simp [execSoftRst]
@[simp] theorem State.life_commitPage : (s.commitPage p).life = s.life := by simp [State.commitPage]
@[simp] theorem lifeKeptNext_execCommit : LifeKeptNext s (execCommit page s) := by simp [execCommit]
@[simp] theorem lifeKeptNext_execShadowApply : LifeKeptNext s (execShadowApply page s) := by simp [execShadowApply]
@[simp] theorem State.life_clearedWith : (s.clearedWith p bits).life = s.life := by simp [State.clearedWith]
@[simp] theorem State.life_intClear : (s.intClear p bits).life = s.life := by simp [State.intClear]
@[simp] theorem State.life_ringIntClear : (s.ringIntClear n bits).life = s.life := by simp [State.ringIntClear]
@[simp] theorem lifeKeptNext_execIntStatusClear : LifeKeptNext s (execIntStatusClear page bits s) := by
  simp only [execIntStatusClear, lifeKeptNext_next]; (repeat' split) <;> simp
@[simp] theorem lifeKeptNext_execIntSet : LifeKeptNext s (execIntSet page bits s) := by
  simp only [execIntSet, lifeKeptNext_next]; (repeat' split) <;> simp
@[simp] theorem State.life_intEnable : (s.intEnable p bits).life = s.life := by simp [State.intEnable]
@[simp] theorem State.life_ringIntEnable : (s.ringIntEnable n bits).life = s.life := by simp [State.ringIntEnable]
@[simp] theorem lifeKeptNext_execIntEnableWrite : LifeKeptNext s (execIntEnableWrite page bits s) := by
  simp only [execIntEnableWrite, lifeKeptNext_next]; (repeat' split) <;> simp

end Sys2Proof.Machine
end

section
/-! # The keys of tenants and the life cycle through every step -/
namespace Sys2Proof.Machine
variable {s t u v : State}

/-! ## Operations that touch neither the tenants nor the life cycle -/

/-- Leave to change all that `Steady` names but the tenants. -/
@[simps] def besidesTenants : Leave where
  boots := true
  masks := true
  accepts := true
  freezes := true
  tenants := false
  models := true
  vocabs := true
  objects := true
  migrates := true
  fabric := true
  hbm := true

theorem State.tenants_of_steady (h : t.steady besidesTenants = s.steady besidesTenants) : t.tenants = s.tenants :=
  congrArg Steady.tenants h

theorem State.closedKeyless_congr (h : t.tenants = s.tenants) (hs : s.closedKeyless) : t.closedKeyless := by
  rwa [State.closedKeyless, h]

theorem State.lifecycleOk_congr (h : t.life = s.life) (hs : s.lifecycleOk) : t.lifecycleOk := by
  rwa [State.lifecycleOk, show t.plat.lifecycle = s.plat.lifecycle from h]

theorem State.inv_congr (htenants : t.tenants = s.tenants) (hlife : t.life = s.life) (hs : s.inv) : t.inv :=
  ⟨State.closedKeyless_congr htenants hs.1, State.lifecycleOk_congr hlife hs.2⟩

theorem State.inv_of_steady (hsteady : t.steady besidesTenants = s.steady besidesTenants) (hlife : t.life = s.life)
    (hs : s.inv) : t.inv :=
  State.inv_congr (State.tenants_of_steady hsteady) hlife hs

/-! ## The operations on tenants -/

/-- A tenant that is not CLOSED, or that holds no key, may stand in the table. -/
def Tenant.ok (x : Tenant) : Prop := x.state = .closed → x.keys = false ∧ x.ttks = [] ∧ x.ttkKeys = []

theorem State.closedKeyless_setTenant (n : Nat) {x : Tenant} (hx : x.ok) (hs : s.closedKeyless) :
    (s.setTenant n x).closedKeyless := by
  intro k y hy
  simp only [State.setTenant, Map.get?_set] at hy
  split at hy
  · cases hy; exact hx
  · exact hs k y hy

theorem State.inv_setTenant (n : Nat) {x : Tenant} (hx : x.ok) (hs : s.inv) : (s.setTenant n x).inv :=
  ⟨State.closedKeyless_setTenant n hx hs.1, hs.2⟩

theorem State.closedKeyless_zeroise : s.zeroise.closedKeyless := by
  intro k x hx
  have htenants : s.zeroise.tenants
      = s.tenants.map (fun _ t => { t with ttks := [], ttkKeys := [], keys := false, drawn := [] }) := by
    simp [State.zeroise, State.countSessions, State.onSec]
  rw [htenants, Map.get?_map] at hx
  obtain ⟨y, -, rfl⟩ := Option.map_eq_some_iff.1 hx
  exact fun _ => ⟨rfl, rfl, rfl⟩

/-- The state in which a tenant's registers are cleared and it stands open keeps the invariant. -/
theorem State.inv_opened (n : Nat) {x : Tenant} (hx : x.state = .opened) (hs : s.inv) :
    ((s.clearTenant n).setTenant n x).inv :=
  State.inv_setTenant n (fun h => by simp [hx] at h) (State.inv_of_steady (by simp) (by simp) hs)

theorem inv_opTenantOpen (id : Nat) (c : Cmd) (hs : s.inv) : (opTenantOpen s id c).inv := by
  have opened (x : Tenant) (hx : x.state = .opened) := State.inv_opened (c.desc.specF 37 36) hx hs
  simp only [opTenantOpen]
  repeat' split
  any_goals solve | refine State.inv_of_steady ?_ ?_ hs <;> simp
  all_goals exact State.inv_of_steady (by simp; rfl) (by simp) (opened _ rfl)

theorem inv_opTenantClose (id : Nat) (c : Cmd) (hs : s.inv) : (opTenantClose s id c).inv := by
  simp only [opTenantClose]
  split
  any_goals solve | refine State.inv_of_steady ?_ ?_ hs <;> simp
  exact State.inv_of_steady (by simp; rfl) (by simp)
    (State.inv_setTenant (c.desc.specF 37 36) (fun h => by cases h) hs)

/-! ## The attempt of a command -/

@[simp] theorem State.life_waitFor (id aux : Nat) : (s.waitFor id aux).life = s.life := by simp [State.waitFor]

@[simp] theorem State.lifeKept_awaitVersion (id : Nat) (c : Cmd) (slot : Nat) (x : Session) :
    LifeKept s (s.awaitVersion id c slot x) := by
  unfold State.awaitVersion
  repeat' split
  all_goals simp

@[simp] theorem State.life_dropSource (id : Nat) : (s.dropSource id).life = s.life := by
  simp only [State.dropSource]; (repeat' split) <;> simp

@[simp] theorem State.life_settled (id : Nat) (c : Cmd) : (t.settled s id c).life = t.life := by simp [State.settled]

@[simp] theorem State.life_withSource (id : Nat) (content : Capsule) (word : Option DWord) :
    (s.withSource id content word).life = s.life := by
  simp only [State.withSource]; (repeat' split) <;> simp

@[simp] theorem State.life_sourceUnread (id : Nat) : (s.sourceUnread id).life = s.life := by
  simp only [State.sourceUnread]; (repeat' split) <;> simp

@[simp] theorem lifeKeptNext_execSourceReadFail (cmd : Nat) : LifeKeptNext s (execSourceReadFail cmd s) := by
  simp [execSourceReadFail]

theorem State.inv_settled (id : Nat) (c : Cmd) (ht : t.inv) : (t.settled s id c).inv :=
  State.inv_of_steady (by simp) (by simp) ht

/-- An effect keeps the invariant of every state. -/
def KeepsInv (eff : Effect) : Prop := ∀ (u : State) (id : Nat) (c : Cmd) (slot : Nat), u.inv → (eff u id c slot).inv

section
variable {eff : Effect} (heff : KeepsInv eff) (id : Nat) (c : Cmd) (slot : Nat) (leased : Bool) (x : Session)
include heff

theorem State.inv_deadSource (hs : s.inv) : (s.deadSource id c slot eff).inv := by
  unfold State.deadSource
  split
  · exact State.inv_of_steady (by simp) (by simp) hs
  · exact State.inv_of_steady (by simp) (by simp) (heff s id c slot hs)

theorem State.inv_attemptPlain (hs : s.inv) : (s.attemptPlain id c leased slot eff).inv := by
  unfold State.attemptPlain
  extract_lets ranges
  repeat' split
  any_goals solve | refine State.inv_of_steady ?_ ?_ hs <;> simp
  · exact State.inv_deadSource heff id c slot hs
  · exact heff s id c slot hs

theorem State.inv_attemptState (hs : s.inv) : (s.attemptState id c slot x eff).inv := by
  unfold State.attemptState
  extract_lets d turned
  have hturned : turned.inv := by
    refine State.inv_of_steady ?_ ?_ hs <;> simp [turned]
  clear_value turned
  repeat' split
  any_goals solve | refine State.inv_of_steady ?_ ?_ hturned <;> simp
  · next h => exact State.inv_of_steady ((State.keeps_awaitVersion ..).eq h) ((State.lifeKept_awaitVersion ..).eq h) hturned
  · exact State.inv_attemptPlain heff id c slot x.leased (State.inv_of_steady (by simp) (by simp) hturned)
  · exact State.inv_attemptPlain heff id c slot x.leased hturned

theorem State.inv_attemptSession (hs : s.inv) : (s.attemptSession id c eff).inv := by
  unfold State.attemptSession
  extract_lets slot named resolved
  have hnamed : named.inv := by
    refine State.inv_of_steady ?_ ?_ hs <;> simp [named]
  clear_value named
  repeat' split
  any_goals solve | refine State.inv_of_steady ?_ ?_ hs <;> simp
  any_goals solve | refine State.inv_of_steady ?_ ?_ hnamed <;> simp
  · exact heff named id resolved slot hnamed
  · exact State.inv_attemptPlain heff id resolved slot _ hnamed
  · exact State.inv_attemptState heff id resolved slot _ hnamed

theorem State.inv_attempt (hs : s.inv) : (s.attempt id c eff).inv := by
  unfold State.attempt
  split
  · exact State.inv_of_steady (by simp) (by simp) hs
  · split
    · exact State.inv_attemptPlain heff id c 0 false hs
    · exact State.inv_attemptSession heff id c hs

theorem State.inv_commandRow (op : Nat) (hs : s.inv) : (s.commandRow id op eff).inv := by
  unfold State.commandRow
  split
  · exact hs
  · split
    · exact State.inv_settled id _ (State.inv_attempt heff id _ hs)
    · exact hs

end

/-- TENANT_OPEN and TENANT_CLOSE keep the invariant; every other opcode leaves the tenants and the life cycle alone. -/
theorem keepsInv_effectOf (op : Nat) : KeepsInv (effectOf op) := by
  intro u id c slot hu
  unfold effectOf
  split
  case h_31 => exact inv_opTenantOpen id c hu
  case h_32 => exact inv_opTenantClose id c hu
  all_goals
    refine State.inv_of_steady ?_ ?_ hu <;>
    simp [effNop, effFence, effSessCreate, effSessClose, effSessFork, effSessQuery, effAppendText,
    effAppendTokens, effStep, effToolWait, effResume, effPark, effExportCapsule, effImportCapsule, effMigrateOut,
    effMigrateIn, effReclaim, effEmbLookup, effEmbUpdate, effEmbReplicate, effMemInsert, effMemDelete, effMemSearch,
    effMemCompact, effModelLoad, effModelUnload, effConstraintLoad, effVocabLoad, effCkptTake, effCkptRestore]

theorem inv_attemptWaiting (l : List Nat) (hs : s.inv) : (attemptWaiting l s).inv := by
  induction l generalizing s with
  | nil => exact hs
  | cons id l ih =>
    have tried (c : Cmd) : ((s.attempt id c (effectOf c.desc.opcode)).settled s id c).inv :=
      State.inv_settled id c (State.inv_attempt (keepsInv_effectOf _) id c hs)
    simp only [attemptWaiting]
    repeat' split
    · exact ih hs
    · exact ih (tried _)
    · exact tried _
    · exact ih hs

/-- The row of an opcode. -/
theorem inv_row (op id : Nat) (hs : s.inv) : (s.commandRow id op (effectOf op)).inv :=
  State.inv_commandRow (keepsInv_effectOf op) id op hs

/-! ## The rows that change tenants or the life cycle -/

theorem inv_execTenBindGo (value : Word) (hs : s.inv) (h : execTenBindGo value s = .next t) : t.inv := by
  simp only [execTenBindGo, Host.Outcome.next.injEq] at h
  subst h
  repeat' split
  any_goals solve | refine State.inv_of_steady ?_ ?_ hs <;> simp
  next hbind =>
    obtain ⟨-, -, hopen⟩ := hbind
    refine State.inv_congr rfl rfl (State.inv_setTenant _ (fun hclosed => ?_)
      (State.inv_of_steady (s := s) (by simp) (by simp) hs))
    simp_all [State.tenantOpen]

theorem State.leAt_le_three_of_advanceResult {p : List Byte} {y : Crypto} (h : s.advanceResult p y = 0) :
    leAt p 2 1 ≤ 3 := by
  by_contra hbig
  have h2 : leAt p 2 1 ≠ 2 := by omega
  have h3 : leAt p 2 1 ≠ 3 := by omega
  simp [State.advanceResult, h2, h3] at h

theorem inv_execLifecycleAdvance (session : Option Nat) (mctp : Bool) (p : List Byte) (y : Crypto) (hs : s.inv)
    (h : execLifecycleAdvance session mctp p y s = .next t) : t.inv := by
  simp only [execLifecycleAdvance, State.atIsland, Host.Outcome.next.injEq] at h
  subst h
  repeat' split
  any_goals solve | refine State.inv_of_steady ?_ ?_ hs <;> simp
  · next hresult _ =>
    refine ⟨State.closedKeyless_congr rfl State.closedKeyless_zeroise, ?_⟩
    have hlife : (s.onPlat (fun q => { q with lifecycle := leAt p 2 1 })).zeroise.life = leAt p 2 1 :=
      State.life_zeroise
    exact hlife.trans_le (State.leAt_le_three_of_advanceResult (not_not.1 hresult))
  · next hresult _ =>
    exact ⟨State.closedKeyless_congr rfl hs.1, State.leAt_le_three_of_advanceResult (not_not.1 hresult)⟩

theorem State.inv_startPass (n : Nat) (p : ClosePrep) (hs : s.inv) : (s.startPass n p).inv :=
  State.inv_of_steady (by simp [State.startPass]) (by simp [State.startPass])
    (State.inv_setTenant n (x := { s.tenant n with state := .fining }) (fun h => by cases h) hs)

theorem inv_execFiningPrepDone (n : Nat) (hs : s.inv) (h : execFiningPrepDone n s = .next t) : t.inv := by
  simp only [execFiningPrepDone, Host.Outcome.next.injEq] at h
  subst h
  repeat' split
  any_goals solve | refine State.inv_of_steady ?_ ?_ hs <;> simp
  all_goals exact State.inv_startPass n _ (State.inv_of_steady (s := s) (by simp) (by simp) hs)

theorem State.inv_destroyKeys (p : FinePass) (hs : s.inv) : (s.destroyKeys p).inv :=
  State.inv_of_steady (State.steady_bump ..) (State.life_bump ..)
    (State.inv_setTenant p.tenant (fun _ => ⟨rfl, rfl, rfl⟩) hs)

theorem inv_execQuietWindowClose (hs : s.inv) (h : execQuietWindowClose s = .next t) : t.inv := by
  simp only [execQuietWindowClose, Host.Outcome.next.injEq] at h
  subst h
  repeat' split
  any_goals exact hs
  all_goals
    next p _ _ _ => refine State.inv_of_steady ?_ ?_ (State.inv_destroyKeys p hs) <;> simp

/-- The tenant of a pass is CLOSED, and the pass is over (R464). -/
def State.tenantGone (s : State) (p : FinePass) : State :=
  let u := s.clearTenant p.tenant
  { u with
    tenants := u.tenants.erase p.tenant
    stm := { u.stm with heap := u.stm.heap.erase p.tenant, finePend := u.stm.finePend.erase p.tenant }
    sec := { u.sec with pass := none } }

/-- SEC0 shows that the pass is over. -/
def State.passShown (s : State) : State :=
  let u := (s.setReg .SEC0_FINE_ACTIVE 0).setReg .SEC0_FINE_PHASE (if s.sec.prep.size = 0 then 0 else 1)
  ((u.setCommon pgSec { u.common pgSec with position := 1602 }).bump .SEC0_FINES_COUNT).endLong pgSec

/-- What follows the end of a pass: the messages held, the domains that it woke, the requests held, and the TENANT_CLOSE. -/
def State.afterPass (s : State) (p : FinePass) : State :=
  (p.requests.foldl (fun u r => u.applyRequest r.1 r.2) (p.woken.foldl State.returnDomain s.openWindow)).complete p.cmd .ok 0
    p.closed

theorem execFiningPassEnd_due {p : FinePass} (hp : s.sec.pass = some p) (hdestroyed : p.destroyed = true)
    (hdue : p.start + 1602000000 ≤ s.tick) :
    execFiningPassEnd s = .next ((s.tenantGone p).passShown.afterPass p) := by
  simp only [execFiningPassEnd, hp, hdestroyed, hdue, and_self, if_true]
  rfl

theorem execFiningPassEnd_notDue (h : ∀ p, s.sec.pass = some p → ¬(p.destroyed = true ∧ p.start + 1602000000 ≤ s.tick)) :
    execFiningPassEnd s = .next s := by
  unfold execFiningPassEnd
  split
  · rfl
  · next p hp => rw [if_neg (h p hp)]

@[simp] theorem State.steady_passShown {may : Leave} : s.passShown.steady may = s.steady may := by simp [State.passShown]

@[simp] theorem State.steady_afterPass {may : Leave} (p : FinePass) : (s.afterPass p).steady may = s.steady may := by
  simp [State.afterPass]

theorem State.closedKeyless_tenantGone (p : FinePass) (hs : s.closedKeyless) : (s.tenantGone p).closedKeyless := by
  intro k x hx
  simp only [State.tenantGone, State.clearTenant, Map.get?_erase] at hx
  split at hx
  · cases hx
  · exact hs k x hx

theorem inv_execFiningPassEnd (hs : s.inv) (h : execFiningPassEnd s = .next t) : t.inv := by
  refine ⟨?_, State.lifecycleOk_congr (lifeKeptNext_execFiningPassEnd.eq h) hs.2⟩
  by_cases hpass : ∃ p, s.sec.pass = some p ∧ p.destroyed = true ∧ p.start + 1602000000 ≤ s.tick
  · obtain ⟨p, hp, hdestroyed, hdue⟩ := hpass
    rw [execFiningPassEnd_due hp hdestroyed hdue] at h
    cases h
    exact State.closedKeyless_congr (State.tenants_of_steady (by simp)) (State.closedKeyless_tenantGone p hs.1)
  · rw [execFiningPassEnd_notDue (fun p hp hd => hpass ⟨p, hp, hd⟩)] at h
    cases h
    exact hs.1

/-! ## Power, resets and SHUTDOWN -/

theorem State.inv_fresh (p : Plat) (hs : s.inv) : (s.fresh p).inv :=
  ⟨fun _ _ h => (nomatch h), hs.2⟩

theorem State.inv_powerOn (mv : Nat) (hs : s.inv) : (s.powerOn mv).inv :=
  State.inv_of_steady (by simp [State.powerOn]) (by simp [State.powerOn]) (State.inv_fresh {} hs)

theorem State.inv_powerLost (phase : PowerPhase) (mv : Nat) (hs : s.inv) : (s.powerLost phase mv).inv :=
  State.inv_of_steady (by simp [State.powerLost]) (by simp [State.powerLost])
    (State.inv_fresh { phase := phase, pgood := false } hs)

/-- The device after a cold reset, but for the registers that are spared: the tick, the count of boots and the count of sealed
pages stay (R485). -/
def State.coldFresh (s : State) (low : Bool) : State :=
  let f := s.fresh { phase := s.plat.phase, pgood := s.plat.pgood, resetLow := low, boots := s.plat.boots }
  { f with tick := s.tick, bootEpoch := s.bootEpoch, cane := { f.cane with sealedCount := s.cane.sealedCount } }

/-- The registers of REFCLK and of the input voltage, which a cold reset spares (log entry 44). -/
def sparedRegs : List Reg := [.CLK_STATUS_REF_REF_OK, .CLK_STATUS_REF_REF_KHZ, .PWR_VIN_MV]

theorem State.coldReset_eq (cause : Reg) (low : Bool) :
    s.coldReset cause low = causeRegs.foldl (fun f r => f.setReg r (b2n (r == cause)))
      (sparedRegs.foldl (fun f r => f.setReg r (s.reg r)) (s.coldFresh low)) := rfl

theorem State.inv_coldReset (cause : Reg) (low : Bool) (hs : s.inv) : (s.coldReset cause low).inv :=
  State.inv_of_steady (s := s.coldFresh low) (by simp [State.coldReset_eq]) (by simp [State.coldReset_eq])
    (State.inv_congr (s := s.fresh _) rfl rfl (State.inv_fresh _ hs))

theorem State.inv_zeroise (hs : s.inv) : s.zeroise.inv :=
  ⟨State.closedKeyless_zeroise, State.lifecycleOk_congr State.life_zeroise hs.2⟩

/-- The ports as the device stops (R494). -/
def State.portsOff (s : State) : State :=
  (List.range 8).foldl (fun s n => if s.failed (fabPage n) then s else s.portOff n) s

/-- What the units of the device hold is lost as it stops, and their pages are off (R494). -/
def State.unitsEmptied (s : State) : State :=
  { s with
    cmds := ⟨[]⟩, adm := {}, sdir := {}, cane := { sealedCount := s.cane.sealedCount }, stm := {}, jobs := ⟨[]⟩,
    sources := ⟨[]⟩, models := ⟨[]⟩, vocabs := ⟨[]⟩, objects := ⟨[]⟩, cores := ⟨[]⟩, windows := ⟨[]⟩, gaf := {}, freeze := 0,
    hbm := ⟨[]⟩, sec := { s.sec with identity := none }, emb := {}, srch := {}, fam := {}, ckp := { store := s.ckp.store },
    migrations := ⟨[]⟩, tel := {}, window := ⟨[]⟩ }

/-- Every page but those of the always-on domain and the failed ones is off. -/
def State.pagesOff (s : State) : State :=
  { s with commons := s.commons.map (fun p c =>
      if p < 5 ∨ c.state = 0xFF then c else { c with en := false, state := 0, busy := false }) }

/-- Every domain but the always-on one is OFF. -/
def State.domainsOff (s : State) : State := (List.range 167).foldl (fun s d => s.setReg .PWR_DOM_STAT_STATE 2 d) s

theorem State.stop_eq : s.stop = s.portsOff.zeroise.unitsEmptied.pagesOff.domainsOff := by
  unfold State.stop
  extract_lets ports zeroised
  change _ = zeroised.unitsEmptied.pagesOff.domainsOff
  clear_value zeroised
  rfl
theorem State.inv_unitsEmptied (hs : s.inv) : s.unitsEmptied.inv := State.inv_congr rfl rfl hs

theorem State.inv_stop (hs : s.inv) : s.stop.inv := by
  have hports : s.portsOff.inv := State.inv_of_steady (by simp [State.portsOff]) (by simp [State.portsOff]) hs
  rw [State.stop_eq]
  exact State.inv_of_steady (by simp [State.domainsOff, State.pagesOff]) (by simp [State.domainsOff, State.pagesOff])
    (State.inv_unitsEmptied (State.inv_zeroise hports))

theorem inv_opShutdown (id : Nat) (c : Cmd) (bist : BistRun) (fails : Bool) (hs : s.inv) :
    (opShutdown s id c bist fails).inv := by
  have hstopped (r : Nat) : (((s.setPageState pgGlb 2).complete id .ok 0 r).stopRings c.ring).stop.inv :=
    State.inv_stop (State.inv_of_steady (s := s) (by simp [State.stopRings]) (by simp [State.stopRings]) hs)
  simp only [opShutdown]
  split
  · exact State.inv_of_steady (by simp) (by simp) hs
  split
  · exact State.inv_of_steady (by simp) (by simp) hs
  split
  · exact State.inv_of_steady (by simp; rfl) (by simp) (hstopped _)
  · exact State.inv_of_steady (by simp; rfl) (by simp) (hstopped _)

theorem inv_execRstDeviceCold (value : Word) (hs : s.inv) (h : execRstDeviceCold value s = .next t) : t.inv := by
  simp only [execRstDeviceCold, Host.Outcome.next.injEq] at h
  subst h
  repeat' split
  any_goals solve | refine State.inv_of_steady ?_ ?_ hs <;> simp
  exact State.inv_coldReset _ _ (State.inv_of_steady (by simp) (by simp) hs)

theorem inv_execJtagInstruction (i : TapInstr) (hs : s.inv) (h : execJtagInstruction i s = .next t) : t.inv := by
  simp only [execJtagInstruction, Host.Outcome.next.injEq] at h
  subst h
  repeat' split
  · exact hs
  · exact State.inv_congr rfl rfl hs
  · exact State.inv_coldReset _ _ (State.inv_congr (s := s.zeroise) rfl rfl (State.inv_zeroise hs))
  · exact hs

/-! ## Every row -/

/-- A row that acts where its condition holds, and else has no effect. -/
theorem inv_of_ite {p : Prop} [Decidable p] {u : State} (hu : u.inv) (hs : s.inv)
    (h : (Host.Outcome.next (if p then u else s) : Host.Outcome State Fault Refusal) = .next t) : t.inv := by
  cases h
  split
  · exact hu
  · exact hs

theorem inv_exec (i : Instr) (hs : s.inv) (h : exec i s = .next t) : t.inv := by
  have kept (hlife : LifeKeptNext s (exec i s)) (hr : i.resets = false) (hc : i.changesTenants = false) : t.inv := by
    obtain ⟨-, -, -, -, htenants, -⟩ := rareStateKept i s t h hr
    exact State.inv_congr (htenants hc) (hlife.eq h) hs
  cases i with
  | nop cmd => cases h; exact inv_row 0x01 cmd hs
  | fence cmd => cases h; exact inv_row 0x02 cmd hs
  | sessCreate cmd => cases h; exact inv_row 0x10 cmd hs
  | sessClose cmd => cases h; exact inv_row 0x11 cmd hs
  | sessFork cmd => cases h; exact inv_row 0x12 cmd hs
  | sessQuery cmd => cases h; exact inv_row 0x13 cmd hs
  | appendText cmd => cases h; exact inv_row 0x18 cmd hs
  | appendTokens cmd => cases h; exact inv_row 0x19 cmd hs
  | step cmd => cases h; exact inv_row 0x1A cmd hs
  | toolWait cmd => cases h; exact inv_row 0x1B cmd hs
  | resume cmd => cases h; exact inv_row 0x1C cmd hs
  | park cmd => cases h; exact inv_row 0x1D cmd hs
  | exportCapsule cmd => cases h; exact inv_row 0x20 cmd hs
  | importCapsule cmd content =>
    cases h; exact inv_row 0x21 cmd (State.inv_of_steady (by simp) (by simp) hs)
  | migrateOut cmd => cases h; exact inv_row 0x22 cmd hs
  | migrateIn cmd content word =>
    cases h; exact inv_row 0x23 cmd (State.inv_of_steady (by simp) (by simp) hs)
  | reclaim cmd content word =>
    cases h; exact inv_row 0x24 cmd (State.inv_of_steady (by simp) (by simp) hs)
  | embLookup cmd => cases h; exact inv_row 0x30 cmd hs
  | embUpdate cmd => cases h; exact inv_row 0x31 cmd hs
  | embReplicate cmd => cases h; exact inv_row 0x32 cmd hs
  | memInsert cmd => cases h; exact inv_row 0x38 cmd hs
  | memDelete cmd => cases h; exact inv_row 0x39 cmd hs
  | memSearch cmd => cases h; exact inv_row 0x3A cmd hs
  | memCompact cmd => cases h; exact inv_row 0x3B cmd hs
  | modelLoad cmd => cases h; exact inv_row 0x40 cmd hs
  | modelUnload cmd => cases h; exact inv_row 0x41 cmd hs
  | constraintLoad cmd => cases h; exact inv_row 0x42 cmd hs
  | vocabLoad cmd => cases h; exact inv_row 0x43 cmd hs
  | ckptTake cmd => cases h; exact inv_row 0x48 cmd hs
  | ckptRestore cmd => cases h; exact inv_row 0x49 cmd hs
  | tenantOpen cmd => cases h; exact inv_row 0x50 cmd hs
  | tenantClose cmd => cases h; exact inv_row 0x51 cmd hs
  | shutdown cmd bist fails =>
    simp only [exec, execShutdown, Host.Outcome.next.injEq] at h
    subst h
    repeat' split
    · exact hs
    · exact State.inv_attempt (fun u id c _ hu => inv_opShutdown id c bist fails hu) cmd _ hs
    · exact hs
  | waitingCommandEffect =>
    simp only [exec, execWaitingCommandEffect, Host.Outcome.next.injEq] at h
    subst h
    split
    · exact inv_attemptWaiting _ hs
    · exact hs
  | tenBindGo value => exact inv_execTenBindGo value hs h
  | lifecycleAdvance session mctp p y => exact inv_execLifecycleAdvance session mctp p y hs h
  | finingPrepDone n => exact inv_execFiningPrepDone n hs h
  | quietWindowClose => exact inv_execQuietWindowClose hs h
  | finingPassEnd => exact inv_execFiningPassEnd hs h
  | vinRise mv => exact inv_of_ite (State.inv_powerOn mv hs) hs h
  | vinUvFault mv => exact inv_of_ite (State.inv_powerLost _ mv hs) hs h
  | vinOvFault mv => exact inv_of_ite (State.inv_powerLost _ mv hs) hs h
  | vinOvRecovery mv => exact inv_of_ite (State.inv_powerOn mv hs) hs h
  | thermalTrip c =>
    have tripped : ((s.powerLost .tripped (s.reg .PWR_VIN_MV)).onPlat (fun p => { p with thermtrip := true })).inv :=
      State.inv_congr rfl rfl (State.inv_powerLost .tripped (s.reg .PWR_VIN_MV) hs)
    exact inv_of_ite tripped hs h
  | resetNAssert => exact inv_of_ite (State.inv_coldReset _ _ hs) hs h
  | benchWatchdog => exact inv_of_ite (State.inv_coldReset _ _ hs) hs h
  | rstDeviceCold value => exact inv_execRstDeviceCold value hs h
  | jtagInstruction j => exact inv_execJtagInstruction j hs h
  | _ => exact kept (by simp [exec]) rfl rfl

theorem State.inv_passTick (hs : s.inv) : s.passTick.inv := by
  unfold State.passTick
  split
  · exact hs
  · split
    · exact State.inv_congr rfl rfl hs
    · exact State.inv_congr (s := s.bump .CLK_HOLDOVER_TICKS_COUNT 0 250) rfl rfl
        (State.inv_of_steady (by simp) (by simp) hs)

theorem State.inv_idleTick (hs : s.inv) : (idleTick s).inv :=
  State.inv_passTick (s := s.drainWriteBuf) (State.inv_congr rfl rfl hs)

theorem inv_step (hs : s.inv) (h : step s = .next t) : t.inv := by
  unfold step at h
  split at h
  · cases h
    exact State.inv_idleTick hs
  next rest _ =>
    have hrest : ({ s with pending := rest } : State).inv := State.inv_congr rfl rfl hs
    exact inv_exec _ hrest h

end Sys2Proof.Machine

open Sys2Proof Sys2Proof.Machine in
/-- Settles O56, by cases of the command: the rows that leave the tenants and the life cycle alone keep the invariant
(`rareStateKept` and `LifeKeptNext`), and each of the others has a lemma of its own. -/
theorem keysInvariantKept : Obligations.KeysInvariantKept := fun _ _ => inv_step
end

section
/-! ## What leaves the security island alone -/
namespace Sys2Proof.Machine
variable {s t : State}

@[simp] theorem State.sec_ite (c : Prop) [Decidable c] (t u : State) :
    (if c then t else u).sec = if c then t.sec else u.sec := apply_ite _ _ _ _
@[simp] theorem State.sec_foldl {β : Type} (f : State → β → State)
    (h : ∀ t b, (f t b).sec = t.sec) (l : List β) : (l.foldl f s).sec = s.sec :=
  foldl_keeps State.sec f h l s

end Sys2Proof.Machine
end

section
/-! ## What leaves the security island alone: registers, memory, rings, sessions and commands -/
namespace Sys2Proof.Machine
variable {s t : State} (r : Reg) (x i k p code addr n detail handle result slot core id : Nat) (bits : Word)
  (st : Status) (bs : List Byte) (wasted : Bool) (waste : Nat → Bool)

end Sys2Proof.Machine
end

section
/-! ## What leaves the security island alone: the address map and the peer aperture -/
namespace Sys2Proof.Machine
variable {s t : State} (addr slot : Nat) (op : LeaseOp)

@[simp] theorem State.sec_countReq (port : Option Nat) : (s.countReq port).sec = s.sec := by
  simp only [State.countReq]; (repeat' split) <;> simp
@[simp] theorem State.sec_countLease : (s.countLease addr).sec = s.sec := by
  simp only [State.countLease]; (repeat' split) <;> simp
@[simp] theorem State.sec_casIssue (e : Nat) : (s.casIssue addr slot e op).sec = s.sec := by simp [State.casIssue]
@[simp] theorem State.sec_casIfLeased : (s.casIfLeased slot op).sec = s.sec := by
  simp only [State.casIfLeased]; (repeat' split) <;> simp

end Sys2Proof.Machine
end

section
/-! ## What leaves the security island alone: pages and their tables -/
namespace Sys2Proof.Machine
variable {s t : State} (owner bytes n : Nat) (l : List Nat)

@[simp] theorem State.sec_heapGive : (s.heapGive owner bytes).sec = s.sec := by simp [State.heapGive]
@[simp] theorem State.sec_setPage (p : PageRec) : (s.setPage n p).sec = s.sec := by simp [State.setPage]
@[simp] theorem State.sec_onPage (f : PageRec → PageRec) : (s.onPage n f).sec = s.sec := by
  simp only [State.onPage]; (repeat' split) <;> simp
@[simp] theorem State.sec_handOver : (s.handOver n).sec = s.sec := by simp [State.handOver]
@[simp] theorem State.sec_decRef : (s.decRef n).sec = s.sec := by simp only [State.decRef]; (repeat' split) <;> simp
@[simp] theorem State.sec_dropUsers : (s.dropUsers l).sec = s.sec := by simp [State.dropUsers]
@[simp] theorem State.sec_dropHbm : (s.dropHbm n).sec = s.sec := by simp only [State.dropHbm]; (repeat' split) <;> simp
@[simp] theorem State.sec_dropFlash : (s.dropFlash n).sec = s.sec := by
  simp only [State.dropFlash]; (repeat' split) <;> simp
@[simp] theorem State.sec_dropPool : (s.dropPool n).sec = s.sec := by
  simp only [State.dropPool]; (repeat' split) <;> simp
@[simp] theorem State.sec_dropIdleHbm : (s.dropIdleHbm n).sec = s.sec := by
  simp only [State.dropIdleHbm]; (repeat' split) <;> simp
@[simp] theorem State.sec_dropIdlePool : (s.dropIdlePool n).sec = s.sec := by
  simp only [State.dropIdlePool]; (repeat' split) <;> simp
@[simp] theorem sec_releaseFlash (fuel : Nat) : (releaseFlash fuel s).sec = s.sec := by
  induction fuel generalizing s with
  | zero => rfl
  | succ fuel ih =>
    simp only [releaseFlash]
    repeat' split
    all_goals simp [ih]
@[simp] theorem State.sec_easeFlash : s.easeFlash.sec = s.sec := by simp [State.easeFlash]
@[simp] theorem State.sec_releaseHeld : (s.releaseHeld n).sec = s.sec := by
  simp only [State.releaseHeld]; (repeat' split) <;> simp
@[simp] theorem State.sec_unpin : (s.unpin n).sec = s.sec := by simp only [State.unpin]; (repeat' split) <;> simp

end Sys2Proof.Machine
end

section
/-! ## What leaves the security island alone: the nodes of shared pages -/
namespace Sys2Proof.Machine
variable {s t : State} (n slot : Nat)

@[simp] theorem State.sec_setNode (x : Node) : (s.setNode n x).sec = s.sec := by simp [State.setNode]
@[simp] theorem State.sec_onNode (f : Node → Node) : (s.onNode n f).sec = s.sec := by
  simp only [State.onNode]; (repeat' split) <;> simp
@[simp] theorem sec_pruneNode (fuel n : Nat) : (pruneNode s fuel n).sec = s.sec := by
  induction fuel generalizing s n with
  | zero => rfl
  | succ fuel ih =>
    unfold pruneNode
    split
    · rfl
    · split
      · repeat' split
        all_goals simp [ih]
      · rfl
@[simp] theorem State.sec_prune : (s.prune n).sec = s.sec := by simp [State.prune]
@[simp] theorem State.sec_setCaneNode (n : Option Nat) : (s.setCaneNode slot n).sec = s.sec := by
  simp only [State.setCaneNode]; (repeat' split) <;> simp

end Sys2Proof.Machine
end

section
/-! ## What leaves the security island alone: sessions -/
namespace Sys2Proof.Machine
variable {s t : State} (slot detail id p : Nat) (q : StepReq) (st : Status) (c : Cmd)

@[simp] theorem State.sec_setWays (set : Nat) (w : List Way) : (s.setWays set w).sec = s.sec := by simp [State.setWays]
@[simp] theorem State.sec_dirtyEntry : (s.dirtyEntry slot).sec = s.sec := by simp [State.dirtyEntry]
@[simp] theorem State.sec_unlockEntry : (s.unlockEntry slot).sec = s.sec := by simp [State.unlockEntry]
@[simp] theorem State.sec_giveSlot : (s.giveSlot slot).sec = s.sec := by simp [State.giveSlot]
@[simp] theorem State.sec_emptyHeader : (s.emptyHeader q st).sec = s.sec := by
  simp only [State.emptyHeader]; (repeat' split) <;> simp
@[simp] theorem State.sec_stepCompletion : (s.stepCompletion slot q st detail).sec = s.sec := by
  simp only [State.stepCompletion]; (repeat' split) <;> simp
@[simp] theorem State.sec_endStep : (s.endStep slot st detail).sec = s.sec := by
  simp only [State.endStep]; (repeat' split) <;> simp
@[simp] theorem State.sec_endAllSteps : (s.endAllSteps slot st detail).sec = s.sec := by
  simp only [State.endAllSteps]; (repeat' split) <;> simp
@[simp] theorem State.sec_endWait : (s.endWait slot st detail).sec = s.sec := by
  simp only [State.endWait]; (repeat' split) <;> simp
@[simp] theorem State.sec_releaseRecord : (s.releaseRecord slot).sec = s.sec := by
  simp only [State.releaseRecord]; (repeat' split) <;> simp
@[simp] theorem State.sec_freeClosed : (s.freeClosed slot).sec = s.sec := by
  simp only [State.freeClosed]; (repeat' split) <;> simp
@[simp] theorem State.sec_closeSession : (s.closeSession slot).1.sec = s.sec := by
  simp only [State.closeSession]; (repeat' split) <;> simp

end Sys2Proof.Machine
end

section
/-! ## What leaves the security island alone: moves between tiers -/
namespace Sys2Proof.Machine
variable {s t : State} (n slot detail k : Nat) (m : Move) (dst : Residency) (cmd : Option Nat) (x : Session)
  (st : Status) (o : TileOutcome)

@[simp] theorem State.sec_giveFlash : (s.giveFlash n).sec = s.sec := by simp [State.giveFlash]
@[simp] theorem State.sec_givePool : (s.givePool n).sec = s.sec := by simp [State.givePool]
@[simp] theorem State.sec_eraseMove : (s.eraseMove n).sec = s.sec := by
  simp only [State.eraseMove]; (repeat' split) <;> simp
@[simp] theorem State.sec_completeMove : (s.completeMove cmd slot st detail).sec = s.sec := by
  simp only [State.completeMove]; (repeat' split) <;> simp
@[simp] theorem State.sec_dropProvisional : (s.dropProvisional slot).sec = s.sec := by
  simp only [State.dropProvisional]; (repeat' split) <;> simp
@[simp] theorem State.sec_settleDown (recB : Nat) : (s.settleDown m recB).sec = s.sec := by simp [State.settleDown]
@[simp] theorem State.sec_endWriteback (whole : Bool) : (s.endWriteback n m whole).sec = s.sec := by
  simp only [State.endWriteback]; (repeat' split) <;> simp

end Sys2Proof.Machine
end

section
/-! ## What leaves the security island alone: waits, residency and forks -/
namespace Sys2Proof.Machine
variable {s t : State} (id slot : Nat) (c : Cmd) (x : Session) (en : Bool)

@[simp] theorem State.sec_stopWriteback : (s.stopWriteback slot).sec = s.sec := by
  simp only [State.stopWriteback]; (repeat' split) <;> simp

end Sys2Proof.Machine
end

section
/-! ## What leaves the security island alone: models -/
namespace Sys2Proof.Machine
variable {s t : State} (id mid : Nat) (c : Cmd)

@[simp] theorem State.sec_releaseModel : (s.releaseModel mid).sec = s.sec := by simp [State.releaseModel]

end Sys2Proof.Machine
end

section
/-! ## What leaves the security island alone: admission -/
namespace Sys2Proof.Machine
variable {s t : State} (q colour id : Nat) (a : AdmQueue) (c : Cmd) (readable : Bool)

@[simp] theorem State.sec_setAdmQ : (s.setAdmQ q a).sec = s.sec := by simp [State.setAdmQ]
@[simp] theorem State.sec_unqueue : (s.unqueue id c).sec = s.sec := by simp [State.unqueue]
@[simp] theorem State.sec_settleHeld : (s.settleHeld id c).sec = s.sec := by simp [State.settleHeld]

end Sys2Proof.Machine
end

section
/-! ## What leaves the security island alone: fabric memory and peers -/
namespace Sys2Proof.Machine
variable {s t : State} (r : Req) (device n source rate width : Nat) (m : PeerMsg)

@[simp] theorem State.sec_leave : (s.leave r).sec = s.sec := by simp only [State.leave]; (repeat' split) <;> simp
@[simp] theorem State.sec_issuePeer : (s.issuePeer device m).sec = s.sec := by simp [State.issuePeer]
@[simp] theorem sec_drainOutbox (fuel device : Nat) : (drainOutbox fuel s device).sec = s.sec := by
  induction fuel generalizing s with
  | zero => rfl
  | succ fuel ih =>
    simp only [drainOutbox]
    repeat' split
    all_goals simp [ih]
@[simp] theorem State.sec_drainPeer : (s.drainPeer device).sec = s.sec := by simp [State.drainPeer]

end Sys2Proof.Machine
end

section
/-! ## What leaves the security island alone: migration -/
namespace Sys2Proof.Machine
variable {s t : State} (slot detail epoch w id n cmd addr : Nat) (st : Status) (word : Option DWord) (m : Migration)
  (c : Cmd) (j : CapsuleJob) (writeFail : Bool) (o : CasOp) (r : CasEnd)

@[simp] theorem State.sec_forgetMoves : (s.forgetMoves slot st detail).sec = s.sec := by simp [State.forgetMoves]

end Sys2Proof.Machine
end

section
/-! ## What leaves the security island alone: embedding tables -/
namespace Sys2Proof.Machine
variable {s t : State} (row id key table : Nat) (c : Change) (held : Bool)

@[simp] theorem State.sec_retireTables : s.retireTables.sec = s.sec := by simp [State.retireTables]
@[simp] theorem State.sec_retireTable (t : Nat) : (s.retireTable t).sec = s.sec := by simp [State.retireTable]

end Sys2Proof.Machine
end

section
/-! ## What leaves the security island alone: search collections -/
namespace Sys2Proof.Machine
variable {s t : State} (k id : Nat) (c : Cmd) (b : SBatch) (d : Desc) (base : Map Nat)

@[simp] theorem State.sec_retireColls : s.retireColls.sec = s.sec := by simp [State.retireColls]
@[simp] theorem State.sec_retireColl : (s.retireColl k).sec = s.sec := by simp [State.retireColl]

end Sys2Proof.Machine
end

section
/-! ## What leaves the security island alone: power and clocks -/
namespace Sys2Proof.Machine
variable {s t : State} (n ma w c mv d target domain : Nat) (pll : Bool)

@[simp] theorem State.sec_startTransition : (s.startTransition d target).sec = s.sec := by simp [State.startTransition]
@[simp] theorem State.sec_applyRequest : (s.applyRequest d target).sec = s.sec := by simp [State.applyRequest]

end Sys2Proof.Machine
end

section
/-! ## What leaves the security island alone: tenants and keys -/
namespace Sys2Proof.Machine
variable {s t : State} (session : Option Nat) (payload : List Byte) (value : Word) (n id : Nat) (c : Cmd)
  (p : FinePass)

@[simp] theorem State.sec_closeRing : (s.closeRing n).sec = s.sec := by
  simp only [State.closeRing]; (repeat' split) <;> simp
@[simp] theorem State.sec_endQueued (rings : List Nat) : (s.endQueued rings).sec = s.sec := by simp [State.endQueued]
@[simp] theorem State.sec_releaseObjects (t : Nat) : (s.releaseObjects t).sec = s.sec := by simp [State.releaseObjects]
@[simp] theorem State.sec_returnDomain (d : Nat) : (s.returnDomain d).sec = s.sec := by simp [State.returnDomain]

end Sys2Proof.Machine
end


section
/-! # Tenants open and close -/
namespace Sys2Proof.Machine
variable {s t : State}

/-! ## The registers of a tenant -/

/-- What a filter never keeps is not listed. -/
theorem Map.get?_filter_gone {α : Type} (m : Map α) (p : Nat → α → Bool) (k : Nat) (h : ∀ v, p k v = false) :
    (m.filter p).get? k = none := by
  obtain ⟨l⟩ := m
  induction l with
  | nil => rfl
  | cons e l ih =>
    obtain ⟨a, x⟩ := e
    simp only [Map.filter, Map.get?] at ih ⊢
    by_cases ha : a = k
    · subst ha
      simpa [h] using ih
    · rw [List.filter_cons]
      split
      · simpa [lookupIn, ha] using ih
      · exact ih

/-- A field in a bank of the tenants is one of the registers that tenants have. -/
theorem mem_tenantRegs {r : Reg} {n k : Nat} (hr : r ∈ Reg.all) (hb : tenantBank r.desc.bank n k = true) :
    (r.ctorIdx, r.desc.bank) ∈ tenantRegs := by
  refine List.mem_map.mpr ⟨r, List.mem_filter.mpr ⟨hr, ?_⟩, rfl⟩
  revert hb
  cases r.desc.bank <;> simp [tenantBank]

/-- The registers of a tenant that is cleared are at their reset values (R455, R464). -/
theorem State.reg_clearTenant {r : Reg} {n k : Nat} (hr : r ∈ Reg.all) (hk : k < 2 ^ 32)
    (hb : tenantBank r.desc.bank n k = true) : (s.clearTenant n).reg r k = r.resetOf k := by
  have hdiv : r.key k / 4294967296 = r.ctorIdx := by unfold Reg.key; omega
  have hmod : r.key k % 4294967296 = k := by unfold Reg.key; omega
  have gone : (s.clearTenant n).regs.get? (r.key k) = none :=
    Map.get?_filter_gone _ _ _ fun _ => by
      simp only [hdiv, hmod, Bool.not_eq_false', List.any_eq_true]
      exact ⟨_, mem_tenantRegs hr hb, by simpa using hb⟩
  rw [State.reg, gone, Option.getD_none]

/-! ## What the end of an attempt leaves -/

@[simp] theorem State.tenants_settled (id : Nat) (c : Cmd) : (t.settled s id c).tenants = t.tenants :=
  State.tenants_of_steady (by simp)

@[simp] theorem State.sec_dropSource (id : Nat) : (s.dropSource id).sec = s.sec := by
  simp only [State.dropSource]; (repeat' split) <;> rfl

@[simp] theorem State.sec_settled (id : Nat) (c : Cmd) : (t.settled s id c).sec = t.sec := by simp [State.settled]

@[simp] theorem State.clearTenant_frame (n : Nat) :
    (s.clearTenant n).tenants = s.tenants ∧ (s.clearTenant n).sec = s.sec ∧ (s.clearTenant n).free = s.free ∧
    (s.clearTenant n).cmds = s.cmds := ⟨rfl, rfl, rfl, rfl⟩

/-! ## TENANT_OPEN -/

/-- The tenant as it opens (R456). -/
def openedTenant (isLocal : Bool) (free ref : Nat) (key : Option (Nat × StagedKey)) : Tenant :=
  { state := .opened, localOnly := isLocal, keys := true, drawn := freeBytes free 192,
    ttks := if isLocal then [] else [ref]
    ttkKeys := if isLocal then [] else [(key.map (fun e => e.2.key)).getD []] }

section
variable {id : Nat} {c : Cmd}

/-- The staged transport key that a TENANT_OPEN names. -/
def State.openKey (s : State) (c : Cmd) : Option (Nat × StagedKey) :=
  s.sec.staged.find? (fun _ k => k.kind == 1 && k.ref == c.desc.specF 55 40 && k.owner == c.desc.specF 37 36)

theorem opTenantOpen_deployedOnly (h : s.plat.lifecycle ≠ 2) : opTenantOpen s id c = s.refuse id .security 0x0C := by
  simp [opTenantOpen, h]

theorem opTenantOpen_disabled (h : s.plat.lifecycle = 2) (hen : s.enabled pgSec = false) :
    opTenantOpen s id c = s.complete id .internal := by
  simp [opTenantOpen, h, hen]

section
variable (h : s.plat.lifecycle = 2) (hen : s.enabled pgSec = true)
include h hen

theorem opTenantOpen_opened (hx : (s.tenant (c.desc.specF 37 36)).state = .opened) :
    opTenantOpen s id c = s.refuse id .invalid 0x81 := by
  simp [opTenantOpen, h, hen, hx]

theorem opTenantOpen_leaving
    (hx : (s.tenant (c.desc.specF 37 36)).state = .closing ∨ (s.tenant (c.desc.specF 37 36)).state = .fining) :
    opTenantOpen s id c = s.complete id .locked 1 := by
  rcases hx with hx | hx <;> simp [opTenantOpen, h, hen, hx]

variable (hx : (s.tenant (c.desc.specF 37 36)).state = .closed)
include hx

theorem opTenantOpen_noKey (hl : c.desc.optBit 8 = false) (hk : s.openKey c = none) :
    opTenantOpen s id c = s.refuse id .security 0x05 := by
  rw [State.openKey] at hk
  simp [opTenantOpen, h, hen, hx, hl, hk]

theorem opTenantOpen_noRandom (hk : c.desc.optBit 8 = true ∨ (s.openKey c).isSome = true)
    (hrng : s.regBit .SEC0_ISLAND_RNG_OK = false) : opTenantOpen s id c = s.refuse id .security 0x0B := by
  rw [State.openKey] at hk
  have named : (!c.desc.optBit 8 && (s.openKey c).isNone) = false := by
    rcases hk with hk | hk
    · simp [hk]
    · simp [State.openKey, Option.isNone_eq_false_iff.mpr hk]
  rw [State.openKey] at named
  simp only [opTenantOpen, h, hen, hx, hrng, named]
  simp

variable (hrng : s.regBit .SEC0_ISLAND_RNG_OK = true)
include hrng

theorem opTenantOpen_local (hl : c.desc.optBit 8 = true) :
    opTenantOpen s id c = (((s.clearTenant (c.desc.specF 37 36)).setTenant (c.desc.specF 37 36)
      (openedTenant true s.free (c.desc.specF 55 40) (s.openKey c))).useFree 192).complete id .ok := by
  simp only [opTenantOpen, h, hen, hx, hl, hrng]
  rfl

theorem opTenantOpen_keyed {i : Nat} {k : StagedKey} (hl : c.desc.optBit 8 = false) (hk : s.openKey c = some (i, k)) :
    opTenantOpen s id c = ((((s.clearTenant (c.desc.specF 37 36)).setTenant (c.desc.specF 37 36)
      (openedTenant false s.free (c.desc.specF 55 40) (some (i, k)))).useFree 192).onSec
        (fun e => { e with staged := e.staged.erase i })).complete id .ok := by
  rw [State.openKey] at hk
  simp only [opTenantOpen, h, hen, hx, hl, hrng, hk]
  rfl

end

/-! ## TENANT_CLOSE -/

theorem opTenantClose_closed (hx : (s.tenant (c.desc.specF 37 36)).state = .closed) :
    opTenantClose s id c = s.refuse id .invalid 0x82 := by
  simp [opTenantClose, hx]

theorem opTenantClose_leaving
    (hx : (s.tenant (c.desc.specF 37 36)).state = .closing ∨ (s.tenant (c.desc.specF 37 36)).state = .fining) :
    opTenantClose s id c = s.complete id .locked 1 := by
  rcases hx with hx | hx <;> simp [opTenantClose, hx]

theorem Map.has_modify {α : Type} (m : Map α) (k j : Nat) (f : α → α) : (m.modify k f).has j = m.has j := by
  unfold Map.modify Map.has
  split
  next h =>
    rw [Map.get?_set]
    split
    next e => simp [e, h]
    · rfl
  · rfl

/-- A preparation that goes on stays listed. -/
theorem State.prep_closeSessions (n m : Nat) : (s.closeSessions n).sec.prep.has m = s.sec.prep.has m := by
  unfold State.closeSessions
  refine foldl_keeps (fun u => u.sec.prep.has m) _ (fun u e => ?_) _ _
  simp [State.onSec, Map.has_modify]

theorem State.prep_prepStep (n m : Nat) : (s.prepStep n).sec.prep.has m = s.sec.prep.has m := by
  simp only [State.prepStep]
  split
  · exact State.prep_closeSessions n m
  · rw [State.sec_releaseObjects]
    exact State.prep_closeSessions n m

/-- The state in which the preparation of a tenant that closes begins. -/
def State.closingTenant (s : State) (n id : Nat) : State :=
  let u := ((s.setTenant n { s.tenant n with state := .closing }).onSec
    (fun e => { e with prep := e.prep.set n { cmd := id } })).onCmd id (fun c => { c with phase := .running, exempt := true })
  if u.sec.pass.isNone then u.setReg .SEC0_FINE_PHASE 1 else u

theorem opTenantClose_opened (hx : (s.tenant (c.desc.specF 37 36)).state = .opened) :
    opTenantClose s id c =
      let n := c.desc.specF 37 36
      let u := s.closingTenant n id
      (((u.ringsOf n).foldl State.closeRing u).endQueued (u.ringsOf n)).prepStep n := by
  simp only [opTenantClose, hx]
  rfl

theorem State.tenants_closingTenant (n : Nat) :
    (s.closingTenant n id).tenants = s.tenants.set n { s.tenant n with state := .closing } := by
  simp only [State.closingTenant]
  split <;> simp [State.setTenant]

theorem State.prep_closingTenant (n : Nat) : (s.closingTenant n id).sec.prep.has n = true := by
  simp only [State.closingTenant]
  split <;> simp [State.onSec, Map.has]

theorem tenants_opTenantClose_opened (hx : (s.tenant (c.desc.specF 37 36)).state = .opened) :
    (opTenantClose s id c).tenants =
      s.tenants.set (c.desc.specF 37 36) { s.tenant (c.desc.specF 37 36) with state := .closing } := by
  rw [opTenantClose_opened hx, ← State.tenants_closingTenant (id := id)]
  exact State.tenants_of_steady (by simp)

theorem prep_opTenantClose_opened (hx : (s.tenant (c.desc.specF 37 36)).state = .opened) :
    (opTenantClose s id c).sec.prep.has (c.desc.specF 37 36) = true := by
  rw [opTenantClose_opened hx]
  simp only [State.prep_prepStep, State.sec_endQueued]
  rw [State.sec_foldl _ (fun _ n => State.sec_closeRing n)]
  exact State.prep_closingTenant _

/-! ## The two commands -/

theorem exec_tenantOpen (h : s.readyPlain id 0x50 c) : exec (.tenantOpen id) s = .next ((opTenantOpen s id c).settled s id c) :=
  congrArg Host.Outcome.next (State.commandRow_readyPlain s id _ c effTenantOpen h)

theorem exec_tenantClose (h : s.readyPlain id 0x51 c) : exec (.tenantClose id) s = .next ((opTenantClose s id c).settled s id c) :=
  congrArg Host.Outcome.next (State.commandRow_readyPlain s id _ c effTenantClose h)

end
end Sys2Proof.Machine

open Sys2Proof Sys2Proof.Machine in
/-- Settles O48: each outcome of TENANT_OPEN and TENANT_CLOSE has its equation, and what comes after the opening or the start
of the closing leaves the tenants alone. -/
theorem tenantsOpenAndClose : Obligations.TenantsOpenAndClose := by
  intro s id c
  refine ⟨fun h => ?_, fun r k hr hk hb => State.reg_clearTenant hr hk hb, fun h => ?_⟩
  · have ends {t : State} (e : opTenantOpen s id c = t) : exec (.tenantOpen id) s = .next (t.settled s id c) := by
      rw [exec_tenantOpen h, e]
    refine ⟨fun hd => ends (opTenantOpen_deployedOnly hd), fun hd hen => ends (opTenantOpen_disabled hd hen), fun hd hen =>
      ⟨fun hx => ends (opTenantOpen_opened hd hen hx), fun hx => ends (opTenantOpen_leaving hd hen hx),
        fun hx hl hk => ends (opTenantOpen_noKey hd hen hx hl hk),
        fun hx hk hrng => ends (opTenantOpen_noRandom hd hen hx hk hrng), fun hx hl hrng => ?_,
        fun i k hx hl hk hrng => ?_⟩⟩
    · refine ⟨_, ends (opTenantOpen_local hd hen hx hrng hl), fun j hj => ?_, ?_, ?_, ?_⟩
      · simp [State.setTenant, Map.get?_set, hj]
      · rw [State.cmd?_settled, State.cmd?_complete_self]
      · simp
      · simp [State.setTenant, openedTenant]
    · refine ⟨_, ends (opTenantOpen_keyed hd hen hx hrng hl hk), fun j hj => ?_, ?_, ?_, ?_⟩
      · simp [State.setTenant, Map.get?_set, hj]
      · rw [State.cmd?_settled, State.cmd?_complete_self]
      · simp [State.onSec]
      · simp [State.setTenant, openedTenant]
  · refine ⟨fun hx => ?_, fun hx => ?_, fun hx => ?_⟩
    · refine ⟨_, { s.tenant (c.desc.specF 37 36) with state := .closing }, exec_tenantClose h, ?_, rfl, rfl, rfl,
        fun j hj => ?_, ?_⟩
      · rw [State.tenants_settled, tenants_opTenantClose_opened hx, Map.get?_set_self]
      · rw [State.tenants_settled, tenants_opTenantClose_opened hx, Map.get?_set_ne _ _ _ _ hj]
      · rw [State.sec_settled, prep_opTenantClose_opened hx]
    · rw [exec_tenantClose h, opTenantClose_closed hx]
    · rw [exec_tenantClose h, opTenantClose_leaving hx]
end

section
/-! # The fining pass -/
namespace Sys2Proof.Machine
variable {s t : State}

@[simp] theorem State.sec_openWindow : s.openWindow.sec = s.sec := by simp [State.openWindow]

/-! ## Preparation -/

section
variable {n t0 : Nat} {q p : ClosePrep}

/-- A tenant that is not prepared, or that another pass keeps waiting, only goes on with its preparation (R466). -/
theorem execFiningPrepDone_goesOn (hq : s.sec.prep.get? n = some q)
    (h : (s.prepStep n).prepared n = false ∨ (s.prepStep n).sec.pass.isSome = true) :
    execFiningPrepDone n s = .next (s.prepStep n) := by
  simp only [execFiningPrepDone, hq, if_pos h]

section
variable (hq : s.sec.prep.get? n = some q) (hprepared : (s.prepStep n).prepared n = true)
  (hpass : (s.prepStep n).sec.pass = none) (hp : (s.prepStep n).sec.prep.get? n = some p) (hnoted : p.noted = some t0)
include hq hprepared hpass hp hnoted

/-- Once the notes are out, the pass starts when they have completed, or 10 ms have passed, and the domains are ON. -/
theorem execFiningPrepDone_noted : execFiningPrepDone n s = .next (
    if ((s.prepStep n).notesOut && !decide (t0 + 10000000 ≤ (s.prepStep n).tick))
      || p.woken.any (fun d => !(s.prepStep n).domOn d) then s.prepStep n else (s.prepStep n).startPass n p) := by
  simp only [execFiningPrepDone, hq, hprepared, hpass, hp, hnoted, Option.bind_some, Option.getD_some, Option.isSome_none,
    Bool.true_eq_false, Bool.false_eq_true, or_self, if_false]

theorem execFiningPrepDone_waits (h : p.woken.any (fun d => !(s.prepStep n).domOn d) = true ∨
    (s.prepStep n).notesOut = true ∧ (s.prepStep n).tick < t0 + 10000000) :
    execFiningPrepDone n s = .next (s.prepStep n) := by
  rw [execFiningPrepDone_noted hq hprepared hpass hp hnoted, if_pos]
  rcases h with h | ⟨hout, hlate⟩
  · rw [h, Bool.or_true]
  · simp [hout, hlate]

theorem execFiningPrepDone_starts (hon : p.woken.any (fun d => !(s.prepStep n).domOn d) = false)
    (h : (s.prepStep n).notesOut = false ∨ t0 + 10000000 ≤ (s.prepStep n).tick) :
    execFiningPrepDone n s = .next ((s.prepStep n).startPass n p) := by
  rw [execFiningPrepDone_noted hq hprepared hpass hp hnoted, if_neg]
  rcases h with h | h <;> simp [hon, h]

end

/-- The pass of a tenant whose preparation is `p`, as it starts (R460). -/
def State.newPass (s : State) (n : Nat) (p : ClosePrep) : FinePass :=
  { tenant := n, cmd := p.cmd, closed := p.closed, start := s.tick, quiet := p.quiet, woken := p.woken }

theorem State.startPass_pass (n : Nat) (p : ClosePrep) : (s.startPass n p).sec.pass = some (s.newPass n p) := by
  simp [State.startPass, State.onSec, State.newPass]

theorem State.startPass_tenant (n : Nat) (p : ClosePrep) :
    (s.startPass n p).tenants.get? n = some { s.tenant n with state := .fining } := by
  simp [State.startPass, State.setTenant]

/-! ## The keys and the visits -/

theorem execQuietWindowClose_due {p : FinePass} (hp : s.sec.pass = some p) (hd : p.destroyed = false)
    (hdue : p.start + 2000000 ≤ s.tick) :
    execQuietWindowClose s = .next (
      let u := (((s.destroyKeys p).onPass (fun q => { q with destroyed := true, windowShut := !p.quiet })).setReg
        .SEC0_FINE_PHASE 3).passProgress p
      if p.quiet then u else u.openWindow) := by
  simp only [execQuietWindowClose, hp, hd, hdue, and_self, if_true]

/-- The tenant whose keys are destroyed (R460). -/
def State.keyless (s : State) (n : Nat) : Tenant := { s.tenant n with ttks := [], ttkKeys := [], keys := false, drawn := [] }

theorem State.tenants_destroyKeys (p : FinePass) :
    (s.destroyKeys p).tenants = s.tenants.set p.tenant (s.keyless p.tenant) := by
  simp [State.destroyKeys, State.setTenant, State.keyless]

@[simp] theorem State.sec_destroyKeys (p : FinePass) : (s.destroyKeys p).sec = s.sec := by simp [State.destroyKeys]

@[simp] theorem State.sec_passProgress (p : FinePass) : (s.passProgress p).sec = s.sec := by simp [State.passProgress]

theorem tenants_quietWindowClose {p : FinePass} (hp : s.sec.pass = some p) (hd : p.destroyed = false)
    (hdue : p.start + 2000000 ≤ s.tick) (h : execQuietWindowClose s = .next t) :
    t.tenants = s.tenants.set p.tenant (s.keyless p.tenant) := by
  rw [execQuietWindowClose_due hp hd hdue] at h
  cases h
  rw [← State.tenants_destroyKeys]
  split <;> exact State.tenants_of_steady (by simp)

theorem pass_quietWindowClose {p : FinePass} (hp : s.sec.pass = some p) (hd : p.destroyed = false)
    (hdue : p.start + 2000000 ≤ s.tick) (h : execQuietWindowClose s = .next t) :
    t.sec.pass = some { p with destroyed := true, windowShut := !p.quiet } := by
  rw [execQuietWindowClose_due hp hd hdue] at h
  cases h
  split <;> simp [State.onPass, State.onSec, hp]

theorem execScrubUnitVisit_due {p : FinePass} (hp : s.sec.pass = some p) (hd : p.destroyed = true)
    (hleft : p.visited < stackUnits) (hdue : p.start + 2000000 + p.visited * visitTicks ≤ s.tick) :
    ∃ u, execScrubUnitVisit s = .next u ∧ u.sec.pass = some { p with visited := p.visited + 1 } ∧ u.tenants = s.tenants := by
  refine ⟨_, by simp only [execScrubUnitVisit, hp, hd, hleft, hdue, and_self, if_true]; rfl, ?_, ?_⟩
  · split <;> simp [State.onPass, State.onSec, hp]
  · split <;> exact State.tenants_of_steady (by simp)

theorem execFiningSramZero_due {p : FinePass} (hp : s.sec.pass = some p) (hd : p.destroyed = true) (hz : p.zeroed = false)
    (hidle : s.gaf.running = none) :
    execFiningSramZero s = .next { s with
      cores := s.cores.map (fun _ c => { c with out := [] }), sec := { s.sec with pass := some { p with zeroed := true } } } := by
  simp [execFiningSramZero, hidle, State.sramZero, hp, hd, hz]

/-! ## The end of the pass -/

@[simp] theorem State.sec_passShown : s.passShown.sec = s.sec := by simp [State.passShown]

@[simp] theorem State.sec_afterPass (p : FinePass) : (s.afterPass p).sec = s.sec := by simp [State.afterPass]

theorem execFiningPassEnd_closes {p : FinePass} (hp : s.sec.pass = some p) (hd : p.destroyed = true)
    (hdue : p.start + 1602000000 ≤ s.tick) :
    ∃ u, execFiningPassEnd s = .next u ∧ u.tenants = s.tenants.erase p.tenant ∧ u.sec.pass = none ∧ u.cmd? p.cmd = none :=
  ⟨_, execFiningPassEnd_due hp hd hdue, State.tenants_of_steady (s := s.tenantGone p) (by simp), by simp [State.tenantGone],
    State.cmd?_complete_self _ _ _ _⟩

theorem execFiningPassEnd_early {p : FinePass} (hp : s.sec.pass = some p) (h : s.tick < p.start + 1602000000) :
    execFiningPassEnd s = .next s :=
  execFiningPassEnd_notDue fun q hq ⟨_, hdue⟩ => by
    rw [hp] at hq
    cases hq
    omega

end
end Sys2Proof.Machine

open Sys2Proof Sys2Proof.Machine in
/-- Settles O49: each row of the pass has its equation where it is due, and has no effect where it is not. -/
theorem finingPass : Obligations.FiningPass := by
  intro s
  refine ⟨fun n q hq => ⟨execFiningPrepDone_goesOn hq, fun p t0 hprepared hpass hp hnoted =>
      ⟨execFiningPrepDone_waits hq hprepared hpass hp hnoted, fun hon hout => ?_⟩⟩, fun hp => ?_, fun p hp => ?_,
    fun n k r hr hk hb => State.reg_clearTenant hr hk hb⟩
  · exact ⟨_, _, _, execFiningPrepDone_starts hq hprepared hpass hp hnoted hon hout, rfl, State.startPass_tenant n p, rfl, rfl,
      State.startPass_pass n p, rfl, rfl, rfl, rfl⟩
  · have notDue := execFiningPassEnd_notDue (s := s) fun p h => by rw [hp] at h; cases h
    simp only [exec, notDue, and_true]
    simp [execQuietWindowClose, execScrubUnitVisit, execFiningSramZero, State.sramZero, hp]
  · refine ⟨fun hd hdue => ?_, fun early => ?_, execFiningPassEnd_early hp, fun hd hleft hdue => ?_, fun early => ?_,
      fun hd hz hidle => ?_, fun hbusy => ?_, fun hd hdue => ?_⟩
    · have e := execQuietWindowClose_due hp hd hdue
      have tenants := tenants_quietWindowClose hp hd hdue e
      exact ⟨_, s.keyless p.tenant, _, e, by rw [tenants, Map.get?_set_self], rfl, rfl, rfl,
        pass_quietWindowClose hp hd hdue e, rfl, rfl, rfl, fun k hk => by rw [tenants, Map.get?_set_ne _ _ _ _ hk]⟩
    · simp only [exec, execQuietWindowClose, hp]
      rw [if_neg (by omega)]
    · obtain ⟨u, hu, hpass, htenants⟩ := execScrubUnitVisit_due hp hd hleft hdue
      exact ⟨u, _, hu, hpass, rfl, rfl, htenants⟩
    · simp only [exec, execScrubUnitVisit, hp]
      rw [if_neg (by omega)]
    · refine ⟨_, _, execFiningSramZero_due hp hd hz hidle, rfl, rfl, rfl, fun k x hx => ?_⟩
      rw [Map.get?_map] at hx
      obtain ⟨y, _, rfl⟩ := Option.map_eq_some_iff.mp hx
      rfl
    · simp [exec, execFiningSramZero, hbusy]
    · obtain ⟨u, hu, htenants, hpass, hcmd⟩ := execFiningPassEnd_closes hp hd hdue
      exact ⟨u, hu, by rw [htenants, Map.get?_erase_self], fun k hk => by rw [htenants, Map.get?_erase_ne _ _ _ hk], hpass,
        hcmd⟩
end

section
/-! # Free numbers of a table -/
namespace Sys2Proof.Machine
variable {α : Type} {m : Map α} {lo fuel i k : Nat}

theorem Map.freeFrom_some (h : m.freeFrom lo fuel = some i) : i < lo + fuel ∧ m.get? i = none := by
  induction fuel generalizing lo with
  | zero => cases h
  | succ fuel ih =>
    unfold Map.freeFrom at h
    split at h
    · obtain ⟨hi, hfree⟩ := ih h
      exact ⟨by omega, hfree⟩
    next hlo =>
      cases h
      exact ⟨by omega, by simpa [Map.has] using hlo⟩

theorem Map.freeFrom_none (h : m.freeFrom lo fuel = none) (hlo : lo ≤ k) (hk : k < lo + fuel) : m.has k = true := by
  induction fuel generalizing lo with
  | zero => omega
  | succ fuel ih =>
    unfold Map.freeFrom at h
    split at h
    next hhas =>
      by_cases e : k = lo
      · rwa [e]
      · exact ih h (by omega) (by omega)
    · cases h

theorem Map.mem_keys_of_has (h : m.has k = true) : k ∈ m.keys := by
  obtain ⟨v, hv⟩ := Option.isSome_iff_exists.mp h
  exact List.mem_map.mpr ⟨_, Map.mem_of_get? m k v hv, rfl⟩

/-- A table with fewer entries than numbers leaves a number free. -/
theorem Map.exists_freeFrom (h : m.size < fuel) : ∃ i, m.freeFrom 0 fuel = some i := by
  cases e : m.freeFrom 0 fuel with
  | some i => exact ⟨i, rfl⟩
  | none =>
    have listed : List.range fuel ⊆ m.keys := fun k hk =>
      Map.mem_keys_of_has (Map.freeFrom_none e (Nat.zero_le k) (by simpa using hk))
    have := (List.nodup_range.subperm listed).length_le
    simp only [List.length_range, Map.keys, List.length_map] at this
    unfold Map.size at h
    omega

/-- What a filter lists satisfies its predicate. -/
theorem Map.of_get?_filter {p : Nat → α → Bool} {v : α} (h : (m.filter p).get? k = some v) : p k v = true :=
  (List.mem_filter.mp (Map.mem_of_get? _ k v h)).2

theorem Map.filter_of_forall {p : Nat → α → Bool} (h : ∀ k v, p k v = true) : m.filter p = m := by
  unfold Map.filter
  rw [List.filter_eq_self.mpr fun e _ => h e.1 e.2]

end Sys2Proof.Machine
end

section
/-! # Keys come in, are bound, discarded and revoked -/
namespace Sys2Proof.Machine
variable {s t : State}

/-- The staged key `k` has come in (R441, R451): it takes a free entry of the store, a SET key a free set slot too. -/
def State.Takes (s t : State) (k : StagedKey) : Prop :=
  (∃ i, i < 256 ∧ s.sec.staged.get? i = none ∧ t.sec.staged.get? i = some k ∧
    ∀ j, j ≠ i → t.sec.staged.get? j = s.sec.staged.get? j) ∧
  (k.kind = 4 → ∃ i, i < 4 ∧ s.sec.setKeys.get? i = none ∧ t.sec.setKeys.get? i = some k ∧
    ∀ j, j ≠ i → t.sec.setKeys.get? j = s.sec.setKeys.get? j) ∧
  (k.kind ≠ 4 → t.sec.setKeys = s.sec.setKeys) ∧ t.tenants = s.tenants ∧ t.sec.ckk = s.sec.ckk

theorem State.Takes.congr {u v : State} {k : StagedKey} (h : s.Takes t k) (hs : u.sec = s.sec) (hst : u.tenants = s.tenants)
    (ht : v.sec = t.sec) (htt : v.tenants = t.tenants) : u.Takes v k := by
  unfold State.Takes at *
  rwa [hs, hst, ht, htt]

/-- A table with one more entry, at a number that was free. -/
theorem Map.get?_set_free {α : Type} {m : Map α} {n i : Nat} {v : α} (h : m.freeFrom 0 n = some i) :
    i < n ∧ m.get? i = none ∧ (m.set i v).get? i = some v ∧ ∀ j, j ≠ i → (m.set i v).get? j = m.get? j := by
  obtain ⟨hi, hfree⟩ := Map.freeFrom_some h
  exact ⟨by omega, hfree, Map.get?_set_self .., fun j hj => Map.get?_set_ne _ _ _ _ hj⟩

/-- A key that the store has room for comes in. -/
theorem State.takes_stage {k : StagedKey} (h : s.storeFull k.kind = false) : s.Takes (s.stage k) k := by
  simp only [State.storeFull, Bool.or_eq_false_iff, decide_eq_false_iff_not, Bool.and_eq_false_iff, beq_eq_false_iff_ne,
    not_le] at h
  obtain ⟨hstaged, hset⟩ := h
  obtain ⟨i, hi⟩ := Map.exists_freeFrom hstaged
  by_cases hkind : k.kind = 4
  · obtain ⟨j, hj⟩ := Map.exists_freeFrom (hset.resolve_left (absurd hkind))
    have e : s.stage k = s.onSec (fun e => { e with
        staged := e.staged.set i k, revoked := e.revoked.filter (· != k.ref), setKeys := e.setKeys.set j k }) := by
      simp only [State.stage, hi, State.onSec, hkind, hj, if_true]
    rw [e]
    exact ⟨⟨i, Map.get?_set_free hi⟩, fun _ => ⟨j, Map.get?_set_free hj⟩, fun h => absurd hkind h, rfl, rfl⟩
  · have e : s.stage k = s.onSec (fun e => { e with
        staged := e.staged.set i k, revoked := e.revoked.filter (· != k.ref) }) := by
      simp only [State.stage, hi, hkind, if_false]
    rw [e]
    exact ⟨⟨i, Map.get?_set_free hi⟩, fun h => absurd h hkind, fun _ => rfl, rfl, rfl⟩

@[simp] theorem State.stage_frame (k : StagedKey) :
    (s.stage k).regs = s.regs ∧ (s.stage k).out = s.out ∧ (s.stage k).tenants = s.tenants := by
  simp only [State.stage]
  (repeat' split) <;> exact ⟨rfl, rfl, rfl⟩

/-! ## The key mailbox -/

/-- The record that stands in the key mailbox. -/
def State.mailbox (s : State) : List Byte := leBytes (s.reg .SEC1_KEYIN_RECORD) 128

/-- A record that the mailbox accepts has room in the store and unwraps to a key (R468). -/
theorem State.of_keyinResult {r : List Byte} (h : s.keyinResult r = 0) :
    s.storeFull 3 = false ∧ ∃ k, s.mailboxKey r = some k := by
  simp only [State.keyinResult] at h
  repeat' split at h
  all_goals cases h
  next hfull hkey =>
    simp only [Bool.not_eq_true, Bool.or_eq_false_iff, Option.isNone_eq_false_iff, Option.isSome_iff_exists] at hfull hkey
    exact ⟨hfull, hkey.2⟩

section
variable {v : Word} (hlive : s.live = true) (hgo : bitAt v.toNat 0 = true)
include hlive

theorem execKeyinGo_idle (h : bitAt v.toNat 0 = false) : execKeyinGo v s = .next s.ungate := by
  simp [execKeyinGo, State.touch_live hlive, h]

include hgo

theorem execKeyinGo_go : execKeyinGo v s = .next (
    let u := s.ungate.setReg .SEC1_KEYIN_STAT_RESULT (s.ungate.keyinResult s.mailbox)
    if s.ungate.keyinResult s.mailbox = 0 then
      u.stage { kind := 3, ref := leAt s.mailbox 0 16, key := (u.mailboxKey s.mailbox).getD [] }
    else u) := by
  simp only [execKeyinGo, State.touch_live hlive, State.live_ungate, hlive, hgo, and_self, if_true]
  rfl

theorem execKeyinGo_refused (h : s.ungate.keyinResult s.mailbox ≠ 0) :
    execKeyinGo v s = .next (s.ungate.setReg .SEC1_KEYIN_STAT_RESULT (s.ungate.keyinResult s.mailbox)) := by
  rw [execKeyinGo_go hlive hgo]
  simp only [h, if_false]

theorem execKeyinGo_accepted (h : s.ungate.keyinResult s.mailbox = 0) :
    ∃ t k, s.ungate.mailboxKey s.mailbox = some k ∧ execKeyinGo v s = .next t ∧ t.reg .SEC1_KEYIN_STAT_RESULT = 0 ∧
      s.Takes t { kind := 3, ref := leAt s.mailbox 0 16, key := k } := by
  obtain ⟨hroom, k, hk⟩ := State.of_keyinResult h
  have hk' : (s.ungate.setReg .SEC1_KEYIN_STAT_RESULT 0).mailboxKey s.mailbox = some k := by
    simpa [State.mailboxKey] using hk
  refine ⟨_, k, hk, execKeyinGo_go hlive hgo, ?_, ?_⟩
  · simp only [h, if_true]
    rw [State.reg_congr (State.stage_frame _).1, State.reg_setReg_self, Nat.zero_mod]
  · simp only [h, if_true, hk', Option.getD_some]
    refine State.Takes.congr (State.takes_stage ?_) (by simp) (by simp) rfl rfl
    simpa [State.storeFull] using hroom

end

/-! ## KEY_DISCARD and SET_REVOKE -/

/-- The island once the staged key `k` in entry `i` is discarded. -/
def Sec.discard (e : Sec) (i : Nat) (k : StagedKey) : Sec :=
  { e with staged := e.staged.erase i, setKeys := e.setKeys.filter (fun _ x => !(k.kind == 4 && x.ref == k.ref)) }

/-- The island once the set key `k` in slot `j` is revoked. -/
def Sec.revoke (e : Sec) (j : Nat) (k : StagedKey) : Sec :=
  { e with setKeys := e.setKeys.erase j, revoked := k.ref :: e.revoked,
           staged := e.staged.filter (fun _ x => !(x.kind == 4 && x.ref == k.ref)) }

/-- A table without the set keys of a KEY_REF holds none of them. -/
theorem ref_ne_of_filter {m : Map StagedKey} {b : StagedKey → Bool} {ref j : Nat} {x : StagedKey}
    (h : (m.filter (fun _ y => !(b y && y.ref == ref))).get? j = some x) (hb : b x = true) : x.ref ≠ ref := by
  simpa [hb] using Map.of_get?_filter h

theorem Sec.setKeys_discard {e : Sec} {i : Nat} {k : StagedKey} (h : k.kind ≠ 4) : (e.discard i k).setKeys = e.setKeys := by
  have all : e.setKeys.filter (fun _ x => !(k.kind == 4 && x.ref == k.ref)) = e.setKeys :=
    Map.filter_of_forall fun _ _ => by simp [h]
  exact all

section
variable (hlive : s.live = true)
include hlive

theorem execKeyDiscard_none (h : s.sec.staged.get? (s.reg .SEC1_KEY_SEL_INDEX) = none) :
    execKeyDiscard s = .next s.ungate := by
  have h' : s.ungate.sec.staged.get? (s.ungate.reg .SEC1_KEY_SEL_INDEX) = none := h
  simp only [execKeyDiscard, State.touch_live hlive, State.live_ungate, hlive, if_true, h']

theorem execKeyDiscard_some {k : StagedKey} (h : s.sec.staged.get? (s.reg .SEC1_KEY_SEL_INDEX) = some k) :
    execKeyDiscard s = .next (s.ungate.onSec (Sec.discard · (s.reg .SEC1_KEY_SEL_INDEX) k)) := by
  have h' : s.ungate.sec.staged.get? (s.ungate.reg .SEC1_KEY_SEL_INDEX) = some k := h
  simp only [execKeyDiscard, State.touch_live hlive, State.live_ungate, hlive, if_true, h']
  rfl

theorem execSetRevoke_none (h : s.sec.setKeys.get? (s.reg .SEC2_SET_SEL_SET) = none) :
    execSetRevoke s = .next s.ungate := by
  have h' : s.ungate.sec.setKeys.get? (s.ungate.reg .SEC2_SET_SEL_SET) = none := h
  simp only [execSetRevoke, State.touch_live hlive, State.live_ungate, hlive, if_true, h']

theorem execSetRevoke_some {k : StagedKey} (h : s.sec.setKeys.get? (s.reg .SEC2_SET_SEL_SET) = some k) :
    execSetRevoke s = .next (s.ungate.onSec (Sec.revoke · (s.reg .SEC2_SET_SEL_SET) k)) := by
  have h' : s.ungate.sec.setKeys.get? (s.ungate.reg .SEC2_SET_SEL_SET) = some k := h
  simp only [execSetRevoke, State.touch_live hlive, State.live_ungate, hlive, if_true, h']
  rfl

/-! ## TEN_BIND and CKPT_BIND -/

/-- The state once TEN_BIND.STAGED, or CKPT_BIND.STAGED, names entry `i`. -/
def State.selects (s : State) (r : Reg) (i : Nat) : State := s.ungate.setReg r i

/-- A tenant whose current transport key is the staged key `k` (R458). -/
def Tenant.bind (x : Tenant) (k : StagedKey) : Tenant :=
  { x with ttks := (k.ref :: x.ttks).take 4, ttkKeys := (k.key :: x.ttkKeys).take 4, localOnly := false }

section
variable {v : Word}

theorem execTenBindGo_only (h : bitAt v.toNat 31 = false) :
    execTenBindGo v s = .next (s.selects .SEC2_TEN_BIND_STAGED (v.toNat % 256)) := by
  simp only [execTenBindGo, State.touch_live hlive, State.live_ungate, hlive, if_true, h, Bool.false_eq_true, if_false]
  rfl

theorem execCkptBindGo_only (h : bitAt v.toNat 31 = false) :
    execCkptBindGo v s = .next (s.selects .SEC2_CKPT_BIND_STAGED (v.toNat % 256)) := by
  simp only [execCkptBindGo, State.touch_live hlive, State.live_ungate, hlive, if_true, h, Bool.false_eq_true, if_false]
  rfl

variable (hgo : bitAt v.toNat 31 = true)
include hgo

/-- A GO of TEN_BIND, by the staged entry that it names. -/
theorem execTenBindGo_go : execTenBindGo v s = .next (
    let i := v.toNat % 256
    let n := s.reg .SEC2_TEN_SEL_TENANT
    let u := s.selects .SEC2_TEN_BIND_STAGED i
    match s.sec.staged.get? i with
    | some k =>
      if k.kind = 1 ∧ k.owner = n ∧ s.tenantOpen n = true then
        (u.setTenant n ((s.tenant n).bind k)).onSec (fun e => { e with staged := e.staged.erase i })
      else u.recErr pgSec2 0x0010
    | none => u.recErr pgSec2 0x0010) := by
  have hsec : (s.ungate.setReg .SEC2_TEN_BIND_STAGED (v.toNat % 256)).sec = s.sec := by simp
  have htenants : (s.ungate.setReg .SEC2_TEN_BIND_STAGED (v.toNat % 256)).tenants = s.tenants := by simp
  simp only [execTenBindGo, State.touch_live hlive, State.live_ungate, hlive, if_true, hgo, hsec, State.tenantOpen,
    State.tenant, htenants]
  rfl

/-- A GO of CKPT_BIND, by the staged entry that it names. -/
theorem execCkptBindGo_go : execCkptBindGo v s = .next (
    let i := v.toNat % 256
    let u := s.selects .SEC2_CKPT_BIND_STAGED i
    match s.sec.staged.get? i with
    | some k =>
      if k.kind = 2 then u.onSec (fun e => { e with ckk := some k.ref, ckkKey := k.key, staged := e.staged.erase i })
      else u.recErr pgSec2 0x0010
    | none => u.recErr pgSec2 0x0010) := by
  have hsec : (s.ungate.setReg .SEC2_CKPT_BIND_STAGED (v.toNat % 256)).sec = s.sec := by simp
  simp only [execCkptBindGo, State.touch_live hlive, State.live_ungate, hlive, if_true, hgo, hsec]
  rfl

theorem execTenBindGo_bind {k : StagedKey} (h : s.sec.staged.get? (v.toNat % 256) = some k) (hkind : k.kind = 1)
    (howner : k.owner = s.reg .SEC2_TEN_SEL_TENANT) (hopen : s.tenantOpen (s.reg .SEC2_TEN_SEL_TENANT) = true) :
    execTenBindGo v s = .next (
      let n := s.reg .SEC2_TEN_SEL_TENANT
      ((s.selects .SEC2_TEN_BIND_STAGED (v.toNat % 256)).setTenant n ((s.tenant n).bind k)).onSec
        (fun e => { e with staged := e.staged.erase (v.toNat % 256) })) := by
  simp only [execTenBindGo_go hlive hgo, h, hkind, howner, hopen, and_self, if_true]

theorem execTenBindGo_refused (h : ∀ k, s.sec.staged.get? (v.toNat % 256) = some k →
      k.kind ≠ 1 ∨ k.owner ≠ s.reg .SEC2_TEN_SEL_TENANT ∨ s.tenantOpen (s.reg .SEC2_TEN_SEL_TENANT) = false) :
    execTenBindGo v s = .next ((s.selects .SEC2_TEN_BIND_STAGED (v.toNat % 256)).recErr pgSec2 0x0010) := by
  simp only [execTenBindGo_go hlive hgo]
  split
  next k hk =>
    rw [if_neg]
    rintro ⟨hkind, howner, hopen⟩
    rcases h k hk with e | e | e
    · exact e hkind
    · exact e howner
    · rw [hopen] at e; cases e
  · rfl

theorem execCkptBindGo_bind {k : StagedKey} (h : s.sec.staged.get? (v.toNat % 256) = some k) (hkind : k.kind = 2) :
    execCkptBindGo v s = .next ((s.selects .SEC2_CKPT_BIND_STAGED (v.toNat % 256)).onSec
      (fun e => { e with ckk := some k.ref, ckkKey := k.key, staged := e.staged.erase (v.toNat % 256) })) := by
  simp only [execCkptBindGo_go hlive hgo, h, hkind, if_true]

theorem execCkptBindGo_refused (h : ∀ k, s.sec.staged.get? (v.toNat % 256) = some k → k.kind ≠ 2) :
    execCkptBindGo v s = .next ((s.selects .SEC2_CKPT_BIND_STAGED (v.toNat % 256)).recErr pgSec2 0x0010) := by
  simp only [execCkptBindGo_go hlive hgo]
  split
  next k hk => rw [if_neg (h k hk)]
  · rfl

end
end

@[simp] theorem State.selects_frame (r : Reg) (i : Nat) :
    (s.selects r i).sec = s.sec ∧ (s.selects r i).tenants = s.tenants := by
  simp [State.selects]

/-! ## KEY_DELIVER -/

/-- What the island answers to a KEY_DELIVER, with its RESULT (R440). -/
def deliverAnswer (r : Nat) : OutMsg := .vendor (leBytes 0x81 1 ++ leBytes r 1 ++ leBytes 0 2)

/-- The key of a KEY_DELIVER payload that comes in over session `i`. -/
def State.deliveredKey (s : State) (i : Nat) (p : List Byte) : StagedKey :=
  { kind := leAt p 20 1, ref := leAt p 4 16, owner := leAt p 22 2
    key := Config.unwrapKey (deliverKey (s.exportSecret i)) (slice p 24 40) }

theorem State.room_of_deliverResult {p : List Byte} {w : Bool} (h : s.deliverResult p w = 0) :
    s.storeFull (leAt p 20 1) = false := by
  simp only [State.deliverResult] at h
  repeat' split at h
  all_goals cases h
  next hfull _ => exact Bool.not_eq_true _ ▸ hfull

section
variable {p : List Byte} {w : Bool} (hup : s.islandUp = true)
include hup

theorem execKeyDeliver_insecure {session : Option Nat} (h : s.secure session = false) :
    execKeyDeliver session p w s = .next (s.send (.spdmError .unexpectedRequest)) := by
  simp [execKeyDeliver, State.atIsland, hup, h]

theorem execKeyDeliver_refused {i : Nat} (h : s.secure (some i) = true) (hr : s.deliverResult p w ≠ 0) :
    execKeyDeliver (some i) p w s = .next (s.send (deliverAnswer (s.deliverResult p w))) := by
  simp only [execKeyDeliver, State.atIsland, hup, h, hr, Bool.not_true, Bool.false_eq_true, if_true, if_false]
  rfl

theorem execKeyDeliver_accepted {i : Nat} (h : s.secure (some i) = true) (hr : s.deliverResult p w = 0) :
    execKeyDeliver (some i) p w s = .next ((s.stage (s.deliveredKey i p)).send (deliverAnswer 0)) := by
  simp only [execKeyDeliver, State.atIsland, hup, h, hr, Bool.not_true, Bool.false_eq_true, if_true, if_false]
  rfl

end

theorem State.takes_delivered {p : List Byte} {w : Bool} (i : Nat) (h : s.deliverResult p w = 0) (m : OutMsg) :
    s.Takes ((s.stage (s.deliveredKey i p)).send m) (s.deliveredKey i p) :=
  State.Takes.congr (State.takes_stage (k := s.deliveredKey i p) (State.room_of_deliverResult h)) rfl rfl rfl rfl

/-! ## Streams -/

/-- Stream `m` has taken the next generation of its keys, with K_SET_GO (R452). -/
def State.Keyed (s t : State) (m : Nat) (secret : List Byte) (set : Bool) : Prop :=
  (t.stream m).active = true ∧ (t.stream m).failed = false ∧ (t.stream m).gen = ((s.stream m).gen + 1) % 2 ^ 32 ∧
  (t.stream m).keySet = set ∧ (t.stream m).secret = secret ∧ (t.stream m).keys = ideKeys secret m (t.stream m).gen ∧
  t.out = .keySetGo m (t.stream m).gen :: s.out ∧ (∀ k, k ≠ m → t.stream k = s.stream k) ∧
  t.tenants = s.tenants ∧ t.sec.staged = s.sec.staged

@[simp] theorem State.stream_send (m : OutMsg) (k : Nat) : (s.send m).stream k = s.stream k := rfl

theorem State.stream_streamGo_self (m : Nat) (toggle : Bool) :
    (s.streamGo m toggle).stream m = (s.stream m).next m toggle := by
  simp [State.streamGo, State.stream_setStream]

theorem State.stream_streamGo_ne {m k : Nat} (toggle : Bool) (h : k ≠ m) : (s.streamGo m toggle).stream k = s.stream k := by
  simp [State.streamGo, State.stream_setStream, h]

theorem State.keyed_streamGo (m : Nat) (toggle : Bool) :
    s.Keyed (s.streamGo m toggle) m (s.stream m).secret (if toggle then !(s.stream m).keySet else (s.stream m).keySet) := by
  unfold State.Keyed
  rw [State.stream_streamGo_self]
  exact ⟨rfl, rfl, rfl, rfl, rfl, rfl, rfl, fun k hk => State.stream_streamGo_ne toggle hk, rfl, rfl⟩

theorem State.Keyed.congr {u : State} {m : Nat} {secret : List Byte} {set : Bool} (h : s.Keyed t m secret set)
    (hstream : ∀ k, k ≠ m → u.stream k = s.stream k) (hgen : (u.stream m).gen = (s.stream m).gen) (hout : u.out = s.out)
    (htenants : u.tenants = s.tenants) (hstaged : u.sec.staged = s.sec.staged) : u.Keyed t m secret set := by
  obtain ⟨h1, h2, h3, h4, h5, h6, h7, h8, h9, h10⟩ := h
  exact ⟨h1, h2, hgen ▸ h3, h4, h5, h6, hout ▸ h7, fun k hk => (h8 k hk).trans (hstream k hk).symm, htenants ▸ h9, hstaged ▸ h10⟩

theorem execStreamAutoRekey_active {m : Nat} (h : (s.stream m).active = true) :
    execStreamAutoRekey m s = .next (s.streamGo m true) := by
  simp [execStreamAutoRekey, h]

theorem execStreamAutoRekey_inactive {m : Nat} (h : (s.stream m).active = false) : execStreamAutoRekey m s = .next s := by
  simp [execStreamAutoRekey, h]

/-- The stream that STREAM_SEL names. -/
def State.selStream (s : State) : Nat := s.reg .SEC3_STREAM_SEL_STREAM

@[simp] theorem State.stream_ungate (k : Nat) : s.ungate.stream k = s.stream k := rfl

theorem State.keyed_streamOver (m session : Nat) :
    s.Keyed ((s.ungate.streamOver m session).streamGo m false) m (s.exportSecret session) (s.stream m).keySet := by
  have self : (s.ungate.streamOver m session).stream m
      = { s.stream m with partner := session, secret := s.exportSecret session } := by
    rw [State.streamOver, State.stream_setStream, if_pos rfl]
    rfl
  have h := (s.ungate.streamOver m session).keyed_streamGo m false
  rw [self] at h
  refine h.congr (fun k hk => ?_) (by rw [self]) rfl rfl rfl
  rw [State.streamOver, State.stream_setStream, if_neg hk, State.stream_ungate]

section
variable (hlive : s.live = true)
include hlive

theorem execStreamStart_secure (hn : s.selStream ≠ 0)
    (h : s.secure (some (s.reg .SEC3_STREAM_SESS_SESSION s.selStream)) = true) :
    execStreamStart s = .next ((s.ungate.streamOver s.selStream (s.reg .SEC3_STREAM_SESS_SESSION s.selStream)).streamGo
      s.selStream false) := by
  have h' : s.ungate.secure (some (s.ungate.reg .SEC3_STREAM_SESS_SESSION (s.ungate.reg .SEC3_STREAM_SEL_STREAM))) = true := h
  have hn' : s.ungate.reg .SEC3_STREAM_SEL_STREAM ≠ 0 := hn
  simp only [execStreamStart, State.touch_live hlive, State.live_ungate, hlive, hn', h', ne_eq, not_false_eq_true, and_self,
    if_true]
  rfl

theorem execStreamStart_insecure (hn : s.selStream ≠ 0)
    (h : s.secure (some (s.reg .SEC3_STREAM_SESS_SESSION s.selStream)) = false) :
    execStreamStart s = .next (s.ungate.recErr pgSec3 0x0004) := by
  have h' : s.ungate.secure (some (s.ungate.reg .SEC3_STREAM_SESS_SESSION (s.ungate.reg .SEC3_STREAM_SEL_STREAM))) = false := h
  have hn' : s.ungate.reg .SEC3_STREAM_SEL_STREAM ≠ 0 := hn
  simp only [execStreamStart, State.touch_live hlive, State.live_ungate, hlive, hn', h', ne_eq, not_false_eq_true, and_self,
    if_true, Bool.false_eq_true, if_false]

theorem execStreamStop_live : execStreamStop s = .next (s.ungate.streamStop s.selStream) := by
  simp only [execStreamStop, State.touch_live hlive, State.live_ungate, hlive, if_true]
  rfl

theorem execStreamStop_inactive (h : (s.stream s.selStream).active = false) : execStreamStop s = .next s.ungate := by
  rw [execStreamStop_live hlive]
  simp [State.streamStop, h]

theorem execStreamRekey_active (h : (s.stream s.selStream).active = true) :
    execStreamRekey s = .next (s.ungate.streamGo s.selStream true) := by
  have h' : (s.ungate.stream (s.ungate.reg .SEC3_STREAM_SEL_STREAM)).active = true := h
  simp only [execStreamRekey, State.touch_live hlive, State.live_ungate, hlive, h', Bool.and_self, if_true]
  rfl

theorem execStreamRekey_inactive (h : (s.stream s.selStream).active = false) : execStreamRekey s = .next s.ungate := by
  have h' : (s.ungate.stream (s.ungate.reg .SEC3_STREAM_SEL_STREAM)).active = false := h
  simp only [execStreamRekey, State.touch_live hlive, h', Bool.and_false, Bool.false_eq_true, if_false]

end

/-- A stream that is stopped: K_SET_STOP, and its keys are gone (R470). -/
theorem State.streamStop_active {m : Nat} (h : (s.stream m).active = true) :
    ((s.streamStop m).stream m).active = false ∧ ((s.streamStop m).stream m).keys = [] ∧
    ((s.streamStop m).stream m).secret = [] ∧ ((s.streamStop m).stream m).gen = (s.stream m).gen ∧
    (s.streamStop m).out = .keySetStop m :: s.out ∧ ∀ k, k ≠ m → (s.streamStop m).stream k = s.stream k := by
  rw [State.streamStop, if_pos h]
  simp only [State.stream_send, State.stream_setStream, if_true]
  exact ⟨trivial, trivial, trivial, trivial, rfl, fun k hk => if_neg hk⟩

end Sys2Proof.Machine

open Sys2Proof Sys2Proof.Machine in
/-- Settles O46: each row of the keys and of the streams has its equation in each of its cases. -/
theorem keysAndStreams : Obligations.KeysAndStreams := by
  refine ⟨fun s => ⟨fun hl => ⟨fun v => ?mailbox, ?discard, fun v => ?bind, ?revoke⟩, fun i p w hup => ?deliver⟩,
    fun s => ⟨fun hl hn => ?start, fun hl => ⟨fun h => ?active, fun h => ?inactive⟩, fun m => ?auto⟩⟩
  case mailbox =>
    exact ⟨execKeyinGo_idle hl, fun hgo => ⟨execKeyinGo_accepted hl hgo, execKeyinGo_refused hl hgo⟩⟩
  case discard =>
    exact ⟨execKeyDiscard_none hl, fun k hk => ⟨_, execKeyDiscard_some hl hk, Map.get?_erase_self ..,
      fun j hj => Map.get?_erase_ne _ _ _ hj, rfl, rfl,
      fun hkind j x hx => ref_ne_of_filter (b := fun _ => k.kind == 4) hx (by simp [hkind]),
      fun hkind j => congrArg (·.get? j) (Sec.setKeys_discard hkind)⟩⟩
  case bind =>
    refine ⟨fun h => ⟨execTenBindGo_only hl h, execCkptBindGo_only hl h⟩, fun hgo => ⟨fun k hk hkind howner hopen => ?_,
      execTenBindGo_refused hl hgo, fun k hk hkind => ?_, execCkptBindGo_refused hl hgo⟩⟩
    · have self (u : State) (f : Sec → Sec) (n : Nat) (x : Tenant) : ((u.setTenant n x).onSec f).tenant n = x := by
        simp [State.tenant, State.setTenant]
      have opened : (s.tenant (s.reg .SEC2_TEN_SEL_TENANT)).state = .opened := by simpa [State.tenantOpen] using hopen
      refine ⟨_, execTenBindGo_bind hl hgo hk hkind howner hopen, ?_⟩
      simp only [self]
      refine ⟨rfl, rfl, rfl, opened, rfl, ?_, fun m hm => ?_⟩
      · simp [State.onSec]
      · simp [State.setTenant, Map.get?_set_ne _ _ _ _ hm]
    · exact ⟨_, execCkptBindGo_bind hl hgo hk hkind, rfl, rfl, by simp [State.onSec], by simp⟩
  case revoke =>
    exact ⟨execSetRevoke_none hl, fun k hk => ⟨_, execSetRevoke_some hl hk, Map.get?_erase_self .., rfl,
      fun m hm => Map.get?_erase_ne _ _ _ hm,
      fun m x hx hkind => ref_ne_of_filter (b := fun y => y.kind == 4) hx (by simp [hkind])⟩⟩
  case deliver =>
    exact ⟨fun h hr => ⟨_, execKeyDeliver_accepted hup h hr, congrArg _ (State.stage_frame _).2.1,
      State.takes_delivered i hr _⟩, execKeyDeliver_refused hup, execKeyDeliver_insecure hup, execKeyDeliver_insecure hup rfl⟩
  case start =>
    exact ⟨fun h => ⟨_, execStreamStart_secure hl hn h, State.keyed_streamOver _ _⟩, execStreamStart_insecure hl hn⟩
  case active =>
    exact ⟨⟨_, execStreamStop_live hl, State.streamStop_active (s := s.ungate) h⟩, _, execStreamRekey_active hl h,
      State.keyed_streamGo (s := s.ungate) _ true⟩
  case inactive => exact ⟨execStreamStop_inactive hl h, execStreamRekey_inactive hl h⟩
  case auto =>
    exact ⟨fun h => ⟨_, execStreamAutoRekey_active h, State.keyed_streamGo m true⟩, execStreamAutoRekey_inactive⟩
end

section
/-! # Requests to the island -/
namespace Sys2Proof.Machine
variable {s t : State}

@[simp] theorem State.countSessions_frame :
    s.countSessions.sec = s.sec ∧ s.countSessions.tenants = s.tenants ∧ s.countSessions.out = s.out ∧
    s.countSessions.plat = s.plat := by
  simp [State.countSessions]

@[simp] theorem State.spdm_setSpdm (m : Map SpdmSession) : (s.setSpdm m).sec.spdm = m := by
  simp [State.setSpdm, State.onSec]

/-! ## SPDM sessions and the identity -/

section
variable (hup : s.islandUp = true)
include hup

theorem execSpdmRequest_up (q : SpdmReq) : execSpdmRequest q s = .next (s.spdm q) := by
  simp only [execSpdmRequest, State.atIsland, hup, if_true]

/-- KEY_EXCHANGE takes a free session number (R436). -/
theorem spdm_keyExchange {i p : Nat} {hb : Bool} (h : s.sec.spdm.freeFrom 0 16 = some i) :
    ∃ t, execSpdmRequest (.keyExchange hb p) s = .next t ∧
      t.sec.spdm = s.sec.spdm.set i { hbeat := hb, period := p * 1000000000, last := s.tick, opened := s.tick } := by
  refine ⟨_, execSpdmRequest_up hup _, ?_⟩
  simp only [State.spdm, h]
  exact State.spdm_setSpdm _

theorem spdm_keyExchange_full (h : s.sec.spdm.freeFrom 0 16 = none) (p : Nat) (hb : Bool) :
    execSpdmRequest (.keyExchange hb p) s = .next (s.send (.spdmError .sessionLimit)) := by
  simp only [execSpdmRequest_up hup, State.spdm, h]

theorem spdm_getDigests {d : Identity} (h : s.sec.identity = some d) :
    execSpdmRequest .getDigests s = .next (s.send (.digests d.digest)) := by
  simp only [execSpdmRequest_up hup, State.spdm, h]

theorem spdm_getCertificate {d : Identity} (h : s.sec.identity = some d) :
    execSpdmRequest .getCertificate s = .next (s.send (.certificates d.chain)) := by
  simp only [execSpdmRequest_up hup, State.spdm, h]

theorem spdm_finish {i : Nat} {x : SpdmSession} (h : s.sec.spdm.get? i = some x) :
    ∃ t, execSpdmRequest (.finish i) s = .next t ∧ t.secure (some i) = true := by
  refine ⟨_, execSpdmRequest_up hup _, ?_⟩
  simp only [State.spdm, h, State.secure, State.send, State.spdm_setSpdm, Map.get?_set_self, Option.map_some, Option.getD_some]

theorem spdm_endSession {i : Nat} {x : SpdmSession} (h : s.sec.spdm.get? i = some x) (hopen : x.isOpen = true) :
    ∃ t, execSpdmRequest (.endSession i) s = .next t ∧ t.secure (some i) = false := by
  have secure : s.secure (some i) = true := by simp [State.secure, h, hopen]
  refine ⟨_, execSpdmRequest_up hup _, ?_⟩
  simp only [State.spdm, secure, if_true]
  simp only [State.secure, State.send, State.spdm_setSpdm, Map.get?_erase_self, Option.map_none, Option.getD_none]

end

/-- A session whose heartbeat was missed has ended (R436). -/
theorem execSpdmHeartbeatTimeout_missed {i : Nat} {x : SpdmSession} (h : s.sec.spdm.get? i = some x) (hopen : x.isOpen = true)
    (hbeat : x.hbeat = true) (hlate : x.last + x.period < s.tick) :
    ∃ t, execSpdmHeartbeatTimeout i s = .next t ∧ t.sec.spdm.get? i = none := by
  refine ⟨_, rfl, ?_⟩
  simp only [h, hopen, hbeat, hlate, and_self, if_true, State.spdm_setSpdm, Map.get?_erase_self]

/-! ## Measurements -/

theorem execGetMeasurements_one (hup : s.islandUp = true) {i v : Nat} (hi : i ≠ 0xFF) (h : s.measurement i = some v) :
    execGetMeasurements i s = .next ((s.send (.measurements [measureBlock i v] (freeWords s.free 12))).useFree 12) := by
  simp only [execGetMeasurements, State.atIsland, hup, hi, if_true, if_false, List.filterMap_cons, List.filterMap_nil, h,
    Option.map_some, List.isEmpty_cons, Bool.false_eq_true]

/-! ## The life cycle -/

/-- No key is left in the island (R443). -/
theorem State.zeroise_sec : s.zeroise.sec.staged = ⟨[]⟩ ∧ s.zeroise.sec.ckk = none ∧ s.zeroise.sec.spdm = ⟨[]⟩ := by
  simp only [State.zeroise, State.countSessions_frame]
  exact ⟨rfl, rfl, rfl⟩

theorem State.zeroise_tenant {n : Nat} {x : Tenant} (h : s.zeroise.tenants.get? n = some x) :
    x.keys = false ∧ x.ttks = [] ∧ x.ttkKeys = [] := by
  simp only [State.zeroise, State.countSessions_frame, State.onSec, Map.get?_map] at h
  obtain ⟨y, _, rfl⟩ := Option.map_eq_some_iff.mp h
  exact ⟨rfl, rfl, rfl⟩

/-- The device whose life cycle has moved to `target`: the move to RMA destroys every key and the identity (R490). -/
def State.advanced (s : State) (target : Nat) : State :=
  let u := s.onPlat (fun p => { p with lifecycle := target })
  if target = 3 then
    (u.zeroise.onPlat (fun p => { p with fuseSeed := p.fuseSeed + 1 })).onSec (fun e => { e with identity := none })
  else u

/-- The answer to a LIFECYCLE_ADVANCE, with its RESULT (R491). -/
def advanceAnswer (r : Nat) : OutMsg := .vendor (leBytes 0x82 1 ++ leBytes r 1 ++ leBytes 0 2)

theorem State.advanced_frame (target : Nat) : (s.advanced target).plat.lifecycle = target ∧ (s.advanced target).out = s.out := by
  simp only [State.advanced]
  split <;> simp [State.zeroise, State.onPlat, State.onSec]

theorem State.advanced_rma :
    (s.advanced 3).sec.staged = ⟨[]⟩ ∧ (s.advanced 3).sec.ckk = none ∧ (s.advanced 3).sec.spdm = ⟨[]⟩ ∧
    (s.advanced 3).sec.identity = none ∧
    ∀ n x, (s.advanced 3).tenants.get? n = some x → x.keys = false ∧ x.ttks = [] ∧ x.ttkKeys = [] := by
  let u := s.onPlat (fun p => { p with lifecycle := 3 })
  obtain ⟨hstaged, hckk, hspdm⟩ := State.zeroise_sec (s := u)
  exact ⟨hstaged, hckk, hspdm, rfl, fun n x h => State.zeroise_tenant (s := u) h⟩

section
variable {p : List Byte} {y : Crypto} (hup : s.islandUp = true)
include hup

theorem execLifecycleAdvance_advances {i : Nat} (h : s.secure (some i) = true) (hr : s.advanceResult p y = 0) :
    execLifecycleAdvance (some i) true p y s = .next ((s.advanced (leAt p 2 1)).send (advanceAnswer 0)) := by
  simp only [execLifecycleAdvance, State.atIsland, hup, h, hr, Bool.and_true, Bool.not_true, Bool.false_eq_true, if_true,
    if_false, ne_eq, not_true_eq_false]
  rfl

theorem execLifecycleAdvance_refused {i : Nat} (h : s.secure (some i) = true) (hr : s.advanceResult p y ≠ 0) :
    execLifecycleAdvance (some i) true p y s = .next (s.send (advanceAnswer (s.advanceResult p y))) := by
  simp only [execLifecycleAdvance, State.atIsland, hup, h, hr, Bool.and_true, Bool.not_true, Bool.false_eq_true, if_true,
    if_false, ne_eq, not_false_eq_true]
  rfl

theorem execLifecycleAdvance_insecure {i : Option Nat} {m : Bool} (h : (s.secure i && m) = false) :
    execLifecycleAdvance i m p y s = .next (s.send (.spdmError .unexpectedRequest)) := by
  simp only [execLifecycleAdvance, State.atIsland, hup, h, Bool.not_false, if_true]

end

end Sys2Proof.Machine

open Sys2Proof Sys2Proof.Machine in
/-- Settles O47: each request has its equation, and what the move to RMA destroys is what the zeroisation empties. -/
theorem islandRequests : Obligations.IslandRequests := by
  intro s hup
  refine ⟨fun i p hb h => ?_, spdm_keyExchange_full hup, fun d hd => ⟨spdm_getDigests hup hd,
    spdm_getCertificate hup hd⟩, fun i x hx => ⟨spdm_finish hup hx, spdm_endSession hup hx, execSpdmHeartbeatTimeout_missed hx⟩,
    fun i v hi hv => execGetMeasurements_one hup hi hv, fun i p y h => ⟨fun hr => ?_, execLifecycleAdvance_refused hup h⟩,
    fun i m p y h => execLifecycleAdvance_insecure hup h, ?_, fun _ => ?_⟩
  · obtain ⟨t, ht, hspdm⟩ := spdm_keyExchange hup (p := p) (hb := hb) h
    exact ⟨t, ht, by rw [hspdm, Map.get?_set_self], fun j hj => by rw [hspdm, Map.get?_set_ne _ _ _ _ hj]⟩
  · obtain ⟨hlife, hout⟩ := State.advanced_frame (s := s) (leAt p 2 1)
    refine ⟨_, execLifecycleAdvance_advances hup h hr, hlife, congrArg _ hout, fun hrma => ?_, fun hdeployed => ?_⟩
    · rw [hrma]
      exact State.advanced_rma (s := s)
    · rw [hdeployed]
      exact ⟨rfl, rfl⟩
  · simp only [exec, execRngHealthFail, hup, if_true]
  · simp only [exec, execKeyMemoryUe, hup, if_true]
    exact ⟨_, rfl, State.failed_failPage _ _⟩
end

section
/-! # What power events and resets lose and keep -/
namespace Sys2Proof.Machine
variable {s t u : State}

/-- The volatile stores of `t` are lost; what lies outside the device, the fuses and the result store are those of `s`
(R472, R485). -/
def State.Lost (s t : State) : Prop :=
  t.sdir = {} ∧ t.tenants = ⟨[]⟩ ∧ t.sec = {} ∧ t.models = ⟨[]⟩ ∧ t.rings = ⟨[]⟩ ∧ t.cmds = ⟨[]⟩ ∧ t.window = ⟨[]⟩ ∧
  t.hbm = ⟨[]⟩ ∧ t.host = s.host ∧ t.fabric = s.fabric ∧ t.ckp.store = s.ckp.store ∧
  t.plat.lifecycle = s.plat.lifecycle ∧ t.plat.bankA = s.plat.bankA ∧ t.plat.bankB = s.plat.bankB

/-- A cold reset has led from `s` to `t`, with its cause (R485). -/
def State.Cold (s t : State) (cause : Reg) : Prop :=
  s.Lost t ∧ t.tick = s.tick ∧ t.bootEpoch = s.bootEpoch ∧ t.cane.sealedCount = s.cane.sealedCount ∧
  (∀ q, q ∈ causeRegs → t.regBit q = (q == cause)) ∧ t.pageState pgGlb = 0

theorem State.lost_fresh (p : Plat) : s.Lost (s.fresh p) :=
  ⟨rfl, rfl, rfl, rfl, rfl, rfl, rfl, rfl, rfl, rfl, rfl, rfl, rfl, rfl⟩

theorem State.lost_setReg (r : Reg) (v : Nat) (h : s.Lost t) : s.Lost (t.setReg r v) := by
  simpa [State.Lost] using h

theorem State.lost_powerOn (mv : Nat) : s.Lost (s.powerOn mv) := State.lost_setReg _ _ (State.lost_fresh _)

theorem State.lost_powerLost (phase : PowerPhase) (mv : Nat) : s.Lost (s.powerLost phase mv) :=
  State.lost_setReg _ _ (State.lost_fresh _)

/-! ## Registers that are set one after the other -/

/-- Each register of a list takes its value. -/
def State.setRegs (s : State) (l : List Reg) (g : Reg → Nat) : State := l.foldl (fun f r => f.setReg r (g r)) s

theorem State.reg_setRegs_of_notMem {l : List Reg} {g : Reg → Nat} {q : Reg} (h : q ∉ l) :
    (s.setRegs l g).reg q = s.reg q := by
  induction l generalizing s with
  | nil => rfl
  | cons r l ih =>
    simp only [List.mem_cons, not_or] at h
    exact (ih h.2).trans (State.reg_setReg_ne _ _ _ _ _ _ h.1 (by decide) (by decide))

theorem State.reg_setRegs_of_mem {l : List Reg} {g : Reg → Nat} {q : Reg} (h : q ∈ l) :
    (s.setRegs l g).reg q = g q % 2 ^ q.desc.width := by
  induction l generalizing s with
  | nil => cases h
  | cons r l ih =>
    by_cases hl : q ∈ l
    · exact ih hl
    · obtain rfl : q = r := (List.mem_cons.mp h).resolve_right hl
      exact (State.reg_setRegs_of_notMem hl).trans (State.reg_setReg_self ..)

theorem State.lost_setRegs (l : List Reg) (g : Reg → Nat) (h : s.Lost t) : s.Lost (t.setRegs l g) := by
  induction l generalizing t with
  | nil => exact h
  | cons r l ih => exact ih (State.lost_setReg r (g r) h)

@[simp] theorem State.setRegs_frame (l : List Reg) (g : Reg → Nat) :
    (s.setRegs l g).tick = s.tick ∧ (s.setRegs l g).bootEpoch = s.bootEpoch ∧ (s.setRegs l g).cane = s.cane ∧
    (s.setRegs l g).commons = s.commons ∧ (s.setRegs l g).plat = s.plat := by
  induction l generalizing s with
  | nil => exact ⟨rfl, rfl, rfl, rfl, rfl⟩
  | cons r l ih =>
    have h := ih (s := s.setReg r (g r))
    simp only [State.setReg_frame] at h
    exact h

/-- A row that acts where its condition holds. -/
theorem next_if_pos {p : Prop} [Decidable p] (h : p) :
    (Host.Outcome.next (if p then u else s) : Host.Outcome State Fault Refusal) = .next u := congrArg _ (if_pos h)

theorem next_if_neg {p : Prop} [Decidable p] (h : ¬p) :
    (Host.Outcome.next (if p then u else s) : Host.Outcome State Fault Refusal) = .next s := congrArg _ (if_neg h)

/-! ## Power on and off -/

theorem State.powerOn_on (mv : Nat) :
    (s.powerOn mv).tick = 0 ∧ (s.powerOn mv).plat.phase = .on ∧ (s.powerOn mv).regBit .RST_CAUSE_POWER_ON = true := by
  refine ⟨by simp only [State.powerOn, State.setReg_frame]; rfl, by simp only [State.powerOn, State.setReg_frame]; rfl, ?_⟩
  rw [State.powerOn, State.regBit, State.reg_setReg_ne _ _ _ _ _ _ (by decide) (by decide) (by decide)]
  rfl

theorem State.phase_powerLost (phase : PowerPhase) (mv : Nat) : (s.powerLost phase mv).plat.phase = phase := by
  simp only [State.powerLost, State.setReg_frame]
  rfl

/-! ## The cold reset -/

theorem causeRegs_width {q : Reg} (h : q ∈ causeRegs) : q.desc.width = 1 := by
  simp only [causeRegs, List.mem_cons, List.not_mem_nil, or_false] at h
  rcases h with rfl | rfl | rfl | rfl | rfl <;> rfl

theorem State.coldReset_setRegs (cause : Reg) (low : Bool) :
    s.coldReset cause low = ((s.coldFresh low).setRegs sparedRegs s.reg).setRegs causeRegs (fun r => b2n (r == cause)) := rfl

theorem State.cold_coldReset (cause : Reg) (low : Bool) : s.Cold (s.coldReset cause low) cause := by
  rw [State.coldReset_setRegs]
  refine ⟨State.lost_setRegs _ _ (State.lost_setRegs _ _ ⟨rfl, rfl, rfl, rfl, rfl, rfl, rfl, rfl, rfl, rfl, rfl, rfl, rfl, rfl⟩),
    by simp [State.coldFresh], by simp [State.coldFresh], by simp [State.coldFresh], fun q hq => ?_, ?_⟩
  · rw [State.regBit, State.reg_setRegs_of_mem hq, causeRegs_width hq]
    cases q == cause <;> rfl
  · rw [State.pageState_congr (s := s.coldFresh low) (by simp)]
    rfl

theorem State.plat_coldReset (cause : Reg) (low : Bool) :
    (s.coldReset cause low).plat.resetLow = low ∧ (s.coldReset cause low).plat.tap = s.plat.tap := by
  rw [State.coldReset_setRegs]
  simp only [State.setRegs_frame]
  exact ⟨rfl, rfl⟩

/-- A cold reset of a state that differs in what is lost anyway. -/
theorem State.Cold.congr {r : Reg} (h : u.Cold t r) (hhost : u.host = s.host) (hfabric : u.fabric = s.fabric)
    (hstore : u.ckp.store = s.ckp.store) (hlife : u.plat.lifecycle = s.plat.lifecycle) (hA : u.plat.bankA = s.plat.bankA)
    (hB : u.plat.bankB = s.plat.bankB) (htick : u.tick = s.tick) (hboot : u.bootEpoch = s.bootEpoch)
    (hsealed : u.cane.sealedCount = s.cane.sealedCount) : s.Cold t r := by
  unfold State.Cold State.Lost at *
  rwa [hhost, hfabric, hstore, hlife, hA, hB, htick, hboot, hsealed] at h

/-! ## FLR -/

theorem State.ring_haltRing (n k code : Nat) : ((haltRing s n code).ring k).state =
    if k = n ∧ (s.ring n).state = .enabled then .halted else (s.ring k).state := by
  simp only [haltRing, State.ringErr, State.ring_ringInt, State.ring_setRing]
  by_cases hk : k = n <;> simp [hk]

@[simp] theorem haltRing_frame (n code : Nat) :
    (haltRing s n code).host = s.host ∧ (haltRing s n code).cmds = s.cmds ∧
    (haltRing s n code).unmasked = s.unmasked := by
  simp [haltRing]

/-- The rings of a list go HALTED. -/
def State.haltAll (s : State) (l : List Nat) (code : Nat) : State := l.foldl (fun s n => haltRing s n code) s

@[simp] theorem State.haltAll_frame (l : List Nat) (code : Nat) :
    (s.haltAll l code).host = s.host ∧ (s.haltAll l code).cmds = s.cmds ∧ (s.haltAll l code).unmasked = s.unmasked := by
  unfold State.haltAll
  exact ⟨foldl_keeps State.host _ (by simp) _ _, foldl_keeps State.cmds _ (by simp) _ _,
    foldl_keeps State.unmasked _ (by simp) _ _⟩

theorem State.halted_stays {l : List Nat} {n code : Nat} (h : (s.ring n).state = .halted) :
    ((s.haltAll l code).ring n).state = .halted := by
  induction l generalizing s with
  | nil => exact h
  | cons m l ih =>
    refine ih ?_
    rw [State.ring_haltRing]
    split
    · rfl
    · exact h

theorem State.halted_haltAll {l : List Nat} {n code : Nat} (hn : n ∈ l) (h : (s.ring n).state = .enabled) :
    ((s.haltAll l code).ring n).state = .halted := by
  induction l generalizing s with
  | nil => cases hn
  | cons m l ih =>
    by_cases hm : n = m
    · exact State.halted_stays (s := haltRing s m code) (by rw [State.ring_haltRing, if_pos ⟨hm, hm ▸ h⟩])
    · refine ih ((List.mem_cons.mp hn).resolve_left hm) ?_
      rw [State.ring_haltRing, if_neg fun e => hm e.1, h]

/-- The ENABLED rings behind a function. -/
def State.ringsBehind (s : State) (f : Nat) : List Nat :=
  (s.rings.entries.filter (fun e => e.2.function == f && e.2.state == .enabled)).map (·.1)

/-- The MSI-X table of a function is reset (R485). -/
def State.resetTable (s : State) (f : Nat) : State :=
  { s with unmasked := s.unmasked.filter (fun v => v / 2048 != f)
           msixTable := s.msixTable.filter (fun v _ => v / 2048 != f)
           msixPending := s.msixPending.filter (fun v => v / 2048 != f) }

theorem execFlr_live {f : BitVec 4} (h : s.live = true) : execFlr f s =
    .next ((((s.haltAll (s.ringsBehind f.toNat) 0x0006).resetTable f.toNat).bump .RST_FLRS_COUNT).setIntBit pgRst 8) := by
  simp only [execFlr, h, if_true]
  rfl

/-- A function that no ring is behind. -/
theorem State.ringsBehind_none {f : Nat} (h : ∀ e ∈ s.rings.entries, e.2.function ≠ f) : s.ringsBehind f = [] := by
  rw [State.ringsBehind, List.filter_eq_nil_iff.mpr fun e he => by simp [h e he], List.map_nil]

theorem State.mem_ringsBehind {f n : Nat} {r : Ring} (h : s.rings.get? n = some r) (hf : r.function = f)
    (hen : r.state = .enabled) : n ∈ s.ringsBehind f :=
  List.mem_map.mpr ⟨(n, r), List.mem_filter.mpr ⟨Map.mem_of_get? _ _ _ h, by simp [hf, hen]⟩, rfl⟩

end Sys2Proof.Machine

open Sys2Proof Sys2Proof.Machine in
/-- Settles O51: what a power-on, a loss of power and a cold reset leave is said once for each, and every row is one of them
or has no effect. -/
theorem powerAndResets : Obligations.PowerAndResets := by
  intro s
  refine ⟨fun mv => ⟨?on, ?noRise, ?under, ?noUnder, ?above, ?noAbove, ?recovers, ?noRecovery⟩, fun c => ⟨?trips, ?noTrip⟩,
    ?resetN, ?noResetN, ?watchdog, ?noWatchdog, fun v hl => ⟨?software, ?noSoftware, ?wrongKey⟩,
    fun hp => ⟨?jtag, ?noJtag, ?scan⟩, fun f hl => ?flr⟩
  case on => exact fun h hp => ⟨_, next_if_pos ⟨h, hp⟩, State.lost_powerOn mv, State.powerOn_on mv⟩
  case noRise =>
    refine fun h => next_if_neg fun ⟨hmv, hp⟩ => ?_
    rcases h with h | ⟨hoff, hover⟩
    · omega
    · exact hp.elim hoff hover
  case under => exact fun h => ⟨_, next_if_pos h, State.lost_powerLost .off mv, State.phase_powerLost .off mv⟩
  case noUnder => exact fun h => next_if_neg (by omega)
  case above =>
    exact fun h hp => ⟨_, next_if_pos ⟨h, hp⟩, State.lost_powerLost .overVolt mv, State.phase_powerLost .overVolt mv⟩
  case noAbove =>
    refine fun h => next_if_neg fun ⟨hmv, hp⟩ => ?_
    rcases h with h | h
    · omega
    · exact h hp
  case recovers =>
    obtain ⟨htick, hon, -⟩ := State.powerOn_on (s := s) mv
    exact fun h h' hp => ⟨_, next_if_pos ⟨h, h', hp⟩, State.lost_powerOn mv, hon, htick⟩
  case noRecovery =>
    refine fun h => next_if_neg fun ⟨hlow, hhigh, hp⟩ => ?_
    rcases h with h | h | h
    · omega
    · omega
    · exact h hp
  case trips =>
    exact fun h hp => ⟨_, next_if_pos ⟨h, hp⟩, State.lost_powerLost .tripped (s.reg .PWR_VIN_MV),
      State.phase_powerLost .tripped (s.reg .PWR_VIN_MV), rfl⟩
  case noTrip => exact fun h => next_if_neg fun ⟨hc, _⟩ => by omega
  case resetN =>
    exact fun hp hlow => ⟨_, next_if_pos ⟨hp, hlow⟩, State.cold_coldReset _ _, (State.plat_coldReset _ _).1⟩
  case noResetN =>
    refine fun h => next_if_neg fun ⟨hp, hlow⟩ => ?_
    rcases h with h | h
    · exact h hp
    · rw [hlow] at h; cases h
  case watchdog => exact fun h => ⟨_, next_if_pos h, State.cold_coldReset _ _⟩
  case noWatchdog => exact fun h => next_if_neg (by simp [h])
  case software =>
    refine fun hkey hbit => ⟨s.ungate.coldReset .RST_CAUSE_SOFTWARE s.ungate.plat.resetLow, ?_,
      (State.cold_coldReset (s := s.ungate) _ _).congr rfl rfl rfl rfl rfl rfl rfl rfl rfl⟩
    simp [exec, execRstDeviceCold, State.touch_live hl, hl, hkey, hbit]
  case noSoftware => exact fun hkey hbit => by simp [exec, execRstDeviceCold, State.touch_live hl, hl, hkey, hbit]
  case wrongKey => exact fun hkey => by simp [exec, execRstDeviceCold, State.touch_live hl, hl, hkey]
  case jtag =>
    let u := s.zeroise.onPlat (fun p => { p with tap := .other })
    have hz : u.host = s.host ∧ u.fabric = s.fabric ∧ u.ckp = s.ckp ∧ u.tick = s.tick ∧ u.bootEpoch = s.bootEpoch ∧
        u.cane = s.cane := by simp [u, State.zeroise, State.countSessions]
    obtain ⟨hhost, hfabric, hckp, htick, hboot, hcane⟩ := hz
    have hplat : u.plat = { s.plat with tap := .other } := by simp [u, State.onPlat, State.zeroise, State.countSessions]
    refine fun hopen => ⟨u.coldReset .RST_CAUSE_JTAG s.plat.resetLow, ?_, (State.cold_coldReset (s := u) _ _).congr hhost hfabric
      (by rw [hckp]) (by rw [hplat]) (by rw [hplat]) (by rw [hplat]) htick hboot (by rw [hcane]), ?_⟩
    · simp [exec, execJtagInstruction, hp, hopen, u, State.onPlat, State.zeroise, State.countSessions]
    · rw [(State.plat_coldReset (s := u) _ _).2, hplat]
  case noJtag => exact fun hopen => by simp [exec, execJtagInstruction, hp, hopen]
  case scan => exact fun i hi => (next_if_neg (not_not_intro hp)).trans (next_if_pos hi)
  case flr =>
    refine ⟨_, execFlr_live hl, fun v => ?_, fun n r hr hf hen => ?_, fun hnone => ?_, ?_, ?_⟩
    · simp [State.resetTable]
    · rw [State.ring_congr (s := s.haltAll (s.ringsBehind f.toNat) 0x0006) (by simp [State.resetTable])]
      exact State.halted_haltAll (State.mem_ringsBehind hr hf hen) (by rw [State.ring, hr]; exact hen)
    · simp [State.resetTable, State.ringsBehind_none hnone, State.haltAll]
    · simp [State.resetTable]
    · simp [State.resetTable]
end

section
/-! # The boot -/
namespace Sys2Proof.Machine
variable {s t u : State}

/-- A fold keeps what each of its steps keeps. -/
theorem foldl_preserves {β : Type} {f : State → β → State} {P : State → Prop} (keeps : ∀ v c, P v → P (f v c)) (l : List β)
    (h : P s) : P (l.foldl f s) := by
  induction l generalizing s with
  | nil => exact h
  | cons c l ih => exact ih (keeps s c h)

/-- A fold reaches what one of its steps brings about, from states that satisfy `Q`, and no step undoes. -/
theorem foldl_of_mem_of {β : Type} {f : State → β → State} {P Q : State → Prop} {b : β} {l : List β} (hb : b ∈ l) (hs : Q s)
    (stays : ∀ v c, Q v → Q (f v c)) (brings : ∀ v, Q v → P (f v b)) (keeps : ∀ v c, P v → P (f v c)) : P (l.foldl f s) := by
  induction l generalizing s with
  | nil => cases hb
  | cons c l ih =>
    rcases List.mem_cons.mp hb with rfl | h
    · exact foldl_preserves keeps l (brings s hs)
    · exact ih h (stays s c hs)

theorem foldl_of_mem {β : Type} {f : State → β → State} {P : State → Prop} {b : β} {l : List β} (hb : b ∈ l)
    (brings : ∀ v, P (f v b)) (keeps : ∀ v c, P v → P (f v c)) : P (l.foldl f s) :=
  foldl_of_mem_of (Q := fun _ => True) hb trivial (fun _ _ h => h) (fun v _ => brings v) keeps

/-! ## The stages of the boot -/

/-- The bank that is current as the boot begins, or an empty one. -/
def State.oldBank (s : State) : StoreBank := (s.plat.current.map (·.2)).getD {}

/-- Whether the short self-test runs (R497). -/
def State.bootTest (s : State) (b : BootInput) : Bool := shortRuns s.plat.current (sha384 b.config)

/-- The boots that the result store counts, this one too (R484). -/
def State.bootNumber (s : State) : Nat := s.oldBank.bootCount + if s.regBit .RST_CAUSE_POWER_ON then 1 else 0

/-- The record that the boot writes (R498). -/
def State.bootRecord (s : State) (b : BootInput) : StoreBank :=
  let kept : StoreBank := { s.oldBank with
    bootCount := s.bootNumber, consumed := true, lifecycle := s.plat.lifecycle, configId := sha384 b.config, config := b.config }
  if s.bootTest b then b.bist.record kept 2 else kept

/-- The segments whose units the boot puts in STATE FAILED. -/
def State.bootFailed (s : State) (b : BootInput) : List Nat :=
  (if s.bootTest b then b.bist.failed else [])
    ++ (List.range 169).filter (fun n => s.plat.current.isSome && bitAt s.oldBank.failMap n)

/-- The tables, the inputs of the boot and the keys and identity that it derives (R434, R503). -/
def State.bootInputs (s : State) (b : BootInput) : State :=
  let u := s.onPlat (fun p => { p with resetLow := false, firmware := b.firmware, boots := p.boots + 1 })
  let u := { u with bootEpoch := s.bootNumber % 2 ^ 32, tick := (s.tick + bootTicks (s.bootTest b)) % 2 ^ 64 }
  u.onSec (fun e => { e with memKey := true, identity := some (deriveIdentity u.plat.fuseSeed b.firmware) })

/-- The registers that the boot sets before it tests. -/
def State.bootRegs (s : State) (b : BootInput) (short : Bool) : State :=
  let u := (s.setReg .RST_SLOT_SLOT_ID b.slotId).setReg .RST_BOOT_TIME_TICKS (bootTicks short)
  ((u.setReg .CLK_START_MHZ_MHZ b.startMhz).setReg .CLK_PLL_EFF_LOCKED
    (b2n (u.regBit .CLK_STATUS_REF_REF_OK))).setReg .BIST_CONFIG_ID_DIGEST (sha384 b.config)

/-- What BIST shows of the short self-test and of the old bank. -/
def State.bootShown (s : State) (b : BootInput) (short : Bool) (old : StoreBank) : State :=
  let u := if short then ((s.beginLong pgBist).progress pgBist b.bist.segs 99).endLong pgBist else s
  let u := if short ∧ b.bist.failed ≠ [] then u.setIntBit pgBist 8 else u
  u.lastRegs old

/-- What BIST shows of the boot itself. -/
def State.bootResult (s : State) (short : Bool) (record : StoreBank) : State :=
  (s.setReg .BIST_BOOT_RAN (b2n short)).setReg .BIST_BOOT_RESULT (if short then record.result else 0)

/-- The pages that run from the boot on (R486). -/
def State.bootPages (s : State) : State := [pgGlb, pgPwr, pgClk, pgRst, pgBist].foldl (fun s p => s.setPageState p 1) s

/-- A fabric port that trains from the boot on. -/
def State.bootPort (start : Nat) (s : State) (n : Nat) : State :=
  ((s.setEn (fabPage n) true).setPageState (fabPage n) 2).setPort n { training := true, since := start + 3000000 }

/-- The fabric ports train from the boot on. -/
def State.bootPorts (s : State) (start : Nat) : State := (List.range 8).foldl (State.bootPort start) s

theorem State.boot_eq (b : BootInput) : s.boot b =
    (s.bootFailed b).eraseDups.foldl State.failSegment
      (((((((s.bootInputs b).bootRegs b (s.bootTest b)).bootShown b (s.bootTest b) s.oldBank).bootResult (s.bootTest b)
        (s.bootRecord b)).storeRecord (s.bootRecord b) b.writeFails).bootPages).bootPorts s.tick) := rfl

/-! ## What each stage leaves -/

section
variable (b : BootInput) (short fails : Bool) (r : StoreBank) (start n : Nat)

/-- `t` has the registers, the times, the keys and the platform of `s`. -/
def State.BootKept (s t : State) : Prop :=
  t.regs = s.regs ∧ t.tick = s.tick ∧ t.bootEpoch = s.bootEpoch ∧ t.sec = s.sec ∧ t.plat = s.plat

theorem State.BootKept.trans (h : s.BootKept t) (h' : t.BootKept u) : s.BootKept u := by
  obtain ⟨h1, h2, h3, h4, h5⟩ := h
  obtain ⟨h1', h2', h3', h4', h5'⟩ := h'
  exact ⟨h1'.trans h1, h2'.trans h2, h3'.trans h3, h4'.trans h4, h5'.trans h5⟩

theorem State.bootKept_foldl {β : Type} {f : State → β → State} (h : ∀ (v : State) c, v.BootKept (f v c)) (l : List β) :
    s.BootKept (l.foldl f s) := by
  induction l generalizing s with
  | nil => exact ⟨rfl, rfl, rfl, rfl, rfl⟩
  | cons c l ih => exact (h s c).trans ih

theorem State.bootKept_bootPages : s.BootKept s.bootPages :=
  State.bootKept_foldl (fun v p => by simp [State.BootKept]) _

theorem State.bootKept_bootPorts : s.BootKept (s.bootPorts start) :=
  State.bootKept_foldl (fun v n => by simp [State.BootKept, State.bootPort]) _

theorem State.bootKept_failSegment : s.BootKept (s.failSegment n) :=
  State.bootKept_foldl (fun v p => by simp [State.BootKept]) _

/-- What the boot does once it has written its record. -/
theorem State.bootKept_after (l : List Nat) :
    s.BootKept (l.foldl State.failSegment (s.bootPages.bootPorts start)) :=
  State.bootKept_bootPages.trans ((State.bootKept_bootPorts start).trans
    (State.bootKept_foldl (fun _ n => State.bootKept_failSegment n) l))

@[simp] theorem State.storeRecord_frame :
    (s.storeRecord r fails).regs = s.regs ∧ (s.storeRecord r fails).tick = s.tick ∧
    (s.storeRecord r fails).bootEpoch = s.bootEpoch ∧ (s.storeRecord r fails).sec = s.sec := by
  unfold State.storeRecord
  split <;> simp

@[simp] theorem State.bootRegs_frame :
    (s.bootRegs b short).tick = s.tick ∧ (s.bootRegs b short).bootEpoch = s.bootEpoch ∧
    (s.bootRegs b short).sec = s.sec ∧ (s.bootRegs b short).plat = s.plat := by
  simp [State.bootRegs]

@[simp] theorem State.lastRegs_frame :
    (s.lastRegs r).tick = s.tick ∧ (s.lastRegs r).bootEpoch = s.bootEpoch ∧ (s.lastRegs r).sec = s.sec ∧
    (s.lastRegs r).plat = s.plat := by
  simp [State.lastRegs]

@[simp] theorem State.bootShown_frame :
    (s.bootShown b short r).tick = s.tick ∧ (s.bootShown b short r).bootEpoch = s.bootEpoch ∧
    (s.bootShown b short r).sec = s.sec ∧ (s.bootShown b short r).plat = s.plat := by
  simp only [State.bootShown, State.lastRegs_frame]
  (repeat' split) <;> simp

@[simp] theorem State.bootResult_frame :
    (s.bootResult short r).tick = s.tick ∧ (s.bootResult short r).bootEpoch = s.bootEpoch ∧
    (s.bootResult short r).sec = s.sec ∧ (s.bootResult short r).plat = s.plat := by
  simp [State.bootResult]

theorem State.bootRan_bootResult : (s.bootResult short r).regBit .BIST_BOOT_RAN = short := by
  rw [State.bootResult, State.regBit, State.reg_setReg_ne _ _ _ _ _ _ (by decide) (by decide) (by decide),
    State.reg_setReg_self]
  cases short <;> rfl

/-- The state in which the record is written. -/
def State.bootTested (s : State) (b : BootInput) : State :=
  (((s.bootInputs b).bootRegs b (s.bootTest b)).bootShown b (s.bootTest b) s.oldBank).bootResult (s.bootTest b)
    (s.bootRecord b)

/-- The times, the keys and the banks as the record is written. -/
theorem State.bootTested_spec :
    (s.bootTested b).tick = (s.tick + bootTicks (s.bootTest b)) % 2 ^ 64 ∧
    (s.bootTested b).bootEpoch = s.bootNumber % 2 ^ 32 ∧ (s.bootTested b).sec.memKey = true ∧
    (s.bootTested b).sec.identity = some (deriveIdentity s.plat.fuseSeed b.firmware) ∧
    (s.bootTested b).regBit .BIST_BOOT_RAN = s.bootTest b ∧ (s.bootTested b).plat.bankA = s.plat.bankA ∧
    (s.bootTested b).plat.bankB = s.plat.bankB := by
  refine ⟨?_, ?_, ?_, ?_, State.bootRan_bootResult _ _, ?_, ?_⟩ <;>
  · simp only [State.bootTested, State.bootResult_frame, State.bootShown_frame, State.bootRegs_frame]
    rfl

theorem State.boot_after : s.boot b = (s.bootFailed b).eraseDups.foldl State.failSegment
    (((s.bootTested b).storeRecord (s.bootRecord b) b.writeFails).bootPages.bootPorts s.tick) := State.boot_eq b

/-- The end of the boot leaves the state in which the record was written, but for pages and ports. -/
theorem State.bootKept_boot : ((s.bootTested b).storeRecord (s.bootRecord b) b.writeFails).BootKept (s.boot b) :=
  State.bootKept_after _ _

/-! ## The result store -/

theorem Plat.current_congr {p q : Plat} (hA : q.bankA = p.bankA) (hB : q.bankB = p.bankB) : q.current = p.current := by
  unfold Plat.current
  rw [hA, hB]

/-- A record as it stands in the store: it is valid, and follows the current bank (R499). -/
def Plat.stored (p : Plat) (r : StoreBank) : StoreBank :=
  { r with valid := true, seq := ((p.current.map (fun e => e.2.seq)).getD 0) + 1 }

theorem Plat.writeStore_toA {p : Plat} (h : p.current.map (·.1) ≠ some 0) :
    (p.writeStore r).bankA = p.stored r ∧ (p.writeStore r).bankB = p.bankB := by
  simp only [Plat.writeStore, if_neg h]
  exact ⟨rfl, trivial⟩

theorem Plat.writeStore_toB {p : Plat} (h : p.current.map (·.1) = some 0) :
    (p.writeStore r).bankB = p.stored r ∧ (p.writeStore r).bankA = p.bankA := by
  simp only [Plat.writeStore, if_pos h]
  exact ⟨rfl, trivial⟩

/-- The record of the boot says what R497 and R498 want. -/
theorem State.stored_bootRecord {p : Plat} (h : p.current = s.plat.current) :
    (p.stored (s.bootRecord b)).valid = true ∧ (p.stored (s.bootRecord b)).seq = s.oldBank.seq + 1 ∧
    (p.stored (s.bootRecord b)).consumed = true ∧ (p.stored (s.bootRecord b)).bootCount = s.bootNumber ∧
    (p.stored (s.bootRecord b)).configId = sha384 b.config ∧ (p.stored (s.bootRecord b)).lifecycle = s.plat.lifecycle := by
  have seq : (s.plat.current.map (fun e => e.2.seq)).getD 0 = s.oldBank.seq := by
    unfold State.oldBank
    cases s.plat.current <;> rfl
  simp only [Plat.stored, h, seq, State.bootRecord]
  cases s.bootTest b <;> simp [BistRun.record]

theorem State.plat_storeRecord_fails : (s.storeRecord r true).plat = s.plat := by
  simp [State.storeRecord]

theorem State.plat_storeRecord : (s.storeRecord r false).plat = s.plat.writeStore r := rfl

end

/-! ## Pages and ports -/

@[simp] theorem State.pageState_setEn (p q : Nat) (b : Bool) : (s.setEn p b).pageState q = s.pageState q := by
  simp only [State.pageState, State.setEn, State.common_setCommon]
  split
  next h => rw [h]
  · rfl

@[simp] theorem State.common_setPort (n q : Nat) (x : Port) : (s.setPort n x).common q = s.common q :=
  State.common_congr (by simp) q

@[simp] theorem State.pageState_setPort (n q : Nat) (x : Port) : (s.setPort n x).pageState q = s.pageState q :=
  State.pageState_congr (by simp) q

theorem State.pageState_bootPort (start n q : Nat) :
    (s.bootPort start n).pageState q = if q = fabPage n then 2 else s.pageState q := by
  unfold State.bootPort
  rw [State.pageState_setPort, State.pageState_setPageState, State.pageState_setEn]

theorem State.port_bootPort (start n k : Nat) : (s.bootPort start n).port k =
    if k = n then { training := true, since := start + 3000000 } else s.port k := by
  unfold State.bootPort
  rw [State.port_setPort, State.port_congr (s := s) (by simp)]

theorem State.pageState_bootPages_glb : s.bootPages.pageState pgGlb = 1 := by
  simp [State.bootPages, State.pageState_setPageState, pgGlb, pgPwr, pgClk, pgRst, pgBist]

theorem State.pageState_bootPorts_glb (start : Nat) : (s.bootPorts start).pageState pgGlb = s.pageState pgGlb := by
  refine foldl_keeps (fun u => u.pageState pgGlb) _ (fun u n => ?_) _ _
  rw [State.pageState_bootPort, if_neg (by unfold pgGlb fabPage pgFab; omega)]

/-- Every fabric port trains as the boot ends. -/
theorem State.bootPorts_trains {n : Nat} (start : Nat) (hn : n < 8) :
    ((s.bootPorts start).port n).training = true ∧ (s.bootPorts start).pageState (fabPage n) = 2 := by
  refine foldl_of_mem (P := fun u => (u.port n).training = true ∧ u.pageState (fabPage n) = 2) (List.mem_range.mpr hn)
    (fun v => ?_) (fun v m hv => ?_)
  · rw [State.port_bootPort, State.pageState_bootPort, if_pos rfl, if_pos rfl]
    exact ⟨rfl, rfl⟩
  · rw [State.port_bootPort, State.pageState_bootPort]
    obtain ⟨hport, hpage⟩ := hv
    refine ⟨?_, ?_⟩ <;> split
    · rfl
    · exact hport
    · rfl
    · exact hpage

/-- With nothing to fail, no unit fails. -/
theorem State.bootFailed_nil {b : BootInput} (hbist : b.bist.failed = []) (hold : s.plat.current = none ∨ s.oldBank.failMap = 0) :
    s.bootFailed b = [] := by
  have old : (List.range 169).filter (fun n => s.plat.current.isSome && bitAt s.oldBank.failMap n) = [] := by
    refine List.filter_eq_nil_iff.mpr fun n _ => ?_
    rcases hold with h | h <;> simp [h, bitAt]
  rw [State.bootFailed, old, hbist, ite_self, List.append_nil]

theorem State.boot_enabled {b : BootInput} (hbist : b.bist.failed = [])
    (hold : s.plat.current = none ∨ s.oldBank.failMap = 0) :
    (s.boot b).pageState pgGlb = 1 ∧ (s.boot b).live = true ∧
    ∀ n : BitVec 3, ((s.boot b).port n.toNat).training = true ∧ (s.boot b).pageState (fabPage n.toNat) = 2 := by
  rw [State.boot_after, State.bootFailed_nil hbist hold, List.eraseDups_nil, List.foldl_nil]
  have glb (u : State) : (u.bootPages.bootPorts s.tick).pageState pgGlb = 1 :=
    (State.pageState_bootPorts_glb _).trans State.pageState_bootPages_glb
  exact ⟨glb _, by rw [State.live, glb]; rfl, fun n => State.bootPorts_trains _ n.isLt⟩

/-! ## The error of a store that failed -/

theorem State.err_setPageState {p st q : Nat} (h : (s.common q).err = true) : ((s.setPageState p st).common q).err = true := by
  rw [State.setPageState, State.common_setCommon]
  split
  next e => rw [← e]; exact h
  · exact h

theorem State.err_failPage {p code q : Nat} (h : (s.common q).err = true) : ((s.failPage p code).common q).err = true := by
  unfold State.failPage
  split
  · exact h
  · have recorded : ((s.recErr p code).common q).err = true := by
      rw [State.common_recErr]
      split
      · rfl
      · exact h
    have failed := State.err_setPageState (p := p) (st := 0xFF) recorded
    rw [State.setIntBit, State.common_setInt]
    split
    next e => rw [← e]; exact failed
    · exact failed

theorem State.err_bootPort {start n q : Nat} (h : (s.common q).err = true) : ((s.bootPort start n).common q).err = true := by
  unfold State.bootPort
  rw [State.common_setPort]
  refine State.err_setPageState ?_
  rw [State.setEn, State.common_setCommon]
  split
  next e => rw [← e]; exact h
  · exact h

theorem State.err_failSegment {n q : Nat} (h : (s.common q).err = true) : ((s.failSegment n).common q).err = true :=
  foldl_preserves (P := fun u => (u.common q).err = true) (fun _ _ => State.err_failPage) _ h

theorem State.err_boot {b : BootInput} (h : b.writeFails = true) : ((s.boot b).common pgBist).err = true := by
  rw [State.boot_after]
  refine foldl_preserves (P := fun u => (u.common pgBist).err = true) (fun _ _ => State.err_failSegment) _ ?_
  refine foldl_preserves (P := fun u => (u.common pgBist).err = true) (fun _ _ => State.err_bootPort) _ ?_
  refine foldl_preserves (P := fun u => (u.common pgBist).err = true) (fun _ _ => State.err_setPageState) _ ?_
  rw [State.storeRecord, if_pos h, State.common_recErr, if_pos rfl]

end Sys2Proof.Machine
end

section
/-! # The shutdown -/
namespace Sys2Proof.Machine
variable {s t : State} {id : Nat} {c : Cmd}

/-- A command that nothing holds back takes effect at once. -/
theorem State.attempt_readyPlain {op : Nat} (eff : Effect) (h : s.readyPlain id op c) : s.attempt id c eff = eff s id c 0 := by
  obtain ⟨⟨-, -, -, -, hglb⟩, hhandle, hserved⟩ := h
  simp only [State.attempt, hglb, Bool.false_eq_true, if_false, hhandle, if_true,
    State.attemptPlain_served s id c false 0 eff hserved]

theorem exec_shutdown (r : BistRun) (f : Bool) (h : s.readyPlain id 0x58 c) :
    exec (.shutdown id r f) s = .next (opShutdown s id c r f) := by
  obtain ⟨hcmd, hphase, hop, hrun, -⟩ := h.1
  simp only [exec, execShutdown, hcmd, hphase, hop, hrun, true_or, and_self, if_true, State.attempt_readyPlain _ h]

section
variable {r : BistRun} {f : Bool}

theorem opShutdown_waits (h : s.ckp.run.isSome = true ∨ s.ckp.restore.isSome = true ∨ s.sec.pass.isSome = true) :
    opShutdown s id c r f = s.waitCmd id := by
  rw [opShutdown, if_pos h]

section
variable (hrun : s.ckp.run = none) (hrestore : s.ckp.restore = none) (hpass : s.sec.pass = none)
include hrun hrestore hpass

theorem opShutdown_locked (h : s.tenants.values.any (fun t => t.state != .closed) = true) :
    opShutdown s id c r f = s.complete id .locked 2 := by
  simp only [opShutdown, hrun, hrestore, hpass, h, Option.isSome_none, Bool.false_eq_true, or_self, if_false, if_true]

/-- Whether a full self-test runs before the SHUT state (R495). -/
def State.shutTest (s : State) (c : Cmd) : Bool := c.desc.opt 8 2 == 1 || (c.desc.opt 8 2 == 0 && s.regBit .BIST_CFG_AT_SHUTDOWN)

/-- SHUTDOWN has completed, and the rings end (R494). -/
def State.shutEnds (s : State) (id : Nat) (c : Cmd) : State :=
  ((s.setPageState pgGlb 2).complete id .ok 0 (if s.shutTest c then 6000 else 0)).stopRings c.ring

/-- The device has stopped, `k` ticks later. -/
def State.stopFor (s : State) (k : Nat) : State :=
  let u := s.stop
  { u with tick := (u.tick + k) % 2 ^ 64 }

/-- The device as it has stopped after a SHUTDOWN. -/
def State.shutStop (s : State) (id : Nat) (c : Cmd) : State := (s.shutEnds id c).stopFor (shutTicks (s.shutTest c))

/-- The record of a self-test at shutdown (R495). -/
def State.shutRecord (s : State) (r : BistRun) (f : Bool) : State :=
  (((s.beginLong pgBist).progress pgBist r.segs 99).endLong pgBist).storeRecord
    (r.record { s.oldBank with consumed := false, lifecycle := s.plat.lifecycle } 1) f

theorem opShutdown_shuts (h : s.tenants.values.any (fun t => t.state != .closed) = false) :
    opShutdown s id c r f =
      let u := if s.shutTest c then (s.shutStop id c).shutRecord r f else s.shutStop id c
      (u.onPlat (fun p => { p with islandOff := true })).setPageState pgGlb 3 := by
  unfold opShutdown
  rw [if_neg (by simp [hrun, hrestore, hpass]), if_neg (by simp [h])]
  extract_lets mode test u1 u2 u3 u4 u5
  have e : u4 = s.shutStop id c := rfl
  clear_value u4
  subst e
  rfl

end

end

/-! ## What the device holds once it has stopped -/

theorem State.domainsOff_frame :
    s.domainsOff.cmds = s.cmds ∧ s.domainsOff.sdir = s.sdir ∧ s.domainsOff.hbm = s.hbm ∧ s.domainsOff.sec = s.sec ∧
    s.domainsOff.fabric = s.fabric ∧ s.domainsOff.tick = s.tick := by
  unfold State.domainsOff
  exact ⟨foldl_keeps State.cmds _ (by simp) _ _, foldl_keeps State.sdir _ (by simp) _ _,
    foldl_keeps State.hbm _ (by simp) _ _, foldl_keeps State.sec _ (by simp) _ _,
    foldl_keeps State.fabric _ (by simp) _ _, foldl_keeps State.tick _ (by simp) _ _⟩

theorem State.of_steady (h : t.steady {} = s.steady {}) : t.fabric = s.fabric ∧ t.tick = s.tick :=
  ⟨congrArg Steady.fabric h, congrArg Steady.tick h⟩

/-- The ports go OFF without a change of fabric memory or of the tick. -/
theorem State.portsOff_steady : s.portsOff.fabric = s.fabric ∧ s.portsOff.tick = s.tick :=
  State.of_steady (by simp [State.portsOff])

/-- What is left of the units once they are emptied. -/
theorem State.unitsEmptied_frame :
    s.unitsEmptied.pagesOff.cmds = ⟨[]⟩ ∧ s.unitsEmptied.pagesOff.sdir = {} ∧ s.unitsEmptied.pagesOff.hbm = ⟨[]⟩ ∧
    s.unitsEmptied.pagesOff.sec = { s.sec with identity := none } ∧ s.unitsEmptied.pagesOff.fabric = s.fabric ∧
    s.unitsEmptied.pagesOff.tick = s.tick :=
  ⟨rfl, rfl, rfl, rfl, rfl, rfl⟩

theorem State.zeroise_frame :
    s.zeroise.fabric = s.fabric ∧ s.zeroise.tick = s.tick ∧ s.zeroise.sec.staged = ⟨[]⟩ ∧ s.zeroise.sec.memKey = false := by
  simp [State.zeroise, State.countSessions, State.onSec]

/-- The state that SHUTDOWN leaves, before and after its self-test. -/
def State.ShutDown (s t : State) : Prop :=
  t.cmds = ⟨[]⟩ ∧ t.sdir = {} ∧ t.hbm = ⟨[]⟩ ∧ t.sec.staged = ⟨[]⟩ ∧ t.sec.memKey = false ∧ t.sec.identity = none ∧
  t.fabric = s.fabric

theorem State.stop_spec : s.ShutDown s.stop ∧ s.stop.tick = s.tick := by
  obtain ⟨dcmds, dsdir, dhbm, dsec, dfabric, dtick⟩ := State.domainsOff_frame (s := s.portsOff.zeroise.unitsEmptied.pagesOff)
  obtain ⟨ucmds, usdir, uhbm, usec, ufabric, utick⟩ := State.unitsEmptied_frame (s := s.portsOff.zeroise)
  obtain ⟨zfabric, ztick, zstaged, zkey⟩ := State.zeroise_frame (s := s.portsOff)
  obtain ⟨pfabric, ptick⟩ := State.portsOff_steady (s := s)
  rw [State.stop_eq, State.ShutDown, dcmds, dsdir, dhbm, dsec, dfabric, dtick, ucmds, usdir, uhbm, usec, ufabric, utick,
    zfabric, ztick, pfabric, ptick, zstaged, zkey]
  simp only [and_self]

theorem State.ShutDown.at (h : s.ShutDown t) (tick : Nat) : s.ShutDown { t with tick := tick } := h

theorem State.stopFor_spec (k : Nat) : s.ShutDown (s.stopFor k) ∧ (s.stopFor k).tick = (s.tick + k) % 2 ^ 64 := by
  obtain ⟨hstop, htick⟩ := State.stop_spec (s := s)
  exact ⟨hstop.at _, by rw [State.stopFor, htick]⟩

theorem State.shutEnds_frame : (s.shutEnds id c).fabric = s.fabric ∧ (s.shutEnds id c).tick = s.tick := by
  simp [State.shutEnds, State.stopRings]

theorem State.shutStop_spec :
    s.ShutDown (s.shutStop id c) ∧ (s.shutStop id c).tick = (s.tick + shutTicks (s.shutTest c)) % 2 ^ 64 := by
  obtain ⟨hdown, htick⟩ := State.stopFor_spec (s := s.shutEnds id c) (shutTicks (s.shutTest c))
  obtain ⟨efabric, etick⟩ := State.shutEnds_frame (s := s) (id := id) (c := c)
  rw [State.ShutDown, efabric] at hdown
  rw [etick] at htick
  exact ⟨hdown, htick⟩

theorem State.shutRecord_frame (r : BistRun) (f : Bool) :
    (s.shutRecord r f).cmds = s.cmds ∧ (s.shutRecord r f).sdir = s.sdir ∧ (s.shutRecord r f).hbm = s.hbm ∧
    (s.shutRecord r f).sec = s.sec ∧ (s.shutRecord r f).fabric = s.fabric ∧ (s.shutRecord r f).tick = s.tick := by
  simp only [State.shutRecord, State.storeRecord]
  split <;> simp

/-- A SHUTDOWN that nothing keeps waiting takes the device to SHUT (R493 to R495). -/
theorem State.shutDown_opShutdown {r : BistRun} {f : Bool} (hrun : s.ckp.run = none) (hrestore : s.ckp.restore = none)
    (hpass : s.sec.pass = none) (h : s.tenants.values.any (fun t => t.state != .closed) = false) :
    s.ShutDown (opShutdown s id c r f) ∧ (opShutdown s id c r f).pageState pgGlb = 3 ∧
    (opShutdown s id c r f).live = false ∧ (opShutdown s id c r f).plat.islandOff = true ∧
    (opShutdown s id c r f).tick = (s.tick + shutTicks (s.shutTest c)) % 2 ^ 64 := by
  rw [opShutdown_shuts hrun hrestore hpass h]
  have glb (u : State) : (u.setPageState pgGlb 3).pageState pgGlb = 3 := by rw [State.pageState_setPageState, if_pos rfl]
  obtain ⟨hdown, htick⟩ := State.shutStop_spec (s := s) (id := id) (c := c)
  obtain ⟨rcmds, rsdir, rhbm, rsec, rfabric, rtick⟩ := State.shutRecord_frame (s := s.shutStop id c) r f
  refine ⟨?_, glb _, by rw [State.live, glb]; rfl, by simp [State.onPlat], ?_⟩
  · split
    · simpa [State.ShutDown, rcmds, rsdir, rhbm, rsec, rfabric] using hdown
    · simpa [State.ShutDown] using hdown
  · split <;> simp [rtick, htick]

end Sys2Proof.Machine

open Sys2Proof Sys2Proof.Machine in
/-- Settles O52: the boot and the shutdown in their stages, and the rows of the always-on domain by their conditions. -/
theorem bootAndShutdown : Obligations.BootAndShutdown := by
  intro s
  refine ⟨fun b => ⟨fun hp hgood hglb => ?boot, ?noBoot⟩, fun id c r f hready => ⟨fun h => ?waits, fun hrun hrestore hpass =>
    ⟨fun h => ?shuts, fun h => ?locked⟩⟩, fun a hp => ?entdaa, fun hp => ?control, fun f hp => ⟨?retry, ?done, ?silent⟩⟩
  case boot =>
    obtain ⟨hregs, htick, hepoch, hsec, hplat⟩ := State.bootKept_boot (s := s) b
    obtain ⟨ttick, tepoch, tkey, tid, tran, tA, tB⟩ := State.bootTested_spec (s := s) b
    obtain ⟨fregs, ftick, fepoch, fsec⟩ := State.storeRecord_frame (s := s.bootTested b) b.writeFails (s.bootRecord b)
    have hcur : (s.bootTested b).plat.current = s.plat.current := Plat.current_congr tA tB
    refine ⟨s.boot b, next_if_pos ⟨hp, hgood, hglb⟩, by rw [hsec, fsec, tkey], by rw [hsec, fsec, tid],
      by rw [hepoch, fepoch, tepoch]; rfl, by rw [htick, ftick, ttick]; rfl, ?_, State.boot_enabled, ?_, ?_, ?_⟩
    · rw [State.regBit_congr (hregs.trans fregs), tran]
      rfl
    · intro hw hA
      rw [hplat, hw, State.plat_storeRecord]
      obtain ⟨eA, eB⟩ := Plat.writeStore_toA (s.bootRecord b) (hcur ▸ hA)
      rw [eA, eB]
      exact ⟨State.stored_bootRecord b hcur, tB⟩
    · intro hw hA
      rw [hplat, hw, State.plat_storeRecord]
      obtain ⟨eB, eA⟩ := Plat.writeStore_toB (s.bootRecord b) (hcur ▸ hA)
      rw [eA, eB]
      exact ⟨State.stored_bootRecord b hcur, tA⟩
    · intro hw
      rw [hplat, hw, State.plat_storeRecord_fails]
      exact ⟨tA, tB, State.err_boot hw⟩
  case noBoot =>
    refine fun h => next_if_neg fun ⟨hp, hgood, hglb⟩ => ?_
    rcases h with h | h | h
    · exact h hp
    · rw [hgood] at h; cases h
    · exact h hglb
  case waits => rw [exec_shutdown r f hready, opShutdown_waits h]
  case shuts =>
    obtain ⟨⟨hcmds, hsdir, hhbm, hstaged, hkey, hid, hfabric⟩, hglb, hlive, hoff, htick⟩ :=
      State.shutDown_opShutdown (id := id) (c := c) (r := r) (f := f) hrun hrestore hpass h
    refine ⟨_, exec_shutdown r f hready, hglb, hlive, hoff, hcmds, hsdir, hhbm, hstaged, hkey, hid, hfabric, fun hopt => ?_⟩
    rw [htick, State.shutTest, hopt]
    rfl
  case locked => rw [exec_shutdown r f hready, opShutdown_locked hrun hrestore hpass h]
  case entdaa => exact ⟨_, next_if_pos hp, rfl, rfl⟩
  case control => exact next_if_pos hp
  case retry =>
    intro h
    simp only [exec, execConfigRequest, hp, h]
    rfl
  case done =>
    intro h h'
    simp only [exec, execConfigRequest, hp, h, h']
    rfl
  case silent => exact fun h => by simp [exec, execConfigRequest, h]
end

section
/-! # Telemetry: the rings of dumps and tag records -/
namespace Sys2Proof.Machine
variable {s t : State}

@[simp] theorem State.tel_onTel (f : Tel → Tel) : (s.onTel f).tel = f s.tel := rfl

@[simp] theorem State.reg_onTel (f : Tel → Tel) (r : Reg) (i : Nat) : (s.onTel f).reg r i = s.reg r i := rfl

@[simp] theorem State.reg_setIntBit (p i : Nat) (r : Reg) (j : Nat) : (s.setIntBit p i).reg r j = s.reg r j :=
  State.reg_congr (by simp) r j

theorem State.reg_bump_ne {r q : Reg} (i k j : Nat) (h : q ≠ r) (hi : i < 4294967296) (hj : j < 4294967296) :
    (s.bump r i k).reg q j = s.reg q j :=
  State.reg_setReg_ne _ _ _ _ _ _ h hi hj

/-! ## Writes that end -/

/-- Where the next dump goes (R512). -/
def State.dumpAddr (s : State) : Nat :=
  s.reg .TEL0_DUMP_BASE_ADDR * 4096
    + s.reg .TEL0_DUMPS_WRITTEN_COUNT % s.dumpSlots * (s.reg .TEL0_DUMP_SLOT_SIZE_KIB * 1024)

/-- The dump stands in memory, and is counted. -/
def State.dumpWritten (s : State) (d : Dump) : State :=
  (((s.writeMem (s.regBit .TEL0_DUMP_BASE_IN_WINDOW) s.dumpAddr d.bytes).setReg .TEL0_DUMPS_WRITTEN_COUNT
    (s.reg .TEL0_DUMPS_WRITTEN_COUNT + 1)).setReg .TEL0_DUMP_SEQ_SEQ d.seq).onTel (fun x => { x with dump := none })

theorem execDumpWriteDone_some {d : Dump} (h : s.tel.dump = some d) : execDumpWriteDone s = .next (
    (if d.trunc then ((s.dumpWritten d).bump .TEL0_TRUNCS_COUNT).setIntBit pgTel 11 else s.dumpWritten d).setIntBit
      pgTel 8) := by
  simp only [execDumpWriteDone, h]
  rfl

theorem State.dumps_dumpWritten (d : Dump) :
    (s.dumpWritten d).reg .TEL0_DUMPS_WRITTEN_COUNT = (s.reg .TEL0_DUMPS_WRITTEN_COUNT + 1) % 2 ^ 32 := by
  rw [State.dumpWritten, State.reg_onTel, State.reg_setReg_ne _ _ _ _ _ _ (by decide) (by decide) (by decide), State.reg_setReg_self]
  rfl

/-- A dump whose writes have ended (R512). -/
theorem State.dumpWriteDone_spec {d : Dump} (h : s.tel.dump = some d) :
    ∃ t, execDumpWriteDone s = .next t ∧ t.tel.dump = none ∧
      t.reg .TEL0_DUMPS_WRITTEN_COUNT = (s.reg .TEL0_DUMPS_WRITTEN_COUNT + 1) % 2 ^ 32 ∧
      t.window = (s.writeMem (s.regBit .TEL0_DUMP_BASE_IN_WINDOW) s.dumpAddr d.bytes).window ∧
      t.host = (s.writeMem (s.regBit .TEL0_DUMP_BASE_IN_WINDOW) s.dumpAddr d.bytes).host := by
  refine ⟨_, execDumpWriteDone_some h, ?_⟩
  rw [← State.dumps_dumpWritten (s := s) d]
  have kept : ((s.dumpWritten d).bump .TEL0_TRUNCS_COUNT).reg .TEL0_DUMPS_WRITTEN_COUNT
      = (s.dumpWritten d).reg .TEL0_DUMPS_WRITTEN_COUNT := State.reg_bump_ne _ _ _ (by decide) (by decide) (by decide)
  cases d.trunc
  · simp [State.dumpWritten]
  · simp only [if_true, State.reg_setIntBit, kept]
    simp [State.dumpWritten]

/-- Where the next tag record goes (R520). -/
def State.tagAddr (s : State) : Nat := s.reg .TEL3_TAG_BASE_ADDR * 4096 + s.reg .TEL3_TAG_TAIL_COUNT % s.tagSlots * 64

theorem execTagWriteDone_cons {r : List Byte} {l : List (List Byte)} (h : s.tel.tags = r :: l) : execTagWriteDone s = .next (
    ((s.writeMem (s.regBit .TEL3_TAG_BASE_IN_WINDOW) s.tagAddr r).setReg .TEL3_TAG_TAIL_COUNT
      (s.reg .TEL3_TAG_TAIL_COUNT + 1)).onTel (fun x => { x with tags := l })) := by
  simp only [execTagWriteDone, h]
  rfl

/-- A tag record whose write has ended (R520). -/
theorem State.tagWriteDone_spec {r : List Byte} {l : List (List Byte)} (h : s.tel.tags = r :: l) :
    ∃ t, execTagWriteDone s = .next t ∧ t.tel.tags = l ∧
      t.reg .TEL3_TAG_TAIL_COUNT = (s.reg .TEL3_TAG_TAIL_COUNT + 1) % 2 ^ 32 ∧
      t.window = (s.writeMem (s.regBit .TEL3_TAG_BASE_IN_WINDOW) s.tagAddr r).window ∧
      t.host = (s.writeMem (s.regBit .TEL3_TAG_BASE_IN_WINDOW) s.tagAddr r).host := by
  refine ⟨_, execTagWriteDone_cons h, rfl, ?_, by simp, by simp⟩
  rw [State.reg_onTel, State.reg_setReg_self]
  rfl

/-! ## Writes that fail -/

/-- A write that fails is recorded as 0x0001 (R528); nothing reaches memory. -/
theorem State.ringWriteFailed (p i : Nat) (f : Tel → Tel) :
    ((((s.onTel f).recErr p 0x0001).setIntBit p i).common p).err = true ∧
    (((s.onTel f).recErr p 0x0001).setIntBit p i).tel = f s.tel ∧
    (((s.onTel f).recErr p 0x0001).setIntBit p i).host = s.host ∧
    (((s.onTel f).recErr p 0x0001).setIntBit p i).window = s.window := by
  refine ⟨?_, by simp, by simp, by simp⟩
  rw [State.setIntBit, State.common_setInt, if_pos rfl, State.common_recErr, if_pos rfl]

end Sys2Proof.Machine

open Sys2Proof Sys2Proof.Machine in
/-- Settles O45: the rows of the window, of the two rings and of TEL_READ by their conditions. -/
theorem telemetryRings : Obligations.TelemetryRings := by
  intro s
  refine ⟨fun counts h => next_if_pos h, fun counts h => next_if_neg (by omega), fun d hd => State.dumpWriteDone_spec hd,
    fun r l hl => State.tagWriteDone_spec hl, fun r l hl => ?_, fun d hd => ?_, fun payload hp hop => next_if_pos ⟨hp, hop⟩⟩
  · obtain ⟨herr, htel, hhost, hwindow⟩ := State.ringWriteFailed (s := s) (pgTel + 3) 8 (fun x => { x with tags := l })
    exact ⟨_, by simp only [exec, execTelRingWriteFail, hl, if_true], by rw [htel], herr, hhost, hwindow⟩
  · obtain ⟨herr, htel, hhost, hwindow⟩ := State.ringWriteFailed (s := s) pgTel 9 (fun x => { x with dump := none })
    exact ⟨_, by simp only [exec, execTelRingWriteFail, hd, Bool.false_eq_true, if_false], by rw [htel], herr, hhost, hwindow⟩
end

section
/-! ## What leaves the platform alone -/
namespace Sys2Proof.Machine
variable {s t : State}

@[simp] theorem State.plat_ite (c : Prop) [Decidable c] (t u : State) :
    (if c then t else u).plat = if c then t.plat else u.plat := apply_ite _ _ _ _
@[simp] theorem State.plat_foldl {β : Type} (f : State → β → State)
    (h : ∀ t b, (f t b).plat = t.plat) (l : List β) : (l.foldl f s).plat = s.plat :=
  foldl_keeps State.plat f h l s

end Sys2Proof.Machine
end

section
/-! ## What leaves the platform alone: registers, memory, rings, sessions and commands -/
namespace Sys2Proof.Machine
variable {s t : State} (r : Reg) (x i k p code addr n detail handle result slot core id : Nat) (bits : Word)
  (st : Status) (bs : List Byte) (wasted : Bool) (waste : Nat → Bool)

end Sys2Proof.Machine
end

section
/-! ## What leaves the platform alone: the address map and the peer aperture -/
namespace Sys2Proof.Machine
variable {s t : State} (addr slot : Nat) (op : LeaseOp)

@[simp] theorem State.plat_countReq (port : Option Nat) : (s.countReq port).plat = s.plat := by
  simp only [State.countReq]; (repeat' split) <;> simp

end Sys2Proof.Machine
end

section
/-! ## What leaves the platform alone: pages and their tables -/
namespace Sys2Proof.Machine
variable {s t : State} (owner bytes n : Nat) (l : List Nat)

@[simp] theorem State.plat_heapGive : (s.heapGive owner bytes).plat = s.plat := by simp [State.heapGive]
@[simp] theorem State.plat_setPage (p : PageRec) : (s.setPage n p).plat = s.plat := by simp [State.setPage]
@[simp] theorem State.plat_onPage (f : PageRec → PageRec) : (s.onPage n f).plat = s.plat := by
  simp only [State.onPage]; (repeat' split) <;> simp
@[simp] theorem State.plat_handOver : (s.handOver n).plat = s.plat := by simp [State.handOver]
@[simp] theorem State.plat_dropUsers : (s.dropUsers l).plat = s.plat := by simp [State.dropUsers]
@[simp] theorem State.plat_dropHbm : (s.dropHbm n).plat = s.plat := by simp only [State.dropHbm]; (repeat' split) <;> simp
@[simp] theorem State.plat_dropFlash : (s.dropFlash n).plat = s.plat := by
  simp only [State.dropFlash]; (repeat' split) <;> simp
@[simp] theorem State.plat_dropPool : (s.dropPool n).plat = s.plat := by
  simp only [State.dropPool]; (repeat' split) <;> simp
@[simp] theorem State.plat_dropIdleHbm : (s.dropIdleHbm n).plat = s.plat := by
  simp only [State.dropIdleHbm]; (repeat' split) <;> simp
@[simp] theorem State.plat_dropIdlePool : (s.dropIdlePool n).plat = s.plat := by
  simp only [State.dropIdlePool]; (repeat' split) <;> simp
@[simp] theorem plat_releaseFlash (fuel : Nat) : (releaseFlash fuel s).plat = s.plat := by
  induction fuel generalizing s with
  | zero => rfl
  | succ fuel ih =>
    simp only [releaseFlash]
    repeat' split
    all_goals simp [ih]
@[simp] theorem State.plat_easeFlash : s.easeFlash.plat = s.plat := by simp [State.easeFlash]
@[simp] theorem State.plat_releaseHeld : (s.releaseHeld n).plat = s.plat := by
  simp only [State.releaseHeld]; (repeat' split) <;> simp
@[simp] theorem State.plat_unpin : (s.unpin n).plat = s.plat := by simp only [State.unpin]; (repeat' split) <;> simp

end Sys2Proof.Machine
end

section
/-! ## What leaves the platform alone: sessions -/
namespace Sys2Proof.Machine
variable {s t : State} (slot detail id p : Nat) (q : StepReq) (st : Status) (c : Cmd)

@[simp] theorem State.plat_setWays (set : Nat) (w : List Way) : (s.setWays set w).plat = s.plat := by simp [State.setWays]
@[simp] theorem State.plat_unlockEntry : (s.unlockEntry slot).plat = s.plat := by simp [State.unlockEntry]
@[simp] theorem State.plat_emptyHeader : (s.emptyHeader q st).plat = s.plat := by
  simp only [State.emptyHeader]; (repeat' split) <;> simp
@[simp] theorem State.plat_stepCompletion : (s.stepCompletion slot q st detail).plat = s.plat := by
  simp only [State.stepCompletion]; (repeat' split) <;> simp
@[simp] theorem State.plat_endStep : (s.endStep slot st detail).plat = s.plat := by
  simp only [State.endStep]; (repeat' split) <;> simp

end Sys2Proof.Machine
end

section
/-! ## What leaves the platform alone: moves between tiers -/
namespace Sys2Proof.Machine
variable {s t : State} (n slot detail k : Nat) (m : Move) (dst : Residency) (cmd : Option Nat) (x : Session)
  (st : Status) (o : TileOutcome)

@[simp] theorem State.plat_giveFlash : (s.giveFlash n).plat = s.plat := by simp [State.giveFlash]
@[simp] theorem State.plat_givePool : (s.givePool n).plat = s.plat := by simp [State.givePool]
@[simp] theorem State.plat_setMove : (s.setMove n m).plat = s.plat := by simp [State.setMove]
@[simp] theorem State.plat_eraseMove : (s.eraseMove n).plat = s.plat := by
  simp only [State.eraseMove]; (repeat' split) <;> simp
@[simp] theorem State.plat_addMove : (s.addMove m).plat = s.plat := by simp [State.addMove]
@[simp] theorem State.plat_askPromote (need : Nat) (hot reheat : Bool) :
    (s.askPromote slot need hot reheat).plat = s.plat := by
  simp only [State.askPromote]; (repeat' split) <;> simp
@[simp] theorem State.plat_leaveMoving (r : Residency) : (s.leaveMoving slot r).plat = s.plat := by simp [State.leaveMoving]
@[simp] theorem State.plat_hotToWarm : (s.hotToWarm slot).plat = s.plat := by simp [State.hotToWarm]
@[simp] theorem State.plat_completeMove : (s.completeMove cmd slot st detail).plat = s.plat := by
  simp only [State.completeMove]; (repeat' split) <;> simp
@[simp] theorem State.plat_settleDown (recB : Nat) : (s.settleDown m recB).plat = s.plat := by simp [State.settleDown]
@[simp] theorem State.plat_promoteRunnable : (s.promoteRunnable slot).plat = s.plat := by
  simp only [State.promoteRunnable]; (repeat' split) <;> simp
@[simp] theorem State.plat_undoPromote : (s.undoPromote m x).plat = s.plat := by simp [State.undoPromote]
@[simp] theorem State.plat_failWaiting : (s.failWaiting slot st detail).plat = s.plat := by simp [State.failWaiting]
@[simp] theorem State.plat_giveUpStep : (s.giveUpStep slot st detail).plat = s.plat := by
  simp only [State.giveUpStep]; (repeat' split) <;> simp
@[simp] theorem State.plat_failMove (bad : Bool) : (s.failMove n m bad).plat = s.plat := by
  simp only [State.failMove]; (repeat' split) <;> simp
@[simp] theorem State.plat_dropSeatMoves : (s.dropSeatMoves k).plat = s.plat := by simp [State.dropSeatMoves]
@[simp] theorem State.plat_unseatCluster : (s.unseatCluster k).plat = s.plat := by simp [State.unseatCluster]
@[simp] theorem State.plat_unseatMoving : (s.unseatMoving k).plat = s.plat := by simp [State.unseatMoving]
@[simp] theorem State.plat_dropHalves : (s.dropHalves k).plat = s.plat := by simp [State.dropHalves]
@[simp] theorem State.plat_clearCluster : (s.clearCluster k).plat = s.plat := by simp [State.clearCluster]

end Sys2Proof.Machine
end

section
/-! ## What leaves the platform alone: fabric memory and peers -/
namespace Sys2Proof.Machine
variable {s t : State} (r : Req) (device n source rate width : Nat) (m : PeerMsg)

@[simp] theorem State.plat_leave : (s.leave r).plat = s.plat := by simp only [State.leave]; (repeat' split) <;> simp
@[simp] theorem State.plat_leaveWaiting : s.leaveWaiting.plat = s.plat := by
  refine State.plat_foldl _ (fun t e => ?_) _
  split <;> simp
@[simp] theorem State.plat_setLink (l0p : Bool) : (s.setLink n rate width l0p).plat = s.plat := by simp [State.setLink]
@[simp] theorem State.plat_reissue : (s.reissue n).plat = s.plat := by simp [State.reissue]
@[simp] theorem State.plat_portOff : (s.portOff n).plat = s.plat := by simp [State.portOff]

end Sys2Proof.Machine
end

section
/-! ## What leaves the platform alone: power and clocks -/
namespace Sys2Proof.Machine
variable {s t : State} (n ma w c mv d target domain : Nat) (pll : Bool)

@[simp] theorem State.plat_resetPage (page idx : Nat) : (s.resetPage page idx).plat = s.plat := by
  simp [State.resetPage]
@[simp] theorem State.plat_portPowerOff : (s.portPowerOff n).plat = s.plat := by simp [State.portPowerOff]
@[simp] theorem State.plat_portTrain : (s.portTrain n).plat = s.plat := by simp [State.portTrain]
@[simp] theorem State.plat_leaveOn : (s.leaveOn d target).plat = s.plat := by simp [State.leaveOn]
@[simp] theorem State.plat_domainOff : (s.domainOff d).plat = s.plat := by simp [State.domainOff]
@[simp] theorem State.plat_rebuildSlice : (s.rebuildSlice n).plat = s.plat := by
  simp only [State.rebuildSlice]; (repeat' split) <;> simp

end Sys2Proof.Machine
end


section
/-! # Registers of different fields and pages -/
namespace Sys2Proof.Machine
variable {s t : State} {r q : Reg}

/-- Copies of the same number of different fields are apart, whatever the number. -/
theorem State.reg_setReg_ne_same (v i : Nat) (h : q ≠ r) : (s.setReg r v i).reg q i = s.reg q i :=
  State.reg_setReg_of_key_ne _ _ _ _ _ _ fun e => h (Reg.ctorIdx_inj (by unfold Reg.key at e; omega))

@[simp] theorem State.reg_onPlat (f : Plat → Plat) (i : Nat) : (s.onPlat f).reg q i = s.reg q i := rfl

@[simp] theorem State.reg_recErr (p code i : Nat) : (s.recErr p code).reg q i = s.reg q i := State.reg_congr (by simp) q i

@[simp] theorem State.reg_ungate (i : Nat) : s.ungate.reg q i = s.reg q i := rfl

end Sys2Proof.Machine
end

section
/-! # Power domains: requests -/
namespace Sys2Proof.Machine
variable {s t : State} {d target : Nat} {v : BitVec 2}

/-- The state that a write to PWR_DOM_REQ asks for; 3 is taken as 0 (R475). -/
def reqTarget (v : BitVec 2) : Nat := if v.toNat = 3 then 0 else v.toNat

theorem taken_domReq (d : Nat) (v : BitVec 2) : Reg.taken .PWR_DOM_REQ_STATE d (v.toNat % 4) = reqTarget v := by
  rw [Nat.mod_eq_of_lt v.isLt]
  rfl

theorem reqTarget_lt (v : BitVec 2) : reqTarget v < 3 := by
  have h := v.isLt
  unfold reqTarget
  split <;> omega

/-- The state once PWR_DOM_REQ shows what is asked for. -/
def State.asked (s : State) (d : Nat) (v : BitVec 2) : State := s.ungate.setReg .PWR_DOM_REQ_STATE (reqTarget v) d

theorem State.req_asked : (s.asked d v).reg .PWR_DOM_REQ_STATE d = reqTarget v := by
  rw [State.asked, State.reg_setReg_self]
  exact Nat.mod_eq_of_lt (Nat.lt_succ_of_lt (reqTarget_lt v))

theorem State.domState_asked : (s.asked d v).domState d = s.domState d := State.reg_setReg_ne_same _ _ (by decide)

@[simp] theorem State.asked_frame :
    (s.asked d v).plat = s.ungate.plat ∧ (s.asked d v).sec = s.sec ∧ (s.asked d v).tick = s.tick := by
  simp [State.asked]

theorem execDomReq_dead (h : s.live = false) : execDomReq v s = .next s := by
  simp [execDomReq, State.touch, h]

section
variable (hl : s.live = true) (hd : s.reg .PWR_DOM_SEL_DOMAIN = d)
include hl hd

theorem execDomReq_island (h : d = 166 ∨ d = 167) : execDomReq v s = .next (s.ungate.recErr pgPwr 0x0012) := by
  simp only [execDomReq, State.touch_live hl, State.live_ungate, hl, if_true, State.domReq, State.reg_ungate, hd, if_pos h]

theorem execDomReq_absent (h : 167 < d) : execDomReq v s = .next s.ungate := by
  have hn : ¬(d = 166 ∨ d = 167) := by omega
  simp only [execDomReq, State.touch_live hl, State.live_ungate, hl, if_true, State.domReq, State.reg_ungate, hd, if_neg hn,
    if_pos h]

/-- A request for a domain that hosts may ask for: held through a fining pass, and else applied (R463, R475). -/
theorem execDomReq_domain (h : d < 166) : execDomReq v s = .next (match s.sec.pass with
    | some p => { s.asked d v with
        sec := { s.sec with pass := some { p with requests := p.requests ++ [(d, reqTarget v)] } } }
    | none => (s.asked d v).applyRequest d (reqTarget v)) := by
  have hn : ¬(d = 166 ∨ d = 167) := by omega
  have hn' : ¬167 < d := by omega
  have hsec : (s.ungate.setReg .PWR_DOM_REQ_STATE (reqTarget v) d).sec = s.sec := by simp
  simp only [execDomReq, State.touch_live hl, State.live_ungate, hl, if_true, State.domReq, State.reg_ungate, hd, if_neg hn,
    if_neg hn', taken_domReq, hsec]
  rfl

end

/-! ## What becomes of a request -/

theorem State.applyRequest_held (h : s.plat.moving.has d = true) :
    s.applyRequest d target = s.onPlat (fun p => { p with held := p.held.set d target }) := by
  rw [State.applyRequest, if_pos h]

theorem State.applyRequest_refused (h : s.plat.moving.has d = false) (hr : s.domRefused d target = true) :
    s.applyRequest d target = s.recErr pgPwr 0x0011 := by
  rw [State.applyRequest, if_neg (by simp [h]), if_pos hr]

theorem State.applyRequest_same (h : s.plat.moving.has d = false) (hr : s.domRefused d target = false)
    (hs : s.domState d = target) : s.applyRequest d target = (s.setReg .PWR_DOM_STAT_AUTO 0 d).setIntBit pgPwr 12 := by
  rw [State.applyRequest, if_neg (by simp [h]), if_neg (by simp [hr]), if_pos hs]

theorem State.applyRequest_starts (h : s.plat.moving.has d = false) (hr : s.domRefused d target = false)
    (hs : s.domState d ≠ target) : s.applyRequest d target = s.startTransition d target := by
  rw [State.applyRequest, if_neg (by simp [h]), if_neg (by simp [hr]), if_neg hs]

/-- A transition that has started: the domain is as it was, and MOVING. -/
theorem State.startTransition_spec :
    (s.startTransition d target).domState d = s.domState d ∧
    (s.startTransition d target).regBit .PWR_DOM_STAT_MOVING d = true ∧
    (s.startTransition d target).reg .PWR_DOM_REQ_STATE d = s.reg .PWR_DOM_REQ_STATE d ∧
    (s.startTransition d target).plat.moving.get? d
      = some (target, if target = 0 then s.tick + wakeTicks d (s.domState d) else s.tick) := by
  refine ⟨State.reg_setReg_ne_same _ _ (by decide), ?_, State.reg_setReg_ne_same _ _ (by decide), ?_⟩
  · rw [State.startTransition, State.regBit, State.reg_onPlat, State.reg_setReg_self]
    rfl
  · simp [State.startTransition, State.onPlat]

/-! ## What a domain must refuse (R475) -/

theorem State.domRefused_free (h : d < 128 ∨ 148 ≤ d ∧ d < 164) : s.domRefused d target = false := by
  have h1 : (decide (128 ≤ d) && decide (d < 136)) = false := by simp; omega
  have h2 : (decide (136 ≤ d) && decide (d < 148)) = false := by simp; omega
  simp only [State.domRefused, h1, h2, Bool.false_eq_true, if_false]
  rw [if_neg (by omega), if_neg (by omega)]

theorem State.domRefused_cluster (h : 128 ≤ d) (h' : d < 136) : s.domRefused d target =
    ((target == 1 && (clusterCores (d - 128)).any (fun n => s.domState n == 0))
      || (target == 2 && (clusterCores (d - 128)).any (fun n => s.domState n != 2))) := by
  simp only [State.domRefused, h, h', decide_true, Bool.and_self, if_true]

/-- No domain above the cores refuses to be ON, and none above the clusters refuses RETENTION: each clause of R475 names
another state. -/
theorem State.domRefused_on : s.domRefused d 0 = false := by
  simp [State.domRefused]

theorem State.domRefused_retention (h : 136 ≤ d) : s.domRefused d 1 = false := by
  have h1 : (decide (128 ≤ d) && decide (d < 136)) = false := by simp; omega
  simp [State.domRefused, h1]

end Sys2Proof.Machine
end

section
/-! # Power domains: transitions -/
namespace Sys2Proof.Machine
variable {s t : State} {d target due : Nat}

/-- What a domain loses on its way to a state. -/
def State.domLeft (s : State) (d target : Nat) : State :=
  let u := if s.domState d = 0 ∧ target ≠ 0 then s.leaveOn d target else s
  if target = 2 then u.domainOff d else u

/-- PWR_DOM_STAT shows a domain in its state, and the transition is over. -/
def State.domShown (s : State) (d target : Nat) : State :=
  ((s.setReg .PWR_DOM_STAT_STATE target d).setReg .PWR_DOM_STAT_MOVING 0 d).onPlat
    (fun p => { p with moving := p.moving.erase d })

/-- What a domain that comes ON does. -/
def State.domWoken (s : State) (d target : Nat) : State :=
  if target = 0 then
    if decide (156 ≤ d) && decide (d < 164) && (s.common (fabPage (d - 156))).en then s.portTrain (d - 156)
    else if d < 128 then
      (if s.regBit .CLK_CFG_WAKE_PLL && s.pllLocked then s.clockSwitch d true else s).rebuildSlice d
    else s
  else s

theorem State.settleDomain_eq : s.settleDomain d target = ((s.domLeft d target).domShown d target).domWoken d target := rfl

@[simp] theorem State.plat_domLeft : (s.domLeft d target).plat = s.plat := by
  simp only [State.domLeft]
  (repeat' split) <;> simp

@[simp] theorem State.plat_clockSwitch (n : Nat) (b : Bool) : (s.clockSwitch n b).plat = s.plat := by
  simp only [State.clockSwitch]
  split <;> simp

@[simp] theorem State.plat_domWoken : (s.domWoken d target).plat = s.plat := by
  simp only [State.domWoken]
  (repeat' split) <;> simp

theorem State.plat_settleDomain :
    (s.settleDomain d target).plat = { s.plat with moving := s.plat.moving.erase d } := by
  rw [State.settleDomain_eq, State.plat_domWoken]
  simp [State.domShown, State.onPlat]

/-- A change of a core's clock counts one switch and sets no other register. -/
theorem State.reg_clockSwitch {q : Reg} (n i : Nat) (b : Bool) (hq : q ≠ .CLK_SWITCHES_COUNT) (hi : i < 4294967296) :
    (s.clockSwitch n b).reg q i = s.reg q i := by
  have core (u : State) (c : Core) : (u.setCore n c).reg q i = u.reg q i := rfl
  simp only [State.clockSwitch]
  split
  · exact core _ _
  · rw [State.reg_bump_ne _ _ _ hq (by decide) hi, core]

@[simp] theorem State.reg_rebuildSlice (n i : Nat) (q : Reg) : (s.rebuildSlice n).reg q i = s.reg q i := by
  unfold State.rebuildSlice
  split <;> rfl

@[simp] theorem State.reg_portTrain (n i : Nat) (q : Reg) : (s.portTrain n).reg q i = s.reg q i := by
  unfold State.portTrain
  split
  · rfl
  · exact State.reg_congr (by simp) q i

theorem State.reg_domWoken {q : Reg} (hq : q ≠ .CLK_SWITCHES_COUNT) : (s.domWoken d target).reg q d = s.reg q d := by
  simp only [State.domWoken]
  split
  · split
    · rw [State.reg_portTrain]
    · split
      · rw [State.reg_rebuildSlice]
        split
        · exact State.reg_clockSwitch _ _ _ hq (by omega)
        · rfl
      · rfl
  · rfl

theorem State.domState_settleDomain (h : target < 3) : (s.settleDomain d target).domState d = target := by
  rw [State.settleDomain_eq, State.domState, State.reg_domWoken (by decide), State.domShown, State.reg_onPlat,
    State.reg_setReg_ne_same _ _ (by decide), State.reg_setReg_self]
  exact Nat.mod_eq_of_lt (Nat.lt_succ_of_lt h)

theorem State.moving_settleDomain : (s.settleDomain d target).regBit .PWR_DOM_STAT_MOVING d = false := by
  rw [State.settleDomain_eq, State.regBit, State.reg_domWoken (by decide), State.domShown, State.reg_onPlat,
    State.reg_setReg_self]
  rfl

/-! ## The end of a transition -/

/-- A domain has reached its state, which interrupts unless the domain moves by itself (R477). -/
def State.domReached (s : State) (d target : Nat) : State :=
  let u := s.settleDomain d target
  if u.regBit .PWR_DOM_STAT_AUTO d then u else u.setIntBit pgPwr 12

theorem State.domReached_spec :
    (s.domReached d target).plat = { s.plat with moving := s.plat.moving.erase d } ∧
    (target < 3 → (s.domReached d target).domState d = target) ∧
    (s.domReached d target).regBit .PWR_DOM_STAT_MOVING d = false := by
  have hplat := State.plat_settleDomain (s := s) (d := d) (target := target)
  have hmoving := State.moving_settleDomain (s := s) (d := d) (target := target)
  simp only [State.domReached]
  split
  · exact ⟨hplat, State.domState_settleDomain, hmoving⟩
  · refine ⟨by simpa using hplat, fun h => ?_, ?_⟩
    · rw [State.domState, State.reg_setIntBit]
      exact State.domState_settleDomain h
    · rw [State.regBit, State.reg_setIntBit]
      exact hmoving

theorem execDomainTransitionDone_none (h : s.plat.moving.get? d = none) : execDomainTransitionDone d s = .next s := by
  simp only [execDomainTransitionDone, h]

section
variable (hm : s.plat.moving.get? d = some (target, due))
include hm

theorem execDomainTransitionDone_notYet (h : s.mayEnd d target due = false) :
    execDomainTransitionDone d s = .next (s.wakeCluster d target) := by
  simp only [execDomainTransitionDone, hm, h, Bool.false_eq_true, if_false]

variable (h : s.mayEnd d target due = true)
include h

theorem execDomainTransitionDone_ends (hh : s.plat.held.get? d = none) :
    execDomainTransitionDone d s = .next (s.domReached d target) := by
  have held : (s.domReached d target).plat.held.get? d = none := by rw [State.domReached_spec.1]; exact hh
  simp only [execDomainTransitionDone, hm, h, if_true]
  change Host.Outcome.next (match (s.domReached d target).plat.held.get? d with | none => _ | some t => _) = _
  rw [held]
  rfl

theorem execDomainTransitionDone_next {next : Nat} (hh : s.plat.held.get? d = some next) :
    execDomainTransitionDone d s = .next
      (((s.domReached d target).onPlat (fun p => { p with held := p.held.erase d })).applyRequest d next) := by
  have held : (s.domReached d target).plat.held.get? d = some next := by rw [State.domReached_spec.1]; exact hh
  simp only [execDomainTransitionDone, hm, h, if_true]
  change Host.Outcome.next (match (s.domReached d target).plat.held.get? d with | none => _ | some t => _) = _
  rw [held]
  rfl

end

theorem State.mayEnd_early (h : s.tick < due) : s.mayEnd d target due = false := by
  have hd : decide (due ≤ s.tick) = false := by simpa using h
  simp [State.mayEnd, hd]

/-! ## Automatic domains (R477) -/

/-- An automatic domain that work needs starts to wake. -/
theorem State.autoWake_spec (hd : d < 4294967296) (f : Plat → Map Nat) :
    let u := (s.startTransition d 0).setReg .PWR_DOM_STAT_AUTO 1 d
    let t := (u.bump .PWR_AUTO_WAKES_COUNT).onPlat (fun p => { p with wokenAt := f p })
    t.plat.moving.get? d = some (0, s.tick + wakeTicks d (s.domState d)) ∧ t.regBit .PWR_DOM_STAT_AUTO d = true := by
  refine ⟨by simp [State.startTransition, State.onPlat], ?_⟩
  rw [State.regBit, State.reg_onPlat, State.reg_bump_ne _ _ _ (by decide) (by decide) hd, State.reg_setReg_self]
  rfl

theorem wakesAlone_lt {st : Nat} (h : wakesAlone d st = true) : d < 166 := by
  simp only [wakesAlone, Bool.or_eq_true, Bool.and_eq_true, beq_iff_eq, decide_eq_true_eq] at h
  omega

end Sys2Proof.Machine
end

section
/-! # Clocks of the cores -/
namespace Sys2Proof.Machine
variable {s t : State} {b : Bool} {q : Reg}

/-- A core whose clock switch is asked for: at once where no tile is in progress, else at the tile's end (R479). -/
def Core.asked (c : Core) (b : Bool) : Core :=
  if c.tileKind = 0 then { c with onPll := b, swTo := none } else { c with swTo := some b }

theorem Core.asked_asked (c : Core) : (c.asked b).asked b = c.asked b := by
  unfold Core.asked
  by_cases h : c.tileKind = 0 <;> simp [h]

theorem Core.asked_idle {c : Core} (h : c.tileKind = 0) : (c.asked b).onPll = b := by
  simp [Core.asked, h]

theorem Core.asked_busy {c : Core} (h : c.tileKind ≠ 0) :
    (c.asked b).onPll = c.onPll ∧ (c.asked b).swTo = some b := by
  simp [Core.asked, h]

@[simp] theorem State.core_bump (r : Reg) (i k n : Nat) : (s.bump r i k).core n = s.core n := by
  simp [State.core]

theorem State.core_askSwitch (n k : Nat) :
    (s.askSwitch n b).core k = if k = n then (s.core n).asked b else s.core k := by
  simp only [State.askSwitch, State.clockSwitch, Core.asked]
  by_cases htile : (s.core n).tileKind = 0
  · by_cases hpll : (s.core n).onPll = b
    · subst hpll
      simp [htile, State.core_setCore]
    · simp [htile, hpll, State.core_setCore]
  · simp [htile, State.core_setCore]

/-- A clock switch is asked for on each core of a list. -/
def State.switchAll (s : State) (l : List Nat) (b : Bool) : State := l.foldl (fun s n => s.askSwitch n b) s

theorem State.core_switchAll (l : List Nat) (k : Nat) :
    (s.switchAll l b).core k = if k ∈ l then (s.core k).asked b else s.core k := by
  induction l generalizing s with
  | nil => rfl
  | cons n l ih =>
    refine (ih (s := s.askSwitch n b)).trans ?_
    rw [State.core_askSwitch]
    by_cases hk : k = n
    · subst hk
      simp [Core.asked_asked]
    · simp [hk]

theorem State.reg_askSwitch (n i : Nat) (hq : q ≠ .CLK_SWITCHES_COUNT) (hi : i < 4294967296) :
    (s.askSwitch n b).reg q i = s.reg q i := by
  unfold State.askSwitch
  split
  · exact State.reg_clockSwitch n i b hq hi
  · rfl

theorem State.reg_switchAll (l : List Nat) (i : Nat) (hq : q ≠ .CLK_SWITCHES_COUNT) (hi : i < 4294967296) :
    (s.switchAll l b).reg q i = s.reg q i :=
  foldl_keeps (fun u => u.reg q i) _ (fun _ n => State.reg_askSwitch n i hq hi) l s

@[simp] theorem State.askSwitch_frame (n : Nat) :
    (s.askSwitch n b).commons = s.commons ∧ (s.askSwitch n b).fam = s.fam ∧ (s.askSwitch n b).tick = s.tick ∧
    (s.askSwitch n b).plat = s.plat := by
  simp only [State.askSwitch, State.clockSwitch]
  (repeat' split) <;> simp

@[simp] theorem State.switchAll_frame (l : List Nat) :
    (s.switchAll l b).commons = s.commons ∧ (s.switchAll l b).fam = s.fam ∧ (s.switchAll l b).tick = s.tick ∧
    (s.switchAll l b).plat = s.plat :=
  ⟨foldl_keeps State.commons _ (by simp) l s, foldl_keeps State.fam _ (by simp) l s, foldl_keeps State.tick _ (by simp) l s,
    foldl_keeps State.plat _ (by simp) l s⟩

/-! ## The cores that are selected -/

theorem State.mem_onCores {n : Nat} : n ∈ s.onCores ↔ n < 128 ∧ s.domOn n = true := by
  simp [State.onCores]

/-- The cores that CLK_CORE_SEL chooses (R502). -/
theorem State.mem_selectedCores {n : Nat} : n ∈ s.selectedCores ↔
    n < 128 ∧ s.domOn n = true ∧ (s.regBit .CLK_CORE_SEL_ALL = true ∨ n = s.reg .CLK_CORE_SEL_CORE) := by
  unfold State.selectedCores
  split
  next h => simp [State.mem_onCores, h]
  next h => simp [State.mem_onCores, h, and_assoc]

theorem execCoreSwToPll_live (hl : s.live = true) : execCoreSwToPll s =
    .next (if s.pllLocked then s.ungate.switchAll s.selectedCores true else s.ungate) := by
  simp only [execCoreSwToPll, State.touch_live hl, State.live_ungate, hl, Bool.true_and]
  rfl

theorem execCoreSwToStart_live (hl : s.live = true) : execCoreSwToStart s =
    .next (s.ungate.switchAll s.selectedCores false) := by
  simp only [execCoreSwToStart, State.touch_live hl, State.live_ungate, hl, if_true]
  rfl

/-- What a switch of the selected cores leaves of each core. -/
theorem State.switched_spec (n : Nat) :
    (n ∈ s.selectedCores → (s.core n).tileKind = 0 → ((s.ungate.switchAll s.selectedCores b).core n).onPll = b) ∧
    (n ∈ s.selectedCores → (s.core n).tileKind ≠ 0 →
      ((s.ungate.switchAll s.selectedCores b).core n).onPll = (s.core n).onPll ∧
      ((s.ungate.switchAll s.selectedCores b).core n).swTo = some b) ∧
    (n ∉ s.selectedCores → (s.ungate.switchAll s.selectedCores b).core n = s.core n) := by
  rw [State.core_switchAll]
  refine ⟨fun h hi => ?_, fun h hb => ?_, fun h => ?_⟩
  · rw [if_pos h]
    exact Core.asked_idle hi
  · rw [if_pos h]
    exact Core.asked_busy hb
  · rw [if_neg h]
    rfl

end Sys2Proof.Machine
end

section
/-! # The reference clock and the PLL -/
namespace Sys2Proof.Machine
variable {s t : State} {q : Reg} {i k m n p : Nat}

/-! ## Links that go down leave the clocks alone -/

theorem State.peerPort_lt {device : Nat} (h : s.peerPort device = some k) : k < 8 := by
  obtain ⟨e, -, he⟩ := Option.bind_eq_some_iff.mp h
  simp only [State.portFor] at he
  split at he
  · cases he
  · have hk := List.mem_of_getElem? he
    simp only [State.usablePorts, List.mem_filter, List.mem_range] at hk
    exact hk.1

/-- A register of the clocks, and the cores. -/
def State.clocks (s : State) (q : Reg) (i : Nat) : Nat × Map Core := (s.reg q i, s.cores)

theorem State.clocks_setReg {r : Reg} (v j : Nat) (h : q ≠ r) (hi : i < 4294967296) (hj : j < 4294967296) :
    (s.setReg r v j).clocks q i = s.clocks q i := by
  simp [State.clocks, State.reg_setReg_ne _ _ _ _ _ _ h hj hi]

theorem State.clocks_bump {r : Reg} (j v : Nat) (h : q ≠ r) (hi : i < 4294967296) (hj : j < 4294967296) :
    (s.bump r j v).clocks q i = s.clocks q i := State.clocks_setReg _ _ h hi hj

theorem ne_of_page {r : Reg} (hq : q.desc.page = 2) (hr : r.desc.page ≠ 2) : q ≠ r := fun e => hr (e ▸ hq)

section
variable (hq : q.desc.page = 2) (hi : i < 4294967296)
include hq hi

theorem State.clocks_countReq (hk : k < 8) : (s.countReq (some k)).clocks q i = s.clocks q i := by
  have hfab : q ≠ .FAB_REQS_COUNT := ne_of_page hq (by decide)
  have hfam : q ≠ .FAM_REQS_COUNT := ne_of_page hq (by decide)
  simp only [State.countReq]
  rw [State.clocks_bump k 1 hfab hi (by omega), State.clocks_bump 0 1 hfam hi (by omega)]

theorem State.clocks_leave (r : Req) (h : r.port = some k) (hk : k < 8) : (s.leave r).clocks q i = s.clocks q i := by
  have hout (u : State) (o : List OutMsg) : ({ u with out := o } : State).clocks q i = u.clocks q i := rfl
  simp only [State.leave, h]
  rw [hout, State.clocks_countReq hq hi hk]

theorem State.clocks_leaveWaiting : s.leaveWaiting.clocks q i = s.clocks q i := by
  refine foldl_keeps (fun u => u.clocks q i) _ (fun u e => ?_) _ _
  dsimp only
  split
  · rfl
  next k hk =>
    refine (State.clocks_leave hq hi _ rfl (State.peerPort_lt hk)).trans ?_
    split
    · exact State.clocks_bump _ _ (ne_of_page hq (by decide)) hi (by have := State.peerPort_lt hk; omega)
    · rfl

theorem State.clocks_reissue : (s.reissue n).clocks q i = s.clocks q i := by
  refine (State.clocks_leaveWaiting hq hi).trans (foldl_keeps (fun u => u.clocks q i) _ (fun _ _ => ?_) _ _)
  rfl

theorem State.clocks_linkDown (hn : n < 8) : (s.linkDown n).clocks q i = s.clocks q i := by
  have port (u : State) (x : Port) : (u.setPort n x).clocks q i = u.clocks q i := rfl
  have page (u : State) (p st b : Nat) : ((u.setPageState p st).clocks q i = u.clocks q i) ∧
      (u.setIntBit p b).clocks q i = u.clocks q i := by simp [State.clocks, State.reg]
  unfold State.linkDown
  rw [State.clocks_reissue hq hi, port, (page _ _ 0 _).2, State.clocks_bump _ _ (ne_of_page hq (by decide)) hi (by omega),
    (page _ _ _ 0).1, State.setLink, State.clocks_setReg _ _ (ne_of_page hq (by decide)) hi (by omega),
    State.clocks_setReg _ _ (ne_of_page hq (by decide)) hi (by omega),
    State.clocks_setReg _ _ (ne_of_page hq (by decide)) hi (by omega)]

end

theorem State.pageState_reissue : (s.reissue n).pageState p = s.pageState p := by
  simp only [State.reissue, State.pageState_leaveWaiting]
  refine foldl_keeps (fun u => u.pageState p) _ (fun _ _ => ?_) _ _
  rfl

@[simp] theorem State.pageState_setReg (r : Reg) (v j : Nat) : (s.setReg r v j).pageState p = s.pageState p :=
  State.pageState_congr (by simp) p

@[simp] theorem State.pageState_bump (r : Reg) (j v : Nat) : (s.bump r j v).pageState p = s.pageState p :=
  State.pageState_congr (by simp) p

theorem State.pageState_linkDown : (s.linkDown n).pageState p = if p = fabPage n then 5 else s.pageState p := by
  unfold State.linkDown
  rw [State.pageState_reissue, State.pageState_setPort, State.pageState_setIntBit,
    State.pageState_bump, State.pageState_setPageState, State.setLink, State.pageState_setReg, State.pageState_setReg,
    State.pageState_setReg]

/-! ## A lost REFCLK (R482) -/

/-- A fabric port whose clock is lost goes DOWN. -/
def State.portLost (s : State) (n : Nat) : State :=
  let st := s.pageState (fabPage n)
  if st = 3 ∨ st = 4 then s.linkDown n else if st = 2 then s.setPageState (fabPage n) 5 else s

/-- The PLL is unlocked, and the loss of REFCLK is shown. -/
def State.refLost (s : State) : State :=
  ((((s.setReg .CLK_STATUS_REF_REF_OK 0).setReg .CLK_STATUS_REF_REF_LOST 1).setReg .CLK_PLL_EFF_LOCKED 0).bump
    .CLK_REF_LOSSES_COUNT).setIntBit pgClk 8

/-- The cores that run on the PLL, or are to. -/
def State.pllCores (s : State) : List Nat := s.onCores.filter (fun n => (s.core n).onPll || (s.core n).swTo == some true)

/-- The cores leave the PLL. -/
def State.coresOff (s : State) : State :=
  (s.switchAll s.pllCores false).onPlat (fun p => { p with lostCores := s.pllCores })

theorem execRefclkLost_ok (hp : s.plat.phase = .on) (hr : s.regBit .CLK_STATUS_REF_REF_OK = true) :
    execRefclkLost s = .next ((List.range 8).foldl State.portLost s.refLost.coresOff) := by
  simp only [execRefclkLost, hp, hr, and_self, if_true]
  rfl

theorem State.clocks_portLost (hq : q.desc.page = 2) (hi : i < 4294967296) (hn : n < 8) :
    (s.portLost n).clocks q i = s.clocks q i := by
  simp only [State.portLost]
  split
  · exact State.clocks_linkDown hq hi hn
  · split
    · simp [State.clocks, State.reg]
    · rfl

theorem fabPage_inj {m n : Nat} (h : fabPage m = fabPage n) : m = n := by
  unfold fabPage at h
  omega

theorem State.pageState_portLost (m : Nat) : (s.portLost m).pageState (fabPage n) =
    if n = m ∧ (s.pageState (fabPage n) = 2 ∨ s.pageState (fabPage n) = 3 ∨ s.pageState (fabPage n) = 4) then 5
    else s.pageState (fabPage n) := by
  by_cases hm : n = m
  · subst hm
    simp only [State.portLost]
    split
    next h => rw [State.pageState_linkDown, if_pos rfl, if_pos ⟨trivial, .inr h⟩]
    next h =>
      split
      next h2 => rw [State.pageState_setPageState, if_pos rfl, if_pos ⟨trivial, .inl h2⟩]
      next h2 => rw [if_neg fun e => e.2.elim h2 h]
  · have hp : fabPage n ≠ fabPage m := fun e => hm (fabPage_inj e)
    rw [if_neg fun e => hm e.1]
    simp only [State.portLost]
    split
    · rw [State.pageState_linkDown, if_neg hp]
    · split
      · rw [State.pageState_setPageState, if_neg hp]
      · rfl

end Sys2Proof.Machine
end

section
/-! # The reference clock and the PLL: what is lost and what comes back -/
namespace Sys2Proof.Machine
variable {s t : State} {q : Reg} {i k m n p : Nat}

/-! ## REFCLK is lost -/

/-- Registers of the clocks stay as the loss of REFCLK leaves them while cores and ports follow. -/
theorem State.clocks_portsLost (hq : q.desc.page = 2) (hi : i < 4294967296) :
    ((List.range 8).foldl State.portLost s).clocks q i = s.clocks q i := by
  have lost (l : List Nat) (hl : ∀ n ∈ l, n < 8) : (l.foldl State.portLost s).clocks q i = s.clocks q i := by
    induction l generalizing s with
    | nil => rfl
    | cons n l ih =>
      exact (ih fun m hm => hl m (List.mem_cons_of_mem _ hm)).trans (State.clocks_portLost hq hi (hl n List.mem_cons_self))
  exact lost _ fun n hn => List.mem_range.mp hn

theorem State.of_clocks (h : t.clocks q i = s.clocks q i) : t.reg q i = s.reg q i ∧ t.cores = s.cores :=
  Prod.mk.inj h

theorem State.reg_refclkLost (hq : q.desc.page = 2) (hs : q ≠ .CLK_SWITCHES_COUNT) :
    ((List.range 8).foldl State.portLost s.coresOff).reg q 0 = s.reg q 0 := by
  obtain ⟨hreg, -⟩ := State.of_clocks (State.clocks_portsLost (s := s.coresOff) hq (i := 0) (by decide))
  exact hreg.trans (State.reg_switchAll s.pllCores 0 hs (by decide))

theorem State.refLost_spec : s.refLost.regBit .CLK_STATUS_REF_REF_OK = false ∧
    s.refLost.regBit .CLK_STATUS_REF_REF_LOST = true ∧ s.refLost.pllLocked = false := by
  unfold State.pllLocked State.regBit State.refLost
  refine ⟨?_, ?_, ?_⟩
  · rw [State.reg_setIntBit, State.reg_bump_ne _ _ _ (by decide) (by decide) (by decide),
      State.reg_setReg_ne_same _ _ (by decide), State.reg_setReg_ne_same _ _ (by decide), State.reg_setReg_self]
    rfl
  · rw [State.reg_setIntBit, State.reg_bump_ne _ _ _ (by decide) (by decide) (by decide),
      State.reg_setReg_ne_same _ _ (by decide), State.reg_setReg_self]
    rfl
  · rw [State.reg_setIntBit, State.reg_bump_ne _ _ _ (by decide) (by decide) (by decide), State.reg_setReg_self]
    rfl

@[simp] theorem State.refLost_frame :
    s.refLost.cores = s.cores ∧ s.refLost.plat = s.plat ∧ s.refLost.tick = s.tick := by
  simp [State.refLost]

theorem State.domOn_setReg {r : Reg} (v : Nat) (h : .PWR_DOM_STAT_STATE ≠ r) (hn : n < 4294967296) :
    (s.setReg r v).domOn n = s.domOn n := by
  simp only [State.domOn, State.setReg_frame, State.reg_setReg_ne s r .PWR_DOM_STAT_STATE v 0 n h (by decide) hn]

@[simp] theorem State.domOn_setIntBit (p i : Nat) : (s.setIntBit p i).domOn n = s.domOn n := by
  simp [State.domOn]

theorem State.domOn_refLost (hn : n < 128) : s.refLost.domOn n = s.domOn n := by
  have h : n < 4294967296 := by omega
  rw [State.refLost, State.domOn_setIntBit, State.bump, State.domOn_setReg _ (by decide) h, State.domOn_setReg _ (by decide) h,
    State.domOn_setReg _ (by decide) h, State.domOn_setReg _ (by decide) h]

/-- An idle core that is ON is off the PLL once the cores have left it. -/
theorem State.onPll_coresOff (hn : n < 128) (hon : s.domOn n = true) (hidle : (s.core n).tileKind = 0) :
    (s.coresOff.core n).onPll = false := by
  have core : s.coresOff.core n = (s.switchAll s.pllCores false).core n := rfl
  rw [core, State.core_switchAll]
  split
  · exact Core.asked_idle hidle
  next h =>
    simp only [State.pllCores, List.mem_filter, State.mem_onCores, hn, hon, true_and, Bool.or_eq_true, not_or,
      Bool.not_eq_true] at h
    exact h.1

theorem State.onPll_refclkLost (hn : n < 128) (hon : s.domOn n = true) (hidle : (s.core n).tileKind = 0) :
    (((List.range 8).foldl State.portLost s.refLost.coresOff).core n).onPll = false := by
  obtain ⟨-, cores⟩ := State.of_clocks
    (State.clocks_portsLost (s := s.refLost.coresOff) (q := .CLK_STATUS_REF_REF_OK) (i := 0) rfl (by decide))
  rw [State.core_congr cores]
  have core : s.refLost.core n = s.core n := State.core_congr State.refLost_frame.1 n
  exact State.onPll_coresOff (s := s.refLost) hn ((State.domOn_refLost hn).trans hon) (core ▸ hidle)

/-- A port that trained or was up is DOWN. -/
theorem State.pageState_portsLost (hn : n < 8)
    (h : s.pageState (fabPage n) = 2 ∨ s.pageState (fabPage n) = 3 ∨ s.pageState (fabPage n) = 4) :
    ((List.range 8).foldl State.portLost s).pageState (fabPage n) = 5 := by
  refine foldl_of_mem_of (P := fun u => u.pageState (fabPage n) = 5)
    (Q := fun u => u.pageState (fabPage n) = 2 ∨ u.pageState (fabPage n) = 3 ∨ u.pageState (fabPage n) = 4 ∨
      u.pageState (fabPage n) = 5) (List.mem_range.mpr hn) (by omega) (fun v m hv => ?_) (fun v hv => ?_) (fun v m hv => ?_)
  · rw [State.pageState_portLost]
    split <;> omega
  · rw [State.pageState_portLost]
    split
    · rfl
    next h => simp only [true_and] at h; omega
  · rw [State.pageState_portLost]
    split
    · rfl
    · exact hv

@[simp] theorem State.pageState_refLost : s.refLost.pageState p = s.pageState p := by
  simp only [State.refLost, State.pageState_setIntBit, State.pageState_bump, State.pageState_setReg]

@[simp] theorem State.pageState_coresOff : s.coresOff.pageState p = s.pageState p :=
  State.pageState_congr (State.switchAll_frame _).1 p

theorem State.tick_refclkLost : ((List.range 8).foldl State.portLost s.refLost.coresOff).tick = s.tick := by
  have lost (u : State) (n : Nat) : (u.portLost n).tick = u.tick := by
    simp only [State.portLost]
    (repeat' split)
    · exact (State.of_steady (by simp)).2
    · simp
    · rfl
  refine (foldl_keeps State.tick _ lost _ _).trans ?_
  simp [State.coresOff]

/-! ## The PLL does not lock -/

theorem execPllLockFail_ok (hp : s.plat.phase = .on) (hr : s.regBit .CLK_STATUS_REF_REF_OK = true) :
    execPllLockFail s = .next (
      let u := (s.setReg .CLK_PLL_EFF_LOCKED 0).recErr pgClk 0x0001
      u.switchAll u.onCores false) := by
  simp only [execPllLockFail, hp, hr, and_self, if_true]
  rfl

theorem State.pllLockFail_spec :
    let u := (s.setReg .CLK_PLL_EFF_LOCKED 0).recErr pgClk 0x0001
    let t := u.switchAll u.onCores false
    t.pllLocked = false ∧ (t.common pgClk).err = true ∧
      ∀ n, n < 128 → s.domOn n = true → (s.core n).tileKind = 0 → (t.core n).onPll = false := by
  intro u t
  refine ⟨?_, ?_, fun n hn hon hidle => ?_⟩
  · rw [State.pllLocked, State.regBit, State.reg_switchAll _ _ (by decide) (by decide), State.reg_recErr,
      State.reg_setReg_self]
    rfl
  · rw [State.common_congr (State.switchAll_frame _).1, State.common_recErr, if_pos rfl]
  · have core : u.core n = s.core n := State.core_congr (by simp [u]) n
    have on : u.domOn n = s.domOn n := by
      have kept : u.domOn n = (s.setReg .CLK_PLL_EFF_LOCKED 0).domOn n := by simp [u, State.domOn]
      rw [kept, State.domOn_setReg _ (by decide) (by omega)]
    rw [State.core_switchAll, if_pos (State.mem_onCores.mpr ⟨hn, on.trans hon⟩), core]
    exact Core.asked_idle hidle

/-! ## REFCLK is qualified again -/

/-- REFCLK is shown as qualified. -/
def State.refOk (s : State) (khz : Nat) : State :=
  ((s.setReg .CLK_STATUS_REF_REF_OK 1).setReg .CLK_STATUS_REF_REF_KHZ khz).setIntBit pgClk 9

/-- A fabric port that is DOWN trains again. -/
def State.portBack (s : State) (n : Nat) : State :=
  if s.pageState (fabPage n) = 5 then s.setPort n { training := true, since := s.tick } else s

/-- The PLL is locked, and the cores that left it return if AUTO_RETURN is 1. -/
def State.coresBack (s : State) : State :=
  let u := s.setReg .CLK_PLL_EFF_LOCKED 1
  let u := if u.regBit .CLK_CFG_AUTO_RETURN then u.switchAll (u.plat.lostCores.filter u.domOn) true else u
  u.onPlat (fun p => { p with lostCores := [] })

theorem execRefclkQualified_ok {khz : Nat} (hp : s.plat.phase = .on) (hr : s.regBit .CLK_STATUS_REF_REF_OK = false)
    (hlow : 99200 ≤ khz) (hhigh : khz ≤ 100200) : execRefclkQualified khz s = .next (
      if (s.refOk khz).pageState pgGlb = 0 ∨ (s.refOk khz).pageState pgGlb = 3 then s.refOk khz
      else (List.range 8).foldl State.portBack (s.refOk khz).coresBack) := by
  simp only [execRefclkQualified, hp, hr, hlow, hhigh, and_self, if_true]
  rfl

@[simp] theorem State.refOk_frame (khz : Nat) : (s.refOk khz).tick = s.tick := by simp [State.refOk]

@[simp] theorem State.pageState_refOk (khz : Nat) : (s.refOk khz).pageState p = s.pageState p := by
  simp only [State.refOk, State.pageState_setIntBit, State.pageState_setReg]

@[simp] theorem State.reg_portBack : (s.portBack n).reg q i = s.reg q i := by
  unfold State.portBack
  split <;> rfl

theorem State.reg_portsBack : ((List.range 8).foldl State.portBack s).reg q i = s.reg q i :=
  foldl_keeps (fun u => u.reg q i) _ (fun _ _ => State.reg_portBack) _ _

theorem State.reg_coresBack (hs : q ≠ .CLK_SWITCHES_COUNT) :
    s.coresBack.reg q 0 = (s.setReg .CLK_PLL_EFF_LOCKED 1).reg q 0 := by
  simp only [State.coresBack, State.reg_onPlat]
  split
  · exact State.reg_switchAll _ _ hs (by decide)
  · rfl

@[simp] theorem State.coresBack_frame : s.coresBack.commons = s.commons ∧ s.coresBack.tick = s.tick := by
  simp only [State.coresBack]
  split <;> simp

theorem State.refOk_spec {khz : Nat} (h : khz ≤ 100200) :
    (s.refOk khz).regBit .CLK_STATUS_REF_REF_OK = true ∧ (s.refOk khz).reg .CLK_STATUS_REF_REF_KHZ = khz := by
  unfold State.regBit State.refOk
  refine ⟨?_, ?_⟩
  · rw [State.reg_setIntBit, State.reg_setReg_ne_same _ _ (by decide), State.reg_setReg_self]
    rfl
  · rw [State.reg_setIntBit, State.reg_setReg_self]
    exact Nat.mod_eq_of_lt (by change khz < 2 ^ 18; omega)

theorem State.portsBack_trains (hn : n < 8) (h : s.pageState (fabPage n) = 5) :
    ((List.range 8).foldl State.portBack s).port n = { training := true, since := s.tick } := by
  have page (u : State) (m : Nat) : (u.portBack m).pageState (fabPage n) = u.pageState (fabPage n) := by
    unfold State.portBack
    split <;> simp
  have tick (u : State) (m : Nat) : (u.portBack m).tick = u.tick := by
    unfold State.portBack
    split <;> simp
  refine foldl_of_mem_of (P := fun u => u.port n = { training := true, since := s.tick } ∧ u.tick = s.tick)
    (Q := fun u => u.pageState (fabPage n) = 5 ∧ u.tick = s.tick) (List.mem_range.mpr hn) ⟨h, rfl⟩ (fun v m hv => ?_)
    (fun v hv => ?_) (fun v m hv => ?_) |>.1
  · exact ⟨(page v m).trans hv.1, (tick v m).trans hv.2⟩
  · refine ⟨?_, (tick v n).trans hv.2⟩
    rw [State.portBack, if_pos hv.1, State.port_setPort_self, hv.2]
  · refine ⟨?_, (tick v m).trans hv.2⟩
    unfold State.portBack
    split
    · rw [State.port_setPort]
      split
      · rw [hv.2]
      · exact hv.1
    · exact hv.1

/-- What a qualified REFCLK brings back. -/
theorem State.refclkQualified_spec {khz : Nat} (hp : s.plat.phase = .on) (hr : s.regBit .CLK_STATUS_REF_REF_OK = false)
    (hlow : 99200 ≤ khz) (hhigh : khz ≤ 100200) :
    ∃ t, execRefclkQualified khz s = .next t ∧ t.regBit .CLK_STATUS_REF_REF_OK = true ∧
      t.reg .CLK_STATUS_REF_REF_KHZ = khz ∧ (s.pageState pgGlb = 1 → t.pllLocked = true ∧
        ∀ n, n < 8 → s.pageState (fabPage n) = 5 → (t.port n).training = true ∧ (t.port n).since = s.tick) := by
  obtain ⟨hok, hkhz⟩ := State.refOk_spec (s := s) hhigh
  refine ⟨_, execRefclkQualified_ok hp hr hlow hhigh, ?_⟩
  split
  next h =>
    rw [State.pageState_refOk] at h
    exact ⟨hok, hkhz, fun h1 => by omega⟩
  · refine ⟨?_, ?_, fun _ => ⟨?_, fun n hn h5 => ?_⟩⟩
    · rw [State.regBit, State.reg_portsBack, State.reg_coresBack (by decide), State.reg_setReg_ne_same _ _ (by decide)]
      exact hok
    · rw [State.reg_portsBack, State.reg_coresBack (by decide), State.reg_setReg_ne_same _ _ (by decide)]
      exact hkhz
    · rw [State.pllLocked, State.regBit, State.reg_portsBack, State.reg_coresBack (by decide), State.reg_setReg_self]
      rfl
    · have back : (s.refOk khz).coresBack.pageState (fabPage n) = 5 := by
        rw [State.pageState_congr State.coresBack_frame.1, State.pageState_refOk, h5]
      rw [State.portsBack_trains hn back, State.coresBack_frame.2, State.refOk_frame]
      exact ⟨rfl, rfl⟩

end Sys2Proof.Machine
end

section
/-! # The governor -/
namespace Sys2Proof.Machine
variable {s t u : State} {q : Reg} {ma w c : Nat}

/-- What the governor has measured and counted as it takes a step (R473, R474). -/
def State.governed (s : State) (ma w c : Nat) : State := s.countLimited.measured ma w c

/-- The registers in which a step of the governor shows what it has measured and counted. -/
def State.Governed (s t : State) (ma w c : Nat) : Prop :=
  t.reg .PWR_IIN_MA = min ma 65535 ∧ t.reg .PWR_PIN_W = min w 4095 ∧ t.reg .PWR_TEMP_MAX_C = min c 255 ∧
  t.reg .PWR_LIMITED_10US_COUNT = (s.bump .PWR_LIMITED_10US_COUNT 0 s.limitedNow).reg .PWR_LIMITED_10US_COUNT

theorem State.Governed.congr (h : s.Governed t ma w c) (hreg : ∀ q, q ≠ .CLK_PLL_EFF_MHZ → u.reg q = t.reg q) :
    s.Governed u ma w c := by
  unfold State.Governed at *
  rwa [hreg _ (by decide), hreg _ (by decide), hreg _ (by decide), hreg _ (by decide)]

theorem State.reg_countLimited : s.countLimited.reg q = (s.bump .PWR_LIMITED_10US_COUNT 0 s.limitedNow).reg q := by
  simp only [State.countLimited, State.reg_onPlat]

theorem State.governed_governed : s.Governed (s.governed ma w c) ma w c := by
  have short {x k b : Nat} (h : k < 2 ^ b) : min x k % 2 ^ b = min x k := Nat.mod_eq_of_lt (by omega)
  unfold State.Governed State.governed State.measured
  refine ⟨?_, ?_, ?_, ?_⟩
  · rw [State.reg_setReg_ne_same _ _ (by decide), State.reg_setReg_ne_same _ _ (by decide), State.reg_setReg_self]
    exact short (b := 16) (by decide)
  · rw [State.reg_setReg_ne_same _ _ (by decide), State.reg_setReg_self]
    exact short (b := 12) (by decide)
  · rw [State.reg_setReg_self]
    exact short (b := 8) (by decide)
  · rw [State.reg_setReg_ne_same _ _ (by decide), State.reg_setReg_ne_same _ _ (by decide),
      State.reg_setReg_ne_same _ _ (by decide), State.reg_countLimited]

/-- The measurement leaves the registers of the clocks alone. -/
theorem State.reg_governed (hq : q.desc.page = 2) : (s.governed ma w c).reg q = s.reg q := by
  unfold State.governed State.measured
  rw [State.reg_setReg_ne_same _ _ (ne_of_page hq (by decide)), State.reg_setReg_ne_same _ _ (ne_of_page hq (by decide)),
    State.reg_setReg_ne_same _ _ (ne_of_page hq (by decide)), State.reg_countLimited, State.bump,
    State.reg_setReg_ne_same _ _ (ne_of_page hq (by decide))]

theorem State.pllMhz_governed : (s.governed ma w c).pllMhz = s.pllMhz := State.reg_governed rfl

theorem State.pllNominal_governed : (s.governed ma w c).pllNominal = s.pllNominal := by
  rw [State.pllNominal, State.reg_governed rfl, State.pllNominal]

theorem State.issueGated_governed : (s.governed ma w c).plat.issueGated = s.plat.issueGated := by
  simp [State.governed, State.measured, State.countLimited, State.onPlat]

/-! ## A step down -/

/-- The governor lowers the PLL, or at 600 MHz gates the matrix issue (R473). -/
def State.slowed (s : State) (c : Nat) : State :=
  let u := if s.throttleC ≤ c then s.setIntBit pgPwr 11 else s
  if u.pllMhz ≤ 600 then u.onPlat (fun p => { p with issueGated := true })
  else (u.setReg .CLK_PLL_EFF_MHZ (max 600 (u.pllMhz - 25))).setIntBit pgPwr 10

theorem execGovernorStepDown_limited (hp : s.plat.phase = .on)
    (h : s.currentLimit < ma ∨ s.powerLimit < w ∨ s.throttleC ≤ c) :
    execGovernorStepDown ma w c s = .next ((s.governed ma w c).slowed c) := next_if_pos ⟨hp, h⟩

/-- The state from which the clock is set, after the interrupt of a hot device. -/
theorem State.slowed_eq : ∃ u : State, (∀ q, u.reg q = s.reg q) ∧ u.plat = s.plat ∧ s.slowed c =
    if u.pllMhz ≤ 600 then u.onPlat (fun p => { p with issueGated := true })
    else (u.setReg .CLK_PLL_EFF_MHZ (max 600 (u.pllMhz - 25))).setIntBit pgPwr 10 := by
  refine ⟨if s.throttleC ≤ c then s.setIntBit pgPwr 11 else s, fun q => ?_, ?_, rfl⟩
  · split
    · exact State.reg_setIntBit ..
    · rfl
  · split <;> simp

theorem State.reg_slowed (h : q ≠ .CLK_PLL_EFF_MHZ) : (s.slowed c).reg q = s.reg q := by
  obtain ⟨u, hreg, -, e⟩ := State.slowed_eq (s := s) (c := c)
  rw [e, ← hreg]
  split
  · rfl
  · rw [State.reg_setIntBit, State.reg_setReg_ne_same _ _ h]

theorem State.slowed_above (h : 600 < s.pllMhz) :
    (s.slowed c).pllMhz = max 600 (s.pllMhz - 25) % 4096 ∧ (s.slowed c).plat.issueGated = s.plat.issueGated := by
  obtain ⟨u, hreg, hplat, e⟩ := State.slowed_eq (s := s) (c := c)
  have hmhz : u.pllMhz = s.pllMhz := hreg _
  rw [e, if_neg (by omega), State.pllMhz, State.reg_setIntBit, State.reg_setReg_self, hmhz]
  exact ⟨rfl, by simp [hplat]⟩

theorem State.slowed_lowest (h : s.pllMhz ≤ 600) : (s.slowed c).pllMhz = s.pllMhz ∧ (s.slowed c).plat.issueGated = true := by
  obtain ⟨u, hreg, -, e⟩ := State.slowed_eq (s := s) (c := c)
  have hmhz : u.pllMhz = s.pllMhz := hreg _
  rw [e, if_pos (by omega)]
  exact ⟨hmhz, rfl⟩

/-! ## A step up -/

/-- The governor lifts the gate, and raises the PLL to its nominal value (R473). -/
def State.quickened (s : State) : State :=
  let u := s.onPlat (fun p => { p with issueGated := false })
  if u.pllMhz < u.pllNominal then u.setReg .CLK_PLL_EFF_MHZ (min u.pllNominal (u.pllMhz + 25)) else u

theorem execGovernorStepUp_free (hp : s.plat.phase = .on) (hma : ma * 100 < 97 * s.currentLimit)
    (hw : w * 100 < 97 * s.powerLimit) (hc : c < s.throttleC) :
    execGovernorStepUp ma w c s = .next (s.governed ma w c).quickened := next_if_pos ⟨hp, hma, hw, hc⟩

theorem State.reg_quickened (h : q ≠ .CLK_PLL_EFF_MHZ) : s.quickened.reg q = s.reg q := by
  simp only [State.quickened]
  split
  · exact State.reg_setReg_ne_same _ _ h
  · rfl

theorem State.issueGated_quickened : s.quickened.plat.issueGated = false := by
  simp only [State.quickened]
  split <;> simp [State.onPlat]

theorem State.pllNominal_le : s.pllNominal ≤ 1800 := by
  unfold State.pllNominal
  omega

theorem State.quickened_below (h : s.pllMhz < s.pllNominal) :
    s.quickened.pllMhz = min s.pllNominal (s.pllMhz + 25) := by
  have le := State.pllNominal_le (s := s)
  have e : s.quickened = (s.onPlat (fun p => { p with issueGated := false })).setReg .CLK_PLL_EFF_MHZ
      (min s.pllNominal (s.pllMhz + 25)) := if_pos h
  rw [e, State.pllMhz, State.reg_setReg_self]
  exact Nat.mod_eq_of_lt (by change _ < 2 ^ 12; omega)

theorem State.quickened_nominal (h : s.pllNominal ≤ s.pllMhz) : s.quickened.pllMhz = s.pllMhz := by
  have e : s.quickened = s.onPlat (fun p => { p with issueGated := false }) := if_neg (Nat.not_lt.mpr h)
  rw [e]
  rfl

/-! ## Stages that are faulted -/

theorem State.stageFault_eq :
    s.stageFault = { s.recErr pgPwr 0x0002 with plat := { s.plat with halfLimit := true } } := by
  have plat : (s.recErr pgPwr 0x0002).plat = s.plat := by simp
  simp only [State.stageFault, State.onPlat, plat]

end Sys2Proof.Machine
end

section
open Sys2Proof Sys2Proof.Machine in
/-- Settles O50: a request, a transition and a switch of a clock are each said once for every domain or core, and the rows of
the governor and of the voltages by their conditions. -/
theorem powerAndClocks : Obligations.PowerAndClocks := by
  refine ⟨fun s => ⟨fun v => ?request, fun d target => ?refused, fun d => ?transition, fun d ha hm hw => ?wakes,
    fun d h => ?noWake, fun d ha hon hr => ⟨fun hw hidle => ?returns, fun h => ?stays⟩, fun hp hn => ?gates, fun hn => ?noGate,
    fun hg hn => ?calibrates, fun hn => ?idle⟩, fun s => ?clocks⟩
  case request =>
    refine ⟨execDomReq_dead, fun hl => execDomReq_island hl rfl, fun hl => execDomReq_absent hl rfl,
      fun p hl hd hp => ?_, fun hl hd hp => ?_⟩
    · have e := execDomReq_domain (v := v) hl rfl hd
      simp only [hp] at e
      exact ⟨_, e, State.asked_frame.1, State.req_asked, State.domState_asked, rfl⟩
    · have e := execDomReq_domain (v := v) hl rfl hd
      simp only [hp] at e
      have moving : (s.asked (s.reg .PWR_DOM_SEL_DOMAIN) v).plat.moving = s.plat.moving := by rw [State.asked_frame.1]; rfl
      refine ⟨fun hm => ?_, fun hm hr => ?_, fun hm hr hs => ?_, fun hm hr hs => ?_⟩ <;> rw [← moving] at hm
      · rw [State.applyRequest_held hm] at e
        exact ⟨_, e, moving, Map.get?_set_self .., rfl⟩
      · exact e.trans (congrArg _ (State.applyRequest_refused hm hr))
      · exact e.trans (congrArg _ (State.applyRequest_same hm hr (State.domState_asked.trans hs)))
      · have starts := State.applyRequest_starts hm hr fun h => hs (State.domState_asked.symm.trans h)
        obtain ⟨hstate, hbit, hreq, hmoving⟩ := State.startTransition_spec
          (s := s.asked (s.reg .PWR_DOM_SEL_DOMAIN) v) (d := s.reg .PWR_DOM_SEL_DOMAIN) (target := reqTarget v)
        rw [State.domState_asked, State.asked_frame.2.2] at hmoving
        exact ⟨_, e.trans (congrArg _ starts), hstate.trans State.domState_asked, hbit, hreq.trans State.req_asked, hmoving⟩
  case refused =>
    refine ⟨State.domRefused_free, fun h h' => ⟨?_, ?_⟩, fun _ => State.domRefused_on, State.domRefused_retention⟩
    · rw [State.domRefused_cluster h h']
      simp
    · rw [State.domRefused_cluster h h']
      simp
  case transition =>
    refine ⟨execDomainTransitionDone_none, fun target due hm => ⟨execDomainTransitionDone_notYet hm, State.mayEnd_early,
      fun hend hd hh ht => ?_, fun next hend hh => ?_⟩⟩
    · obtain ⟨hplat, hstate, hbit⟩ := State.domReached_spec (s := s) (d := d) (target := target)
      exact ⟨_, execDomainTransitionDone_ends hm hend hh, hstate ht, by simp [hplat, Map.has], hbit⟩
    · obtain ⟨hplat, hstate, -⟩ := State.domReached_spec (s := s) (d := d) (target := target)
      exact ⟨_, execDomainTransitionDone_next hm hend hh, by simp [State.onPlat], by simp [State.onPlat, hplat, Map.has],
        fun _ ht => hstate ht⟩
  case wakes => exact ⟨_, next_if_pos ⟨ha, hm, hw⟩, State.autoWake_spec (by have := wakesAlone_lt ha; omega) _⟩
  case noWake =>
    refine next_if_neg fun ⟨ha, hm, hw⟩ => ?_
    rcases h with h | h | h
    · rw [ha] at h; cases h
    · rw [hm] at h; cases h
    · rw [hw] at h; cases h
  case returns =>
    exact ⟨_, next_if_pos ⟨ha, hon, hr, hw, hidle⟩, State.domState_settleDomain (by decide), by simp [State.onPlat]⟩
  case stays =>
    refine next_if_neg fun ⟨_, _, _, hw, hidle⟩ => ?_
    rcases h with h | h
    · rw [hw] at h; cases h
    · omega
  case gates => exact next_if_pos (by simp [hp, hn])
  case noGate => exact next_if_neg (by simp [hn])
  case calibrates => exact next_if_pos (by simp [hg, State.foreground, hn])
  case idle => exact next_if_neg (by simp [State.foreground, hn])
  case clocks =>
    refine ⟨fun hl => ⟨fun hlock => ?toPll, fun hlock => ?noPll, ?toStart⟩, fun hl => ?dead, fun hp => ⟨fun hr => ?hasRef,
      fun hr => ?noRef, fun ma w c => ?governor, ?tab, ?stage, fun mv => ?volts⟩⟩
    case toPll =>
      refine ⟨_, (execCoreSwToPll_live hl).trans (congrArg _ (if_pos hlock)), fun n => ?_⟩
      simp only [← State.mem_selectedCores]
      exact State.switched_spec n
    case noPll => exact (execCoreSwToPll_live hl).trans (congrArg _ (if_neg (by simp [hlock])))
    case toStart =>
      refine ⟨_, execCoreSwToStart_live hl, fun n => ?_⟩
      simp only [← State.mem_selectedCores]
      exact State.switched_spec n
    case dead => simp [exec, execCoreSwToPll, execCoreSwToStart, State.touch, hl]
    case hasRef =>
      obtain ⟨hok, hlost, hlocked⟩ := State.refLost_spec (s := s)
      refine ⟨⟨_, execRefclkLost_ok hp hr, ?_, ?_, ?_, State.tick_refclkLost, fun n => State.onPll_refclkLost, fun n hn h => ?_⟩,
        ⟨_, execPllLockFail_ok hp hr, State.pllLockFail_spec⟩, fun hlock => next_if_pos ⟨hp, hr, hlock⟩,
        fun khz => next_if_neg (by simp [hr])⟩
      · rw [State.regBit, State.reg_refclkLost rfl (by decide)]
        exact hok
      · rw [State.pllLocked, State.regBit, State.reg_refclkLost rfl (by decide)]
        exact hlocked
      · rw [State.regBit, State.reg_refclkLost rfl (by decide)]
        exact hlost
      · exact State.pageState_portsLost hn (by simpa using h)
    case noRef =>
      refine ⟨fun khz => State.refclkQualified_spec hp hr, fun khz h => next_if_neg fun ⟨_, _, hlow, hhigh⟩ => ?_,
        next_if_neg (by simp [hr]), next_if_neg (by simp [hr]), next_if_neg (by simp [hr])⟩
      omega
    case governor =>
      refine ⟨fun h => ?_, fun hma hw hc => next_if_neg (by omega), fun hma hw hc => ?_, fun h => next_if_neg (by omega)⟩
      · obtain ⟨hiin, hpin, htemp, hlimited⟩ :=
          (State.governed_governed (s := s) (ma := ma) (w := w) (c := c)).congr fun q hq => State.reg_slowed (c := c) hq
        refine ⟨_, execGovernorStepDown_limited hp h, hiin, hpin, htemp, fun hmhz => ?_, fun hmhz => ?_, hlimited⟩
        · rw [← State.pllMhz_governed (ma := ma) (w := w) (c := c)] at hmhz
          obtain ⟨hslow, hgate⟩ := State.slowed_above (c := c) hmhz
          rw [hslow, State.pllMhz_governed, hgate, State.issueGated_governed]
          exact ⟨rfl, rfl⟩
        · rw [← State.pllMhz_governed (ma := ma) (w := w) (c := c)] at hmhz
          obtain ⟨hslow, hgate⟩ := State.slowed_lowest (c := c) hmhz
          exact ⟨hslow.trans State.pllMhz_governed, hgate⟩
      · obtain ⟨-, -, -, hlimited⟩ :=
          (State.governed_governed (s := s) (ma := ma) (w := w) (c := c)).congr fun q hq => State.reg_quickened hq
        refine ⟨_, execGovernorStepUp_free hp hma hw hc, State.issueGated_quickened, fun hmhz => ?_, fun hmhz => ?_, hlimited⟩
        · rw [State.quickened_below (by rwa [State.pllMhz_governed, State.pllNominal_governed]), State.pllMhz_governed,
            State.pllNominal_governed]
        · rw [State.quickened_nominal (by rwa [State.pllMhz_governed, State.pllNominal_governed]), State.pllMhz_governed]
    case tab => exact (next_if_pos hp).trans (congrArg _ State.stageFault_eq)
    case stage => exact (next_if_pos hp).trans (congrArg _ State.stageFault_eq)
    case volts =>
      exact ⟨fun h => next_if_pos ⟨hp, h⟩, fun h => next_if_neg fun e => Nat.not_lt.mpr h e.2, fun h => next_if_pos ⟨hp, h⟩,
        fun h => next_if_neg fun e => Nat.not_lt.mpr h e.2⟩
end

section
/-! # The queue through every step -/
namespace Sys2Proof.Machine
variable {s t : State}

theorem State.pending_of_steady {may : Leave} (h : t.steady may = s.steady may) : t.pending = s.pending :=
  congrArg Steady.pending h

/-- Leave to change everything but the queue. -/
def Leave.allButQueue : Leave where
  boots := true
  masks := true
  accepts := true
  freezes := true
  tenants := true
  models := true
  vocabs := true
  objects := true
  migrates := true
  fabric := true
  hbm := true

theorem State.steady_allButQueue (h : t.pending = s.pending) : t.steady .allButQueue = s.steady .allButQueue := by
  simp [State.steady, Leave.allButQueue, h]

/-! ## Power, resets and SHUTDOWN leave the queue alone -/

@[simp] theorem State.pending_powerOn (mv : Nat) : (s.powerOn mv).pending = s.pending := by
  simp [State.powerOn, State.fresh]

@[simp] theorem State.pending_powerLost (phase : PowerPhase) (mv : Nat) : (s.powerLost phase mv).pending = s.pending := by
  simp [State.powerLost, State.fresh]

@[simp] theorem State.pending_coldReset (cause : Reg) (low : Bool) : (s.coldReset cause low).pending = s.pending :=
  State.pending_of_steady (may := {}) (s := s.coldFresh low) (by simp [State.coldReset_eq])

@[simp] theorem State.pending_zeroise : s.zeroise.pending = s.pending :=
  State.pending_of_steady (may := .allButQueue) (by simp [Leave.allButQueue])

@[simp] theorem State.pending_stop : s.stop.pending = s.pending := by
  have hdomains (u : State) : u.pagesOff.domainsOff.pending = u.pending :=
    State.pending_of_steady (may := {}) (by simp [State.domainsOff, State.pagesOff])
  have hports : s.portsOff.pending = s.pending :=
    State.pending_of_steady (may := {}) (by simp [State.portsOff])
  have hunits (u : State) : u.unitsEmptied.pending = u.pending := rfl
  rw [State.stop_eq, hdomains, hunits, State.pending_zeroise, hports]

theorem pending_opShutdown (id : Nat) (c : Cmd) (bist : BistRun) (fails : Bool) :
    (opShutdown s id c bist fails).pending = s.pending := by
  have hrecord (u : State) (b : StoreBank) : (u.storeRecord b fails).pending = u.pending :=
    State.pending_of_steady (may := {}) (by simp)
  simp only [opShutdown]
  repeat' split
  all_goals simp [hrecord, State.onPlat, State.stopRings]

/-! ## Every row -/

theorem pending_exec_of_resets (i : Instr) (hr : i.resets = true) (h : exec i s = .next t) : t.pending = s.pending := by
  cases i with
  | shutdown cmd bist fails =>
    simp only [exec, execShutdown, Host.Outcome.next.injEq] at h
    subst h
    repeat' split
    · rfl
    · exact State.pending_of_steady (may := .allButQueue)
        (State.steady_attempt cmd _ (fun _ id c _ => State.steady_allButQueue (pending_opShutdown id c bist fails))
          (.inr ⟨rfl, rfl⟩))
    · rfl
  | rstDeviceCold value =>
    simp only [exec, execRstDeviceCold, State.touch, Host.Outcome.next.injEq] at h
    subst h
    repeat' split
    all_goals simp [State.ungate]
  | jtagInstruction j =>
    simp only [exec, execJtagInstruction, Host.Outcome.next.injEq] at h
    subst h
    repeat' split
    all_goals simp [State.onPlat]
  | vinRise | vinUvFault | vinOvFault | vinOvRecovery | thermalTrip | resetNAssert | benchWatchdog =>
    cases h
    split <;> simp [State.onPlat]
  | _ => cases hr

theorem pending_exec (i : Instr) (h : exec i s = .next t) : t.pending = s.pending := by
  by_cases hr : i.resets = true
  · exact pending_exec_of_resets i hr h
  · exact State.pending_of_steady ((keepsNext_exec i (by simpa using hr)).eq h)

theorem pending_idleTick : (idleTick s).pending = s.pending := by
  simp only [idleTick, State.passTick]
  repeat' split
  all_goals simp [State.drainWriteBuf]

end Sys2Proof.Machine

open Sys2Proof Sys2Proof.Machine in
/-- Settles O55: the rows that reset nothing keep the queue with the rest of the steady part (`keepsNext_exec`), and power, resets
and SHUTDOWN carry it over. -/
theorem queueOnlyConsumed : Obligations.QueueOnlyConsumed := by
  intro s t h
  unfold step at h
  split at h
  next hempty =>
    cases h
    simp [pending_idleTick, hempty]
  next rest hfront =>
    rw [hfront]
    exact pending_exec (s := { s with pending := rest }) _ h
end

section
/-! # What every step keeps of the memories

Most operations leave the memories as they are; those that write to one keep its canonical form. -/
namespace Sys2Proof.Machine

/-- The memories of a state: the window, host memory, fabric memory, the HBM of embedding tables, and what is kept of a
checkpoint: the store, and the cut of the one that runs. -/
structure Mems where
  window : Memory
  host : Memory
  fabric : Memory
  hbm : Memory
  store : Map StoreImage
  cut : Option Snapshot

/-- Every memory is in its canonical form. -/
structure Mems.ok (m : Mems) : Prop where
  window : m.window.wf = true
  host : m.host.wf = true
  fabric : m.fabric.wf = true
  hbm : m.hbm.wf = true
  store {k : Nat} {i : StoreImage} : m.store.get? k = some i → i.snap.hbm.wf = true
  cut {c : Snapshot} : m.cut = some c → c.hbm.wf = true

def State.mems (s : State) : Mems where
  window := s.window
  host := s.host
  fabric := s.fabric
  hbm := s.hbm
  store := s.ckp.store
  cut := s.ckp.run.bind (·.cut)

theorem State.canonical_iff_mems {s : State} : s.canonical ↔ s.mems.ok := by
  constructor
  · rintro ⟨⟨hwindow, hhost, hfabric, hhbm⟩, hstore, hcut⟩
    refine ⟨hwindow, hhost, hfabric, hhbm, fun h => hstore _ _ h, fun h => ?_⟩
    obtain ⟨r, hr, hc⟩ := Option.bind_eq_some_iff.1 h
    exact hcut r _ hr hc
  · rintro ⟨hwindow, hhost, hfabric, hhbm, hstore, hcut⟩
    exact ⟨⟨hwindow, hhost, hfabric, hhbm⟩, fun _ _ h => hstore h,
      fun r c hr hc => hcut (Option.bind_eq_some_iff.2 ⟨r, hr, hc⟩)⟩

/-- Every state that an operation may answer has the memories of `s`. -/
structure MemsKept (s : State) (o : Option State) : Prop where
  eq {t : State} : o = some t → t.mems = s.mems

/-- Every state that an operation may answer has its memories in canonical form. -/
structure SomeOk (o : Option State) : Prop where
  ok {t : State} : o = some t → t.mems.ok

/-- If a command goes on, the next state has its memories in canonical form. -/
structure NextOk (o : Host.Outcome State Fault Refusal) : Prop where
  ok {t : State} : o = .next t → t.mems.ok

variable {s t : State}

@[simp] theorem memsKept_none : MemsKept s none := ⟨fun h => nomatch h⟩

@[simp] theorem memsKept_some : MemsKept s (some t) ↔ t.mems = s.mems :=
  ⟨fun h => h.eq rfl, fun h => ⟨fun e => by cases e; exact h⟩⟩

@[simp] theorem someOk_none : SomeOk none := ⟨fun h => nomatch h⟩

@[simp] theorem someOk_some : SomeOk (some t) ↔ t.mems.ok :=
  ⟨fun h => h.ok rfl, fun h => ⟨fun e => by cases e; exact h⟩⟩

@[simp] theorem nextOk_next : NextOk (.next t) ↔ t.mems.ok :=
  ⟨fun h => h.ok rfl, fun h => ⟨fun e => by cases e; exact h⟩⟩

theorem MemsKept.trans {o : Option State} (h : MemsKept t o) (e : t.mems = s.mems) : MemsKept s o :=
  ⟨fun hu => (h.eq hu).trans e⟩

theorem MemsKept.getD {o : Option State} (h : MemsKept s o) : (o.getD s).mems = s.mems := by
  cases o with
  | none => rfl
  | some u => exact h.eq rfl

/-- A state that comes with another answer. -/
theorem MemsKept.of_pair {α : Type} {o : Option (α × State)} {a : α} (h : MemsKept s (o.map Prod.snd)) (e : o = some (a, t)) :
    t.mems = s.mems := h.eq (by rw [e]; rfl)

theorem State.mems_of_snd {α : Type} {p : α × State} {a : α} (h : p = (a, t)) (e : p.2.mems = s.mems) :
    t.mems = s.mems := by
  rwa [h] at e

/-- An update of other fields than the memories. -/
@[simp] theorem State.mems_update pending tick bootEpoch free regs shadow commons rings unmasked msixPending msixTable sent
    cmds nextCmd adm sdir cane stm jobs nextJob sources models vocabs objects cores windows gaf freeze tenants sec
    emb srch fam migrations tel plat out :
    State.mems { s with
      pending := pending, tick := tick, bootEpoch := bootEpoch, free := free, regs := regs, shadow := shadow,
      commons := commons, rings := rings, unmasked := unmasked, msixPending := msixPending, msixTable := msixTable,
      sent := sent, cmds := cmds, nextCmd := nextCmd, adm := adm,
      sdir := sdir, cane := cane, stm := stm, jobs := jobs, nextJob := nextJob, sources := sources, models := models,
      vocabs := vocabs, objects := objects, cores := cores, windows := windows, gaf := gaf, freeze := freeze,
      tenants := tenants, sec := sec, emb := emb, srch := srch, fam := fam,
      migrations := migrations, tel := tel, plat := plat, out := out } = s.mems := by
  simp only [State.mems]

/-- An update of other fields than the memories, of what runs of checkpoints too. -/
@[simp] theorem State.mems_updateCkp pending tick bootEpoch free regs shadow commons rings unmasked msixPending msixTable sent
    cmds nextCmd adm sdir cane stm jobs nextJob sources models vocabs objects cores windows gaf freeze tenants sec
    emb srch fam migrations tel plat out
    restore timerFrom stepsFrom mapValid :
    State.mems { s with
      pending := pending, tick := tick, bootEpoch := bootEpoch, free := free, regs := regs, shadow := shadow,
      commons := commons, rings := rings, unmasked := unmasked, msixPending := msixPending, msixTable := msixTable,
      sent := sent, cmds := cmds, nextCmd := nextCmd, adm := adm,
      sdir := sdir, cane := cane, stm := stm, jobs := jobs, nextJob := nextJob, sources := sources, models := models,
      vocabs := vocabs, objects := objects, cores := cores, windows := windows, gaf := gaf, freeze := freeze,
      tenants := tenants, sec := sec, emb := emb, srch := srch, fam := fam,
      ckp := { s.ckp with restore := restore, timerFrom := timerFrom, stepsFrom := stepsFrom, mapValid := mapValid },
      migrations := migrations, tel := tel, plat := plat, out := out } = s.mems := by
  simp only [State.mems]

/-- An update of one memory. -/
theorem Mems.ok.set_window {m : Mems} {w : Memory} (hm : m.ok) (hw : w.wf = true) : { m with window := w }.ok :=
  ⟨hw, hm.host, hm.fabric, hm.hbm, hm.store, hm.cut⟩

theorem Mems.ok.set_host {m : Mems} {w : Memory} (hm : m.ok) (hw : w.wf = true) : { m with host := w }.ok :=
  ⟨hm.window, hw, hm.fabric, hm.hbm, hm.store, hm.cut⟩

theorem Mems.ok.set_fabric {m : Mems} {w : Memory} (hm : m.ok) (hw : w.wf = true) : { m with fabric := w }.ok :=
  ⟨hm.window, hm.host, hw, hm.hbm, hm.store, hm.cut⟩

theorem Mems.ok.set_hbm {m : Mems} {w : Memory} (hm : m.ok) (hw : w.wf = true) : { m with hbm := w }.ok :=
  ⟨hm.window, hm.host, hm.fabric, hw, hm.store, hm.cut⟩

theorem Mems.ok.set_store {m : Mems} {k : Nat} {i : StoreImage} (hm : m.ok) (hi : i.snap.hbm.wf = true) :
    { m with store := m.store.set k i }.ok := by
  refine ⟨hm.window, hm.host, hm.fabric, hm.hbm, fun {n j} hj => ?_, hm.cut⟩
  rw [Map.get?_set] at hj
  split at hj
  · cases hj
    exact hi
  · exact hm.store hj

theorem Mems.ok.set_cut {m : Mems} {c : Option Snapshot} (hm : m.ok) (hc : ∀ k, c = some k → k.hbm.wf = true) :
    { m with cut := c }.ok :=
  ⟨hm.window, hm.host, hm.fabric, hm.hbm, hm.store, hc _⟩

theorem Mems.ok.drop_cut {m : Mems} (hm : m.ok) : { m with cut := none }.ok := hm.set_cut (fun _ h => nomatch h)

theorem State.memsOk_setFabric {w : Memory} (hw : w.wf = true) (hs : s.mems.ok) :
    ({ s with fabric := w } : State).mems.ok := hs.set_fabric hw

@[simp] theorem State.memsOk_writeFabric (addr : Nat) (bs : List Byte) (hs : s.mems.ok) :
    ({ s with fabric := s.fabric.writeN addr bs } : State).mems.ok :=
  hs.set_fabric (Memory.wf_writeN _ _ _ hs.fabric)

@[simp] theorem State.mems_ite (c : Prop) [Decidable c] (t u : State) :
    (if c then t else u).mems = if c then t.mems else u.mems := apply_ite _ _ _ _

@[simp] theorem Mems.ok_ite (c : Prop) [Decidable c] (m n : Mems) :
    (if c then m else n).ok ↔ if c then m.ok else n.ok := by
  split <;> rfl

@[simp] theorem State.mems_foldl {β : Type} (f : State → β → State)
    (h : ∀ t b, (f t b).mems = t.mems) (l : List β) : (l.foldl f s).mems = s.mems :=
  foldl_keeps State.mems f h l s

/-- A fold that carries another value beside the state. -/
theorem State.mems_foldl_fst {α β : Type} (f : State × α → β → State × α)
    (h : ∀ x b, (f x b).1.mems = x.1.mems) (l : List β) (x : State × α) :
    (l.foldl f x).1.mems = x.1.mems := by
  induction l generalizing x with
  | nil => rfl
  | cons b l ih => rw [List.foldl_cons, ih, h]

/-- A fold that carries the state beside another value. -/
theorem State.mems_foldl_snd {α β : Type} (f : α × State → β → α × State)
    (h : ∀ x b, (f x b).2.mems = x.2.mems) (l : List β) (x : α × State) :
    (l.foldl f x).2.mems = x.2.mems := by
  induction l generalizing x with
  | nil => rfl
  | cons b l ih => rw [List.foldl_cons, ih, h]

theorem State.memsOk_foldl {β : Type} {f : State → β → State}
    (hf : ∀ t b, t.mems.ok → (f t b).mems.ok) (l : List β) (h : s.mems.ok) : (l.foldl f s).mems.ok :=
  foldl_preserves (P := fun t => t.mems.ok) hf l h

/-- An operation on a state that is one of two. -/
theorem State.memsOk_ite {c : Prop} [Decidable c] {t u : State} (ht : t.mems.ok) (hu : u.mems.ok) :
    (if c then t else u).mems.ok := by
  split
  · exact ht
  · exact hu

end Sys2Proof.Machine
end

section
/-! ## What keeps the memories: registers, memory, rings, sessions and commands -/
namespace Sys2Proof.Machine
variable {s t : State} (r : Reg) (x i k p code addr n detail handle result slot core id : Nat) (bits : Word)
  (st : Status) (bs : List Byte) (wasted : Bool) (waste : Nat → Bool)

@[simp] theorem State.mems_setReg : (s.setReg r x i).mems = s.mems := by simp [State.setReg]
@[simp] theorem State.mems_bump : (s.bump r i k).mems = s.mems := by simp [State.bump]
@[simp] theorem State.mems_raiseReg : (s.raiseReg r x i).mems = s.mems := by simp [State.raiseReg]
@[simp] theorem State.mems_clearCounters : (s.clearCounters p).mems = s.mems := by simp [State.clearCounters]
@[simp] theorem State.mems_setCommon (c : Common) : (s.setCommon p c).mems = s.mems := by simp [State.setCommon]
@[simp] theorem State.mems_sramZero : s.sramZero.mems = s.mems := by simp only [State.sramZero]; (repeat' split) <;> simp

@[simp] theorem State.mems_ungate : s.ungate.mems = s.mems := rfl

@[simp] theorem State.mems_touch : s.touch.mems = s.mems := by simp [State.touch]
@[simp] theorem State.mems_sendMsi (vector function : Nat) : (s.sendMsi vector function).mems = s.mems := by
  simp [State.sendMsi]

@[simp] theorem State.mems_routeMsg : (s.routeMsg p).mems = s.mems := by simp [State.routeMsg]
@[simp] theorem State.mems_setInt : (s.setInt p bits).mems = s.mems := by simp [State.setInt]
@[simp] theorem State.mems_setIntBit : (s.setIntBit p i).mems = s.mems := by simp [State.setIntBit]
@[simp] theorem State.mems_recErr : (s.recErr p code).mems = s.mems := by simp [State.recErr]
@[simp] theorem State.mems_lockErr : (s.lockErr p).mems = s.mems := by simp [State.lockErr]
@[simp] theorem State.mems_setPageState (st : Nat) : (s.setPageState p st).mems = s.mems := by simp [State.setPageState]
@[simp] theorem State.mems_failPage : (s.failPage p code).mems = s.mems := by simp [State.failPage]
@[simp] theorem State.mems_beginLong : (s.beginLong p).mems = s.mems := by simp [State.beginLong]
@[simp] theorem State.mems_progress (pos pct : Nat) : (s.progress p pos pct).mems = s.mems := by
  simp [State.progress]

@[simp] theorem State.mems_endLong : (s.endLong p).mems = s.mems := by simp [State.endLong]
@[simp] theorem State.mems_abortLong : (s.abortLong p).mems = s.mems := by simp [State.abortLong]
@[simp] theorem State.mems_useFree : (s.useFree k).mems = s.mems := by simp [State.useFree]
@[simp] theorem State.memsOk_writeMem (inWindow : Bool) (hs : s.mems.ok) : (s.writeMem inWindow addr bs).mems.ok := by
  unfold State.writeMem
  split
  · exact hs.set_window (Memory.wf_writeN _ _ _ hs.window)
  · exact hs.set_host (Memory.wf_writeN _ _ _ hs.host)

@[simp] theorem State.memsOk_writeDst (dst : Nat) (hs : s.mems.ok) : (s.writeDst dst addr bs).mems.ok := by
  unfold State.writeDst
  split <;> simp [hs]

@[simp] theorem State.memsOk_hostStores (l : List HostStore) (hs : s.mems.ok) : (s.hostStores l).mems.ok :=
  State.memsOk_foldl (fun t e ht => by simp [ht]) l hs

@[simp] theorem State.mems_setCore (c : Core) : (s.setCore n c).mems = s.mems := by simp [State.setCore]
@[simp] theorem State.mems_setRing (r : Ring) : (s.setRing n r).mems = s.mems := by simp [State.setRing]
@[simp] theorem State.mems_ringInt : (s.ringInt n bits).mems = s.mems := by simp [State.ringInt]
@[simp] theorem State.mems_ringErr : (s.ringErr n code).mems = s.mems := by simp [State.ringErr]
@[simp] theorem State.mems_signal : (s.signal n).mems = s.mems := by simp [State.signal]
@[simp] theorem State.memsOk_writeCompletion (d : Desc) (hs : s.mems.ok) :
    (s.writeCompletion n d st detail handle result).mems.ok := by
  simp [State.writeCompletion, hs]

@[simp] theorem State.mems_release : (s.release n).mems = s.mems := by simp [State.release]
@[simp] theorem State.mems_setSession (x : Session) : (s.setSession slot x).mems = s.mems := by simp [State.setSession]
@[simp] theorem State.mems_onSession (f : Session → Session) : (s.onSession slot f).mems = s.mems := by
  simp only [State.onSession]; (repeat' split) <;> simp

@[simp] theorem State.mems_countSlots (key : Option Nat) : (s.countSlots core key wasted n).mems = s.mems := by
  simp only [State.countSlots]; (repeat' split) <;> simp

@[simp] theorem State.mems_tagRecord (bytes : List Byte) : (s.tagRecord bytes wasted).mems = s.mems := by
  simp [State.tagRecord]

@[simp] theorem State.mems_settleShares (shares : List (Nat × Nat × Nat)) :
    (s.settleShares core shares waste).mems = s.mems := by
  simp [State.settleShares]

@[simp] theorem State.mems_settleAcct (a : TileAcct) : (s.settleAcct a waste).mems = s.mems := by
  simp only [State.settleAcct]; (repeat' split) <;> simp

@[simp] theorem State.mems_settleJob : (s.settleJob id wasted).mems = s.mems := by simp [State.settleJob]
@[simp] theorem State.mems_settleStep (ran : Bool) : (s.settleStep ran).mems = s.mems := by simp [State.settleStep]
@[simp] theorem State.mems_onCmd (f : Cmd → Cmd) : (s.onCmd id f).mems = s.mems := by simp [State.onCmd]
@[simp] theorem State.mems_account (tenant : Nat) : (s.account tenant st).mems = s.mems := by simp [State.account]
@[simp] theorem State.mems_progressCmd : (s.progressCmd id).mems = s.mems := by simp [State.progressCmd]
@[simp] theorem State.mems_progressStep : (s.progressStep slot).mems = s.mems := by
  simp only [State.progressStep]; (repeat' split) <;> simp

@[simp] theorem State.memsOk_completeH (hs : s.mems.ok) : (s.completeH id st detail result handle).mems.ok := by
  simp only [State.completeH]; (repeat' split) <;> simp [hs]

@[simp] theorem State.memsOk_complete (hs : s.mems.ok) : (s.complete id st detail result).mems.ok := by simp [State.complete, hs]
@[simp] theorem State.memsOk_refuse (reason : Nat) (hs : s.mems.ok) : (s.refuse id st reason).mems.ok := by
  simp [State.refuse, hs]

end Sys2Proof.Machine
end

section
/-! ## What keeps the memories: the address map and the peer aperture -/
namespace Sys2Proof.Machine
variable {s t : State} (addr slot : Nat) (op : LeaseOp)

@[simp] theorem State.mems_allotPool (bytes : Nat) : (s.allotPool addr bytes).mems = s.mems := by simp [State.allotPool]
@[simp] theorem State.mems_countReq (port : Option Nat) : (s.countReq port).mems = s.mems := by
  simp only [State.countReq]; (repeat' split) <;> simp

@[simp] theorem State.mems_countLease : (s.countLease addr).mems = s.mems := by
  simp only [State.countLease]; (repeat' split) <;> simp

@[simp] theorem State.mems_casIssue (e : Nat) : (s.casIssue addr slot e op).mems = s.mems := by simp [State.casIssue]
@[simp] theorem State.mems_casIfLeased : (s.casIfLeased slot op).mems = s.mems := by
  simp only [State.casIfLeased]; (repeat' split) <;> simp

end Sys2Proof.Machine
end

section
/-! ## What keeps the memories: shadows of register fields -/
namespace Sys2Proof.Machine
variable {s t : State} (p : Nat) (old : State)

@[simp] theorem State.mems_dropShadow : (s.dropShadow p).mems = s.mems := by simp [State.dropShadow]
@[simp] theorem State.mems_wearTick : s.wearTick.mems = s.mems := by simp [State.wearTick]
@[simp] theorem State.mems_keepPair (a b : Reg) : (s.keepPair old p a b).mems = s.mems := by simp [State.keepPair]
@[simp] theorem State.mems_keepShares (port : Nat) : (s.keepShares old port).mems = s.mems := by simp [State.keepShares]
@[simp] theorem State.mems_checkApplied (l : List (Reg × Nat × Nat)) : (s.checkApplied old p l).mems = s.mems := by
  simp [State.checkApplied]

@[simp] theorem State.mems_applyShadow : (s.applyShadow p).mems = s.mems := by simp [State.applyShadow]
@[simp] theorem State.mems_safePoint : (s.safePoint p).mems = s.mems := by simp [State.safePoint]

end Sys2Proof.Machine
end

section
/-! ## What keeps the memories: the rings -/
namespace Sys2Proof.Machine
variable {s t : State} (n : Nat) (tail head x value : Word) (ring : BitVec 8) (stores : List HostStore) (q7 : DWord)
  (function : BitVec 4)

@[simp] theorem mems_sqDoorbellRing : (sqDoorbellRing s n tail).mems = s.mems := by
  simp only [sqDoorbellRing]; (repeat' split) <;> simp

@[simp] theorem nextOk_execSqDoorbell (hs : s.mems.ok) : NextOk (execSqDoorbell ring tail stores s) := by
  simp [execSqDoorbell, hs]

@[simp] theorem mems_cqDoorbellRing : (cqDoorbellRing s n head).mems = s.mems := by
  simp only [cqDoorbellRing]; (repeat' split) <;> simp

@[simp] theorem nextOk_execCqDoorbell (hs : s.mems.ok) : NextOk (execCqDoorbell ring head s) := by simp [execCqDoorbell, hs]
@[simp] theorem mems_pushRing : (pushRing s n q7).mems = s.mems := by simp only [pushRing]; (repeat' split) <;> simp
@[simp] theorem nextOk_execPush (hs : s.mems.ok) : NextOk (execPush ring q7 stores s) := by simp [execPush, hs]
@[simp] theorem mems_ringEnableOp (function : Nat) : (ringEnableOp s n function).mems = s.mems := by
  simp only [ringEnableOp]; (repeat' split) <;> simp

@[simp] theorem nextOk_execRingEnable (hs : s.mems.ok) : NextOk (execRingEnable ring function s) := by simp [execRingEnable, hs]
@[simp] theorem mems_ringDisableOp : (ringDisableOp s n).mems = s.mems := by
  simp only [ringDisableOp]; (repeat' split) <;> simp

@[simp] theorem nextOk_execRingDisable (hs : s.mems.ok) : NextOk (execRingDisable ring s) := by simp [execRingDisable, hs]
@[simp] theorem mems_ringSoftRstOp : (ringSoftRstOp s n).mems = s.mems := by
  simp only [ringSoftRstOp]; (repeat' split) <;> simp

@[simp] theorem nextOk_execRingSoftRst (hs : s.mems.ok) : NextOk (execRingSoftRst ring s) := by simp [execRingSoftRst, hs]
@[simp] theorem mems_ringDrainedOp : (ringDrainedOp s n).mems = s.mems := by simp [ringDrainedOp]
@[simp] theorem nextOk_execRingDrained (hs : s.mems.ok) : NextOk (execRingDrained ring s) := by simp [execRingDrained, hs]
@[simp] theorem mems_haltRing (code : Nat) : (haltRing s n code).mems = s.mems := by simp [haltRing]
@[simp] theorem nextOk_execDescriptorReadFail (hs : s.mems.ok) : NextOk (execDescriptorReadFail ring s) := by
  simp [execDescriptorReadFail, hs]

@[simp] theorem State.mems_unsend (x : Nat) : (s.unsend x).mems = s.mems := by simp [State.unsend]
@[simp] theorem State.memsOk_undoCompletion (u : CqUndo) (hs : s.mems.ok) : (s.undoCompletion n u).mems.ok := by
  simp [State.undoCompletion, hs]

@[simp] theorem nextOk_execCompletionWriteFail (hs : s.mems.ok) : NextOk (execCompletionWriteFail ring s) := by
  simp only [execCompletionWriteFail, nextOk_next]; (repeat' split) <;> simp [hs]

@[simp] theorem nextOk_execCoalesceTimer (hs : s.mems.ok) : NextOk (execCoalesceTimer ring s) := by simp [execCoalesceTimer, hs]
@[simp] theorem mems_setRingBind : (setRingBind s x).mems = s.mems := by simp [setRingBind]
@[simp] theorem mems_ringBindOp : (ringBindOp s x).mems = s.mems := by simp [ringBindOp]
@[simp] theorem nextOk_execRingBind (hs : s.mems.ok) : NextOk (execRingBind value s) := by simp [execRingBind, hs]
@[simp] theorem mems_ringUnbindOp : (ringUnbindOp s x).mems = s.mems := by simp [ringUnbindOp]
@[simp] theorem nextOk_execRingUnbind (hs : s.mems.ok) : NextOk (execRingUnbind value s) := by simp [execRingUnbind, hs]
@[simp] theorem nextOk_execMsixVectorUnmask (entry : VectorEntry) (hs : s.mems.ok) :
    NextOk (execMsixVectorUnmask function entry s) := by
  simp [execMsixVectorUnmask, hs]

end Sys2Proof.Machine
end

section
/-! ## What keeps the memories: pages and their tables -/
namespace Sys2Proof.Machine
variable {s t : State} (owner bytes n : Nat) (l : List Nat)

@[simp] theorem State.mems_heapTake : (s.heapTake owner bytes).mems = s.mems := by simp [State.heapTake]
@[simp] theorem State.mems_heapGive : (s.heapGive owner bytes).mems = s.mems := by simp [State.heapGive]
@[simp] theorem State.mems_setPage (p : PageRec) : (s.setPage n p).mems = s.mems := by simp [State.setPage]
@[simp] theorem State.mems_onPage (f : PageRec → PageRec) : (s.onPage n f).mems = s.mems := by
  simp only [State.onPage]; (repeat' split) <;> simp

@[simp] theorem State.memsKept_allotPage (tenant model : Nat) (l : Layout) (slots : List Slot) :
    MemsKept s ((s.allotPage tenant model l slots).map Prod.snd) := by
  simp only [State.allotPage]
  split <;> simp

@[simp] theorem State.mems_handOver : (s.handOver n).mems = s.mems := by simp [State.handOver]
@[simp] theorem State.mems_incRef : (s.incRef n).mems = s.mems := by simp [State.incRef]
@[simp] theorem State.mems_decRef : (s.decRef n).mems = s.mems := by simp only [State.decRef]; (repeat' split) <;> simp
@[simp] theorem State.mems_pin : (s.pin n).mems = s.mems := by simp [State.pin]
@[simp] theorem State.mems_pinAll : (s.pinAll l).mems = s.mems := by simp [State.pinAll]
@[simp] theorem State.mems_addUsers : (s.addUsers l).mems = s.mems := by simp [State.addUsers]
@[simp] theorem State.mems_dropUsers : (s.dropUsers l).mems = s.mems := by simp [State.dropUsers]
@[simp] theorem State.mems_dropHbm : (s.dropHbm n).mems = s.mems := by simp only [State.dropHbm]; (repeat' split) <;> simp
@[simp] theorem State.mems_dropFlash : (s.dropFlash n).mems = s.mems := by
  simp only [State.dropFlash]; (repeat' split) <;> simp

@[simp] theorem State.mems_dropPool : (s.dropPool n).mems = s.mems := by
  simp only [State.dropPool]; (repeat' split) <;> simp

@[simp] theorem State.mems_dropIdleHbm : (s.dropIdleHbm n).mems = s.mems := by
  simp only [State.dropIdleHbm]; (repeat' split) <;> simp

@[simp] theorem State.mems_dropIdlePool : (s.dropIdlePool n).mems = s.mems := by
  simp only [State.dropIdlePool]; (repeat' split) <;> simp

@[simp] theorem mems_releaseFlash (fuel : Nat) : (releaseFlash fuel s).mems = s.mems := by
  induction fuel generalizing s with
  | zero => rfl
  | succ fuel ih =>
    simp only [releaseFlash]
    repeat' split
    all_goals simp [ih]

@[simp] theorem State.mems_easeFlash : s.easeFlash.mems = s.mems := by simp [State.easeFlash]
@[simp] theorem State.mems_releaseHeld : (s.releaseHeld n).mems = s.mems := by
  simp only [State.releaseHeld]; (repeat' split) <;> simp

@[simp] theorem State.mems_unpin : (s.unpin n).mems = s.mems := by simp only [State.unpin]; (repeat' split) <;> simp
@[simp] theorem State.mems_unpinAll : (s.unpinAll l).mems = s.mems := by simp [State.unpinAll]
@[simp] theorem State.mems_seal : (s.seal n).mems = s.mems := by simp only [State.seal]; (repeat' split) <;> simp

end Sys2Proof.Machine
end

section
/-! ## What keeps the memories: the nodes of shared pages -/
namespace Sys2Proof.Machine
variable {s t : State} (n slot : Nat)

@[simp] theorem State.mems_setNode (x : Node) : (s.setNode n x).mems = s.mems := by simp [State.setNode]
@[simp] theorem State.mems_onNode (f : Node → Node) : (s.onNode n f).mems = s.mems := by
  simp only [State.onNode]; (repeat' split) <;> simp

@[simp] theorem mems_caneLookup (k : CaneKey) : (caneLookup s k).2.mems = s.mems := by simp [caneLookup]

@[simp] theorem mems_pruneNode (fuel n : Nat) : (pruneNode s fuel n).mems = s.mems := by
  induction fuel generalizing s n with
  | zero => rfl
  | succ fuel ih =>
    unfold pruneNode
    split
    · rfl
    · split
      · repeat' split
        all_goals simp [ih]
      · rfl

@[simp] theorem State.mems_prune : (s.prune n).mems = s.mems := by simp [State.prune]
@[simp] theorem State.mems_setCaneNode (n : Option Nat) : (s.setCaneNode slot n).mems = s.mems := by
  simp only [State.setCaneNode]; (repeat' split) <;> simp

@[simp] theorem memsKept_adoptOne : MemsKept s (adoptOne s slot) := by simp only [adoptOne]; (repeat' split) <;> simp

@[simp] theorem mems_adoptLoop (fuel slot : Nat) : (adoptLoop fuel s slot).mems = s.mems := by
  induction fuel generalizing s with
  | zero => rfl
  | succ fuel ih =>
    unfold adoptLoop
    split
    · next t h => exact ih.trans ((memsKept_adoptOne ..).eq h)
    · repeat' split
      all_goals simp

@[simp] theorem State.mems_adopt : (s.adopt slot).mems = s.mems := by simp [State.adopt]
@[simp] theorem State.mems_unadopt : (s.unadopt slot).mems = s.mems := by
  simp only [State.unadopt]; (repeat' split) <;> simp

@[simp] theorem mems_caneInsert (i frame : Nat) (words : List Nat) :
    (caneInsert s slot i frame words).mems = s.mems := by
  simp only [caneInsert]; (repeat' split) <;> simp

@[simp] theorem mems_freeRecordOp (deadPool : Bool) : (freeRecordOp s n deadPool).mems = s.mems := by
  simp only [freeRecordOp]; (repeat' split) <;> simp

end Sys2Proof.Machine
end

section
/-! ## What keeps the memories: sessions -/
namespace Sys2Proof.Machine
variable {s t : State} (slot detail id p : Nat) (q : StepReq) (st : Status) (c : Cmd)

@[simp] theorem State.mems_setWays (set : Nat) (w : List Way) : (s.setWays set w).mems = s.mems := by simp [State.setWays]
@[simp] theorem State.mems_countLookup : (s.countLookup slot).mems = s.mems := by simp [State.countLookup]
@[simp] theorem State.mems_lookup : (s.lookup slot).mems = s.mems := by simp only [State.lookup]; (repeat' split) <;> simp
@[simp] theorem State.mems_dirtyEntry : (s.dirtyEntry slot).mems = s.mems := by simp [State.dirtyEntry]

@[simp] theorem State.memsKept_fillWay (slot : Nat) (dirty locked : Bool) : MemsKept s (s.fillWay slot dirty locked) := by
  simp only [State.fillWay]
  generalize takeVictim (s.cacheWays (cacheSet slot)) = r
  obtain ⟨_ | w, ways⟩ := r
  · simp
  · simp only
    repeat' split
    all_goals simp

@[simp] theorem State.memsKept_lockEntry (slot : Nat) : MemsKept s (s.lockEntry slot) := by
  have h : ∀ t : State, t.mems = s.mems → MemsKept s (t.fillWay slot true true) :=
    fun t e => (State.memsKept_fillWay ..).trans e
  simp only [State.lockEntry]
  repeat' split
  all_goals simp [h]

@[simp] theorem State.mems_lockOrStall (slot : Nat) : (s.lockOrStall slot).2.mems = s.mems := by
  unfold State.lockOrStall
  split
  · next t h => exact (State.memsKept_lockEntry ..).eq h
  · simp

@[simp] theorem State.memsKept_lockOrStall (slot : Nat) : MemsKept s (s.lockOrStall slot).1 := by
  unfold State.lockOrStall
  split
  · next t h => simp [(State.memsKept_lockEntry ..).eq h]
  · simp

@[simp] theorem State.mems_unlockEntry : (s.unlockEntry slot).mems = s.mems := by simp [State.unlockEntry]
@[simp] theorem State.mems_takeSlot : (s.takeSlot slot).mems = s.mems := by
  simp only [State.takeSlot]; (repeat' split) <;> simp

@[simp] theorem State.mems_giveSlot : (s.giveSlot slot).mems = s.mems := by simp [State.giveSlot]
@[simp] theorem State.mems_roomForSession (tenant : Nat) (l : Layout) : (s.roomForSession tenant l).2.mems = s.mems := by
  simp only [State.roomForSession]; (repeat' split) <;> simp

@[simp] theorem State.mems_placeSession (x : Session) : (s.placeSession x).2.mems = s.mems := by
  simp only [State.placeSession]; (repeat' split) <;> simp

@[simp] theorem State.memsOk_emptyHeader (hs : s.mems.ok) : (s.emptyHeader q st).mems.ok := by
  simp only [State.emptyHeader]; (repeat' split) <;> simp [hs]

@[simp] theorem State.memsOk_stepCompletion (hs : s.mems.ok) : (s.stepCompletion slot q st detail).mems.ok := by
  simp only [State.stepCompletion]; (repeat' split) <;> simp [hs]

@[simp] theorem State.memsOk_endStep (hs : s.mems.ok) : (s.endStep slot st detail).mems.ok := by
  simp only [State.endStep]; (repeat' split) <;> simp [hs]

@[simp] theorem State.memsOk_endEnded (hs : s.mems.ok) : (s.endEnded slot).mems.ok := by
  simp only [State.endEnded]; (repeat' split) <;> simp [hs]

@[simp] theorem State.memsOk_endAllSteps (hs : s.mems.ok) : (s.endAllSteps slot st detail).mems.ok := by
  simp only [State.endAllSteps]; (repeat' split) <;> simp [hs]

@[simp] theorem State.memsOk_endWait (hs : s.mems.ok) : (s.endWait slot st detail).mems.ok := by
  simp only [State.endWait]; (repeat' split) <;> simp [hs]

@[simp] theorem State.memsOk_setLost (hs : s.mems.ok) : (s.setLost slot).mems.ok := by
  simp only [State.setLost]; (repeat' split) <;> simp [hs]

@[simp] theorem memsOk_opSessCreate (hs : s.mems.ok) : (opSessCreate s id c).mems.ok := by
  simp only [opSessCreate]; (repeat' split) <;> simp [hs]

@[simp] theorem memsOk_opSessQuery (hs : s.mems.ok) : (opSessQuery s id c slot).mems.ok := by
  simp only [opSessQuery]; (repeat' split) <;> simp [hs]

@[simp] theorem State.mems_releaseRecord : (s.releaseRecord slot).mems = s.mems := by
  simp only [State.releaseRecord]; (repeat' split) <;> simp

@[simp] theorem State.mems_freeClosed : (s.freeClosed slot).mems = s.mems := by
  simp only [State.freeClosed]; (repeat' split) <;> simp

@[simp] theorem State.memsOk_closeSession (hs : s.mems.ok) : (s.closeSession slot).1.mems.ok := by
  simp only [State.closeSession]; (repeat' split) <;> simp [hs]

@[simp] theorem memsOk_opSessClose (hs : s.mems.ok) : (opSessClose s id slot).mems.ok := by simp [opSessClose, hs]
@[simp] theorem State.mems_setEn (b : Bool) : (s.setEn p b).mems = s.mems := by simp [State.setEn]
@[simp] theorem State.mems_enableBlock : (s.enableBlock p).mems = s.mems := by simp [State.enableBlock]
@[simp] theorem State.mems_disableBlock : (s.disableBlock p).mems = s.mems := by simp [State.disableBlock]
@[simp] theorem mems_sdirEnableOp : (sdirEnableOp s).mems = s.mems := by simp [sdirEnableOp]
@[simp] theorem mems_sdirDisableOp : (sdirDisableOp s).mems = s.mems := by simp [sdirDisableOp]
@[simp] theorem nextOk_execSdirEnable (en : Bool) (hs : s.mems.ok) : NextOk (execSdirEnable en s) := by simp [execSdirEnable, hs]
@[simp] theorem nextOk_execSdirInitDone (hs : s.mems.ok) : NextOk (execSdirInitDone s) := by simp [execSdirInitDone, hs]
@[simp] theorem State.mems_badEntry : (s.badEntry slot).mems = s.mems := by simp [State.badEntry]

@[simp] theorem nextOk_execDirMissFill (slot : Nat) (ue : Bool) (hs : s.mems.ok) : NextOk (execDirMissFill slot ue s) := by
  simp only [execDirMissFill, nextOk_next]
  split
  · split
    · simp [hs]
    · split
      · simp [hs]
      · split
        · next t h => simp [(State.memsKept_fillWay ..).eq h, hs]
        · simp [hs]
  · exact hs

@[simp] theorem nextOk_execDirTagParity (set : BitVec 15) (hs : s.mems.ok) : NextOk (execDirTagParity set s) := by
  simp [execDirTagParity, hs]

end Sys2Proof.Machine
end

section
/-! ## What keeps the memories: moves between tiers -/
namespace Sys2Proof.Machine
variable {s t : State} (n slot detail k : Nat) (m : Move) (dst : Residency) (cmd : Option Nat) (x : Session)
  (st : Status) (o : TileOutcome)

@[simp] theorem State.mems_chargeFlash : (s.chargeFlash n).mems = s.mems := by simp [State.chargeFlash]
@[simp] theorem State.mems_takeFlash : (s.takeFlash n).mems = s.mems := by simp [State.takeFlash]
@[simp] theorem State.mems_giveFlash : (s.giveFlash n).mems = s.mems := by simp [State.giveFlash]
@[simp] theorem State.mems_takePool : (s.takePool n).mems = s.mems := by simp [State.takePool]
@[simp] theorem State.mems_givePool : (s.givePool n).mems = s.mems := by simp [State.givePool]
@[simp] theorem State.mems_setMove : (s.setMove n m).mems = s.mems := by simp [State.setMove]
@[simp] theorem State.mems_eraseMove : (s.eraseMove n).mems = s.mems := by
  simp only [State.eraseMove]; (repeat' split) <;> simp

@[simp] theorem State.mems_addMove : (s.addMove m).mems = s.mems := by simp [State.addMove]
@[simp] theorem State.mems_askPromote (need : Nat) (hot reheat : Bool) :
    (s.askPromote slot need hot reheat).mems = s.mems := by
  simp only [State.askPromote]; (repeat' split) <;> simp

@[simp] theorem State.mems_askDemote : (s.askDemote slot dst cmd).mems = s.mems := by
  simp only [State.askDemote]; (repeat' split) <;> simp

@[simp] theorem State.mems_cancelDown : (s.cancelDown slot).mems = s.mems := by
  simp only [State.cancelDown]; (repeat' split) <;> simp

@[simp] theorem State.mems_issueRead : (s.issueRead slot).mems = s.mems := by simp [State.issueRead]
@[simp] theorem State.mems_useLease : (s.useLease slot).mems = s.mems := by simp [State.useLease]
@[simp] theorem State.mems_awaitLease : (s.awaitLease slot).mems = s.mems := by simp [State.awaitLease]
@[simp] theorem State.mems_restartReaders (x : Nat) : (s.restartReaders slot x).mems = s.mems := by
  simp only [State.restartReaders]; (repeat' split) <;> simp

@[simp] theorem State.mems_forceVersion (r : StepRec) : (s.forceVersion slot r).mems = s.mems := by
  simp only [State.forceVersion]; (repeat' split) <;> simp

@[simp] theorem State.mems_beginVerWait : (s.beginVerWait slot).mems = s.mems := by
  simp only [State.beginVerWait]; (repeat' split) <;> simp

@[simp] theorem State.mems_endVerWait : (s.endVerWait slot).mems = s.mems := by
  simp only [State.endVerWait]; (repeat' split) <;> simp

@[simp] theorem State.mems_commitOutside (f : StepRec → StepRec) : (s.commitOutside slot f).mems = s.mems := by
  simp only [State.commitOutside]; (repeat' split) <;> simp

@[simp] theorem State.mems_enterMoving (src : Residency) : (s.enterMoving slot src dst).mems = s.mems := by
  simp [State.enterMoving]

@[simp] theorem State.mems_leaveMoving (r : Residency) : (s.leaveMoving slot r).mems = s.mems := by simp [State.leaveMoving]
@[simp] theorem State.mems_hotToWarm : (s.hotToWarm slot).mems = s.mems := by simp [State.hotToWarm]
@[simp] theorem State.memsOk_completeMove (hs : s.mems.ok) : (s.completeMove cmd slot st detail).mems.ok := by
  simp only [State.completeMove]; (repeat' split) <;> simp [hs]

@[simp] theorem State.mems_countReferenced (pages : List Nat) (extra : Nat) :
    (s.countReferenced cmd pages extra).mems = s.mems := by
  simp only [State.countReferenced]; (repeat' split) <;> simp

@[simp] theorem State.mems_dropProvisional : (s.dropProvisional slot).mems = s.mems := by
  simp only [State.dropProvisional]; (repeat' split) <;> simp

@[simp] theorem State.memsKept_startDemote (n : Nat) (m : Move) (x : Session) (ctx : Nat) :
    MemsKept s (s.startDemote n m x ctx) := by
  simp only [State.startDemote]
  split
  · split
    · simp
    · next t h => simp [(State.memsKept_lockEntry ..).eq h]
  · simp

@[simp] theorem State.memsKept_startPromote (n : Nat) (m : Move) (x : Session) (ctx : Nat) :
    MemsKept s (s.startPromote n m x ctx) := by
  simp only [State.startPromote]
  split
  · split
    · simp
    · next t h => simp [(State.memsKept_lockEntry ..).eq h]
  · simp

@[simp] theorem mems_displace (m : Move) (tiles fuel : Nat) : (displace m tiles fuel s).2.mems = s.mems := by
  induction fuel generalizing s with
  | zero => rfl
  | succ fuel ih =>
    unfold displace
    split
    · rfl
    · split <;> simp [ih]

@[simp] theorem State.memsKept_startHot (n : Nat) (m : Move) (x : Session) (ctx : Nat) :
    MemsKept s (s.startHot n m x ctx) := by
  have hd : (displace m (s.layoutOf x).srTiles s.sdir.sess.size s).2.mems = s.mems := by simp
  simp only [State.startHot]
  split
  · next t h =>
    rw [h] at hd
    split <;> simp [hd]
  · next seat t h =>
    rw [h] at hd
    split
    · simp
    · next u hu => simp [(State.memsKept_lockEntry ..).eq hu, hd]

@[simp] theorem State.memsKept_startWriteback (ctx : Nat) : MemsKept s (s.startWriteback n m x ctx) := by
  simp only [State.startWriteback]; (repeat' split) <;> simp

@[simp] theorem State.memsKept_tryStart (n : Nat) (m : Move) : MemsKept s (s.tryStart n m) := by
  unfold State.tryStart
  repeat' split
  all_goals simp

@[simp] theorem State.memsOk_dropStale (hs : s.mems.ok) : s.dropStale.mems.ok :=
  State.memsOk_foldl (fun t e ht => by simp [ht]) _ hs

@[simp] theorem State.mems_lockStall : s.lockStall.mems = s.mems := by simp only [State.lockStall]; (repeat' split) <;> simp

@[simp] theorem nextOk_execMoveStart (hs : s.mems.ok) : NextOk (execMoveStart s) := by
  simp only [execMoveStart, nextOk_next]
  split
  · split
    · next t h =>
      obtain ⟨e, -, he⟩ := List.exists_of_findSome?_eq_some h
      obtain ⟨u, hu, rfl⟩ := Option.map_eq_some_iff.1 he
      simp [(State.memsKept_tryStart ..).eq hu, hs]
    · simp [hs]
  · exact hs

@[simp] theorem State.mems_charge (p c : Nat) : (s.charge p c n).mems = s.mems := by simp [State.charge]
@[simp] theorem State.mems_renewCredits : s.renewCredits.mems = s.mems := by simp [State.renewCredits]
@[simp] theorem nextOk_execCreditWindowEnd (hs : s.mems.ok) : NextOk (execCreditWindowEnd s) := by simp [execCreditWindowEnd, hs]
@[simp] theorem State.mems_flagPage (t : Residency) : (s.flagPage n t).mems = s.mems := by simp [State.flagPage]
@[simp] theorem State.mems_settleDown (recB : Nat) : (s.settleDown m recB).mems = s.mems := by simp [State.settleDown]
@[simp] theorem State.mems_leaveHbm : (s.leaveHbm slot x).mems = s.mems := by simp [State.leaveHbm]

@[simp] theorem State.mems_placeTail (x : Session) (dst : Residency) :
    (s.placeTail x dst).1.mems = s.mems := by
  unfold State.placeTail
  refine State.mems_foldl_fst _ (fun y e => ?_) _ _
  repeat' split
  all_goals simp

@[simp] theorem State.mems_promoteRunnable : (s.promoteRunnable slot).mems = s.mems := by
  simp only [State.promoteRunnable]; (repeat' split) <;> simp

@[simp] theorem State.mems_useProvisional : (s.useProvisional slot m x).2.mems = s.mems := by
  simp only [State.useProvisional]; (repeat' split) <;> simp

@[simp] theorem State.memsOk_commitDemote (hs : s.mems.ok) : (s.commitDemote n m x).mems.ok := by simp [State.commitDemote, hs]
@[simp] theorem State.mems_commitPromote : (s.commitPromote n m x).mems = s.mems := by simp [State.commitPromote]
@[simp] theorem State.mems_commitHot : (s.commitHot n m).mems = s.mems := by simp [State.commitHot]
@[simp] theorem State.mems_endWriteback (whole : Bool) : (s.endWriteback n m whole).mems = s.mems := by
  simp only [State.endWriteback]; (repeat' split) <;> simp

@[simp] theorem State.memsOk_cancelMove (hs : s.mems.ok) : (s.cancelMove n m).mems.ok := by simp [State.cancelMove, hs]
@[simp] theorem State.mems_undoPromote : (s.undoPromote m x).mems = s.mems := by simp [State.undoPromote]
@[simp] theorem State.memsOk_failWaiting (hs : s.mems.ok) : (s.failWaiting slot st detail).mems.ok :=
  State.memsOk_foldl (fun t e ht => by simp [ht]) _ hs

@[simp] theorem State.memsOk_giveUpStep (hs : s.mems.ok) : (s.giveUpStep slot st detail).mems.ok := by
  simp only [State.giveUpStep]; (repeat' split) <;> simp [hs]

@[simp] theorem State.memsOk_failMove (bad : Bool) (hs : s.mems.ok) : (s.failMove n m bad).mems.ok := by
  unfold State.failMove
  split
  · simp [hs]
  · extract_lets undone left marked ended
    have hended : ended.mems.ok := by
      have hundone : undone.mems.ok := by
        simp only [undone]
        split <;> [skip; split] <;> simp [hs]
      simp [ended, marked, left, hundone]
    split
    · have hfailed := State.memsOk_failWaiting (slot := m.slot) (st := .internal) (detail := 0) hended
      simp [hfailed]
    · simpa using hended

@[simp] theorem State.memsOk_commitMove (hs : s.mems.ok) : (s.commitMove n m).mems.ok := by
  simp only [State.commitMove]; (repeat' split) <;> simp [hs]

@[simp] theorem nextOk_execMoveCommit (hs : s.mems.ok) : NextOk (execMoveCommit s) := by
  simp only [execMoveCommit, nextOk_next]; (repeat' split) <;> simp [hs]

@[simp] theorem State.memsOk_tileFailed (hs : s.mems.ok) : (s.tileFailed n m o).mems.ok := by
  simp only [State.tileFailed]; (repeat' split) <;> simp [hs]

@[simp] theorem State.mems_releasePage : (s.releasePage m).mems = s.mems := by
  simp only [State.releasePage]; (repeat' split) <;> simp

@[simp] theorem State.mems_tileDone (t : MTile) (rest : List MTile) : (s.tileDone n m t rest).mems = s.mems := by
  simp only [State.tileDone]; (repeat' split) <;> simp

@[simp] theorem State.mems_jobTileFailed (j : Nat) : (s.jobTileFailed j o).mems = s.mems := by simp [State.jobTileFailed]
@[simp] theorem State.mems_jobProgress : (s.jobProgress m).mems = s.mems := by
  simp only [State.jobProgress]; (repeat' split) <;> simp

@[simp] theorem State.mems_readPool (t : MTile) : (s.readPool m t).mems = s.mems := by
  simp only [State.readPool]; (repeat' split) <;> simp

@[simp] theorem State.memsOk_transfer (hs : s.mems.ok) : (s.transfer n m o).mems.ok := by
  simp only [State.transfer]; (repeat' split) <;> simp [hs]

@[simp] theorem nextOk_execTileTransfer (outcome : TileOutcome) (hs : s.mems.ok) : NextOk (execTileTransfer outcome s) := by
  simp only [execTileTransfer, nextOk_next]; (repeat' split) <;> simp [hs]

@[simp] theorem State.memsOk_dropSeatMoves (hs : s.mems.ok) : (s.dropSeatMoves k).mems.ok :=
  State.memsOk_foldl (fun t e ht => by simp [ht]) _ hs

@[simp] theorem State.mems_unseatCluster : (s.unseatCluster k).mems = s.mems := by simp [State.unseatCluster]
@[simp] theorem State.mems_unseatMoving : (s.unseatMoving k).mems = s.mems := by simp [State.unseatMoving]
@[simp] theorem State.mems_dropHalves : (s.dropHalves k).mems = s.mems := by simp [State.dropHalves]
@[simp] theorem State.memsOk_clearCluster (hs : s.mems.ok) : (s.clearCluster k).mems.ok := by simp [State.clearCluster, hs]

end Sys2Proof.Machine
end

section
/-! ## What keeps the memories: compaction and eviction -/
namespace Sys2Proof.Machine
variable {s t : State} 

@[simp] theorem memsKept_writePages (x : Session) (l : Layout) (groups : List (List Slot)) (acc : List PtEntry) :
    MemsKept s ((writePages s x l groups acc).map Prod.snd) := by
  induction groups generalizing s acc with
  | nil => simp [writePages]
  | cons g rest ih =>
    unfold writePages
    split
    · simp
    · next n t h => exact (ih _).trans (by simp [(State.memsKept_allotPage ..).of_pair h])

@[simp] theorem State.memsKept_compact (slot budget since : Nat) : MemsKept s (s.compact slot budget since) := by
  simp only [State.compact]
  split
  · simp
  · split
    · simp
    · split
      · simp
      · split
        · simp
        · next entries t h => simp [(memsKept_writePages ..).of_pair h]

@[simp] theorem State.mems_compactWait (slot : Nat) (cmd : Option Nat) : (s.compactWait slot cmd).mems = s.mems := by
  simp [State.compactWait]

@[simp] theorem State.mems_pressureEvict (slot : Nat) : (s.pressureEvict slot).mems = s.mems := by
  simp only [State.pressureEvict]
  split
  · rfl
  · split
    · split
      · rfl
      · next t h => simp [(State.memsKept_compact ..).eq h]
    · rfl

end Sys2Proof.Machine
end

section
/-! ## What keeps the memories: waits, residency and forks -/
namespace Sys2Proof.Machine
variable {s t : State} (id slot : Nat) (c : Cmd) (x : Session) (en : Bool)

@[simp] theorem State.mems_waitCmd : (s.waitCmd id).mems = s.mems := by simp [State.waitCmd]
@[simp] theorem State.mems_runCmd (free : Bool) : (s.runCmd id free).mems = s.mems := by simp [State.runCmd]
@[simp] theorem State.mems_becomeRunnable : (s.becomeRunnable slot).mems = s.mems := by
  simp only [State.becomeRunnable]; (repeat' split) <;> simp

@[simp] theorem State.mems_promoting : (s.promoting slot).mems = s.mems := by
  simp only [State.promoting]; (repeat' split) <;> simp

@[simp] theorem State.memsKept_makeChild (x : Session) (p : Params) (f : ForkCut) (cls : Nat) :
    MemsKept s ((s.makeChild x p f cls).map Prod.snd) := by
  simp only [State.makeChild]
  split
  · simp
  · next extra own t h =>
    have e : t.mems = s.mems := by
      split at h
      · cases h; rfl
      · split at h
        · cases h; rfl
        · split at h
          · cases h
          · next n u hu => cases h; simp [(State.memsKept_allotPage ..).of_pair hu]
    simp [e]

@[simp] theorem memsOk_opSessFork (id : Nat) (c : Cmd) (slot : Nat) (hs : s.mems.ok) :
    (opSessFork s id c slot).mems.ok := by
  unfold opSessFork
  split
  · simp [hs]
  · next x hx =>
    extract_lets at' f l
    have hr : (s.roomForSession x.tenant l).2.mems = s.mems := by simp
    generalize s.roomForSession x.tenant l = r at hr ⊢
    obtain ⟨d, u⟩ := r
    dsimp only at hr ⊢
    repeat' split
    any_goals (simp [hr, hs]; done)
    all_goals
      next child t h => simp [(State.memsKept_makeChild ..).of_pair h, hr, hs]

@[simp] theorem State.mems_countRefusal (refused : Bool) : (s.countRefusal refused).mems = s.mems := by
  simp [State.countRefusal]

@[simp] theorem State.mems_tierChoice (w limit : Nat) (pressure : Bool) :
    (s.tierChoice slot w limit pressure).mems = s.mems := by
  simp only [State.tierChoice]; (repeat' split) <;> simp

@[simp] theorem State.memsOk_beginWait (hs : s.mems.ok) : (s.beginWait id c slot).mems.ok := by
  simp only [State.beginWait]; (repeat' split) <;> simp [hs]

@[simp] theorem State.mems_point (id : Nat) (c : Cmd) (slot : Nat) (suppressed : Bool) :
    (s.point id c slot suppressed).state.mems = s.mems := by
  simp only [State.point]
  repeat' split
  any_goals (simp [PointOutcome.state]; done)
  next t h => exact (State.memsKept_compact ..).eq h

theorem State.mems_of_passed {id slot : Nat} {c : Cmd} {b : Bool} (h : s.point id c slot b = .passed t) :
    t.mems = s.mems := by
  have e : (s.point id c slot b).state.mems = s.mems := by simp
  rwa [h] at e

theorem State.mems_of_waits {id slot : Nat} {c : Cmd} {b : Bool} (h : s.point id c slot b = .waits t) :
    t.mems = s.mems := by
  have e : (s.point id c slot b).state.mems = s.mems := by simp
  rwa [h] at e

@[simp] theorem memsOk_opToolWait (id : Nat) (c : Cmd) (slot : Nat) (hs : s.mems.ok) :
    (opToolWait s id c slot).mems.ok := by
  unfold opToolWait
  split
  · next t h => simp [State.mems_of_passed h, hs]
  · next t h => exact (State.mems_of_waits h).symm ▸ hs

@[simp] theorem memsOk_opResume (hs : s.mems.ok) : (opResume s id c slot).mems.ok := by
  simp only [opResume]; (repeat' split) <;> simp [hs]

@[simp] theorem State.mems_parkAccepted : (s.parkAccepted id c).mems = s.mems := by
  simp only [State.parkAccepted]; (repeat' split) <;> simp

@[simp] theorem State.mems_dueCompaction (slot : Nat) : (s.dueCompaction slot).mems = s.mems := by
  unfold State.dueCompaction
  split
  · rfl
  · split
    · rfl
    · simp only
      split
      · next t h => simp [(State.memsKept_compact ..).eq h]
      · simp

@[simp] theorem State.mems_stopWriteback : (s.stopWriteback slot).mems = s.mems := by
  simp only [State.stopWriteback]; (repeat' split) <;> simp

@[simp] theorem State.memsOk_park (hs : s.mems.ok) : (s.park id c slot).mems.ok := by
  simp only [State.park]; (repeat' split) <;> simp [hs]

@[simp] theorem memsOk_opPark (id : Nat) (c : Cmd) (slot : Nat) (hs : s.mems.ok) : (opPark s id c slot).mems.ok := by
  unfold opPark
  split
  · simp [hs]
  · split
    · next t h => simp [State.mems_of_passed h, hs]
    · next t h => exact (State.mems_of_waits h).symm ▸ hs

@[simp] theorem nextOk_execOverstay (hs : s.mems.ok) : NextOk (execOverstay slot s) := by
  simp only [execOverstay, nextOk_next]; (repeat' split) <;> simp [hs]

@[simp] theorem nextOk_execReheatF1 (hs : s.mems.ok) : NextOk (execReheatF1 slot s) := by
  simp only [execReheatF1, nextOk_next]; (repeat' split) <;> simp [hs]

@[simp] theorem nextOk_execReheatF2 (hs : s.mems.ok) : NextOk (execReheatF2 slot s) := by
  simp only [execReheatF2, nextOk_next]; (repeat' split) <;> simp [hs]

@[simp] theorem nextOk_execHotIdleDemote (hs : s.mems.ok) : NextOk (execHotIdleDemote slot s) := by
  simp only [execHotIdleDemote, nextOk_next]; (repeat' split) <;> simp [hs]

@[simp] theorem nextOk_execAgeDemote (hs : s.mems.ok) : NextOk (execAgeDemote slot s) := by
  simp only [execAgeDemote, nextOk_next]; (repeat' split) <;> simp [hs]

@[simp] theorem State.mems_pressureStep : s.pressureStep.mems = s.mems := by
  simp only [State.pressureStep]; (repeat' split) <;> simp

@[simp] theorem nextOk_execPressureDemotion (hs : s.mems.ok) : NextOk (execPressureDemotion s) := by
  simp [execPressureDemotion, hs]

@[simp] theorem nextOk_execPromotionSpaceTimeout (hs : s.mems.ok) : NextOk (execPromotionSpaceTimeout s) := by
  simp only [execPromotionSpaceTimeout, nextOk_next]; (repeat' split) <;> simp [hs]

@[simp] theorem State.memsOk_endDelayed (st : Status) (detail : Nat) (hs : s.mems.ok) :
    (s.endDelayed slot x id st detail).mems.ok := by
  simp [State.endDelayed, hs]

@[simp] theorem State.memsOk_compactUe (w : CompactWait) (hs : s.mems.ok) : (s.compactUe slot x w).mems.ok := by
  simp only [State.compactUe]; (repeat' split) <;> simp [hs]

@[simp] theorem nextOk_execCompactionSpaceReady (turn : CompactionTurn) (hs : s.mems.ok) :
    NextOk (execCompactionSpaceReady turn s) := by
  simp only [execCompactionSpaceReady, nextOk_next]
  split
  · exact hs
  · split
    · exact hs
    · split
      · exact hs
      · next t h =>
        split
        · simp [hs]
        · split <;> simp [(State.memsKept_compact ..).eq h, hs]

@[simp] theorem nextOk_execCompactionAbandon (hs : s.mems.ok) : NextOk (execCompactionAbandon slot s) := by
  simp only [execCompactionAbandon, nextOk_next]; (repeat' split) <;> simp [hs]

@[simp] theorem nextOk_execStmEnable (hs : s.mems.ok) : NextOk (execStmEnable en s) := by
  simp only [execStmEnable, nextOk_next]; (repeat' split) <;> simp [↓State.mems_renewCredits, ↓State.mems_update, hs]

@[simp] theorem nextOk_execCaneEnable (hs : s.mems.ok) : NextOk (execCaneEnable en s) := by simp [execCaneEnable, hs]

end Sys2Proof.Machine
end

section
/-! ## What keeps the memories: capsules -/
namespace Sys2Proof.Machine
variable {s t : State} (id slot space addr n : Nat) (kind : JobKind) (j : CapsuleJob) (l : Layout)

@[simp] theorem State.mems_startExport (x : Session) (compress : Bool) (keyRef : Nat) :
    (s.startExport id slot x kind space addr compress keyRef).mems = s.mems := by
  simp [State.startExport]

@[simp] theorem memsOk_opExportCapsule (c : Cmd) (hs : s.mems.ok) : (opExportCapsule s id c slot).mems.ok := by
  simp only [opExportCapsule]; (repeat' split) <;> simp [hs]

@[simp] theorem State.mems_eraseJob : (s.eraseJob n j).mems = s.mems := by simp [State.eraseJob]
@[simp] theorem State.memsOk_exportEnd (writeFail : Bool) (hs : s.mems.ok) : (s.exportEnd n j writeFail).mems.ok := by
  simp [State.exportEnd, hs]

@[simp] theorem State.mems_importRoom (tenant pages : Nat) : (s.importRoom tenant l pages).2.mems = s.mems := by
  simp only [State.importRoom]; (repeat' split) <;> simp

@[simp] theorem memsKept_allotImport (tenant model : Nat) (l : Layout) (pages : List (PtEntry × List Slot))
    (acc : List PtEntry) : MemsKept s ((allotImport s tenant model l pages acc).map Prod.snd) := by
  induction pages generalizing s acc with
  | nil => simp [allotImport]
  | cons e rest ih =>
    unfold allotImport
    split
    · simp
    · next n t h => exact (ih _).trans ((State.memsKept_allotPage ..).of_pair h)

@[simp] theorem State.memsKept_arriving (tenant model : Nat) (nr : Bool) (c : Capsule) :
    MemsKept s ((s.arriving tenant model nr c).map Prod.snd) := by
  simp only [State.arriving]
  split
  · simp
  · next entries t h => simp [(memsKept_allotImport ..).of_pair h]

@[simp] theorem State.mems_startImport (h : List Byte) (c : Capsule) (entries : List PtEntry) (word : Nat) :
    (s.startImport id slot kind space addr h c l entries word).mems = s.mems := by
  simp [State.startImport]

@[simp] theorem memsOk_opImportCapsule (id : Nat) (c : Cmd) (hs : s.mems.ok) : (opImportCapsule s id c).mems.ok := by
  simp only [opImportCapsule]
  repeat' split
  any_goals (simp [hs]; done)
  next slot t h => simp [(State.memsKept_arriving ..).of_pair h, hs]

@[simp] theorem State.mems_undoArrival : (s.undoArrival slot).mems = s.mems := by
  simp only [State.undoArrival]; (repeat' split) <;> simp

@[simp] theorem memsOk_offerPages (slot i : Nat) (l : List PtEntry) (hs : s.mems.ok) :
    (offerPages slot i l s).mems.ok := by
  induction l generalizing s i with
  | nil => exact hs
  | cons e rest ih => simp [offerPages, ih, hs]

@[simp] theorem State.memsOk_arrived (hs : s.mems.ok) : (s.arrived slot).mems.ok := by
  simp only [State.arrived]; (repeat' split) <;> simp [hs]

@[simp] theorem State.memsOk_importEnd (hs : s.mems.ok) : (s.importEnd n j).mems.ok := by
  simp only [State.importEnd]; (repeat' split) <;> simp [hs]

end Sys2Proof.Machine
end

section
/-! ## What keeps the memories: models -/
namespace Sys2Proof.Machine
variable {s t : State} (id mid : Nat) (c : Cmd)

@[simp] theorem State.mems_destroyModelKey (ref : Nat) : (s.destroyModelKey ref).mems = s.mems := by
  simp [State.destroyModelKey]

@[simp] theorem memsOk_opModelLoad (hs : s.mems.ok) : (opModelLoad s id c).mems.ok := by
  simp only [opModelLoad]; (repeat' split) <;> simp [hs]

@[simp] theorem State.mems_fillSlices : (s.fillSlices mid).mems = s.mems := by simp [State.fillSlices]
@[simp] theorem State.mems_dropLoad (m : Model) : (s.dropLoad mid m).mems = s.mems := by simp [State.dropLoad]
@[simp] theorem nextOk_execModelLoadDone (program : LayerProgram) (hs : s.mems.ok) :
    NextOk (execModelLoadDone program s) := by
  simp only [execModelLoadDone, nextOk_next]; (repeat' split) <;> simp [hs]

@[simp] theorem State.mems_releaseModel : (s.releaseModel mid).mems = s.mems := by simp [State.releaseModel]
@[simp] theorem memsOk_opModelUnload (hs : s.mems.ok) : (opModelUnload s id c).mems.ok := by simp [opModelUnload, hs]

end Sys2Proof.Machine
end

section
/-! ## What keeps the memories: text and vocabularies -/
namespace Sys2Proof.Machine
variable {s t : State} (id slot : Nat) (u : List TextUnit) (x : Session) (carry : List Byte) (reset : Bool) (c : Cmd)

@[simp] theorem memsOk_opVocabLoad (hs : s.mems.ok) : (opVocabLoad s id).mems.ok := by simp [opVocabLoad, hs]
@[simp] theorem nextOk_execVocabLoadDone (hs : s.mems.ok) : NextOk (execVocabLoadDone s) := by
  simp only [execVocabLoadDone, nextOk_next]; (repeat' split) <;> simp [hs]

@[simp] theorem nextOk_execMrvEnable (en : Bool) (hs : s.mems.ok) : NextOk (execMrvEnable en s) := by simp [execMrvEnable, hs]
@[simp] theorem State.mems_countInvalid : (s.countInvalid u).mems = s.mems := by simp [State.countInvalid]
@[simp] theorem State.mems_enterInput (l : List InPos) : (s.enterInput slot l).mems = s.mems := by
  simp only [State.enterInput]; (repeat' split) <;> simp

@[simp] theorem State.mems_changeRecord : (s.changeRecord slot x carry reset).mems = s.mems := by simp [State.changeRecord]
@[simp] theorem State.memsOk_append (noTrunc : Bool) (y : Option Vocab) (toks : List Nat) (taken : Nat) (hs : s.mems.ok) :
    (s.append id slot x noTrunc reset y toks u carry taken).mems.ok := by
  simp only [State.append]; (repeat' split) <;> simp [hs]

@[simp] theorem memsOk_opAppendText (hs : s.mems.ok) : (opAppendText s id c slot).mems.ok := by
  simp only [opAppendText]; (repeat' split) <;> simp [hs]

@[simp] theorem memsOk_opAppendTokens (hs : s.mems.ok) : (opAppendTokens s id c slot).mems.ok := by
  simp only [opAppendTokens]; (repeat' split) <;> simp [hs]

@[simp] theorem State.mems_flushCarry : (s.flushCarry slot).mems = s.mems := by
  simp only [State.flushCarry]; (repeat' split) <;> simp

end Sys2Proof.Machine
end

section
/-! ## What keeps the memories: constraint objects -/
namespace Sys2Proof.Machine
variable {s t : State} (id kind oid : Nat) (c : Cmd)

@[simp] theorem State.memsOk_loadObject (mid : Nat) (hs : s.mems.ok) : (s.loadObject id c kind oid mid).mems.ok := by
  simp only [State.loadObject]; (repeat' split) <;> simp [hs]

@[simp] theorem State.memsOk_unloadObject (hs : s.mems.ok) : (s.unloadObject id c kind oid).mems.ok := by
  simp only [State.unloadObject]; (repeat' split) <;> simp [hs]

@[simp] theorem memsOk_opConstraintLoad (hs : s.mems.ok) : (opConstraintLoad s id c).mems.ok := by simp [opConstraintLoad, hs]
@[simp] theorem nextOk_execJckEnable (en : Bool) (hs : s.mems.ok) : NextOk (execJckEnable en s) := by simp [execJckEnable, hs]
@[simp] theorem State.mems_countChoice (c : Choice) : (s.countChoice c).mems = s.mems := by simp [State.countChoice]

end Sys2Proof.Machine
end

section
/-! ## What keeps the memories: the step -/
namespace Sys2Proof.Machine
variable {s t : State} (slot : Nat) (row : StepRow) (r : StepRun) (q : StepReq) (x : Session) (ran : Bool)

@[simp] theorem memsKept_allotPages (x : Session) (n : Nat) (acc : List Nat) :
    MemsKept s ((allotPages s x n acc).map Prod.snd) := by
  induction n generalizing s acc with
  | zero => simp [allotPages]
  | succ n ih =>
    simp only [allotPages]
    split
    · split
      · simp
      · next k t h => exact (ih _).trans ((State.memsKept_allotPage ..).of_pair h)
    · simp

@[simp] theorem State.memsKept_allotFor (slot : Nat) (x : Session) (decode : Bool) (n : Nat) (cow : Bool) :
    MemsKept s ((s.allotFor slot x decode n cow).map Prod.snd) := by
  simp only [State.allotFor]
  split
  · simp
  · next pages t h =>
    have e : t.mems = s.mems := (memsKept_allotPages ..).of_pair h
    split <;> simp [e]

theorem mems_of_allotAll {cows : List Nat} {l : List (Nat × Bool × Nat)} {acc rows : List StepRow}
    (h : allotAll s cows l acc = .inr (rows, t)) : t.mems = s.mems := by
  induction l generalizing s acc with
  | nil => cases h; rfl
  | cons e l ih =>
    unfold allotAll at h
    split at h
    · exact ih h
    · split at h
      · cases h
      · next row u hu => exact (ih h).trans ((State.memsKept_allotFor ..).of_pair hu)

@[simp] theorem State.mems_allotSkip : (s.allotSkip slot).mems = s.mems := by simp [State.allotSkip]

@[simp] theorem mems_composeLoop (fuel : Nat) (cand : List (Nat × Session)) :
    (composeLoop fuel s cand).2.mems = s.mems := by
  induction fuel generalizing s cand with
  | zero => rfl
  | succ fuel ih =>
    simp only [composeLoop]
    split
    · next h => exact mems_of_allotAll h
    · simp [ih]

@[simp] theorem State.memsOk_dropMissed (hs : s.mems.ok) : (s.dropMissed slot).mems.ok := by
  simp only [State.dropMissed]; (repeat' split) <;> simp [hs]

@[simp] theorem State.memsOk_dropAllMissed (hs : s.mems.ok) : s.dropAllMissed.mems.ok :=
  State.memsOk_foldl (fun t e ht => by simp [ht]) _ hs

@[simp] theorem mems_lockAll (l : List (Nat × Session)) : (lockAll s l).1.mems = s.mems := by
  induction l generalizing s with
  | nil => rfl
  | cons e l ih =>
    simp only [lockAll]
    split <;> simp [ih]

@[simp] theorem State.mems_enterStep : (s.enterStep row).mems = s.mems := by simp [State.enterStep]
@[simp] theorem State.memsOk_composeStep (hs : s.mems.ok) : s.composeStep.2.mems.ok := by
  simp only [State.composeStep]; (repeat' split) <;> simp [hs]

@[simp] theorem State.mems_startStep : (s.startStep r).mems = s.mems := by simp [State.startStep]

@[simp] theorem State.memsOk_composeNow (hs : s.mems.ok) : s.composeNow.mems.ok := by
  have e : s.composeStep.2.mems.ok := by simp [hs]
  unfold State.composeNow
  split
  · next t h => rwa [h] at e
  · next r t h =>
    rw [h] at e
    simpa using e

@[simp] theorem nextOk_execStepCompose (hs : s.mems.ok) : NextOk (execStepCompose s) := by simp [execStepCompose, hs]
@[simp] theorem nextOk_execGatherTimeout (hs : s.mems.ok) : NextOk (execGatherTimeout s) := by
  simp only [execGatherTimeout, nextOk_next]; (repeat' split) <;> simp [hs]

@[simp] theorem nextOk_execTailAllotGiveUp (hs : s.mems.ok) : NextOk (execTailAllotGiveUp slot s) := by
  simp only [execTailAllotGiveUp, nextOk_next]; (repeat' split) <;> simp [hs]

@[simp] theorem State.memsOk_beginStep (id : Nat) (c : Cmd) (hs : s.mems.ok) : (s.beginStep id c slot).mems.ok := by
  simp only [State.beginStep]; (repeat' split) <;> simp [hs]

@[simp] theorem memsOk_opStep (id : Nat) (c : Cmd) (slot : Nat) (hs : s.mems.ok) : (opStep s id c slot).mems.ok := by
  simp only [opStep]
  repeat' split
  any_goals solve | simp [hs]
  · next t h => exact (State.mems_of_waits h).symm ▸ hs
  all_goals simp [State.mems_of_passed ‹s.point _ _ _ _ = .passed _›, hs]

@[simp] theorem State.memsOk_writePartial (hs : s.mems.ok) : (s.writePartial slot q).1.mems.ok := by
  simp only [State.writePartial]; (repeat' split) <;> simp [hs]

@[simp] theorem State.memsOk_writeOutput (d : Desc) (t : Nat) (forced escape : Bool) (text : List Byte) (hs : s.mems.ok) :
    (s.writeOutput d q t forced escape text).1.mems.ok := by
  simp only [State.writeOutput]
  apply State.memsOk_writeMem
  split <;> simp [hs]

@[simp] theorem mems_writeSlots (gs : List (List Slot)) (fs : List Nat) :
    (writeSlots s gs fs).mems = s.mems := by
  induction gs generalizing s fs with
  | nil => rfl
  | cons g gs ih =>
    cases fs with
    | nil => rfl
    | cons f fs => simp [writeSlots, ih]

@[simp] theorem State.mems_writeKv (new : List Slot) : (s.writeKv row x new).mems = s.mems := by
  simp only [State.writeKv]; (repeat' split) <;> simp

@[simp] theorem memsOk_sealFull (slot : Nat) (words : List Nat) (fuel i : Nat) (hs : s.mems.ok) :
    (sealFull s slot words fuel i).mems.ok := by
  induction fuel generalizing s words i with
  | zero => exact hs
  | succ fuel ih =>
    unfold sealFull
    repeat' split
    all_goals simp [ih, hs]

@[simp] theorem State.memsOk_emitToken (c : Choice) (t : Nat) (hs : s.mems.ok) : (s.emitToken slot q c t).1.mems.ok := by
  simp only [State.emitToken]; (repeat' split) <;> simp [hs]

@[simp] theorem State.mems_settleRun (dead : Bool) : (s.settleRun slot dead).mems = s.mems := by
  simp only [State.settleRun]; (repeat' split) <;> simp

@[simp] theorem State.mems_crossing (slot before : Nat) : (s.crossing slot before).mems = s.mems := by
  simp only [State.crossing]
  split
  · rfl
  · split
    · split
      · next t h => exact (State.memsKept_compact ..).eq h
      · simp
    · rfl

@[simp] theorem State.mems_batchTiles : s.batchTiles.mems = s.mems := by simp [State.batchTiles]
@[simp] theorem State.mems_boundary : (s.boundary r ran).mems = s.mems := by
  simp only [State.boundary]; (repeat' split) <;> simp

@[simp] theorem State.mems_leaveStep : (s.leaveStep slot ran).mems = s.mems := by
  simp only [State.leaveStep]; (repeat' split) <;> simp

@[simp] theorem State.memsOk_closePending (hs : s.mems.ok) : (s.closePending slot).mems.ok := by
  simp only [State.closePending]; (repeat' split) <;> simp [hs]

@[simp] theorem State.memsOk_commitRow (row : StepRow) (x : Session) (forced : Bool) (hs : s.mems.ok) :
    (s.commitRow row x forced).mems.ok := by
  unfold State.commitRow
  extract_lets
  split
  extract_lets
  split
  next _ _ _ begun sampled _ done r dead hdone =>
    have hbegun : begun.mems.ok := by
      simp only [begun]
      split
      · split <;> simp +zetaDelta [hs]
      · simp +zetaDelta [hs]
    have e : done.mems.ok := by
      rw [show done = _ from (congrArg Prod.fst hdone).symm]
      clear_value sampled begun
      clear hdone
      cases sampled with
      | token c t =>
        dsimp only
        split <;> simp [hbegun]
      | _ => simp [hbegun]
    dsimp only
    repeat' split
    all_goals simp [e]

@[simp] theorem State.memsOk_commitOrWait (hs : s.mems.ok) : (s.commitOrWait row x).mems.ok := by
  simp only [State.commitOrWait]; (repeat' split) <;> simp [hs]

@[simp] theorem nextOk_execStepCommit (hs : s.mems.ok) : NextOk (execStepCommit slot s) := by
  simp only [execStepCommit, nextOk_next]; (repeat' split) <;> simp [hs]

@[simp] theorem nextOk_execVersionWaitTimeout (hs : s.mems.ok) : NextOk (execVersionWaitTimeout slot s) := by
  simp only [execVersionWaitTimeout, nextOk_next]; (repeat' split) <;> simp [hs]

@[simp] theorem State.memsOk_partialFree (hs : s.mems.ok) : (s.partialFree slot).mems.ok := by
  simp only [State.partialFree]; (repeat' split) <;> simp [hs]

@[simp] theorem nextOk_execGafEnable (en : Bool) (hs : s.mems.ok) : NextOk (execGafEnable en s) := by simp [execGafEnable, hs]

@[simp] theorem State.memsOk_abortRow (row : StepRow) (hs : s.mems.ok) : (s.abortRow row).mems.ok := by
  simp only [State.abortRow]
  generalize row.cow.toList ++ row.allotted = frames
  split <;> simp [hs]

@[simp] theorem State.memsOk_abortStep (hs : s.mems.ok) : s.abortStep.mems.ok := by
  unfold State.abortStep
  split
  · exact hs
  · next r _ =>
    have haborted := State.memsOk_foldl (fun t row ht => State.memsOk_abortRow row ht) r.rows hs
    simpa using haborted

end Sys2Proof.Machine
end

section
/-! ## What keeps the memories: admission -/
namespace Sys2Proof.Machine
variable {s t : State} (q colour id : Nat) (a : AdmQueue) (c : Cmd) (readable : Bool)

@[simp] theorem State.mems_setAdmQ : (s.setAdmQ q a).mems = s.mems := by simp [State.setAdmQ]
@[simp] theorem State.mems_countColour : (s.countColour q colour).mems = s.mems := by simp [State.countColour]
@[simp] theorem State.mems_enqueue (l : Nat) : (s.enqueue id q c a colour l).mems = s.mems := by simp [State.enqueue]
@[simp] theorem State.memsOk_admitTenant (hs : s.mems.ok) : (s.admitTenant id c).mems.ok := by simp [State.admitTenant, hs]
@[simp] theorem State.mems_onAccept : (s.onAccept id).mems = s.mems := by
  simp only [State.onAccept]; (repeat' split) <;> simp

@[simp] theorem State.memsOk_takeIn (hs : s.mems.ok) : (s.takeIn id c).mems.ok := by simp [State.takeIn, hs]
@[simp] theorem State.memsOk_fetch (n : Nat) (hs : s.mems.ok) : (s.fetch n readable).mems.ok := by
  simp only [State.fetch]; (repeat' split) <;> simp [hs]

@[simp] theorem nextOk_execDescriptorFetch (ring : BitVec 8) (hs : s.mems.ok) :
    NextOk (execDescriptorFetch ring readable s) := by
  simp [execDescriptorFetch, hs]

@[simp] theorem State.mems_startCmd : (s.startCmd id).mems = s.mems := by
  simp only [State.startCmd]; (repeat' split) <;> simp

@[simp] theorem State.mems_dequeue (urgent : Bool) (fin : Nat) : (s.dequeue urgent q id fin).mems = s.mems := by
  simp [State.dequeue]

@[simp] theorem State.mems_dequeueGroups : s.dequeueGroups.mems = s.mems := by
  simp only [State.dequeueGroups]; (repeat' split) <;> simp

@[simp] theorem State.mems_dequeueNext : s.dequeueNext.mems = s.mems := by
  simp only [State.dequeueNext]; (repeat' split) <;> simp

@[simp] theorem nextOk_execCommandDequeue (hs : s.mems.ok) : NextOk (execCommandDequeue s) := by simp [execCommandDequeue, hs]
@[simp] theorem State.mems_unqueue : (s.unqueue id c).mems = s.mems := by simp [State.unqueue]
@[simp] theorem State.mems_settleHeld : (s.settleHeld id c).mems = s.mems := by simp [State.settleHeld]
@[simp] theorem State.memsOk_dropLate (hs : s.mems.ok) : (s.dropLate id c).mems.ok := by
  simp only [State.dropLate]; (repeat' split) <;> simp [hs]

@[simp] theorem nextOk_execLateDrop (hs : s.mems.ok) : NextOk (execLateDrop s) := by
  simp only [execLateDrop, nextOk_next]; (repeat' split) <;> simp [hs]

@[simp] theorem State.mems_keepRecord (r : List Byte) : (s.keepRecord r).mems = s.mems := by simp [State.keepRecord]
@[simp] theorem State.mems_sampleEnd : s.sampleEnd.mems = s.mems := by simp [State.sampleEnd]
@[simp] theorem nextOk_execAdmSampleWindowEnd (hs : s.mems.ok) : NextOk (execAdmSampleWindowEnd s) := by
  simp [execAdmSampleWindowEnd, hs]

@[simp] theorem State.memsOk_admitHeld (hs : s.mems.ok) : s.admitHeld.mems.ok :=
  State.memsOk_foldl (fun t id ht => by split <;> simp [ht]) _ (by simp [hs])

@[simp] theorem nextOk_execAdmEnable (en : Bool) (hs : s.mems.ok) : NextOk (execAdmEnable en s) := by simp [execAdmEnable, hs]

end Sys2Proof.Machine
end

section
/-! ## What keeps the memories: fabric memory and peers -/
namespace Sys2Proof.Machine
variable {s t : State} (r : Req) (device n source rate width : Nat) (m : PeerMsg)

@[simp] theorem State.mems_leave : (s.leave r).mems = s.mems := by simp only [State.leave]; (repeat' split) <;> simp
@[simp] theorem State.mems_issuePeer : (s.issuePeer device m).mems = s.mems := by simp [State.issuePeer]

@[simp] theorem State.mems_leaveWaiting : s.leaveWaiting.mems = s.mems := by
  refine State.mems_foldl _ (fun t e => ?_) _
  split <;> simp

@[simp] theorem State.mems_holdPeer : (s.holdPeer device m).mems = s.mems := by simp [State.holdPeer]
@[simp] theorem State.mems_sendPeer (kind : MsgKind) (seq epoch : Nat) (table row : Nat) (values : List Word) (tenant : Option Nat) :
    (s.sendPeer device kind seq epoch table row values tenant).2.mems = s.mems := by
  simp only [State.sendPeer]; (repeat' split) <;> simp

@[simp] theorem mems_drainOutbox (fuel device : Nat) : (drainOutbox fuel s device).mems = s.mems := by
  induction fuel generalizing s with
  | zero => rfl
  | succ fuel ih =>
    simp only [drainOutbox]
    repeat' split
    all_goals simp [ih]

@[simp] theorem State.mems_drainPeer : (s.drainPeer device).mems = s.mems := by simp [State.drainPeer]
@[simp] theorem State.mems_endReq : (s.endReq n r).mems = s.mems := by simp [State.endReq]

@[simp] theorem State.memsKept_takeMsg (m : PeerMsg) : MemsKept s (s.takeMsg m) := by
  unfold State.takeMsg
  split <;> simp

@[simp] theorem nextOk_execQuietNote (m : PeerMsg) (hs : s.mems.ok) : NextOk (execQuietNote m s) := by
  simp only [execQuietNote, nextOk_next]
  split
  · exact hs
  · next t h => simp [(State.memsKept_takeMsg ..).eq h, hs]

@[simp] theorem nextOk_execQuietSpanEnd (hs : s.mems.ok) : NextOk (execQuietSpanEnd device s) := by
  simp only [execQuietSpanEnd, nextOk_next]; (repeat' split) <;> simp [hs]

@[simp] theorem nextOk_execPeerSlotTimeout (hs : s.mems.ok) : NextOk (execPeerSlotTimeout source s) := by
  simp [execPeerSlotTimeout, hs]

@[simp] theorem nextOk_execPeerResend (req : Nat) (hs : s.mems.ok) : NextOk (execPeerResend req s) := by
  simp only [execPeerResend, nextOk_next]; (repeat' split) <;> simp [hs]

@[simp] theorem nextOk_execApertureBadAccess (hs : s.mems.ok) : NextOk (execApertureBadAccess source s) := by
  simp [execApertureBadAccess, hs]

@[simp] theorem State.mems_setPort (p : Port) : (s.setPort n p).mems = s.mems := by simp [State.setPort]
@[simp] theorem State.mems_setLink (l0p : Bool) : (s.setLink n rate width l0p).mems = s.mems := by simp [State.setLink]
@[simp] theorem nextOk_execLinkL0 (hs : s.mems.ok) : NextOk (execLinkL0 n rate width s) := by simp [execLinkL0, hs]
@[simp] theorem nextOk_execLinkTrainTimeout (hs : s.mems.ok) : NextOk (execLinkTrainTimeout n s) := by
  simp [execLinkTrainTimeout, hs]

@[simp] theorem nextOk_execLinkRetrain (hs : s.mems.ok) : NextOk (execLinkRetrain n s) := by simp [execLinkRetrain, hs]
@[simp] theorem State.mems_reissue : (s.reissue n).mems = s.mems := by simp [State.reissue]
@[simp] theorem State.mems_linkDown : (s.linkDown n).mems = s.mems := by simp [State.linkDown]
@[simp] theorem nextOk_execLinkDown (hs : s.mems.ok) : NextOk (execLinkDown n s) := by simp [execLinkDown, hs]
@[simp] theorem nextOk_execL0pWidthChange (hs : s.mems.ok) : NextOk (execL0pWidthChange n width s) := by
  simp [execL0pWidthChange, hs]

@[simp] theorem State.mems_portOff : (s.portOff n).mems = s.mems := by simp [State.portOff]
@[simp] theorem State.mems_mapSwap : s.mapSwap.mems = s.mems := by simp [State.mapSwap]
@[simp] theorem nextOk_execFamMapCommit (hs : s.mems.ok) : NextOk (execFamMapCommit s) := by simp [execFamMapCommit, hs]
@[simp] theorem nextOk_execDeadMarkClear (hs : s.mems.ok) : NextOk (execDeadMarkClear s) := by simp [execDeadMarkClear, hs]

end Sys2Proof.Machine
end

section
/-! ## What keeps the memories: migration -/
namespace Sys2Proof.Machine
variable {s t : State} (slot detail epoch w id n cmd addr : Nat) (st : Status) (word : Option DWord) (m : Migration)
  (c : Cmd) (j : CapsuleJob) (writeFail : Bool) (o : CasOp) (r : CasEnd)

@[simp] theorem State.memsOk_stopMove (hs : s.mems.ok) : (s.stopMove slot st detail).mems.ok := by
  simp only [State.stopMove]; (repeat' split) <;> simp [hs]

@[simp] theorem State.memsOk_forgetMoves (hs : s.mems.ok) : (s.forgetMoves slot st detail).mems.ok :=
  State.memsOk_foldl (fun t e ht => by simp [ht]) _ (by simp [hs])

@[simp] theorem State.memsOk_leaveSteps (hs : s.mems.ok) : (s.leaveSteps slot).mems.ok := by
  simp only [State.leaveSteps]; (repeat' split) <;> simp [hs]

@[simp] theorem State.memsOk_goAway (owner : Nat) (hs : s.mems.ok) : (s.goAway slot owner epoch).mems.ok := by
  unfold State.goAway
  extract_lets left stopped forgotten waited ended
  have hstopped : stopped.mems.ok := by simp [stopped, left, hs]
  have hforgotten : forgotten.mems.ok := by simp [forgotten, hstopped]
  have hwaited : waited.mems.ok := by simp [waited, hforgotten]
  have hended : ended.mems.ok := by simp [ended, hwaited]
  split
  · exact hended
  · simp [hended]

@[simp] theorem State.mems_noteWord : (s.noteWord w).mems = s.mems := by simp [State.noteWord]
@[simp] theorem State.memsOk_loseLease (hs : s.mems.ok) : (s.loseLease slot w).mems.ok := by simp [State.loseLease, hs]
@[simp] theorem State.memsOk_homeFailed (hs : s.mems.ok) : (s.homeFailed slot).mems.ok := by
  unfold State.homeFailed
  extract_lets aborted stopped ended completed kept
  have haborted : aborted.mems.ok := by
    simp only [aborted]
    split <;> simp [hs]
  have hstopped : stopped.mems.ok := by simp [stopped, haborted]
  have hended : ended.mems.ok := by simp [ended, hstopped]
  have hcompleted : completed.mems.ok := State.memsOk_foldl (fun t id ht => by simp [ht]) _ hended
  simp [kept, hcompleted]

@[simp] theorem State.mems_leaseValid : (s.leaseValid slot).mems = s.mems := by simp [State.leaseValid]
@[simp] theorem State.memsOk_validated (x : Session) (hs : s.mems.ok) : (s.validated slot x w).mems.ok := by
  unfold State.validated
  split
  · simp [hs]
  · split
    · split <;> simp [hs]
    · have hcompleted : ((s.leaseWaiters slot).foldl (fun s id => s.complete id .notOwner 1) s).mems.ok :=
        State.memsOk_foldl (fun t id ht => by simp [ht]) _ hs
      simp [hcompleted]

@[simp] theorem nextOk_execLeaseValidationResult (hs : s.mems.ok) : NextOk (execLeaseValidationResult slot word s) := by
  simp only [execLeaseValidationResult, nextOk_next]; (repeat' split) <;> simp [hs]

@[simp] theorem memsOk_opMigrateOut (id : Nat) (c : Cmd) (slot : Nat) (hs : s.mems.ok) :
    (opMigrateOut s id c slot).mems.ok := by
  have held : MemsKept s (s.lockOrStall slot).1 := by simp
  have stalled : (s.lockOrStall slot).2.mems = s.mems := by simp
  unfold opMigrateOut
  generalize s.lockOrStall slot = r at held stalled ⊢
  obtain ⟨_ | u, t⟩ := r
  · dsimp only at stalled ⊢
    repeat' split
    all_goals simp [stalled, hs]
  · dsimp only at held ⊢
    repeat' split
    all_goals simp [memsKept_some.1 held, hs]

@[simp] theorem State.memsOk_returnTier (result : Nat) (hs : s.mems.ok) : (s.returnTier id slot st detail result).mems.ok := by
  simp only [State.returnTier]; (repeat' split) <;> simp [hs]

@[simp] theorem State.memsOk_migratedOut (hs : s.mems.ok) : (s.migratedOut id m epoch).mems.ok := by simp [State.migratedOut, hs]
@[simp] theorem State.memsOk_migrationLost (hs : s.mems.ok) : (s.migrationLost id m w).mems.ok := by
  simp [State.migrationLost, hs]

@[simp] theorem State.memsOk_makeOffer (len : Nat) (hs : s.mems.ok) : (s.makeOffer id c slot len).mems.ok := by
  simp only [State.makeOffer]; (repeat' split) <;> simp [hs]

@[simp] theorem State.memsOk_stagingEnd (hs : s.mems.ok) : (s.stagingEnd n j writeFail).mems.ok := by
  simp only [State.stagingEnd]; (repeat' split) <;> simp [hs]

@[simp] theorem nextOk_execCapsuleExportDone (hs : s.mems.ok) : NextOk (execCapsuleExportDone writeFail s) := by
  simp only [execCapsuleExportDone, nextOk_next]; (repeat' split) <;> simp [hs]

@[simp] theorem State.memsOk_offerPartial (hs : s.mems.ok) : (s.offerPartial id m).mems.ok := by
  simp only [State.offerPartial]; (repeat' split) <;> simp [hs]

@[simp] theorem nextOk_execPartialSlotFree (hs : s.mems.ok) : NextOk (execPartialSlotFree slot s) := by
  simp only [execPartialSlotFree, nextOk_next]; (repeat' split) <;> simp [hs]

@[simp] theorem State.memsOk_offerMade (hs : s.mems.ok) : (s.offerMade id m).mems.ok := by simp [State.offerMade, hs]
@[simp] theorem State.memsOk_watch (word : Option Nat) (hs : s.mems.ok) : (s.watch id m word).mems.ok := by
  simp only [State.watch]; (repeat' split) <;> simp [hs]

@[simp] theorem nextOk_execLeasePoll (hs : s.mems.ok) : NextOk (execLeasePoll cmd word s) := by
  simp only [execLeasePoll, nextOk_next]; (repeat' split) <;> simp [hs]

@[simp] theorem nextOk_execLeaseNote (m : PeerMsg) (word : Option DWord) (hs : s.mems.ok) :
    NextOk (execLeaseNote m word s) := by
  simp only [execLeaseNote, nextOk_next]
  split
  · exact hs
  · next t h =>
    have ht : t.mems.ok := ((State.memsKept_takeMsg ..).eq h).symm ▸ hs
    split
    · exact ht
    · split <;> simp [ht]

@[simp] theorem nextOk_execOfferTimeout (hs : s.mems.ok) : NextOk (execOfferTimeout cmd s) := by
  simp only [execOfferTimeout, nextOk_next]; (repeat' split) <;> simp [hs]

@[simp] theorem State.memsOk_returning (id slot tenant model : Nat) (kind : JobKind) (space addr : Nat) (h : List Byte)
    (content : Capsule) (word : Nat) (hs : s.mems.ok) :
    (s.returning id slot tenant model kind space addr h content word).mems.ok := by
  simp only [State.returning]
  split
  · simp [hs]
  · split
    · simp [hs]
    · next entries t ht => simp [(memsKept_allotImport ..).of_pair ht, hs]

@[simp] theorem State.mems_undoReturn : (s.undoReturn j).mems = s.mems := by
  simp only [State.undoReturn]; (repeat' split) <;> simp

@[simp] theorem State.mems_undoJob : (s.undoJob j).mems = s.mems := by simp [State.undoJob]
@[simp] theorem State.mems_takeBack : (s.takeBack j).mems = s.mems := by
  simp only [State.takeBack]; (repeat' split) <;> simp

@[simp] theorem State.memsOk_settleArrival (hs : s.mems.ok) : (s.settleArrival j addr epoch).mems.ok := by
  simp only [State.settleArrival]; (repeat' split) <;> simp [hs]

@[simp] theorem State.memsOk_migrateInStart (id : Nat) (c : Cmd) (h : List Byte) (content : Capsule) (model : Nat) (hs : s.mems.ok) :
    (s.migrateInStart id c h content model).mems.ok := by
  simp only [State.migrateInStart]
  repeat' split
  any_goals (simp [hs]; done)
  next slot t ht => simp [(State.memsKept_arriving ..).of_pair ht, hs]

@[simp] theorem memsOk_opMigrateIn (hs : s.mems.ok) : (opMigrateIn s id c).mems.ok := by
  simp only [opMigrateIn]; (repeat' split) <;> simp [hs]

@[simp] theorem State.memsOk_migratedIn (hs : s.mems.ok) : (s.migratedIn j c).mems.ok := by simp [State.migratedIn, hs]
@[simp] theorem State.memsOk_migrateInEnd (hs : s.mems.ok) : (s.migrateInEnd n j).mems.ok := by
  simp only [State.migrateInEnd]; (repeat' split) <;> simp [hs]

@[simp] theorem memsOk_opReclaim (hs : s.mems.ok) : (opReclaim s id c slot).mems.ok := by
  simp only [opReclaim]; (repeat' split) <;> simp [hs]

@[simp] theorem State.memsOk_reclaimed (hs : s.mems.ok) : (s.reclaimed j addr epoch).mems.ok := by simp [State.reclaimed, hs]
@[simp] theorem State.memsOk_reclaimEnd (hs : s.mems.ok) : (s.reclaimEnd n j).mems.ok := by
  simp only [State.reclaimEnd]; (repeat' split) <;> simp [hs]

@[simp] theorem nextOk_execCapsuleImportDone (hs : s.mems.ok) : NextOk (execCapsuleImportDone s) := by
  simp only [execCapsuleImportDone, nextOk_next]; (repeat' split) <;> simp [hs]

@[simp] theorem State.memsOk_withdrawEnd (hs : s.mems.ok) : (s.withdrawEnd o r).mems.ok := by
  simp only [State.withdrawEnd]; (repeat' split) <;> simp [hs]

@[simp] theorem State.memsOk_offerEnd (create : Bool) (hs : s.mems.ok) : (s.offerEnd o r create).mems.ok := by
  simp only [State.offerEnd]; (repeat' split) <;> simp [hs]

@[simp] theorem State.memsOk_takeEnd (hs : s.mems.ok) : (s.takeEnd o r).mems.ok := by
  simp only [State.takeEnd]; (repeat' split) <;> simp [hs]

@[simp] theorem State.memsOk_casEnd (hs : s.mems.ok) : (s.casEnd o r).mems.ok := by
  simp only [State.casEnd]; (repeat' split) <;> simp [hs]

@[simp] theorem State.memsOk_casAnswer (found reread : Option Nat) (hs : s.mems.ok) :
    (s.casAnswer addr found reread).mems.ok := by
  unfold State.casAnswer
  split
  · exact hs
  · next o rest _ =>
    extract_lets r cas _ taken written ended
    have hwritten : written.mems.ok := by
      clear_value r
      simp only [written]
      split
      · exact State.memsOk_writeFabric addr _ (s := taken) (by simpa [taken] using hs)
      · simpa [taken] using hs
    have hended : ended.mems.ok := by simp [ended, hwritten]
    split <;> simp [hended]

@[simp] theorem nextOk_execLeaseCasResult (found reread : Option DWord) (hs : s.mems.ok) :
    NextOk (execLeaseCasResult addr found reread s) := by
  simp [execLeaseCasResult, hs]

end Sys2Proof.Machine
end

section
/-! ## What keeps the memories: embedding tables -/
namespace Sys2Proof.Machine
variable {s t : State} (row id key table : Nat) (c : Change) (held : Bool)

@[simp] theorem State.memsOk_writeRow (t : Nat) (vs : List Word) (hs : s.mems.ok) : (s.writeRow t row vs).mems.ok := by
  unfold State.writeRow
  extract_lets
  split
  · simp [hs]
  · exact hs.set_hbm (Memory.wf_writeN _ _ _ hs.hbm)

@[simp] theorem State.mems_homeDown : s.homeDown.mems = s.mems := by simp [State.homeDown]
@[simp] theorem State.mems_joinEmb : (s.joinEmb id).mems = s.mems := by simp [State.joinEmb]
@[simp] theorem memsOk_opEmbLookup (c : Cmd) (hs : s.mems.ok) : (opEmbLookup s id c).mems.ok := by
  simp only [opEmbLookup]; (repeat' split) <;> simp [hs]

@[simp] theorem memsOk_opEmbUpdate (c : Cmd) (hs : s.mems.ok) : (opEmbUpdate s id c).mems.ok := by
  simp only [opEmbUpdate]; (repeat' split) <;> simp [hs]

@[simp] theorem State.mems_setHot (i : Nat) (h : HotRow) : (s.setHot i h).mems = s.mems := by simp [State.setHot]
@[simp] theorem State.mems_offerRow (t count : Nat) : (s.offerRow t row count).2.mems = s.mems := by
  simp only [State.offerRow]; (repeat' split) <;> simp

@[simp] theorem State.mems_detect : s.detect.mems = s.mems := by simp [State.detect]

@[simp] theorem State.mems_autoCopies : s.autoCopies.mems = s.mems := by
  unfold State.autoCopies
  split
  · refine State.mems_foldl _ (fun t e => ?_) _
    repeat' split
    all_goals simp
  · rfl

@[simp] theorem State.mems_makeSwitches : s.makeSwitches.mems = s.mems := by
  refine State.mems_foldl _ (fun t e => ?_) _
  split <;> simp

@[simp] theorem mems_askSwitches (copies : Option Nat) (l : List (Nat × Nat)) (acc : List Nat) :
    (askSwitches copies l s acc).2.2.mems = s.mems := by
  induction l generalizing s acc with
  | nil => rfl
  | cons e l ih =>
    have eo : (s.offerRow e.1 e.2 0).2.mems = s.mems := by simp
    simp only [askSwitches]
    split
    · next t h => rwa [h] at eo
    · next i t h =>
      rw [h] at eo
      repeat' split
      all_goals simp [ih, eo]

@[simp] theorem memsOk_opEmbReplicate (id : Nat) (c : Cmd) (hs : s.mems.ok) : (opEmbReplicate s id c).mems.ok := by
  simp only [opEmbReplicate]
  repeat' split
  any_goals simp [hs]
  all_goals simp [State.mems_of_snd (congrArg Prod.snd ‹_ = (_, _, _)›) (mems_askSwitches ..), hs]

@[simp] theorem State.memsOk_replDone (hs : s.mems.ok) : s.replDone.mems.ok := by
  simp only [State.replDone]; (repeat' split) <;> simp [hs]

@[simp] theorem State.mems_setTaint : (s.setTaint key).mems = s.mems := by simp [State.setTaint]
@[simp] theorem State.mems_clearTaint : (s.clearTaint key).mems = s.mems := by simp [State.clearTaint]
@[simp] theorem State.mems_hotApplied (t : Nat) : (s.hotApplied t row held).mems = s.mems := by
  simp only [State.hotApplied]; (repeat' split) <;> simp

@[simp] theorem State.mems_hotDropped (t : Nat) : (s.hotDropped t row).mems = s.mems := by
  simp only [State.hotDropped]; (repeat' split) <;> simp

@[simp] theorem State.mems_hotHeld (t : Nat) : (s.hotHeld t row).mems = s.mems := by
  simp only [State.hotHeld]; (repeat' split) <;> simp

@[simp] theorem State.memsOk_applyChange (hs : s.mems.ok) : (s.applyChange c held).mems.ok := by
  simp only [State.applyChange]; (repeat' split) <;> simp [hs]

@[simp] theorem State.memsOk_failHeld (hs : s.mems.ok) : (s.failHeld c).mems.ok :=
  State.memsOk_foldl (fun t id ht => by simp [ht]) _ (by simp [hs])

@[simp] theorem State.memsOk_reportApplied (hs : s.mems.ok) : (s.reportApplied c).mems.ok := by
  unfold State.reportApplied
  extract_lets completed
  have hcompleted : completed.mems.ok := State.memsOk_foldl (fun t id ht => by simp [ht]) _ hs
  split <;> simp [hcompleted]

@[simp] theorem State.memsOk_applyInbox (hs : s.mems.ok) : (s.applyInbox c).mems.ok := by simp [State.applyInbox, hs]
@[simp] theorem State.memsOk_applyLate (hs : s.mems.ok) : (s.applyLate c).mems.ok := by simp [State.applyLate, hs]
@[simp] theorem State.memsOk_applyHeld (hs : s.mems.ok) : (s.applyHeld c).mems.ok := by simp [State.applyHeld, hs]

@[simp] theorem State.memsOk_applyEpochs (hs : s.mems.ok) : s.applyEpochs.mems.ok :=
  State.memsOk_foldl (fun _ _ ht => State.memsOk_foldl (fun u c hu => by simp [hu]) _ ht) _ (by simp [hs])

@[simp] theorem State.mems_enterEpoch : (s.enterEpoch c).mems = s.mems := by simp [State.enterEpoch]
@[simp] theorem nextOk_execDetEpochClose (epoch : Nat) (hs : s.mems.ok) : NextOk (execDetEpochClose table epoch s) := by
  simp [execDetEpochClose, hs]

@[simp] theorem State.mems_sendChange : (s.sendChange c).2.mems = s.mems := by
  simp only [State.sendChange]; (repeat' split) <;> simp

@[simp] theorem State.memsOk_failSent (ids : List Nat) (hs : s.mems.ok) : (s.failSent ids).mems.ok :=
  State.memsOk_foldl (fun t id ht => by simp [ht]) _ (by simp [hs])

@[simp] theorem State.memsOk_commitChange (hs : s.mems.ok) : (s.commitChange c).mems.ok := by simp [State.commitChange, hs]
@[simp] theorem State.memsOk_embTargetLost (device : Nat) (hs : s.mems.ok) : (s.embTargetLost device).mems.ok := by
  simp [State.embTargetLost, hs]

@[simp] theorem State.mems_fetchLocal (t : Nat) : (s.fetchLocal t row).2.mems = s.mems := by
  simp only [State.fetchLocal]; (repeat' split) <;> simp

@[simp] theorem State.mems_fetchRow (b : EmbBatch) (key : Nat) : (s.fetchRow b key).2.mems = s.mems := by
  simp only [State.fetchRow]
  repeat' split
  any_goals simp
  all_goals exact State.mems_of_snd ‹_ = (_, _)› (by simp)

@[simp] theorem State.mems_serveRequests : s.serveRequests.mems = s.mems := by simp [State.serveRequests]

@[simp] theorem State.mems_embClose : s.embClose.mems = s.mems := by
  simp only [State.embClose, State.mems_update]
  refine (State.mems_foldl_snd _ (fun x k => ?_) _ _).trans (by simp)
  simp

@[simp] theorem nextOk_execEmbBatchClose (hs : s.mems.ok) : NextOk (execEmbBatchClose s) := by simp [execEmbBatchClose, hs]

@[simp] theorem memsOk_writeVectors (inWin : Bool) (addr es b : Nat) (l : List (List Word)) (hs : s.mems.ok) :
    (writeVectors inWin addr es b l s).mems.ok := by
  induction l generalizing s b with
  | nil => exact hs
  | cons x l ih => simp [writeVectors, ih, hs]

@[simp] theorem State.mems_deliver (slot : Nat) (vecs : List (List Word)) (nr : Bool) :
    (s.deliver slot vecs nr).2.mems = s.mems := by
  simp only [State.deliver]; (repeat' split) <;> simp

@[simp] theorem State.memsOk_finishLookup (b : EmbBatch) (id : Nat) (c : Cmd) (hs : s.mems.ok) :
    (s.finishLookup b id c).mems.ok := by
  simp only [State.finishLookup]
  repeat' split
  any_goals simp [hs]
  all_goals simp [State.mems_of_snd ‹_ = (_, _)› (State.mems_deliver ..), hs]

@[simp] theorem State.memsOk_finishUpdate (hs : s.mems.ok) : (s.finishUpdate id).mems.ok := by simp [State.finishUpdate, hs]
@[simp] theorem State.mems_retireTables : s.retireTables.mems = s.mems := by simp [State.retireTables]
@[simp] theorem State.mems_retireTable (t : Nat) : (s.retireTable t).mems = s.mems := by simp [State.retireTable]
@[simp] theorem State.memsOk_embBoundary (hs : s.mems.ok) : s.embBoundary.mems.ok := by
  unfold State.embBoundary
  extract_lets inbox _ received applied late _ caught
  have hreceived : received.mems.ok := State.memsOk_foldl (fun t m ht => by simp [ht]) _ (by simp [hs])
  have happlied : applied.mems.ok := by simp [applied, hreceived]
  have hcaught : caught.mems.ok := State.memsOk_foldl (fun t c ht => by simp [ht]) _ (by simp [happlied])
  have hdetected : caught.detect.autoCopies.makeSwitches.mems.ok := by simp [hcaught]
  have hdone := State.memsOk_replDone hdetected
  simpa using hdone

@[simp] theorem State.memsOk_embCommit (b : EmbBatch) (hs : s.mems.ok) : (s.embCommit b).mems.ok := by
  unfold State.embCommit
  extract_lets cs ups changes looked counted _ closed committed bounded
  have hlooked : looked.mems.ok := State.memsOk_foldl (fun t e ht => by simp [ht]) _ hs
  have hcommitted : committed.mems.ok :=
    State.memsOk_foldl (fun t c ht => by simp [ht]) _ (by simp [closed, counted, hlooked])
  exact State.memsOk_foldl (fun t e ht => by simp [ht]) _ (by simp [bounded, hcommitted])

@[simp] theorem nextOk_execEmbBatchCommit (hs : s.mems.ok) : NextOk (execEmbBatchCommit s) := by
  simp only [execEmbBatchCommit, nextOk_next]; (repeat' split) <;> simp [hs]

@[simp] theorem State.mems_arrive (m : PeerMsg) : (s.arrive m c).mems = s.mems := by simp [State.arrive]

@[simp] theorem nextOk_execFp32Add (m : PeerMsg) (hs : s.mems.ok) : NextOk (execFp32Add m s) := by
  simp only [execFp32Add, nextOk_next]
  split
  · exact hs
  · next t h => simp [(State.memsKept_takeMsg ..).eq h, hs]

@[simp] theorem nextOk_execRowStore (m : PeerMsg) (hs : s.mems.ok) : NextOk (execRowStore m s) := by
  simp only [execRowStore, nextOk_next]
  split
  · exact hs
  · next t h => simp [(State.memsKept_takeMsg ..).eq h, hs]

@[simp] theorem nextOk_execRowReq (m : PeerMsg) (hs : s.mems.ok) : NextOk (execRowReq m s) := by
  simp only [execRowReq, nextOk_next]
  split
  · exact hs
  · next t h => simp [(State.memsKept_takeMsg ..).eq h, hs]

@[simp] theorem nextOk_execRowData (m : PeerMsg) (hs : s.mems.ok) : NextOk (execRowData m s) := by
  simp only [execRowData, nextOk_next]
  split
  · exact hs
  · next t h =>
    have e : t.mems = s.mems := (State.memsKept_takeMsg ..).eq h
    split <;> simp [e, hs]

@[simp] theorem nextOk_execApplied (m : PeerMsg) (hs : s.mems.ok) : NextOk (execApplied m s) := by
  simp only [execApplied, nextOk_next]
  split
  · exact hs
  · next t h =>
    have ht : t.mems.ok := ((State.memsKept_takeMsg ..).eq h).symm ▸ hs
    exact State.memsOk_foldl (fun u id hu => by simp [hu]) _ (by simp [ht])

@[simp] theorem nextOk_execEmbRowUe (stack : Nat) (primary : Bool) (hs : s.mems.ok) :
    NextOk (execEmbRowUe table row stack primary s) := by
  simp only [execEmbRowUe, nextOk_next]; (repeat' split) <;> simp [hs]

@[simp] theorem nextOk_execTblValidWrite (x : Bool) (hs : s.mems.ok) : NextOk (execTblValidWrite x s) := by
  simp [execTblValidWrite, hs]

@[simp] theorem nextOk_execEmbEnable (en : Bool) (hs : s.mems.ok) : NextOk (execEmbEnable en s) := by simp [execEmbEnable, hs]

end Sys2Proof.Machine
end

section
/-! ## What keeps the memories: search collections -/
namespace Sys2Proof.Machine
variable {s t : State} (k id : Nat) (c : Cmd) (b : SBatch) (d : Desc) (base : Map Nat)

@[simp] theorem State.mems_setColl (c : Coll) : (s.setColl k c).mems = s.mems := by simp [State.setColl]
@[simp] theorem State.mems_countWalk (w : Walk) : (s.countWalk w).mems = s.mems := by simp [State.countWalk]
@[simp] theorem memsOk_opMem (hs : s.mems.ok) : (opMem s id c).mems.ok := by simp only [opMem]; (repeat' split) <;> simp [hs]
@[simp] theorem memsOk_opMemInsert (hs : s.mems.ok) : (opMemInsert s id c).mems.ok := by simp [opMemInsert, hs]
@[simp] theorem memsOk_opMemDelete (hs : s.mems.ok) : (opMemDelete s id c).mems.ok := by simp [opMemDelete, hs]
@[simp] theorem memsOk_opMemSearch (hs : s.mems.ok) : (opMemSearch s id c).mems.ok := by simp [opMemSearch, hs]

@[simp] theorem State.mems_walkQueries (id : Nat) (d : Desc) (snap n : Nat) :
    (s.walkQueries id d snap n).1.mems = s.mems := by
  induction n with
  | zero => rfl
  | succ n ih => simp [State.walkQueries, ih]

@[simp] theorem State.mems_srchClose : s.srchClose.mems = s.mems := by
  simp only [State.srchClose, State.mems_update]
  refine (State.mems_foldl_fst _ (fun x e => ?_) _ _).trans (by simp)
  simp

@[simp] theorem nextOk_execSrchBatchClose (hs : s.mems.ok) : NextOk (execSrchBatchClose s) := by simp [execSrchBatchClose, hs]
@[simp] theorem State.mems_scanDone : (s.scanDone b).mems = s.mems := by simp [State.scanDone]
@[simp] theorem nextOk_execChannelScanDone (hs : s.mems.ok) : NextOk (execChannelScanDone s) := by
  simp only [execChannelScanDone, nextOk_next]; (repeat' split) <;> simp [hs]

@[simp] theorem State.memsOk_commitInsert (snap : Nat) (snapNodes : Map SNode) (hs : s.mems.ok) :
    (s.commitInsert id d snap base snapNodes).mems.ok := by
  simp only [State.commitInsert]; (repeat' split) <;> simp [hs]

@[simp] theorem State.mems_countGroups : (s.countGroups k base).mems = s.mems := by simp [State.countGroups]
@[simp] theorem State.memsOk_commitDelete (hs : s.mems.ok) : (s.commitDelete id d).mems.ok := by simp [State.commitDelete, hs]
@[simp] theorem State.memsOk_finishSearch (hs : s.mems.ok) : (s.finishSearch b id c).mems.ok := by simp [State.finishSearch, hs]
@[simp] theorem State.mems_retireColls : s.retireColls.mems = s.mems := by simp [State.retireColls]
@[simp] theorem State.mems_retireColl : (s.retireColl k).mems = s.mems := by simp [State.retireColl]
@[simp] theorem State.memsOk_srchCommit (hs : s.mems.ok) : (s.srchCommit b).mems.ok := by
  unfold State.srchCommit
  extract_lets cs old base nodes searched changed counted
  have hsearched : searched.mems.ok := State.memsOk_foldl (fun t e ht => by simp [ht]) _ hs
  have hchanged : changed.mems.ok :=
    State.memsOk_foldl (fun t e ht => by extract_lets; repeat' split
                                         all_goals simp [ht]) _ hsearched
  have hcounted : counted.mems.ok := State.memsOk_foldl (fun t k ht => by simp [ht]) _ hchanged
  simp [hcounted]

@[simp] theorem nextOk_execSrchBatchCommit (hs : s.mems.ok) : NextOk (execSrchBatchCommit s) := by
  simp only [execSrchBatchCommit, nextOk_next]; (repeat' split) <;> simp [hs]

@[simp] theorem memsOk_opMemCompact (hs : s.mems.ok) : (opMemCompact s id c).mems.ok := by
  simp only [opMemCompact]; (repeat' split) <;> simp [hs]

@[simp] theorem State.memsOk_compactSwitch (j : SCompact) (hs : s.mems.ok) : (s.compactSwitch j).mems.ok := by
  simp only [State.compactSwitch]; (repeat' split) <;> simp [hs]

@[simp] theorem nextOk_execMemCompactSwitch (hs : s.mems.ok) : NextOk (execMemCompactSwitch s) := by
  simp only [execMemCompactSwitch, nextOk_next]; (repeat' split) <;> simp [hs]

@[simp] theorem nextOk_execGroupFail (coll : Nat) (graph : Bool) (hs : s.mems.ok) : NextOk (execGroupFail coll graph s) := by
  simp [execGroupFail, hs]

@[simp] theorem nextOk_execCollValidWrite (x : Bool) (hs : s.mems.ok) : NextOk (execCollValidWrite x s) := by
  simp [execCollValidWrite, hs]

@[simp] theorem nextOk_execSrchEnable (en : Bool) (hs : s.mems.ok) : NextOk (execSrchEnable en s) := by simp [execSrchEnable, hs]

end Sys2Proof.Machine
end

section
/-! ## What keeps the memories: checkpoints -/
namespace Sys2Proof.Machine
variable {s t : State} (r : CkptRun) (n : Nat)

@[simp] theorem State.mems_dropHolds : s.dropHolds.mems = s.mems := by simp [State.dropHolds]
@[simp] theorem State.mems_thaw : s.thaw.mems = s.mems := by simp only [State.thaw]; (repeat' split) <;> simp
@[simp] theorem State.memsOk_ckptFail (st : Status) (detail : Nat) (hs : s.mems.ok) : (s.ckptFail st detail).mems.ok := by
  unfold State.ckptFail
  split
  · exact hs
  · next r _ =>
    have hdropped : ({ s with ckp := { s.ckp with run := none } } : State).mems.ok := hs.drop_cut
    dsimp only
    (repeat' split) <;> simp [hdropped]

@[simp] theorem State.memsOk_ckptStart (cmd : Option Nat) (asked : Bool) (hs : s.mems.ok) : (s.ckptStart cmd asked).mems.ok := by
  unfold State.ckptStart
  extract_lets full n nonce run large began _ froze started
  have hfroze : froze.mems.ok := by
    have hbegan : began.mems.ok := by simp [began, hs]
    exact hbegan.drop_cut
  have hstarted : started.mems.ok := by
    simp only [started]
    split <;> simp [hfroze]
  (repeat' split) <;> simp [hstarted]

@[simp] theorem memsOk_opCkptTake (id : Nat) (c : Cmd) (hs : s.mems.ok) : (opCkptTake s id c).mems.ok := by simp [opCkptTake, hs]
@[simp] theorem State.memsOk_ckptTrigger (hs : s.mems.ok) : s.ckptTrigger.mems.ok := by
  unfold State.ckptTrigger
  split <;> simp [hs]

@[simp] theorem nextOk_execCkptTimer (hs : s.mems.ok) : NextOk (execCkptTimer s) := by simp [execCkptTimer, hs]
@[simp] theorem nextOk_execCkptStepCount (hs : s.mems.ok) : NextOk (execCkptStepCount s) := by simp [execCkptStepCount, hs]
@[simp] theorem State.mems_cleanCache : s.cleanCache.mems = s.mems := by simp [State.cleanCache]
@[simp] theorem State.memsOk_takeCut (hs : s.mems.ok) : (s.takeCut r).mems.ok := by
  have hcleaned : s.cleanCache.mems.ok := by simp [hs]
  exact hcleaned.set_cut fun k hk => by cases hk; exact hcleaned.hbm

@[simp] theorem nextOk_execCkptCut (hs : s.mems.ok) : NextOk (execCkptCut s) := by
  simp only [execCkptCut, nextOk_next]; (repeat' split) <;> simp [hs]

@[simp] theorem State.memsOk_cutLoses (p : Session → Bool) (hs : s.mems.ok) : (s.cutLoses p).2.mems.ok := by
  unfold State.cutLoses
  split
  · exact hs
  · next r c h =>
    obtain ⟨_, hr, h⟩ := Option.bind_eq_some_iff.1 h
    obtain ⟨_, hc, e⟩ := Option.map_eq_some_iff.1 h
    cases e
    have hwf := hs.cut (Option.bind_eq_some_iff.2 ⟨_, hr, hc⟩)
    exact hs.set_cut fun k hk => by cases hk; exact hwf

@[simp] theorem State.memsOk_sourceUe (hs : s.mems.ok) : (s.sourceUe n).mems.ok := by simp [State.sourceUe, hs]
@[simp] theorem nextOk_execPageRecordUe (node : Bool) (hs : s.mems.ok) : NextOk (execPageRecordUe node n s) := by
  simp only [execPageRecordUe, nextOk_next]; (repeat' split) <;> simp [hs]

@[simp] theorem nextOk_execCkptFreezeEnd (hs : s.mems.ok) : NextOk (execCkptFreezeEnd s) := by
  simp only [execCkptFreezeEnd, nextOk_next]
  split
  · exact hs
  · next r hr =>
    have e : s.mems = { s.mems with cut := r.cut } := by simp [State.mems, hr]
    split
    · rw [e] at hs
      simp only [State.mems_thaw, State.mems_raiseReg, State.mems_setReg]
      exact hs
    · exact hs

theorem State.memsOk_keepImage {i : StoreImage} (hi : i.snap.hbm.wf = true) (hs : s.mems.ok) :
    ({ s with ckp := { s.ckp with run := none, store := s.ckp.store.set slot i, mapValid := true } } : State).mems.ok :=
  (hs.set_store hi).drop_cut

@[simp] theorem State.memsOk_ckptDone (c : Snapshot) (hc : c.hbm.wf = true) (hs : s.mems.ok) :
    (s.ckptDone r c).mems.ok := by
  unfold State.ckptDone
  split
  extract_lets slot bs _ wrote img _ kept sought seqs used counted ended
  have hwrote : wrote.mems.ok := by
    have hused : (s.useFree 16).mems.ok := by simp [hs]
    exact State.memsOk_setFabric (Memory.wf_writeN _ _ _ hs.fabric) hused
  have hkept : kept.mems.ok := State.memsOk_keepImage hc hwrote
  have hused : used.mems.ok := by simp [used, seqs, sought, hkept]
  split <;> simp [ended, counted, hused]

@[simp] theorem nextOk_execCkptManifestDone (hs : s.mems.ok) : NextOk (execCkptManifestDone s) := by
  simp only [execCkptManifestDone, nextOk_next]
  split
  · exact hs
  · next r hr =>
    split
    · exact hs
    · next c hc =>
      have hwf : c.hbm.wf = true := hs.cut (Option.bind_eq_some_iff.2 ⟨r, hr, hc⟩)
      split
      · exact State.memsOk_ckptDone r c hwf hs
      · exact hs

@[simp] theorem nextOk_execCkptAbort (writeFail : Bool) (hs : s.mems.ok) : NextOk (execCkptAbort writeFail s) := by
  simp only [execCkptAbort, nextOk_next]; (repeat' split) <;> simp [hs]

@[simp] theorem nextOk_execCkpEnable (en : Bool) (hs : s.mems.ok) : NextOk (execCkpEnable en s) := by simp [execCkpEnable, hs]
@[simp] theorem nextOk_execCkpInitDone (hs : s.mems.ok) : NextOk (execCkpInitDone s) := by simp [execCkpInitDone, hs]

end Sys2Proof.Machine
end

section
/-! ## What keeps the memories: restore -/
namespace Sys2Proof.Machine
variable {s t : State} (c : Snapshot) (slot : Nat) (words : List (Nat × DWord)) (r : RestoreRun)

@[simp] theorem State.mems_newAddresses : s.newAddresses.mems = s.mems := by simp [State.newAddresses]
@[simp] theorem State.mems_restoreRegs : (s.restoreRegs c).mems = s.mems := by simp [State.restoreRegs]

@[simp] theorem State.memsOk_restoreState (c : Snapshot) (f : Shift) (hc : c.hbm.wf = true) (hs : s.mems.ok) :
    (s.restoreState c f).mems.ok := by
  unfold State.restoreState
  extract_lets sess gaf pins dir index loaded index' numbered mover summed addressed running
  have hloaded : loaded.mems.ok := hs.set_hbm hc
  have relock (u : State) (e : Nat × Session) : ((u.lockEntry e.1).getD u).mems = u.mems :=
    (State.memsKept_lockEntry e.1).getD
  have e : (running.foldl (fun s e => (s.lockEntry e.1).getD s) addressed).mems = loaded.mems :=
    calc _ = addressed.mems := State.mems_foldl _ relock _
      _ = summed.mems := State.mems_newAddresses
      _ = numbered.mems := by simp only [summed, State.mems_update]
      _ = loaded.mems := by simp only [numbered, State.mems_update]
  exact e.symm ▸ hloaded

@[simp] theorem State.mems_restoreCmds (f : Shift) : (s.restoreCmds c f).mems = s.mems := by simp [State.restoreCmds]
@[simp] theorem State.mems_skipSession : (s.skipSession slot).mems = s.mems := by simp [State.skipSession]
@[simp] theorem State.mems_skipTenants : (s.skipTenants c).2.mems = s.mems := by simp [State.skipTenants]
@[simp] theorem State.memsOk_restoreLease (source : Nat) (hs : s.mems.ok) : (s.restoreLease source words slot).mems.ok := by
  unfold State.restoreLease
  split
  · exact hs
  · next x _ =>
    split
    · exact hs
    · extract_lets counted
      have hcounted : counted.mems.ok := by simp [counted, hs]
      split
      · simp [hcounted]
      · split
        · have hwritten := State.memsOk_writeFabric x.leaseAddr
            (leBytes (owned (nextEpoch x.leaseEpoch) counted.self) 8) hcounted
          simp only [State.mems_onSession]
          exact hwritten
        · simp [hcounted]

@[simp] theorem State.memsOk_restoreCommit (m : StoreImage) (hm : m.snap.hbm.wf = true) (hs : s.mems.ok) :
    (s.restoreCommit r m words).mems.ok := by
  unfold State.restoreCommit
  extract_lets c f regs loaded cmds
  split
  next n skipped hskip =>
    extract_lets leased lost _ closed counted
    have hloaded : loaded.mems.ok := State.memsOk_restoreState c f hm (by simp [regs, hs])
    have hskipped : skipped.mems.ok := by
      rw [State.mems_of_snd hskip (State.mems_skipTenants ..)]
      simp [cmds, hloaded]
    have hleased : leased.mems.ok := State.memsOk_foldl (fun t slot ht => by simp [ht]) _ hskipped
    have hlost : lost.mems.ok := State.memsOk_foldl (fun t slot ht => by simp [ht]) _ hleased
    have hclosed : closed.mems.ok := hlost
    have hcounted : counted.mems.ok := by simp [counted, hclosed]
    simp [hcounted]

@[simp] theorem State.memsOk_restoreFail (st : Status) (detail : Nat) (hs : s.mems.ok) : (s.restoreFail r st detail).mems.ok := by
  unfold State.restoreFail
  extract_lets _ _ dropped
  have hdropped : dropped.mems.ok := hs
  simp [hdropped]

@[simp] theorem memsOk_opCkptRestore (id : Nat) (c : Cmd) (hs : s.mems.ok) : (opCkptRestore s id c).mems.ok := by
  simp only [opCkptRestore]; (repeat' split) <;> simp [hs]

/-- An image that can be restored is one of the store. -/
theorem State.imageOf_mem {m : StoreImage} (h : s.imageOf slot = some m) : s.ckp.store.get? slot = some m := by
  simp only [State.imageOf] at h
  split at h
  · next m' hm => rw [hm, (Option.ite_none_right_eq_some.1 h).2]
  · cases h

@[simp] theorem nextOk_execRestoreDone (failed : Option Bool) (hs : s.mems.ok) :
    NextOk (execRestoreDone words failed s) := by
  simp only [execRestoreDone, nextOk_next]
  split
  · exact hs
  · next r _ =>
    split
    · simp [hs]
    · next m hm =>
      have hwf : m.snap.hbm.wf = true := hs.store (State.imageOf_mem _ hm)
      split <;> simp [hs, hwf]
    · simp [hs]

end Sys2Proof.Machine
end

section
/-! ## What keeps the memories: power and clocks -/
namespace Sys2Proof.Machine
variable {s t : State} (n ma w c mv d target domain : Nat) (pll : Bool)

@[simp] theorem State.mems_onPlat (f : Plat → Plat) : (s.onPlat f).mems = s.mems := rfl

@[simp] theorem State.mems_clockSwitch : (s.clockSwitch n pll).mems = s.mems := by simp [State.clockSwitch]
@[simp] theorem State.mems_askSwitch : (s.askSwitch n pll).mems = s.mems := by simp [State.askSwitch]
@[simp] theorem nextOk_execCoreSwToPll (hs : s.mems.ok) : NextOk (execCoreSwToPll s) := by simp [execCoreSwToPll, hs]
@[simp] theorem nextOk_execCoreSwToStart (hs : s.mems.ok) : NextOk (execCoreSwToStart s) := by simp [execCoreSwToStart, hs]
@[simp] theorem nextOk_execRefclkLost (hs : s.mems.ok) : NextOk (execRefclkLost s) := by simp [execRefclkLost, hs]
@[simp] theorem nextOk_execRefclkQualified (khz : Nat) (hs : s.mems.ok) : NextOk (execRefclkQualified khz s) := by
  simp [execRefclkQualified, hs]

@[simp] theorem nextOk_execPllLockFail (hs : s.mems.ok) : NextOk (execPllLockFail s) := by simp [execPllLockFail, hs]
@[simp] theorem nextOk_execPllUnlock (hs : s.mems.ok) : NextOk (execPllUnlock s) := by simp [execPllUnlock, hs]
@[simp] theorem nextOk_execAonClockGate (hs : s.mems.ok) : NextOk (execAonClockGate s) := by simp [execAonClockGate, hs]
@[simp] theorem State.mems_measured : (s.measured ma w c).mems = s.mems := by simp [State.measured]
@[simp] theorem State.mems_countLimited : s.countLimited.mems = s.mems := by simp [State.countLimited]
@[simp] theorem nextOk_execGovernorStepDown (hs : s.mems.ok) : NextOk (execGovernorStepDown ma w c s) := by
  simp [execGovernorStepDown, hs]

@[simp] theorem nextOk_execGovernorStepUp (hs : s.mems.ok) : NextOk (execGovernorStepUp ma w c s) := by
  simp [execGovernorStepUp, hs]

@[simp] theorem State.mems_stageFault : s.stageFault.mems = s.mems := by simp [State.stageFault]
@[simp] theorem nextOk_execPowerStageFault (hs : s.mems.ok) : NextOk (execPowerStageFault s) := by simp [execPowerStageFault, hs]
@[simp] theorem nextOk_execTabFault (hs : s.mems.ok) : NextOk (execTabFault s) := by simp [execTabFault, hs]
@[simp] theorem nextOk_execVinUvWarn (hs : s.mems.ok) : NextOk (execVinUvWarn mv s) := by simp [execVinUvWarn, hs]
@[simp] theorem nextOk_execVinOvWarn (hs : s.mems.ok) : NextOk (execVinOvWarn mv s) := by simp [execVinOvWarn, hs]
@[simp] theorem nextOk_execCalibrationDue (hs : s.mems.ok) : NextOk (execCalibrationDue s) := by simp [execCalibrationDue, hs]
@[simp] theorem State.mems_startTransition : (s.startTransition d target).mems = s.mems := by simp [State.startTransition]
@[simp] theorem State.mems_applyRequest : (s.applyRequest d target).mems = s.mems := by simp [State.applyRequest]
@[simp] theorem State.mems_domReq (value : Nat) : (s.domReq value).mems = s.mems := by
  simp only [State.domReq]; (repeat' split) <;> simp

@[simp] theorem nextOk_execDomReq (value : BitVec 2) (hs : s.mems.ok) : NextOk (execDomReq value s) := by simp [execDomReq, hs]
@[simp] theorem State.mems_resetPage (page idx : Nat) : (s.resetPage page idx).mems = s.mems := by
  simp [State.resetPage]

@[simp] theorem State.mems_portPowerOff : (s.portPowerOff n).mems = s.mems := by simp [State.portPowerOff]
@[simp] theorem State.mems_portTrain : (s.portTrain n).mems = s.mems := by simp [State.portTrain]
@[simp] theorem State.memsOk_leaveOn (hs : s.mems.ok) : (s.leaveOn d target).mems.ok := by simp [State.leaveOn, hs]
@[simp] theorem State.mems_domainOff : (s.domainOff d).mems = s.mems := by simp [State.domainOff]
@[simp] theorem State.mems_rebuildSlice : (s.rebuildSlice n).mems = s.mems := by
  simp only [State.rebuildSlice]; (repeat' split) <;> simp

@[simp] theorem State.memsOk_settleDomain (hs : s.mems.ok) : (s.settleDomain d target).mems.ok := by
  unfold State.settleDomain
  extract_lets old left off settled moved switched
  have hleft : left.mems.ok := by
    simp only [left]
    split <;> simp [hs]
  have hmoved : moved.mems.ok := by
    simp only [moved, settled, off, State.mems_onPlat, State.mems_setReg]
    split <;> simp [hleft]
  have hswitched : switched.mems.ok := by
    simp only [switched]
    split <;> simp [hmoved]
  (repeat' split) <;> simp [hmoved, hswitched]

@[simp] theorem State.mems_wakeCluster : (s.wakeCluster d target).mems = s.mems := by simp [State.wakeCluster]

@[simp] theorem nextOk_execDomainTransitionDone (domain : Nat) (hs : s.mems.ok) :
    NextOk (execDomainTransitionDone domain s) := by
  simp only [execDomainTransitionDone, nextOk_next]
  split
  · exact hs
  · split
    · split <;> simp [hs]
    · simp [hs]

@[simp] theorem nextOk_execAutoWake (hs : s.mems.ok) : NextOk (execAutoWake domain s) := by simp [execAutoWake, hs]
@[simp] theorem nextOk_execAutoIdleReturn (hs : s.mems.ok) : NextOk (execAutoIdleReturn domain s) := by
  simp [execAutoIdleReturn, hs]

@[simp] theorem State.mems_wakeAll : s.wakeAll.2.mems = s.mems := by simp [State.wakeAll]

end Sys2Proof.Machine
end

section
/-! ## What keeps the memories: tenants and keys -/
namespace Sys2Proof.Machine
variable {s t : State} (session : Option Nat) (payload : List Byte) (value : Word) (n id : Nat) (c : Cmd)
  (p : FinePass)

@[simp] theorem State.mems_onSec (f : Sec → Sec) : (s.onSec f).mems = s.mems := by simp [State.onSec]
@[simp] theorem State.mems_setTenant (t : Nat) (x : Tenant) : (s.setTenant t x).mems = s.mems := by simp [State.setTenant]
@[simp] theorem State.mems_send (m : OutMsg) : (s.send m).mems = s.mems := by simp [State.send]
@[simp] theorem State.mems_stage (k : StagedKey) : (s.stage k).mems = s.mems := by
  simp only [State.stage]; (repeat' split) <;> simp

@[simp] theorem State.mems_atIsland (f : State → State) (hf : (f s).mems = s.mems) : (s.atIsland f).mems = s.mems := by
  simp [State.atIsland, hf]

@[simp] theorem nextOk_execKeyDeliver (unwraps : Bool) (hs : s.mems.ok) :
    NextOk (execKeyDeliver session payload unwraps s) := by
  simp [execKeyDeliver, hs]

@[simp] theorem nextOk_execKeyinGo (hs : s.mems.ok) : NextOk (execKeyinGo value s) := by simp [execKeyinGo, hs]
@[simp] theorem nextOk_execKeyDiscard (hs : s.mems.ok) : NextOk (execKeyDiscard s) := by
  simp only [execKeyDiscard, nextOk_next]; (repeat' split) <;> simp [hs]

@[simp] theorem nextOk_execCkptBindGo (hs : s.mems.ok) : NextOk (execCkptBindGo value s) := by
  simp only [execCkptBindGo, nextOk_next]; (repeat' split) <;> simp [hs]

@[simp] theorem nextOk_execSetRevoke (hs : s.mems.ok) : NextOk (execSetRevoke s) := by
  simp only [execSetRevoke, nextOk_next]; (repeat' split) <;> simp [hs]

@[simp] theorem State.mems_setStream (x : IdeStream) : (s.setStream n x).mems = s.mems := by simp [State.setStream]
@[simp] theorem State.mems_streamGo (toggle : Bool) : (s.streamGo n toggle).mems = s.mems := by simp [State.streamGo]
@[simp] theorem State.mems_streamOver (session : Nat) : (s.streamOver n session).mems = s.mems := by simp [State.streamOver]
@[simp] theorem nextOk_execStreamStart (hs : s.mems.ok) : NextOk (execStreamStart s) := by simp [execStreamStart, hs]
@[simp] theorem State.mems_streamStop : (s.streamStop n).mems = s.mems := by simp [State.streamStop]
@[simp] theorem nextOk_execStreamStop (hs : s.mems.ok) : NextOk (execStreamStop s) := by simp [execStreamStop, hs]
@[simp] theorem nextOk_execStreamRekey (hs : s.mems.ok) : NextOk (execStreamRekey s) := by simp [execStreamRekey, hs]
@[simp] theorem nextOk_execStreamAutoRekey (hs : s.mems.ok) : NextOk (execStreamAutoRekey n s) := by
  simp [execStreamAutoRekey, hs]

@[simp] theorem State.mems_countSessions : s.countSessions.mems = s.mems := by simp [State.countSessions]
@[simp] theorem State.mems_setSpdm (m : Map SpdmSession) : (s.setSpdm m).mems = s.mems := by simp [State.setSpdm]
@[simp] theorem State.mems_spdm (r : SpdmReq) : (s.spdm r).mems = s.mems := by
  simp only [State.spdm]; (repeat' split) <;> simp

@[simp] theorem nextOk_execSpdmRequest (req : SpdmReq) (hs : s.mems.ok) : NextOk (execSpdmRequest req s) := by
  simp [execSpdmRequest, hs]

@[simp] theorem nextOk_execSpdmHeartbeatTimeout (session : Nat) (hs : s.mems.ok) :
    NextOk (execSpdmHeartbeatTimeout session s) := by
  simp only [execSpdmHeartbeatTimeout, nextOk_next]; (repeat' split) <;> simp [hs]

@[simp] theorem nextOk_execGetMeasurements (index : Nat) (hs : s.mems.ok) : NextOk (execGetMeasurements index s) := by
  simp [execGetMeasurements, hs]

@[simp] theorem State.mems_zeroise : s.zeroise.mems = s.mems := by simp [State.zeroise]
@[simp] theorem nextOk_execRngHealthFail (hs : s.mems.ok) : NextOk (execRngHealthFail s) := by simp [execRngHealthFail, hs]
@[simp] theorem nextOk_execKeyMemoryUe (hs : s.mems.ok) : NextOk (execKeyMemoryUe s) := by simp [execKeyMemoryUe, hs]
@[simp] theorem nextOk_execSecEnable (en : Bool) (hs : s.mems.ok) : NextOk (execSecEnable en s) := by simp [execSecEnable, hs]
@[simp] theorem nextOk_execSecInitDone (hs : s.mems.ok) : NextOk (execSecInitDone s) := by simp [execSecInitDone, hs]
@[simp] theorem State.mems_clearTenant (t : Nat) : (s.clearTenant t).mems = s.mems := by simp [State.clearTenant]
@[simp] theorem State.mems_closeRing : (s.closeRing n).mems = s.mems := by
  simp only [State.closeRing]; (repeat' split) <;> simp

@[simp] theorem State.memsOk_endQueued (rings : List Nat) (hs : s.mems.ok) : (s.endQueued rings).mems.ok :=
  State.memsOk_foldl (fun t id ht => by simp [ht]) _ (by simp [hs])

@[simp] theorem State.memsOk_closeSessions (t : Nat) (hs : s.mems.ok) : (s.closeSessions t).mems.ok :=
  State.memsOk_foldl (fun u e hu => by simp [hu]) _ hs

@[simp] theorem State.mems_releaseObjects (t : Nat) : (s.releaseObjects t).mems = s.mems := by simp [State.releaseObjects]
@[simp] theorem State.memsOk_prepStep (t : Nat) (hs : s.mems.ok) : (s.prepStep t).mems.ok := by simp [State.prepStep, hs]
@[simp] theorem State.mems_noteAll (t : Nat) : (s.noteAll t).mems = s.mems := by simp [State.noteAll]
@[simp] theorem State.mems_openWindow : s.openWindow.mems = s.mems := by simp [State.openWindow]
@[simp] theorem State.mems_onPass (f : FinePass → FinePass) : (s.onPass f).mems = s.mems := by simp [State.onPass]
@[simp] theorem State.mems_passProgress : (s.passProgress p).mems = s.mems := by simp [State.passProgress]
@[simp] theorem State.mems_destroyKeys : (s.destroyKeys p).mems = s.mems := by simp [State.destroyKeys]
@[simp] theorem nextOk_execScrubUnitVisit (hs : s.mems.ok) : NextOk (execScrubUnitVisit s) := by
  simp only [execScrubUnitVisit, nextOk_next]; (repeat' split) <;> simp [hs]

@[simp] theorem nextOk_execFiningSramZero (hs : s.mems.ok) : NextOk (execFiningSramZero s) := by simp [execFiningSramZero, hs]
@[simp] theorem State.mems_returnDomain (d : Nat) : (s.returnDomain d).mems = s.mems := by simp [State.returnDomain]
@[simp] theorem nextOk_execFiningPassEnd (hs : s.mems.ok) : NextOk (execFiningPassEnd s) := by
  simp only [execFiningPassEnd, nextOk_next]; (repeat' split) <;> simp [hs]

end Sys2Proof.Machine
end

section
/-! ## What keeps the memories: boot -/
namespace Sys2Proof.Machine
variable {s t : State} (function : BitVec 4) (b : StoreBank)

@[simp] theorem nextOk_execFlr (hs : s.mems.ok) : NextOk (execFlr function s) := by simp [execFlr, hs]
@[simp] theorem State.mems_storeRecord (fails : Bool) : (s.storeRecord b fails).mems = s.mems := by simp [State.storeRecord]
@[simp] theorem State.mems_failSegment (n : Nat) : (s.failSegment n).mems = s.mems := by simp [State.failSegment]
@[simp] theorem State.mems_lastRegs : (s.lastRegs b).mems = s.mems := by simp [State.lastRegs]
@[simp] theorem State.mems_boot (b : BootInput) : (s.boot b).mems = s.mems := by simp [State.boot]
@[simp] theorem nextOk_execBoot (b : BootInput) (hs : s.mems.ok) : NextOk (execBoot b s) := by simp [execBoot, hs]
@[simp] theorem nextOk_execEntdaa (addr : BitVec 7) (hs : s.mems.ok) : NextOk (execEntdaa addr s) := by simp [execEntdaa, hs]
@[simp] theorem nextOk_execMctpControlMessage (hs : s.mems.ok) : NextOk (execMctpControlMessage s) := by
  simp [execMctpControlMessage, hs]

@[simp] theorem nextOk_execConfigRequest (hs : s.mems.ok) : NextOk (execConfigRequest function s) := by
  simp [execConfigRequest, hs]

end Sys2Proof.Machine
end

section
/-! ## What keeps the memories: reclaim -/
namespace Sys2Proof.Machine
variable {s t : State} 

@[simp] theorem State.mems_letGo (n slot : Nat) : (s.letGo n slot).mems = s.mems := by simp [State.letGo]
@[simp] theorem State.mems_reclaimFirst : s.reclaimFirst.mems = s.mems := by
  simp only [State.reclaimFirst]; (repeat' split) <;> simp

@[simp] theorem nextOk_execPageFree (hs : s.mems.ok) : NextOk (execPageFree s) := by simp [execPageFree, hs]

end Sys2Proof.Machine
end

section
/-! ## What keeps the memories: time-outs and failed transfers -/
namespace Sys2Proof.Machine
variable {s t : State} (en : Bool) (n : BitVec 3) (cmd device : Nat)

@[simp] theorem nextOk_execFamEnable (hs : s.mems.ok) : NextOk (execFamEnable en s) := by simp [execFamEnable, hs]
@[simp] theorem nextOk_execFabEnable (hs : s.mems.ok) : NextOk (execFabEnable n en s) := by simp [execFabEnable, hs]
@[simp] theorem State.memsOk_sourceFail (id : Nat) (hs : s.mems.ok) : (s.sourceFail id).mems.ok := by
  simp only [State.sourceFail]; (repeat' split) <;> simp [hs]

@[simp] theorem State.memsOk_spoilPayload (d : Desc) (hs : s.mems.ok) : (s.spoilPayload d).mems.ok := by
  simp [State.spoilPayload, hs]

@[simp] theorem nextOk_execPayloadWriteFail (hs : s.mems.ok) : NextOk (execPayloadWriteFail cmd s) := by
  simp only [execPayloadWriteFail, nextOk_next]; (repeat' split) <;> simp [hs]

@[simp] theorem nextOk_execCommandWatchdog (hs : s.mems.ok) : NextOk (execCommandWatchdog cmd s) := by
  simp only [execCommandWatchdog, nextOk_next]; (repeat' split) <;> simp [hs]

@[simp] theorem State.memsOk_failReq (n : Nat) (r : Req) (hs : s.mems.ok) : (s.failReq n r).mems.ok := by
  simp only [State.failReq]; (repeat' split) <;> simp [hs]

@[simp] theorem nextOk_execFabricCompletion (req : Nat) (result : FabResult) (hs : s.mems.ok) :
    NextOk (execFabricCompletion req result s) := by
  simp only [execFabricCompletion, nextOk_next]; (repeat' split) <;> simp [hs]

@[simp] theorem nextOk_execIdeIntegrityFail (stream : Nat) (hs : s.mems.ok) : NextOk (execIdeIntegrityFail stream n s) := by
  simp only [execIdeIntegrityFail, nextOk_next]
  split
  · exact State.memsOk_foldl (fun t e ht => by simp [ht]) _ (by simp [hs])
  · exact hs

@[simp] theorem State.memsOk_markLost (hs : s.mems.ok) : (s.markLost device).mems.ok :=
  State.memsOk_foldl (fun t e ht => by simp [ht]) _ hs

@[simp] theorem State.memsOk_endPoolMoves (hs : s.mems.ok) : (s.endPoolMoves device).mems.ok := by
  unfold State.endPoolMoves
  split
  · exact hs
  · exact State.memsOk_foldl (fun t e ht => by split <;> simp [ht]) _ hs

@[simp] theorem State.mems_clearPool : (s.clearPool device).mems = s.mems := by simp [State.clearPool]

@[simp] theorem State.memsOk_failLeases (device : Nat) (hs : s.mems.ok) : (s.failLeases device).mems.ok := by
  unfold State.failLeases
  extract_lets words answered waits failed
  have hanswered : answered.mems.ok :=
    State.memsOk_foldl (fun t a ht => State.memsOk_foldl (fun u _ hu => by simp [hu]) _ ht) _ hs
  have hfailed : failed.mems.ok := State.memsOk_foldl (fun t e ht => by simp [ht]) _ hanswered
  exact State.memsOk_foldl (fun t e ht => by simp [ht]) _ hfailed

@[simp] theorem State.memsOk_failStore (hs : s.mems.ok) : (s.failStore device).mems.ok := by
  simp only [State.failStore]; (repeat' split) <;> simp [hs]

@[simp] theorem State.memsOk_markDead (hs : s.mems.ok) : (s.markDead device).mems.ok := by
  unfold State.markDead
  extract_lets l _ dropped noted counted lost leases
  have hlost : lost.mems.ok := by
    have hcounted : (counted.embTargetLost device).mems.ok := by simp [counted, noted, dropped, hs]
    simp [lost, hcounted]
  have hleases : leases.mems.ok := by
    have hmarked : (lost.markLost device).mems.ok := by simp [hlost]
    simp [leases, hmarked]
  have hread : ((leases.readersFrom device).foldl State.sourceFail leases).mems.ok :=
    State.memsOk_foldl (fun t n ht => by simp [ht]) _ hleases
  simp [hread]

@[simp] theorem nextOk_execFabricTimeout (hs : s.mems.ok) : NextOk (execFabricTimeout device s) := by simp [execFabricTimeout, hs]
@[simp] theorem nextOk_execDeadWalkDone (hs : s.mems.ok) : NextOk (execDeadWalkDone device s) := by simp [execDeadWalkDone, hs]

end Sys2Proof.Machine
end

section
/-! ## What keeps the memories: tiles and cores -/
namespace Sys2Proof.Machine
variable {s t : State} (n : Nat) (ran : TileRan) (work : TileWork) (next : Option NextTile) (core : BitVec 7)

@[simp] theorem State.mems_startTag : (s.startTag n).2.mems = s.mems := by simp [State.startTag]
@[simp] theorem State.mems_startTile (t : NextTile) : (s.startTile n t).mems = s.mems := by simp [State.startTile]
@[simp] theorem State.mems_showHeld : s.showHeld.mems = s.mems := by simp [State.showHeld]
@[simp] theorem State.mems_urgentCap : s.urgentCap.mems = s.mems := by simp [State.urgentCap]
@[simp] theorem nextOk_execUrgentWindowEnd (hs : s.mems.ok) : NextOk (execUrgentWindowEnd s) := by simp [execUrgentWindowEnd, hs]
@[simp] theorem State.mems_preempt : (s.preempt n).mems = s.mems := by simp only [State.preempt]; (repeat' split) <;> simp
@[simp] theorem State.memsOk_takeTile (t : NextTile) (hs : s.mems.ok) : (s.takeTile n t).mems.ok := by simp [State.takeTile, hs]
@[simp] theorem State.mems_countStarved : (s.countStarved n ran).mems = s.mems := by simp [State.countStarved]
@[simp] theorem State.mems_openAcct (tag : Option (List Byte)) : (s.openAcct n ran tag).mems = s.mems := by
  simp [State.openAcct]

@[simp] theorem State.mems_countTile (out : TileOut) : (s.countTile n out ran).mems = s.mems := by simp [State.countTile]
@[simp] theorem State.mems_countUrgent : (s.countUrgent ran).mems = s.mems := by simp [State.countUrgent]
@[simp] theorem State.mems_clearTile (words : List Nat) : (s.clearTile n words).mems = s.mems := by
  simp only [State.clearTile]; (repeat' split) <;> simp

@[simp] theorem State.memsOk_tileEnd (hs : s.mems.ok) : (s.tileEnd n work ran next).mems.ok := by
  simp only [State.tileEnd]; (repeat' split) <;> simp [hs]

@[simp] theorem nextOk_execTileEnd (hs : s.mems.ok) : NextOk (execTileEnd core work ran next s) := by simp [execTileEnd, hs]
@[simp] theorem State.mems_fillHalf (k : Nat) (half : Bool) (slab bytes : Nat) :
    (s.fillHalf k half slab bytes).mems = s.mems := by
  simp [State.fillHalf]

@[simp] theorem State.mems_wakeCore : (s.wakeCore n).mems = s.mems := by
  simp only [State.wakeCore]; (repeat' split) <;> simp

@[simp] theorem nextOk_execWindowHalfFilled (filled : WindowSlab) (bytes stalls : Nat) (hs : s.mems.ok) :
    NextOk (execWindowHalfFilled filled bytes stalls s) := by
  simp only [execWindowHalfFilled, nextOk_next]
  simp [hs]

@[simp] theorem State.mems_failCore (code : Nat) : (s.failCore n code).mems = s.mems := by simp [State.failCore]
@[simp] theorem nextOk_execCoreSramUe (hs : s.mems.ok) : NextOk (execCoreSramUe core s) := by simp [execCoreSramUe, hs]
@[simp] theorem nextOk_execClusterSramUe (cluster : BitVec 3) (hs : s.mems.ok) : NextOk (execClusterSramUe cluster s) := by
  simp only [execClusterSramUe, nextOk_next]
  split
  · exact hs
  · have hfailed := State.memsOk_foldl (f := fun s n => if s.failed (pgCru + n) then s else s.failCore n 0x0003)
      (fun t n ht => by split <;> simp [ht]) (clusterCores cluster.toNat) hs
    simp [hfailed]

end Sys2Proof.Machine
end

section
/-! ## What keeps the memories: telemetry -/
namespace Sys2Proof.Machine
variable {s t : State} (counts : List (Nat × Nat × Nat))

@[simp] theorem State.mems_onTel (f : Tel → Tel) : (s.onTel f).mems = s.mems := by simp [State.onTel]
@[simp] theorem State.mems_dropDump : s.dropDump.mems = s.mems := by simp [State.dropDump]
@[simp] theorem State.mems_takeSnapshot (t us w : Nat) : (s.takeSnapshot t us w).mems = s.mems := by
  simp [State.takeSnapshot]

@[simp] theorem State.mems_portWindow (n : Nat) (c : Nat × Nat × Nat) : (s.portWindow n c).mems = s.mems := by
  simp [State.portWindow]

@[simp] theorem State.mems_bwEnd : (s.bwEnd counts).mems = s.mems := by simp [State.bwEnd]
@[simp] theorem nextOk_execBwWindowEnd (hs : s.mems.ok) : NextOk (execBwWindowEnd counts s) := by simp [execBwWindowEnd, hs]
@[simp] theorem nextOk_execDumpWriteDone (hs : s.mems.ok) : NextOk (execDumpWriteDone s) := by
  simp only [execDumpWriteDone, nextOk_next]; (repeat' split) <;> simp [hs]

@[simp] theorem nextOk_execTagWriteDone (hs : s.mems.ok) : NextOk (execTagWriteDone s) := by
  simp only [execTagWriteDone, nextOk_next]; (repeat' split) <;> simp [hs]

@[simp] theorem nextOk_execTelRingWriteFail (tag : Bool) (hs : s.mems.ok) : NextOk (execTelRingWriteFail tag s) := by
  simp only [execTelRingWriteFail, nextOk_next]; (repeat' split) <;> simp [hs]

@[simp] theorem State.mems_clearReg (r : Reg) : (s.clearReg r).mems = s.mems := by simp [State.clearReg]
@[simp] theorem State.mems_telOpen (which : Nat) : (s.telOpen which).mems = s.mems := by simp [State.telOpen]
@[simp] theorem nextOk_execTelEnable (which : BitVec 2) (en : Bool) (hs : s.mems.ok) :
    NextOk (execTelEnable which en s) := by
  simp [execTelEnable, hs]

@[simp] theorem nextOk_execTelRead (payload : List Byte) (hs : s.mems.ok) : NextOk (execTelRead payload s) := by
  simp [execTelRead, hs]

end Sys2Proof.Machine
end

section
/-! ## What keeps the memories: register accesses -/
namespace Sys2Proof.Machine
variable {s t : State} (off p n : Nat) (value : DWord) (wide en : Bool) (page : BitVec 10) (bits : Word)

@[simp] theorem State.mems_badAccess : (s.badAccess off).mems = s.mems := by simp [State.badAccess]
@[simp] theorem nextOk_execBadRegisterAccess (access : RegAccess) (hs : s.mems.ok) :
    NextOk (execBadRegisterAccess access s) := by
  simp [execBadRegisterAccess, hs]

@[simp] theorem State.mems_putField (e : Reg × Nat × Nat) : (s.putField p e).mems = s.mems := by
  simp only [State.putField]; (repeat' split) <;> simp

@[simp] theorem State.mems_settleBuckets (t : State) (q : Nat) (a : AdmQueue) (policed : Bool) :
    (State.settleBuckets t q a policed).mems = t.mems := by
  simp [State.settleBuckets]

/-- The clock follows in the state after a write with the platform of the state before it. -/
@[simp] theorem State.mems_pllFollow (t s : State) : (t.pllFollow s).mems = t.mems := by simp [State.pllFollow]

theorem State.mems_afterWrite (t s : State) (l : List (Reg × Nat × Nat)) (h : t.mems = s.mems) :
    (t.afterWrite s p l).mems = s.mems := by
  simp [State.afterWrite, State.mems_pllFollow, h]

@[simp] theorem State.mems_writeFields (written : List (Reg × Nat × Nat)) : (s.writeFields p written).mems = s.mems := by
  simp [State.writeFields, State.mems_afterWrite]

@[simp] theorem State.mems_ringSetup (f : Ring → Ring) : (s.ringSetup n f).mems = s.mems := by simp [State.ringSetup]
@[simp] theorem State.mems_setCoalesce (count time : Nat) : (s.setCoalesce n count time).mems = s.mems := by
  simp [State.setCoalesce]

@[simp] theorem State.mems_ringWord (x : Nat) : (s.ringWord n off x).mems = s.mems := by simp [State.ringWord]
@[simp] theorem State.mems_ringWrite : (s.ringWrite n off value wide).mems = s.mems := by
  simp only [State.ringWrite]; (repeat' split) <;> simp

@[simp] theorem State.mems_registerWrite : (s.registerWrite off value wide).mems = s.mems := by
  simp only [State.registerWrite]; (repeat' split) <;> simp

@[simp] theorem nextOk_execRegisterWrite (off : BitVec 26) (hs : s.mems.ok) :
    NextOk (execRegisterWrite off value wide s) := by
  simp [execRegisterWrite, hs]

@[simp] theorem State.mems_blockEnable : (s.blockEnable p en).mems = s.mems := by simp [State.blockEnable]
@[simp] theorem nextOk_execBlockEnable (hs : s.mems.ok) : NextOk (execBlockEnable page en s) := by simp [execBlockEnable, hs]
@[simp] theorem State.mems_softRst : (s.softRst p).mems = s.mems := by simp [State.softRst]
@[simp] theorem nextOk_execSoftRst (hs : s.mems.ok) : NextOk (execSoftRst page s) := by simp [execSoftRst, hs]
@[simp] theorem State.mems_commitPage : (s.commitPage p).mems = s.mems := by simp [State.commitPage]
@[simp] theorem nextOk_execCommit (hs : s.mems.ok) : NextOk (execCommit page s) := by simp [execCommit, hs]
@[simp] theorem nextOk_execShadowApply (hs : s.mems.ok) : NextOk (execShadowApply page s) := by simp [execShadowApply, hs]
@[simp] theorem State.mems_clearedWith : (s.clearedWith p bits).mems = s.mems := by simp [State.clearedWith]
@[simp] theorem State.mems_intClear : (s.intClear p bits).mems = s.mems := by simp [State.intClear]
@[simp] theorem State.mems_ringIntClear : (s.ringIntClear n bits).mems = s.mems := by simp [State.ringIntClear]
@[simp] theorem nextOk_execIntStatusClear (hs : s.mems.ok) : NextOk (execIntStatusClear page bits s) := by
  simp only [execIntStatusClear, nextOk_next]; (repeat' split) <;> simp [hs]

@[simp] theorem nextOk_execIntSet (hs : s.mems.ok) : NextOk (execIntSet page bits s) := by
  simp only [execIntSet, nextOk_next]; (repeat' split) <;> simp [hs]

@[simp] theorem State.mems_intEnable : (s.intEnable p bits).mems = s.mems := by simp [State.intEnable]
@[simp] theorem State.mems_ringIntEnable : (s.ringIntEnable n bits).mems = s.mems := by simp [State.ringIntEnable]
@[simp] theorem nextOk_execIntEnableWrite (hs : s.mems.ok) : NextOk (execIntEnableWrite page bits s) := by
  simp only [execIntEnableWrite, nextOk_next]; (repeat' split) <;> simp [hs]

end Sys2Proof.Machine
end



section
/-! # The memories through every step -/
namespace Sys2Proof.Machine
variable {s t : State}

/-! ## The operations on tenants -/

@[simp] theorem memsOk_opTenantOpen (id : Nat) (c : Cmd) (hs : s.mems.ok) : (opTenantOpen s id c).mems.ok := by
  simp only [opTenantOpen]
  repeat' split
  all_goals simp [hs]

@[simp] theorem memsOk_opTenantClose (id : Nat) (c : Cmd) (hs : s.mems.ok) : (opTenantClose s id c).mems.ok := by
  simp only [opTenantClose]
  split
  · simp [hs]
  · simp [hs]
  · simp [hs]
  · refine State.memsOk_prepStep _ (State.memsOk_endQueued _ ?_)
    simp only [State.mems_foldl _ (fun _ _ => State.mems_closeRing ..)]
    split <;> simpa using hs

/-! ## The attempt of a command -/

@[simp] theorem State.mems_waitFor (id aux : Nat) : (s.waitFor id aux).mems = s.mems := by simp [State.waitFor]

@[simp] theorem State.memsKept_awaitVersion (id : Nat) (c : Cmd) (slot : Nat) (x : Session) :
    MemsKept s (s.awaitVersion id c slot x) := by
  unfold State.awaitVersion
  repeat' split
  all_goals simp

@[simp] theorem State.mems_dropSource (id : Nat) : (s.dropSource id).mems = s.mems := by
  simp only [State.dropSource]; (repeat' split) <;> simp

@[simp] theorem State.mems_settled (id : Nat) (c : Cmd) : (t.settled s id c).mems = t.mems := by simp [State.settled]

@[simp] theorem State.mems_withSource (id : Nat) (content : Capsule) (word : Option DWord) :
    (s.withSource id content word).mems = s.mems := by
  simp only [State.withSource]; (repeat' split) <;> simp

@[simp] theorem State.memsOk_sourceUnread (id : Nat) (hs : s.mems.ok) : (s.sourceUnread id).mems.ok := by
  simp only [State.sourceUnread]; (repeat' split) <;> simp [hs]

@[simp] theorem nextOk_execSourceReadFail (cmd : Nat) (hs : s.mems.ok) : NextOk (execSourceReadFail cmd s) := by
  simp [execSourceReadFail, hs]

/-- An effect keeps the memories of every state in canonical form. -/
def KeepsMems (eff : Effect) : Prop := ∀ (u : State) (id : Nat) (c : Cmd) (slot : Nat), u.mems.ok → (eff u id c slot).mems.ok

section
variable {eff : Effect} (heff : KeepsMems eff) (id : Nat) (c : Cmd) (slot : Nat) (leased : Bool) (x : Session)
include heff

theorem State.memsOk_deadSource (hs : s.mems.ok) : (s.deadSource id c slot eff).mems.ok := by
  unfold State.deadSource
  split
  · simp [hs]
  · simp [heff s id c slot hs]

theorem State.memsOk_attemptPlain (hs : s.mems.ok) : (s.attemptPlain id c leased slot eff).mems.ok := by
  unfold State.attemptPlain
  extract_lets ranges
  repeat' split
  any_goals solve | simp [hs]
  · exact State.memsOk_deadSource heff id c slot hs
  · exact heff s id c slot hs

theorem State.memsOk_attemptState (hs : s.mems.ok) : (s.attemptState id c slot x eff).mems.ok := by
  unfold State.attemptState
  extract_lets d turned
  have hturned : turned.mems.ok := by simp [turned, hs]
  clear_value turned
  repeat' split
  any_goals solve | simp [hturned]
  · next h => exact (State.memsKept_awaitVersion ..).eq h ▸ hturned
  · exact State.memsOk_attemptPlain heff id c slot x.leased (by simpa using hturned)
  · exact State.memsOk_attemptPlain heff id c slot x.leased hturned

theorem State.memsOk_attemptSession (hs : s.mems.ok) : (s.attemptSession id c eff).mems.ok := by
  unfold State.attemptSession
  extract_lets slot named resolved
  have hnamed : named.mems.ok := by simp [named, hs]
  clear_value named
  repeat' split
  any_goals solve | simp [hs]
  any_goals solve | simp [hnamed]
  · exact heff named id resolved slot hnamed
  · exact State.memsOk_attemptPlain heff id resolved slot _ hnamed
  · exact State.memsOk_attemptState heff id resolved slot _ hnamed

theorem State.memsOk_attempt (hs : s.mems.ok) : (s.attempt id c eff).mems.ok := by
  unfold State.attempt
  split
  · simp [hs]
  · split
    · exact State.memsOk_attemptPlain heff id c 0 false hs
    · exact State.memsOk_attemptSession heff id c hs

theorem State.memsOk_commandRow (op : Nat) (hs : s.mems.ok) : (s.commandRow id op eff).mems.ok := by
  unfold State.commandRow
  split
  · exact hs
  · split
    · simpa using State.memsOk_attempt heff id _ hs
    · exact hs

end

/-- Every opcode keeps the memories in canonical form. -/
theorem keepsMems_effectOf (op : Nat) : KeepsMems (effectOf op) := by
  intro u id c slot hu
  unfold effectOf
  split
  all_goals
    simp [effNop, effFence, effSessCreate, effSessClose, effSessFork, effSessQuery, effAppendText,
    effAppendTokens, effStep, effToolWait, effResume, effPark, effExportCapsule, effImportCapsule, effMigrateOut,
    effMigrateIn, effReclaim, effEmbLookup, effEmbUpdate, effEmbReplicate, effMemInsert, effMemDelete, effMemSearch,
    effMemCompact, effModelLoad, effModelUnload, effConstraintLoad, effVocabLoad, effCkptTake, effCkptRestore,
    effTenantOpen, effTenantClose, hu]

theorem memsOk_attemptWaiting (l : List Nat) (hs : s.mems.ok) : (attemptWaiting l s).mems.ok := by
  induction l generalizing s with
  | nil => exact hs
  | cons id l ih =>
    have tried (c : Cmd) : ((s.attempt id c (effectOf c.desc.opcode)).settled s id c).mems.ok := by
      simpa using State.memsOk_attempt (keepsMems_effectOf _) id c hs
    simp only [attemptWaiting]
    repeat' split
    · exact ih hs
    · exact ih (tried _)
    · exact tried _
    · exact ih hs

/-- The row of an opcode. -/
theorem nextOk_row (op id : Nat) (hs : s.mems.ok) : NextOk (.next (s.commandRow id op (effectOf op))) :=
  nextOk_next.2 (State.memsOk_commandRow (keepsMems_effectOf op) id op hs)

/-! ## The rows of tenants and of the life cycle -/

@[simp] theorem nextOk_execTenBindGo (value : Word) (hs : s.mems.ok) : NextOk (execTenBindGo value s) := by
  simp only [execTenBindGo, nextOk_next]
  repeat' split
  all_goals simp [hs]

@[simp] theorem nextOk_execLifecycleAdvance (session : Option Nat) (mctp : Bool) (p : List Byte) (y : Crypto) (hs : s.mems.ok) :
    NextOk (execLifecycleAdvance session mctp p y s) := by
  simp only [execLifecycleAdvance, State.atIsland, nextOk_next]
  repeat' split
  all_goals simp [hs]

@[simp] theorem State.mems_startPass (n : Nat) (p : ClosePrep) : (s.startPass n p).mems = s.mems := by
  simp [State.startPass]

@[simp] theorem nextOk_execFiningPrepDone (n : Nat) (hs : s.mems.ok) : NextOk (execFiningPrepDone n s) := by
  simp only [execFiningPrepDone, nextOk_next]
  repeat' split
  all_goals simp [hs]

@[simp] theorem nextOk_execQuietWindowClose (hs : s.mems.ok) : NextOk (execQuietWindowClose s) := by
  simp only [execQuietWindowClose, nextOk_next]
  repeat' split
  all_goals simp [hs]

/-! ## Power, resets and SHUTDOWN -/

theorem Memory.wf_empty : Memory.wf ⟨[]⟩ = true := rfl

/-- After a reset of the memories the window, the HBM and the cut are gone; host memory, fabric memory and the store of
checkpoints stay. -/
theorem Mems.ok.cleared {m : Mems} (hm : m.ok) : ({ m with window := ⟨[]⟩, hbm := ⟨[]⟩, cut := none } : Mems).ok :=
  ((hm.set_window Memory.wf_empty).set_hbm Memory.wf_empty).drop_cut

@[simp] theorem State.memsOk_fresh (p : Plat) (hs : s.mems.ok) : (s.fresh p).mems.ok := hs.cleared

@[simp] theorem State.memsOk_powerOn (mv : Nat) (hs : s.mems.ok) : (s.powerOn mv).mems.ok := by simp [State.powerOn, hs]

@[simp] theorem State.memsOk_powerLost (phase : PowerPhase) (mv : Nat) (hs : s.mems.ok) : (s.powerLost phase mv).mems.ok := by
  simp [State.powerLost, hs]

@[simp] theorem State.memsOk_coldReset (cause : Reg) (low : Bool) (hs : s.mems.ok) : (s.coldReset cause low).mems.ok := by
  have hfresh : (s.coldFresh low).mems.ok := hs.cleared
  simpa [State.coldReset_eq] using hfresh

@[simp] theorem State.memsOk_unitsEmptied (hs : s.mems.ok) : s.unitsEmptied.mems.ok := hs.cleared

@[simp] theorem State.memsOk_portsOff (hs : s.mems.ok) : s.portsOff.mems.ok :=
  State.memsOk_foldl (fun t n ht => by split <;> simp [ht]) _ hs

@[simp] theorem State.memsOk_stop (hs : s.mems.ok) : s.stop.mems.ok := by
  have hports : s.portsOff.mems.ok := by simp [hs]
  rw [State.stop_eq]
  simp [State.domainsOff, State.pagesOff, hports]

@[simp] theorem State.mems_stopRings (own : Nat) : (s.stopRings own).mems = s.mems := rfl

theorem memsOk_opShutdown (id : Nat) (c : Cmd) (bist : BistRun) (fails : Bool) (hs : s.mems.ok) :
    (opShutdown s id c bist fails).mems.ok := by
  have hstopped (r : Nat) : (((s.setPageState pgGlb 2).complete id .ok 0 r).stopRings c.ring).stop.mems.ok := by
    have hcompleted : ((s.setPageState pgGlb 2).complete id .ok 0 r).mems.ok := by simp [hs]
    exact State.memsOk_stop (by rwa [State.mems_stopRings])
  simp only [opShutdown]
  repeat' split
  all_goals simp [hs, hstopped]

@[simp] theorem nextOk_execRstDeviceCold (value : Word) (hs : s.mems.ok) : NextOk (execRstDeviceCold value s) := by
  simp only [execRstDeviceCold, nextOk_next]
  repeat' split
  all_goals simp [hs]

@[simp] theorem nextOk_execJtagInstruction (i : TapInstr) (hs : s.mems.ok) : NextOk (execJtagInstruction i s) := by
  simp only [execJtagInstruction, nextOk_next]
  repeat' split
  all_goals simp [hs]

/-! ## Every row -/

/-- A row that acts where its condition holds, and else has no effect. -/
theorem nextOk_ite {p : Prop} [Decidable p] (ht : t.mems.ok) (hs : s.mems.ok) : NextOk (.next (if p then t else s)) :=
  nextOk_next.2 (State.memsOk_ite ht hs)

theorem nextOk_exec (i : Instr) (hs : s.mems.ok) : NextOk (exec i s) := by
  cases i with
  | nop cmd => exact nextOk_row 0x01 cmd hs
  | fence cmd => exact nextOk_row 0x02 cmd hs
  | sessCreate cmd => exact nextOk_row 0x10 cmd hs
  | sessClose cmd => exact nextOk_row 0x11 cmd hs
  | sessFork cmd => exact nextOk_row 0x12 cmd hs
  | sessQuery cmd => exact nextOk_row 0x13 cmd hs
  | appendText cmd => exact nextOk_row 0x18 cmd hs
  | appendTokens cmd => exact nextOk_row 0x19 cmd hs
  | step cmd => exact nextOk_row 0x1A cmd hs
  | toolWait cmd => exact nextOk_row 0x1B cmd hs
  | resume cmd => exact nextOk_row 0x1C cmd hs
  | park cmd => exact nextOk_row 0x1D cmd hs
  | exportCapsule cmd => exact nextOk_row 0x20 cmd hs
  | importCapsule cmd content => exact nextOk_row 0x21 cmd (by simpa using hs)
  | migrateOut cmd => exact nextOk_row 0x22 cmd hs
  | migrateIn cmd content word => exact nextOk_row 0x23 cmd (by simpa using hs)
  | reclaim cmd content word => exact nextOk_row 0x24 cmd (by simpa using hs)
  | embLookup cmd => exact nextOk_row 0x30 cmd hs
  | embUpdate cmd => exact nextOk_row 0x31 cmd hs
  | embReplicate cmd => exact nextOk_row 0x32 cmd hs
  | memInsert cmd => exact nextOk_row 0x38 cmd hs
  | memDelete cmd => exact nextOk_row 0x39 cmd hs
  | memSearch cmd => exact nextOk_row 0x3A cmd hs
  | memCompact cmd => exact nextOk_row 0x3B cmd hs
  | modelLoad cmd => exact nextOk_row 0x40 cmd hs
  | modelUnload cmd => exact nextOk_row 0x41 cmd hs
  | constraintLoad cmd => exact nextOk_row 0x42 cmd hs
  | vocabLoad cmd => exact nextOk_row 0x43 cmd hs
  | ckptTake cmd => exact nextOk_row 0x48 cmd hs
  | ckptRestore cmd => exact nextOk_row 0x49 cmd hs
  | tenantOpen cmd => exact nextOk_row 0x50 cmd hs
  | tenantClose cmd => exact nextOk_row 0x51 cmd hs
  | shutdown cmd bist fails =>
    simp only [exec, execShutdown, nextOk_next]
    repeat' split
    · exact hs
    · exact State.memsOk_attempt (fun u id c _ hu => memsOk_opShutdown id c bist fails hu) cmd _ hs
    · exact hs
  | waitingCommandEffect =>
    simp only [exec, execWaitingCommandEffect, nextOk_next]
    split
    · exact memsOk_attemptWaiting _ hs
    · exact hs
  | vinRise mv => exact nextOk_ite (State.memsOk_powerOn mv hs) hs
  | vinUvFault mv => exact nextOk_ite (State.memsOk_powerLost _ mv hs) hs
  | vinOvFault mv => exact nextOk_ite (State.memsOk_powerLost _ mv hs) hs
  | vinOvRecovery mv => exact nextOk_ite (State.memsOk_powerOn mv hs) hs
  | thermalTrip c => exact nextOk_ite (by simp [hs]) hs
  | resetNAssert => exact nextOk_ite (State.memsOk_coldReset _ _ hs) hs
  | benchWatchdog => exact nextOk_ite (State.memsOk_coldReset _ _ hs) hs
  | _ => simp [exec, hs]

@[simp] theorem State.mems_passTick : s.passTick.mems = s.mems := by
  unfold State.passTick
  repeat' split
  · rfl
  · simp
  · simp

theorem mems_idleTick : (idleTick s).mems = s.mems := by simp [idleTick, State.drainWriteBuf]

theorem memsOk_step (hs : s.mems.ok) (h : step s = .next t) : t.mems.ok := by
  unfold step at h
  split at h
  · cases h
    rwa [mems_idleTick]
  · next i rest _ =>
    have hrest : ({ s with pending := rest } : State).mems.ok := hs
    exact (nextOk_exec i hrest).ok h

end Sys2Proof.Machine

open Sys2Proof Sys2Proof.Machine in
/-- Settles O57, by cases of the command: every operation either leaves the memories as they are or writes to one of them a list
of bytes or a memory that is in its canonical form. -/
theorem memoryFormKept : Obligations.MemoryFormKept := fun _ _ hs h =>
  State.canonical_iff_mems.2 (memsOk_step (State.canonical_iff_mems.1 hs) h)
end

section
/-! ## Doorbells and pushes of a command ring -/
namespace Sys2Proof.Machine
variable {s : State}

@[simp] theorem State.rings_hostStores (l : List HostStore) : (s.hostStores l).rings = s.rings :=
  foldl_keeps State.rings _ (fun t h => by simp) l s

@[simp] theorem State.commons_hostStores (l : List HostStore) : (s.hostStores l).commons = s.commons :=
  foldl_keeps State.commons _ (fun t h => by simp) l s

@[simp] theorem State.ring_hostStores (l : List HostStore) (n : Nat) : (s.hostStores l).ring n = s.ring n :=
  State.ring_congr (by simp) n

@[simp] theorem State.live_hostStores (l : List HostStore) : (s.hostStores l).live = s.live := by
  simp only [State.live, State.pageState_congr (State.commons_hostStores l)]

variable {n : BitVec 8} {tail head : Word} {q7 : DWord} {stores : List HostStore}

/-! The rows, where the device answers accesses to BAR 0. -/

theorem exec_sqDoorbell_live (h : s.live = true) :
    exec (.sqDoorbell n tail stores) s = .next (sqDoorbellRing (s.hostStores stores).ungate n.toNat tail) := by
  simp [exec, execSqDoorbell, State.touch_live, h]

theorem exec_cqDoorbell_live (h : s.live = true) :
    exec (.cqDoorbell n head) s = .next (cqDoorbellRing s.ungate n.toNat head) := by
  simp [exec, execCqDoorbell, State.touch_live, h]

theorem exec_push_live (h : s.live = true) :
    exec (.push n q7 stores) s = .next (pushRing (s.hostStores stores).ungate n.toNat q7) := by
  simp [exec, execPush, State.touch_live, h]

/-! A doorbell and a push by the state of the ring (R43, R44, R46). -/

variable {k : Nat}

theorem sqDoorbellRing_enabled (h : (s.ring k).state = .enabled) :
    sqDoorbellRing s k tail = if (tail - (s.ring k).sqHead).toNat > 2 ^ (s.ring k).sqLog2 then s.ringErr k 0x0004
      else s.setRing k { s.ring k with sqTail := tail } := by
  simp only [sqDoorbellRing, h]

theorem sqDoorbellRing_disabled (h : (s.ring k).state = .disabled) : sqDoorbellRing s k tail = s := by
  simp only [sqDoorbellRing, h]

theorem sqDoorbellRing_stopped (h : (s.ring k).state = .draining ∨ (s.ring k).state = .halted) :
    sqDoorbellRing s k tail = s.ringErr k 0x0008 := by
  rcases h with h | h <;> simp only [sqDoorbellRing, h]

theorem cqDoorbellRing_open (h : (s.ring k).state ≠ .disabled) :
    cqDoorbellRing s k head = if (head - (s.ring k).cqHead).toNat > (s.ring k).unread then s.ringErr k 0x0005
      else s.setRing k { s.ring k with cqHead := head } := by
  simp only [cqDoorbellRing]

theorem cqDoorbellRing_disabled (h : (s.ring k).state = .disabled) : cqDoorbellRing s k head = s := by
  simp only [cqDoorbellRing, h]

theorem pushRing_disabled (h : (s.ring k).state = .disabled) : pushRing s k q7 = s := by
  simp only [pushRing, h]

theorem pushRing_stopped (h : (s.ring k).state = .draining ∨ (s.ring k).state = .halted) :
    pushRing s k q7 = s.ringErr k 0x0008 := by
  rcases h with h | h <;> simp only [pushRing, h]

end Sys2Proof.Machine

open Sys2Proof Sys2Proof.Machine in
/-- Settles O1: each row runs its operation on the ring, whose state and counts select the branch. -/
theorem ringDoorbells : Obligations.RingDoorbells := by
  refine ⟨fun n s hl => ⟨fun he tail stores => ?_, fun hopen head => ?_⟩,
    fun n stores s hl => ⟨fun hstop => ⟨fun tail => ?_, fun q7 => ?_⟩,
      fun hd => ⟨fun tail => ?_, fun q7 => ?_, fun head => ?_⟩⟩⟩
  · rw [exec_sqDoorbell_live hl, sqDoorbellRing_enabled (by simpa using he)]
    simp only [State.ring_ungate, State.ring_hostStores]
    exact ⟨fun hfit => congrArg _ (if_neg (Nat.not_lt.mpr hfit)), fun hfull => congrArg _ (if_pos hfull)⟩
  · rw [exec_cqDoorbell_live hl, cqDoorbellRing_open (by simpa using hopen)]
    simp only [State.ring_ungate]
    exact ⟨fun hfit => congrArg _ (if_neg (Nat.not_lt.mpr hfit)), fun hpast => congrArg _ (if_pos hpast)⟩
  · rw [exec_sqDoorbell_live hl, sqDoorbellRing_stopped (by simpa using hstop)]
  · rw [exec_push_live hl, pushRing_stopped (by simpa using hstop)]
  · rw [exec_sqDoorbell_live hl, sqDoorbellRing_disabled (by simpa using hd)]
  · rw [exec_push_live hl, pushRing_disabled (by simpa using hd)]
  · rw [exec_cqDoorbell_live hl, cqDoorbellRing_disabled (by simpa using hd)]
end

section
/-! ## Pushed descriptors -/
namespace Sys2Proof.Machine
variable {s : State} {k : Nat} {q7 : DWord}

/-- Every quadword of a push but the last has been written. -/
def Ring.staged (r : Ring) : Bool := [0, 1, 2, 3, 4, 5, 6].all (fun i => r.stage.has i)

/-- The ring after a push of a whole descriptor (R46). -/
def Ring.push (r : Ring) (q7 : DWord) : Ring :=
  { r with pushed := some (r.sqTail.toNat, pushBytes r.stage q7), sqTail := r.sqTail + 1, stage := Map.empty }

theorem pushRing_enabled (h : (s.ring k).state = .enabled) :
    pushRing s k q7 = if (s.ring k).staged = false then s.ringErr k 0x0008
      else if (s.ring k).pushed.isSome then s.ringErr k 0x0008
      else if (s.ring k).waiting + 1 > 2 ^ (s.ring k).sqLog2 then s.ringErr k 0x0004
      else s.setRing k ((s.ring k).push q7) := by
  simp only [pushRing, Ring.push, Ring.staged, h]

/-- The descriptor that follows those that waited before a push is the one pushed. -/
theorem State.nextDescriptor_push (r : Ring) :
    s.nextDescriptor { r.push q7 with sqHead := r.sqTail } = pushBytes r.stage q7 := by
  simp [State.nextDescriptor, Ring.push]

end Sys2Proof.Machine

open Sys2Proof Sys2Proof.Machine in
/-- Settles O2: on an ENABLED ring the staged quadwords, the earlier push and the room select what the push does, and a pushed
descriptor is read back under its number (`State.nextDescriptor_push`). -/
theorem pushIsFetched : Obligations.PushIsFetched := by
  intro n q7 stores s hl he u
  have hrow : exec (.push n q7 stores) s = .next (pushRing u n.toNat q7) := exec_push_live hl
  have hring : u.ring n.toNat = s.ring n.toNat := by simp [u]
  rw [hrow, pushRing_enabled (by rw [hring, he]), hring]
  refine ⟨fun hw hp hroom => ⟨u.setRing n.toNat ((s.ring n.toNat).push q7), congrArg _ ?_, ?_⟩,
    fun hbad => congrArg _ ?_, fun hw hp hfull => congrArg _ ?_⟩
  · rw [if_neg (by simpa [Ring.staged] using hw), if_neg (by simp [hp]), if_neg (by omega)]
  · simp only [State.ring_setRing_self]
    exact ⟨trivial, rfl, rfl, State.nextDescriptor_push _⟩
  · split
    · rfl
    next hstaged =>
      rw [if_pos (Option.isSome_iff_ne_none.mpr (hbad.resolve_left hstaged))]
  · rw [if_neg (by simpa [Ring.staged] using hw), if_neg (by simp [hp]), if_pos (by omega)]
end

section
/-! ## Descriptors that are fetched -/
namespace Sys2Proof.Machine
variable {s : State} {n : BitVec 8} {readable : Bool}

theorem exec_descriptorFetch_live (h : s.live = true) (hf : (s.ring n.toNat).mayFetch = true) :
    exec (.descriptorFetch n readable) s = .next (s.ungate.fetch n.toNat readable) := by
  simp [exec, execDescriptorFetch, State.touch_live, h, hf]

/-- The descriptor that a ring's next fetch reads. -/
def State.fetchedDesc (s : State) (k : Nat) : Desc := Desc.ofBytes (s.nextDescriptor (s.ring k))

/-- What validation says of the descriptor that a ring's next fetch reads, after SQ_HEAD has gone on. -/
def State.fetchCheck (s : State) (k : Nat) (readable : Bool) : Option (Status × Nat) :=
  (s.setRing k (s.ring k).fetched).validate (s.ring k) (s.fetchedDesc k) readable

/-- Validation reads neither the clock gate nor the ring's own page. -/
theorem State.fetchCheck_ungate (k : Nat) :
    s.ungate.fetchCheck k readable = s.validate (s.ring k) (Desc.ofBytes (s.nextDescriptor (s.ring k))) readable := rfl

variable {k : Nat}

theorem State.fetch_refused {st : Status} {detail : Nat} (h : s.fetchCheck k readable = some (st, detail)) :
    s.fetch k readable = ((s.setRing k (s.ring k).fetched).writeCompletion k (s.fetchedDesc k) st detail
      (s.fetchedDesc k).handle 0).release k := by
  simp only [State.fetchCheck, State.fetchedDesc] at h
  simp only [State.fetch, State.fetchedDesc, h]

/-- The command that a fetched descriptor becomes. -/
def State.fetchedCmd (s : State) (k : Nat) : Cmd where
  ring := k
  seq := (s.ring k).sqHead.toNat
  desc := s.fetchedDesc k
  tenant := (s.ring k).tenant
  admin := (s.ring k).admin
  acceptTick := s.tick

theorem State.fetch_accepted (h : s.fetchCheck k readable = none) :
    s.fetch k readable = (({ s.setRing k (s.ring k).fetched with
      cmds := s.cmds.set s.nextCmd (s.fetchedCmd k), nextCmd := s.nextCmd + 1 } : State).bump .ADM_TEN_SUBMITTED_COUNT
        (s.ring k).tenant).takeIn s.nextCmd (s.fetchedCmd k) := by
  simp only [State.fetchCheck, State.fetchedDesc] at h
  simp only [State.fetch, h]
  rfl

end Sys2Proof.Machine

open Sys2Proof Sys2Proof.Machine in
/-- Settles O3: a fetch answers by what validation says of the descriptor. -/
theorem descriptorFetched : Obligations.DescriptorFetched := by
  intro n readable s hl hf r d u c
  rw [exec_descriptorFetch_live hl hf]
  exact ⟨fun st detail hbad => congrArg _ (State.fetch_refused ((State.fetchCheck_ungate _).trans hbad)),
    fun hok => congrArg _ (State.fetch_accepted ((State.fetchCheck_ungate _).trans hok))⟩
end

section
/-! ## The states of a ring -/
namespace Sys2Proof.Machine
variable {s : State} {n : BitVec 8} {k : Nat}

theorem exec_ringEnable_live (f : BitVec 4) (h : s.live = true) :
    exec (.ringEnable n f) s = .next (ringEnableOp s.ungate n.toNat f.toNat) := by
  simp [exec, execRingEnable, State.touch_live, h]

theorem exec_ringDisable_live (h : s.live = true) : exec (.ringDisable n) s = .next (ringDisableOp s.ungate n.toNat) := by
  simp [exec, execRingDisable, State.touch_live, h]

theorem exec_ringSoftRst_live (h : s.live = true) : exec (.ringSoftRst n) s = .next (ringSoftRstOp s.ungate n.toNat) := by
  simp [exec, execRingSoftRst, State.touch_live, h]

/-- The set-up check does not read which function opens the ring. -/
theorem ringEnableOp_disabled (f : Nat) (h : (s.ring k).state = .disabled) :
    ringEnableOp s k f = if (s.ring k).enableCode = 0 then s.setRing k ({ s.ring k with function := f } : Ring).opened
      else s.ringErr k (s.ring k).enableCode := by
  simp only [ringEnableOp, h]
  rfl

theorem ringDisableOp_enabled (h : (s.ring k).state = .enabled) :
    ringDisableOp s k = s.setRing k { s.ring k with en := false, state := .draining } := by
  simp only [ringDisableOp, h]

theorem ringSoftRstOp_open (h : (s.ring k).state ≠ .disabled) :
    ringSoftRstOp s k = s.setRing k { s.ring k with state := .draining, discard := true } := by
  simp only [ringSoftRstOp]

theorem ringSoftRstOp_disabled (h : (s.ring k).state = .disabled) :
    ringSoftRstOp s k = s.setRing k { s.ring k with
      sqTail := 0, cqHead := 0, sqHead := 0, cqTail := 0, dropped := 0, stage := Map.empty, pushed := none,
      unsignalled := 0, lastCq := none, err := false, code := 0, int := (s.ring k).int &&& ~~~ (2 : Word) } := by
  simp only [ringSoftRstOp, h]

/-- A ring that has drained is DISABLED, whether or not it loses its binding. -/
theorem Ring.drained_closed (r : Ring) : r.drained.state = .disabled ∧ r.drained.en = false := by
  unfold Ring.drained
  dsimp only
  split <;> exact ⟨rfl, rfl⟩

end Sys2Proof.Machine

open Sys2Proof Sys2Proof.Machine in
/-- Settles O4: the state of the ring selects what each row does to it. -/
theorem ringStates : Obligations.RingStates := by
  refine ⟨fun n s hl => ⟨fun f hd hok => ?_, fun f hd hbad => ?_, fun he => ?_, fun ho => ?_,
    fun hdrain hout => ⟨congrArg _ (if_pos ⟨hdrain, hout⟩), Ring.drained_closed _⟩,
    fun hout => congrArg _ (if_neg fun h => hout h.2)⟩, fun n s hl hd => ?_⟩
  · rw [exec_ringEnable_live f hl, ringEnableOp_disabled _ (by simpa using hd), State.ring_ungate, if_pos hok]
  · rw [exec_ringEnable_live f hl, ringEnableOp_disabled _ (by simpa using hd), State.ring_ungate, if_neg hbad]
  · rw [exec_ringDisable_live hl, ringDisableOp_enabled (by simpa using he), State.ring_ungate]
  · rw [exec_ringSoftRst_live hl, ringSoftRstOp_open (by simpa using ho), State.ring_ungate]
  · rw [exec_ringSoftRst_live hl, ringSoftRstOp_disabled (by simpa using hd), State.ring_ungate]
    refine ⟨_, rfl, ?_⟩
    simp +contextual [State.ring_setRing, hd]
end

section
/-! ## A ring that halts -/
namespace Sys2Proof.Machine
variable {s : State} {n k code v : Nat}

/-- A ring page that records an error (R30, R43). -/
def Ring.erred (r : Ring) (code : Nat) : Ring :=
  { r with err := true, code := if r.code = 0 then code else r.code, int := r.int ||| 2 }

theorem State.ring_ringErr : (s.ringErr n code).ring k = if k = n then (s.ring n).erred code else s.ring k := by
  simp only [State.ringErr, State.ring_ringInt, State.ring_setRing_self, State.ring_setRing]
  split <;> rfl

/-- A ring that goes HALTED. -/
def Ring.halt (r : Ring) (code : Nat) : Ring :=
  ({ r with state := if r.state = .enabled then .halted else r.state } : Ring).erred code

theorem State.ring_halt : (haltRing s n code).ring k = if k = n then (s.ring n).halt code else s.ring k := by
  simp only [haltRing, State.ring_ringErr, State.ring_setRing_self, State.ring_setRing]
  split <;> rfl

theorem State.memory_haltRing :
    (haltRing s n code).window = s.window ∧ (haltRing s n code).host = s.host ∧ (haltRing s n code).free = s.free := by
  simp [haltRing]

/-! Taking back a completion. -/

@[simp] theorem State.unsend_frame : (s.unsend v).rings = s.rings ∧ (s.unsend v).window = s.window ∧
    (s.unsend v).host = s.host ∧ (s.unsend v).free = s.free := by
  unfold State.unsend
  split <;> exact ⟨rfl, rfl, rfl, rfl⟩

/-- The ring whose newest completion is taken back. -/
def Ring.undo (r : Ring) (u : CqUndo) : Ring :=
  { r with
    cqTail := r.cqTail - 1, dropped := satAdd 32 r.dropped 1, lastCq := none
    int := if u.due && u.int &&& 1 == 0 then r.int &&& ~~~ (1 : Word) else r.int
    unsignalled := if u.due then u.unsignalled else r.unsignalled - 1
    unsignalledSince := if u.due then u.since else r.unsignalledSince }

theorem State.ring_undoCompletion (u : CqUndo) :
    (s.undoCompletion n u).ring k = if k = n then (s.ring n).undo u else s.ring k := by
  simp only [State.undoCompletion, State.ring_setRing]
  split
  · rfl
  · refine State.ring_congr ?_ k
    (repeat' split) <;> simp

/-- What the failed write leaves in the slot: in the window what stood there, in host memory free values. -/
theorem State.memory_undoCompletion (u : CqUndo) :
    ((s.ring n).cqInWindow = true →
      (s.undoCompletion n u).window = s.window.writeN ((s.ring n).cqSlot ((s.ring n).cqTail - 1)) u.old ∧
      (s.undoCompletion n u).host = s.host ∧ (s.undoCompletion n u).free = s.free) ∧
    ((s.ring n).cqInWindow = false →
      (s.undoCompletion n u).window = s.window ∧
      (s.undoCompletion n u).host = s.host.writeN ((s.ring n).cqSlot ((s.ring n).cqTail - 1)) (freeBytes s.free 32) ∧
      (s.undoCompletion n u).free = s.free + 32) := by
  constructor <;> intro hw <;> cases hm : u.message <;>
    simp [State.undoCompletion, State.writeMem, State.useFree, hw, hm]

theorem exec_completionWriteFail {n : BitVec 8} {u : CqUndo} (hlast : (s.ring n.toNat).lastCq = some u)
    (hopen : (s.ring n.toNat).state ≠ .disabled) (hunread : (s.ring n.toNat).unread ≠ 0) :
    exec (.completionWriteFail n) s = .next (haltRing (s.undoCompletion n.toNat u) n.toNat 0x0007) := by
  simp [exec, execCompletionWriteFail, hlast, hopen, hunread]

end Sys2Proof.Machine

open Sys2Proof Sys2Proof.Machine in
/-- Settles O5: a failed read halts the ring, and a failed write halts it after its completion has been taken back. -/
theorem ringFailures : Obligations.RingFailures := by
  refine fun n s => ⟨fun he hw => ?_, fun u hopen hlast hunread => ⟨_, exec_completionWriteFail hlast hopen hunread, ?_⟩⟩
  · simp [exec, execDescriptorReadFail, haltRing, he, hw]
  · obtain ⟨hwindow, hhost, hfree⟩ := State.memory_haltRing (s := s.undoCompletion n.toNat u) (n := n.toNat) (code := 7)
    have hundone := State.memory_undoCompletion (s := s) (n := n.toNat) u
    simp only [State.ring_halt, State.ring_undoCompletion, if_true, hwindow, hhost, hfree]
    exact ⟨rfl, rfl, rfl, rfl, rfl, fun k hk => by simp [hk], hundone⟩
end

section
/-! ## Binding a ring -/
namespace Sys2Proof.Machine
variable {s : State} {v : Word}

theorem exec_ringBind_live (h : s.live = true) (hv : bitAt v.toNat 31 = true) :
    exec (.ringBind v) s = .next (ringBindOp s.ungate v) := by
  simp [exec, execRingBind, State.touch_live, h, hv]

theorem exec_ringUnbind_live (h : s.live = true) (hv : bitAt v.toNat 30 = true) (hb : bitAt v.toNat 31 = false) :
    exec (.ringUnbind v) s = .next (ringUnbindOp s.ungate v) := by
  simp [exec, execRingUnbind, State.touch_live, h, hv, hb]

/-- The check of a bind does not read the clock gate. -/
theorem bindCode_ungate : bindCode s.ungate v = bindCode s v := rfl

@[simp] theorem ring_setRingBind (k : Nat) : (setRingBind s v).ring k = s.ring k := State.ring_congr (by simp [setRingBind]) k

/-- The registers that a write to GLB_RING_BIND sets. -/
def bindRegs : List Reg := [.GLB_RING_BIND_RING, .GLB_RING_BIND_TENANT, .GLB_RING_BIND_ADMIN]

theorem reg_setRingBind {r : Reg} (hr : r ∉ bindRegs) : (setRingBind s v).reg r = s.reg r := by
  simp only [bindRegs, List.mem_cons, List.not_mem_nil, or_false, not_or] at hr
  obtain ⟨hring, htenant, hadmin⟩ := hr
  rw [setRingBind, State.reg_setReg_ne _ _ _ _ _ _ hadmin (by decide) (by decide),
    State.reg_setReg_ne _ _ _ _ _ _ htenant (by decide) (by decide),
    State.reg_setReg_ne _ _ _ _ _ _ hring (by decide) (by decide)]

/-- A ring that is bound, with the allotment of GLB_RING_WIN (R41). -/
def Ring.bind (r : Ring) (s : State) (v : Word) : Ring :=
  { r with
    bound := true, tenant := bitsOf v.toNat 8 12, admin := bitAt v.toNat 20
    winBase := s.reg .GLB_RING_WIN_WIN_BASE, winUnits := s.reg .GLB_RING_WIN_WIN_UNITS }

theorem ringBindOp_bound (h : bindCode s v = 0) :
    ringBindOp s v = (setRingBind s v).setRing (bitsOf v.toNat 0 8) ((s.ring (bitsOf v.toNat 0 8)).bind s v) := by
  have hbase : (setRingBind s v).reg .GLB_RING_WIN_WIN_BASE = s.reg .GLB_RING_WIN_WIN_BASE := reg_setRingBind (by decide)
  have hunits : (setRingBind s v).reg .GLB_RING_WIN_WIN_UNITS = s.reg .GLB_RING_WIN_WIN_UNITS := reg_setRingBind (by decide)
  simp only [ringBindOp, h, ne_eq, not_true_eq_false, if_false, ring_setRingBind, hbase, hunits]
  rfl

theorem ringBindOp_refused (h : bindCode s v ≠ 0) : ringBindOp s v = s.recErr pgGlb (bindCode s v) := if_pos h

theorem ringUnbindOp_disabled (h : (s.ring (bitsOf v.toNat 0 8)).state = .disabled) :
    ringUnbindOp s v = (setRingBind s v).setRing (bitsOf v.toNat 0 8) (s.ring (bitsOf v.toNat 0 8)).unbind := by
  simp [ringUnbindOp, h]

theorem ringUnbindOp_open (h : (s.ring (bitsOf v.toNat 0 8)).state ≠ .disabled) :
    ringUnbindOp s v = s.recErr pgGlb 0x0010 := if_pos h

end Sys2Proof.Machine

open Sys2Proof Sys2Proof.Machine in
/-- Settles O6: the checks of a bind, and the ring's state for an unbind, select between the ring's new page and the code. -/
theorem ringBinding : Obligations.RingBinding := by
  refine fun v s hl => ⟨fun hv hok => ?_, fun hv hbad => ?_, fun hu hb hd => ?_, fun hu hb ho => ?_⟩
  · rw [exec_ringBind_live hl hv, ringBindOp_bound (bindCode_ungate.trans hok)]
    refine ⟨_, rfl, ?_⟩
    simp only [State.ring_setRing_self]
    exact ⟨rfl, rfl, rfl, rfl, rfl, fun k hk => by simp [State.ring_setRing, hk]⟩
  · rw [exec_ringBind_live hl hv, ringBindOp_refused (by rwa [bindCode_ungate]), bindCode_ungate]
  · rw [exec_ringUnbind_live hl hu hb, ringUnbindOp_disabled (by simpa using hd)]
    exact ⟨_, rfl, by simp, fun k hk => by simp [State.ring_setRing, hk]⟩
  · rw [exec_ringUnbind_live hl hu hb, ringUnbindOp_open (by simpa using ho)]
end

section
/-! ## Final completions -/
namespace Sys2Proof.Machine
variable {s : State} {id n k detail result handle : Nat} {st : Status} {c : Cmd} {d : Desc}

/-! The ring after a signal, after a completion and after a release. -/

theorem State.ring_signal : (s.signal n).ring k
    = if k = n then { s.ring n with int := (s.ring n).int ||| 1, unsignalled := 0 } else s.ring k := by
  have hsent (t : State) (v f : Nat) : (t.sendMsi v f).ring k = t.ring k := State.ring_congr (by simp) k
  simp only [State.signal]
  split <;> simp [hsent, State.ring_setRing]

theorem State.ring_release : (s.release n).ring k
    = if k = n then { s.ring n with outstanding := (s.ring n).outstanding - 1 } else s.ring k := State.ring_setRing ..

theorem State.writeCompletion_discarded (h : (s.ring n).discard = true) :
    s.writeCompletion n d st detail handle result
      = s.setRing n { s.ring n with dropped := satAdd 32 (s.ring n).dropped 1 } := by
  simp [State.writeCompletion, h]

/-- A completion that is written: its bytes, the counts of its ring, and the signal that may follow. -/
theorem State.writeCompletion_written (h : (s.ring n).discard = false) :
    ∃ (r : Ring) (due : Bool), s.writeCompletion n d st detail handle result =
        (let u := (s.writeMem (s.ring n).cqInWindow ((s.ring n).cqSlot (s.ring n).cqTail) (completionBytes d.opcode
          (phaseBit (s.ring n).cqLog2 (s.ring n).cqTail) st.code d.tag detail handle s.tick result)).setRing n r
        if due then u.signal n else u) ∧
      r.cqTail = (s.ring n).cqTail + 1 ∧ r.outstanding = (s.ring n).outstanding :=
  ⟨_, _, if_neg (by simp [h]), rfl, rfl⟩

@[simp] theorem State.ring_writeMem (b : Bool) (a : Nat) (l : List Byte) : (s.writeMem b a l).ring k = s.ring k :=
  State.ring_congr (by simp) k

theorem State.ring_writeCompletion_ne (h : k ≠ n) : (s.writeCompletion n d st detail handle result).ring k = s.ring k := by
  cases hd : (s.ring n).discard with
  | true => rw [State.writeCompletion_discarded hd, State.ring_setRing, if_neg h]
  | false =>
    obtain ⟨r, due, e, -, -⟩ := State.writeCompletion_written (d := d) (st := st) (detail := detail) (handle := handle)
      (result := result) hd
    rw [e]
    cases due <;> simp [State.ring_signal, State.ring_setRing, h]

theorem State.ring_writeCompletion_self (h : (s.ring n).discard = false) :
    ((s.writeCompletion n d st detail handle result).ring n).cqTail = (s.ring n).cqTail + 1 ∧
    ((s.writeCompletion n d st detail handle result).ring n).outstanding = (s.ring n).outstanding := by
  obtain ⟨r, due, e, htail, hout⟩ := State.writeCompletion_written (d := d) (st := st) (detail := detail) (handle := handle)
    (result := result) h
  rw [e]
  cases due <;> simp [State.ring_signal, htail, hout]

/-! The bytes of a completion. -/

theorem leBytes_length (v k : Nat) : (leBytes v k).length = k := by
  induction k generalizing v with
  | zero => rfl
  | succ k ih => simp [leBytes, ih]

theorem completionBytes_length (opcode phase status tag detail handle tick result : Nat) :
    (completionBytes opcode phase status tag detail handle tick result).length = 32 := by
  simp [completionBytes, leBytes_length]

theorem State.readMem_writeMem (b : Bool) (a : Nat) (l : List Byte) : (s.writeMem b a l).readMem b a l.length = l := by
  cases b <;> exact Memory.readN_writeN ..

theorem State.readMem_congr {t : State} (hw : t.window = s.window) (hh : t.host = s.host) (b : Bool) (a k : Nat) :
    t.readMem b a k = s.readMem b a k := by
  simp only [State.readMem, hw, hh]

/-- The 32 bytes of a completion stand in the slot that CQ_TAIL named. -/
theorem State.readMem_writeCompletion (h : (s.ring n).discard = false) :
    (s.writeCompletion n d st detail handle result).readMem (s.ring n).cqInWindow ((s.ring n).cqSlot (s.ring n).cqTail) 32
      = completionBytes d.opcode (phaseBit (s.ring n).cqLog2 (s.ring n).cqTail) st.code d.tag detail handle s.tick result := by
  obtain ⟨r, due, e, -, -⟩ := State.writeCompletion_written (d := d) (st := st) (detail := detail) (handle := handle)
    (result := result) h
  rw [e]
  generalize hbytes : completionBytes _ _ _ _ _ _ _ _ = bytes
  have hlen : bytes.length = 32 := hbytes ▸ completionBytes_length ..
  rw [← hlen]
  refine (State.readMem_congr ?_ ?_ ..).trans (State.readMem_writeMem (s := s) ..) <;> cases due <;> simp

/-! A final completion: what is counted for it first, then the write. -/

/-- The state in which the completion of a command is written: the command is gone, its deadline and its tenant are counted. -/
def State.charged (s : State) (id : Nat) (c : Cmd) (st st' : Status) : State :=
  let missed := if st' = .deadlineMissed ∧ st ≠ .deadlineMissed then
      match c.slot with
      | some k => s.onSession k (fun x => { x with misses := satAdd 16 x.misses 1 })
      | none => s
    else s
  let accounted := (({ missed with cmds := missed.cmds.erase id } : State).settleJob id (decide (st' = .internal))).account
    c.tenant st'
  if st = .staleHandle then accounted.bump .SDIR_STALE_COUNT else accounted

theorem State.completeH_eq (h : s.cmd? id = some c) :
    s.completeH id st detail result handle
      = ((s.charged id c st (lateStatus c s.tick st detail).1).writeCompletion c.ring c.desc (lateStatus c s.tick st detail).1
          (lateStatus c s.tick st detail).2 handle result).release c.ring := by
  simp only [State.completeH, h]
  rfl

@[simp] theorem State.charged_frame (st' : Status) :
    (s.charged id c st st').rings = s.rings ∧ (s.charged id c st st').window = s.window ∧
    (s.charged id c st st').host = s.host ∧ (s.charged id c st st').fabric = s.fabric ∧
    (s.charged id c st st').tick = s.tick ∧ (s.charged id c st st').cmds = s.cmds.erase id := by
  unfold State.charged
  extract_lets missed accounted
  have hmissed : missed.rings = s.rings ∧ missed.window = s.window ∧ missed.host = s.host ∧ missed.fabric = s.fabric ∧
      missed.tick = s.tick ∧ missed.cmds = s.cmds := by
    simp only [missed]
    (repeat' split) <;> simp
  split <;> simp [accounted, hmissed]

@[simp] theorem State.ring_charged (st' : Status) : (s.charged id c st st').ring k = s.ring k :=
  State.ring_congr (by simp) k

theorem State.cmd?_completeH (h : s.cmd? id = some c) :
    (s.completeH id st detail result handle).cmd? k = if k = id then none else s.cmd? k := by
  simp [State.completeH_eq h, State.cmd?, Map.get?_erase]

end Sys2Proof.Machine

open Sys2Proof Sys2Proof.Machine in
/-- Settles O7: what is counted for a completion leaves the rings and the memories alone, so its write finds the ring as it
was. -/
theorem completionWritten : Obligations.CompletionWritten := by
  constructor <;> intro s id detail result handle st c hc hd
  · intro r t l
    have hgone (k : Nat) : t.cmd? k = if k = id then none else s.cmd? k := State.cmd?_completeH hc
    have hd' : ((s.charged id c st l.1).ring c.ring).discard = false := by simpa using hd
    have ht : t = ((s.charged id c st l.1).writeCompletion c.ring c.desc l.1 l.2 handle result).release c.ring :=
      State.completeH_eq hc
    obtain ⟨htail, hout⟩ := State.ring_writeCompletion_self (d := c.desc) (st := l.1) (detail := l.2) (handle := handle)
      (result := result) hd'
    have hbytes := State.readMem_writeCompletion (d := c.desc) (st := l.1) (detail := l.2) (handle := handle)
      (result := result) hd'
    simp only [State.ring_charged, State.charged_frame] at htail hout hbytes
    refine ⟨?_, ?_, ?_, ?_, fun k hk => ?_, fun k hk => ?_⟩
    · rw [ht]
      exact hbytes
    · rw [ht, State.ring_release, if_pos rfl, htail]
    · rw [ht, State.ring_release, if_pos rfl, hout]
    · rw [hgone, if_pos rfl]
    · rw [ht, State.ring_release, if_neg hk, State.ring_writeCompletion_ne hk, State.ring_charged]
    · rw [hgone, if_neg hk]
  · intro t
    have hd' : ((s.charged id c st (lateStatus c s.tick st detail).1).ring c.ring).discard = true := by simpa using hd
    have ht : t = _ := (State.completeH_eq hc).trans (congrArg (State.release · c.ring) (State.writeCompletion_discarded hd'))
    have hgone : t.cmd? id = none := by rw [State.cmd?_completeH hc, if_pos rfl]
    refine ⟨?_, ?_, ?_, hgone, ?_⟩ <;> simp [ht, State.ring_release]
end

section
/-! ## Interrupt registers -/
namespace Sys2Proof.Machine
variable {s : State} {p : BitVec 10} {bits : Word} {k n : Nat}

/-! Block pages and ring pages are apart. -/

theorem isBlockPage_lt {q : Nat} (h : isBlockPage q = true) : q < 512 := by
  obtain ⟨b, hb⟩ := Option.isSome_iff_exists.1 h
  have hlast : ∀ b ∈ blockMap, b.1 + b.2.1 ≤ 512 := by decide
  have hin := List.find?_some hb
  simp only [Bool.and_eq_true, decide_eq_true_eq] at hin
  have := hlast b (List.mem_of_find?_eq_some hb)
  omega

theorem ringOf_blockPage {q : Nat} (h : isBlockPage q = true) : ringOf q = none := by
  have hq := isBlockPage_lt h
  exact if_neg (by simp only [pgRing]; omega)

theorem ringOf_eq_some {q : Nat} (hq : q = 512 + n) (h : n < 256) : ringOf q = some n := hq ▸ ringOf_ringPage h

/-! The rows on a block page and on a ring page. -/

theorem exec_intSet_block (h : s.live = true) (hp : isBlockPage p.toNat = true) :
    exec (.intSet p bits) s = .next (s.ungate.setInt p.toNat (bits &&& intMask)) := by
  simp [exec, execIntSet, State.touch_live, h, ringOf_blockPage hp, hp]

theorem exec_intEnableWrite_block (h : s.live = true) (hp : isBlockPage p.toNat = true) :
    exec (.intEnableWrite p bits) s = .next (s.ungate.intEnable p.toNat bits) := by
  simp [exec, execIntEnableWrite, State.touch_live, h, ringOf_blockPage hp, hp]

theorem exec_intStatusClear_block (h : s.live = true) (hp : isBlockPage p.toNat = true) :
    exec (.intStatusClear p bits) s = .next (s.ungate.intClear p.toNat bits) := by
  simp [exec, execIntStatusClear, State.touch_live, h, ringOf_blockPage hp, hp]

theorem exec_intSet_ring (h : s.live = true) (hp : ringOf p.toNat = some n) :
    exec (.intSet p bits) s = .next (s.ungate.ringInt n (bits &&& ringIntMask)) := by
  simp [exec, execIntSet, State.touch_live, h, hp]

theorem exec_intEnableWrite_ring (h : s.live = true) (hp : ringOf p.toNat = some n) :
    exec (.intEnableWrite p bits) s = .next (s.ungate.ringIntEnable n bits) := by
  simp [exec, execIntEnableWrite, State.touch_live, h, hp]

theorem exec_intStatusClear_ring (h : s.live = true) (hp : ringOf p.toNat = some n) :
    exec (.intStatusClear p bits) s = .next (s.ungate.ringIntClear n bits) := by
  simp [exec, execIntStatusClear, State.touch_live, h, hp]

/-! A write to INT_STATUS that clears neither ERR nor LOCK_ERR. -/

theorem and_of_and_six (h : bits &&& 6 = 0) : bits &&& 2 = 0 ∧ bits &&& 4 = 0 := by
  have h2 : bits &&& 2 = (bits &&& 6) &&& 2 := by rw [BitVec.and_assoc]; rfl
  have h4 : bits &&& 4 = (bits &&& 6) &&& 4 := by rw [BitVec.and_assoc]; rfl
  exact ⟨h2.trans (by rw [h]; rfl), h4.trans (by rw [h]; rfl)⟩

theorem State.clearedWith_quiet {q : Nat} (h2 : bits &&& 2 = 0) (hq : q ≠ pgClk) : s.clearedWith q bits = s := by
  simp only [State.clearedWith, h2, hq, ne_eq, not_true_eq_false, and_false, false_and, if_false]

theorem State.intClear_quiet {q : Nat} (h : bits &&& 6 = 0) (hq : q ≠ pgClk) :
    s.intClear q bits =
      if ((s.common q).int &&& ~~~ bits) &&& (s.common q).intEn ≠ 0 then
        (s.setCommon q { s.common q with int := (s.common q).int &&& ~~~ bits }).routeMsg q
      else s.setCommon q { s.common q with int := (s.common q).int &&& ~~~ bits } := by
  obtain ⟨h2, h4⟩ := and_of_and_six h
  simp only [State.intClear, h2, h4, ne_eq, not_true_eq_false, if_false, State.clearedWith_quiet h2 hq]

theorem State.ringIntClear_quiet (h : bits &&& 6 = 0) :
    s.ringIntClear n bits =
      if ((s.ring n).int &&& ~~~ bits) &&& (s.ring n).intEn ≠ 0 then
        (s.setRing n { s.ring n with int := (s.ring n).int &&& ~~~ bits }).sendMsi (s.ring n).vector (s.ring n).function
      else s.setRing n { s.ring n with int := (s.ring n).int &&& ~~~ bits } := by
  obtain ⟨h2, h4⟩ := and_of_and_six h
  simp only [State.ringIntClear, h2, h4, ne_eq, not_true_eq_false, if_false]

/-- What a write to INT_STATUS leaves in the ring's page. -/
theorem State.ring_ringIntClear :
    ((s.ringIntClear n bits).ring n).int = (s.ring n).int &&& ~~~ bits ∧
    ((s.ringIntClear n bits).ring n).code = (if bits &&& 2 = 0 then (s.ring n).code else 0) ∧
    ((s.ringIntClear n bits).ring n).err = ((s.ring n).err && decide (bits &&& 2 = 0)) := by
  have hsent (t : State) (v f : Nat) : (t.sendMsi v f).ring n = t.ring n := State.ring_congr (by simp) n
  have hset (t : State) (r : Ring) (c : Prop) [Decidable c] :
      (if c then (t.setRing n r).sendMsi r.vector r.function else t.setRing n r).ring n = r := by
    split <;> simp [hsent]
  simp only [State.ringIntClear, hset]
  by_cases h2 : bits &&& 2 = 0 <;> by_cases h4 : bits &&& 4 = 0 <;>
    simp only [h2, h4, ne_eq, not_true_eq_false, not_false_eq_true, if_true, if_false, decide_true, decide_false,
      Bool.and_true, Bool.and_false, and_self]

/-! Messages: a masked vector holds one, and unmasking sends it. -/

theorem State.sendMsi_unmasked {v f : Nat} (h : s.unmasked.contains (f * 2048 + v) = true) :
    s.sendMsi v f = { s with sent := (f * 2048 + v, s.msixEntry (f * 2048 + v)) :: s.sent } := by
  simp only [State.sendMsi, h, if_true]

theorem State.sendMsi_masked {v f : Nat} (h : s.unmasked.contains (f * 2048 + v) = false) :
    (s.sendMsi v f).sent = s.sent ∧ (s.sendMsi v f).msixPending.contains (f * 2048 + v) = true := by
  simp only [State.sendMsi, h]
  split
  · contradiction
  · split
    next hheld => exact ⟨rfl, hheld⟩
    · simp

/-- The write of a table entry that unmasks a vector with a pending bit. -/
theorem exec_msixVectorUnmask_pending {f : BitVec 4} {v : BitVec 11} {address : DWord} {data : Word}
    (hmasked : s.unmasked.contains (f.toNat * 2048 + v.toNat) = false)
    (hheld : s.msixPending.contains (f.toNat * 2048 + v.toNat) = true) :
    exec (.msixVectorUnmask f ⟨v, address, data⟩) s = .next { s with
      unmasked := (f.toNat * 2048 + v.toNat) :: s.unmasked
      msixTable := s.msixTable.set (f.toNat * 2048 + v.toNat) { address := address, data := data }
      msixPending := s.msixPending.filter (· != f.toNat * 2048 + v.toNat)
      sent := (f.toNat * 2048 + v.toNat, { address := address, data := data }) :: s.sent } := by
  simp only [exec, execMsixVectorUnmask, hmasked, hheld, if_true]
  rfl

/-! The coalescing timer. -/

theorem exec_coalesceTimer_due {n : BitVec 8} (hu : (s.ring n.toNat).unsignalled ≠ 0) (hc : (s.ring n.toNat).coalTime ≠ 0)
    (hdue : (s.ring n.toNat).unsignalledSince + (s.ring n.toNat).coalTime * 1000 ≤ s.tick) :
    exec (.coalesceTimer n) s = .next (s.signal n.toNat) := by
  simp [exec, execCoalesceTimer, hu, hc, hdue]

theorem State.signal_silent (h : (s.ring k).intEn &&& 1 = 0) :
    s.signal k = s.setRing k { s.ring k with int := (s.ring k).int ||| 1, unsignalled := 0 } :=
  if_neg fun h1 => absurd (h.symm.trans h1) (by decide)

theorem State.signal_enabled (h : (s.ring k).intEn &&& 1 = 1) :
    s.signal k = (s.setRing k { s.ring k with int := (s.ring k).int ||| 1, unsignalled := 0 }).sendMsi (s.ring k).vector
      (s.ring k).function := if_pos h

end Sys2Proof.Machine

open Sys2Proof Sys2Proof.Machine in
/-- Settles O8: the registers of a block page, those of a ring page, a masked vector, and the coalescing timer. -/
theorem interruptRegisters : Obligations.InterruptRegisters := by
  refine ⟨fun p bits s hl => ⟨fun hp => ?_, fun n hn hpn => ?_⟩, fun f v address data s => ?_, fun n s hu hc hdue => ?_⟩
  · intro c
    rw [exec_intSet_block hl hp, exec_intEnableWrite_block hl hp, exec_intStatusClear_block hl hp]
    exact ⟨rfl, rfl, fun h6 hclk => congrArg _ (State.intClear_quiet h6 hclk)⟩
  · have hr : ringOf p.toNat = some n := ringOf_eq_some hpn hn
    intro r send
    rw [exec_intSet_ring hl hr, exec_intEnableWrite_ring hl hr, exec_intStatusClear_ring hl hr]
    obtain ⟨hint, hcode, herr⟩ := State.ring_ringIntClear (s := s.ungate) (n := n) (bits := bits)
    refine ⟨rfl, rfl, fun h6 => congrArg _ (State.ringIntClear_quiet h6), fun h2 => ⟨_, rfl, ?_, ?_, hint⟩⟩
    · rw [hcode, if_neg h2]
    · rw [herr, decide_eq_false h2, Bool.and_false]
  · intro k e hmasked
    obtain ⟨hsent, hheld⟩ := State.sendMsi_masked hmasked
    refine ⟨hsent, hheld, _, exec_msixVectorUnmask_pending (by simpa using hmasked) hheld, ?_⟩
    simp [State.msixEntry, hsent, k, e, Map.getD]
  · refine ⟨_, exec_coalesceTimer_due hu hc hdue, ?_, fun hoff => ?_, fun hon hopen => ?_, fun hon hmask => ?_, ?_⟩
    · simp [State.ring_signal]
    · simp [State.signal_silent hoff]
    · rw [State.signal_enabled hon, State.sendMsi_unmasked (by simpa using hopen)]
      rfl
    · rw [State.signal_enabled hon]
      exact State.sendMsi_masked (s := s.setRing _ _) hmask
    · simp
end

section
/-! ## ERR_CODE and its clear -/
namespace Sys2Proof.Machine
variable {s : State} {bits : Word} {q : Nat}

@[simp] theorem State.commons_clearedWith : (s.clearedWith q bits).commons = s.commons := by
  unfold State.clearedWith
  (repeat' split) <;> simp

/-- What a write to INT_STATUS leaves in the block's page. -/
theorem State.common_intClear :
    ((s.intClear q bits).common q).code = (if bits &&& 2 = 0 then (s.common q).code else 0) ∧
    ((s.intClear q bits).common q).err = ((s.common q).err && decide (bits &&& 2 = 0)) := by
  have hset (t : State) (k : Common) (c : Prop) [Decidable c] :
      (if c then ((t.setCommon q k).clearedWith q bits).routeMsg q else (t.setCommon q k).clearedWith q bits).common q = k := by
    split <;> exact (State.common_congr (by simp) q).trans (State.common_setCommon_self t q k)
  simp only [State.intClear, hset]
  by_cases h2 : bits &&& 2 = 0 <;> by_cases h4 : bits &&& 4 = 0 <;>
    simp only [h2, h4, ne_eq, not_true_eq_false, not_false_eq_true, if_true, if_false, decide_true, decide_false,
      Bool.and_true, Bool.and_false, and_self]

end Sys2Proof.Machine

open Sys2Proof Sys2Proof.Machine in
/-- Settles O9: recording an error keeps a code that stands, on a block page and on a ring's, and INT_STATUS.ERR clears it. -/
theorem firstErrorKept : Obligations.FirstErrorKept := by
  intro s p code _
  have herr := State.common_recErr s p.toNat p.toNat code
  rw [if_pos rfl] at herr
  refine ⟨fun h0 => ?_, fun h => ?_, by rw [herr], fun bits hl hp => ?_, fun n hn => ⟨?_, ?_, fun bits hl => ?_⟩⟩
  · rw [herr, if_pos h0]
  · rw [herr, if_neg h]
  · exact ⟨_, exec_intStatusClear_block hl hp, State.common_intClear⟩
  · rw [State.ring_ringErr, if_pos rfl]
    rfl
  · rw [State.ring_ringErr, if_pos rfl]
    rfl
  · obtain ⟨-, hcode, herr⟩ := State.ring_ringIntClear (s := s.ungate) (n := n) (bits := bits)
    exact ⟨_, exec_intStatusClear_ring hl hn, hcode, herr⟩
end

section
/-! ## Pages that the map does not assign -/
namespace Sys2Proof.Machine
variable {s : State} {p off : Nat}

theorem isBlockPage_of_mem {first count : Nat} {safe : Bool} (hb : (first, count, safe) ∈ blockMap) (hfirst : first ≤ p)
    (hlast : p < first + count) : isBlockPage p = true := by
  rw [isBlockPage, blockOf, List.find?_isSome]
  exact ⟨_, hb, by simp [hfirst, hlast]⟩

/-- Every page that a register of the tables stands on is a page of a block. -/
theorem registerPages_assigned : Reg.all.all (fun r =>
    (List.range r.desc.pages).all (fun k => isBlockPage (r.desc.page + k * r.desc.pageStep))) = true := by
  decide +kernel

theorem State.copyAt_unassigned {r : Reg} (hr : r ∈ Reg.all) (h : isBlockPage p = false) : s.copyAt r p off = none := by
  by_contra hcopy
  have hpages : ¬(p < r.desc.page ∨ r.desc.pageStep = 0) := fun hout => hcopy (if_pos hout)
  have hcount : ¬(r.desc.pages ≤ (p - r.desc.page) / r.desc.pageStep ∨ (p - r.desc.page) % r.desc.pageStep ≠ 0) :=
    fun hout => hcopy ((if_neg hpages).trans (if_pos hout))
  have hassigned := List.all_eq_true.1 (List.all_eq_true.1 registerPages_assigned r hr)
    ((p - r.desc.page) / r.desc.pageStep) (List.mem_range.2 (by omega))
  have hp : r.desc.page + (p - r.desc.page) / r.desc.pageStep * r.desc.pageStep = p := by
    rw [Nat.div_mul_cancel (Nat.dvd_of_mod_eq_zero (by omega))]
    omega
  rw [hp, h] at hassigned
  exact Bool.false_ne_true hassigned

theorem State.read32_unassigned (h : isBlockPage p = false) (hring : ringOf p = none) : s.read32 p off = 0 := by
  have hnot : ¬(512 ≤ p ∧ p < 768) := fun hin => by simp [ringOf, pgRing, hin] at hring
  have hblock : blockOf p = none := Option.not_isSome_iff_eq_none.1 (by simpa [isBlockPage] using h)
  rw [State.read32, if_neg hnot]
  split
  · simp [State.commonReg, hblock]
  · refine List.sum_eq_zero fun x hx => ?_
    obtain ⟨r, hr, rfl⟩ := List.mem_map.1 hx
    simp [State.fieldBits, State.copyAt_unassigned hr h]

/-- A block whose EN has no row of its own is on the map. -/
theorem isBlockPage_of_plainEnable (h : plainEnable p = true) : isBlockPage p = true := by
  simp only [plainEnable, isPlatform, pgEvic, pgSec, pgHbm, pgFcd, pgCru, Bool.or_eq_true, Bool.and_eq_true,
    decide_eq_true_eq, beq_iff_eq] at h
  rcases h with ((((h | h) | h) | h) | h) | h
  · interval_cases p <;> decide
  · subst h
    decide
  · exact isBlockPage_of_mem (first := 8) (count := 4) (safe := false) (by decide)
      (of_decide_eq_true h.1).le (of_decide_eq_true h.2)
  · exact isBlockPage_of_mem (first := 48) (count := 12) (safe := false) (by decide)
      (of_decide_eq_true h.1) (of_decide_eq_true h.2)
  · exact isBlockPage_of_mem (first := 64) (count := 8) (safe := false) (by decide)
      (of_decide_eq_true h.1) (of_decide_eq_true h.2)
  · exact isBlockPage_of_mem (first := 256) (count := 128) (safe := true) (by decide)
      (of_decide_eq_true h.1) (of_decide_eq_true h.2)

theorem State.blockEnable_unassigned {en : Bool} (h : isBlockPage p = false) : s.blockEnable p en = s := by
  have hplain : plainEnable p = false := Bool.eq_false_iff.2 fun hp => by simp [isBlockPage_of_plainEnable hp] at h
  simp [State.blockEnable, hplain]

end Sys2Proof.Machine

open Sys2Proof Sys2Proof.Machine in
/-- Settles O10: no register of the tables stands on such a page, and each row that writes asks the map first. -/
theorem unassignedPages : Obligations.UnassignedPages := by
  intro s p hp hr
  refine ⟨fun off => State.read32_unassigned hp hr, fun hl => ⟨fun off v wide hoff halign => ?_, fun bits => ⟨?_, ?_, ?_⟩,
    fun en => ?_, ?_, ?_⟩, fun q => State.common_ungate .., fun n => State.ring_ungate ..⟩
  · rw [exec_registerWrite off v wide hl, State.registerWrite_unassigned halign (hoff ▸ hr) (hoff ▸ hp)]
  · simp [exec, execIntSet, State.touch_live, hl, hr, hp]
  · simp [exec, execIntEnableWrite, State.touch_live, hl, hr, hp]
  · simp [exec, execIntStatusClear, State.touch_live, hl, hr, hp]
  · simp [exec, execBlockEnable, State.touch_live, hl, State.blockEnable_unassigned hp]
  · simp [exec, execSoftRst, State.touch_live, hl, hp]
  · simp [exec, execCommit, State.touch_live, hl, hp]
end

section
/-! ## CTRL of a block page -/
namespace Sys2Proof.Machine
variable {s : State} {p q : Nat} {en : Bool}

theorem State.blockEnable_platform (h : isPlatform p = true) (hf : s.failed p = false) : s.blockEnable p en = s.setEn p en := by
  simp [State.blockEnable, plainEnable, h, hf]

/-! A block that is not of the platform. -/

theorem State.blockEnable_running (hplat : isPlatform p = false) (h : s.pageState p ≠ 0) : s.blockEnable p true = s := by
  simp [State.blockEnable, hplat, h]

section
variable (hplain : plainEnable p = true) (hplat : isPlatform p = false)
include hplain hplat

theorem State.blockEnable_disabled (h : s.pageState p = 0) : s.blockEnable p true = s.enableBlock p := by
  simp [State.blockEnable, State.failed, hplain, hplat, h]

theorem State.blockEnable_off (h : s.pageState p ≠ 0) (hf : s.failed p = false) : s.blockEnable p false = s.disableBlock p := by
  simp [State.blockEnable, hplain, hplat, h, hf]

end

/-! Soft reset. -/

/-- The registers that a soft reset leaves: PROGRESS and the waiting commit are gone, and no value is pending (R28). -/
def Common.softRst (c : Common) : Common :=
  { c with position := 0, percent := 0, valid := false, commitPend := false, shadowPend := false }

/-- Clearing the counters of a page touches register values alone. -/
theorem State.clearCounters_eq : ∃ m, s.clearCounters p = { s with regs := m } := by
  refine foldl_preserves (P := fun t => ∃ m, t = { s with regs := m }) ?_ _ ⟨s.regs, rfl⟩
  rintro t r ⟨m, rfl⟩
  (repeat' split) <;> exact ⟨_, rfl⟩

theorem State.common_softRst : (s.softRst p).common q = if q = p then (s.common p).softRst else s.common q := by
  obtain ⟨m, hm⟩ := (s.dropShadow p).clearCounters_eq (p := p)
  have hdrop (r : Nat) : ((s.dropShadow p).clearCounters p).common r
      = if r = p then { s.common p with shadowPend := false } else s.common r := by
    rw [hm]
    exact State.common_setCommon ..
  have htel (t : State) (f : Tel → Tel) (r : Nat) : (t.onTel f).common r = t.common r := rfl
  simp only [State.softRst, htel, State.common_setCommon, hdrop, if_true]
  split <;> rfl

theorem State.softRst_frame : (s.softRst p).cmds = s.cmds ∧ (s.softRst p).rings = s.rings ∧ (s.softRst p).sdir = s.sdir := by
  obtain ⟨m, hm⟩ := (s.dropShadow p).clearCounters_eq (p := p)
  simp only [State.softRst, hm]
  exact ⟨rfl, rfl, rfl⟩

/-! Commit and the safe point. -/

/-- A commit takes effect: the pending values are applied, and HOLD and the waiting commit are cleared (R32). -/
def State.committed (s : State) (p : Nat) : State :=
  (s.applyShadow p).setCommon p { (s.applyShadow p).common p with hold := false, commitPend := false }

theorem State.commitPage_now (h : hasSafePoint p = false ∨ (s.common p).en = false ∨ s.busy p = false) :
    s.commitPage p = s.committed p := by
  refine if_pos ?_
  rcases h with h | h | h <;> simp [h]

theorem State.commitPage_waits (hsafe : hasSafePoint p = true) (hen : (s.common p).en = true) (hbusy : s.busy p = true) :
    s.commitPage p = s.setCommon p { s.common p with commitPend := true } := by
  simp [State.commitPage, hsafe, hen, hbusy]

theorem State.safePoint_committed (h : (s.common p).commitPend = true) : s.safePoint p = s.committed p := if_pos h

end Sys2Proof.Machine

open Sys2Proof Sys2Proof.Machine in
/-- Settles O12: the page's kind and state select what EN does, and whether it is busy when a commit acts. -/
theorem blockControl : Obligations.BlockControl := by
  intro p s hl hp
  have henable (en : Bool) : exec (.blockEnable p en) s = .next (s.ungate.blockEnable p.toNat en) := by
    simp [exec, execBlockEnable, State.touch_live, hl]
  have hsoft : exec (.softRst p) s = .next (s.ungate.softRst p.toNat) := by
    simp [exec, execSoftRst, State.touch_live, hl, hp]
  have hcommit (hfam : p.toNat ≠ pgFam) : exec (.commit p) s = .next (s.ungate.commitPage p.toNat) := by
    simp [exec, execCommit, State.touch_live, hl, hp, hfam]
  refine ⟨fun en hplat hf => ?_, fun hplain hplat h0 => ?_, fun hplain hplat h0 hf => ⟨?_, ?_⟩, ⟨_, hsoft, ?_⟩,
    fun hfam hnow => ?_, fun hfam hsafe hen hbusy => ?_, fun hat hpend => ?_⟩
  · exact (henable en).trans (congrArg _ (State.blockEnable_platform hplat hf))
  · exact (henable true).trans (congrArg _ (State.blockEnable_disabled hplain hplat h0))
  · exact (henable true).trans (congrArg _ (State.blockEnable_running hplat h0))
  · exact (henable false).trans (congrArg _ (State.blockEnable_off hplain hplat h0 hf))
  · simp only [State.pageState, State.common_softRst, if_true, State.common_ungate]
    exact ⟨rfl, rfl, rfl, rfl, rfl, rfl, rfl, rfl, fun q hq => if_neg hq, State.softRst_frame⟩
  · exact (hcommit hfam).trans (congrArg _ (State.commitPage_now hnow))
  · exact (hcommit hfam).trans (congrArg _ (State.commitPage_waits hsafe hen hbusy))
  · simp only [exec, execShadowApply, hat, if_true, State.safePoint_committed hpend]
    rfl
end

section
/-! ## NOP and FENCE -/
namespace Sys2Proof.Machine
variable {s : State} {id : Nat} {c : Cmd}

theorem exec_nop (h : s.readyPlain id 0x01 c) : exec (.nop id) s = .next ((s.complete id .ok 0 0).settled s id c) :=
  congrArg Host.Outcome.next (State.commandRow_readyPlain s id _ c effNop h)

theorem exec_fence (h : s.readyPlain id 0x02 c) : exec (.fence id) s = .next ((s.complete id .ok 0 0).settled s id c) :=
  congrArg Host.Outcome.next (State.commandRow_readyPlain s id _ c effFence h)

end Sys2Proof.Machine

open Sys2Proof Sys2Proof.Machine in
/-- Settles O13: the attempt of a ready command runs its effect, and both effects complete. -/
theorem nopAndFence : Obligations.NopAndFence := fun _ _ _ => ⟨exec_nop, exec_fence⟩
end

section
/-! ## What uses no free value

Only what the rules leave undefined takes a free value (log entry 1). -/
namespace Sys2Proof.Machine
variable {s : State} (slot owner bytes n k id detail : Nat) (l : List Nat) (st : Status)

@[simp] theorem State.free_foldl {β : Type} (f : State → β → State) (h : ∀ t b, (f t b).free = t.free) (l : List β) :
    (l.foldl f s).free = s.free := foldl_keeps State.free f h l s

/-! Pages and their tables. -/

@[simp] theorem State.free_heapGive : (s.heapGive owner bytes).free = s.free := by
  unfold State.heapGive
  rfl
@[simp] theorem State.free_setPage (p : PageRec) : (s.setPage n p).free = s.free := by
  simp [State.setPage]
@[simp] theorem State.free_onPage (f : PageRec → PageRec) : (s.onPage n f).free = s.free := by
  unfold State.onPage
  split <;> simp
@[simp] theorem State.free_dropUsers : (s.dropUsers l).free = s.free := by simp [State.dropUsers]
@[simp] theorem State.free_handOver : (s.handOver n).free = s.free := by
  unfold State.handOver
  split <;> rfl
@[simp] theorem State.free_failPage (p code : Nat) : (s.failPage p code).free = s.free := by
  unfold State.failPage
  split <;> simp
@[simp] theorem State.free_decRef : (s.decRef n).free = s.free := by
  unfold State.decRef
  (repeat' split) <;> simp

@[simp] theorem State.free_dropHbm : (s.dropHbm n).free = s.free := by
  unfold State.dropHbm
  (repeat' split) <;> simp
@[simp] theorem State.free_dropFlash : (s.dropFlash n).free = s.free := by
  unfold State.dropFlash
  (repeat' split) <;> simp
@[simp] theorem State.free_dropPool : (s.dropPool n).free = s.free := by
  unfold State.dropPool
  (repeat' split) <;> simp
@[simp] theorem State.free_dropIdleHbm : (s.dropIdleHbm n).free = s.free := by
  unfold State.dropIdleHbm
  (repeat' split) <;> simp
@[simp] theorem State.free_dropIdlePool : (s.dropIdlePool n).free = s.free := by
  unfold State.dropIdlePool
  (repeat' split) <;> simp
@[simp] theorem free_releaseFlash (fuel : Nat) : (releaseFlash fuel s).free = s.free := by
  induction fuel generalizing s with
  | zero => rfl
  | succ fuel ih =>
    simp only [releaseFlash]
    (repeat' split) <;> simp [ih]
@[simp] theorem State.free_easeFlash : s.easeFlash.free = s.free := by
  unfold State.easeFlash
  split <;> simp
@[simp] theorem State.free_releaseHeld : (s.releaseHeld n).free = s.free := by
  unfold State.releaseHeld
  extract_lets idle due
  have hidle : idle.free = s.free := State.free_dropIdleHbm n
  have hdue : due.free = idle.free := by
    clear_value idle
    simp only [due]
    (repeat' split) <;> simp
  rw [State.free_easeFlash, hdue, hidle]
@[simp] theorem State.free_unpin : (s.unpin n).free = s.free := by
  unfold State.unpin
  split
  · rfl
  · next p _ =>
    extract_lets less
    have hless : less.free = s.free := State.free_setPage ..
    clear_value less
    (repeat' split) <;> simp [hless]

/-! Sessions and steps. -/

@[simp] theorem State.free_giveSlot : (s.giveSlot slot).free = s.free := by
  simp only [State.giveSlot]; (repeat' split) <;> simp
@[simp] theorem State.free_unlockEntry : (s.unlockEntry slot).free = s.free := by
  simp [State.unlockEntry, State.setWays]
@[simp] theorem State.free_freeClosed : (s.freeClosed slot).free = s.free := by
  unfold State.freeClosed
  (repeat' split) <;> simp
@[simp] theorem State.free_emptyHeader (q : StepReq) : (s.emptyHeader q st).free = s.free := by
  unfold State.emptyHeader
  (repeat' split) <;> simp
@[simp] theorem State.free_stepCompletion (q : StepReq) : (s.stepCompletion slot q st detail).free = s.free := by
  unfold State.stepCompletion
  split
  · rfl
  · dsimp only
    (repeat' split) <;> simp
@[simp] theorem State.free_endStep : (s.endStep slot st detail).free = s.free := by
  unfold State.endStep
  (repeat' split) <;> simp

/-! Sources that fail. -/

@[simp] theorem State.free_dropLoad (m : Model) : (s.dropLoad n m).free = s.free := by
  simp [State.dropLoad, State.abortLong, State.destroyModelKey]
@[simp] theorem State.free_eraseMove : (s.eraseMove n).free = s.free := by
  simp only [State.eraseMove]
  split <;> simp
@[simp] theorem State.free_eraseJob (j : CapsuleJob) : (s.eraseJob n j).free = s.free := by
  simp [State.eraseJob]
@[simp] theorem State.free_undoArrival : (s.undoArrival slot).free = s.free := by
  unfold State.undoArrival
  split <;> simp
@[simp] theorem State.free_undoReturn (j : CapsuleJob) : (s.undoReturn j).free = s.free := by
  unfold State.undoReturn
  split <;> simp
@[simp] theorem State.free_undoJob (j : CapsuleJob) : (s.undoJob j).free = s.free := by
  unfold State.undoJob
  split <;> simp
@[simp] theorem State.free_sourceFail : (s.sourceFail id).free = s.free := by
  unfold State.sourceFail
  (repeat' split) <;> simp [State.abortLong]

end Sys2Proof.Machine
end

section
/-! ## Commands that fail -/
namespace Sys2Proof.Machine
variable {s : State} {id : Nat} {c : Cmd}

/-- What the watchdog does to a command that hangs: its block records a code that no rule gives (R64). -/
def State.hung (s : State) (id : Nat) (c : Cmd) : State :=
  let u := (s.recErr (blockPage c.desc.opcode) ((Config.freeWord s.free).toNat % 65535 + 1)).useFree
  match u.stepSlot id, u.endedSlot id with
  | some k, _ => u.endStep k .internal 0
  | none, some k => (u.onSession k (fun x => { x with ended := none })).complete id .internal
  | none, none => (u.sourceFail id).complete id .internal

theorem State.free_hung : (s.hung id c).free = s.free + 1 := by
  simp only [State.hung]
  split <;> simp [State.useFree]

theorem exec_commandWatchdog_due (hc : s.cmd? id = some c) (hms : s.reg .GLB_WATCHDOG_MS ≠ 0)
    (hcounts : s.watchdogCounts id c = true)
    (hdue : max c.progressTick c.startTick + s.reg .GLB_WATCHDOG_MS * 1000000 ≤ s.tick) :
    exec (.commandWatchdog id) s = .next (s.hung id c) := by
  simp only [exec, execCommandWatchdog, hc]
  exact congrArg _ (if_pos ⟨hms, hcounts, hdue⟩)

theorem exec_commandWatchdog_exempt (hc : s.cmd? id = some c) (hcounts : s.watchdogCounts id c = false) :
    exec (.commandWatchdog id) s = .next s := by
  simp [exec, execCommandWatchdog, hc, hcounts]

/-- A command in a wait that does not count, and any command while a checkpoint or a restore holds the device. -/
theorem State.watchdogCounts_exempt (h : c.desc.opcode = 0x1B ∨ s.freeze ≠ 0 ∨ s.ckp.restore ≠ none ∨
    (c.exempt = true ∧ c.desc.opcode ≠ 0x1A) ∨ (c.phase ≠ .running ∧ c.phase ≠ .started)) :
    s.watchdogCounts id c = false := by
  rcases h with h | h | h | ⟨hexempt, hop⟩ | ⟨hrun, hstart⟩
  · simp [State.watchdogCounts, h]
  · simp [State.watchdogCounts, h]
  · simp [State.watchdogCounts, h]
  · simp [State.watchdogCounts, hexempt, hop]
  · simp [State.watchdogCounts, hrun, hstart]

/-! A payload that cannot be written (R549). -/

theorem exec_payloadWriteFail (hc : s.cmd? id = some c) (hw : writesPayload c.desc.opcode = true)
    (hp : c.phase = .started ∨ c.phase = .running) :
    exec (.payloadWriteFail id) s = .next (
      let t := (s.ringErr c.ring 0x0009).spoilPayload c.desc
      match t.stepSlot id, t.endedSlot id with
      | some k, _ => t.endStep k .internal 0x0C
      | none, some k => (t.onSession k (fun x => { x with ended := none })).complete id .internal 0x0C
      | none, none => t.complete id .internal) := by
  simp only [exec, execPayloadWriteFail, hc]
  exact congrArg _ (if_pos ⟨hw, hp⟩)

/-! A source that fails while it is read (R550). -/

theorem exec_sourceReadFail_load (hload : s.loadsModel id = true) : exec (.sourceReadFail id) s = .next (s.sourceFail id) := by
  simp [exec, execSourceReadFail, hload]

theorem exec_sourceReadFail_running (hc : s.cmd? id = some c) (hrun : c.phase = .running) :
    exec (.sourceReadFail id) s = .next (s.sourceFail id) := by
  simp [exec, execSourceReadFail, hc, hrun]

section
variable {mid n : Nat} {m : Model} {j : CapsuleJob}

theorem State.sourceFail_load (hm : s.models.find? (fun _ m => !m.loaded && m.cmd == some id) = some (mid, m)) :
    s.sourceFail id = ((s.dropLoad mid m).recErr pgCru 0x0012).complete id .internal := by
  simp only [State.sourceFail, hm]

variable (hm : s.models.find? (fun _ m => !m.loaded && m.cmd == some id) = none)
include hm

theorem State.sourceFail_capsule
    (hj : s.jobs.find? (fun _ j => j.cmd == id && j.kind != .exportTo && j.kind != .migrateOut) = some (n, j)) :
    s.sourceFail id =
      let t := ({ (s.eraseJob n j) with migrations := s.migrations.erase id } : State).undoJob j
      ((if j.kind = .importFrom then t.abortLong pgStm else t).recErr pgStm 0x0007).complete id .internal := by
  simp only [State.sourceFail, hm, hj]

theorem State.sourceFail_vocab (hj : s.jobs.find? (fun _ j => j.cmd == id && j.kind != .exportTo && j.kind != .migrateOut) = none)
    (hc : s.cmd? id = some c) (hrun : c.phase = .running) (hop : c.desc.opcode = 0x43) :
    s.sourceFail id = (s.recErr pgMrv 0x0002).complete id .internal := by
  simp [State.sourceFail, hm, hj, hc, hrun, hop]

end
end Sys2Proof.Machine

open Sys2Proof Sys2Proof.Machine in
/-- Settles O30: the watchdog takes one free value, for the code; the sessions' slots select how a command ends; and what a
source was read for selects what its failure undoes. -/
theorem commandFailures : Obligations.CommandFailures := by
  refine ⟨fun s id c hc hms => ⟨fun hcounts hdue => ?_, fun hexempt => ?_⟩,
    fun s id c => ⟨fun hc hw hp => ?_, fun mid m hm => ?_, fun n j hc hrun hm hj => ?_, fun hc hrun hop hm hj => ?_⟩⟩
  · exact ⟨_, exec_commandWatchdog_due hc hms hcounts hdue, State.free_hung, rfl⟩
  · exact exec_commandWatchdog_exempt hc (State.watchdogCounts_exempt hexempt)
  · intro t
    rw [exec_payloadWriteFail hc hw hp]
    exact ⟨fun hstep hended => by simp only [t] at hstep hended ⊢; simp only [hstep, hended],
      fun k hstep hended => by simp only [t] at hstep hended ⊢; simp only [hstep, hended],
      fun k hstep => by simp only [t] at hstep ⊢; simp only [hstep]⟩
  · rw [exec_sourceReadFail_load (by simp [State.loadsModel, hm]), State.sourceFail_load hm]
  · intro t
    rw [exec_sourceReadFail_running hc hrun, State.sourceFail_capsule hm hj]
  · rw [exec_sourceReadFail_running hc hrun, State.sourceFail_vocab hm hj hc hrun hop]
end

section
/-! ## Models: loading and unloading -/
namespace Sys2Proof.Machine
variable {s t : State} {id mid : Nat} {c : Cmd} {m : Model}

theorem exec_modelLoad (h : s.readyPlain id 0x40 c) : exec (.modelLoad id) s = .next ((opModelLoad s id c).settled s id c) :=
  congrArg Host.Outcome.next (State.commandRow_readyPlain s id _ c effModelLoad h)

theorem exec_modelUnload (h : s.readyPlain id 0x41 c) :
    exec (.modelUnload id) s = .next ((opModelUnload s id c).settled s id c) :=
  congrArg Host.Outcome.next (State.commandRow_readyPlain s id _ c effModelUnload h)

theorem State.models_settled : (t.settled s id c).models = t.models :=
  congrArg Steady.models (State.steady_settled (may := {}) id c)

/-! ### MODEL_LOAD -/

/-- The entry of a model that is being loaded at a place (R218). -/
def State.newModel (s : State) (id : Nat) (d : Desc) (h : List Byte) (base : Nat) : Model where
  cmd := some id
  resident := d.optBit 10
  isPrivate := d.optBit 11
  tenant := if d.optBit 11 then bitsOf (d.specF 38 37) 0 12 else 0
  fp := leAt h 16 32
  weightBytes := leAt h 72 8
  base := base
  bytes := pkgAllotment h
  keyRef := leAt h 48 16
  keys := [1, 2, 3, 4].map (sectionKey (s.modelKey (leAt h 48 16)) (leAt h 16 32))

/-- A load that has its allotment: the long operation of GLB runs (R35, R218). -/
def State.loadBegun (s : State) (id mid : Nat) (m : Model) : State :=
  (({ s with models := s.models.set mid m } : State).beginLong pgGlb).runCmd id false

theorem opModelLoad_eq
    (htenant : c.desc.optBit 11 = true → s.tenantOpen (bitsOf (c.desc.specF 38 37) 0 12) = true)
    (hfree : s.longBusy pgGlb = false) (hregion : s.modelRegionOk = true) :
    opModelLoad s id c =
      let h := s.readSrc (c.desc.opt 8 2) (c.desc.specF 47 40) 256
      match s.loadChecks (c.desc.specF 36 36) (c.desc.specF 55 48) (c.desc.optBit 10) h with
      | .refuse st r => s.refuse id st r
      | .noSpace k => (s.destroyModelKey (leAt h 48 16)).complete id .noSpace k
      | .pass base => s.loadBegun id (c.desc.specF 36 36) (s.newModel id c.desc h base) := by
  have hopen : (c.desc.optBit 11 && !s.tenantOpen (bitsOf (c.desc.specF 38 37) 0 12)) = false := by
    cases hpriv : c.desc.optBit 11 with
    | false => rfl
    | true => simp [htenant hpriv]
  simp only [opModelLoad, hopen, hfree, hregion, Bool.not_true, Bool.false_eq_true, if_false]
  rfl

theorem State.models_loadBegun : (s.loadBegun id mid m).models = s.models.set mid m := by simp [State.loadBegun]

theorem State.commons_loadBegun :
    (s.loadBegun id mid m).common pgGlb = { s.common pgGlb with busy := true, position := 0, percent := 0, valid := true } := by
  have hrun (u : State) : (u.runCmd id false).common pgGlb = u.common pgGlb := State.common_congr (by simp) _
  rw [State.loadBegun, hrun, State.beginLong, State.common_setCommon_self]
  rfl

theorem State.cmd?_loadBegun (hc : s.cmd? id = some c) : ((s.loadBegun id mid m).cmd? id).map (·.phase) = some .running := by
  have hbegun : (({ s with models := s.models.set mid m } : State).beginLong pgGlb).cmd? id = some c := by
    rw [← hc]
    exact State.cmd?_congr (by simp) id
  rw [State.loadBegun, State.runCmd, State.cmd?_onCmd, if_pos rfl, hbegun]
  rfl

/-! ### The end of a load -/

theorem State.hasStaged_destroyModelKey (ref : Nat) : (s.destroyModelKey ref).hasStaged 3 ref = false := by
  simp +contextual [State.hasStaged, State.destroyModelKey, Map.values, Map.filter, or_iff_not_imp_left]

/-- A package that passes its checks makes its model usable, and the model key goes (R218, R450). -/
def State.loaded (s : State) (mid : Nat) (m n : Model) : State :=
  let t : State := { s with models := s.models.set mid n }
  let u := (if m.resident then t.fillSlices mid else t).destroyModelKey m.keyRef
  (u.progress pgGlb (ceilDiv m.weightBytes 1048576) 99).endLong pgGlb

theorem State.fillSlices_frame : (s.fillSlices mid).models = s.models := by
  unfold State.fillSlices
  exact foldl_keeps State.models _ (fun t n => by dsimp only; split <;> rfl) _ _

theorem State.models_loaded (n : Model) : (s.loaded mid m n).models.get? mid = some n := by
  have hfill (t : State) : (if m.resident then t.fillSlices mid else t).models = t.models := by
    split
    · exact State.fillSlices_frame
    · rfl
  simp [State.loaded, State.destroyModelKey, hfill]

theorem State.hasStaged_loaded (n : Model) : (s.loaded mid m n).hasStaged 3 m.keyRef = false := by
  refine Eq.trans ?_ (State.hasStaged_destroyModelKey (s := if m.resident then
    ({ s with models := s.models.set mid n } : State).fillSlices mid else { s with models := s.models.set mid n }) m.keyRef)
  simp [State.loaded, State.hasStaged]

/-- The long operation of a page is over: 100 percent (R35). -/
theorem State.common_endLong (p : Nat) : ((s.endLong p).common p).busy = false ∧ ((s.endLong p).common p).percent = 100 := by
  simp [State.endLong, State.common_setInt]

section
variable {p : LayerProgram} (hload : s.loadingModel = some (mid, m)) (hcmd : m.cmd = some id)
include hload hcmd

theorem exec_modelLoadDone :
    exec (.modelLoadDone p) s = .next (
      let pkg := s.openPackage id m p
      if !pkg.tablesOk m.weightBytes then (s.dropLoad mid m).refuse id .invalid 0x32
      else if !pkg.programOk then (s.dropLoad mid m).refuse id .invalid 0x34
      else if !pkg.authentic m.fp m.weightBytes then (s.dropLoad mid m).refuse id .security 0x06
      else (s.loaded mid m (pkg.install m)).complete id .ok 0 m.bytes) := by
  simp only [exec, execModelLoadDone, hload, hcmd]
  rfl

end

/-! ### MODEL_UNLOAD -/

theorem opModelUnload_eq (hfree : s.longBusy pgGlb = false) (hloaded : (s.model (c.desc.specF 36 36)).loaded = true) :
    opModelUnload s id c =
      if s.modelUsers (c.desc.specF 36 36) ≠ 0 then
        s.complete id .locked (min (s.modelUsers (c.desc.specF 36 36)) 0xFFFFFFFF)
      else (((s.releaseModel (c.desc.specF 36 36)).beginLong pgGlb).endLong pgGlb).complete id .ok 0
        (s.model (c.desc.specF 36 36)).bytes := by
  simp only [opModelUnload, hfree, hloaded, Bool.not_true, Bool.false_eq_true, if_false]

end Sys2Proof.Machine

open Sys2Proof Sys2Proof.Machine in
/-- Settles O31: checks 1 to 6 select what a load begins, checks 7 to 9 what its end installs, and the sessions that name a
model whether it is released. -/
theorem modelsLoaded : Obligations.ModelsLoaded := by
  refine ⟨?_, ?_, fun s id c hr hfree hloaded => ?_⟩
  · intro s id c hr d h htenant hfree hregion
    have hload := opModelLoad_eq (id := id) htenant hfree hregion
    have ⟨⟨hc, _⟩, _⟩ := hr
    rw [exec_modelLoad hr]
    refine ⟨fun base hpass => ?_, fun st r href => ?_, fun k hno => ?_⟩
    · simp only [d, h] at hpass
      simp only [hpass] at hload
      rw [hload]
      refine ⟨_, s.newModel id c.desc h base, rfl, ?_, rfl, rfl, rfl, rfl, rfl, ?_, ?_, fun k hk => ?_⟩
      · rw [State.models_settled, State.models_loadBegun, Map.get?_set, if_pos rfl]
      · rw [State.common_congr State.srch_commons_settled.2, State.commons_loadBegun]
      · rw [State.cmd?_settled, State.cmd?_loadBegun hc]
      · rw [State.models_settled, State.models_loadBegun, Map.get?_set, if_neg hk]
    · simp only [d, h] at href
      rw [hload]
      simp only [href]
    · simp only [d, h] at hno
      rw [hload]
      simp only [hno]
      rfl
  · intro s id mid m p hload hcmd pkg
    rw [exec_modelLoadDone hload hcmd]
    refine ⟨fun htab hprog haut => ?_, fun htab => ?_, fun htab hprog => ?_, fun htab hprog haut => ?_⟩
    · refine ⟨_, s.loaded mid m (pkg.install m), rfl, ?_, ⟨_, State.models_loaded _, rfl, rfl, rfl, rfl, rfl⟩,
        State.hasStaged_loaded _, State.common_endLong _⟩
      simp [pkg, htab, hprog, haut]
    · simp [pkg, htab]
    · simp [pkg, htab, hprog]
    · simp [pkg, htab, hprog, haut]
  · rw [exec_modelUnload hr, opModelUnload_eq hfree hloaded]
    exact ⟨fun h0 => by rw [if_neg (not_not.2 h0)], fun h0 => by rw [if_pos h0]⟩
end

section
/-! ## Composition, commit and PARTIAL completions -/
namespace Sys2Proof.Machine
variable {s : State} {k t id : Nat} {row : StepRow} {x : Session} {q : StepReq} {c : Cmd} {m : Migration}

/-! ### Composition (R253, R256) -/

section
variable (hmay : s.mayCompose = true) (hnew : s.gaf.composed = none)
include hmay hnew

theorem exec_stepCompose_running (hrun : s.gaf.running.isSome = true) : exec .stepCompose s = .next s.composeNow := by
  simp [exec, execStepCompose, hmay, hnew, hrun]

theorem exec_stepCompose_full (hrun : s.gaf.running = none) (hrows : s.candidates ≠ [])
    (hfull : s.reg .GAF_GATHER_US = 0 ∨ s.budget ≤ s.rowsWaiting) : exec .stepCompose s = .next s.composeNow := by
  simp [exec, execStepCompose, hmay, hnew, hrun, hrows, hfull]

theorem exec_stepCompose_gathers (hrun : s.gaf.running = none) (hrows : s.candidates ≠ []) (hdelay : s.reg .GAF_GATHER_US ≠ 0)
    (hfew : s.rowsWaiting < s.budget) (hgather : s.gaf.gather = none) :
    exec .stepCompose s = .next { s with gaf := { s.gaf with gather := some s.tick } } := by
  simp [exec, execStepCompose, hmay, hnew, hrun, hrows, hdelay, Nat.not_le.2 hfew, hgather]

theorem exec_gatherTimeout_due (hrun : s.gaf.running = none) (hgather : s.gaf.gather = some t)
    (hdue : t + s.reg .GAF_GATHER_US * 1000 ≤ s.tick) :
    exec .gatherTimeout s = .next ({ s with gaf := { s.gaf with gather := none } } : State).composeNow := by
  simp [exec, execGatherTimeout, hmay, hnew, hrun, hgather, hdue]

end

/-! ### Commit and the waits before it (R149, R258, R396) -/

/-- A session that does not wait for a version has no wait to end. -/
theorem State.endVerWait_of_none (hx : s.session? k = some x) (hw : x.verWait = none) : s.endVerWait k = s := by
  simp only [State.endVerWait, hx, hw]

theorem State.endVerWait_of_some (hx : s.session? k = some x) (hw : x.verWait = some t) :
    s.endVerWait k = (s.setSession k { x with verWait := none }).raiseReg .STM_VER_STALL_MAX_TICKS (min 50000 (s.tick - t)) := by
  simp only [State.endVerWait, hx, hw]

theorem State.beginVerWait_of_none (hx : s.session? k = some x) (hw : x.verWait = none) :
    s.beginVerWait k = (s.setSession k { x with verWait := some s.tick }).bump .STM_VER_STALLS_COUNT := by
  simp [State.beginVerWait, hx, hw]

section
variable (hx : s.session? k = some x) (hrow : s.rowOf k = some row)
include hx hrow

theorem exec_stepCommit (hfreeze : s.freeze ≠ 2) : exec (.stepCommit k) s = .next (s.commitOrWait row x) := by
  simp [exec, execStepCommit, hrow, hx, hfreeze]

theorem exec_versionWaitTimeout_due (hw : x.verWait = some t) (hdue : t + 50000 ≤ s.tick) :
    exec (.versionWaitTimeout k) s = .next ((s.endVerWait k).commitRow row { x with verWait := none } true) := by
  simp [exec, execVersionWaitTimeout, hrow, hx, hw, hdue]

end

theorem State.commitOrWait_commits {v : Nat} (hlease : s.leaseOk x = true) (hfree : x.freeVersion = some v) :
    s.commitOrWait row x = (s.endVerWait row.slot).commitRow row { x with verWait := none } false := by
  simp [State.commitOrWait, hlease, hfree]

theorem State.commitOrWait_stalls (hlease : s.leaseOk x = true) (hfree : x.freeVersion = none) :
    s.commitOrWait row x = s.beginVerWait row.slot := by
  simp [State.commitOrWait, hlease, hfree]

theorem State.commitOrWait_validates (hlease : s.leaseOk x = false) : s.commitOrWait row x = s.awaitLease row.slot := by
  simp [State.commitOrWait, hlease]

theorem exec_tailAllotGiveUp_due (hx : s.session? k = some x) (hfail : x.allotFail = some t) (hq : x.stepReq = some q)
    (hdue : t + 10000000 ≤ s.tick) :
    exec (.tailAllotGiveUp k) s = .next ((((s.endStep k .noSpace 11).onSession k (fun y => { y with allotFail := none })).bump
      .GAF_ALLOT_FAILS_COUNT).setIntBit pgGaf 9) := by
  simp [exec, execTailAllotGiveUp, hx, hfail, hq, hdue]

/-! ### PARTIAL completions that waited for a slot (R48) -/

theorem exec_partialSlotFree_offer (hm : s.migrations.find? (fun _ m => m.slot == k && m.partialDue) = some (id, m))
    (hc : s.cmd? id = some c) (hfree : (s.ring c.ring).freeSlots ≠ 0) :
    exec (.partialSlotFree k) s
      = .next (({ s with migrations := s.migrations.set id { m with partialDue := false } } : State).writeCompletion c.ring
          c.desc .part 0 c.desc.handle m.len) := by
  simp [exec, execPartialSlotFree, hm, State.offerPartial, hc, hfree]

/-- A PARTIAL completion that finds a free slot of its completion ring is written. -/
theorem State.writePartial_free (hc : s.cmd? q.cmd = some c) (hfree : (s.ring c.ring).freeSlots ≠ 0) :
    s.writePartial k q = (s.writeCompletion c.ring c.desc .part 0 c.desc.handle q.result, { q with sincePartial := 0 }) := by
  simp [State.writePartial, hc, hfree]

section
variable (hm : s.migrations.find? (fun _ m => m.slot == k && m.partialDue) = none) (hx : s.session? k = some x)
  (hheld : x.heldBack = true) (hc : s.cmd? q.cmd = some c) (hfree : (s.ring c.ring).freeSlots ≠ 0)
include hm hx hheld hc hfree

theorem exec_partialSlotFree_step (hq : x.stepReq = some q) :
    exec (.partialSlotFree k) s
      = .next (((s.setSession k { x with heldBack := false }).writeCompletion c.ring c.desc .part 0 c.desc.handle
          q.result).onSession k (fun y => { y with stepReq := some { q with sincePartial := 0 } })) := by
  have hw := State.writePartial_free (s := s.setSession k { x with heldBack := false }) (k := k) hc hfree
  simp only [exec, execPartialSlotFree, hm, State.partialFree, hx, hheld, Bool.not_true, Bool.false_eq_true, if_false]
  split
  · next heq =>
    cases hq.symm.trans heq
    rw [hw]
  · next heq _ => exact absurd (hq.symm.trans heq) nofun
  · next heq _ => exact absurd (hq.symm.trans heq) nofun

theorem exec_partialSlotFree_ended {d : Nat} (hq : x.stepReq = none) (hd : x.ended = some (q, d)) :
    exec (.partialSlotFree k) s
      = .next (((s.setSession k { x with heldBack := false }).writeCompletion c.ring c.desc .part 0 c.desc.handle
          q.result).onSession k (fun y => { y with ended := some ({ q with sincePartial := 0 }, d) })) := by
  have hw := State.writePartial_free (s := s.setSession k { x with heldBack := false }) (k := k) hc hfree
  simp only [exec, execPartialSlotFree, hm, State.partialFree, hx, hheld, Bool.not_true, Bool.false_eq_true, if_false]
  split
  · next heq => exact absurd (hq.symm.trans heq) nofun
  · next _ heq =>
    cases hd.symm.trans heq
    rw [hw]
  · next _ heq => exact absurd (hd.symm.trans heq) nofun

end
end Sys2Proof.Machine

open Sys2Proof Sys2Proof.Machine in
/-- Settles O33: a step composes, commits or waits by the branch that its conditions select, and a session that waits for no
version has no wait to end. -/
theorem stepsComposeAndCommit : Obligations.StepsComposeAndCommit := by
  refine ⟨fun s hmay hnew => ⟨exec_stepCompose_running hmay hnew, exec_stepCompose_full hmay hnew,
      exec_stepCompose_gathers hmay hnew, fun t => exec_gatherTimeout_due hmay hnew⟩,
    fun s k row x hx => ⟨fun v hrow hk hfreeze hlease hfree hw => ?_, fun hrow hk hfreeze hlease hfree hw => ?_,
      fun hrow hk hfreeze hlease => ?_, fun t hrow hw hdue => ?_, fun t q => exec_tailAllotGiveUp_due hx⟩,
    fun s k => ⟨fun id m c => exec_partialSlotFree_offer,
      fun x q c hm hx hheld hq hc hfree => exec_partialSlotFree_step hm hx hheld hc hfree hq,
      fun x q d c hm hx hheld hq hd hc hfree => exec_partialSlotFree_ended hm hx hheld hc hfree hq hd⟩⟩
  · rw [exec_stepCommit hx hrow hfreeze, State.commitOrWait_commits hlease hfree, hk, State.endVerWait_of_none hx hw]
  · rw [exec_stepCommit hx hrow hfreeze, State.commitOrWait_stalls hlease hfree, hk, State.beginVerWait_of_none hx hw]
  · rw [exec_stepCommit hx hrow hfreeze, State.commitOrWait_validates hlease, hk]
  · rw [exec_versionWaitTimeout_due hx hrow hw hdue, State.endVerWait_of_some hx hw]
end
